-- ==== Sys2Proof/Word.lean ====
section
/-! DEFINITION. Bytes, the three byte orders of the spec (R5 line: little-endian; R6 northbound: network order;
R7 dictionary: little-endian) and two's complement. -/

namespace Sys2Proof

/-- One byte, as the dictionary, the buffers and the frames carry it. -/
abbrev Byte := BitVec 8

/-- The `n` low bytes of `v`, least significant first (R5, R7). -/
def leBytes : Nat → Nat → List Byte
  | 0, _ => []
  | n + 1, v => BitVec.ofNat 8 v :: leBytes n (v / 256)

/-- The number that bytes spell, least significant first (R5, R7). -/
def ofLe : List Byte → Nat
  | [] => 0
  | b :: bs => b.toNat + 256 * ofLe bs

/-- The `n` low bytes of `v` in network order (R6). -/
def beBytes (n v : Nat) : List Byte := (leBytes n v).reverse

/-- The number that bytes spell in network order (R6). -/
def ofBe (bs : List Byte) : Nat := ofLe bs.reverse

/-- The signed value of the low `bits` bits of `v` (two's complement, R428). -/
def sgn (bits v : Nat) : Int :=
  let w := v % 2 ^ bits
  if w < 2 ^ (bits - 1) then (w : Int) else (w : Int) - (2 ^ bits : Nat)

/-- The two's-complement encoding of `z` in `bits` bits (R428). -/
def twos (bits : Nat) (z : Int) : Nat := (z % (2 ^ bits : Nat)).toNat

/-- Bits `[lo + w - 1 : lo]` of `v`. -/
def field (v lo w : Nat) : Nat := v / 2 ^ lo % 2 ^ w

/-- Bit `i` of `v`. -/
def bitOf (v i : Nat) : Bool := v / 2 ^ i % 2 = 1

/-- A Boolean as the dictionary stores it (R428). -/
def boolNat (b : Bool) : Nat := if b then 1 else 0

/-- `z` held within `[lo, hi]`. -/
def clampInt (lo hi z : Int) : Int := if z < lo then lo else if hi < z then hi else z

end Sys2Proof
end

