-- ==== Sys2Proof/Syntax.lean ====
section
/-! DEFINITION. The commands of the device: one constructor for each row of the spec's table of operations and events. The
table gives no operands; those here carry what the world brings to the step (assumption log, entry 1). -/

namespace Sys2Proof

/-- The path a dictionary access takes (R427, R433): CAN FD, UDP management principal `m`, local SPI, the store at boot
(R450), and the resident firmware itself (R361). -/
inductive Path where
  | can
  | udp (m : Nat)
  | spi
  | store
  | firmware
  deriving DecidableEq, Repr

/-- What a read of an ECC-protected word finds (R21, R371). -/
inductive Ecc where
  | clean | corrected | uncorrectable
  deriving DecidableEq, Repr

/-- The word a scrubber or a scan reads: a working-memory byte offset, a word of queue `q` (held or free) with its index in
queue memory, or a byte offset in the memory of core `c` (R22, R23, R371). -/
inductive ScanTarget where
  | working (off : Nat)
  | queue (q : Nat) (held : Bool) (word : Nat)
  | core (c off : Nat)
  deriving DecidableEq, Repr

/-- What the world gives a dictionary write: whether the two vault runs agree, whether the flash is large enough for
the store, and the faulty word that a check unit's scan meets (R335, R358, R449). -/
structure WriteEnv where
  vaultOk : Bool := true
  flashFits : Bool := true
  scan : Option (Nat × Ecc) := none
  deriving DecidableEq, Repr

/-- What the world gives one boot (R344, R488, R508): the level of CANID, the vault self-test, and
the time the boot takes in microseconds. -/
structure BootEnv where
  canId : Nat := 0
  selfTestOk : Bool := true
  bootUs : Nat := 0
  deriving DecidableEq, Repr

/-- The four modes of a line cipher engine (R323). -/
inductive CipherMode where
  | ccm | gcm | cmac | ctr
  deriving DecidableEq, Repr

/-- The three output modes (R328). -/
inductive OutputMode where
  | hold | verifyOnly | releaseEarly
  deriving DecidableEq, Repr

/-- A descriptor given to a line cipher engine: the user ID of R324, the class, the slot, the mode, the direction, the
output mode, the message length in bytes, whether the consumer may take early output (R328), the working-memory offset of
the descriptor, and the reception and index of the MPDU that it decrypts, where it is the MAC engine's (R137). -/
structure CipherReq where
  user : Nat
  cls : Nat
  slot : Nat
  mode : CipherMode
  encrypt : Bool
  output : OutputMode
  len : Nat
  earlyConsumer : Bool
  descAddr : Nat
  mpdu : Option (Nat × Nat) := none
  nonce : List Byte := []
  aad : List Byte := []
  data : List Byte := []
  tag : List Byte := []
  deriving DecidableEq, Repr

/-- The functions of the vault engine with what they work on (R334). Wraps and unwraps name the slot of their key; keys are derived
from DEVICE_KEY. -/
inductive VaultFn where
  | xts (encrypt : Bool) (key1 key2 : List Byte) (unit : Nat) (data : List Byte)
  | keyWrap (slot : Nat) (data : List Byte)
  | keyUnwrap (slot : Nat) (data : List Byte)
  | sha384 (data : List Byte)
  | ecdsaVerify (x y : Nat) (data : List Byte) (r s : Nat)
  | derive (label context : List Byte) (blocks : Nat)
  | random (bytes : Nat)
  deriving DecidableEq, Repr

/-- One vault operation: its function, whether its two masked runs agree (R335), and the core that asks for it. -/
structure VaultOp where
  fn : VaultFn
  agree : Bool
  core : Nat
  deriving DecidableEq, Repr

/-- Work that waits for the vault (R336): an operation, or the load of a key slot. -/
inductive VaultJob where
  | op (o : VaultOp)
  | load (slot : Nat) (data : List Byte) (env : WriteEnv)
  deriving DecidableEq, Repr

/-- The UDP checksum of a received datagram (R408). -/
inductive UdpSum where
  | good | bad | zero
  deriving DecidableEq, Repr

/-- A received Ethernet frame, as far as R405, R407 and R408 judge it. -/
structure EthFrame where
  fcsOk : Bool
  len : Nat
  dst : Nat
  vlans : List Nat
  macControl : Bool
  ip : Bool
  fragment : Bool
  ipOptions : Bool
  udp : Bool
  udpPort : Nat
  checksum : UdpSum
  bufferFull : Bool
  deriving DecidableEq, Repr

/-- A datagram at NB_UDP_PORT (R409, R411): the port it came in on, its source, and its UDP payload: the 16-byte header, the message
encrypted, and the 16-byte tag. -/
structure NbDatagram where
  port : Nat
  srcAddr : List Byte
  srcUdp : Nat
  payload : List Byte
  deriving DecidableEq, Repr

/-- A datagram at MGMT_UDP_PORT (R433, R439, R440): the port, its source, the bytes of header and record, the 16-byte CMAC, and whether it
finds the buffer of 32 requests full. -/
structure MgmtDatagram where
  port : Nat
  srcAddr : List Byte
  srcUdp : Nat
  body : List Byte
  cmac : List Byte
  bufferFull : Bool := false
  deriving DecidableEq, Repr

/-- Where an access record comes from (R442). -/
inductive AccessSrc where
  | mailbox
  | udp (d : MgmtDatagram)
  deriving DecidableEq, Repr

/-- A path that can hold one multi-part transfer (R432). -/
inductive XferPath where
  | can
  | udp (m : Nat)
  | mailbox
  deriving DecidableEq, Repr

/-- The PTP messages the port takes or sends (R421). -/
inductive PtpKind where
  | sync | followUp | announce | delayReq | delayResp | pdelayReq | pdelayResp | pdelayFollowUp | management
  deriving DecidableEq, Repr

/-- A received PTP message as the ordinary clock sees it (R421, R422): its header's domain, sequence number, correction in 2^-16 ns,
two-step flag and log2 interval, the time it carries in 2^-16 ns since the PTP epoch, the clock identity of the requester that a
response names, the tick at which it reached the balls in 1/16 T0 tick, the identity of its sender, and whether the best master
clock algorithm selects that sender. -/
structure PtpMsg where
  kind : PtpKind
  domainNumber : Nat
  best : Bool
  masterId : Nat
  logInterval : Int
  seq : Nat := 0
  twoStep : Bool := false
  correction : Int := 0
  time : Int := 0
  requester : Nat := 0
  rx16 : Nat := 0
  deriving DecidableEq, Repr

/-- What is lost in SOURCE_LOSS (R417, R423). -/
inductive LossKind where
  | sync | announce | ppsIn
  deriving DecidableEq, Repr

/-- Who the group or unit of a trigger is (R386, R388). -/
inductive TrigWho where
  | unit (u : Nat)
  | group
  deriving DecidableEq, Repr

/-- Address resolution requests (R407). -/
inductive ResolveKind where
  | arp | neighbourSolicitation
  deriving DecidableEq, Repr


/-- The waveform of a frame: OFDM, sub-bands S1 and S2, and the two sub-lanes of the swell lane (R94, R112). -/
inductive Wave where
  | ofdm | s1 | s2 | laneA | laneB
  deriving DecidableEq, Repr

/-- What the world gives the resolution of one MPDU (R104, R144): the bytes as received (swell frames; an OFDM frame's come from
its codewords), and whether a frame buffer was free for it. -/
structure MpduWork where
  raw : List Byte := []
  noBuffer : Bool := false
  deriving DecidableEq, Repr

/-- A block of 64 converter samples with the gain code at which it was taken (R31, R36, R122). -/
structure SampleBlock where
  gain : Int
  samples : List Int
  deriving DecidableEq, Repr

/-- What a detector works on (R122, R145): for an OFDM preamble the samples of the latest 39 blocks, the oldest first, which the eight
evaluations cover; for a swell preamble its ρ in 2^-16. -/
structure Preamble where
  blocks : List SampleBlock := []
  rho : Nat := 0
  deriving DecidableEq, Repr

/-- What acquisition measures between detection and the timing mark (R100, R125): for OFDM the values of bins 9 to 430 of each whole SYNC
period, as the transform engines give them; for a swell frame its preamble symbols, and the shifts of the preamble's and of the
pivot's peak in 1/256 bin. -/
structure MarkSeen where
  bins : List (List (Int × Int)) := []
  symbols : Nat := 0
  preamble : Int := 0
  pivot : Int := 0
  deriving DecidableEq, Repr

/-- The two CE symbols on one channel: the values of carriers 36 to 1,720 as the transform engines give them (R126, R127). -/
structure CeSeen where
  chan : Nat
  y1 : List (Int × Int)
  y2 : List (Int × Int)
  deriving DecidableEq, Repr

/-- A frame control or payload symbol on one channel: the values of carriers 36 to 1,720 (R74, R89, R129, R132, R177). -/
structure SymbolSeen where
  chan : Nat
  carriers : List (Int × Int)
  deriving DecidableEq, Repr

/-- A sounding frame in its tide slot (R89, R177): the CE symbols on each channel, and each of its payload symbols on each. -/
structure SoundSeen where
  slot : Nat
  ce : List CeSeen
  symbols : List (List SymbolSeen)
  deriving DecidableEq, Repr

/-- A header as one channel received it (R73, R103, R134): for OFDM the carriers of the frame control symbol, for S1 and S2 the
dechirped bins of each header symbol, one value for each of its N/4 positions. -/
structure HeadSeen where
  chan : Nat
  carriers : List (Int × Int) := []
  symbols : List (List (Int × Int)) := []
  deriving DecidableEq, Repr

/-- An acknowledgement as received (R109, R201, R202): type, network identifier, destination, source, the TMI of a TYPE 3 or the
LEN of a swell acknowledgement, the T0 tick of its first sample at the pins, and whether its check passed. -/
structure AckSeen where
  type : Nat
  nid : Nat
  dst : Nat
  src : Nat
  info : Nat
  start : Nat
  checkOk : Bool
  deriving DecidableEq, Repr
/-- The commands: one constructor for each row of the table. -/
inductive Instr where
  /-- RESET_N_ASSERT (R483): A low level on RESET_N of 10 µs or more resets the device and holds its balls at their reset levels. -/
  | resetNAssert (lowNs : Nat)
  /-- RESET_N_RELEASE (R344): The rising edge of RESET_N, or the end of an internal reset hold, starts the hardwired boot sequence through to channel start. -/
  | resetNRelease (boot : BootEnv)
  /-- RESET_HOLD_END (R485): After an internal reset has held the device for 100 µs on T16, boot begins as at a rise of RESET_N. -/
  | resetHoldEnd (boot : BootEnv)
  /-- WATCHDOG_SERVICE (R26): A control core's firmware services its T16 watchdog. -/
  | watchdogService (core : Nat)
  /-- WATCHDOG_EXPIRY (R26): A core watchdog unserviced for 100 ms resets the whole device and records the core in the reset cause. -/
  | watchdogExpiry (core : Nat)
  /-- RESET (R448): A write of the reset key to the RESET object schedules a device reset for 10 ms after the write's response. -/
  | reset (via : Path) (value : Nat)
  /-- RESET_DELAY_EXPIRY (R448): The 10 ms delay after a RESET write ends and the device resets with cause COMMAND. -/
  | resetDelayExpiry
  /-- RESET_REQ (R448): A write of 0xA5A5_5A5A to RESET_REQ of the SPI register window resets the device at once. -/
  | resetReq (value : Nat)
  /-- SCRUB (R22): The scrubber reads a memory word at the lowest bank priority and corrects single-bit errors. -/
  | scrub (target : ScanTarget) (ecc : Ecc) (passEnd : Bool)
  /-- CHANNEL_ENABLE (R60): Setting ENABLE starts the channel from its state after reset. -/
  | channelEnable (via : Path) (channel : Nat)
  /-- CHANNEL_DISABLE (R60): Clearing ENABLE rinses the channel's reception, cancels its unstarted frames and powers the channel down. -/
  | channelDisable (via : Path) (channel : Nat)
  /-- CHANNEL_CONFIG_APPLY (R59): A pending write to a channel configuration entry takes effect at the channel's next idle period. -/
  | channelConfigApply (channel : Nat)
  /-- SYNTH_LOCK (R44): An LC group synthesiser locks and aligns its sample instants to even T0 ticks. -/
  | synthLock (group : Nat)
  /-- SYNTH_LOCK_LOSS (R45): On loss of lock, the group's receptions are rinsed, no new frame starts and the group relocks. -/
  | synthLockLoss (group : Nat)
  /-- AGC_DECISION (R31): The AGC loop decides a gain step on a 64-sample block that was sampled wholly at one gain. -/
  | agcDecision (channel first : Nat) (samples : List Int) (fill : Nat)
  /-- TRIM_PRELOAD (R50): 2.0 µs before an expected window opens, the MAC engine preloads the link's stored trim and phase. -/
  | trimPreload (seg entry opens : Nat)
  /-- TRIM_TAKES_EFFECT (R48): A trim or phase write takes effect at a sample boundary and reports the T0 tick of the first new sample. -/
  | trimTakesEffect (channel : Nat)
  /-- RX_BREAKWATER_OVERFLOW (R17): A full receive breakwater overwrites its oldest samples and rinses the reception in progress. -/
  | rxBreakwaterOverflow (channel : Nat)
  /-- TX_UNDERRUN (R17): A transmit breakwater underrun after the frame has started sends zero samples to the frame's scheduled end. -/
  | txUnderrun (channel : Nat)
  /-- MAINS_BW_OVERFLOW (R17): A mains breakwater overflow drops the newest word, flags the output UNSETTLED and restarts the unit. -/
  | mainsBwOverflow (unit : Nat)
  /-- BW_PEAK_READ (R55): A read of BW_PEAK returns the peak fill and resets it to the present fill in one atomic step. -/
  | bwPeakRead (via : Path) (channel fill : Nat)
  /-- STICKY_FLAG_READ (R61): A read of a sticky flag returns it and clears it atomically. -/
  | stickyFlagRead (via : Path) (idx sub : Nat)
  /-- TX_READINESS_CHECK (R13): 2 µs before a frame's scheduled instant, the MAC engine checks that every transmit breakwater holds enough samples. -/
  | txReadinessCheck (frame : Nat) (ready : List Nat)
  /-- FRAME_TX_START (R40): A frame's first sample leaves on every channel of its set at the scheduled T0 instant, adjusted by TX_DELAY. -/
  | frameTxStart (frame : Nat) (ready : List Nat)
  /-- FRAME_TX_END (R42): A transmitted frame's last sample leaves the DAC, and the blanking interval and the acknowledgement timing start from it. -/
  | frameTxEnd (frame : Nat)
  /-- TX_BLANK_END (R42): 2.0 µs after the channel's own transmission, blanking ends and the AGC resumes AUTO. -/
  | txBlankEnd (channel : Nat)
  /-- DETECTION (R122): A channel declares a detection when ρ meets DETECT_LEVEL at eight consecutive evaluations, and freezes its gain. -/
  | detection (channel : Nat) (wave : Wave) (sf : Nat) (seen : Preamble)
  /-- TIMING_MARK (R123): The sign change from SYNC to SYNC- is located, and acquisition proceeds to the coarse offset. -/
  | timingMark (channel mark : Nat) (seen : MarkSeen)
  /-- ACQ_FAIL (R124): No timing mark within 50.0 µs of detection, or too few SYNC periods, rinses the reception. -/
  | acqFail (channel : Nat)
  /-- FINE_TRIM (R126): Once both CE symbols are in, taps and noise are computed and the group's averaged fine trim is written to every member. -/
  | fineTrim (rx : Nat) (seen : List CeSeen)
  /-- GROUP_CLOSE (R130): 0.5 µs after the earliest timing mark, the segment's combining group closes with its lowest-numbered member as lead. -/
  | groupClose (rx : Nat)
  /-- FRAME_CONTROL_CHECK (R72): The combined frame control is decoded and checked, and the reception then continues, is rinsed or is held passively. -/
  | frameControlCheck (rx : Nat) (seen : List HeadSeen)
  /-- PILOT_TRACK (R129): For each payload symbol, the pilot timing error moves member phases and, every 8 symbols, corrects the trims. -/
  | pilotTrack (rx symbol : Nat) (seen : List SymbolSeen)
  /-- CODEWORD_DECODED (R19): An LDPC decoder finishes a codeword and passes its information bits to the MAC engine. -/
  | codewordDecoded (rx index iterations : Nat) (bytes : List Byte)
  /-- SHED (R142): When decoder backlog exceeds 40 µs of work, the lowest-class, most recently admitted frame's remaining payload is shed. -/
  | shed
  /-- MPDU_RESOLVE (R138): An MPDU whose CRC-32 and tag are known is rinsed or committed, in index order, with the duplicate and replay rules applied. -/
  | mpduResolve (rx index : Nat) (work : MpduWork)
  /-- RECEPTION_END (R52): When a reception ends, the interpolator takes an open window's preload or IDLE_TRIM and the AGC unfreezes. -/
  | receptionEnd (rx : Nat)
  /-- SECONDARY_DETECTION (R145): The secondary detector finds a new preamble during a reception. -/
  | secondaryDetection (channel : Nat) (wave : Wave) (sf : Nat) (seen : Preamble) (offset : Int)
  /-- CAPTURE_DECISION (R148): 0.5 µs after the first secondary detection, the metrics are compared and a takeover, capture or ignore is decided. -/
  | captureDecision (rx : Nat)
  /-- ACK_SEND (R201): 60.0 µs after a PPDU with committed MPDUs ends, the receiver sends a TYPE 2 or TYPE 3 acknowledgement. -/
  | ackSend (rx : Nat) (ready : List Nat)
  /-- ACK_RECEIVE (R202): An acknowledgement that meets the acceptance tests resolves the acknowledged MPDUs of the PPDU. -/
  | ackReceive (frame : Nat) (seen : AckSeen)
  /-- ACK_WINDOW_EXPIRY (R203): An acknowledgement window closes without acceptance, and the MPDUs are retried or abandoned after 8 transmissions. -/
  | ackWindowExpiry (frame : Nat)
  /-- SWELL_ACK_SEND (R109): D_A after a committed swell frame with ACK_REQ, a TYPE 2 swell acknowledgement is sent. -/
  | swellAckSend (rx : Nat) (ready : List Nat)
  /-- SWELL_ACK_WINDOW_EXPIRY (R109): No acceptable swell acknowledgement arrives, and the MPDU is retried or abandoned. -/
  | swellAckWindowExpiry (frame : Nat)
  /-- LANE_HEADER_CHECK (R114): A swell lane reception's header is checked, and the reception is rinsed, held passively or continued. -/
  | laneHeaderCheck (channel sf : Nat) (bytes : List Byte) (seen : MarkSeen) (stamp : Nat)
  /-- LANE_FRAME_PLACE (R113): A P0 frame ready for a channel's lane is placed on sub-lane A, on sub-lane B or deferred. -/
  | laneFramePlace (mpdu : Nat)
  /-- LANE_FRAME_START (R112): A placed lane frame starts on its sub-lane at a lane grid instant. -/
  | laneFrameStart (frame : Nat) (ready : List Nat)
  /-- LANE_FRAME_END (R113): A lane frame ends, and a waiting or deferred frame is placed on the freed sub-lane. -/
  | laneFrameEnd (frame : Nat)
  /-- SWELL_CONFIG_APPLY (R119): A pending swell entry write takes effect once no frame is in progress on the channel or its lane. -/
  | swellConfigApply (channel : Nat)
  /-- WAKE_FRAME (R117): The coordinator decides a timed or untimed wake frame for a sleeper, or refuses the downlink. -/
  | wakeFrame (entry : Nat)
  /-- MAINS_CYCLE (R154): The tracker judges a reference phasor cycle and moves between HOLDOVER, ACQUIRING and LOCKED. -/
  | mainsCycle
  /-- REF_UNIT (R158): A write to REF_UNIT puts the tracker into HOLDOVER and starts acquisition on the new unit. -/
  | refUnit (via : Path) (value : Nat)
  /-- OBSERVATION_WINDOW (R163): An idle observation window of a tide slot occurrence is transformed at the lowest priority, or dropped. -/
  | observationWindow (channel first : Nat) (seen : Option (List (Int × Int)))
  /-- TIDE_SLOT_END (R165): At the end of a tide slot occurrence, the averages and the class are updated or a cycle without observation is counted. -/
  | tideSlotEnd (channel slot : Nat)
  /-- DOWNLINK_PLAN (R174): The device plans a downlink frame's map, PSC and TIDE by trial over two candidates. -/
  | downlinkPlan (seg entry start stop : Nat) (ackReq : Bool)
  /-- SOUND_REQUEST (R176): A committed SOUND_REQUEST makes the device send sounding frames in the requested slots before DEADLINE. -/
  | soundRequest (entry : Nat) (body : List Byte)
  /-- SOUND_TIMEOUT (R176): A sounding incomplete at DEADLINE abandons the negotiation and keeps the current maps. -/
  | soundTimeout (entry : Nat)
  /-- SOUNDING_COMPLETE (R177): Once sounding is complete, the device computes uplink maps and sends a tone map response. -/
  | soundingComplete (entry : Nat) (heard : List SoundSeen)
  /-- TONE_MAP_RESPONSE (R181): A committed tone map response is checked, and its valid records are installed as the downlink maps. -/
  | toneMapResponse (entry : Nat) (body : List Byte)
  /-- MAP_REFRESH (R182): MAP_REFRESH minutes after the last installed set, the device requests uplink sounding. -/
  | mapRefresh (entry : Nat)
  /-- TIDE_REPORT (R169): A committed TIDE_REPORT sets the endpoint's reported class vector. -/
  | tideReport (entry : Nat) (body : List Byte)
  /-- BEACON (R191): At the start of a beacon period, the coordinator builds the allocations and sends the beacon on every member channel. -/
  | beacon (seg : Nat)
  /-- REACH_BEACON (R195): A segment with REACH_BEACON sends a swell reach beacon at period slot BEACON_SLOTS. -/
  | reachBeacon (seg : Nat)
  /-- ASSOCIATION_REQUEST (R211): A committed association request is decided, and its response is queued. -/
  | associationRequest (seg : Nat)
  /-- LEASE_RENEW (R215): A committed LEASE_RENEW sets a new LEASE_END. -/
  | leaseRenew (entry : Nat) (body : List Byte)
  /-- SLEEP_SCHEDULE (R219): A committed SLEEP_SCHEDULE is judged and echoed, and it takes force once the echo is acknowledged. -/
  | sleepSchedule (entry : Nat) (body : List Byte)
  /-- PRESENT (R221): A committed PRESENT from a sleeper opens its downlink service. -/
  | present (entry : Nat)
  /-- ALLOC_REQUEST (R209): A committed ALLOC_REQUEST sets or cancels the link's standing uplink allocation. -/
  | allocRequest (entry : Nat) (body : List Byte)
  /-- DISASSOCIATE (R213): A committed DISASSOCIATE moves the entry to EXPIRED. -/
  | disassociate (entry : Nat) (body : List Byte)
  /-- LANE_SF_SET (R209): The coordinator sends LANE_SF_SET, and the new lane SF applies from the commit of its acknowledgement. -/
  | laneSfSet (entry sf : Nat)
  /-- LONG_REACH_SET (R209): The coordinator sends LONG_REACH_SET to move the link to S1, S2 or back to OFDM. -/
  | longReachSet (entry mode sf : Nat)
  /-- NEIGHBOUR_REPORT (R237): A committed NEIGHBOUR_REPORT replaces the endpoint's neighbour list and may trigger route recomputation. -/
  | neighbourReport (entry : Nat) (body : List Byte)
  /-- ROUTE_INTERVAL (R241): ROUTE_INTERVAL minutes after the last recomputation, the coordinator recomputes the segment's routes. -/
  | routeInterval (seg : Nat)
  /-- RELAYED_ASSOC_TIMEOUT (R249): An entry granted through a repeater returns to FREE if no inner MPDU commits within 4 beacon periods. -/
  | relayedAssocTimeout (entry : Nat)
  /-- LEASE_EXPIRY (R213): LEASE_END passes, and the entry enters EXPIRED, its pages are freed and its downlinks refused. -/
  | leaseExpiry (entry : Nat)
  /-- ADDRESS_HOLD_EXPIRY (R213): ADDRESS_HOLD seconds after expiry, the entry returns to FREE. -/
  | addressHoldExpiry (entry : Nat)
  /-- WAKE_WINDOW_END (R221): A sleeper's served window ends without a committed uplink, and WAKE_MISSED advances. -/
  | wakeWindowEnd (entry : Nat)
  /-- ADRIFT_HOLD_EXPIRY (R227): HOLD_LEFT reaches 0, and the held downlinks are refused with ENDPOINT_ADRIFT. -/
  | adriftHoldExpiry (entry : Nat)
  /-- CURSOR_SELECT (R231): A write to SEGMENT or SHORT_ADDR of an access cursor selects an endpoint entry. -/
  | cursorSelect (via : Path) (cursor sub value : Nat)
  /-- CURSOR_DISASSOCIATE (R231): A write of TRUE to a cursor's DISASSOCIATE sends DISASSOCIATE with reason 2 to the selected entry. -/
  | cursorDisassociate (via : Path) (cursor value : Nat)
  /-- SEG_ENABLE (R234): SEG_ENABLE becomes TRUE, and the member tables reset and the first beacon is planned. -/
  | segEnable (via : Path) (seg : Nat)
  /-- SEG_DISABLE (R235): SEG_ENABLE becomes FALSE, and the segment winds down its frames and legs. -/
  | segDisable (via : Path) (seg : Nat)
  /-- HELLO_SEND (R256): Every 1.0 s the device multicasts a HELLO. -/
  | helloSend
  /-- HELLO (R253): A received HELLO refreshes the peer, or sets DEVICE_CLASH when it carries the device's own number. -/
  | hello (addr header body cmac : List Byte)
  /-- PEER_ABSENT (R256): 5 s without an accepted HELLO makes a peer absent and discards its reports and claims. -/
  | peerAbsent (device : Nat)
  /-- COUPLING_SEND (R256): Every 10 s, and within 1 s of a change, the device multicasts COUPLING. -/
  | couplingSend
  /-- COUPLING (R258): A received COUPLING updates which segment pairs are coupled. -/
  | coupling (header body cmac : List Byte)
  /-- COUPLE_AGE_EXPIRY (R257): An interference record not refreshed for COUPLE_AGE is removed. -/
  | coupleAgeExpiry (seg nid : Nat)
  /-- SLOT_MAP_SEND (R259): In domain second N, each coupled segment sends its claim for second N + 2. -/
  | slotMapSend (seg : Nat)
  /-- SLOT_MAP (R260): A received SLOT_MAP records a peer's claim for a domain second. -/
  | slotMap (header body cmac : List Byte)
  /-- CLAIM_RESOLVE (R261): For second N + 2, the coordinator yields overlaps with lower-key claims and counts the clashes. -/
  | claimResolve (seg : Nat)
  /-- ROAM_QUERY (R263): A received ROAM_QUERY for a held EUI-64 is answered with ROAM_OFFER. -/
  | roamQuery (header body cmac : List Byte)
  /-- ROAM_OFFER (R263): A received ROAM_OFFER is adopted and accepted, or leads to a repeated query or a new association. -/
  | roamOffer (header body cmac : List Byte)
  /-- ROAM_OFFER_WAIT_EXPIRY (R262): 2.0 s after a ROAM_QUERY without an offer, the association is kept as new. -/
  | roamOfferWaitExpiry (eui : Nat)
  /-- ROAM_REQUERY (R263): 2.5 s after STATUS 3, the querier sends its ROAM_QUERY again. -/
  | roamRequery (eui : Nat)
  /-- ROAM_ACCEPT (R264): A received ROAM_ACCEPT moves the entry to EXPIRED and the offered transactions to the new device. -/
  | roamAccept (header body cmac : List Byte)
  /-- ROAM_ACCEPT_TIMEOUT (R263): 2.0 s after an offer without an accept, the old device keeps its records. -/
  | roamAcceptTimeout (eui : Nat)
  /-- TXN_RELAY (R264): A received TXN_RELAY carries a northbound message for a moved transaction between the two devices. -/
  | txnRelay (header body cmac : List Byte)
  /-- REQUEST (R279): A northbound REQUEST is validated, resolved into legs, admitted and answered. -/
  | request (session : Nat) (message : List Byte)
  /-- ABORT (R294): A northbound ABORT starts aborting each open leg of the transaction. -/
  | abort (session : Nat) (message : List Byte)
  /-- ABORT_TAKE_RECORD (R295): Once any exchange past the point of no return has settled, the abort takes the leg's record and withdraws its frames. -/
  | abortTakeRecord (txn leg : Nat)
  /-- LEG_QUOTA_RELEASE (R281): A leg delayed by quota starts line work once enough tokens have refilled. -/
  | legQuotaRelease (cls : Nat)
  /-- RESP_WAIT_EXPIRY (R288): No commit within RESP_WAIT ends the leg's attempt with NO_RESPONSE and retries or ends the leg. -/
  | respWaitExpiry (txn leg : Nat)
  /-- LEG_DEADLINE (R288): A leg's deadline ends it TIMED_OUT and withdraws its frames. -/
  | legDeadline (txn leg : Nat)
  /-- AGG_TIME_EXPIRY (R290): AGG_TIME after an open RESPONSE message's first record, the message is sent. -/
  | aggTimeExpiry (txn : Nat)
  /-- CACHE_TIME_EXPIRY (R291): CACHE_TIME after a transaction ends, its record and cached messages are freed. -/
  | cacheTimeExpiry (txn : Nat)
  /-- REPORT_REPEAT (R277): 10 ms after a P0 REPORT, it is sent again until REPORT_REPEAT sendings are made. -/
  | reportRepeat (txn : Nat)
  /-- ALARM_REPORT (R398): The transaction engine takes a threshold alarm from Q254 and sends a P0 REPORT. -/
  | alarmReport
  /-- KEY_LOAD (R305): A wrapped load is unwrapped into the key slot, or into its shadow when the slot is in use, or is refused. -/
  | keyLoad (via : Path) (slot : Nat) (data : List Byte) (env : WriteEnv)
  /-- ERASE (R310): An erase empties the slot at once and ends every message under it with KEY_ERASED. -/
  | erase (via : Path) (slot value : Nat)
  /-- BOUND_EUI (R314): A write of BOUND_EUI binds a pairwise slot to an endpoint, or unbinds it. -/
  | boundEui (via : Path) (slot eui : Nat)
  /-- FC_RESERVATION (R312): When half of a frame-counter block is used, the next reservation record is written to the ledger. -/
  | fcReservation (slot : Nat)
  /-- NEXT_ACTIVATE (R321): A write of NEXT_ACTIVATE schedules a segment key rollover. -/
  | nextActivate (via : Path) (seg second : Nat)
  /-- OVERLAP_START (R321): Domain time reaches NEXT_ACTIVATE, and KEY_PHASE becomes OVERLAP. -/
  | overlapStart (seg : Nat)
  /-- PROMOTION (R321): At NEXT_ACTIVATE plus KEY_OVERLAP, the next key is promoted into the current slot. -/
  | promotion (seg : Nat)
  /-- NEXT_KEY_RETIRE (R321): 2.0 s after promotion, the next-key slot becomes EMPTY. -/
  | nextKeyRetire (seg : Nat)
  /-- ADMIT_MODE (R318): A write of ADMIT_MODE sets OPEN or LISTED admission, refused for LISTED without a ledger. -/
  | admitMode (via : Path) (mode : Nat)
  /-- ADMIT_WRITE (R319): A write of admission records replaces or deletes the records and stores them in the ledger. -/
  | admitWrite (via : Path) (data : List Byte)
  /-- CIPHER_ENGINE_REQUEST (R325): A user requests a line cipher engine, and the allocator grants one, queues the request or suspends a lower-class message. -/
  | cipherEngineRequest (req : CipherReq)
  /-- ENGINE_OWNER_WRITE (R324): A write to an engine's OWNER takes or releases the engine, or is ignored as a lock violation. -/
  | engineOwnerWrite (engine user value : Nat)
  /-- CIPHER_BLOCK (R332): An engine computes one AES block with countermeasures and checks it through its inverse datapath. -/
  | cipherBlock (engine : Nat) (matched : Bool) (dummyRounds released held : Nat)
  /-- CIPHER_MESSAGE_END (R331): A cipher message ends with its end-marked status word, counts its slot use and restores any seam. -/
  | cipherMessageEnd (engine : Nat)
  /-- FAULT_CLEAR (R333): A level-3 write of FAULT_CLEAR returns a locked-out engine to service. -/
  | faultClear (via : Path) (engine value : Nat)
  /-- VAULT_OPERATION (R335): The vault engine runs an operation twice under fresh masks and releases the result only if both runs agree. -/
  | vaultOperation (op : VaultOp)
  /-- VAULT_CLEAR (R335): A level-3 write of VAULT_CLEAR returns the vault from LOCKED_OUT. -/
  | vaultClear (via : Path) (value : Nat)
  /-- ENTROPY_TEST_FAIL (R336): An entropy health test fails, and output is blocked until 1,024 samples pass. -/
  | entropyTestFail
  /-- LEDGER_JOURNAL_WRITE (R340): C0 journals a ledger change to flash within 1.0 s, writing a snapshot when erased sectors run low. -/
  | ledgerJournalWrite
  /-- COMMIT_SECURITY_VERSION (R346): A level-3 write blows MIN_SECURITY_VERSION fuses up to the running image's version. -/
  | commitSecurityVersion (via : Path) (value : Nat)
  /-- ROOT_REVOKE (R346): A level-3 write blows the revocation fuse of the other signing root. -/
  | rootRevoke (via : Path) (value : Nat)
  /-- IMAGE_DATA (R348): A write of IMAGE_DATA erases and programs image sectors in the slot that did not boot. -/
  | imageData (via : Path) (data : List Byte)
  /-- IMAGE_VERIFY (R347): A write of TRUE checks the slot that did not boot and reports the result in IMAGE_STATUS. -/
  | imageVerify (via : Path) (value : Nat) (vaultOk : Bool)
  /-- CU_GO (R356): A write of TRUE to GO captures a check unit's configuration and starts a run, or ends it at once with RANGE. -/
  | cuGo (via : Path) (unit value : Nat) (scan : Option (Nat × Ecc))
  /-- CU_RUN_END (R360): A check unit run ends, sets its results and writes a completion word to its queue. -/
  | cuRunEnd (unit : Nat)
  /-- SCRATCH_DATA_WRITE (R362): A write of SCRATCH_DATA stores bytes in the host scratch window from SCRATCH_OFFSET. -/
  | scratchDataWrite (via : Path) (data : List Byte)
  /-- QUEUE_WRITE (R366): A producer writes a word to a queue, or the word is ignored and the packet dropped when the queue is full. -/
  | queueWrite (queue word : Nat) (endMark : Bool) (packetWords user : Nat)
  /-- QUEUE_READ (R368): A consumer reads the oldest word of a queue, stalling while the queue is empty. -/
  | queueRead (queue : Nat) (ecc : Ecc) (index user : Nat)
  /-- MAINS_UNIT_RESTART (R384): A change of MODE, PATH, ACQ or INPUT_SEL restarts a mains unit and flags its outputs UNSETTLED. -/
  | mainsUnitRestart (via : Path) (unit sub value : Nat)
  /-- MAINS_CONFIG_APPLY (R385): Another unit configuration write takes effect when the unit is next not busy or at its next result boundary. -/
  | mainsConfigApply (unit : Nat)
  /-- TRIG_NOW (R386): A write of TRUE to TRIG_NOW triggers the unit. -/
  | trigNow (via : Path) (unit value : Nat)
  /-- GROUP_TRIG_NOW (R388): A write of TRUE to GROUP_TRIG_NOW triggers every grouped member at one latch instant. -/
  | groupTrigNow (via : Path) (value : Nat)
  /-- SCHEDULE_TRIGGER (R386): A scheduled trigger instant is recognised at the next T9 edge. -/
  | scheduleTrigger (who : TrigWho) (m : Nat)
  /-- MAINS_PHASE_TRIGGER (R386): A mains-phase trigger instant is recognised at the next T9 edge. -/
  | mainsPhaseTrigger (who : TrigWho) (cycle : Nat)
  /-- PPS_TRIGGER (R386): A whole second of domain time triggers units with TRIG_SOURCE PPS. -/
  | ppsTrigger
  /-- MCTRIG_EDGE (R386): An edge on MCTRIG triggers units with TRIG_SOURCE MCTRIG. -/
  | mctrigEdge (rising : Bool)
  /-- WAVEFORM_SAMPLE (R389): The filter engine delivers a filtered 12.5 kS/s sample to the unit's result objects. -/
  | waveformSample (dumps : List (Nat × Nat × Nat))
  /-- PHASOR (R395): The phasor stage delivers one cycle's phasor, which also feeds the mains tracker. -/
  | phasor (unit cycle : Nat)
  /-- CYCLE_INTEGRAL (R378): A cycle-integral window ends, and its value, averaged as configured, is delivered. -/
  | cycleIntegral (unit cycle : Nat) (bits : Int)
  /-- SH240_RESULT (R380): An SH-240 conversion completes, and its averaged 12-bit result is delivered. -/
  | sh240Result (unit : Nat) (nanovolts : Int)
  /-- ALARM_HOLDOFF_EXPIRY (R398): When ALARM_HOLDOFF ends, one alarm is sent for the latest held crossing. -/
  | alarmHoldoffExpiry (unit : Nat)
  /-- EVENT_READ (R397): A read of EVENT_j returns the threshold record and clears it atomically. -/
  | eventRead (via : Path) (unit j : Nat)
  /-- LINK_UP (R404): A backhaul port's PCS aligns and its FEC locks without error for 10 ms, and its link comes up. -/
  | linkUp (port : Nat)
  /-- LINK_DOWN (R404): A port loses alignment or lock, and its queued frames and messages are discarded. -/
  | linkDown (port : Nat)
  /-- ETH_FRAME_RX (R405): A received Ethernet frame is filtered and either accepted for classification or discarded whole. -/
  | ethFrameRx (port : Nat) (frame : EthFrame)
  /-- ETH_FRAME_TX_END (R406): A frame finishes on the wire, and the port starts the next frame in strict priority. -/
  | ethFrameTxEnd (port : Nat)
  /-- ADDRESS_RESOLUTION (R407): The port answers an ARP request or an IPv6 neighbour solicitation. -/
  | addressResolution (port : Nat) (kind : ResolveKind) (target : List Byte)
  /-- ICMP_ECHO (R407): The port answers an ICMP echo request, at most 100 per second. -/
  | icmpEcho (port : Nat)
  /-- NB_DATAGRAM (R411): A northbound datagram is checked, decrypted and passed to the transaction engine, or discarded. -/
  | nbDatagram (d : NbDatagram)
  /-- SESSION_WRITE (R425): A session configuration write takes effect at once and empties the session's replay window. -/
  | sessionWrite (via : Path) (session sub : Nat) (data : List Byte)
  /-- PTP_MESSAGE (R421): A received PTP message is processed by the ordinary clock. -/
  | ptpMessage (m : PtpMsg)
  /-- SOURCE_LOSS (R417): Missing Sync or Announce messages, or an invalid PPS_IN, move domain time to COASTING. -/
  | sourceLoss (kind : LossKind)
  /-- COAST_LIMIT_EXPIRY (R417): After COAST_LIMIT seconds of coasting, domain time ceases to be synchronised. -/
  | coastLimitExpiry
  /-- TIME_SET (R416): A write of TIME_SET sets domain time now, or at the next PPS_IN edge. -/
  | timeSet (via : Path) (value : Nat)
  /-- PPS_IN_EDGE (R423): A rising edge on PPS_IN is time-stamped and judged for validity and alignment. -/
  | ppsInEdge
  /-- PPS_IN_TIMEOUT (R423): 2 s without a PPS_IN edge makes PPS_IN invalid. -/
  | ppsInTimeout
  /-- PPS_OUT_RISE (R424): At each whole second of domain time, PPS_OUT rises if its mode allows. -/
  | ppsOutRise
  /-- PPS_OUT_FALL (R424): 100 ms after its rise, PPS_OUT falls. -/
  | ppsOutFall
  /-- SDO_DOWNLOAD_EXPEDITED (R437): An expedited initiate download writes an object of up to 59 bytes in one frame. -/
  | sdoDownloadExpedited (canId : Nat) (frame : List Byte) (env : WriteEnv)
  /-- SDO_DOWNLOAD_INITIATE (R437): A segmented initiate download opens a write transfer of a stated total length. -/
  | sdoDownloadInitiate (canId : Nat) (frame : List Byte)
  /-- SDO_DOWNLOAD_SEGMENT (R437): A download segment delivers the next part of a write and applies the write at the last segment. -/
  | sdoDownloadSegment (canId : Nat) (frame : List Byte) (env : WriteEnv)
  /-- SDO_UPLOAD_INITIATE (R437): An initiate upload reads an object expedited, or opens a segmented read from a snapshot. -/
  | sdoUploadInitiate (canId : Nat) (frame : List Byte)
  /-- SDO_UPLOAD_SEGMENT (R437): An upload segment request returns the next part of a segmented read. -/
  | sdoUploadSegment (canId : Nat) (frame : List Byte)
  /-- SDO_ABORT (R438): An abort frame from the client ends the open transfer without effect. -/
  | sdoAbort (canId : Nat) (frame : List Byte)
  /-- SDO_TIMEOUT (R438): 1.0 s without the client's next segment aborts the transfer with 0x0504_0000. -/
  | sdoTimeout
  /-- CAN_BUS_OFF (R435): The CAN FD port goes bus-off, and the event is counted. -/
  | canBusOff
  /-- CAN_BUS_OFF_RECOVERY (R435): After 128 occurrences of 11 recessive bits, the port recovers from bus-off. -/
  | canBusOffRecovery
  /-- ACCESS_READ (R442): A READ access record, checked on its UDP or mailbox path, returns a part of the object. -/
  | accessRead (src : AccessSrc)
  /-- ACCESS_WRITE (R442): A WRITE access record, checked on its UDP or mailbox path, delivers a part of a write and applies it at the last part. -/
  | accessWrite (src : AccessSrc) (env : WriteEnv)
  /-- SNAPSHOT_TIMEOUT (R432): 10 s without a part releases an open multi-part read snapshot. -/
  | snapshotTimeout (path : XferPath)
  /-- SPI_READ (R443): An SPI transaction with opcode 0x03 reads words from the register window or mailbox. -/
  | spiRead (addr words : Nat)
  /-- SPI_WRITE (R443): An SPI transaction with opcode 0x02 writes words to the register window or mailbox. -/
  | spiWrite (addr : Nat) (words : List Nat)
  /-- PAIR_LOW_READ (R445): A read of a 64-bit pair's low word loads the hold register with the matching high half. -/
  | pairLowRead (addr : Nat)
  /-- PAIR_HIGH_READ (R445): A read of a pair's high word returns the held value, or returns the live value and sets TORN. -/
  | pairHighRead (addr : Nat)
  /-- WIN_STATUS_READ (R444): A read of WIN_STATUS returns the mailbox state and clears TORN. -/
  | winStatusRead
  /-- MBX_DOORBELL (R446): A write of a length to MBX_DOORBELL submits the mailbox record for service. -/
  | mbxDoorbell (len : Nat)
  /-- STORE_ALL (R449): A write of the save key captures every stored object and writes the older store copy. -/
  | storeAll (via : Path) (value : Nat) (flashFits : Bool)
  /-- RESTORE_ALL (R451): A write of the load key marks both store copies invalid. -/
  | restoreAll (via : Path) (value : Nat)
  /-- OBJECT_WRITE (R431): A write to an object without a row of its own is checked and applied in one step. -/
  | objectWrite (via : Path) (idx sub : Nat) (data : List Byte)
  /-- LOOP_TEST (R514): A write of a channel number to LOOP_TEST sends a tone and measures it at that channel's receive converter. -/
  | loopTest (via : Path) (channel : Nat)
  /-- LOOP_TEST_DONE (R514): The loop test's measured level is placed in LOOP_RESULT and LOOP_CHANNEL. -/
  | loopTestDone (samples : List Int)
  /-- SEL_WRITE (R465): A write to SEL_k clears CTR_k and its overflow bit and selects the event to count. -/
  | selWrite (via : Path) (bank k value : Nat)
  /-- BANK_CLEAR (R465): A write of TRUE to BANK_CLEAR clears the bank's TICKS, counters and overflow bits at one tick. -/
  | bankClear (via : Path) (bank value : Nat)
  /-- DUMP_LATCH (R469): At each multiple of DUMP_PERIOD, all counter banks are latched, or the latch is skipped while the previous record is still being written. -/
  | dumpLatch
  /-- DUMP_RECORD_WRITTEN (R469): The dump engine finishes writing a record to the ring and notifies C0 through Q250. -/
  | dumpRecordWritten
  /-- SAMPLE_RING_READ (R475): A read of SAMPLE_RING returns every record held, empties the ring and clears SAMPLE_OVERFLOW. -/
  | sampleRingRead (via : Path)
  /-- SAMPLE_CONFIG_WRITE (R475): A change to SAMPLE_SOURCE or SAMPLE_N empties the ring and restarts the descriptor count. -/
  | sampleConfigWrite (via : Path) (sub value : Nat)
  /-- EXPECTED_WINDOW_END (R49): When an expected window closes with no reception in progress, the MAC engine writes IDLE_TRIM and phase 0 to the channel's interpolator. -/
  | expectedWindowEnd (channel : Nat)
  /-- LANE_BLANK_END (R114): One symbol period after the last lane frame sent, the lane receiver's blanking ends and it listens again. -/
  | laneBlankEnd (channel : Nat)
  /-- ENTROPY_RECOVERY (R336): After 1,024 consecutive entropy samples pass the health tests, output is unblocked, VAULT_STATE leaves ENTROPY_FAIL and waiting operations resume. -/
  | entropyRecovery
  /-- FLASH_WRITE_DONE (R340): An xSPI flash program or erase completes, or fails, and the waiting reservation, journal, store or image write proceeds or is retried. -/
  | flashWriteDone (ok : Bool)
  /-- PTP_MESSAGE_SEND (R421): At its interval, the PTP port sends Delay_Req or Pdelay_Req as slave, or Sync and Announce as master. -/
  | ptpMessageSend (kind : PtpKind) (tx16 : Nat)
  /-- TCK_EDGE (R513): A TCK edge advances the IEEE 1149.1 TAP controller with TMS and TDI, and can run BYPASS, IDCODE, SAMPLE/PRELOAD, EXTEST or CLAMP. -/
  | tckEdge (rising tms tdi : Bool) (cells : List Bool)
  /-- TRST_N_ASSERT (R484): A low level on TRST_N resets the JTAG TAP alone and holds it in Test-Logic-Reset. -/
  | trstNAssert (low : Bool)
  deriving DecidableEq, Repr

end Sys2Proof
end

