-- ==== Sys2Proof/Config.lean ====
section
/-! DEFINITION. What an implementation fixes and what the spec leaves open. A free value is a constant without a body: no
proof can see what it is. -/

namespace Sys2Proof

/-- The `n`-th free value: a result the spec leaves open (assumption log, entry 2). -/
opaque Config.free : Nat → Nat

/-- The fixed coefficients of the compensation FIR in Q1.22 (R392), which the spec does not list: the first 31 of a half
(entry 10). -/
opaque Config.compHalf : Nat → Nat

/-- The text before the object sections of the electronic data sheet, object 0x1021 (R452), which the spec does not list
(entry 10). -/
opaque Config.edsHead : List Byte

/-- The keys of CiA 306 in the section of an object, which the spec does not list (R452; entry 10). -/
opaque Config.edsKeys : Nat → Nat → List Byte

/-- The length of the TAP's instruction register (R513), which the spec does not give (entry 9). -/
opaque Config.irLength : Nat

/-- The TAP instruction that an opcode other than all ones selects (R513), numbered 0 BYPASS, 1 IDCODE, 2 SAMPLE/PRELOAD,
3 EXTEST, 4 CLAMP (entry 9). -/
opaque Config.tapOpcode : List Bool → Nat

/-- The 32 bits of IDCODE, least significant first (R513; entry 9). -/
opaque Config.idcode : List Bool

/-- The frame buffer that holds a word of the frame buffer region (R20), whose division into buffers the spec does not give
(entry 25). -/
opaque Config.bufferOf : Nat → Nat

/-- The tweak key of the image bodies: XTS-AES-256 takes two keys of 256 bits, and the spec gives IMAGE_KEY alone (R334, R342;
entry 63). -/
opaque Config.imageTweakKey : List Byte

/-- T0 ticks in one second: 409.6 MHz (R15). -/
def Config.tickHz : Nat := 409600000

/-- Working memory in bytes (R20). -/
def Config.wmSize : Nat := 0x03000000

/-- The device's silicon revision (R1, R453). -/
def Config.revision : Nat := 0xA1

end Sys2Proof
end

