-- ==== Sys2Proof/Machine/Table.lean ====
section
/-! DEFINITION. Sparse tables in one canonical form: a list of (key, value) pairs with strictly rising keys. -/

namespace Sys2Proof.Machine

/-- A sparse table: plain data, keys strictly rising. -/
abbrev Tbl (α : Type) := List (Nat × α)

/-- The entry at key `k`, if any. -/
def Tbl.at? {α : Type} : Tbl α → Nat → Option α
  | [], _ => none
  | (k', v) :: t, k => if k' = k then some v else Tbl.at? t k

/-- The entry at key `k`, or the value an unlisted key has. -/
def Tbl.atD {α : Type} (t : Tbl α) (k : Nat) (d : α) : α := (Tbl.at? t k).getD d

/-- Set the entry at key `k`, keeping the keys strictly rising. -/
def Tbl.ins {α : Type} : Tbl α → Nat → α → Tbl α
  | [], k, v => [(k, v)]
  | (k', v') :: t, k, v =>
    if k < k' then (k, v) :: (k', v') :: t
    else if k = k' then (k, v) :: t
    else (k', v') :: Tbl.ins t k v

/-- Remove the entry at key `k`. -/
def Tbl.del {α : Type} (t : Tbl α) (k : Nat) : Tbl α := t.filter fun p => p.1 != k

/-- Set the value at `k`, an unlisted key holding `d`: a value equal to `d` is not listed. -/
def Tbl.store {α : Type} [DecidableEq α] (d : α) (t : Tbl α) (k : Nat) (v : α) : Tbl α :=
  if v = d then Tbl.del t k else Tbl.ins t k v

/-- Change the value at `k`, an unlisted key holding `d`. -/
def Tbl.modD {α : Type} (d : α) (t : Tbl α) (k : Nat) (f : α → α) : Tbl α :=
  Tbl.ins t k (f (Tbl.atD t k d))

/-- Change the entry at `k` where there is one. -/
def Tbl.upd {α : Type} (t : Tbl α) (k : Nat) (f : α → α) : Tbl α :=
  match Tbl.at? t k with
  | some v => Tbl.ins t k (f v)
  | none => t

/-- Change every entry. -/
def Tbl.mapVals {α : Type} (t : Tbl α) (f : Nat → α → α) : Tbl α := t.map fun p => (p.1, f p.1 p.2)

/-- Keep the entries that satisfy `p`. -/
def Tbl.keep {α : Type} (t : Tbl α) (p : Nat → α → Bool) : Tbl α := t.filter fun e => p e.1 e.2

/-- The keys are strictly rising. -/
def Tbl.wf {α : Type} : Tbl α → Bool
  | [] => true
  | [_] => true
  | (k, _) :: (k', v') :: t => decide (k < k') && Tbl.wf ((k', v') :: t)

/-- The number of entries that satisfy `p`. -/
def Tbl.count {α : Type} (t : Tbl α) (p : Nat → α → Bool) : Nat := (Tbl.keep t p).length

end Sys2Proof.Machine
end

