-- ==== Sys2Proof/Machine/Objects.lean ====
section
/-! DEFINITION. The object dictionary (R427, R428, R429): one row per entry of the spec's object tables, and one name for
each numeric register and each byte string. -/

namespace Sys2Proof.Machine

/-- The CiA 301 data types of R428. -/
inductive ObjType where
  | boolean
  | unsigned (bytes : Nat)
  | integer (bytes : Nat)
  | octets (n : Nat)
  | octets2 (n m : Nat)
  | visible
  | domain
  deriving DecidableEq, Repr

/-- The direction of the Access column (R429). -/
inductive Access where
  | ro | rw | wo
  deriving DecidableEq, Repr

/-- The Default column. -/
inductive Dflt where
  | val (v : Nat)
  | plus (v : Nat)
  | useLimit
  | mcMode
  | byClass (a b c d : Nat)
  | byQueue
  deriving DecidableEq, Repr

/-- One row of an object table: `count` indices from `base`, `subs` subindices from `sub`; the level of R429; whether
USER_READ lowers the read level to 0 (R476); the default; the range; the bits that are not reserved (R8). -/
structure ObjRow where
  base : Nat
  count : Nat
  sub : Nat
  subs : Nat
  ty : ObjType
  access : Access
  level : Nat
  perf : Bool
  dflt : Dflt
  lo : Int
  hi : Int
  mask : Nat
  deriving DecidableEq, Repr

/-- A numeric register of the dictionary: its key (index times 256 plus subindex), its default and its width. -/
structure Reg where
  key : Nat
  dflt : Nat
  bits : Nat
  deriving DecidableEq, Repr

/-- A byte string of the dictionary: its key and its default. -/
structure Blob where
  key : Nat
  dflt : List Byte
  deriving DecidableEq, Repr

/-- Default of class `c` (R302). -/
def perClass (p0 p1 p2 p3 c : Nat) : Nat :=
  match c with
  | 0 => p0
  | 1 => p1
  | 2 => p2
  | _ => p3

/-- The depth of queue `q` in words (R363). -/
def queueDepth (q : Nat) : Nat :=
  if q < 80 then 2048
  else if q < 96 then 1024
  else if q < 104 then 4096
  else if q < 112 then 2048
  else if q < 176 then 256
  else if q < 240 then 128
  else 512


/-- The default of an entry at offset `i` in its family. -/
def Dflt.value (d : Dflt) (i : Nat) : Nat :=
  match d with
  | .val v => v
  | .plus v => v + i
  | .useLimit => if i = 992 then 65536 else 2147483648
  | .mcMode => if i < 8 then 1 else 0
  | .byClass a b c e => perClass a b c e i
  | .byQueue => queueDepth i

/-- WM_CORRECTED (R23). -/
def K.wm.WM_CORRECTED : Reg := ⟨(0xA010) * 256 + (0x1), 0, 32⟩

/-- WM_UNCORRECTED (R23). -/
def K.wm.WM_UNCORRECTED : Reg := ⟨(0xA010) * 256 + (0x2), 0, 32⟩

/-- WM_LAST_ADDR (R23). -/
def K.wm.WM_LAST_ADDR : Reg := ⟨(0xA010) * 256 + (0x3), 0, 32⟩

/-- WM_RETIRED (R23). -/
def K.wm.WM_RETIRED : Reg := ⟨(0xA010) * 256 + (0x4), 0, 16⟩

/-- ENTRIES_RETIRED (R23). -/
def K.wm.ENTRIES_RETIRED : Reg := ⟨(0xA010) * 256 + (0x5), 0, 32⟩

/-- PAGES_RETIRED (R23). -/
def K.wm.PAGES_RETIRED : Reg := ⟨(0xA010) * 256 + (0x6), 0, 16⟩

/-- CM_CORRECTED (R23). -/
def K.cm.CM_CORRECTED (j : Nat) : Reg := ⟨(0xA011) * 256 + (0x1 + j), 0, 32⟩

/-- SCRUB_PASS (R23). -/
def K.scrub.SCRUB_PASS : Reg := ⟨(0xA012) * 256 + (0x0), 0, 32⟩

/-- ENABLE (R59). -/
def K.ch.ENABLE (i : Nat) : Reg := ⟨(0x3000 + i) * 256 + (0x1), 1, 1⟩

/-- TERM_ENABLE (R59). -/
def K.ch.TERM_ENABLE (i : Nat) : Reg := ⟨(0x3000 + i) * 256 + (0x2), 1, 1⟩

/-- AGC_MODE (R59). -/
def K.ch.AGC_MODE (i : Nat) : Reg := ⟨(0x3000 + i) * 256 + (0x3), 0, 8⟩

/-- FIXED_GAIN (R59). -/
def K.ch.FIXED_GAIN (i : Nat) : Reg := ⟨(0x3000 + i) * 256 + (0x4), 60, 8⟩

/-- AGC_TARGET (R59). -/
def K.ch.AGC_TARGET (i : Nat) : Reg := ⟨(0x3000 + i) * 256 + (0x5), 244, 8⟩

/-- GAIN_MAX (R59). -/
def K.ch.GAIN_MAX (i : Nat) : Reg := ⟨(0x3000 + i) * 256 + (0x6), 84, 8⟩

/-- TX_LISTEN_GAIN (R59). -/
def K.ch.TX_LISTEN_GAIN (i : Nat) : Reg := ⟨(0x3000 + i) * 256 + (0x7), 0, 8⟩

/-- IDLE_TRIM (R59). -/
def K.ch.IDLE_TRIM (i : Nat) : Reg := ⟨(0x3000 + i) * 256 + (0x8), 0, 16⟩

/-- TX_DELAY (R59). -/
def K.ch.TX_DELAY (i : Nat) : Reg := ⟨(0x3000 + i) * 256 + (0x9), 0, 16⟩

/-- TX_FS_CURRENT (R59). -/
def K.ch.TX_FS_CURRENT (i : Nat) : Reg := ⟨(0x3000 + i) * 256 + (0xA), 200, 8⟩

/-- MASK (R90). -/
def K.ch.MASK (i : Nat) (j : Nat) : Reg := ⟨(0x3000 + i) * 256 + (0xB + j), 0, 32⟩

/-- LANE_ENABLE (R119). -/
def K.ch.LANE_ENABLE (i : Nat) : Reg := ⟨(0x3000 + i) * 256 + (0x13), 1, 1⟩

/-- LANE_LEVEL (R119). -/
def K.ch.LANE_LEVEL (i : Nat) : Reg := ⟨(0x3000 + i) * 256 + (0x14), 240, 8⟩

/-- LANE_PRE_LEN (R119). -/
def K.ch.LANE_PRE_LEN (i : Nat) : Reg := ⟨(0x3000 + i) * 256 + (0x15), 4, 8⟩

/-- SWELL_PRE_LEN (R119). -/
def K.ch.SWELL_PRE_LEN (i : Nat) : Reg := ⟨(0x3000 + i) * 256 + (0x16), 8, 8⟩

/-- DETECT_LEVEL (R151). -/
def K.ch.DETECT_LEVEL (i : Nat) : Reg := ⟨(0x3000 + i) * 256 + (0x17), 64, 8⟩

/-- STATE (R61). -/
def K.chs.STATE (i : Nat) : Reg := ⟨(0x3100 + i) * 256 + (0x1), 0, 8⟩

/-- GAIN (R61). -/
def K.chs.GAIN (i : Nat) : Reg := ⟨(0x3100 + i) * 256 + (0x2), 84, 8⟩

/-- TRIM (R61). -/
def K.chs.TRIM (i : Nat) : Reg := ⟨(0x3100 + i) * 256 + (0x3), 0, 16⟩

/-- PHASE (R61). -/
def K.chs.PHASE (i : Nat) : Reg := ⟨(0x3100 + i) * 256 + (0x4), 0, 8⟩

/-- RX_OVERFLOW (R61). -/
def K.chs.RX_OVERFLOW (i : Nat) : Reg := ⟨(0x3100 + i) * 256 + (0x5), 0, 1⟩

/-- RX_OVERFLOW_COUNT (R61). -/
def K.chs.RX_OVERFLOW_COUNT (i : Nat) : Reg := ⟨(0x3100 + i) * 256 + (0x6), 0, 32⟩

/-- TX_UNDERRUN (R61). -/
def K.chs.TX_UNDERRUN (i : Nat) : Reg := ⟨(0x3100 + i) * 256 + (0x7), 0, 1⟩

/-- TX_UNDERRUN_COUNT (R61). -/
def K.chs.TX_UNDERRUN_COUNT (i : Nat) : Reg := ⟨(0x3100 + i) * 256 + (0x8), 0, 32⟩

/-- LATE_FRAME_COUNT (R61). -/
def K.chs.LATE_FRAME_COUNT (i : Nat) : Reg := ⟨(0x3100 + i) * 256 + (0x9), 0, 32⟩

/-- CLIP_COUNT (R61). -/
def K.chs.CLIP_COUNT (i : Nat) : Reg := ⟨(0x3100 + i) * 256 + (0xA), 0, 32⟩

/-- TRIM_RANGE_COUNT (R61). -/
def K.chs.TRIM_RANGE_COUNT (i : Nat) : Reg := ⟨(0x3100 + i) * 256 + (0xB), 0, 32⟩

/-- BW_PEAK (R61). -/
def K.chs.BW_PEAK (i : Nat) : Reg := ⟨(0x3100 + i) * 256 + (0xC), 0, 16⟩

/-- SYNTH_LOCKED (R61). -/
def K.chs.SYNTH_LOCKED (i : Nat) : Reg := ⟨(0x3100 + i) * 256 + (0xD), 0, 1⟩

/-- SYNTH_LOCK_LOSS (R61). -/
def K.chs.SYNTH_LOCK_LOSS (i : Nat) : Reg := ⟨(0x3100 + i) * 256 + (0xE), 0, 16⟩

/-- LANE_RX_FRAMES (R120). -/
def K.chs.LANE_RX_FRAMES (i : Nat) : Reg := ⟨(0x3100 + i) * 256 + (0xF), 0, 32⟩

/-- LANE_HDR_FAIL (R120). -/
def K.chs.LANE_HDR_FAIL (i : Nat) : Reg := ⟨(0x3100 + i) * 256 + (0x10), 0, 32⟩

/-- LANE_TX_FRAMES (R120). -/
def K.chs.LANE_TX_FRAMES (i : Nat) : Reg := ⟨(0x3100 + i) * 256 + (0x11), 0, 32⟩

/-- LANE_WAKE_CUT (R120). -/
def K.chs.LANE_WAKE_CUT (i : Nat) : Reg := ⟨(0x3100 + i) * 256 + (0x12), 0, 32⟩

/-- LANE_P0_DEFERRED (R120). -/
def K.chs.LANE_P0_DEFERRED (i : Nat) : Reg := ⟨(0x3100 + i) * 256 + (0x13), 0, 32⟩

/-- SWELL_RX_FRAMES (R120). -/
def K.chs.SWELL_RX_FRAMES (i : Nat) : Reg := ⟨(0x3100 + i) * 256 + (0x14), 0, 32⟩

/-- SWELL_HDR_FAIL (R120). -/
def K.chs.SWELL_HDR_FAIL (i : Nat) : Reg := ⟨(0x3100 + i) * 256 + (0x15), 0, 32⟩

/-- LANE_ACK_MISSED (R120). -/
def K.chs.LANE_ACK_MISSED (i : Nat) : Reg := ⟨(0x3100 + i) * 256 + (0x16), 0, 32⟩

/-- DETECT_COUNT (R152). -/
def K.chs.DETECT_COUNT (i : Nat) : Reg := ⟨(0x3100 + i) * 256 + (0x17), 0, 32⟩

/-- ACQ_FAIL_COUNT (R152). -/
def K.chs.ACQ_FAIL_COUNT (i : Nat) : Reg := ⟨(0x3100 + i) * 256 + (0x18), 0, 32⟩

/-- FC_FAIL_COUNT (R152). -/
def K.chs.FC_FAIL_COUNT (i : Nat) : Reg := ⟨(0x3100 + i) * 256 + (0x19), 0, 32⟩

/-- RINSE_TAKEOVER (R152). -/
def K.chs.RINSE_TAKEOVER (i : Nat) : Reg := ⟨(0x3100 + i) * 256 + (0x1A), 0, 32⟩

/-- LOST_TO_CAPTURE (R152). -/
def K.chs.LOST_TO_CAPTURE (i : Nat) : Reg := ⟨(0x3100 + i) * 256 + (0x1B), 0, 32⟩

/-- CAPTURE_IGNORED (R152). -/
def K.chs.CAPTURE_IGNORED (i : Nat) : Reg := ⟨(0x3100 + i) * 256 + (0x1C), 0, 32⟩

/-- FOREIGN_COUNT (R152). -/
def K.chs.FOREIGN_COUNT (i : Nat) : Reg := ⟨(0x3100 + i) * 256 + (0x1D), 0, 32⟩

/-- NOT_ADDRESSED_COUNT (R152). -/
def K.chs.NOT_ADDRESSED_COUNT (i : Nat) : Reg := ⟨(0x3100 + i) * 256 + (0x1E), 0, 32⟩

/-- DIR_FAIL_COUNT (R152). -/
def K.chs.DIR_FAIL_COUNT (i : Nat) : Reg := ⟨(0x3100 + i) * 256 + (0x1F), 0, 32⟩

/-- MPDU_COMMIT (R152). -/
def K.chs.MPDU_COMMIT (i : Nat) : Reg := ⟨(0x3100 + i) * 256 + (0x20), 0, 32⟩

/-- MPDU_DUPLICATE (R152). -/
def K.chs.MPDU_DUPLICATE (i : Nat) : Reg := ⟨(0x3100 + i) * 256 + (0x21), 0, 32⟩

/-- MPDU_CRC_FAIL (R152). -/
def K.chs.MPDU_CRC_FAIL (i : Nat) : Reg := ⟨(0x3100 + i) * 256 + (0x22), 0, 32⟩

/-- MPDU_TAG_FAIL (R152). -/
def K.chs.MPDU_TAG_FAIL (i : Nat) : Reg := ⟨(0x3100 + i) * 256 + (0x23), 0, 32⟩

/-- MPDU_REPLAY (R152). -/
def K.chs.MPDU_REPLAY (i : Nat) : Reg := ⟨(0x3100 + i) * 256 + (0x24), 0, 32⟩

/-- MPDU_NO_KEY (R152). -/
def K.chs.MPDU_NO_KEY (i : Nat) : Reg := ⟨(0x3100 + i) * 256 + (0x25), 0, 32⟩

/-- MPDU_KEY_ERASED (R152). -/
def K.chs.MPDU_KEY_ERASED (i : Nat) : Reg := ⟨(0x3100 + i) * 256 + (0x26), 0, 32⟩

/-- MPDU_NO_BUFFER (R152). -/
def K.chs.MPDU_NO_BUFFER (i : Nat) : Reg := ⟨(0x3100 + i) * 256 + (0x27), 0, 32⟩

/-- SHED_P1 (R152). -/
def K.chs.SHED_P1 (i : Nat) : Reg := ⟨(0x3100 + i) * 256 + (0x28), 0, 32⟩

/-- SHED_P2 (R152). -/
def K.chs.SHED_P2 (i : Nat) : Reg := ⟨(0x3100 + i) * 256 + (0x29), 0, 32⟩

/-- SHED_P3 (R152). -/
def K.chs.SHED_P3 (i : Nat) : Reg := ⟨(0x3100 + i) * 256 + (0x2A), 0, 32⟩

/-- ACK_LATE (R152). -/
def K.chs.ACK_LATE (i : Nat) : Reg := ⟨(0x3100 + i) * 256 + (0x2B), 0, 32⟩

/-- RINSE_DISABLED (R152). -/
def K.chs.RINSE_DISABLED (i : Nat) : Reg := ⟨(0x3100 + i) * 256 + (0x2C), 0, 32⟩

/-- GI_MISS (R152). -/
def K.chs.GI_MISS (i : Nat) : Reg := ⟨(0x3100 + i) * 256 + (0x2D), 0, 32⟩

/-- GROUP_JOIN (R152). -/
def K.chs.GROUP_JOIN (i : Nat) : Reg := ⟨(0x3100 + i) * 256 + (0x2E), 0, 32⟩

/-- GROUP_LEAVE (R152). -/
def K.chs.GROUP_LEAVE (i : Nat) : Reg := ⟨(0x3100 + i) * 256 + (0x2F), 0, 32⟩

/-- CODEWORDS_DISCARDED (R152). -/
def K.chs.CODEWORDS_DISCARDED (i : Nat) : Reg := ⟨(0x3100 + i) * 256 + (0x30), 0, 32⟩

/-- CAPTURE_MARGIN (R151). -/
def K.seg.CAPTURE_MARGIN (i : Nat) : Reg := ⟨(0x3400 + i) * 256 + (0x20), 6, 8⟩

/-- COMBINE_ENABLE (R151). -/
def K.seg.COMBINE_ENABLE (i : Nat) : Reg := ⟨(0x3400 + i) * 256 + (0x21), 1, 1⟩

/-- SEG_PHASE_OFFSET (R185). -/
def K.seg.SEG_PHASE_OFFSET (i : Nat) : Reg := ⟨(0x3400 + i) * 256 + (0x22), 0, 16⟩

/-- NOISE_1 (R185). -/
def K.seg.NOISE_1 (i : Nat) : Reg := ⟨(0x3400 + i) * 256 + (0x23), 4, 8⟩

/-- NOISE_2 (R185). -/
def K.seg.NOISE_2 (i : Nat) : Reg := ⟨(0x3400 + i) * 256 + (0x24), 10, 8⟩

/-- NOISE_3 (R185). -/
def K.seg.NOISE_3 (i : Nat) : Reg := ⟨(0x3400 + i) * 256 + (0x25), 20, 8⟩

/-- IMP_1 (R185). -/
def K.seg.IMP_1 (i : Nat) : Reg := ⟨(0x3400 + i) * 256 + (0x26), 10, 16⟩

/-- IMP_2 (R185). -/
def K.seg.IMP_2 (i : Nat) : Reg := ⟨(0x3400 + i) * 256 + (0x27), 50, 16⟩

/-- IMP_3 (R185). -/
def K.seg.IMP_3 (i : Nat) : Reg := ⟨(0x3400 + i) * 256 + (0x28), 200, 16⟩

/-- IMPULSE_LEVEL (R185). -/
def K.seg.IMPULSE_LEVEL (i : Nat) : Reg := ⟨(0x3400 + i) * 256 + (0x29), 20, 8⟩

/-- STALE_CYCLES (R185). -/
def K.seg.STALE_CYCLES (i : Nat) : Reg := ⟨(0x3400 + i) * 256 + (0x2A), 256, 16⟩

/-- MAP_MARGIN (R185). -/
def K.seg.MAP_MARGIN (i : Nat) : Reg := ⟨(0x3400 + i) * 256 + (0x2B), 2, 8⟩

/-- ROBUST_GI (R185). -/
def K.seg.ROBUST_GI (i : Nat) : Reg := ⟨(0x3400 + i) * 256 + (0x2C), 3, 8⟩

/-- SOUND_PSC (R185). -/
def K.seg.SOUND_PSC (i : Nat) : Reg := ⟨(0x3400 + i) * 256 + (0x2D), 16, 8⟩

/-- SOUND_TIMEOUT (R185). -/
def K.seg.SOUND_TIMEOUT (i : Nat) : Reg := ⟨(0x3400 + i) * 256 + (0x2E), 16, 8⟩

/-- MAP_REFRESH (R185). -/
def K.seg.MAP_REFRESH (i : Nat) : Reg := ⟨(0x3400 + i) * 256 + (0x2F), 30, 16⟩

/-- BP_CYCLES (R229). -/
def K.seg.BP_CYCLES (i : Nat) : Reg := ⟨(0x3400 + i) * 256 + (0x30), 8, 8⟩

/-- BEACON_SLOT (R229). -/
def K.seg.BEACON_SLOT (i : Nat) : Reg := ⟨(0x3400 + i) * 256 + (0x31), 0, 8⟩

/-- BEACON_SLOTS (R229). -/
def K.seg.BEACON_SLOTS (i : Nat) : Reg := ⟨(0x3400 + i) * 256 + (0x32), 1, 8⟩

/-- CR_FIRST (R229). -/
def K.seg.CR_FIRST (i : Nat) : Reg := ⟨(0x3400 + i) * 256 + (0x33), 24, 16⟩

/-- CR_COUNT (R229). -/
def K.seg.CR_COUNT (i : Nat) : Reg := ⟨(0x3400 + i) * 256 + (0x34), 24, 16⟩

/-- MAX_FRAME (R229). -/
def K.seg.MAX_FRAME (i : Nat) : Reg := ⟨(0x3400 + i) * 256 + (0x35), 40, 8⟩

/-- MAX_DELAY (R229). -/
def K.seg.MAX_DELAY (i : Nat) : Reg := ⟨(0x3400 + i) * 256 + (0x36), 100, 16⟩

/-- LEASE_TIME (R229). -/
def K.seg.LEASE_TIME (i : Nat) : Reg := ⟨(0x3400 + i) * 256 + (0x37), 86400, 32⟩

/-- ADDRESS_HOLD (R229). -/
def K.seg.ADDRESS_HOLD (i : Nat) : Reg := ⟨(0x3400 + i) * 256 + (0x38), 3600, 32⟩

/-- ASSOC_PERMIT (R229). -/
def K.seg.ASSOC_PERMIT (i : Nat) : Reg := ⟨(0x3400 + i) * 256 + (0x39), 1, 1⟩

/-- ADRIFT_HOLD (R229). -/
def K.seg.ADRIFT_HOLD (i : Nat) : Reg := ⟨(0x3400 + i) * 256 + (0x3A), 600, 16⟩

/-- DEFAULT_DRIFT (R229). -/
def K.seg.DEFAULT_DRIFT (i : Nat) : Reg := ⟨(0x3400 + i) * 256 + (0x3B), 40, 8⟩

/-- BCAST_REPEAT (R229). -/
def K.seg.BCAST_REPEAT (i : Nat) : Reg := ⟨(0x3400 + i) * 256 + (0x3C), 2, 8⟩

/-- REACH_BEACON (R229). -/
def K.seg.REACH_BEACON (i : Nat) : Reg := ⟨(0x3400 + i) * 256 + (0x3D), 0, 8⟩

/-- SEG_ENABLE (R265). -/
def K.seg.SEG_ENABLE (i : Nat) : Reg := ⟨(0x3400 + i) * 256 + (0x1), 0, 1⟩

/-- MEMBER_COUNT (R265). -/
def K.seg.MEMBER_COUNT (i : Nat) : Reg := ⟨(0x3400 + i) * 256 + (0x2), 0, 8⟩

/-- MEMBER (R265). -/
def K.seg.MEMBER (i : Nat) (j : Nat) : Reg := ⟨(0x3400 + i) * 256 + (0x3 + j), 0, 8⟩

/-- SUBSET_SPREAD (R265). -/
def K.seg.SUBSET_SPREAD (i : Nat) : Reg := ⟨(0x3400 + i) * 256 + (0xB), 10, 8⟩

/-- REPEAT_ENABLE (R265). -/
def K.seg.REPEAT_ENABLE (i : Nat) : Reg := ⟨(0x3400 + i) * 256 + (0xC), 1, 1⟩

/-- NEIGHBOUR_MIN_SNR (R265). -/
def K.seg.NEIGHBOUR_MIN_SNR (i : Nat) : Reg := ⟨(0x3400 + i) * 256 + (0xD), 3, 8⟩

/-- HOP_PENALTY (R265). -/
def K.seg.HOP_PENALTY (i : Nat) : Reg := ⟨(0x3400 + i) * 256 + (0xE), 100, 16⟩

/-- ROUTE_INTERVAL (R265). -/
def K.seg.ROUTE_INTERVAL (i : Nat) : Reg := ⟨(0x3400 + i) * 256 + (0xF), 15, 16⟩

/-- BRIDGE_LO (R265). -/
def K.seg.BRIDGE_LO (i : Nat) : Reg := ⟨(0x3400 + i) * 256 + (0x10), 0, 32⟩

/-- BRIDGE_HI (R265). -/
def K.seg.BRIDGE_HI (i : Nat) : Reg := ⟨(0x3400 + i) * 256 + (0x11), 0, 32⟩

/-- NEXT_ACTIVATE (R350). -/
def K.seg.NEXT_ACTIVATE (i : Nat) : Reg := ⟨(0x3400 + i) * 256 + (0x40), 0, 32⟩

/-- KEY_OVERLAP (R350). -/
def K.seg.KEY_OVERLAP (i : Nat) : Reg := ⟨(0x3400 + i) * 256 + (0x41), 60, 8⟩

/-- TAG_LEN (R350). -/
def K.seg.TAG_LEN (i : Nat) : Reg := ⟨(0x3400 + i) * 256 + (0x42), 8, 8⟩

/-- REF_UNIT (R158). -/
def K.trk.REF_UNIT : Reg := ⟨(0x2100) * 256 + (0x1), 0, 8⟩

/-- NOMINAL_FREQ (R158). -/
def K.trk.NOMINAL_FREQ : Reg := ⟨(0x2100) * 256 + (0x2), 50, 8⟩

/-- REF_MIN_LEVEL (R158). -/
def K.trk.REF_MIN_LEVEL : Reg := ⟨(0x2100) * 256 + (0x3), 3277, 16⟩

/-- TRACKER_STATE (R158). -/
def K.trks.TRACKER_STATE : Reg := ⟨(0x2101) * 256 + (0x1), 0, 8⟩

/-- FREQUENCY (R158). -/
def K.trks.FREQUENCY : Reg := ⟨(0x2101) * 256 + (0x2), 50000000, 32⟩

/-- REF_PHASE (R158). -/
def K.trks.REF_PHASE : Reg := ⟨(0x2101) * 256 + (0x3), 0, 32⟩

/-- ZERO_TICK (R158). -/
def K.trks.ZERO_TICK : Reg := ⟨(0x2101) * 256 + (0x4), 0, 64⟩

/-- HOLDOVER_SEEN (R158). -/
def K.trks.HOLDOVER_SEEN : Reg := ⟨(0x2101) * 256 + (0x5), 1, 1⟩

/-- LOCK_LOSS_COUNT (R158). -/
def K.trks.LOCK_LOSS_COUNT : Reg := ⟨(0x2101) * 256 + (0x6), 0, 16⟩

/-- PHASE_STEP_COUNT (R158). -/
def K.trks.PHASE_STEP_COUNT : Reg := ⟨(0x2101) * 256 + (0x7), 0, 16⟩

/-- SLOT (R168). -/
def K.tide.SLOT (i : Nat) (j : Nat) : Reg := ⟨(0x3800 + i) * 256 + (0x1 + j), 3, 32⟩

/-- FLOOR (R168). -/
def K.tide.FLOOR (i : Nat) : Reg := ⟨(0x3800 + i) * 256 + (0x19), 32768, 16⟩

/-- CLASS_VECTOR (R168). -/
def K.tide.CLASS_VECTOR (i : Nat) : Reg := ⟨(0x3800 + i) * 256 + (0x1A), 281474976710655, 64⟩

/-- CLASS_CHANGES (R168). -/
def K.tide.CLASS_CHANGES (i : Nat) : Reg := ⟨(0x3800 + i) * 256 + (0x1B), 0, 32⟩

/-- WINDOWS_DROPPED (R168). -/
def K.tide.WINDOWS_DROPPED (i : Nat) : Reg := ⟨(0x3800 + i) * 256 + (0x1C), 0, 32⟩

/-- STALE_GAPS (R168). -/
def K.tide.STALE_GAPS (i : Nat) : Reg := ⟨(0x3800 + i) * 256 + (0x1D), 0, 32⟩

/-- SEG_PHASE (R186). -/
def K.segs.SEG_PHASE (i : Nat) : Reg := ⟨(0x3440 + i) * 256 + (0x20), 0, 32⟩

/-- TMAP_NEGOTIATED (R186). -/
def K.segs.TMAP_NEGOTIATED (i : Nat) : Reg := ⟨(0x3440 + i) * 256 + (0x21), 0, 32⟩

/-- TMAP_REJECTED (R186). -/
def K.segs.TMAP_REJECTED (i : Nat) : Reg := ⟨(0x3440 + i) * 256 + (0x22), 0, 32⟩

/-- TMAP_NO_PAGE (R186). -/
def K.segs.TMAP_NO_PAGE (i : Nat) : Reg := ⟨(0x3440 + i) * 256 + (0x23), 0, 32⟩

/-- SOUND_TIMEOUTS (R186). -/
def K.segs.SOUND_TIMEOUTS (i : Nat) : Reg := ⟨(0x3440 + i) * 256 + (0x24), 0, 32⟩

/-- MAP_DROPS (R186). -/
def K.segs.MAP_DROPS (i : Nat) : Reg := ⟨(0x3440 + i) * 256 + (0x25), 0, 32⟩

/-- TMAP_MALFORMED (R186). -/
def K.segs.TMAP_MALFORMED (i : Nat) : Reg := ⟨(0x3440 + i) * 256 + (0x26), 0, 32⟩

/-- BP_COUNT (R230). -/
def K.segs.BP_COUNT (i : Nat) : Reg := ⟨(0x3440 + i) * 256 + (0x30), 0, 16⟩

/-- ASSOCIATED (R230). -/
def K.segs.ASSOCIATED (i : Nat) : Reg := ⟨(0x3440 + i) * 256 + (0x31), 0, 32⟩

/-- ASSOC_GRANTED (R230). -/
def K.segs.ASSOC_GRANTED (i : Nat) : Reg := ⟨(0x3440 + i) * 256 + (0x32), 0, 32⟩

/-- ASSOC_REFUSED (R230). -/
def K.segs.ASSOC_REFUSED (i : Nat) : Reg := ⟨(0x3440 + i) * 256 + (0x33), 0, 32⟩

/-- LEASE_EXPIRED (R230). -/
def K.segs.LEASE_EXPIRED (i : Nat) : Reg := ⟨(0x3440 + i) * 256 + (0x34), 0, 32⟩

/-- RETRIES (R230). -/
def K.segs.RETRIES (i : Nat) : Reg := ⟨(0x3440 + i) * 256 + (0x35), 0, 32⟩

/-- MPDU_ABANDONED (R230). -/
def K.segs.MPDU_ABANDONED (i : Nat) : Reg := ⟨(0x3440 + i) * 256 + (0x36), 0, 32⟩

/-- UNKNOWN_SRC (R230). -/
def K.segs.UNKNOWN_SRC (i : Nat) : Reg := ⟨(0x3440 + i) * 256 + (0x37), 0, 32⟩

/-- MAC_CMD_BAD (R230). -/
def K.segs.MAC_CMD_BAD (i : Nat) : Reg := ⟨(0x3440 + i) * 256 + (0x38), 0, 32⟩

/-- ALLOC_OVERFLOW (R230). -/
def K.segs.ALLOC_OVERFLOW (i : Nat) : Reg := ⟨(0x3440 + i) * 256 + (0x39), 0, 32⟩

/-- WAKE_MISSED (R230). -/
def K.segs.WAKE_MISSED (i : Nat) : Reg := ⟨(0x3440 + i) * 256 + (0x3A), 0, 32⟩

/-- WAKES_SENT (R230). -/
def K.segs.WAKES_SENT (i : Nat) : Reg := ⟨(0x3440 + i) * 256 + (0x3B), 0, 32⟩

/-- ADRIFT_EVENTS (R230). -/
def K.segs.ADRIFT_EVENTS (i : Nat) : Reg := ⟨(0x3440 + i) * 256 + (0x3C), 0, 32⟩

/-- REACH_BEACONS (R230). -/
def K.segs.REACH_BEACONS (i : Nat) : Reg := ⟨(0x3440 + i) * 256 + (0x3D), 0, 32⟩

/-- ASSOC_MALFORMED (R230). -/
def K.segs.ASSOC_MALFORMED (i : Nat) : Reg := ⟨(0x3440 + i) * 256 + (0x3E), 0, 32⟩

/-- SEG_STATE (R266). -/
def K.segs.SEG_STATE (i : Nat) : Reg := ⟨(0x3440 + i) * 256 + (0x1), 0, 8⟩

/-- ROUTED_ENDPOINTS (R266). -/
def K.segs.ROUTED_ENDPOINTS (i : Nat) : Reg := ⟨(0x3440 + i) * 256 + (0x2), 0, 32⟩

/-- NO_ROUTE (R266). -/
def K.segs.NO_ROUTE (i : Nat) : Reg := ⟨(0x3440 + i) * 256 + (0x3), 0, 32⟩

/-- RELAYED_UP (R266). -/
def K.segs.RELAYED_UP (i : Nat) : Reg := ⟨(0x3440 + i) * 256 + (0x4), 0, 32⟩

/-- RELAYED_DOWN (R266). -/
def K.segs.RELAYED_DOWN (i : Nat) : Reg := ⟨(0x3440 + i) * 256 + (0x5), 0, 32⟩

/-- RELAY_INNER_FAIL (R266). -/
def K.segs.RELAY_INNER_FAIL (i : Nat) : Reg := ⟨(0x3440 + i) * 256 + (0x6), 0, 32⟩

/-- ROUTE_SETS_SENT (R266). -/
def K.segs.ROUTE_SETS_SENT (i : Nat) : Reg := ⟨(0x3440 + i) * 256 + (0x7), 0, 32⟩

/-- BRIDGED (R266). -/
def K.segs.BRIDGED (i : Nat) : Reg := ⟨(0x3440 + i) * 256 + (0x8), 0, 32⟩

/-- BRIDGE_DROP (R266). -/
def K.segs.BRIDGE_DROP (i : Nat) : Reg := ⟨(0x3440 + i) * 256 + (0x9), 0, 32⟩

/-- YIELDED_SLOTS (R266). -/
def K.segs.YIELDED_SLOTS (i : Nat) : Reg := ⟨(0x3440 + i) * 256 + (0xA), 0, 32⟩

/-- CR_CLASH (R266). -/
def K.segs.CR_CLASH (i : Nat) : Reg := ⟨(0x3440 + i) * 256 + (0xB), 0, 32⟩

/-- BEACON_CLASH (R266). -/
def K.segs.BEACON_CLASH (i : Nat) : Reg := ⟨(0x3440 + i) * 256 + (0xC), 0, 32⟩

/-- COUPLED (R266). -/
def K.segs.COUPLED (i : Nat) : Reg := ⟨(0x3440 + i) * 256 + (0xD), 0, 16⟩

/-- COUPLING (R266). -/
def K.segs.COUPLING (i : Nat) (j : Nat) : Reg := ⟨(0x3440 + i) * 256 + (0x10 + j), 0, 32⟩

/-- KEY_PHASE (R350). -/
def K.segs.KEY_PHASE (i : Nat) : Reg := ⟨(0x3440 + i) * 256 + (0x40), 0, 8⟩

/-- NEXT_DELIVERED (R350). -/
def K.segs.NEXT_DELIVERED (i : Nat) : Reg := ⟨(0x3440 + i) * 256 + (0x41), 0, 32⟩

/-- PROMOTIONS (R350). -/
def K.segs.PROMOTIONS (i : Nat) : Reg := ⟨(0x3440 + i) * 256 + (0x42), 0, 16⟩

/-- PAGES_FREE (R186). -/
def K.pool.PAGES_FREE : Reg := ⟨(0x2102) * 256 + (0x1), 16382, 16⟩

/-- PAGES_FREE_MIN (R186). -/
def K.pool.PAGES_FREE_MIN : Reg := ⟨(0x2102) * 256 + (0x2), 16382, 16⟩

/-- SEGMENT (R231). -/
def K.cur.SEGMENT (i : Nat) : Reg := ⟨(0x8000 + i) * 256 + (0x1), 0, 8⟩

/-- SHORT_ADDR (R231). -/
def K.cur.SHORT_ADDR (i : Nat) : Reg := ⟨(0x8000 + i) * 256 + (0x2), 65534, 16⟩

/-- FOUND (R231). -/
def K.cur.FOUND (i : Nat) : Reg := ⟨(0x8000 + i) * 256 + (0x3), 0, 1⟩

/-- ENTRY (R231). -/
def K.cur.ENTRY (i : Nat) : Blob := ⟨(0x8000 + i) * 256 + (0x4), List.replicate 64 0⟩

/-- DRIFT (R231). -/
def K.cur.DRIFT (i : Nat) : Blob := ⟨(0x8000 + i) * 256 + (0x5), List.replicate 20 0⟩

/-- DISASSOCIATE (R231). -/
def K.cur.DISASSOCIATE (i : Nat) : Reg := ⟨(0x8000 + i) * 256 + (0x6), 0, 1⟩

/-- DEVICE_NUMBER (R267). -/
def K.dom.DEVICE_NUMBER : Reg := ⟨(0x7180) * 256 + (0x1), 0, 16⟩

/-- DOMAIN_ID (R267). -/
def K.dom.DOMAIN_ID : Reg := ⟨(0x7180) * 256 + (0x2), 0, 32⟩

/-- DOMAIN_KEY_SLOT (R267). -/
def K.dom.DOMAIN_KEY_SLOT : Reg := ⟨(0x7180) * 256 + (0x3), 1023, 16⟩

/-- DOMAIN_ENABLE (R267). -/
def K.dom.DOMAIN_ENABLE : Reg := ⟨(0x7180) * 256 + (0x4), 0, 1⟩

/-- ROAM_ENABLE (R267). -/
def K.dom.ROAM_ENABLE : Reg := ⟨(0x7180) * 256 + (0x5), 1, 1⟩

/-- COUPLE_LEVEL (R267). -/
def K.dom.COUPLE_LEVEL : Reg := ⟨(0x7180) * 256 + (0x6), 6, 8⟩

/-- COUPLE_AGE (R267). -/
def K.dom.COUPLE_AGE : Reg := ⟨(0x7180) * 256 + (0x7), 3600, 16⟩

/-- PEERS_PRESENT (R267). -/
def K.doms.PEERS_PRESENT : Reg := ⟨(0x7181) * 256 + (0x1), 0, 16⟩

/-- CLAIMS_LATE (R267). -/
def K.doms.CLAIMS_LATE : Reg := ⟨(0x7181) * 256 + (0x2), 0, 32⟩

/-- DRV_AUTH_FAIL (R267). -/
def K.doms.DRV_AUTH_FAIL : Reg := ⟨(0x7181) * 256 + (0x3), 0, 32⟩

/-- DRV_STALE (R267). -/
def K.doms.DRV_STALE : Reg := ⟨(0x7181) * 256 + (0x4), 0, 32⟩

/-- ROAMED_IN (R267). -/
def K.doms.ROAMED_IN : Reg := ⟨(0x7181) * 256 + (0x5), 0, 32⟩

/-- ROAMED_OUT (R267). -/
def K.doms.ROAMED_OUT : Reg := ⟨(0x7181) * 256 + (0x6), 0, 32⟩

/-- ROAM_NO_OFFER (R267). -/
def K.doms.ROAM_NO_OFFER : Reg := ⟨(0x7181) * 256 + (0x7), 0, 32⟩

/-- TXN_RELAYED (R267). -/
def K.doms.TXN_RELAYED : Reg := ⟨(0x7181) * 256 + (0x8), 0, 32⟩

/-- DEVICE_CLASH (R267). -/
def K.doms.DEVICE_CLASH : Reg := ⟨(0x7181) * 256 + (0x9), 0, 1⟩

/-- CACHE_TIME (R302). -/
def K.txn.CACHE_TIME : Reg := ⟨(0x7000) * 256 + (0x1), 60, 16⟩

/-- CACHE_LIMIT (R302). -/
def K.txn.CACHE_LIMIT : Reg := ⟨(0x7000) * 256 + (0x2), 4194304, 32⟩

/-- P0_RESERVE (R302). -/
def K.txn.P0_RESERVE : Reg := ⟨(0x7000) * 256 + (0x3), 8192, 32⟩

/-- P0_MAX_TARGETS (R302). -/
def K.txn.P0_MAX_TARGETS : Reg := ⟨(0x7000) * 256 + (0x4), 256, 16⟩

/-- RESP_WAIT (R302). -/
def K.txn.RESP_WAIT : Reg := ⟨(0x7000) * 256 + (0x5), 2000, 16⟩

/-- REPORT_REPEAT (R302). -/
def K.txn.REPORT_REPEAT : Reg := ⟨(0x7000) * 256 + (0x6), 3, 8⟩

/-- QUOTA (R302). -/
def K.cls.QUOTA (i : Nat) : Reg := ⟨(0x7010 + i) * 256 + (0x1), (perClass 0 500000 2000000 1000000 i), 32⟩

/-- DEFAULT_TIMEOUT (R302). -/
def K.cls.DEFAULT_TIMEOUT (i : Nat) : Reg := ⟨(0x7010 + i) * 256 + (0x2), (perClass 2000 10000 60000 600000 i), 32⟩

/-- MAX_TIMEOUT (R302). -/
def K.cls.MAX_TIMEOUT (i : Nat) : Reg := ⟨(0x7010 + i) * 256 + (0x3), (perClass 60000 600000 3600000 86400000 i), 32⟩

/-- LEG_RETRIES (R302). -/
def K.cls.LEG_RETRIES (i : Nat) : Reg := ⟨(0x7010 + i) * 256 + (0x4), (perClass 3 2 2 1 i), 8⟩

/-- FRAG_MAX (R302). -/
def K.cls.FRAG_MAX (i : Nat) : Reg := ⟨(0x7010 + i) * 256 + (0x5), (perClass 230 1024 2048 4096 i), 16⟩

/-- AGG_BYTES (R302). -/
def K.cls.AGG_BYTES (i : Nat) : Reg := ⟨(0x7010 + i) * 256 + (0x6), 8192, 16⟩

/-- QUEUE_LIMIT (R302). -/
def K.cls.QUEUE_LIMIT (i : Nat) : Reg := ⟨(0x7010 + i) * 256 + (0x7), 16384, 32⟩

/-- GROUP (R302). -/
def K.groups.GROUP (i : Nat) : Blob := ⟨(0x7080 + i) * 256 + (0x0), []⟩

/-- RECORDS_OPEN (R303). -/
def K.txns.RECORDS_OPEN : Reg := ⟨(0x7001) * 256 + (0x1), 0, 32⟩

/-- RECORDS_CACHED (R303). -/
def K.txns.RECORDS_CACHED : Reg := ⟨(0x7001) * 256 + (0x2), 0, 32⟩

/-- RECORDS_FREE_MIN (R303). -/
def K.txns.RECORDS_FREE_MIN : Reg := ⟨(0x7001) * 256 + (0x3), 131072, 32⟩

/-- FRAG_TX (R303). -/
def K.txns.FRAG_TX : Reg := ⟨(0x7001) * 256 + (0x4), 0, 64⟩

/-- FRAG_RX (R303). -/
def K.txns.FRAG_RX : Reg := ⟨(0x7001) * 256 + (0x5), 0, 64⟩

/-- BAD_REQUESTS (R303). -/
def K.txns.BAD_REQUESTS : Reg := ⟨(0x7001) * 256 + (0x6), 0, 32⟩

/-- DUP_OPEN (R303). -/
def K.txns.DUP_OPEN : Reg := ⟨(0x7001) * 256 + (0x7), 0, 32⟩

/-- CACHE_HITS (R303). -/
def K.txns.CACHE_HITS : Reg := ⟨(0x7001) * 256 + (0x8), 0, 32⟩

/-- CACHE_EVICTED (R303). -/
def K.txns.CACHE_EVICTED : Reg := ⟨(0x7001) * 256 + (0x9), 0, 32⟩

/-- LATE_RESPONSE (R303). -/
def K.txns.LATE_RESPONSE : Reg := ⟨(0x7001) * 256 + (0xA), 0, 32⟩

/-- ABORTS (R303). -/
def K.txns.ABORTS : Reg := ⟨(0x7001) * 256 + (0xB), 0, 32⟩

/-- REPORTS_SENT (R303). -/
def K.txns.REPORTS_SENT : Reg := ⟨(0x7001) * 256 + (0xC), 0, 32⟩

/-- OUTCOME (R303). -/
def K.outc.OUTCOME (i : Nat) (j : Nat) : Reg := ⟨(0x7020 + i) * 256 + (0x1 + j), 0, 32⟩

/-- CAUSE (R303). -/
def K.caus.CAUSE (i : Nat) (j : Nat) : Reg := ⟨(0x7030 + i) * 256 + (0x1 + j), 0, 32⟩

/-- ERASE (R349). -/
def K.keyw.ERASE (i : Nat) : Reg := ⟨(0x5000 + i) * 256 + (0x2), 0, 1⟩

/-- STATE (R349). -/
def K.key.STATE (i : Nat) : Reg := ⟨(0x5400 + i) * 256 + (0x1), 0, 8⟩

/-- KEY_BITS (R349). -/
def K.key.KEY_BITS (i : Nat) : Reg := ⟨(0x5400 + i) * 256 + (0x2), 0, 16⟩

/-- USE_COUNT (R349). -/
def K.key.USE_COUNT (i : Nat) : Reg := ⟨(0x5400 + i) * 256 + (0x3), 0, 32⟩

/-- USE_LIMIT (R349). -/
def K.key.USE_LIMIT (i : Nat) : Reg := ⟨(0x5400 + i) * 256 + (0x4), (if i = 992 then 65536 else 2147483648), 32⟩

/-- TX_FC (R349). -/
def K.key.TX_FC (i : Nat) : Reg := ⟨(0x5400 + i) * 256 + (0x5), 0, 32⟩

/-- SHADOW_PENDING (R349). -/
def K.key.SHADOW_PENDING (i : Nat) : Reg := ⟨(0x5400 + i) * 256 + (0x6), 0, 1⟩

/-- NEAR_LIMIT_SEEN (R349). -/
def K.key.NEAR_LIMIT_SEEN (i : Nat) : Reg := ⟨(0x5400 + i) * 256 + (0x7), 0, 1⟩

/-- FINGERPRINT (R349). -/
def K.key.FINGERPRINT (i : Nat) : Reg := ⟨(0x5400 + i) * 256 + (0x8), 0, 64⟩

/-- BOUND_EUI (R349). -/
def K.key.BOUND_EUI (i : Nat) : Reg := ⟨(0x5400 + i) * 256 + (0x9), 0, 64⟩

/-- LOAD_FAIL (R349). -/
def K.key.LOAD_FAIL (i : Nat) : Reg := ⟨(0x5400 + i) * 256 + (0xA), 0, 16⟩

/-- ENG_STATE (R350). -/
def K.eng.ENG_STATE (i : Nat) : Reg := ⟨(0x5800 + i) * 256 + (0x1), 0, 8⟩

/-- LOCK (R350). -/
def K.eng.LOCK (i : Nat) : Reg := ⟨(0x5800 + i) * 256 + (0x2), 1044735, 32⟩

/-- MESSAGES (R350). -/
def K.eng.MESSAGES (i : Nat) : Reg := ⟨(0x5800 + i) * 256 + (0x3), 0, 32⟩

/-- SEAMS (R350). -/
def K.eng.SEAMS (i : Nat) : Reg := ⟨(0x5800 + i) * 256 + (0x4), 0, 32⟩

/-- TAG_FAILS (R350). -/
def K.eng.TAG_FAILS (i : Nat) : Reg := ⟨(0x5800 + i) * 256 + (0x5), 0, 32⟩

/-- KEY_ERASED_ENDS (R350). -/
def K.eng.KEY_ERASED_ENDS (i : Nat) : Reg := ⟨(0x5800 + i) * 256 + (0x6), 0, 32⟩

/-- FAULT_COUNT (R350). -/
def K.eng.FAULT_COUNT (i : Nat) : Reg := ⟨(0x5800 + i) * 256 + (0x7), 0, 8⟩

/-- FAULT_CLEAR (R350). -/
def K.eng.FAULT_CLEAR (i : Nat) : Reg := ⟨(0x5800 + i) * 256 + (0x8), 0, 1⟩

/-- LOCK_VIOLATION (R350). -/
def K.eng.LOCK_VIOLATION (i : Nat) : Reg := ⟨(0x5800 + i) * 256 + (0x9), 0, 32⟩

/-- VAULT_STATE (R350). -/
def K.vault.VAULT_STATE : Reg := ⟨(0x2200) * 256 + (0x1), 0, 8⟩

/-- VAULT_FAULTS (R350). -/
def K.vault.VAULT_FAULTS : Reg := ⟨(0x2200) * 256 + (0x2), 0, 8⟩

/-- VAULT_CLEAR (R350). -/
def K.vault.VAULT_CLEAR : Reg := ⟨(0x2200) * 256 + (0x3), 0, 1⟩

/-- ENTROPY_FAILS (R350). -/
def K.vault.ENTROPY_FAILS : Reg := ⟨(0x2200) * 256 + (0x4), 0, 32⟩

/-- KEYS_NEAR_LIMIT (R350). -/
def K.vault.KEYS_NEAR_LIMIT : Reg := ⟨(0x2200) * 256 + (0x5), 0, 16⟩

/-- P0_CIPHER_WAITS (R350). -/
def K.vault.P0_CIPHER_WAITS : Reg := ⟨(0x2200) * 256 + (0x6), 0, 32⟩

/-- BOOT_SLOT (R350). -/
def K.bootp.BOOT_SLOT : Reg := ⟨(0x2201) * 256 + (0x1), 0, 8⟩

/-- SLOT_RESULT (R350). -/
def K.bootp.SLOT_RESULT (j : Nat) : Reg := ⟨(0x2201) * 256 + (0x2 + j), 0, 8⟩

/-- MIN_SECURITY_VERSION (R350). -/
def K.bootp.MIN_SECURITY_VERSION : Reg := ⟨(0x2201) * 256 + (0x4), 0, 8⟩

/-- COMMIT_SECURITY_VERSION (R350). -/
def K.bootp.COMMIT_SECURITY_VERSION : Reg := ⟨(0x2201) * 256 + (0x5), 0, 8⟩

/-- IMAGE_VERIFY (R350). -/
def K.bootp.IMAGE_VERIFY : Reg := ⟨(0x2201) * 256 + (0x7), 0, 1⟩

/-- IMAGE_STATUS (R350). -/
def K.bootp.IMAGE_STATUS : Reg := ⟨(0x2201) * 256 + (0x8), 8, 8⟩

/-- ROOT_REVOKE (R350). -/
def K.bootp.ROOT_REVOKE : Reg := ⟨(0x2201) * 256 + (0x9), 0, 8⟩

/-- LEDGER_ENABLE (R350). -/
def K.ledger.LEDGER_ENABLE : Reg := ⟨(0x2202) * 256 + (0x1), 0, 1⟩

/-- LEDGER_BAD_SECTORS (R350). -/
def K.ledger.LEDGER_BAD_SECTORS : Reg := ⟨(0x2202) * 256 + (0x2), 0, 32⟩

/-- LEDGER_WRITE_FAIL (R350). -/
def K.ledger.LEDGER_WRITE_FAIL : Reg := ⟨(0x2202) * 256 + (0x3), 0, 32⟩

/-- LEDGER_RESTORED (R350). -/
def K.ledger.LEDGER_RESTORED : Reg := ⟨(0x2202) * 256 + (0x4), 0, 32⟩

/-- ADMIT_MODE (R350). -/
def K.adm.ADMIT_MODE : Reg := ⟨(0x2203) * 256 + (0x1), 0, 8⟩

/-- ADMIT_KEK_SLOT (R350). -/
def K.adm.ADMIT_KEK_SLOT : Reg := ⟨(0x2203) * 256 + (0x2), 1022, 16⟩

/-- ADMIT_JK_BITS (R350). -/
def K.adm.ADMIT_JK_BITS : Reg := ⟨(0x2203) * 256 + (0x3), 128, 16⟩

/-- ADMIT_COUNT (R350). -/
def K.adm.ADMIT_COUNT : Reg := ⟨(0x2203) * 256 + (0x5), 0, 32⟩

/-- ADMIT_UNWRAP_FAIL (R350). -/
def K.adm.ADMIT_UNWRAP_FAIL : Reg := ⟨(0x2203) * 256 + (0x6), 0, 32⟩

/-- MODE (R372). -/
def K.cu.MODE (i : Nat) : Reg := ⟨(0x6000 + i) * 256 + (0x1), 1, 8⟩

/-- WIDTH (R372). -/
def K.cu.WIDTH (i : Nat) : Reg := ⟨(0x6000 + i) * 256 + (0x2), 32, 8⟩

/-- POLY (R372). -/
def K.cu.POLY (i : Nat) : Reg := ⟨(0x6000 + i) * 256 + (0x3), 79764919, 64⟩

/-- INIT (R372). -/
def K.cu.INIT (i : Nat) : Reg := ⟨(0x6000 + i) * 256 + (0x4), 4294967295, 64⟩

/-- XOR_OUT (R372). -/
def K.cu.XOR_OUT (i : Nat) : Reg := ⟨(0x6000 + i) * 256 + (0x5), 4294967295, 64⟩

/-- REFLECT_IN (R372). -/
def K.cu.REFLECT_IN (i : Nat) : Reg := ⟨(0x6000 + i) * 256 + (0x6), 1, 1⟩

/-- REFLECT_OUT (R372). -/
def K.cu.REFLECT_OUT (i : Nat) : Reg := ⟨(0x6000 + i) * 256 + (0x7), 1, 1⟩

/-- APPEND_ORDER (R372). -/
def K.cu.APPEND_ORDER (i : Nat) : Reg := ⟨(0x6000 + i) * 256 + (0x8), 0, 8⟩

/-- START (R372). -/
def K.cu.START (i : Nat) : Reg := ⟨(0x6000 + i) * 256 + (0x9), 50266112, 32⟩

/-- LENGTH (R372). -/
def K.cu.LENGTH (i : Nat) : Reg := ⟨(0x6000 + i) * 256 + (0xA), 0, 32⟩

/-- GO (R372). -/
def K.cu.GO (i : Nat) : Reg := ⟨(0x6000 + i) * 256 + (0xB), 0, 1⟩

/-- STATUS (R372). -/
def K.cu.STATUS (i : Nat) : Reg := ⟨(0x6000 + i) * 256 + (0xC), 0, 8⟩

/-- RESULT_LEN (R372). -/
def K.cu.RESULT_LEN (i : Nat) : Reg := ⟨(0x6000 + i) * 256 + (0xD), 0, 32⟩

/-- RESULT_VALUE (R372). -/
def K.cu.RESULT_VALUE (i : Nat) : Reg := ⟨(0x6000 + i) * 256 + (0xE), 0, 64⟩

/-- RUNS (R372). -/
def K.cu.RUNS (i : Nat) : Reg := ⟨(0x6000 + i) * 256 + (0xF), 0, 32⟩

/-- DEPTH (R373). -/
def K.q.DEPTH (i : Nat) : Reg := ⟨(0x6100 + i) * 256 + (0x1), (queueDepth i), 16⟩

/-- COUNT (R373). -/
def K.q.COUNT (i : Nat) : Reg := ⟨(0x6100 + i) * 256 + (0x2), 0, 16⟩

/-- PACKETS (R373). -/
def K.q.PACKETS (i : Nat) : Reg := ⟨(0x6100 + i) * 256 + (0x3), 0, 16⟩

/-- SNAPSHOT (R373). -/
def K.q.SNAPSHOT (i : Nat) : Reg := ⟨(0x6100 + i) * 256 + (0x4), 0, 32⟩

/-- FULL (R373). -/
def K.q.FULL (i : Nat) : Reg := ⟨(0x6100 + i) * 256 + (0x5), 0, 1⟩

/-- OVERRUN (R373). -/
def K.q.OVERRUN (i : Nat) : Reg := ⟨(0x6100 + i) * 256 + (0x6), 0, 1⟩

/-- OVERRUN_COUNT (R373). -/
def K.q.OVERRUN_COUNT (i : Nat) : Reg := ⟨(0x6100 + i) * 256 + (0x7), 0, 32⟩

/-- PACKETS_DROPPED (R373). -/
def K.q.PACKETS_DROPPED (i : Nat) : Reg := ⟨(0x6100 + i) * 256 + (0x8), 0, 32⟩

/-- MEND (R373). -/
def K.q.MEND (i : Nat) : Reg := ⟨(0x6100 + i) * 256 + (0x9), 0, 32⟩

/-- STALLS (R373). -/
def K.q.STALLS (i : Nat) : Reg := ⟨(0x6100 + i) * 256 + (0xA), 0, 32⟩

/-- QM_CORRECTED (R373). -/
def K.qm.QM_CORRECTED : Reg := ⟨(0xA013) * 256 + (0x1), 0, 32⟩

/-- QM_FREE_UNCORRECTED (R373). -/
def K.qm.QM_FREE_UNCORRECTED : Reg := ⟨(0xA013) * 256 + (0x2), 0, 32⟩

/-- QM_LAST_ADDR (R373). -/
def K.qm.QM_LAST_ADDR : Reg := ⟨(0xA013) * 256 + (0x3), 0, 32⟩

/-- SCRATCH_OFFSET (R373). -/
def K.scratch.SCRATCH_OFFSET : Reg := ⟨(0xA020) * 256 + (0x1), 0, 16⟩

/-- SCRATCH_DATA (R373). -/
def K.scratch.SCRATCH_DATA : Blob := ⟨(0xA020) * 256 + (0x2), []⟩

/-- MODE (R399). -/
def K.mc.MODE (i : Nat) : Reg := ⟨(0x4000 + i) * 256 + (0x1), (if i < 8 then 1 else 0), 8⟩

/-- PATH (R399). -/
def K.mc.PATH (i : Nat) : Reg := ⟨(0x4000 + i) * 256 + (0x2), 0, 8⟩

/-- ACQ (R399). -/
def K.mc.ACQ (i : Nat) : Reg := ⟨(0x4000 + i) * 256 + (0x3), 0, 8⟩

/-- INPUT_SEL (R399). -/
def K.mc.INPUT_SEL (i : Nat) : Reg := ⟨(0x4000 + i) * 256 + (0x4), 0, 8⟩

/-- AVG_LOG2 (R399). -/
def K.mc.AVG_LOG2 (i : Nat) : Reg := ⟨(0x4000 + i) * 256 + (0x5), 0, 8⟩

/-- SH240_PERIOD (R399). -/
def K.mc.SH240_PERIOD (i : Nat) : Reg := ⟨(0x4000 + i) * 256 + (0x6), 16, 16⟩

/-- PAIRED (R399). -/
def K.mc.PAIRED (i : Nat) : Reg := ⟨(0x4000 + i) * 256 + (0x7), 0, 1⟩

/-- GROUPED (R399). -/
def K.mc.GROUPED (i : Nat) : Reg := ⟨(0x4000 + i) * 256 + (0x8), 0, 1⟩

/-- TRIG_SOURCE (R399). -/
def K.mc.TRIG_SOURCE (i : Nat) : Reg := ⟨(0x4000 + i) * 256 + (0x9), 0, 8⟩

/-- TRIG_PARAM (R399). -/
def K.mc.TRIG_PARAM (i : Nat) : Reg := ⟨(0x4000 + i) * 256 + (0xA), 0, 32⟩

/-- SCHED_START (R399). -/
def K.mc.SCHED_START (i : Nat) : Reg := ⟨(0x4000 + i) * 256 + (0xB), 0, 64⟩

/-- TRIG_NOW (R399). -/
def K.mc.TRIG_NOW (i : Nat) : Reg := ⟨(0x4000 + i) * 256 + (0xC), 0, 1⟩

/-- TH_LEVEL_0 (R399). -/
def K.mc.TH_LEVEL_0 (i : Nat) : Reg := ⟨(0x4000 + i) * 256 + (0x10), 2147483647, 32⟩

/-- TH_LEVEL_1 (R399). -/
def K.mc.TH_LEVEL_1 (i : Nat) : Reg := ⟨(0x4000 + i) * 256 + (0x14), 2147483647, 32⟩

/-- TH_HYST_0 (R399). -/
def K.mc.TH_HYST_0 (i : Nat) : Reg := ⟨(0x4000 + i) * 256 + (0x11), 0, 32⟩

/-- TH_HYST_1 (R399). -/
def K.mc.TH_HYST_1 (i : Nat) : Reg := ⟨(0x4000 + i) * 256 + (0x15), 0, 32⟩

/-- TH_SOURCE_0 (R399). -/
def K.mc.TH_SOURCE_0 (i : Nat) : Reg := ⟨(0x4000 + i) * 256 + (0x12), 0, 8⟩

/-- TH_SOURCE_1 (R399). -/
def K.mc.TH_SOURCE_1 (i : Nat) : Reg := ⟨(0x4000 + i) * 256 + (0x16), 0, 8⟩

/-- TH_ALARM_0 (R399). -/
def K.mc.TH_ALARM_0 (i : Nat) : Reg := ⟨(0x4000 + i) * 256 + (0x13), 0, 8⟩

/-- TH_ALARM_1 (R399). -/
def K.mc.TH_ALARM_1 (i : Nat) : Reg := ⟨(0x4000 + i) * 256 + (0x17), 0, 8⟩

/-- ALARM_HOLDOFF (R399). -/
def K.mc.ALARM_HOLDOFF (i : Nat) : Reg := ⟨(0x4000 + i) * 256 + (0x18), 1000, 16⟩

/-- USER_STAGE (R399). -/
def K.mc.USER_STAGE (i : Nat) : Reg := ⟨(0x4000 + i) * 256 + (0x20), 0, 8⟩

/-- USER_COEF (R399). -/
def K.mc.USER_COEF (i : Nat) : Blob := ⟨(0x4000 + i) * 256 + (0x21), []⟩

/-- SKEW_COMP (R399). -/
def K.mc.SKEW_COMP (i : Nat) : Reg := ⟨(0x4000 + i) * 256 + (0x22), 1, 1⟩

/-- COMP_COEF (R399). -/
def K.chain.COMP_COEF : Blob := ⟨(0x4080) * 256 + (0x1), []⟩

/-- GROUP_SOURCE (R399). -/
def K.grp.GROUP_SOURCE : Reg := ⟨(0x408F) * 256 + (0x1), 0, 8⟩

/-- GROUP_PARAM (R399). -/
def K.grp.GROUP_PARAM : Reg := ⟨(0x408F) * 256 + (0x2), 0, 32⟩

/-- GROUP_SCHED_START (R399). -/
def K.grp.GROUP_SCHED_START : Reg := ⟨(0x408F) * 256 + (0x3), 0, 64⟩

/-- GROUP_TRIG_NOW (R399). -/
def K.grp.GROUP_TRIG_NOW : Reg := ⟨(0x408F) * 256 + (0x4), 0, 1⟩

/-- GROUP_LOST_COUNT (R399). -/
def K.grp.GROUP_LOST_COUNT : Reg := ⟨(0x408F) * 256 + (0x5), 0, 32⟩

/-- LAST_RESULT (R400). -/
def K.mcr.LAST_RESULT (i : Nat) : Blob := ⟨(0x4040 + i) * 256 + (0x1), List.replicate 16 0⟩

/-- TRIG_TICK (R400). -/
def K.mcr.TRIG_TICK (i : Nat) : Reg := ⟨(0x4040 + i) * 256 + (0x2), 0, 64⟩

/-- PHASOR (R400). -/
def K.mcr.PHASOR (i : Nat) : Blob := ⟨(0x4040 + i) * 256 + (0x3), List.replicate 20 0⟩

/-- WAVE_RING (R400). -/
def K.mcr.WAVE_RING (i : Nat) : Blob := ⟨(0x4040 + i) * 256 + (0x4), []⟩

/-- EVENT_0 (R400). -/
def K.mcr.EVENT_0 (i : Nat) : Blob := ⟨(0x4040 + i) * 256 + (0x5), List.replicate 12 0⟩

/-- EVENT_1 (R400). -/
def K.mcr.EVENT_1 (i : Nat) : Blob := ⟨(0x4040 + i) * 256 + (0x6), List.replicate 12 0⟩

/-- TRIGGER_LOST (R400). -/
def K.mcr.TRIGGER_LOST (i : Nat) : Reg := ⟨(0x4040 + i) * 256 + (0x7), 0, 1⟩

/-- TRIGGER_LOST_COUNT (R400). -/
def K.mcr.TRIGGER_LOST_COUNT (i : Nat) : Reg := ⟨(0x4040 + i) * 256 + (0x8), 0, 32⟩

/-- BW_OVERFLOW (R400). -/
def K.mcr.BW_OVERFLOW (i : Nat) : Reg := ⟨(0x4040 + i) * 256 + (0x9), 0, 1⟩

/-- RESULTS (R400). -/
def K.mcr.RESULTS (i : Nat) : Reg := ⟨(0x4040 + i) * 256 + (0xA), 0, 32⟩

/-- ACC_OVERFLOW (R400). -/
def K.mcr.ACC_OVERFLOW (i : Nat) : Reg := ⟨(0x4040 + i) * 256 + (0xB), 0, 32⟩

/-- ALARMS_SENT (R400). -/
def K.mcr.ALARMS_SENT (i : Nat) : Reg := ⟨(0x4040 + i) * 256 + (0xC), 0, 32⟩

/-- ALARMS_HELD (R400). -/
def K.mcr.ALARMS_HELD (i : Nat) : Reg := ⟨(0x4040 + i) * 256 + (0xD), 0, 32⟩

/-- LANE_MODE (R425). -/
def K.bh.LANE_MODE : Reg := ⟨(0x7100) * 256 + (0x1), 1, 8⟩

/-- LANE_MAP (R425). -/
def K.bh.LANE_MAP : Reg := ⟨(0x7100) * 256 + (0x2), 58596, 16⟩

/-- TX_POLARITY (R425). -/
def K.bh.TX_POLARITY : Reg := ⟨(0x7100) * 256 + (0x3), 0, 8⟩

/-- RX_POLARITY (R425). -/
def K.bh.RX_POLARITY : Reg := ⟨(0x7100) * 256 + (0x4), 0, 8⟩

/-- TX_PRESET (R425). -/
def K.bh.TX_PRESET : Reg := ⟨(0x7100) * 256 + (0x5), 1, 8⟩

/-- MAX_FRAME_BYTES (R425). -/
def K.bh.MAX_FRAME_BYTES : Reg := ⟨(0x7100) * 256 + (0x6), 9216, 16⟩

/-- NB_UDP_PORT (R425). -/
def K.bh.NB_UDP_PORT : Reg := ⟨(0x7100) * 256 + (0x7), 47010, 16⟩

/-- MGMT_UDP_PORT (R425). -/
def K.bh.MGMT_UDP_PORT : Reg := ⟨(0x7100) * 256 + (0x8), 47011, 16⟩

/-- DRV_UDP_PORT (R425). -/
def K.bh.DRV_UDP_PORT : Reg := ⟨(0x7100) * 256 + (0x9), 47012, 16⟩

/-- DOMAIN_GROUP (R425). -/
def K.bh.DOMAIN_GROUP : Blob := ⟨(0x7100) * 256 + (0xA), beBytes 16 0xFF150000000000000000000000004472⟩

/-- DOMAIN_PORT_SEL (R425). -/
def K.bh.DOMAIN_PORT_SEL : Reg := ⟨(0x7100) * 256 + (0xB), 0, 8⟩

/-- MAC_ADDR (R425). -/
def K.port.MAC_ADDR (i : Nat) : Reg := ⟨(0x7101 + i) * 256 + (0x1), 0, 48⟩

/-- IP_VERSION (R425). -/
def K.port.IP_VERSION (i : Nat) : Reg := ⟨(0x7101 + i) * 256 + (0x2), 6, 8⟩

/-- IP_ADDR (R425). -/
def K.port.IP_ADDR (i : Nat) : Blob := ⟨(0x7101 + i) * 256 + (0x3), List.replicate 16 0⟩

/-- PREFIX_LEN (R425). -/
def K.port.PREFIX_LEN (i : Nat) : Reg := ⟨(0x7101 + i) * 256 + (0x4), 64, 8⟩

/-- GATEWAY (R425). -/
def K.port.GATEWAY (i : Nat) : Blob := ⟨(0x7101 + i) * 256 + (0x5), List.replicate 16 0⟩

/-- VLAN_ID (R425). -/
def K.port.VLAN_ID (i : Nat) : Reg := ⟨(0x7101 + i) * 256 + (0x6), 0, 16⟩

/-- HOP_LIMIT (R425). -/
def K.port.HOP_LIMIT (i : Nat) : Reg := ⟨(0x7101 + i) * 256 + (0x7), 64, 8⟩

/-- SESS_ENABLE (R425). -/
def K.sess.SESS_ENABLE (i : Nat) : Reg := ⟨(0x7110 + i) * 256 + (0x1), 0, 1⟩

/-- SESS_PORT (R425). -/
def K.sess.SESS_PORT (i : Nat) : Reg := ⟨(0x7110 + i) * 256 + (0x2), 0, 8⟩

/-- KEY_SLOT (R425). -/
def K.sess.KEY_SLOT (i : Nat) : Reg := ⟨(0x7110 + i) * 256 + (0x3), (993 + i), 16⟩

/-- SESSION_ID (R425). -/
def K.sess.SESSION_ID (i : Nat) : Reg := ⟨(0x7110 + i) * 256 + (0x4), (0 + i), 16⟩

/-- PEER_ADDR (R425). -/
def K.sess.PEER_ADDR (i : Nat) : Blob := ⟨(0x7110 + i) * 256 + (0x5), List.replicate 16 0⟩

/-- PEER_UDP_PORT (R425). -/
def K.sess.PEER_UDP_PORT (i : Nat) : Reg := ⟨(0x7110 + i) * 256 + (0x6), 47010, 16⟩

/-- REPORTS (R425). -/
def K.sess.REPORTS (i : Nat) : Reg := ⟨(0x7110 + i) * 256 + (0x7), 1, 1⟩

/-- TIME_SOURCE (R425). -/
def K.time.TIME_SOURCE : Reg := ⟨(0x7130) * 256 + (0x1), 0, 8⟩

/-- PTP_DOMAIN_NUMBER (R425). -/
def K.time.PTP_DOMAIN_NUMBER : Reg := ⟨(0x7130) * 256 + (0x2), 0, 8⟩

/-- PTP_TRANSPORT (R425). -/
def K.time.PTP_TRANSPORT : Reg := ⟨(0x7130) * 256 + (0x3), 2, 8⟩

/-- PTP_DELAY_MECH (R425). -/
def K.time.PTP_DELAY_MECH : Reg := ⟨(0x7130) * 256 + (0x4), 0, 8⟩

/-- PTP_SLAVE_ONLY (R425). -/
def K.time.PTP_SLAVE_ONLY : Reg := ⟨(0x7130) * 256 + (0x5), 1, 1⟩

/-- PTP_TWO_STEP (R425). -/
def K.time.PTP_TWO_STEP : Reg := ⟨(0x7130) * 256 + (0x6), 0, 1⟩

/-- PTP_PRIORITY (R425). -/
def K.time.PTP_PRIORITY : Reg := ⟨(0x7130) * 256 + (0x7), 33023, 16⟩

/-- PTP_PORT_SEL (R425). -/
def K.time.PTP_PORT_SEL : Reg := ⟨(0x7130) * 256 + (0x8), 0, 8⟩

/-- ASYMMETRY (R425). -/
def K.time.ASYMMETRY : Reg := ⟨(0x7130) * 256 + (0x9), 0, 32⟩

/-- EXT_DELAY_TX (R425). -/
def K.time.EXT_DELAY_TX : Reg := ⟨(0x7130) * 256 + (0xA), 0, 32⟩

/-- EXT_DELAY_RX (R425). -/
def K.time.EXT_DELAY_RX : Reg := ⟨(0x7130) * 256 + (0xB), 0, 32⟩

/-- STEP_LIMIT (R425). -/
def K.time.STEP_LIMIT : Reg := ⟨(0x7130) * 256 + (0xC), 1000, 32⟩

/-- COAST_LIMIT (R425). -/
def K.time.COAST_LIMIT : Reg := ⟨(0x7130) * 256 + (0xD), 300, 32⟩

/-- PPS_IN_DELAY (R425). -/
def K.time.PPS_IN_DELAY : Reg := ⟨(0x7130) * 256 + (0xE), 0, 16⟩

/-- PPS_OUT_MODE (R425). -/
def K.time.PPS_OUT_MODE : Reg := ⟨(0x7130) * 256 + (0xF), 1, 8⟩

/-- TIME_SET (R425). -/
def K.time.TIME_SET : Reg := ⟨(0x7130) * 256 + (0x10), 0, 64⟩

/-- DT_STATE (R426). -/
def K.times.DT_STATE : Reg := ⟨(0x7131) * 256 + (0x1), 0, 8⟩

/-- SYNCHRONISED (R426). -/
def K.times.SYNCHRONISED : Reg := ⟨(0x7131) * 256 + (0x2), 0, 1⟩

/-- TIME_PAIR (R426). -/
def K.times.TIME_PAIR : Blob := ⟨(0x7131) * 256 + (0x3), List.replicate 16 0⟩

/-- OFFSET (R426). -/
def K.times.OFFSET : Reg := ⟨(0x7131) * 256 + (0x4), 0, 32⟩

/-- RATE_CORR (R426). -/
def K.times.RATE_CORR : Reg := ⟨(0x7131) * 256 + (0x5), 0, 32⟩

/-- TIME_STEPS (R426). -/
def K.times.TIME_STEPS : Reg := ⟨(0x7131) * 256 + (0x6), 0, 32⟩

/-- LAST_STEP (R426). -/
def K.times.LAST_STEP : Reg := ⟨(0x7131) * 256 + (0x7), 0, 64⟩

/-- PPS_VALID (R426). -/
def K.times.PPS_VALID : Reg := ⟨(0x7131) * 256 + (0x8), 0, 1⟩

/-- PPS_MISSED (R426). -/
def K.times.PPS_MISSED : Reg := ⟨(0x7131) * 256 + (0x9), 0, 32⟩

/-- MASTER_ID (R426). -/
def K.times.MASTER_ID : Reg := ⟨(0x7131) * 256 + (0xA), 0, 64⟩

/-- UNSYNC_SECONDS (R426). -/
def K.times.UNSYNC_SECONDS : Reg := ⟨(0x7131) * 256 + (0xB), 0, 32⟩

/-- REPORTS_UNSENT (R426). -/
def K.times.REPORTS_UNSENT : Reg := ⟨(0x7131) * 256 + (0xC), 0, 32⟩

/-- LINK_UP (R426). -/
def K.ports.LINK_UP (i : Nat) : Reg := ⟨(0x7140 + i) * 256 + (0x1), 0, 1⟩

/-- LINK_DOWNS (R426). -/
def K.ports.LINK_DOWNS (i : Nat) : Reg := ⟨(0x7140 + i) * 256 + (0x2), 0, 32⟩

/-- RX_FRAMES (R426). -/
def K.ports.RX_FRAMES (i : Nat) : Reg := ⟨(0x7140 + i) * 256 + (0x3), 0, 64⟩

/-- TX_FRAMES (R426). -/
def K.ports.TX_FRAMES (i : Nat) : Reg := ⟨(0x7140 + i) * 256 + (0x4), 0, 64⟩

/-- RX_DROP (R426). -/
def K.ports.RX_DROP (i : Nat) : Reg := ⟨(0x7140 + i) * 256 + (0x5), 0, 32⟩

/-- RX_FCS_ERR (R426). -/
def K.ports.RX_FCS_ERR (i : Nat) : Reg := ⟨(0x7140 + i) * 256 + (0x6), 0, 32⟩

/-- RX_OVERSIZE (R426). -/
def K.ports.RX_OVERSIZE (i : Nat) : Reg := ⟨(0x7140 + i) * 256 + (0x7), 0, 32⟩

/-- RX_FILTERED (R426). -/
def K.ports.RX_FILTERED (i : Nat) : Reg := ⟨(0x7140 + i) * 256 + (0x8), 0, 32⟩

/-- FEC_CORRECTED (R426). -/
def K.ports.FEC_CORRECTED (i : Nat) : Reg := ⟨(0x7140 + i) * 256 + (0x9), 0, 64⟩

/-- FEC_UNCORRECTED (R426). -/
def K.ports.FEC_UNCORRECTED (i : Nat) : Reg := ⟨(0x7140 + i) * 256 + (0xA), 0, 32⟩

/-- TX_LINK_DOWN (R426). -/
def K.ports.TX_LINK_DOWN (i : Nat) : Reg := ⟨(0x7140 + i) * 256 + (0xB), 0, 32⟩

/-- RX_MSGS (R426). -/
def K.sesss.RX_MSGS (i : Nat) : Reg := ⟨(0x7150 + i) * 256 + (0x1), 0, 32⟩

/-- TX_MSGS (R426). -/
def K.sesss.TX_MSGS (i : Nat) : Reg := ⟨(0x7150 + i) * 256 + (0x2), 0, 32⟩

/-- PEER_MISMATCH (R426). -/
def K.sesss.PEER_MISMATCH (i : Nat) : Reg := ⟨(0x7150 + i) * 256 + (0x3), 0, 32⟩

/-- AUTH_FAIL (R426). -/
def K.sesss.AUTH_FAIL (i : Nat) : Reg := ⟨(0x7150 + i) * 256 + (0x4), 0, 32⟩

/-- REPLAY (R426). -/
def K.sesss.REPLAY (i : Nat) : Reg := ⟨(0x7150 + i) * 256 + (0x5), 0, 32⟩

/-- NO_KEY (R426). -/
def K.sesss.NO_KEY (i : Nat) : Reg := ⟨(0x7150 + i) * 256 + (0x6), 0, 32⟩

/-- DEVICE_TYPE (R453). -/
def K.id.DEVICE_TYPE : Reg := ⟨(0x1000) * 256 + (0x0), 0, 32⟩

/-- ERROR_REGISTER (R453). -/
def K.id.ERROR_REGISTER : Reg := ⟨(0x1001) * 256 + (0x0), 0, 8⟩

/-- DEVICE_NAME (R453). -/
def K.id.DEVICE_NAME : Blob := ⟨(0x1008) * 256 + (0x0), [0x53, 0x48, 0x2D, 0x32, 0x35, 0x36, 0x30]⟩

/-- HW_VERSION (R453). -/
def K.id.HW_VERSION : Blob := ⟨(0x1009) * 256 + (0x0), [0x41, 0x31]⟩

/-- SW_VERSION (R453). -/
def K.id.SW_VERSION : Blob := ⟨(0x100A) * 256 + (0x0), []⟩

/-- VENDOR_ID (R453). -/
def K.id.VENDOR_ID : Reg := ⟨(0x1018) * 256 + (0x1), 2898, 32⟩

/-- PRODUCT_CODE (R453). -/
def K.id.PRODUCT_CODE : Reg := ⟨(0x1018) * 256 + (0x2), 9568, 32⟩

/-- REVISION (R453). -/
def K.id.REVISION : Reg := ⟨(0x1018) * 256 + (0x3), 10551296, 32⟩

/-- SERIAL (R453). -/
def K.id.SERIAL : Reg := ⟨(0x1018) * 256 + (0x4), 0, 32⟩

/-- EDS (R453). -/
def K.id.EDS : Blob := ⟨(0x1021) * 256 + (0x0), []⟩

/-- EDS_FORMAT (R453). -/
def K.id.EDS_FORMAT : Reg := ⟨(0x1022) * 256 + (0x0), 0, 8⟩

/-- EUI64 (R453). -/
def K.id.EUI64 : Reg := ⟨(0x1100) * 256 + (0x1), 0, 64⟩

/-- FW_VERSION (R453). -/
def K.id.FW_VERSION : Reg := ⟨(0x1100) * 256 + (0x2), 0, 32⟩

/-- SECURITY_VERSION (R453). -/
def K.id.SECURITY_VERSION : Reg := ⟨(0x1100) * 256 + (0x3), 0, 16⟩

/-- STORE_ALL (R453). -/
def K.store.STORE_ALL : Reg := ⟨(0x1010) * 256 + (0x1), 1, 32⟩

/-- RESTORE_ALL (R453). -/
def K.store.RESTORE_ALL : Reg := ⟨(0x1011) * 256 + (0x1), 1, 32⟩

/-- CAN_LEVEL (R453). -/
def K.can.CAN_LEVEL : Reg := ⟨(0x1D00) * 256 + (0x1), 2, 8⟩

/-- SPI_LEVEL (R453). -/
def K.can.SPI_LEVEL : Reg := ⟨(0x1D00) * 256 + (0x2), 3, 8⟩

/-- CAN_NOMINAL (R453). -/
def K.can.CAN_NOMINAL : Reg := ⟨(0x1D00) * 256 + (0x3), 2, 8⟩

/-- CAN_DATA (R453). -/
def K.can.CAN_DATA : Reg := ⟨(0x1D00) * 256 + (0x4), 1, 8⟩

/-- CAN_NODE_ID (R453). -/
def K.cans.CAN_NODE_ID : Reg := ⟨(0x1D01) * 256 + (0x1), 0, 8⟩

/-- CAN_BUS_OFF (R453). -/
def K.cans.CAN_BUS_OFF : Reg := ⟨(0x1D01) * 256 + (0x2), 0, 32⟩

/-- CAN_ERR_COUNTS (R453). -/
def K.cans.CAN_ERR_COUNTS : Reg := ⟨(0x1D01) * 256 + (0x3), 0, 16⟩

/-- MGMT_ENABLE (R453). -/
def K.mgmt.MGMT_ENABLE (i : Nat) : Reg := ⟨(0x1E00 + i) * 256 + (0x1), 0, 1⟩

/-- MGMT_KEY_SLOT (R453). -/
def K.mgmt.MGMT_KEY_SLOT (i : Nat) : Reg := ⟨(0x1E00 + i) * 256 + (0x2), (1015 + i), 16⟩

/-- MGMT_LEVEL (R453). -/
def K.mgmt.MGMT_LEVEL (i : Nat) : Reg := ⟨(0x1E00 + i) * 256 + (0x3), 0, 8⟩

/-- MGMT_RX_OK (R453). -/
def K.mgmts.MGMT_RX_OK (i : Nat) : Reg := ⟨(0x1E10 + i) * 256 + (0x1), 0, 32⟩

/-- MGMT_AUTH_FAIL (R453). -/
def K.mgmts.MGMT_AUTH_FAIL (i : Nat) : Reg := ⟨(0x1E10 + i) * 256 + (0x2), 0, 32⟩

/-- MGMT_REPLAY (R453). -/
def K.mgmts.MGMT_REPLAY (i : Nat) : Reg := ⟨(0x1E10 + i) * 256 + (0x3), 0, 32⟩

/-- MGMT_RESENT (R453). -/
def K.mgmts.MGMT_RESENT (i : Nat) : Reg := ⟨(0x1E10 + i) * 256 + (0x4), 0, 32⟩

/-- MGMT_NO_KEY (R453). -/
def K.mgmts.MGMT_NO_KEY (i : Nat) : Reg := ⟨(0x1E10 + i) * 256 + (0x5), 0, 32⟩

/-- MGMT_DROP (R453). -/
def K.mgmtd.MGMT_DROP : Reg := ⟨(0x1E20) * 256 + (0x1), 0, 32⟩

/-- CAUSE (R453). -/
def K.cause.CAUSE : Reg := ⟨(0x2000) * 256 + (0x1), 0, 8⟩

/-- CORE (R453). -/
def K.cause.CORE : Reg := ⟨(0x2000) * 256 + (0x2), 0, 8⟩

/-- MEMORY (R453). -/
def K.cause.MEMORY : Reg := ⟨(0x2000) * 256 + (0x3), 0, 8⟩

/-- DETAIL (R453). -/
def K.cause.DETAIL : Reg := ⟨(0x2000) * 256 + (0x4), 0, 32⟩

/-- INTERNAL_RESETS (R453). -/
def K.cause.INTERNAL_RESETS : Reg := ⟨(0x2000) * 256 + (0x5), 0, 32⟩

/-- RESET (R453). -/
def K.rst.RESET : Reg := ⟨(0x2001) * 256 + (0x1), 0, 32⟩

/-- STORE_STATE (R453). -/
def K.stores.STORE_STATE : Reg := ⟨(0x2002) * 256 + (0x1), 0, 8⟩

/-- STORE_SEQ (R453). -/
def K.stores.STORE_SEQ : Reg := ⟨(0x2002) * 256 + (0x2), 0, 32⟩

/-- STORE_SKIPPED (R453). -/
def K.stores.STORE_SKIPPED : Reg := ⟨(0x2002) * 256 + (0x3), 0, 32⟩

/-- STORE_FAIL (R453). -/
def K.stores.STORE_FAIL : Reg := ⟨(0x2002) * 256 + (0x4), 0, 32⟩

/-- STORE_OMITTED (R453). -/
def K.stores.STORE_OMITTED : Reg := ⟨(0x2002) * 256 + (0x5), 0, 32⟩

/-- T0_TICK (R453). -/
def K.tick.T0_TICK : Reg := ⟨(0x2010) * 256 + (0x1), 0, 64⟩

/-- USER_READ (R477). -/
def K.perf.USER_READ : Reg := ⟨(0x9000) * 256 + (0x1), 0, 1⟩

/-- DUMP_ENABLE (R477). -/
def K.perf.DUMP_ENABLE : Reg := ⟨(0x9000) * 256 + (0x2), 0, 1⟩

/-- DUMP_PERIOD (R477). -/
def K.perf.DUMP_PERIOD : Reg := ⟨(0x9000) * 256 + (0x3), 10000, 32⟩

/-- DUMP_SEQ (R477). -/
def K.perf.DUMP_SEQ : Reg := ⟨(0x9000) * 256 + (0x4), 0, 32⟩

/-- DUMP_SKIPPED (R477). -/
def K.perf.DUMP_SKIPPED : Reg := ⟨(0x9000) * 256 + (0x5), 0, 32⟩

/-- DUMP_LATEST (R477). -/
def K.perf.DUMP_LATEST : Blob := ⟨(0x9000) * 256 + (0x6), List.replicate 784 0⟩

/-- DUMP_RING (R477). -/
def K.perf.DUMP_RING : Blob := ⟨(0x9000) * 256 + (0x7), []⟩

/-- SAMPLE_ENABLE (R477). -/
def K.samp.SAMPLE_ENABLE : Reg := ⟨(0x9001) * 256 + (0x1), 0, 1⟩

/-- SAMPLE_SOURCE (R477). -/
def K.samp.SAMPLE_SOURCE : Reg := ⟨(0x9001) * 256 + (0x2), 11, 8⟩

/-- SAMPLE_N (R477). -/
def K.samp.SAMPLE_N : Reg := ⟨(0x9001) * 256 + (0x3), 1024, 16⟩

/-- SAMPLE_COUNT (R477). -/
def K.samp.SAMPLE_COUNT : Reg := ⟨(0x9001) * 256 + (0x4), 0, 32⟩

/-- SAMPLE_OVERFLOW (R477). -/
def K.samp.SAMPLE_OVERFLOW : Reg := ⟨(0x9001) * 256 + (0x5), 0, 1⟩

/-- SAMPLE_RING (R477). -/
def K.samp.SAMPLE_RING : Blob := ⟨(0x9001) * 256 + (0x6), []⟩

/-- SEL (R477). -/
def K.bank.SEL (i : Nat) (j : Nat) : Reg := ⟨(0x9010 + i) * 256 + (0x1 + j), 3840, 16⟩

/-- BANK_CLEAR (R477). -/
def K.bank.BANK_CLEAR (i : Nat) : Reg := ⟨(0x9010 + i) * 256 + (0x9), 0, 1⟩

/-- LIVE_TICKS (R477). -/
def K.live.LIVE_TICKS (i : Nat) : Blob := ⟨(0x9020 + i) * 256 + (0x1), List.replicate 16 0⟩

/-- LIVE (R477). -/
def K.live.LIVE (i : Nat) (j : Nat) : Blob := ⟨(0x9020 + i) * 256 + (0x2 + j), List.replicate 16 0⟩

/-- BOOT_TIME (R493). -/
def K.boot.BOOT_TIME : Reg := ⟨(0x2003) * 256 + (0x1), 0, 32⟩

/-- BOOT_CANDIDATES (R493). -/
def K.boot.BOOT_CANDIDATES : Reg := ⟨(0x2003) * 256 + (0x2), 0, 8⟩

/-- BOOT_ID (R493). -/
def K.boot.BOOT_ID : Reg := ⟨(0x2003) * 256 + (0x3), 0, 8⟩

/-- LEDGER_SECTORS (R493). -/
def K.boot.LEDGER_SECTORS : Reg := ⟨(0x2003) * 256 + (0x4), 0, 16⟩

/-- LOOP_TEST (R514). -/
def K.loop.LOOP_TEST : Reg := ⟨(0xA030) * 256 + (0x1), 0, 8⟩

/-- LOOP_RESULT (R514). -/
def K.loop.LOOP_RESULT : Reg := ⟨(0xA030) * 256 + (0x2), 32768, 16⟩

/-- LOOP_CHANNEL (R514). -/
def K.loop.LOOP_CHANNEL : Reg := ⟨(0xA030) * 256 + (0x3), 0, 8⟩

/-- Rows of the dictionary, part 1. -/
def objRows1 : List ObjRow := [
  ⟨0xA010, 1, 0x1, 1, .unsigned 4, .ro, 0, false, .val 0, 0, 4294967295, 0xFFFFFFFF⟩,
  ⟨0xA010, 1, 0x2, 1, .unsigned 4, .ro, 0, false, .val 0, 0, 4294967295, 0xFFFFFFFF⟩,
  ⟨0xA010, 1, 0x3, 1, .unsigned 4, .ro, 2, false, .val 0, 0, 4294967295, 0xFFFFFFFF⟩,
  ⟨0xA010, 1, 0x4, 1, .unsigned 2, .ro, 0, false, .val 0, 0, 65535, 0xFFFF⟩,
  ⟨0xA010, 1, 0x5, 1, .unsigned 4, .ro, 0, false, .val 0, 0, 4294967295, 0xFFFFFFFF⟩,
  ⟨0xA010, 1, 0x6, 1, .unsigned 2, .ro, 0, false, .val 0, 0, 65535, 0xFFFF⟩,
  ⟨0xA011, 1, 0x1, 8, .unsigned 4, .ro, 0, false, .val 0, 0, 4294967295, 0xFFFFFFFF⟩,
  ⟨0xA012, 1, 0x0, 1, .unsigned 4, .ro, 0, false, .val 0, 0, 4294967295, 0xFFFFFFFF⟩,
  ⟨0x3000, 256, 0x1, 1, .boolean, .rw, 2, false, .val 1, 0, 1, 0x1⟩,
  ⟨0x3000, 256, 0x2, 1, .boolean, .rw, 2, false, .val 1, 0, 1, 0x1⟩,
  ⟨0x3000, 256, 0x3, 1, .unsigned 1, .rw, 2, false, .val 0, 0, 1, 0xFF⟩,
  ⟨0x3000, 256, 0x4, 1, .integer 1, .rw, 2, false, .val 60, -12, 84, 0xFF⟩,
  ⟨0x3000, 256, 0x5, 1, .integer 1, .rw, 2, false, .val 244, -18, -6, 0xFF⟩,
  ⟨0x3000, 256, 0x6, 1, .integer 1, .rw, 2, false, .val 84, -12, 84, 0xFF⟩,
  ⟨0x3000, 256, 0x7, 1, .integer 1, .rw, 2, false, .val 0, -12, 84, 0xFF⟩,
  ⟨0x3000, 256, 0x8, 1, .integer 2, .rw, 2, false, .val 0, -24000, 24000, 0xFFFF⟩,
  ⟨0x3000, 256, 0x9, 1, .unsigned 2, .rw, 2, false, .val 0, 0, 65535, 0x3FFF⟩,
  ⟨0x3000, 256, 0xA, 1, .unsigned 1, .rw, 2, false, .val 200, 80, 200, 0xFF⟩,
  ⟨0x3000, 256, 0xB, 8, .unsigned 4, .rw, 2, false, .val 0, 0, 4294967295, 0x87FF07FF⟩,
  ⟨0x3000, 256, 0x13, 1, .boolean, .rw, 2, false, .val 1, 0, 1, 0x1⟩,
  ⟨0x3000, 256, 0x14, 1, .integer 1, .rw, 2, false, .val 240, -26, -16, 0xFF⟩,
  ⟨0x3000, 256, 0x15, 1, .unsigned 1, .rw, 2, false, .val 4, 4, 64, 0xFF⟩,
  ⟨0x3000, 256, 0x16, 1, .unsigned 1, .rw, 2, false, .val 8, 4, 64, 0xFF⟩,
  ⟨0x3000, 256, 0x17, 1, .unsigned 1, .rw, 2, false, .val 64, 32, 192, 0xFF⟩,
  ⟨0x3100, 256, 0x1, 1, .unsigned 1, .ro, 0, false, .val 0, 0, 255, 0xFF⟩,
  ⟨0x3100, 256, 0x2, 1, .integer 1, .ro, 0, false, .val 84, -128, 127, 0xFF⟩,
  ⟨0x3100, 256, 0x3, 1, .integer 2, .ro, 0, false, .val 0, -32768, 32767, 0xFFFF⟩,
  ⟨0x3100, 256, 0x4, 1, .unsigned 1, .ro, 0, false, .val 0, 0, 255, 0xFF⟩,
  ⟨0x3100, 256, 0x5, 1, .boolean, .ro, 0, false, .val 0, 0, 1, 0x1⟩,
  ⟨0x3100, 256, 0x6, 1, .unsigned 4, .ro, 0, false, .val 0, 0, 4294967295, 0xFFFFFFFF⟩,
  ⟨0x3100, 256, 0x7, 1, .boolean, .ro, 0, false, .val 0, 0, 1, 0x1⟩,
  ⟨0x3100, 256, 0x8, 1, .unsigned 4, .ro, 0, false, .val 0, 0, 4294967295, 0xFFFFFFFF⟩,
  ⟨0x3100, 256, 0x9, 1, .unsigned 4, .ro, 0, false, .val 0, 0, 4294967295, 0xFFFFFFFF⟩,
  ⟨0x3100, 256, 0xA, 1, .unsigned 4, .ro, 0, false, .val 0, 0, 4294967295, 0xFFFFFFFF⟩,
  ⟨0x3100, 256, 0xB, 1, .unsigned 4, .ro, 0, false, .val 0, 0, 4294967295, 0xFFFFFFFF⟩,
  ⟨0x3100, 256, 0xC, 1, .unsigned 2, .ro, 0, false, .val 0, 0, 65535, 0xFFFF⟩,
  ⟨0x3100, 256, 0xD, 1, .boolean, .ro, 0, false, .val 0, 0, 1, 0x1⟩,
  ⟨0x3100, 256, 0xE, 1, .unsigned 2, .ro, 0, false, .val 0, 0, 65535, 0xFFFF⟩,
  ⟨0x3100, 256, 0xF, 1, .unsigned 4, .ro, 0, false, .val 0, 0, 4294967295, 0xFFFFFFFF⟩,
  ⟨0x3100, 256, 0x10, 1, .unsigned 4, .ro, 0, false, .val 0, 0, 4294967295, 0xFFFFFFFF⟩]

/-- Rows of the dictionary, part 2. -/
def objRows2 : List ObjRow := [
  ⟨0x3100, 256, 0x11, 1, .unsigned 4, .ro, 0, false, .val 0, 0, 4294967295, 0xFFFFFFFF⟩,
  ⟨0x3100, 256, 0x12, 1, .unsigned 4, .ro, 0, false, .val 0, 0, 4294967295, 0xFFFFFFFF⟩,
  ⟨0x3100, 256, 0x13, 1, .unsigned 4, .ro, 0, false, .val 0, 0, 4294967295, 0xFFFFFFFF⟩,
  ⟨0x3100, 256, 0x14, 1, .unsigned 4, .ro, 0, false, .val 0, 0, 4294967295, 0xFFFFFFFF⟩,
  ⟨0x3100, 256, 0x15, 1, .unsigned 4, .ro, 0, false, .val 0, 0, 4294967295, 0xFFFFFFFF⟩,
  ⟨0x3100, 256, 0x16, 1, .unsigned 4, .ro, 0, false, .val 0, 0, 4294967295, 0xFFFFFFFF⟩,
  ⟨0x3100, 256, 0x17, 1, .unsigned 4, .ro, 0, false, .val 0, 0, 4294967295, 0xFFFFFFFF⟩,
  ⟨0x3100, 256, 0x18, 1, .unsigned 4, .ro, 0, false, .val 0, 0, 4294967295, 0xFFFFFFFF⟩,
  ⟨0x3100, 256, 0x19, 1, .unsigned 4, .ro, 0, false, .val 0, 0, 4294967295, 0xFFFFFFFF⟩,
  ⟨0x3100, 256, 0x1A, 1, .unsigned 4, .ro, 0, false, .val 0, 0, 4294967295, 0xFFFFFFFF⟩,
  ⟨0x3100, 256, 0x1B, 1, .unsigned 4, .ro, 0, false, .val 0, 0, 4294967295, 0xFFFFFFFF⟩,
  ⟨0x3100, 256, 0x1C, 1, .unsigned 4, .ro, 0, false, .val 0, 0, 4294967295, 0xFFFFFFFF⟩,
  ⟨0x3100, 256, 0x1D, 1, .unsigned 4, .ro, 0, false, .val 0, 0, 4294967295, 0xFFFFFFFF⟩,
  ⟨0x3100, 256, 0x1E, 1, .unsigned 4, .ro, 0, false, .val 0, 0, 4294967295, 0xFFFFFFFF⟩,
  ⟨0x3100, 256, 0x1F, 1, .unsigned 4, .ro, 0, false, .val 0, 0, 4294967295, 0xFFFFFFFF⟩,
  ⟨0x3100, 256, 0x20, 1, .unsigned 4, .ro, 0, false, .val 0, 0, 4294967295, 0xFFFFFFFF⟩,
  ⟨0x3100, 256, 0x21, 1, .unsigned 4, .ro, 0, false, .val 0, 0, 4294967295, 0xFFFFFFFF⟩,
  ⟨0x3100, 256, 0x22, 1, .unsigned 4, .ro, 0, false, .val 0, 0, 4294967295, 0xFFFFFFFF⟩,
  ⟨0x3100, 256, 0x23, 1, .unsigned 4, .ro, 0, false, .val 0, 0, 4294967295, 0xFFFFFFFF⟩,
  ⟨0x3100, 256, 0x24, 1, .unsigned 4, .ro, 0, false, .val 0, 0, 4294967295, 0xFFFFFFFF⟩,
  ⟨0x3100, 256, 0x25, 1, .unsigned 4, .ro, 0, false, .val 0, 0, 4294967295, 0xFFFFFFFF⟩,
  ⟨0x3100, 256, 0x26, 1, .unsigned 4, .ro, 0, false, .val 0, 0, 4294967295, 0xFFFFFFFF⟩,
  ⟨0x3100, 256, 0x27, 1, .unsigned 4, .ro, 0, false, .val 0, 0, 4294967295, 0xFFFFFFFF⟩,
  ⟨0x3100, 256, 0x28, 1, .unsigned 4, .ro, 0, false, .val 0, 0, 4294967295, 0xFFFFFFFF⟩,
  ⟨0x3100, 256, 0x29, 1, .unsigned 4, .ro, 0, false, .val 0, 0, 4294967295, 0xFFFFFFFF⟩,
  ⟨0x3100, 256, 0x2A, 1, .unsigned 4, .ro, 0, false, .val 0, 0, 4294967295, 0xFFFFFFFF⟩,
  ⟨0x3100, 256, 0x2B, 1, .unsigned 4, .ro, 0, false, .val 0, 0, 4294967295, 0xFFFFFFFF⟩,
  ⟨0x3100, 256, 0x2C, 1, .unsigned 4, .ro, 0, false, .val 0, 0, 4294967295, 0xFFFFFFFF⟩,
  ⟨0x3100, 256, 0x2D, 1, .unsigned 4, .ro, 0, false, .val 0, 0, 4294967295, 0xFFFFFFFF⟩,
  ⟨0x3100, 256, 0x2E, 1, .unsigned 4, .ro, 0, false, .val 0, 0, 4294967295, 0xFFFFFFFF⟩,
  ⟨0x3100, 256, 0x2F, 1, .unsigned 4, .ro, 0, false, .val 0, 0, 4294967295, 0xFFFFFFFF⟩,
  ⟨0x3100, 256, 0x30, 1, .unsigned 4, .ro, 0, false, .val 0, 0, 4294967295, 0xFFFFFFFF⟩,
  ⟨0x3400, 64, 0x20, 1, .unsigned 1, .rw, 2, false, .val 6, 3, 15, 0xFF⟩,
  ⟨0x3400, 64, 0x21, 1, .boolean, .rw, 2, false, .val 1, 0, 1, 0x1⟩,
  ⟨0x3400, 64, 0x22, 1, .integer 2, .rw, 2, false, .val 0, -1800, 1799, 0xFFFF⟩,
  ⟨0x3400, 64, 0x23, 1, .unsigned 1, .rw, 2, false, .val 4, 1, 40, 0xFF⟩,
  ⟨0x3400, 64, 0x24, 1, .unsigned 1, .rw, 2, false, .val 10, 1, 40, 0xFF⟩,
  ⟨0x3400, 64, 0x25, 1, .unsigned 1, .rw, 2, false, .val 20, 1, 40, 0xFF⟩,
  ⟨0x3400, 64, 0x26, 1, .unsigned 2, .rw, 2, false, .val 10, 1, 4095, 0xFFFF⟩,
  ⟨0x3400, 64, 0x27, 1, .unsigned 2, .rw, 2, false, .val 50, 1, 4095, 0xFFFF⟩]

/-- Rows of the dictionary, part 3. -/
def objRows3 : List ObjRow := [
  ⟨0x3400, 64, 0x28, 1, .unsigned 2, .rw, 2, false, .val 200, 1, 4095, 0xFFFF⟩,
  ⟨0x3400, 64, 0x29, 1, .unsigned 1, .rw, 2, false, .val 20, 10, 40, 0xFF⟩,
  ⟨0x3400, 64, 0x2A, 1, .unsigned 2, .rw, 2, false, .val 256, 16, 4096, 0xFFFF⟩,
  ⟨0x3400, 64, 0x2B, 1, .unsigned 1, .rw, 2, false, .val 2, 0, 20, 0xFF⟩,
  ⟨0x3400, 64, 0x2C, 1, .unsigned 1, .rw, 2, false, .val 3, 0, 3, 0xFF⟩,
  ⟨0x3400, 64, 0x2D, 1, .unsigned 1, .rw, 2, false, .val 16, 1, 32, 0xFF⟩,
  ⟨0x3400, 64, 0x2E, 1, .unsigned 1, .rw, 2, false, .val 16, 1, 255, 0xFF⟩,
  ⟨0x3400, 64, 0x2F, 1, .unsigned 2, .rw, 2, false, .val 30, 0, 1440, 0xFFFF⟩,
  ⟨0x3400, 64, 0x30, 1, .unsigned 1, .rw, 2, false, .val 8, 1, 64, 0xFF⟩,
  ⟨0x3400, 64, 0x31, 1, .unsigned 1, .rw, 2, false, .val 0, 0, 23, 0xFF⟩,
  ⟨0x3400, 64, 0x32, 1, .unsigned 1, .rw, 2, false, .val 1, 1, 4, 0xFF⟩,
  ⟨0x3400, 64, 0x33, 1, .unsigned 2, .rw, 2, false, .val 24, 0, 65535, 0xFFFF⟩,
  ⟨0x3400, 64, 0x34, 1, .unsigned 2, .rw, 2, false, .val 24, 0, 1535, 0xFFFF⟩,
  ⟨0x3400, 64, 0x35, 1, .unsigned 1, .rw, 2, false, .val 40, 5, 40, 0xFF⟩,
  ⟨0x3400, 64, 0x36, 1, .unsigned 2, .rw, 2, false, .val 100, 10, 2000, 0xFFFF⟩,
  ⟨0x3400, 64, 0x37, 1, .unsigned 4, .rw, 2, false, .val 86400, 3600, 2592000, 0xFFFFFFFF⟩,
  ⟨0x3400, 64, 0x38, 1, .unsigned 4, .rw, 2, false, .val 3600, 0, 2592000, 0xFFFFFFFF⟩,
  ⟨0x3400, 64, 0x39, 1, .boolean, .rw, 2, false, .val 1, 0, 1, 0x1⟩,
  ⟨0x3400, 64, 0x3A, 1, .unsigned 2, .rw, 2, false, .val 600, 1, 3600, 0xFFFF⟩,
  ⟨0x3400, 64, 0x3B, 1, .unsigned 1, .rw, 2, false, .val 40, 1, 255, 0xFF⟩,
  ⟨0x3400, 64, 0x3C, 1, .unsigned 1, .rw, 2, false, .val 2, 1, 4, 0xFF⟩,
  ⟨0x3400, 64, 0x3D, 1, .unsigned 1, .rw, 2, false, .val 0, 0, 255, 0x3F⟩,
  ⟨0x3400, 64, 0x1, 1, .boolean, .rw, 2, false, .val 0, 0, 1, 0x1⟩,
  ⟨0x3400, 64, 0x2, 1, .unsigned 1, .rw, 2, false, .val 0, 0, 8, 0xFF⟩,
  ⟨0x3400, 64, 0x3, 8, .unsigned 1, .rw, 2, false, .val 0, 0, 255, 0xFF⟩,
  ⟨0x3400, 64, 0xB, 1, .unsigned 1, .rw, 2, false, .val 10, 3, 30, 0xFF⟩,
  ⟨0x3400, 64, 0xC, 1, .boolean, .rw, 2, false, .val 1, 0, 1, 0x1⟩,
  ⟨0x3400, 64, 0xD, 1, .unsigned 1, .rw, 2, false, .val 3, 0, 20, 0xFF⟩,
  ⟨0x3400, 64, 0xE, 1, .unsigned 2, .rw, 2, false, .val 100, 0, 1000, 0xFFFF⟩,
  ⟨0x3400, 64, 0xF, 1, .unsigned 2, .rw, 2, false, .val 15, 1, 1440, 0xFFFF⟩,
  ⟨0x3400, 64, 0x10, 1, .unsigned 4, .rw, 2, false, .val 0, 0, 4294967295, 0xFFFFFFFF⟩,
  ⟨0x3400, 64, 0x11, 1, .unsigned 4, .rw, 2, false, .val 0, 0, 4294967295, 0xFFFFFFFF⟩,
  ⟨0x3400, 64, 0x40, 1, .unsigned 4, .rw, 3, false, .val 0, 0, 4294967295, 0xFFFFFFFF⟩,
  ⟨0x3400, 64, 0x41, 1, .unsigned 1, .rw, 3, false, .val 60, 1, 255, 0xFF⟩,
  ⟨0x3400, 64, 0x42, 1, .unsigned 1, .rw, 2, false, .val 8, 8, 16, 0xFF⟩,
  ⟨0x2100, 1, 0x1, 1, .unsigned 1, .rw, 2, false, .val 0, 0, 7, 0xFF⟩,
  ⟨0x2100, 1, 0x2, 1, .unsigned 1, .rw, 2, false, .val 50, 50, 60, 0xFF⟩,
  ⟨0x2100, 1, 0x3, 1, .unsigned 2, .rw, 2, false, .val 3277, 0, 65535, 0xFFFF⟩,
  ⟨0x2101, 1, 0x1, 1, .unsigned 1, .ro, 0, false, .val 0, 0, 255, 0xFF⟩,
  ⟨0x2101, 1, 0x2, 1, .unsigned 4, .ro, 0, false, .val 50000000, 0, 4294967295, 0xFFFFFFFF⟩]

/-- Rows of the dictionary, part 4. -/
def objRows4 : List ObjRow := [
  ⟨0x2101, 1, 0x3, 1, .unsigned 4, .ro, 0, false, .val 0, 0, 4294967295, 0xFFFFFFFF⟩,
  ⟨0x2101, 1, 0x4, 1, .unsigned 8, .ro, 0, false, .val 0, 0, 18446744073709551615, 0xFFFFFFFFFFFFFFFF⟩,
  ⟨0x2101, 1, 0x5, 1, .boolean, .ro, 0, false, .val 1, 0, 1, 0x1⟩,
  ⟨0x2101, 1, 0x6, 1, .unsigned 2, .ro, 0, false, .val 0, 0, 65535, 0xFFFF⟩,
  ⟨0x2101, 1, 0x7, 1, .unsigned 2, .ro, 0, false, .val 0, 0, 65535, 0xFFFF⟩,
  ⟨0x3800, 256, 0x1, 24, .unsigned 4, .ro, 0, false, .val 3, 0, 4294967295, 0xFFFFFFFF⟩,
  ⟨0x3800, 256, 0x19, 1, .integer 2, .ro, 0, false, .val 32768, -32768, 32767, 0xFFFF⟩,
  ⟨0x3800, 256, 0x1A, 1, .unsigned 8, .ro, 0, false, .val 281474976710655, 0, 18446744073709551615, 0xFFFFFFFFFFFFFFFF⟩,
  ⟨0x3800, 256, 0x1B, 1, .unsigned 4, .ro, 0, false, .val 0, 0, 4294967295, 0xFFFFFFFF⟩,
  ⟨0x3800, 256, 0x1C, 1, .unsigned 4, .ro, 0, false, .val 0, 0, 4294967295, 0xFFFFFFFF⟩,
  ⟨0x3800, 256, 0x1D, 1, .unsigned 4, .ro, 0, false, .val 0, 0, 4294967295, 0xFFFFFFFF⟩,
  ⟨0x3440, 64, 0x20, 1, .unsigned 4, .ro, 0, false, .val 0, 0, 4294967295, 0xFFFFFFFF⟩,
  ⟨0x3440, 64, 0x21, 1, .unsigned 4, .ro, 0, false, .val 0, 0, 4294967295, 0xFFFFFFFF⟩,
  ⟨0x3440, 64, 0x22, 1, .unsigned 4, .ro, 0, false, .val 0, 0, 4294967295, 0xFFFFFFFF⟩,
  ⟨0x3440, 64, 0x23, 1, .unsigned 4, .ro, 0, false, .val 0, 0, 4294967295, 0xFFFFFFFF⟩,
  ⟨0x3440, 64, 0x24, 1, .unsigned 4, .ro, 0, false, .val 0, 0, 4294967295, 0xFFFFFFFF⟩,
  ⟨0x3440, 64, 0x25, 1, .unsigned 4, .ro, 0, false, .val 0, 0, 4294967295, 0xFFFFFFFF⟩,
  ⟨0x3440, 64, 0x26, 1, .unsigned 4, .ro, 0, false, .val 0, 0, 4294967295, 0xFFFFFFFF⟩,
  ⟨0x3440, 64, 0x30, 1, .unsigned 2, .ro, 0, false, .val 0, 0, 65535, 0xFFFF⟩,
  ⟨0x3440, 64, 0x31, 1, .unsigned 4, .ro, 0, false, .val 0, 0, 4294967295, 0xFFFFFFFF⟩,
  ⟨0x3440, 64, 0x32, 1, .unsigned 4, .ro, 0, false, .val 0, 0, 4294967295, 0xFFFFFFFF⟩,
  ⟨0x3440, 64, 0x33, 1, .unsigned 4, .ro, 0, false, .val 0, 0, 4294967295, 0xFFFFFFFF⟩,
  ⟨0x3440, 64, 0x34, 1, .unsigned 4, .ro, 0, false, .val 0, 0, 4294967295, 0xFFFFFFFF⟩,
  ⟨0x3440, 64, 0x35, 1, .unsigned 4, .ro, 0, false, .val 0, 0, 4294967295, 0xFFFFFFFF⟩,
  ⟨0x3440, 64, 0x36, 1, .unsigned 4, .ro, 0, false, .val 0, 0, 4294967295, 0xFFFFFFFF⟩,
  ⟨0x3440, 64, 0x37, 1, .unsigned 4, .ro, 0, false, .val 0, 0, 4294967295, 0xFFFFFFFF⟩,
  ⟨0x3440, 64, 0x38, 1, .unsigned 4, .ro, 0, false, .val 0, 0, 4294967295, 0xFFFFFFFF⟩,
  ⟨0x3440, 64, 0x39, 1, .unsigned 4, .ro, 0, false, .val 0, 0, 4294967295, 0xFFFFFFFF⟩,
  ⟨0x3440, 64, 0x3A, 1, .unsigned 4, .ro, 0, false, .val 0, 0, 4294967295, 0xFFFFFFFF⟩,
  ⟨0x3440, 64, 0x3B, 1, .unsigned 4, .ro, 0, false, .val 0, 0, 4294967295, 0xFFFFFFFF⟩,
  ⟨0x3440, 64, 0x3C, 1, .unsigned 4, .ro, 0, false, .val 0, 0, 4294967295, 0xFFFFFFFF⟩,
  ⟨0x3440, 64, 0x3D, 1, .unsigned 4, .ro, 0, false, .val 0, 0, 4294967295, 0xFFFFFFFF⟩,
  ⟨0x3440, 64, 0x3E, 1, .unsigned 4, .ro, 0, false, .val 0, 0, 4294967295, 0xFFFFFFFF⟩,
  ⟨0x3440, 64, 0x1, 1, .unsigned 1, .ro, 0, false, .val 0, 0, 255, 0xFF⟩,
  ⟨0x3440, 64, 0x2, 1, .unsigned 4, .ro, 0, false, .val 0, 0, 4294967295, 0xFFFFFFFF⟩,
  ⟨0x3440, 64, 0x3, 1, .unsigned 4, .ro, 0, false, .val 0, 0, 4294967295, 0xFFFFFFFF⟩,
  ⟨0x3440, 64, 0x4, 1, .unsigned 4, .ro, 0, false, .val 0, 0, 4294967295, 0xFFFFFFFF⟩,
  ⟨0x3440, 64, 0x5, 1, .unsigned 4, .ro, 0, false, .val 0, 0, 4294967295, 0xFFFFFFFF⟩,
  ⟨0x3440, 64, 0x6, 1, .unsigned 4, .ro, 0, false, .val 0, 0, 4294967295, 0xFFFFFFFF⟩,
  ⟨0x3440, 64, 0x7, 1, .unsigned 4, .ro, 0, false, .val 0, 0, 4294967295, 0xFFFFFFFF⟩]

/-- Rows of the dictionary, part 5. -/
def objRows5 : List ObjRow := [
  ⟨0x3440, 64, 0x8, 1, .unsigned 4, .ro, 0, false, .val 0, 0, 4294967295, 0xFFFFFFFF⟩,
  ⟨0x3440, 64, 0x9, 1, .unsigned 4, .ro, 0, false, .val 0, 0, 4294967295, 0xFFFFFFFF⟩,
  ⟨0x3440, 64, 0xA, 1, .unsigned 4, .ro, 0, false, .val 0, 0, 4294967295, 0xFFFFFFFF⟩,
  ⟨0x3440, 64, 0xB, 1, .unsigned 4, .ro, 0, false, .val 0, 0, 4294967295, 0xFFFFFFFF⟩,
  ⟨0x3440, 64, 0xC, 1, .unsigned 4, .ro, 0, false, .val 0, 0, 4294967295, 0xFFFFFFFF⟩,
  ⟨0x3440, 64, 0xD, 1, .unsigned 2, .ro, 0, false, .val 0, 0, 65535, 0xFFFF⟩,
  ⟨0x3440, 64, 0x10, 16, .unsigned 4, .ro, 0, false, .val 0, 0, 4294967295, 0xFFFFFFFF⟩,
  ⟨0x3440, 64, 0x40, 1, .unsigned 1, .ro, 0, false, .val 0, 0, 255, 0xFF⟩,
  ⟨0x3440, 64, 0x41, 1, .unsigned 4, .ro, 0, false, .val 0, 0, 4294967295, 0xFFFFFFFF⟩,
  ⟨0x3440, 64, 0x42, 1, .unsigned 2, .ro, 0, false, .val 0, 0, 65535, 0xFFFF⟩,
  ⟨0x2102, 1, 0x1, 1, .unsigned 2, .ro, 0, false, .val 16382, 0, 65535, 0xFFFF⟩,
  ⟨0x2102, 1, 0x2, 1, .unsigned 2, .ro, 0, false, .val 16382, 0, 65535, 0xFFFF⟩,
  ⟨0x8000, 256, 0x1, 1, .unsigned 1, .rw, 1, false, .val 0, 0, 63, 0xFF⟩,
  ⟨0x8000, 256, 0x2, 1, .unsigned 2, .rw, 1, false, .val 65534, 0, 65535, 0xFFFF⟩,
  ⟨0x8000, 256, 0x3, 1, .boolean, .ro, 1, false, .val 0, 0, 1, 0x1⟩,
  ⟨0x8000, 256, 0x4, 1, .octets 64, .ro, 2, false, .val 0, 0, 0, 0x0⟩,
  ⟨0x8000, 256, 0x5, 1, .octets 20, .ro, 2, false, .val 0, 0, 0, 0x0⟩,
  ⟨0x8000, 256, 0x6, 1, .boolean, .wo, 2, false, .val 0, 0, 1, 0x1⟩,
  ⟨0x7180, 1, 0x1, 1, .unsigned 2, .rw, 2, false, .val 0, 0, 1023, 0xFFFF⟩,
  ⟨0x7180, 1, 0x2, 1, .unsigned 4, .rw, 2, false, .val 0, 0, 4294967295, 0xFFFFFFFF⟩,
  ⟨0x7180, 1, 0x3, 1, .unsigned 2, .rw, 3, false, .val 1023, 993, 1023, 0xFFFF⟩,
  ⟨0x7180, 1, 0x4, 1, .boolean, .rw, 2, false, .val 0, 0, 1, 0x1⟩,
  ⟨0x7180, 1, 0x5, 1, .boolean, .rw, 2, false, .val 1, 0, 1, 0x1⟩,
  ⟨0x7180, 1, 0x6, 1, .unsigned 1, .rw, 2, false, .val 6, 0, 40, 0xFF⟩,
  ⟨0x7180, 1, 0x7, 1, .unsigned 2, .rw, 2, false, .val 3600, 60, 65535, 0xFFFF⟩,
  ⟨0x7181, 1, 0x1, 1, .unsigned 2, .ro, 0, false, .val 0, 0, 65535, 0xFFFF⟩,
  ⟨0x7181, 1, 0x2, 1, .unsigned 4, .ro, 0, false, .val 0, 0, 4294967295, 0xFFFFFFFF⟩,
  ⟨0x7181, 1, 0x3, 1, .unsigned 4, .ro, 0, false, .val 0, 0, 4294967295, 0xFFFFFFFF⟩,
  ⟨0x7181, 1, 0x4, 1, .unsigned 4, .ro, 0, false, .val 0, 0, 4294967295, 0xFFFFFFFF⟩,
  ⟨0x7181, 1, 0x5, 1, .unsigned 4, .ro, 0, false, .val 0, 0, 4294967295, 0xFFFFFFFF⟩,
  ⟨0x7181, 1, 0x6, 1, .unsigned 4, .ro, 0, false, .val 0, 0, 4294967295, 0xFFFFFFFF⟩,
  ⟨0x7181, 1, 0x7, 1, .unsigned 4, .ro, 0, false, .val 0, 0, 4294967295, 0xFFFFFFFF⟩,
  ⟨0x7181, 1, 0x8, 1, .unsigned 4, .ro, 0, false, .val 0, 0, 4294967295, 0xFFFFFFFF⟩,
  ⟨0x7181, 1, 0x9, 1, .boolean, .ro, 0, false, .val 0, 0, 1, 0x1⟩,
  ⟨0x7000, 1, 0x1, 1, .unsigned 2, .rw, 2, false, .val 60, 1, 3600, 0xFFFF⟩,
  ⟨0x7000, 1, 0x2, 1, .unsigned 4, .rw, 2, false, .val 4194304, 0, 6291456, 0xFFFFFFFF⟩,
  ⟨0x7000, 1, 0x3, 1, .unsigned 4, .rw, 2, false, .val 8192, 0, 32768, 0xFFFFFFFF⟩,
  ⟨0x7000, 1, 0x4, 1, .unsigned 2, .rw, 2, false, .val 256, 1, 1024, 0xFFFF⟩,
  ⟨0x7000, 1, 0x5, 1, .unsigned 2, .rw, 2, false, .val 2000, 10, 60000, 0xFFFF⟩,
  ⟨0x7000, 1, 0x6, 1, .unsigned 1, .rw, 2, false, .val 3, 1, 8, 0xFF⟩]

/-- Rows of the dictionary, part 6. -/
def objRows6 : List ObjRow := [
  ⟨0x7010, 4, 0x1, 1, .unsigned 4, .rw, 2, false, .byClass 0 500000 2000000 1000000, 1, 4000000, 0xFFFFFFFF⟩,
  ⟨0x7010, 4, 0x2, 1, .unsigned 4, .rw, 2, false, .byClass 2000 10000 60000 600000, 10, 86400000, 0xFFFFFFFF⟩,
  ⟨0x7010, 4, 0x3, 1, .unsigned 4, .rw, 2, false, .byClass 60000 600000 3600000 86400000, 10, 86400000, 0xFFFFFFFF⟩,
  ⟨0x7010, 4, 0x4, 1, .unsigned 1, .rw, 2, false, .byClass 3 2 2 1, 0, 7, 0xFF⟩,
  ⟨0x7010, 4, 0x5, 1, .unsigned 2, .rw, 2, false, .byClass 230 1024 2048 4096, 16, 4096, 0xFFFF⟩,
  ⟨0x7010, 4, 0x6, 1, .unsigned 2, .rw, 2, false, .val 8192, 256, 8960, 0xFFFF⟩,
  ⟨0x7010, 4, 0x7, 1, .unsigned 4, .rw, 2, false, .val 16384, 1, 131072, 0xFFFFFFFF⟩,
  ⟨0x7080, 64, 0x0, 1, .domain, .rw, 2, false, .val 0, 0, 0, 0x0⟩,
  ⟨0x7001, 1, 0x1, 1, .unsigned 4, .ro, 0, false, .val 0, 0, 4294967295, 0xFFFFFFFF⟩,
  ⟨0x7001, 1, 0x2, 1, .unsigned 4, .ro, 0, false, .val 0, 0, 4294967295, 0xFFFFFFFF⟩,
  ⟨0x7001, 1, 0x3, 1, .unsigned 4, .ro, 0, false, .val 131072, 0, 4294967295, 0xFFFFFFFF⟩,
  ⟨0x7001, 1, 0x4, 1, .unsigned 8, .ro, 0, false, .val 0, 0, 18446744073709551615, 0xFFFFFFFFFFFFFFFF⟩,
  ⟨0x7001, 1, 0x5, 1, .unsigned 8, .ro, 0, false, .val 0, 0, 18446744073709551615, 0xFFFFFFFFFFFFFFFF⟩,
  ⟨0x7001, 1, 0x6, 1, .unsigned 4, .ro, 0, false, .val 0, 0, 4294967295, 0xFFFFFFFF⟩,
  ⟨0x7001, 1, 0x7, 1, .unsigned 4, .ro, 0, false, .val 0, 0, 4294967295, 0xFFFFFFFF⟩,
  ⟨0x7001, 1, 0x8, 1, .unsigned 4, .ro, 0, false, .val 0, 0, 4294967295, 0xFFFFFFFF⟩,
  ⟨0x7001, 1, 0x9, 1, .unsigned 4, .ro, 0, false, .val 0, 0, 4294967295, 0xFFFFFFFF⟩,
  ⟨0x7001, 1, 0xA, 1, .unsigned 4, .ro, 0, false, .val 0, 0, 4294967295, 0xFFFFFFFF⟩,
  ⟨0x7001, 1, 0xB, 1, .unsigned 4, .ro, 0, false, .val 0, 0, 4294967295, 0xFFFFFFFF⟩,
  ⟨0x7001, 1, 0xC, 1, .unsigned 4, .ro, 0, false, .val 0, 0, 4294967295, 0xFFFFFFFF⟩,
  ⟨0x7020, 4, 0x1, 10, .unsigned 4, .ro, 0, false, .val 0, 0, 4294967295, 0xFFFFFFFF⟩,
  ⟨0x7030, 4, 0x1, 14, .unsigned 4, .ro, 0, false, .val 0, 0, 4294967295, 0xFFFFFFFF⟩,
  ⟨0x5000, 1024, 0x1, 1, .octets2 32 48, .wo, 3, false, .val 0, 0, 0, 0x0⟩,
  ⟨0x5000, 1024, 0x2, 1, .boolean, .wo, 3, false, .val 0, 0, 1, 0x1⟩,
  ⟨0x5400, 1024, 0x1, 1, .unsigned 1, .ro, 1, false, .val 0, 0, 255, 0xFF⟩,
  ⟨0x5400, 1024, 0x2, 1, .unsigned 2, .ro, 1, false, .val 0, 0, 65535, 0xFFFF⟩,
  ⟨0x5400, 1024, 0x3, 1, .unsigned 4, .ro, 1, false, .val 0, 0, 4294967295, 0xFFFFFFFF⟩,
  ⟨0x5400, 1024, 0x4, 1, .unsigned 4, .rw, 3, false, .useLimit, 1, 4294967295, 0xFFFFFFFF⟩,
  ⟨0x5400, 1024, 0x5, 1, .unsigned 4, .ro, 1, false, .val 0, 0, 4294967295, 0xFFFFFFFF⟩,
  ⟨0x5400, 1024, 0x6, 1, .boolean, .ro, 1, false, .val 0, 0, 1, 0x1⟩,
  ⟨0x5400, 1024, 0x7, 1, .boolean, .ro, 1, false, .val 0, 0, 1, 0x1⟩,
  ⟨0x5400, 1024, 0x8, 1, .unsigned 8, .ro, 3, false, .val 0, 0, 18446744073709551615, 0xFFFFFFFFFFFFFFFF⟩,
  ⟨0x5400, 1024, 0x9, 1, .unsigned 8, .rw, 3, false, .val 0, 0, 18446744073709551615, 0xFFFFFFFFFFFFFFFF⟩,
  ⟨0x5400, 1024, 0xA, 1, .unsigned 2, .ro, 1, false, .val 0, 0, 65535, 0xFFFF⟩,
  ⟨0x5800, 64, 0x1, 1, .unsigned 1, .ro, 0, false, .val 0, 0, 255, 0xFF⟩,
  ⟨0x5800, 64, 0x2, 1, .unsigned 4, .ro, 2, false, .val 1044735, 0, 4294967295, 0xFFFFFFFF⟩,
  ⟨0x5800, 64, 0x3, 1, .unsigned 4, .ro, 0, false, .val 0, 0, 4294967295, 0xFFFFFFFF⟩,
  ⟨0x5800, 64, 0x4, 1, .unsigned 4, .ro, 0, false, .val 0, 0, 4294967295, 0xFFFFFFFF⟩,
  ⟨0x5800, 64, 0x5, 1, .unsigned 4, .ro, 0, false, .val 0, 0, 4294967295, 0xFFFFFFFF⟩,
  ⟨0x5800, 64, 0x6, 1, .unsigned 4, .ro, 0, false, .val 0, 0, 4294967295, 0xFFFFFFFF⟩]

/-- Rows of the dictionary, part 7. -/
def objRows7 : List ObjRow := [
  ⟨0x5800, 64, 0x7, 1, .unsigned 1, .ro, 0, false, .val 0, 0, 255, 0xFF⟩,
  ⟨0x5800, 64, 0x8, 1, .boolean, .wo, 3, false, .val 0, 0, 1, 0x1⟩,
  ⟨0x5800, 64, 0x9, 1, .unsigned 4, .ro, 0, false, .val 0, 0, 4294967295, 0xFFFFFFFF⟩,
  ⟨0x2200, 1, 0x1, 1, .unsigned 1, .ro, 0, false, .val 0, 0, 255, 0xFF⟩,
  ⟨0x2200, 1, 0x2, 1, .unsigned 1, .ro, 0, false, .val 0, 0, 255, 0xFF⟩,
  ⟨0x2200, 1, 0x3, 1, .boolean, .wo, 3, false, .val 0, 0, 1, 0x1⟩,
  ⟨0x2200, 1, 0x4, 1, .unsigned 4, .ro, 0, false, .val 0, 0, 4294967295, 0xFFFFFFFF⟩,
  ⟨0x2200, 1, 0x5, 1, .unsigned 2, .ro, 1, false, .val 0, 0, 65535, 0xFFFF⟩,
  ⟨0x2200, 1, 0x6, 1, .unsigned 4, .ro, 0, false, .val 0, 0, 4294967295, 0xFFFFFFFF⟩,
  ⟨0x2201, 1, 0x1, 1, .unsigned 1, .ro, 0, false, .val 0, 0, 255, 0xFF⟩,
  ⟨0x2201, 1, 0x2, 2, .unsigned 1, .ro, 0, false, .val 0, 0, 255, 0xFF⟩,
  ⟨0x2201, 1, 0x4, 1, .unsigned 1, .ro, 0, false, .val 0, 0, 255, 0xFF⟩,
  ⟨0x2201, 1, 0x5, 1, .unsigned 1, .wo, 3, false, .val 0, 0, 255, 0xFF⟩,
  ⟨0x2201, 1, 0x6, 1, .domain, .wo, 3, false, .val 0, 0, 0, 0x0⟩,
  ⟨0x2201, 1, 0x7, 1, .boolean, .wo, 3, false, .val 0, 0, 1, 0x1⟩,
  ⟨0x2201, 1, 0x8, 1, .unsigned 1, .ro, 0, false, .val 8, 0, 255, 0xFF⟩,
  ⟨0x2201, 1, 0x9, 1, .unsigned 1, .wo, 3, false, .val 0, 0, 255, 0xFF⟩,
  ⟨0x2202, 1, 0x1, 1, .boolean, .rw, 3, false, .val 0, 0, 1, 0x1⟩,
  ⟨0x2202, 1, 0x2, 1, .unsigned 4, .ro, 0, false, .val 0, 0, 4294967295, 0xFFFFFFFF⟩,
  ⟨0x2202, 1, 0x3, 1, .unsigned 4, .ro, 0, false, .val 0, 0, 4294967295, 0xFFFFFFFF⟩,
  ⟨0x2202, 1, 0x4, 1, .unsigned 4, .ro, 0, false, .val 0, 0, 4294967295, 0xFFFFFFFF⟩,
  ⟨0x2203, 1, 0x1, 1, .unsigned 1, .rw, 3, false, .val 0, 0, 1, 0xFF⟩,
  ⟨0x2203, 1, 0x2, 1, .unsigned 2, .rw, 3, false, .val 1022, 993, 1023, 0xFFFF⟩,
  ⟨0x2203, 1, 0x3, 1, .unsigned 2, .rw, 3, false, .val 128, 128, 256, 0xFFFF⟩,
  ⟨0x2203, 1, 0x4, 1, .domain, .wo, 3, false, .val 0, 0, 0, 0x0⟩,
  ⟨0x2203, 1, 0x5, 1, .unsigned 4, .ro, 1, false, .val 0, 0, 4294967295, 0xFFFFFFFF⟩,
  ⟨0x2203, 1, 0x6, 1, .unsigned 4, .ro, 0, false, .val 0, 0, 4294967295, 0xFFFFFFFF⟩,
  ⟨0x6000, 8, 0x1, 1, .unsigned 1, .rw, 2, false, .val 1, 0, 1, 0xFF⟩,
  ⟨0x6000, 8, 0x2, 1, .unsigned 1, .rw, 2, false, .val 32, 1, 64, 0xFF⟩,
  ⟨0x6000, 8, 0x3, 1, .unsigned 8, .rw, 2, false, .val 79764919, 0, 18446744073709551615, 0xFFFFFFFFFFFFFFFF⟩,
  ⟨0x6000, 8, 0x4, 1, .unsigned 8, .rw, 2, false, .val 4294967295, 0, 18446744073709551615, 0xFFFFFFFFFFFFFFFF⟩,
  ⟨0x6000, 8, 0x5, 1, .unsigned 8, .rw, 2, false, .val 4294967295, 0, 18446744073709551615, 0xFFFFFFFFFFFFFFFF⟩,
  ⟨0x6000, 8, 0x6, 1, .boolean, .rw, 2, false, .val 1, 0, 1, 0x1⟩,
  ⟨0x6000, 8, 0x7, 1, .boolean, .rw, 2, false, .val 1, 0, 1, 0x1⟩,
  ⟨0x6000, 8, 0x8, 1, .unsigned 1, .rw, 2, false, .val 0, 0, 1, 0xFF⟩,
  ⟨0x6000, 8, 0x9, 1, .unsigned 4, .rw, 2, false, .val 50266112, 0, 4294967295, 0xFFFFFFFF⟩,
  ⟨0x6000, 8, 0xA, 1, .unsigned 4, .rw, 2, false, .val 0, 0, 50331648, 0xFFFFFFFF⟩,
  ⟨0x6000, 8, 0xB, 1, .boolean, .wo, 2, false, .val 0, 0, 1, 0x1⟩,
  ⟨0x6000, 8, 0xC, 1, .unsigned 1, .ro, 0, false, .val 0, 0, 255, 0xFF⟩,
  ⟨0x6000, 8, 0xD, 1, .unsigned 4, .ro, 0, false, .val 0, 0, 4294967295, 0xFFFFFFFF⟩]

/-- Rows of the dictionary, part 8. -/
def objRows8 : List ObjRow := [
  ⟨0x6000, 8, 0xE, 1, .unsigned 8, .ro, 0, false, .val 0, 0, 18446744073709551615, 0xFFFFFFFFFFFFFFFF⟩,
  ⟨0x6000, 8, 0xF, 1, .unsigned 4, .ro, 0, false, .val 0, 0, 4294967295, 0xFFFFFFFF⟩,
  ⟨0x6100, 256, 0x1, 1, .unsigned 2, .ro, 0, false, .byQueue, 0, 65535, 0xFFFF⟩,
  ⟨0x6100, 256, 0x2, 1, .unsigned 2, .ro, 0, false, .val 0, 0, 65535, 0xFFFF⟩,
  ⟨0x6100, 256, 0x3, 1, .unsigned 2, .ro, 0, false, .val 0, 0, 65535, 0xFFFF⟩,
  ⟨0x6100, 256, 0x4, 1, .unsigned 4, .ro, 0, false, .val 0, 0, 4294967295, 0xFFFFFFFF⟩,
  ⟨0x6100, 256, 0x5, 1, .boolean, .ro, 0, false, .val 0, 0, 1, 0x1⟩,
  ⟨0x6100, 256, 0x6, 1, .boolean, .ro, 0, false, .val 0, 0, 1, 0x1⟩,
  ⟨0x6100, 256, 0x7, 1, .unsigned 4, .ro, 0, false, .val 0, 0, 4294967295, 0xFFFFFFFF⟩,
  ⟨0x6100, 256, 0x8, 1, .unsigned 4, .ro, 0, false, .val 0, 0, 4294967295, 0xFFFFFFFF⟩,
  ⟨0x6100, 256, 0x9, 1, .unsigned 4, .ro, 0, false, .val 0, 0, 4294967295, 0xFFFFFFFF⟩,
  ⟨0x6100, 256, 0xA, 1, .unsigned 4, .ro, 0, false, .val 0, 0, 4294967295, 0xFFFFFFFF⟩,
  ⟨0xA013, 1, 0x1, 1, .unsigned 4, .ro, 0, false, .val 0, 0, 4294967295, 0xFFFFFFFF⟩,
  ⟨0xA013, 1, 0x2, 1, .unsigned 4, .ro, 0, false, .val 0, 0, 4294967295, 0xFFFFFFFF⟩,
  ⟨0xA013, 1, 0x3, 1, .unsigned 4, .ro, 2, false, .val 0, 0, 4294967295, 0xFFFFFFFF⟩,
  ⟨0xA020, 1, 0x1, 1, .unsigned 2, .rw, 2, false, .val 0, 0, 65535, 0xFFFF⟩,
  ⟨0xA020, 1, 0x2, 1, .domain, .rw, 2, false, .val 0, 0, 0, 0x0⟩,
  ⟨0x4000, 64, 0x1, 1, .unsigned 1, .rw, 2, false, .mcMode, 0, 2, 0xFF⟩,
  ⟨0x4000, 64, 0x2, 1, .unsigned 1, .rw, 2, false, .val 0, 0, 1, 0xFF⟩,
  ⟨0x4000, 64, 0x3, 1, .unsigned 1, .rw, 2, false, .val 0, 0, 1, 0xFF⟩,
  ⟨0x4000, 64, 0x4, 1, .unsigned 1, .rw, 2, false, .val 0, 0, 255, 0xFF⟩,
  ⟨0x4000, 64, 0x5, 1, .unsigned 1, .rw, 2, false, .val 0, 0, 8, 0xFF⟩,
  ⟨0x4000, 64, 0x6, 1, .unsigned 2, .rw, 2, false, .val 16, 13, 65535, 0xFFFF⟩,
  ⟨0x4000, 64, 0x7, 1, .boolean, .rw, 2, false, .val 0, 0, 1, 0x1⟩,
  ⟨0x4000, 64, 0x8, 1, .boolean, .rw, 2, false, .val 0, 0, 1, 0x1⟩,
  ⟨0x4000, 64, 0x9, 1, .unsigned 1, .rw, 2, false, .val 0, 0, 5, 0xFF⟩,
  ⟨0x4000, 64, 0xA, 1, .unsigned 4, .rw, 2, false, .val 0, 0, 4294967295, 0xFFFFFFFF⟩,
  ⟨0x4000, 64, 0xB, 1, .unsigned 8, .rw, 2, false, .val 0, 0, 18446744073709551615, 0xFFFFFFFFFFFFFFFF⟩,
  ⟨0x4000, 64, 0xC, 1, .boolean, .wo, 1, false, .val 0, 0, 1, 0x1⟩,
  ⟨0x4000, 64, 0x10, 1, .integer 4, .rw, 2, false, .val 2147483647, -2147483648, 2147483647, 0xFFFFFFFF⟩,
  ⟨0x4000, 64, 0x14, 1, .integer 4, .rw, 2, false, .val 2147483647, -2147483648, 2147483647, 0xFFFFFFFF⟩,
  ⟨0x4000, 64, 0x11, 1, .unsigned 4, .rw, 2, false, .val 0, 0, 16777215, 0xFFFFFFFF⟩,
  ⟨0x4000, 64, 0x15, 1, .unsigned 4, .rw, 2, false, .val 0, 0, 16777215, 0xFFFFFFFF⟩,
  ⟨0x4000, 64, 0x12, 1, .unsigned 1, .rw, 2, false, .val 0, 0, 1, 0xFF⟩,
  ⟨0x4000, 64, 0x16, 1, .unsigned 1, .rw, 2, false, .val 0, 0, 1, 0xFF⟩,
  ⟨0x4000, 64, 0x13, 1, .unsigned 1, .rw, 2, false, .val 0, 0, 255, 0x3⟩,
  ⟨0x4000, 64, 0x17, 1, .unsigned 1, .rw, 2, false, .val 0, 0, 255, 0x3⟩,
  ⟨0x4000, 64, 0x18, 1, .unsigned 2, .rw, 2, false, .val 1000, 0, 60000, 0xFFFF⟩,
  ⟨0x4000, 64, 0x20, 1, .unsigned 1, .rw, 2, false, .val 0, 0, 2, 0xFF⟩,
  ⟨0x4000, 64, 0x21, 1, .domain, .rw, 2, false, .val 0, 0, 0, 0x0⟩]

/-- Rows of the dictionary, part 9. -/
def objRows9 : List ObjRow := [
  ⟨0x4000, 64, 0x22, 1, .boolean, .rw, 2, false, .val 1, 0, 1, 0x1⟩,
  ⟨0x4080, 1, 0x1, 1, .domain, .ro, 0, false, .val 0, 0, 0, 0x0⟩,
  ⟨0x408F, 1, 0x1, 1, .unsigned 1, .rw, 2, false, .val 0, 0, 5, 0xFF⟩,
  ⟨0x408F, 1, 0x2, 1, .unsigned 4, .rw, 2, false, .val 0, 0, 4294967295, 0xFFFFFFFF⟩,
  ⟨0x408F, 1, 0x3, 1, .unsigned 8, .rw, 2, false, .val 0, 0, 18446744073709551615, 0xFFFFFFFFFFFFFFFF⟩,
  ⟨0x408F, 1, 0x4, 1, .boolean, .wo, 1, false, .val 0, 0, 1, 0x1⟩,
  ⟨0x408F, 1, 0x5, 1, .unsigned 4, .ro, 0, false, .val 0, 0, 4294967295, 0xFFFFFFFF⟩,
  ⟨0x4040, 64, 0x1, 1, .octets 16, .ro, 0, false, .val 0, 0, 0, 0x0⟩,
  ⟨0x4040, 64, 0x2, 1, .unsigned 8, .ro, 0, false, .val 0, 0, 18446744073709551615, 0xFFFFFFFFFFFFFFFF⟩,
  ⟨0x4040, 64, 0x3, 1, .octets 20, .ro, 0, false, .val 0, 0, 0, 0x0⟩,
  ⟨0x4040, 64, 0x4, 1, .domain, .ro, 0, false, .val 0, 0, 0, 0x0⟩,
  ⟨0x4040, 64, 0x5, 1, .octets 12, .ro, 1, false, .val 0, 0, 0, 0x0⟩,
  ⟨0x4040, 64, 0x6, 1, .octets 12, .ro, 1, false, .val 0, 0, 0, 0x0⟩,
  ⟨0x4040, 64, 0x7, 1, .boolean, .ro, 0, false, .val 0, 0, 1, 0x1⟩,
  ⟨0x4040, 64, 0x8, 1, .unsigned 4, .ro, 0, false, .val 0, 0, 4294967295, 0xFFFFFFFF⟩,
  ⟨0x4040, 64, 0x9, 1, .boolean, .ro, 0, false, .val 0, 0, 1, 0x1⟩,
  ⟨0x4040, 64, 0xA, 1, .unsigned 4, .ro, 0, false, .val 0, 0, 4294967295, 0xFFFFFFFF⟩,
  ⟨0x4040, 64, 0xB, 1, .unsigned 4, .ro, 0, false, .val 0, 0, 4294967295, 0xFFFFFFFF⟩,
  ⟨0x4040, 64, 0xC, 1, .unsigned 4, .ro, 0, false, .val 0, 0, 4294967295, 0xFFFFFFFF⟩,
  ⟨0x4040, 64, 0xD, 1, .unsigned 4, .ro, 0, false, .val 0, 0, 4294967295, 0xFFFFFFFF⟩,
  ⟨0x7100, 1, 0x1, 1, .unsigned 1, .rw, 2, false, .val 1, 0, 6, 0xFF⟩,
  ⟨0x7100, 1, 0x2, 1, .unsigned 2, .rw, 2, false, .val 58596, 0, 65535, 0xFFFF⟩,
  ⟨0x7100, 1, 0x3, 1, .unsigned 1, .rw, 2, false, .val 0, 0, 255, 0xF⟩,
  ⟨0x7100, 1, 0x4, 1, .unsigned 1, .rw, 2, false, .val 0, 0, 255, 0xF⟩,
  ⟨0x7100, 1, 0x5, 1, .unsigned 1, .rw, 2, false, .val 1, 1, 5, 0xFF⟩,
  ⟨0x7100, 1, 0x6, 1, .unsigned 2, .rw, 2, false, .val 9216, 1518, 9216, 0xFFFF⟩,
  ⟨0x7100, 1, 0x7, 1, .unsigned 2, .rw, 2, false, .val 47010, 1024, 65535, 0xFFFF⟩,
  ⟨0x7100, 1, 0x8, 1, .unsigned 2, .rw, 2, false, .val 47011, 1024, 65535, 0xFFFF⟩,
  ⟨0x7100, 1, 0x9, 1, .unsigned 2, .rw, 2, false, .val 47012, 1024, 65535, 0xFFFF⟩,
  ⟨0x7100, 1, 0xA, 1, .octets 16, .rw, 2, false, .val 0, 0, 0, 0x0⟩,
  ⟨0x7100, 1, 0xB, 1, .unsigned 1, .rw, 2, false, .val 0, 0, 3, 0xFF⟩,
  ⟨0x7101, 4, 0x1, 1, .unsigned 6, .rw, 2, false, .val 0, 0, 281474976710655, 0xFFFFFFFFFFFF⟩,
  ⟨0x7101, 4, 0x2, 1, .unsigned 1, .rw, 2, false, .val 6, 4, 6, 0xFF⟩,
  ⟨0x7101, 4, 0x3, 1, .octets 16, .rw, 2, false, .val 0, 0, 0, 0x0⟩,
  ⟨0x7101, 4, 0x4, 1, .unsigned 1, .rw, 2, false, .val 64, 0, 128, 0xFF⟩,
  ⟨0x7101, 4, 0x5, 1, .octets 16, .rw, 2, false, .val 0, 0, 0, 0x0⟩,
  ⟨0x7101, 4, 0x6, 1, .unsigned 2, .rw, 2, false, .val 0, 0, 4094, 0xFFFF⟩,
  ⟨0x7101, 4, 0x7, 1, .unsigned 1, .rw, 2, false, .val 64, 1, 255, 0xFF⟩,
  ⟨0x7110, 16, 0x1, 1, .boolean, .rw, 2, false, .val 0, 0, 1, 0x1⟩,
  ⟨0x7110, 16, 0x2, 1, .unsigned 1, .rw, 2, false, .val 0, 0, 3, 0xFF⟩]

/-- Rows of the dictionary, part 10. -/
def objRows10 : List ObjRow := [
  ⟨0x7110, 16, 0x3, 1, .unsigned 2, .rw, 3, false, .plus 993, 993, 1023, 0xFFFF⟩,
  ⟨0x7110, 16, 0x4, 1, .unsigned 2, .rw, 2, false, .plus 0, 0, 65535, 0xFFFF⟩,
  ⟨0x7110, 16, 0x5, 1, .octets 16, .rw, 2, false, .val 0, 0, 0, 0x0⟩,
  ⟨0x7110, 16, 0x6, 1, .unsigned 2, .rw, 2, false, .val 47010, 1, 65535, 0xFFFF⟩,
  ⟨0x7110, 16, 0x7, 1, .boolean, .rw, 2, false, .val 1, 0, 1, 0x1⟩,
  ⟨0x7130, 1, 0x1, 1, .unsigned 1, .rw, 2, false, .val 0, 0, 3, 0xFF⟩,
  ⟨0x7130, 1, 0x2, 1, .unsigned 1, .rw, 2, false, .val 0, 0, 255, 0xFF⟩,
  ⟨0x7130, 1, 0x3, 1, .unsigned 1, .rw, 2, false, .val 2, 0, 2, 0xFF⟩,
  ⟨0x7130, 1, 0x4, 1, .unsigned 1, .rw, 2, false, .val 0, 0, 1, 0xFF⟩,
  ⟨0x7130, 1, 0x5, 1, .boolean, .rw, 2, false, .val 1, 0, 1, 0x1⟩,
  ⟨0x7130, 1, 0x6, 1, .boolean, .rw, 2, false, .val 0, 0, 1, 0x1⟩,
  ⟨0x7130, 1, 0x7, 1, .unsigned 2, .rw, 2, false, .val 33023, 0, 65535, 0xFFFF⟩,
  ⟨0x7130, 1, 0x8, 1, .unsigned 1, .rw, 2, false, .val 0, 0, 3, 0xFF⟩,
  ⟨0x7130, 1, 0x9, 1, .integer 4, .rw, 2, false, .val 0, -2147483648, 2147483647, 0xFFFFFFFF⟩,
  ⟨0x7130, 1, 0xA, 1, .unsigned 4, .rw, 2, false, .val 0, 0, 4294967295, 0xFFFFFFFF⟩,
  ⟨0x7130, 1, 0xB, 1, .unsigned 4, .rw, 2, false, .val 0, 0, 4294967295, 0xFFFFFFFF⟩,
  ⟨0x7130, 1, 0xC, 1, .unsigned 4, .rw, 2, false, .val 1000, 1, 1000000, 0xFFFFFFFF⟩,
  ⟨0x7130, 1, 0xD, 1, .unsigned 4, .rw, 2, false, .val 300, 1, 86400, 0xFFFFFFFF⟩,
  ⟨0x7130, 1, 0xE, 1, .unsigned 2, .rw, 2, false, .val 0, 0, 65535, 0xFFFF⟩,
  ⟨0x7130, 1, 0xF, 1, .unsigned 1, .rw, 2, false, .val 1, 0, 2, 0xFF⟩,
  ⟨0x7130, 1, 0x10, 1, .unsigned 8, .wo, 2, false, .val 0, 0, 18446744073709551615, 0xFFFFFFFFFFFFFFFF⟩,
  ⟨0x7131, 1, 0x1, 1, .unsigned 1, .ro, 0, false, .val 0, 0, 255, 0xFF⟩,
  ⟨0x7131, 1, 0x2, 1, .boolean, .ro, 0, false, .val 0, 0, 1, 0x1⟩,
  ⟨0x7131, 1, 0x3, 1, .octets 16, .ro, 0, false, .val 0, 0, 0, 0x0⟩,
  ⟨0x7131, 1, 0x4, 1, .integer 4, .ro, 0, false, .val 0, -2147483648, 2147483647, 0xFFFFFFFF⟩,
  ⟨0x7131, 1, 0x5, 1, .integer 4, .ro, 0, false, .val 0, -2147483648, 2147483647, 0xFFFFFFFF⟩,
  ⟨0x7131, 1, 0x6, 1, .unsigned 4, .ro, 0, false, .val 0, 0, 4294967295, 0xFFFFFFFF⟩,
  ⟨0x7131, 1, 0x7, 1, .integer 8, .ro, 0, false, .val 0, -9223372036854775808, 9223372036854775807, 0xFFFFFFFFFFFFFFFF⟩,
  ⟨0x7131, 1, 0x8, 1, .boolean, .ro, 0, false, .val 0, 0, 1, 0x1⟩,
  ⟨0x7131, 1, 0x9, 1, .unsigned 4, .ro, 0, false, .val 0, 0, 4294967295, 0xFFFFFFFF⟩,
  ⟨0x7131, 1, 0xA, 1, .unsigned 8, .ro, 0, false, .val 0, 0, 18446744073709551615, 0xFFFFFFFFFFFFFFFF⟩,
  ⟨0x7131, 1, 0xB, 1, .unsigned 4, .ro, 0, false, .val 0, 0, 4294967295, 0xFFFFFFFF⟩,
  ⟨0x7131, 1, 0xC, 1, .unsigned 4, .ro, 0, false, .val 0, 0, 4294967295, 0xFFFFFFFF⟩,
  ⟨0x7140, 4, 0x1, 1, .boolean, .ro, 0, false, .val 0, 0, 1, 0x1⟩,
  ⟨0x7140, 4, 0x2, 1, .unsigned 4, .ro, 0, false, .val 0, 0, 4294967295, 0xFFFFFFFF⟩,
  ⟨0x7140, 4, 0x3, 1, .unsigned 8, .ro, 0, false, .val 0, 0, 18446744073709551615, 0xFFFFFFFFFFFFFFFF⟩,
  ⟨0x7140, 4, 0x4, 1, .unsigned 8, .ro, 0, false, .val 0, 0, 18446744073709551615, 0xFFFFFFFFFFFFFFFF⟩,
  ⟨0x7140, 4, 0x5, 1, .unsigned 4, .ro, 0, false, .val 0, 0, 4294967295, 0xFFFFFFFF⟩,
  ⟨0x7140, 4, 0x6, 1, .unsigned 4, .ro, 0, false, .val 0, 0, 4294967295, 0xFFFFFFFF⟩,
  ⟨0x7140, 4, 0x7, 1, .unsigned 4, .ro, 0, false, .val 0, 0, 4294967295, 0xFFFFFFFF⟩]

/-- Rows of the dictionary, part 11. -/
def objRows11 : List ObjRow := [
  ⟨0x7140, 4, 0x8, 1, .unsigned 4, .ro, 0, false, .val 0, 0, 4294967295, 0xFFFFFFFF⟩,
  ⟨0x7140, 4, 0x9, 1, .unsigned 8, .ro, 0, false, .val 0, 0, 18446744073709551615, 0xFFFFFFFFFFFFFFFF⟩,
  ⟨0x7140, 4, 0xA, 1, .unsigned 4, .ro, 0, false, .val 0, 0, 4294967295, 0xFFFFFFFF⟩,
  ⟨0x7140, 4, 0xB, 1, .unsigned 4, .ro, 0, false, .val 0, 0, 4294967295, 0xFFFFFFFF⟩,
  ⟨0x7150, 16, 0x1, 1, .unsigned 4, .ro, 0, false, .val 0, 0, 4294967295, 0xFFFFFFFF⟩,
  ⟨0x7150, 16, 0x2, 1, .unsigned 4, .ro, 0, false, .val 0, 0, 4294967295, 0xFFFFFFFF⟩,
  ⟨0x7150, 16, 0x3, 1, .unsigned 4, .ro, 0, false, .val 0, 0, 4294967295, 0xFFFFFFFF⟩,
  ⟨0x7150, 16, 0x4, 1, .unsigned 4, .ro, 0, false, .val 0, 0, 4294967295, 0xFFFFFFFF⟩,
  ⟨0x7150, 16, 0x5, 1, .unsigned 4, .ro, 0, false, .val 0, 0, 4294967295, 0xFFFFFFFF⟩,
  ⟨0x7150, 16, 0x6, 1, .unsigned 4, .ro, 0, false, .val 0, 0, 4294967295, 0xFFFFFFFF⟩,
  ⟨0x1000, 1, 0x0, 1, .unsigned 4, .ro, 0, false, .val 0, 0, 4294967295, 0xFFFFFFFF⟩,
  ⟨0x1001, 1, 0x0, 1, .unsigned 1, .ro, 0, false, .val 0, 0, 255, 0xFF⟩,
  ⟨0x1008, 1, 0x0, 1, .visible, .ro, 0, false, .val 0, 0, 0, 0x0⟩,
  ⟨0x1009, 1, 0x0, 1, .visible, .ro, 0, false, .val 0, 0, 0, 0x0⟩,
  ⟨0x100A, 1, 0x0, 1, .visible, .ro, 0, false, .val 0, 0, 0, 0x0⟩,
  ⟨0x1018, 1, 0x1, 1, .unsigned 4, .ro, 0, false, .val 2898, 0, 4294967295, 0xFFFFFFFF⟩,
  ⟨0x1018, 1, 0x2, 1, .unsigned 4, .ro, 0, false, .val 9568, 0, 4294967295, 0xFFFFFFFF⟩,
  ⟨0x1018, 1, 0x3, 1, .unsigned 4, .ro, 0, false, .val 10551296, 0, 4294967295, 0xFFFFFFFF⟩,
  ⟨0x1018, 1, 0x4, 1, .unsigned 4, .ro, 0, false, .val 0, 0, 4294967295, 0xFFFFFFFF⟩,
  ⟨0x1021, 1, 0x0, 1, .domain, .ro, 0, false, .val 0, 0, 0, 0x0⟩,
  ⟨0x1022, 1, 0x0, 1, .unsigned 1, .ro, 0, false, .val 0, 0, 255, 0xFF⟩,
  ⟨0x1100, 1, 0x1, 1, .unsigned 8, .ro, 0, false, .val 0, 0, 18446744073709551615, 0xFFFFFFFFFFFFFFFF⟩,
  ⟨0x1100, 1, 0x2, 1, .unsigned 4, .ro, 0, false, .val 0, 0, 4294967295, 0xFFFFFFFF⟩,
  ⟨0x1100, 1, 0x3, 1, .unsigned 2, .ro, 0, false, .val 0, 0, 65535, 0xFFFF⟩,
  ⟨0x1010, 1, 0x1, 1, .unsigned 4, .rw, 2, false, .val 1, 0, 4294967295, 0xFFFFFFFF⟩,
  ⟨0x1011, 1, 0x1, 1, .unsigned 4, .rw, 3, false, .val 1, 0, 4294967295, 0xFFFFFFFF⟩,
  ⟨0x1D00, 1, 0x1, 1, .unsigned 1, .rw, 3, false, .val 2, 0, 3, 0xFF⟩,
  ⟨0x1D00, 1, 0x2, 1, .unsigned 1, .rw, 3, false, .val 3, 0, 3, 0xFF⟩,
  ⟨0x1D00, 1, 0x3, 1, .unsigned 1, .rw, 2, false, .val 2, 0, 3, 0xFF⟩,
  ⟨0x1D00, 1, 0x4, 1, .unsigned 1, .rw, 2, false, .val 1, 0, 4, 0xFF⟩,
  ⟨0x1D01, 1, 0x1, 1, .unsigned 1, .ro, 0, false, .val 0, 0, 255, 0xFF⟩,
  ⟨0x1D01, 1, 0x2, 1, .unsigned 4, .ro, 0, false, .val 0, 0, 4294967295, 0xFFFFFFFF⟩,
  ⟨0x1D01, 1, 0x3, 1, .unsigned 2, .ro, 0, false, .val 0, 0, 65535, 0xFFFF⟩,
  ⟨0x1E00, 8, 0x1, 1, .boolean, .rw, 3, false, .val 0, 0, 1, 0x1⟩,
  ⟨0x1E00, 8, 0x2, 1, .unsigned 2, .rw, 3, false, .plus 1015, 993, 1023, 0xFFFF⟩,
  ⟨0x1E00, 8, 0x3, 1, .unsigned 1, .rw, 3, false, .val 0, 0, 3, 0xFF⟩,
  ⟨0x1E10, 8, 0x1, 1, .unsigned 4, .ro, 0, false, .val 0, 0, 4294967295, 0xFFFFFFFF⟩,
  ⟨0x1E10, 8, 0x2, 1, .unsigned 4, .ro, 0, false, .val 0, 0, 4294967295, 0xFFFFFFFF⟩,
  ⟨0x1E10, 8, 0x3, 1, .unsigned 4, .ro, 0, false, .val 0, 0, 4294967295, 0xFFFFFFFF⟩,
  ⟨0x1E10, 8, 0x4, 1, .unsigned 4, .ro, 0, false, .val 0, 0, 4294967295, 0xFFFFFFFF⟩]

/-- Rows of the dictionary, part 12. -/
def objRows12 : List ObjRow := [
  ⟨0x1E10, 8, 0x5, 1, .unsigned 4, .ro, 0, false, .val 0, 0, 4294967295, 0xFFFFFFFF⟩,
  ⟨0x1E20, 1, 0x1, 1, .unsigned 4, .ro, 0, false, .val 0, 0, 4294967295, 0xFFFFFFFF⟩,
  ⟨0x2000, 1, 0x1, 1, .unsigned 1, .ro, 0, false, .val 0, 0, 255, 0xFF⟩,
  ⟨0x2000, 1, 0x2, 1, .unsigned 1, .ro, 0, false, .val 0, 0, 255, 0xFF⟩,
  ⟨0x2000, 1, 0x3, 1, .unsigned 1, .ro, 0, false, .val 0, 0, 255, 0xFF⟩,
  ⟨0x2000, 1, 0x4, 1, .unsigned 4, .ro, 2, false, .val 0, 0, 4294967295, 0xFFFFFFFF⟩,
  ⟨0x2000, 1, 0x5, 1, .unsigned 4, .ro, 0, false, .val 0, 0, 4294967295, 0xFFFFFFFF⟩,
  ⟨0x2001, 1, 0x1, 1, .unsigned 4, .wo, 2, false, .val 0, 0, 4294967295, 0xFFFFFFFF⟩,
  ⟨0x2002, 1, 0x1, 1, .unsigned 1, .ro, 0, false, .val 0, 0, 255, 0xFF⟩,
  ⟨0x2002, 1, 0x2, 1, .unsigned 4, .ro, 0, false, .val 0, 0, 4294967295, 0xFFFFFFFF⟩,
  ⟨0x2002, 1, 0x3, 1, .unsigned 4, .ro, 0, false, .val 0, 0, 4294967295, 0xFFFFFFFF⟩,
  ⟨0x2002, 1, 0x4, 1, .unsigned 4, .ro, 0, false, .val 0, 0, 4294967295, 0xFFFFFFFF⟩,
  ⟨0x2002, 1, 0x5, 1, .unsigned 4, .ro, 0, false, .val 0, 0, 4294967295, 0xFFFFFFFF⟩,
  ⟨0x2010, 1, 0x1, 1, .unsigned 8, .ro, 0, false, .val 0, 0, 18446744073709551615, 0xFFFFFFFFFFFFFFFF⟩,
  ⟨0x9000, 1, 0x1, 1, .boolean, .rw, 2, false, .val 0, 0, 1, 0x1⟩,
  ⟨0x9000, 1, 0x2, 1, .boolean, .rw, 2, false, .val 0, 0, 1, 0x1⟩,
  ⟨0x9000, 1, 0x3, 1, .unsigned 4, .rw, 2, false, .val 10000, 1, 100000, 0xFFFFFFFF⟩,
  ⟨0x9000, 1, 0x4, 1, .unsigned 4, .ro, 2, true, .val 0, 0, 4294967295, 0xFFFFFFFF⟩,
  ⟨0x9000, 1, 0x5, 1, .unsigned 4, .ro, 2, true, .val 0, 0, 4294967295, 0xFFFFFFFF⟩,
  ⟨0x9000, 1, 0x6, 1, .octets 784, .ro, 2, true, .val 0, 0, 0, 0x0⟩,
  ⟨0x9000, 1, 0x7, 1, .domain, .ro, 2, true, .val 0, 0, 0, 0x0⟩,
  ⟨0x9001, 1, 0x1, 1, .boolean, .rw, 2, false, .val 0, 0, 1, 0x1⟩,
  ⟨0x9001, 1, 0x2, 1, .unsigned 1, .rw, 2, false, .val 11, 0, 11, 0xFF⟩,
  ⟨0x9001, 1, 0x3, 1, .unsigned 2, .rw, 2, false, .val 1024, 1, 65535, 0xFFFF⟩,
  ⟨0x9001, 1, 0x4, 1, .unsigned 4, .ro, 2, true, .val 0, 0, 4294967295, 0xFFFFFFFF⟩,
  ⟨0x9001, 1, 0x5, 1, .boolean, .ro, 2, true, .val 0, 0, 1, 0x1⟩,
  ⟨0x9001, 1, 0x6, 1, .domain, .ro, 2, true, .val 0, 0, 0, 0x0⟩,
  ⟨0x9010, 12, 0x1, 8, .unsigned 2, .rw, 2, false, .val 3840, 0, 65535, 0x1FFF⟩,
  ⟨0x9010, 12, 0x9, 1, .boolean, .wo, 2, false, .val 0, 0, 1, 0x1⟩,
  ⟨0x9020, 12, 0x1, 1, .octets 16, .ro, 2, true, .val 0, 0, 0, 0x0⟩,
  ⟨0x9020, 12, 0x2, 8, .octets 16, .ro, 2, true, .val 0, 0, 0, 0x0⟩,
  ⟨0x2003, 1, 0x1, 1, .unsigned 4, .ro, 0, false, .val 0, 0, 4294967295, 0xFFFFFFFF⟩,
  ⟨0x2003, 1, 0x2, 1, .unsigned 1, .ro, 0, false, .val 0, 0, 255, 0xFF⟩,
  ⟨0x2003, 1, 0x3, 1, .unsigned 1, .ro, 0, false, .val 0, 0, 255, 0xFF⟩,
  ⟨0x2003, 1, 0x4, 1, .unsigned 2, .ro, 0, false, .val 0, 0, 65535, 0xFFFF⟩,
  ⟨0xA030, 1, 0x1, 1, .unsigned 1, .wo, 2, false, .val 0, 0, 255, 0xFF⟩,
  ⟨0xA030, 1, 0x2, 1, .integer 2, .ro, 0, false, .val 32768, -32768, 32767, 0xFFFF⟩,
  ⟨0xA030, 1, 0x3, 1, .unsigned 1, .ro, 0, false, .val 0, 0, 255, 0xFF⟩]

/-- Every row of the dictionary. -/
def objRows : List ObjRow :=
  objRows1 ++ objRows2 ++ objRows3 ++ objRows4 ++ objRows5 ++ objRows6 ++ objRows7 ++ objRows8 ++ objRows9 ++ objRows10 ++ objRows11 ++ objRows12

/-- Row `r` holds index `idx`. -/
def ObjRow.hasIndex (r : ObjRow) (idx : Nat) : Bool := decide (r.base ≤ idx) && decide (idx < r.base + r.count)

/-- Row `r` holds entry `idx:sub`. -/
def ObjRow.has (r : ObjRow) (idx sub : Nat) : Bool :=
  r.hasIndex idx && decide (r.sub ≤ sub) && decide (sub < r.sub + r.subs)

/-- The row of entry `idx:sub` (R427). -/
def objRow? (idx sub : Nat) : Option ObjRow := objRows.find? fun r => r.has idx sub

/-- The running firmware defines index `idx` (R427). -/
def objIndex? (idx : Nat) : Bool := objRows.any fun r => r.hasIndex idx

/-- The default of the register with key `key`. -/
def objDefault (key : Nat) : Nat :=
  match objRow? (key / 256) (key % 256) with
  | some r => r.dflt.value (key / 256 - r.base)
  | none => 0

end Sys2Proof.Machine
end

