-- ==== Sys2Proof/Machine/State.lean ====
section
/-! DEFINITION. The state of the device as plain data, the faults and refusals, and the state after reset (R490). Each
field's docstring names its width, its rule in the spec and its reset value. -/

namespace Sys2Proof.Machine

/-- The run state of the device: held by RESET_N, in an internal reset hold, running, or in recovery mode
(R345, R483, R485, R488). -/
inductive Phase where
  | held | hold | running | recovery
  deriving DecidableEq, Repr

/-- The memory error that halted a core, for the reset cause (R23, R447). -/
structure MemErr where
  /-- MEMORY of R447: 1 working, 2 queue, 3 core memory; 2 bits; 14 R447; reset 0 -/
  memory : Nat
  /-- DETAIL of R447: word offset or queue number; 32 bits; 14 R447; reset 0 -/
  detail : Nat
  deriving DecidableEq, Repr

/-- Boot and reset control (C0 and the T16 logic). -/
structure Sys where
  /-- run state; 4 values; 10 R344, R345, 16 R485; reset running (the end of boot, R490) -/
  phase : Phase
  /-- watchdog of core c: the tick at which it expires; 8 × tick; 01 R26, 16 R489; reset 100 ms after boot -/
  wdDue : Tbl Nat
  /-- cores halted by an uncorrectable error; 8 entries; 01 R23; reset none -/
  halted : Tbl MemErr
  /-- the scheduled reset of the RESET object: due tick and DETAIL; 14 R448; reset none -/
  resetDue : Option (Nat × Nat)
  /-- sampled CANID[6:0]; 7 bits; 14 R436, 17 R508; reset 0, its pull-downs (DEDUCED, entry 6) -/
  canId : Nat
  /-- CAN_LEVEL and SPI_LEVEL override before the store is applied and in recovery (R434): true while in force;
  1 bit; 14 R434; reset false -/
  bootLevels : Bool
  /-- BOOT_ID, the reset generation; 4 bits; 07 R192, 10 R341; reset DESIGN CHOICE 0, entry 6 -/
  bootId : Nat
  /-- sections of the running image in core memory: core, offset and bytes; 01 R20, 10 R343, R344; reset those of entry 7's image -/
  loaded : List (Nat × Nat × List Byte)
  deriving DecidableEq, Repr

/-- Levels and edges of the balls that hold state of their own. -/
structure Pins where
  /-- level of RESET_N; 1 bit; 16 R483; reset high -/
  resetN : Bool
  /-- level of TRST_N; 1 bit; 16 R484, 17 R508; reset low, its pull-down (DEDUCED, entry 6) -/
  trstN : Bool
  /-- level of MCTRIG; 1 bit; 12 R386, 17 R508; reset low (its pull-down) -/
  mctrig : Bool
  /-- level of PPS_OUT; 1 bit; 13 R424, 16 R484; reset low -/
  ppsOut : Bool
  /-- level of CANTX: true while it is held recessive (port disabled, bus-off or reset); 14 R436, 16 R484; reset true -/
  canTxRecessive : Bool
  deriving DecidableEq, Repr

/-- An open multi-part transfer of one path (R432, R437, R442). -/
structure Xfer where
  /-- a write (true) or a read; 1 bit; 14 R432; reset — -/
  write : Bool
  /-- index of the object; 16 bits; 14 R432; reset — -/
  idx : Nat
  /-- subindex; 8 bits; 14 R432; reset — -/
  sub : Nat
  /-- stated total length of a write, length of the snapshot of a read; 32 bits; 14 R432; reset — -/
  total : Nat
  /-- snapshot of a read, bytes gathered of a write; 14 R432; reset — -/
  data : List Byte
  /-- bytes already served of a read; 14 R432; reset — -/
  pos : Nat
  /-- the next segment's toggle bit; 1 bit; 14 R437; reset — -/
  toggle : Bool
  /-- tick at which the transfer times out; 14 R432, R438; reset — -/
  due : Nat
  deriving DecidableEq, Repr

/-- A sliding window of accepted sequence numbers: the highest and those of the 63 below it that were accepted. -/
structure SeqWindow where
  /-- highest accepted number, none when the window is empty; 64 bits; 13 R411, 14 R440; reset none -/
  high : Option Nat
  /-- accepted numbers among the 63 below the highest; 13 R411, 14 R440; reset none -/
  seen : List Nat
  deriving DecidableEq, Repr

/-- A kept management response (R440 step 5). -/
structure Kept where
  /-- SEQ of the request; 64 bits; 14 R440; reset — -/
  seq : Nat
  /-- its CMAC; 128 bits; 14 R440; reset — -/
  cmac : List Byte
  /-- the response sent; 14 R440; reset — -/
  response : List Byte
  deriving DecidableEq, Repr

/-- What a delayed write waits for: the flash (R449), or fresh masks of the vault (R336). -/
inductive Waiting where
  | flash | masks
  deriving DecidableEq, Repr

/-- The response that a delayed write owes its path (R449): none, a CAN FD client, the mailbox, or a management principal with its slot
and the key that verified its request. -/
inductive Reply where
  | bare
  | can (idx sub : Nat) (ok : List Byte)
  | mailbox (head : List Byte)
  | udp (d : MgmtDatagram) (m seq slot : Nat) (key : List Byte)
  deriving DecidableEq, Repr

/-- The dictionary server and its transports. -/
structure Mgmt where
  /-- outcome of the last dictionary access: abort code, 0 when it succeeded; 32 bits; 14 R430; reset 0 -/
  lastAbort : Nat
  /-- bytes the last read returned; 14 R431; reset none -/
  lastData : List Byte
  /-- CAN FD bit-rate codes in force, nominal and data (read at reset); 14 R435; reset 2, 1 -/
  canRates : Nat × Nat
  /-- the CAN FD port is bus-off; 1 bit; 14 R435; reset false -/
  busOff : Bool
  /-- the last frame sent on CAN FD, 64 bytes; 14 R436, R437; reset none -/
  canTx : List Byte
  /-- open transfer of the CAN FD client; 14 R432; reset none -/
  canXfer : Option Xfer
  /-- open transfer of UDP principal m; 14 R432; reset none -/
  udpXfer : Tbl Xfer
  /-- open transfer of the SPI mailbox; 14 R432; reset none -/
  mbxXfer : Option Xfer
  /-- replay window of principal m; 14 R440; reset empty -/
  windows : Tbl SeqWindow
  /-- the last 8 accepted requests of principal m with their responses; 14 R440; reset none -/
  kept : Tbl (List Kept)
  /-- hold register of the SPI window: the pair's address and the held high half; 14 R445; reset empty -/
  spiHold : Option (Nat × Nat)
  /-- WIN_STATUS TORN; 1 bit; 14 R444; reset 0 -/
  torn : Bool
  /-- WIN_STATUS MBX_BUSY; 1 bit; 14 R446; reset 0 -/
  mbxBusy : Bool
  /-- WIN_STATUS MBX_DONE; 1 bit; 14 R446; reset 0 -/
  mbxDone : Bool
  /-- MBX_RESULT; 32 bits; 14 R444; reset 0 -/
  mbxResult : Nat
  /-- length of the submitted record; 14 R446; reset 0 -/
  mbxLen : Nat
  /-- the 4,096 mailbox bytes at 0x1000, unlisted bytes 0; 14 R444; reset DESIGN CHOICE 0, entry 6 -/
  mailbox : Tbl Byte
  /-- words shifted out on SPI_MISO by the last SPI read; 32 bits each; 14 R443; reset none -/
  spiOut : List Nat
  /-- responses of delayed writes with what each waits for, oldest first; 14 R449; reset none -/
  owed : List (Waiting × Reply)
  deriving DecidableEq, Repr

/-- One record of a store copy (R449). -/
structure StoreRec where
  /-- INDEX; 16 bits; 14 R449; reset — -/
  idx : Nat
  /-- SUB; 8 bits; 14 R449; reset — -/
  sub : Nat
  /-- the value; 14 R449; reset — -/
  value : List Byte
  deriving DecidableEq, Repr

/-- One of the two store copies in flash (R449). -/
structure StoreCopy where
  /-- every sector of the copy passes its checks; 1 bit; 14 R450, R451; reset — -/
  valid : Bool
  /-- STORE_SEQ of the copy; 32 bits; 14 R449; reset — -/
  seq : Nat
  /-- FW_VERSION that wrote it; 32 bits; 14 R449; reset — -/
  fw : Nat
  /-- its records in order; 14 R449; reset — -/
  records : List StoreRec
  deriving DecidableEq, Repr

/-- A ledger endpoint record: the ledger fields of R339. -/
structure EpRec where
  /-- OP: entry set (true) or entry freed; 10 R339; reset — -/
  isSet : Bool
  /-- ENTRY: endpoint table index; 17 bits; 10 R339; reset — -/
  entry : Nat
  /-- EUI64; 64 bits; 10 R339; reset — -/
  eui : Nat
  /-- SHORT_ADDR; 16 bits; 10 R339; reset — -/
  addr : Nat
  /-- SEG; 6 bits; 10 R339; reset — -/
  seg : Nat
  /-- STATE; 3 bits; 10 R339; reset — -/
  state : Nat
  /-- LR_MODE; 2 bits; 10 R339; reset — -/
  lrMode : Nat
  /-- LANE_SF_M7; 3 bits; 10 R339; reset — -/
  laneSf : Nat
  /-- LR_SF_M7; 3 bits; 10 R339; reset — -/
  lrSf : Nat
  /-- B_MAX; 4 bits; 10 R339; reset — -/
  bMax : Nat
  /-- RATE_MAX; 3 bits; 10 R339; reset — -/
  rateMax : Nat
  /-- DRIFT_BOUND; 8 bits; 10 R339; reset — -/
  driftBound : Nat
  /-- LEASE_END; 32 bits; 10 R339; reset — -/
  leaseEnd : Nat
  /-- WAKE_PERIOD; 16 bits; 10 R339; reset — -/
  wakePeriod : Nat
  /-- WAKE_PHASE; 16 bits; 10 R339; reset — -/
  wakePhase : Nat
  /-- WAKE_SLOTS; 8 bits; 10 R339; reset — -/
  wakeSlots : Nat
  /-- CHECK_INTERVAL; 8 bits; 10 R339; reset — -/
  checkInterval : Nat
  deriving DecidableEq, Repr

/-- A reservation record (R339). -/
structure ResRec where
  /-- SLOT; 16 bits; 10 R339; reset — -/
  slot : Nat
  /-- FC_END; 32 bits; 10 R339; reset — -/
  fcEnd : Nat
  /-- FINGERPRINT; 64 bits; 10 R339; reset — -/
  fingerprint : Nat
  deriving DecidableEq, Repr

/-- An admission record (R319): EUI-64 and the wrapped join key, whose unwrap outcome the world gives. -/
structure AdmRec where
  /-- EUI64; 64 bits; 10 R319; reset — -/
  eui : Nat
  /-- WRAPPED_JK, 40 bytes; 10 R319; reset — -/
  wrapped : List Byte
  deriving DecidableEq, Repr

/-- KIND of a ledger sector with its content (R338, R339). -/
inductive SectorBody where
  | snapshot (index total id : Nat) (recs : List EpRec)
  | journal (recs : List EpRec)
  | admission (recs : List AdmRec)
  | reservation (recs : List ResRec)
  deriving DecidableEq, Repr

/-- A ledger sector that is not erased (R337, R338). -/
structure LedgerSector where
  /-- CRC64 and MAGIC pass; 1 bit; 10 R341; reset — -/
  good : Bool
  /-- SECTOR_SEQ; 64 bits; 10 R338; reset — -/
  seq : Nat
  /-- BOOT_ID; 4 bits; 10 R338; reset — -/
  bootId : Nat
  /-- KIND and records; 10 R338, R339; reset — -/
  body : SectorBody
  deriving DecidableEq, Repr

/-- A flash program or erase that has been started and not completed (R339, R340, R348, R449). -/
inductive FlashOp where
  | image (first : Nat) (sectors : List (List Byte))
  | store (copy : Nat) (c : StoreCopy)
  | restoreMark
  | reservation (r : ResRec)
  | journal (recs : List EpRec) (snapshot : Bool)
  | admission (recs : List AdmRec)
  deriving DecidableEq, Repr

/-- The xSPI flash and the fuses, which no reset changes (R491). -/
structure Flash where
  /-- image sectors by number (slot A 0–4,095, slot B 4,096–8,191), unlisted sectors erased; 4,096 bytes each;
  10 R342, R348; reset DESIGN CHOICE one valid header in slot A, entry 7 -/
  image : Tbl (List Byte)
  /-- the two store copies; 14 R449; reset DESIGN CHOICE none, entry 7 -/
  stores : Tbl StoreCopy
  /-- ledger sectors that are not erased, by sector number 0–4,095; 10 R337; reset DESIGN CHOICE none, entry 7 -/
  ledger : Tbl LedgerSector
  /-- flash operations in progress, oldest first; 10 R340, R348; reset none -/
  ops : List FlashOp
  /-- ledger changes not yet journalled, oldest first; 10 R340; reset none -/
  journal : List EpRec
  /-- device EUI-64 (fused); 64 bits; 14 R453; reset DESIGN CHOICE 0, entry 6 -/
  eui64 : Nat
  /-- MAC address base (fused); 48 bits; 13 R425; reset DESIGN CHOICE 0, entry 6 -/
  macBase : Nat
  /-- blown bits of MIN_SECURITY_VERSION (fuse); 0–64; 10 R346; reset DESIGN CHOICE 0, entry 6 -/
  minVersion : Nat
  /-- PROVISION_KEY (fused); 32 bytes; 10 R334; reset DESIGN CHOICE all 0, entry 6 -/
  provisionKey : List Byte
  /-- DEVICE_KEY (fused); 32 bytes; 10 R334, R337; reset DESIGN CHOICE all 0, entry 6 -/
  deviceKey : List Byte
  /-- IMAGE_KEY (fused); 32 bytes; 10 R334, R342; reset DESIGN CHOICE all 0, entry 6 -/
  imageKey : List Byte
  /-- ROOT_HASH_0 and ROOT_HASH_1 (fused); 2 × 48 bytes; 10 R334, R344; reset DESIGN CHOICE the hash of the model's own key and all 0, entry 7 -/
  rootHash : List (List Byte)
  /-- ROOT_REVOKED (fuse), 2 bits; 10 R346; reset DESIGN CHOICE 0, entry 6 -/
  rootRevoked : Nat
  deriving DecidableEq, Repr

/-- What a key slot holds beside its dictionary entries (R305, R309, R312). -/
structure KeySlot where
  /-- the key; 16 or 32 bytes; 10 R305; reset empty -/
  key : List Byte
  /-- USE_LIMIT latched at the load; 32 bits; 10 R307; reset 0 -/
  limit : Nat
  /-- end of the frame-counter block reserved in the ledger; 10 R312; reset 0 -/
  resEnd : Nat
  /-- the earlier key, kept while a message runs under it (the shadow); 10 R309; reset empty -/
  oldKey : List Byte
  deriving DecidableEq, Repr

/-- A message on a line cipher engine (R325, R326, R328, R331). -/
structure CipherMsg where
  /-- its descriptor; 10 R324, R328; reset — -/
  req : CipherReq
  /-- the engine's copy of the key; 10 R309, R326; reset — -/
  key : List Byte
  /-- it runs under a key that has since been replaced; 1 bit; 10 R309; reset — -/
  old : Bool
  /-- frame counter taken by an encryption; 32 bits; 10 R311; reset — -/
  fc : Nat
  /-- order in which messages started; 10 R325; reset — -/
  order : Nat
  /-- AES blocks computed; 10 R326, R332; reset — -/
  blocks : Nat
  /-- output bytes released so far; 32 bits; 10 R331; reset — -/
  released : Nat
  /-- plaintext bytes held in the 16 KiB hold buffer; 10 R328; reset — -/
  held : Nat
  /-- tick at which the descriptor was accepted; 15 R473; reset — -/
  issueTick : Nat
  /-- the engine of the seam's owner was taken from the pool; 1 bit; 10 R325; reset — -/
  pooled : Bool
  deriving DecidableEq, Repr

/-- One of the 64 line cipher engines (R324). -/
structure Engine where
  /-- OWNER; 8 bits; 10 R324; reset 0xFF -/
  owner : Nat
  /-- the running message (BUSY, CLASS); 10 R324; reset none -/
  running : Option CipherMsg
  /-- the seam: the suspended message with its owner and class; 10 R324, R326; reset none -/
  seam : Option CipherMsg
  /-- SEAM_OWNER; 8 bits; 10 R324; reset 0xFF -/
  seamOwner : Nat
  /-- a release was written during a message; 1 bit; 10 R324; reset false -/
  releasing : Bool
  /-- LOCKED_OUT; 1 bit; 10 R324, R333; reset 0 -/
  lockedOut : Bool
  /-- the owner has it from the pool allocator and holds it for one message; 1 bit; 10 R324, R325; reset false -/
  pooled : Bool
  deriving DecidableEq, Repr

/-- Key slots, cipher engines, the vault and admission. -/
structure Keys where
  /-- key slots 0–1,023, unlisted EMPTY; 10 R304; reset all EMPTY -/
  slots : Tbl KeySlot
  /-- line cipher engines 0–63, unlisted free; 10 R323; reset all free -/
  engines : Tbl Engine
  /-- requests that wait for an engine, oldest first; 10 R325; reset none -/
  waiting : List CipherReq
  /-- number of messages started so far, for the start order; 10 R325; reset 0 -/
  started : Nat
  /-- the vault is LOCKED_OUT; 1 bit; 10 R335; reset false -/
  vaultLocked : Bool
  /-- the random source is blocked (ENTROPY_FAIL); 1 bit; 10 R336; reset false -/
  entropyFail : Bool
  /-- vault operations that wait for fresh masks, oldest first; 10 R336; reset none -/
  vaultWaiting : List VaultJob
  /-- result of the last vault operation that was released; bytes; 10 R335; reset empty -/
  vaultResult : List Byte
  /-- admission records by EUI-64; 10 R318, R319; reset none -/
  admission : Tbl (List Byte)
  /-- LEDGER_ENABLE in force (read at reset); 1 bit; 10 R337; reset false -/
  ledgerOn : Bool
  deriving DecidableEq, Repr

/-- A running check unit: the configuration captured at GO (R356). -/
structure CuRun where
  /-- MODE: GENERATE (false) or CHECK; 11 R372; reset — -/
  check : Bool
  /-- WIDTH; 1–64; 11 R351; reset — -/
  width : Nat
  /-- POLY; 64 bits; 11 R351; reset — -/
  poly : Nat
  /-- INIT; 64 bits; 11 R351; reset — -/
  init : Nat
  /-- XOR_OUT; 64 bits; 11 R351; reset — -/
  xorOut : Nat
  /-- REFLECT_IN; 1 bit; 11 R351; reset — -/
  reflIn : Bool
  /-- REFLECT_OUT; 1 bit; 11 R351; reset — -/
  reflOut : Bool
  /-- APPEND_ORDER: big-endian; 1 bit; 11 R352; reset — -/
  big : Bool
  /-- START; 32 bits; 11 R372; reset — -/
  start : Nat
  /-- LENGTH; 32 bits; 11 R372; reset — -/
  len : Nat
  /-- the scan met an uncorrectable word; 1 bit; 11 R358; reset — -/
  memError : Bool
  /-- tick of the write of GO; 15 R474; reset — -/
  issued : Nat
  deriving DecidableEq, Repr

/-- One of the 256 hardware queues (R363, R364). -/
structure HwQueue where
  /-- the words held with their end marks, oldest first; 64 bits + 1 each; 11 R364; reset empty -/
  words : List (Nat × Bool)
  /-- writes are ignored up to the next end mark (R366); 1 bit; reset false -/
  dropping : Bool
  /-- a read stalls on the empty queue; 1 bit; 11 R368; reset false -/
  stalled : Bool
  /-- the word the last completed read returned; 11 R368; reset none -/
  lastRead : Option (Nat × Bool)
  /-- packets that producers hold back for want of space, oldest first; 11 R365; reset none -/
  heldBack : List (List (Nat × Bool))
  deriving DecidableEq, Repr

/-- Check units, hardware queues and memory condition. -/
structure Svc where
  /-- running check units (STATUS BUSY) with their captured configuration; 8; 11 R356; reset none -/
  runs : Tbl CuRun
  /-- hardware queues 0–255, unlisted empty; 11 R363; reset all empty -/
  queues : Tbl HwQueue
  /-- retired frame buffers, by number; 01 R23; reset none -/
  retiredBuffers : List Nat
  deriving DecidableEq, Repr

/-- A threshold of a mains unit (R396, R397). -/
structure Thresh where
  /-- STATE: ABOVE (true) or BELOW; 1 bit; 12 R397; reset BELOW -/
  above : Bool
  /-- VALID: a value has been compared since restart; 1 bit; 12 R397; reset 0 -/
  valid : Bool
  /-- ABOVE_SEEN; 1 bit, sticky; 12 R397; reset 0 -/
  aboveSeen : Bool
  /-- BELOW_SEEN; 1 bit, sticky; 12 R397; reset 0 -/
  belowSeen : Bool
  /-- COUNT; 16 bits; 12 R397; reset 0 -/
  count : Nat
  /-- MAX; INTEGER32; 12 R397; reset 0 -/
  max : Int
  /-- MIN; INTEGER32; 12 R397; reset 0 -/
  min : Int
  /-- the latest value compared; INTEGER32; 12 R397; reset 0 -/
  latest : Int
  /-- crossings since the previous alarm of the unit; 16 bits; 12 R398; reset 0 -/
  sinceAlarm : Nat
  deriving DecidableEq, Repr

/-- A threshold alarm (R398), before it becomes a REPORT payload. -/
structure Alarm where
  /-- UNIT; 8 bits; 12 R398; reset — -/
  unit : Nat
  /-- THRESHOLD; 8 bits; 12 R398; reset — -/
  th : Nat
  /-- DIRECTION: down (true) or up; 12 R398; reset — -/
  down : Bool
  /-- FLAGS; 8 bits; 12 R398; reset — -/
  flags : Nat
  /-- VALUE; INTEGER32; 12 R398; reset — -/
  value : Int
  /-- LEVEL; INTEGER32; 12 R398; reset — -/
  level : Int
  /-- COUNT; 16 bits; 12 R398; reset — -/
  count : Nat
  /-- TIME_SEC and TIME_FRAC; 64 bits; 12 R398; reset — -/
  time : Nat
  deriving DecidableEq, Repr

/-- The configuration of a mains unit in force (R384, R385). -/
structure MainsCfg where
  /-- MODE; 0 OFF, 1 NATIVE, 2 SH240; 12 R376; reset 1 for MC0–MC7, else 0 -/
  mode : Nat
  /-- PATH; 0 WAVEFORM, 1 CYCLE; 12 R376; reset 0 -/
  path : Nat
  /-- ACQ; 0 CONTINUOUS, 1 TRIGGERED; 12 R376; reset 0 -/
  acq : Nat
  /-- INPUT_SEL; 0–5, 8–15; 12 R374; reset 0 -/
  input : Nat
  /-- AVG_LOG2; 0–8; 12 R382; reset 0 -/
  avg : Nat
  /-- SH240_PERIOD; 13–65,535 clocks; 12 R380; reset 16 -/
  period : Nat
  /-- PAIRED; 1 bit; 12 R381; reset FALSE -/
  paired : Bool
  /-- GROUPED; 1 bit; 12 R388; reset FALSE -/
  grouped : Bool
  /-- TRIG_SOURCE; 0–5; 12 R386; reset 0 -/
  source : Nat
  /-- TRIG_PARAM; 32 bits; 12 R386; reset 0 -/
  param : Nat
  /-- SCHED_START; 64 bits; 12 R399; reset 0 -/
  sched : Nat
  /-- TH_LEVEL_0, TH_LEVEL_1; INTEGER32; 12 R399; reset 0x7FFF_FFFF -/
  levels : Int × Int
  /-- TH_HYST_0, TH_HYST_1; 24 bits; 12 R399; reset 0 -/
  hysts : Nat × Nat
  /-- TH_SOURCE_0, TH_SOURCE_1; 12 R396; reset 0 -/
  thSources : Nat × Nat
  /-- TH_ALARM_0, TH_ALARM_1; 2 bits; 12 R398; reset 0 -/
  thAlarms : Nat × Nat
  /-- ALARM_HOLDOFF; ms; 12 R398; reset 1,000 -/
  holdoff : Nat
  /-- USER_STAGE; 0 none, 1 FIR, 2 biquads; 12 R389; reset 0 -/
  userStage : Nat
  /-- USER_COEF as INTEGER32 values; 12 R392; reset all 0 -/
  coef : List Int
  /-- SKEW_COMP; 1 bit; 12 R395; reset TRUE -/
  skew : Bool
  deriving DecidableEq, Repr

/-- One delivered waveform sample or result in WAVE_RING (R400). -/
structure WaveRec where
  /-- LATCH_TICK; 64 bits; 12 R394; reset — -/
  latch : Nat
  /-- the value; 24 bits; 12 R400; reset — -/
  value : Int
  /-- flag word; 16 bits; 12 R400; reset — -/
  flags : Nat
  deriving DecidableEq, Repr

/-- A mains converter unit with its filter chain. -/
structure MainsUnit where
  /-- configuration in force; 12 R384, R385; reset defaults of R399 -/
  cfg : MainsCfg
  /-- a triggered conversion is in progress; 1 bit; 12 R383; reset false -/
  busy : Bool
  /-- recognition edge e of the conversion in progress; tick; 12 R383; reset 0 -/
  edge : Nat
  /-- original recognition tick of its trigger; 64 bits; 12 R387; reset 0 -/
  trigTick : Nat
  /-- the conversion serves a pended trigger; 1 bit; 12 R387; reset false -/
  pended : Bool
  /-- the pending trigger: its recognition tick; 12 R387; reset none -/
  pending : Option Nat
  /-- sum of the averager; 48 bits; 12 R382; reset 0 -/
  sum : Int
  /-- results summed so far; 12 R382; reset 0 -/
  summed : Nat
  /-- LATCH_TICK of the averager's first member; 12 R394; reset 0 -/
  firstLatch : Nat
  /-- flags of the averager's members so far; 12 R378, R400; reset 0 -/
  sumFlags : Nat
  /-- end of the start-up delay: the first tick at which a dump, a window or a conversion counts; 12 R383, R384; reset DESIGN CHOICE from tick 0, entry 8 -/
  startAt : Nat
  /-- end of the latest cycle-integral window, or the latch instant of a triggered one; tick; 12 R379; reset 0 -/
  winEnd : Nat
  /-- the mains cycle of the latest window in CONTINUOUS; 12 R379; reset none -/
  lastWin : Option Nat
  /-- latch instant of the next SH-240 conversion, once one has been fixed; tick; 12 R380, R383; reset none -/
  latchNext : Option Nat
  /-- mains breakwater: number of the integrator dump on the 256-clock grid and the word, oldest first; up to 64; 01 R17, 12 R389; reset empty -/
  words : List (Nat × Nat)
  /-- number of the first dump that has not reached the breakwater; 12 R389; reset 0 -/
  nextDump : Nat
  /-- words in the combs, newest first; 4; 12 R389; reset all 0 -/
  combs : List Nat
  /-- words taken since the start-up delay, up to 68; 12 R384; reset 0 -/
  chain : Nat
  /-- stage 1 outputs in the compensation FIR, newest first; 64; 12 R389; reset all 0 -/
  compHist : List Int
  /-- saturations in stage 1 since the latest sample; 12 R391; reset 0 -/
  satNew : Nat
  /-- output samples of a user stage that are still UNSETTLED; 0–32; 12 R384, R385; reset 32 -/
  userWait : Nat
  /-- the instant represented by the first settled sample; tick; 12 R384; reset none -/
  settledAt : Option Nat
  /-- stage 2 samples for the phasor stage with the instants they represent, newest first; 12 R393, R395; reset empty -/
  wave : List (Nat × Int)
  /-- inputs of the user FIR, newest first; 31; 12 R391; reset all 0 -/
  firHist : List Int
  /-- x1, x2, y1, y2 of the four biquads; 12 R391; reset all 0 -/
  biquads : List (Int × Int × Int × Int)
  /-- the latest samples or results, oldest first, up to 1,024; 12 R400; reset empty -/
  ring : List WaveRec
  /-- the two thresholds; 12 R396; reset BELOW, not valid -/
  ths : Thresh × Thresh
  /-- end of the alarm hold-off; tick; 12 R398; reset none -/
  holdUntil : Option Nat
  /-- the latest crossing held during the hold-off; 12 R398; reset none -/
  heldAlarm : Option Alarm
  /-- last recognised schedule instant m; 12 R386, 13 R419; reset none -/
  lastSched : Option Nat
  deriving DecidableEq, Repr

/-- The mains converters. -/
structure Mains where
  /-- units MC0–MC63, unlisted in the state after reset; 12 R374; reset defaults -/
  units : Tbl MainsUnit
  /-- the group's pending trigger: its recognition tick; 12 R388; reset none -/
  groupPending : Option Nat
  /-- last recognised schedule instant of the group; 12 R388; reset none -/
  groupSched : Option Nat
  /-- last whole second that triggered PPS units; 12 R386, 13 R419; reset none -/
  lastPps : Option Nat
  /-- alarms that wait in Q254 for the transaction engine, oldest first; 12 R398; reset none -/
  alarms : List Alarm
  deriving DecidableEq, Repr

/-- A message on its way out of the device, with its bytes (R406). -/
inductive OutMsg where
  | northbound (session : Nat) (pri : Nat) (pktSeq : Nat) (bytes payload : List Byte)
  | domain (peer : Option Nat) (addr : List Byte) (bytes : List Byte)
  | management (principal : Nat) (addr : List Byte) (udpPort : Nat) (bytes : List Byte)
  | ptp (kind : PtpKind)
  | resolution (kind : ResolveKind)
  | echoReply
  deriving DecidableEq, Repr

/-- A frame in a port's transmit queue with its level of R406 (1 is highest). -/
structure TxItem where
  /-- priority level 1–8; 13 R406; reset — -/
  level : Nat
  /-- the message it carries; 13 R406; reset — -/
  msg : OutMsg
  deriving DecidableEq, Repr

/-- The port configuration in force since the link came up (R425). -/
structure PortCfg where
  /-- MAC_ADDR; 48 bits; 13 R425; reset fused base + p -/
  mac : Nat
  /-- IP_VERSION; 4 or 6; 13 R425; reset 6 -/
  ipVersion : Nat
  /-- VLAN_ID; 12 bits; 13 R425; reset 0 -/
  vlan : Nat
  /-- HOP_LIMIT; 8 bits; 13 R425; reset 64 -/
  hopLimit : Nat
  /-- IP_ADDR; 16 bytes; 13 R425; reset all 0 -/
  addr : List Byte
  /-- PREFIX_LEN; 8 bits; 13 R425; reset 64 -/
  prefixLen : Nat
  /-- GATEWAY; 16 bytes; 13 R425; reset all 0 -/
  gateway : List Byte
  /-- MAX_FRAME_BYTES; 16 bits; 13 R425; reset 9,216 -/
  maxFrame : Nat
  /-- NB_UDP_PORT; 16 bits; 13 R425; reset 47,010 -/
  nbUdp : Nat
  /-- MGMT_UDP_PORT; 16 bits; 13 R425; reset 47,011 -/
  mgmtUdp : Nat
  /-- DRV_UDP_PORT; 16 bits; 13 R425; reset 47,012 -/
  drvUdp : Nat
  /-- DOMAIN_GROUP; 16 bytes; 13 R425; reset ff15::4472 -/
  group : List Byte
  deriving DecidableEq, Repr

/-- A backhaul port (R401). -/
structure Port where
  /-- configuration in force; 13 R425; reset defaults -/
  cfg : Option PortCfg
  /-- frames waiting, in queue order; 13 R406; reset empty -/
  txq : List TxItem
  /-- the frame on the wire; 13 R406; reset none -/
  sending : Option TxItem
  /-- the frame that left last; 13 R406; reset none -/
  lastSent : Option TxItem
  /-- start tick of the current second of echo replies, and replies in it; 13 R407; reset 0, 0 -/
  echo : Nat × Nat
  deriving DecidableEq, Repr

/-- The backhaul ports and northbound sessions. -/
structure Backhaul where
  /-- ports 0–3; 13 R401; reset links down, queues empty -/
  ports : Tbl Port
  /-- LANE_MODE in force (read at reset); 0–6; 13 R401; reset 1 -/
  laneMode : Nat
  /-- LANE_MAP in force (read at reset); 16 bits; 13 R401; reset 0xE4E4 -/
  laneMap : Nat
  /-- TX_POLARITY, RX_POLARITY in force (read at reset); 4 bits each; 13 R401; reset 0 -/
  polarity : Nat × Nat
  /-- TX_PRESET in force (read at reset); 1–5; 13 R402; reset 1 -/
  preset : Nat
  /-- DOMAIN_PORT_SEL in force; 0–3; 13 R425; reset 0 -/
  domainPort : Nat
  /-- replay window of session k; 13 R411; reset empty -/
  windows : Tbl SeqWindow
  /-- northbound messages that wait for the transaction engine, oldest first: session and message; 13 R411; reset none -/
  inbox : List (Nat × List Byte)
  /-- messages that wait for a reserved frame counter: session, priority and message; 10 R312, 13 R410; reset none -/
  unreserved : List (Nat × Nat × List Byte)
  deriving DecidableEq, Repr

/-- What the PTP port knows of its master (R421). Time-stamps of the device are in 1/16 T0 tick at its reference plane with the
external delays applied (R422), times of the master in 2^-16 ns. -/
structure PtpClock where
  /-- sequence number and time-stamp of the last Sync, and its correction, that waits for its Follow_Up; 13 R421; reset none -/
  sync : Option (Nat × Int × Int)
  /-- time-stamp of the last Sync and the master's time of it with all corrections; 13 R421; reset none -/
  down : Option (Int × Int)
  /-- sequence number of the next delay request; 16 bits; 13 R421; reset 0 -/
  reqSeq : Nat
  /-- sequence number and time-stamp of the delay request that waits for its response; 13 R421; reset none -/
  req : Option (Nat × Int)
  /-- time-stamp of a peer delay response, and the peer's receipt time less corrections, that wait for its follow-up; 13 R421; reset none -/
  resp : Option (Int × Int)
  /-- mean path or link delay in units of 2^-40 tick; 13 R421; reset none -/
  delay : Option Int
  deriving DecidableEq, Repr

/-- Domain time and its disciplining (R415–R424). Domain time is counted in units of 2^-40 T0 tick. -/
structure TimeState where
  /-- base point t_b; tick; 13 R415; reset 0 -/
  baseTick : Nat
  /-- base point DT_b in units of 2^-40 tick; 13 R415; reset 0 -/
  baseDt : Nat
  /-- rate correction c in units of 2^-40; 13 R415; reset 0 -/
  c : Int
  /-- rate corrections of the last 64 s of tracking with the tick each took effect, newest first; 13 R417; reset none -/
  history : List (Nat × Int)
  /-- consecutive measurements within ±1 µs since the last step; 13 R418; reset 0 -/
  settled : Nat
  /-- a step has happened and settling is not complete; 1 bit; 13 R418; reset false -/
  settling : Bool
  /-- consecutive measurements beyond STEP_LIMIT; 13 R418; reset 0 -/
  bigRun : Nat
  /-- tick at which coasting began; 13 R417; reset none -/
  coastStart : Option Nat
  /-- COAST_LIMIT has passed while coasting; 1 bit; 13 R417; reset false -/
  coastOver : Bool
  /-- tick of the latest step; 13 R419; reset none -/
  stepTick : Option Nat
  /-- the second that TIME_SET gives the next PPS_IN edge; 13 R416; reset none -/
  nextPps : Option Nat
  /-- consecutive PPS_IN edges within their window; 13 R423; reset 0 -/
  ppsRun : Nat
  /-- tick of the last PPS_IN edge; 13 R423; reset none -/
  ppsLast : Option Nat
  /-- tick at which PPS_OUT falls; 13 R424; reset none -/
  ppsOutFall : Option Nat
  /-- log2 of the Sync and Announce intervals the master announces; 13 R417, R421; reset 0 -/
  intervals : Int × Int
  /-- the PTP port acts as master; 1 bit; 13 R421; reset false -/
  master : Bool
  /-- ticks of the last Sync and the last Announce of the master; 13 R417; reset none -/
  lastSync : Option Nat
  /-- tick of the last Announce of the master; 13 R417; reset none -/
  lastAnnounce : Option Nat
  /-- PTP gives no time: none has come or it is lost; 1 bit; 13 R417; reset true -/
  ptpLost : Bool
  /-- the last domain second that PPS_OUT marked; 13 R424; reset none -/
  ppsOutSec : Option Nat
  /-- sum of all steps since reset in units of 2^-40 tick; 13 R419; reset 0 -/
  stepSum : Int
  /-- what the PTP port knows of its master; 13 R421; reset nothing -/
  ptp : PtpClock
  deriving DecidableEq, Repr

/-- A counter bank (R464). -/
structure Bank where
  /-- tick at which TICKS was 0; 15 R464; reset 0 -/
  ticksBase : Nat
  /-- CTR_0–CTR_7, unlisted 0; 48 bits each; 15 R464; reset 0 -/
  ctrs : Tbl Nat
  /-- overflow bits; 8 bits; 15 R467; reset 0 -/
  ovf : Tbl Nat
  deriving DecidableEq, Repr

/-- Performance counters, dumps and sampling. -/
structure Perf where
  /-- the 12 banks, unlisted in the state after reset; 15 R464; reset 0 -/
  banks : Tbl Bank
  /-- tick of the last latch; 15 R469; reset none -/
  latchedAt : Option Nat
  /-- the record being written by the dump engine; 784 bytes; 15 R469; reset none -/
  writing : Option (List Byte)
  /-- the dump ring, oldest first, up to 256 records; 15 R469; reset empty -/
  ring : List (List Byte)
  /-- the sample ring, oldest first, up to 4,096 records of 16 bytes; 15 R475; reset empty -/
  samples : List (List Byte)
  /-- descriptors seen since enabling; 15 R473; reset 0 -/
  descriptors : Nat
  deriving DecidableEq, Repr

/-- The states of the IEEE 1149.1 TAP controller (R513). -/
inductive TapState where
  | testLogicReset | runTestIdle
  | selectDr | captureDr | shiftDr | exit1Dr | pauseDr | exit2Dr | updateDr
  | selectIr | captureIr | shiftIr | exit1Ir | pauseIr | exit2Ir | updateIr
  deriving DecidableEq, Repr

/-- The instructions of the TAP (R513). -/
inductive TapInstr where
  | bypass | idcode | samplePreload | extest | clamp
  deriving DecidableEq, Repr

/-- The JTAG TAP (R513). -/
structure Jtag where
  /-- controller state; 4 bits; 17 R513; reset Test-Logic-Reset (DESIGN CHOICE, entry 9: RESET_N does not reset the TAP) -/
  tap : TapState
  /-- current instruction; 17 R513; reset IDCODE (PRESUMED, entry 9: IEEE 1149.1) -/
  instr : TapInstr
  /-- instruction shift register; 17 R513; reset empty -/
  ir : List Bool
  /-- data shift register; 17 R513; reset empty -/
  dr : List Bool
  /-- update latch of the boundary register; 17 R513; reset empty -/
  boundary : List Bool
  /-- level of TDO, none while high impedance; 16 R484; reset none -/
  tdo : Option Bool
  /-- level of TCK; 1 bit; 17 R513; reset low -/
  tck : Bool
  deriving DecidableEq, Repr

/-- The boundary test of one channel's line balls (R514). -/
structure LoopTest where
  /-- channel under test and its gain before the test; 17 R514; reset none -/
  running : Option (Nat × Int)
  /-- tick of the tone's first sample; 64 bits; 17 R514; reset — -/
  start : Nat
  deriving DecidableEq, Repr

/-- What the phasor stage last gave the mains tracker (R153, R395). -/
structure RefPhasor where
  /-- MAGNITUDE; 32 bits; 06 R153, 12 R395; reset — -/
  magnitude : Nat
  /-- the phasor was flagged UNSETTLED; 1 bit; 06 R153; reset — -/
  unsettled : Bool
  /-- the fundamental's angle at the window's midpoint; 2^-32 cycle; 06 R155, 12 R395; reset — -/
  angle : Int
  /-- the window's midpoint; 2^-16 tick; 12 R395; reset — -/
  mid : Nat
  deriving DecidableEq, Repr

/-- The mains tracker (R153–R158). Instants and periods are held in units of 2^-16 T0 tick. -/
structure Tracker where
  /-- index of the latest reference phase zero known; 06 R155; reset 0 -/
  cycle : Nat
  /-- its instant; 2^-16 tick; 06 R155; reset 0 -/
  zero : Nat
  /-- period at which phase advances; 2^-16 tick; 06 R154; reset of NOMINAL_FREQ (50 Hz) -/
  period : Nat
  /-- the latest phasor of the reference unit, not yet judged; 06 R153; reset none -/
  phasor : Option RefPhasor
  /-- the phasor judged before it, from which the period is measured; 06 R153; reset none -/
  prior : Option RefPhasor
  /-- NOMINAL_FREQ as read at reset; Hz; 06 R158; reset 50 -/
  nominal : Nat
  /-- the latest periods with the ticks from which they held, newest first, up to 8; 12 R378; reset empty -/
  periods : List (Nat × Nat)
  /-- ticks of the latest entry into HOLDOVER and of the latest exit from it; 12 R378, R395; reset 0, 0 -/
  held : Nat × Nat
  /-- consecutive valid cycles in ACQUIRING; 0–8; 06 R154; reset 0 -/
  valid : Nat
  /-- the period of the cycle before; 06 R154; reset 0 -/
  lastPeriod : Nat
  /-- consecutive invalid cycles in LOCKED; 06 R154; reset 0 -/
  invalid : Nat
  /-- consecutive cycles with a residual above 5°; 06 R154; reset 0 -/
  residual : Nat
  /-- entry error still to be slewed; 2^-32 cycle; 06 R157; reset 0 -/
  slew : Int
  /-- entry error that awaits its step (2^-32 cycle), and the held cycle at whose start it comes; 06 R157; reset none -/
  step : Option (Int × Nat)
  deriving DecidableEq, Repr

/-- One tide slot of a channel's tide table (R163–R168). -/
structure TideSlot where
  /-- CLASS; 0–3; 06 R165; reset 3 -/
  cls : Nat
  /-- the stale flag; 1 bit; 06 R166; reset false -/
  stale : Bool
  /-- P, averaged noise power per 50 kHz carrier; 10^-20 mW; 06 R164; reset 0 -/
  power : Nat
  /-- R, averaged impulse rate; 1/256 of 0.01 per ms; 06 R164; reset 0 -/
  rate : Nat
  /-- OBS; 0–15; 06 R164; reset 0 -/
  obs : Nat
  /-- cycles without an observed occurrence; 06 R166; reset 0 -/
  missed : Nat
  deriving DecidableEq, Repr

/-- An idle block of 64 samples that a channel examines for impulses (R163, R164). -/
structure IdleBlock where
  /-- tick of its first sample; 64 bits; 06 R163; reset — -/
  first : Nat
  /-- gain code of the block, 0.5 dB; 06 R164; reset — -/
  gain : Int
  /-- peak magnitude of its samples; 14 bits; 06 R164; reset — -/
  peak : Nat
  /-- sum of the squares of its samples; 32 bits; 06 R164; reset — -/
  squares : Nat
  deriving DecidableEq, Repr

/-- A channel's tide table (R163–R168). -/
structure TideTable where
  /-- slots 0–23, unlisted as after reset; 06 R168; reset none listed -/
  slots : Tbl TideSlot
  /-- windows transformed whose occurrence has not ended: first tick and median power in 10^-20 mW; 06 R163, R164; reset none -/
  windows : List (Nat × Nat)
  /-- idle blocks whose occurrence has not ended, the latest first; 06 R163, R164; reset none -/
  blocks : List IdleBlock
  /-- tick at which the last occurrence ended; 64 bits; 06 R163; reset 0 -/
  ended : Nat
  deriving DecidableEq, Repr

/-- A tone-map page of the pool in use (R180). -/
structure Page where
  /-- TMI; 8 bits; 06 R178, R180; reset — -/
  tmi : Nat
  /-- RATE; 3 bits; 06 R178; reset — -/
  rate : Nat
  /-- GI; 2 bits; 06 R178; reset — -/
  gi : Nat
  /-- owner endpoint's entry; 17 bits; 06 R180; reset — -/
  owner : Nat
  /-- direction: downlink (true) or uplink; 06 R180; reset — -/
  down : Bool
  /-- class; 0–2; 06 R180; reset — -/
  cls : Nat
  /-- loading of carriers 36–1,720, one code each; 4 bits each; 01 R20, 06 R178; reset — -/
  loading : List Nat
  deriving DecidableEq, Repr

/-- A sleep schedule (R219). -/
structure Sleep where
  /-- WAKE_PERIOD; s; 07 R219; reset 0 -/
  period : Nat
  /-- WAKE_PHASE; s; 07 R219; reset 0 -/
  phase : Nat
  /-- WAKE_SLOTS; slots; 07 R219; reset 0 -/
  slots : Nat
  /-- CHECK_INTERVAL; 0.1 s; 07 R219; reset 0 -/
  check : Nat
  deriving DecidableEq, Repr

/-- A negotiation of the uplink maps in progress (R175, R176). -/
structure Sounding where
  /-- SLOT_MASK requested; 24 bits; 06 R175; reset — -/
  mask : Nat
  /-- BP_COUNT periods left before DEADLINE; 8 bits; 06 R175; reset — -/
  left : Nat
  /-- the request is on its way or sent; sounding frames received so far, by slot; 06 R176; reset — -/
  got : List Nat
  deriving DecidableEq, Repr

/-- One endpoint entry with its drift record and what the coordinator keeps beside it (R216, R217). -/
structure Ep where
  /-- EUI64; 64 bits; 07 R216; reset 0 (ledger) -/
  eui : Nat
  /-- SHORT_ADDR; 16 bits; 07 R216; reset 0 (ledger) -/
  addr : Nat
  /-- SEG; 6 bits; 07 R216; reset 0 (ledger) -/
  seg : Nat
  /-- STATE: 0 FREE, 1 ASSOCIATING, 2 ASSOCIATED, 3 EXPIRED; 3 bits; 07 R213, R216; reset 0 (ledger) -/
  state : Nat
  /-- ADRIFT; 1 bit; 07 R216, R226; reset 0 -/
  adrift : Bool
  /-- UNUSABLE; 1 bit; 07 R216, 01 R23; reset 0 -/
  unusable : Bool
  /-- LR_MODE; 2 bits; 07 R216; reset 0 (ledger) -/
  lrMode : Nat
  /-- DRIFT_EMPTY; 1 bit; 07 R216; reset 1 -/
  driftEmpty : Bool
  /-- OFFSET_EMPTY; 1 bit; 07 R216; reset 1 -/
  offsetEmpty : Bool
  /-- LANE_SF_M7, 7 meaning no lane; 3 bits; 07 R216; reset 0 (ledger) -/
  laneSf : Nat
  /-- LR_SF_M7; 3 bits; 07 R216; reset 0 (ledger) -/
  lrSf : Nat
  /-- B_MAX; 4 bits; 07 R216; reset 0 (ledger) -/
  bMax : Nat
  /-- RATE_MAX; 3 bits; 07 R216; reset 0 (ledger) -/
  rateMax : Nat
  /-- SUBSET; 8 bits; 07 R216, 08 R236; reset 0 -/
  subset : Nat
  /-- DRIFT_BOUND; 8 bits; 07 R216; reset 0 (ledger) -/
  driftBound : Nat
  /-- TRIM; INTEGER16; 07 R216, 02 R52; reset 0 -/
  trim : Int
  /-- PHASE: 6 bits for each of 8 member positions; 07 R216; reset 0 -/
  phases : List Nat
  /-- MAP_UP_0–2; 16 bits each; 07 R216; reset 0 -/
  mapUp : List Nat
  /-- MAP_PEND_0–2; 16 bits each; 07 R216, 06 R179; reset 0 -/
  mapPend : List Nat
  /-- MAP_DN_0–2; 16 bits each; 07 R216; reset 0 -/
  mapDn : List Nat
  /-- TX_SEQ; 12 bits; 07 R216; reset 0 -/
  txSeq : Nat
  /-- RX_TOP; 12 bits; 07 R216, R205; reset 0 -/
  rxTop : Nat
  /-- WINDOW_EMPTY; 1 bit; 07 R216; reset 1 -/
  windowEmpty : Bool
  /-- RX_WINDOW; 32 bits; 07 R216, R205; reset 0 -/
  rxWindow : Nat
  /-- RX_FC; 32 bits; 07 R216, 10 R315; reset 0 -/
  rxFc : Nat
  /-- LEASE_END; domain seconds, 32 bits; 07 R216; reset 0 (ledger) -/
  leaseEnd : Nat
  /-- the sleep schedule in force: WAKE_PERIOD, WAKE_PHASE, WAKE_SLOTS, CHECK_INTERVAL; 07 R216; reset 0 (ledger) -/
  sleep : Sleep
  /-- LAST_TS; 64 bits; 07 R217; reset 0 -/
  lastTs : Nat
  /-- OFFSET; INTEGER32; 07 R217; reset 0 -/
  offset : Int
  /-- RATE; INTEGER16, 0.01 ppm; 07 R217; reset 0 -/
  rate : Int
  /-- tick at which HOLD_LEFT reaches 0, while ADRIFT holds downlinks; 07 R217, R227; reset none -/
  holdEnd : Option Nat
  /-- TAU, one-way delay in samples; 24 bits; 07 R217; reset 0 -/
  tau : Nat
  /-- TAU_KNOWN; 1 bit; 07 R217; reset 0 -/
  tauKnown : Bool
  /-- FEATURES declared at association; 8 bits; 07 R210; reset 0 -/
  features : Nat
  /-- lease granted last; s; 07 R211, R219; reset 0 -/
  lease : Nat
  /-- class vector last reported; 48 bits; 06 R169, R170; reset all class 3 -/
  vector : Nat
  /-- SNRs of the last 8 direct receptions that committed, newest first; linear, 2^-16; 08 R239; reset none -/
  snrs : List Nat
  /-- the latest NEIGHBOUR_REPORT: address and SNR in 0.25 dB; 08 R237, R238; reset none -/
  report : List (Nat × Nat)
  /-- receivers of the downlink route in order, the endpoint last; none while it has no route; 08 R240; reset none -/
  route : Option (List Nat)
  /-- the last ROUTE_SET body sent; 08 R241; reset none -/
  routeSent : Option (List Byte)
  /-- the repeater that forwarded its association request; 08 R249; reset none -/
  via : Option Nat
  /-- a report has given the hop between it and that repeater; 1 bit; 08 R249; reset false -/
  viaSeen : Bool
  /-- tick of the grant; 08 R249, 07 R213; reset 0 -/
  granted : Nat
  /-- LINE_TAG counter; 16 bits; 09 R284; reset 0 -/
  lineTag : Nat
  /-- the standing uplink allocation: slots and class; 07 R209; reset none -/
  allocReq : Option (Nat × Nat)
  /-- the negotiation in progress; 06 R175; reset none -/
  sounding : Option Sounding
  /-- tick of the last installed uplink set; 06 R182; reset none -/
  mapsAt : Option Nat
  /-- consecutive downlink frames without acknowledgement on the map of each class; 06 R183; reset 0 -/
  noAck : List Nat
  /-- consecutive receptions ending MPDU_CRC_FAIL on one class map: class and count; 06 R182; reset 0, 0 -/
  crcRun : Nat × Nat
  /-- CE SNRs of the last 16 committed frames on each class map, newest first; linear, 2^-16; 06 R182; reset none -/
  ceRuns : List (List Nat)
  /-- mean CE SNR of each class at the negotiation of its map; linear, 2^-64; 06 R182; reset none -/
  ceBase : List (Option Nat)
  /-- an uplink set is pending, be it without a map; 1 bit; 06 R179; reset false -/
  pendSet : Bool
  /-- the schedule that waits for its echo's acknowledgement; 07 R219; reset none -/
  echo : Option Sleep
  /-- the schedule accepted, with the tick from which its first wake instant counts; 07 R219; reset none -/
  nextSleep : Option (Sleep × Nat)
  /-- served window: first and last tick, and whether an uplink committed in it; 07 R220, R221; reset none -/
  window : Option (Nat × Nat × Bool)
  /-- ticks from and to which a wake frame's listen window runs; 07 R223; reset none -/
  listen : Option (Nat × Nat)
  /-- tick at which EXPIRED was entered; 07 R213; reset 0 -/
  expired : Nat
  /-- the device number it roamed away to; 08 R263; reset none -/
  movedTo : Option Nat
  /-- sum of domain time steps at LAST_TS; 13 R419; reset 0 -/
  stepSum : Int
  /-- marked in the running rollover; 1 bit; 10 R321; reset false -/
  marked : Bool
  /-- first tick of the span of the last allocation of which a first PPDU was heard; 07 R225; reset none -/
  allocHeard : Option Nat
  /-- fragments of reports that are not complete, by LINE_TAG, with the index of the last; 09 R277, R284; reset none -/
  reports : Tbl (Tbl (List Byte) × Option Nat)
  deriving DecidableEq, Repr

/-- What an MPDU of the device carries. -/
inductive DownKind where
  /-- fragment of a leg: transaction, leg, fragment index, last (09 R284) -/
  | fragment (txn leg frag : Nat) (last : Bool)
  /-- MAC command (07 R209) -/
  | command
  /-- echo of a sleep schedule (07 R219) -/
  | sleepEcho
  /-- ROUTE_SET (08 R241) -/
  | routeSet
  /-- DISASSOCIATE (07 R209) -/
  | disassociate
  /-- association response (07 R212) -/
  | assocResponse
  /-- next-key delivery (10 R320) -/
  | keyDelivery
  /-- tone map response (06 R178) -/
  | mapResponse
  /-- sounding frame for a tide slot (06 R176) -/
  | sounding (slot : Nat)
  /-- bridged downlink (08 R251) -/
  | bridged
  /-- relay envelope of another station that goes on to its next hop (08 R244) -/
  | forwarded
  /-- broadcast data or MAC command, sent BCAST_REPEAT times (07 R206) -/
  | broadcast
  deriving DecidableEq, Repr

/-- An MPDU queued for the line, or on it (R203, R204). -/
structure Down where
  /-- its number; the model's own; reset — -/
  id : Nat
  /-- segment; 6 bits; 07 R187; reset — -/
  seg : Nat
  /-- entry of the endpoint it is for, none for a broadcast; 07 R216; reset — -/
  entry : Option Nat
  /-- TYPE of its frame; 4 bits; 03 R70; reset — -/
  type : Nat
  /-- PRI; 2 bits; 07 R209; reset — -/
  pri : Nat
  /-- what it carries; reset — -/
  kind : DownKind
  /-- MPDU body before a relay envelope; 03 R77; reset — -/
  body : List Byte
  /-- SEQ, once sent; 12 bits; 07 R204; reset — -/
  seq : Option Nat
  /-- transmissions made; 0–8; 07 R203; reset — -/
  tries : Nat
  /-- number of the frame that carries it now; reset — -/
  frame : Option Nat
  /-- it goes on the swell lane; 1 bit; 08 R246; reset — -/
  lane : Bool
  /-- receivers of its hops in order, empty for a direct link; 08 R243; reset — -/
  route : List Nat
  /-- the inner MPDU of a relayed downlink, once built; 08 R243; reset none -/
  inner : List Byte
  /-- cause for which a bridged downlink is held back, none while it may go; 08 R252; reset none -/
  held : Option Nat
  deriving DecidableEq, Repr

/-- An allocation entry of the beacon (R193). -/
structure Alloc where
  /-- ADDR; 16 bits; 07 R193; reset — -/
  addr : Nat
  /-- FIRST; 11 bits; 07 R193; reset — -/
  first : Nat
  /-- COUNT; 11 bits; 07 R193; reset — -/
  count : Nat
  /-- MEMBERS; 8 bits; 07 R193; reset — -/
  members : Nat
  /-- DIR: downlink (true); 07 R193; reset — -/
  down : Bool
  /-- KIND; 2 bits; 07 R193; reset — -/
  kind : Nat
  /-- number of the association response it is for; 07 R212; reset — -/
  response : Option Nat
  deriving DecidableEq, Repr

/-- An interval of a claim (R259, R260). -/
structure Claim where
  /-- START; 2^-32 of the second; 08 R260; reset — -/
  start : Nat
  /-- COUNT of tide slots; 15 bits; 08 R260; reset — -/
  count : Nat
  /-- beacon region; 1 bit; 08 R260; reset — -/
  beacon : Bool
  /-- its length in ticks: COUNT × MAINS_PERIOD ÷ 24; 08 R260; reset — -/
  ticks : Nat
  deriving DecidableEq, Repr

/-- What the coordinator of a segment keeps (R187, R229, R232–R235). -/
structure Seg where
  /-- tick before which no first beacon comes; 08 R234; reset none -/
  firstBeacon : Option Nat
  /-- winding down after SEG_DISABLE; 1 bit; 08 R235; reset false -/
  winding : Bool
  /-- SEG_PHASE_OFFSET in force; 0.1°; 06 R160; reset 0 -/
  offset : Int
  /-- SEG_PHASE_OFFSET was written and awaits the next period; 06 R160; reset false -/
  offsetDue : Bool
  /-- BP_CYCLES, BEACON_SLOT, BEACON_SLOTS, CR_FIRST, CR_COUNT in force; 07 R187; reset 8, 0, 1, 24, 24 -/
  region : List Nat
  /-- MAX_FRAME, MAX_DELAY, ROBUST_GI, LEASE_TIME, ADDRESS_HOLD, ASSOC_PERMIT, ADRIFT_HOLD, DEFAULT_DRIFT, BCAST_REPEAT,
  REACH_BEACON in force; 07 R229, 06 R185; reset 40, 100, 3, 86,400, 3,600, 1, 600, 40, 2, 0 -/
  limits : List Nat
  /-- end of the last exchange, and the ticks after it before which its allocation carries no further PPDU; 07 R197; reset 0, 0 -/
  lastEnd : Nat × Nat
  /-- tick of the running period's beacon frame start; 07 R187; reset none -/
  period : Option Nat
  /-- allocations of the running period; 07 R193; reset none -/
  allocs : List Alloc
  /-- body of the last beacon; 07 R192; reset none -/
  beacon : List Byte
  /-- body of the last reach beacon; 07 R195; reset none -/
  reach : List Byte
  /-- broadcast SEQ series; 12 bits; 07 R206; reset 0 -/
  bcastSeq : Nat
  /-- tick of the last route recomputation; 08 R241; reset 0 -/
  routesAt : Nat
  /-- association responses waiting: id of the MPDU and periods passed; 07 R196; reset none -/
  responses : List (Nat × Nat)
  /-- channel and slot pairs to be kept silent in the next period; 06 R166; reset none -/
  gaps : List (Nat × Nat)
  /-- own claims by domain second; 08 R259; reset none -/
  claims : Tbl (List Claim)
  /-- second NEXT_ACTIVATE of the running rollover with KEY_OVERLAP taken at step 1; 10 R321; reset none -/
  rollover : Option (Nat × Nat)
  /-- tick at which slot 64 + s becomes EMPTY after promotion; 10 R321; reset none -/
  retire : Option Nat
  deriving DecidableEq, Repr

/-- A record of a foreign network heard (R257). -/
structure Heard where
  /-- L, capture metric; 2^-16 linear; 08 R257; reset — -/
  level : Nat
  /-- last heard; tick; 08 R257; reset — -/
  last : Nat
  deriving DecidableEq, Repr

/-- An entry of a peer's COUPLING (R258). -/
structure Coupling where
  /-- SEG of the peer; 8 bits; 08 R258; reset — -/
  seg : Nat
  /-- NID it hears; 16 bits; 08 R258; reset — -/
  nid : Nat
  /-- LEVEL; 0.25 dB; 08 R258; reset — -/
  level : Nat
  deriving DecidableEq, Repr

/-- A peer device of the grid domain (R253–R256, R260). -/
structure Peer where
  /-- EUI-64 of its HELLO; 64 bits; 08 R256; reset — -/
  eui : Nat
  /-- tick of the last accepted HELLO; 08 R256; reset — -/
  hello : Option Nat
  /-- source address of the last accepted HELLO; 16 bytes; 13 R414; reset — -/
  addr : List Byte
  /-- SEGMENTS of its HELLO; 64 bits; 08 R256; reset — -/
  segments : Nat
  /-- MSG_SEQ and SENT_AT of the last accepted message; 32 and 64 bits; 08 R255; reset — -/
  last : Option (Nat × Nat)
  /-- its coupling report; 08 R258; reset none -/
  couplings : List Coupling
  /-- its claims: segment, second, tick of receipt, intervals; 08 R260; reset none -/
  claims : List (Nat × Nat × Nat × List Claim)
  deriving DecidableEq, Repr

/-- A leg as ROAM_OFFER carries it (R301). -/
structure MovedLeg where
  /-- TXN_ID; 32 bits; 09 R301; reset — -/
  txn : Nat
  /-- TARGET; 32 bits; 09 R301; reset — -/
  target : Nat
  /-- PRI; 2 bits; 09 R301; reset — -/
  pri : Nat
  /-- OP; 1 bit; 09 R301; reset — -/
  op : Nat
  /-- RETRIES_LEFT; 8 bits; 09 R301; reset — -/
  retries : Nat
  /-- DEADLINE_SEC and DEADLINE_FRAC; 64 bits; 09 R301; reset — -/
  deadline : Nat
  /-- request payload; 09 R301; reset — -/
  payload : List Byte
  deriving DecidableEq, Repr

/-- A hand-over at the old device (R263, R264). -/
structure HandOver where
  /-- the querier; 08 R263; reset — -/
  querier : Nat
  /-- tick of the last offer, none once accepted; 08 R263; reset — -/
  offered : Option Nat
  /-- transactions and legs offered; 08 R264; reset — -/
  legs : List (Nat × Nat)
  deriving DecidableEq, Repr

/-- A query at the new device (R262, R263). -/
structure Query where
  /-- entry granted; 08 R262; reset — -/
  entry : Nat
  /-- tick of the last ROAM_QUERY; 08 R262; reset — -/
  sent : Nat
  /-- tick at which the query is due again after STATUS 3; 08 R263; reset none -/
  again : Option Nat
  /-- the query has been repeated; 08 R263; reset false -/
  repeated : Bool
  /-- legs of offers with STATUS 2 gathered so far; 13 R414; reset none -/
  legs : List MovedLeg
  deriving DecidableEq, Repr

/-- The grid domain (R253–R264). -/
structure Domain where
  /-- DEVICE_NUMBER in force (read at reset); 10 bits; 08 R253; reset 0 -/
  number : Nat
  /-- DOMAIN_ID in force (read at reset); 32 bits; 08 R267; reset 0 -/
  id : Nat
  /-- MSG_SEQ of the next message; 32 bits; 08 R254; reset 0 -/
  seq : Nat
  /-- peers by device number; 08 R256; reset none -/
  peers : Tbl Peer
  /-- interference records by segment × 65,536 + NID; 08 R257; reset none -/
  heard : Tbl Heard
  /-- ticks of the last HELLO and the last COUPLING sent; 08 R256; reset none -/
  helloAt : Option Nat
  /-- tick of the last COUPLING sent; 08 R256; reset none -/
  couplingAt : Option Nat
  /-- hand-overs by EUI-64; 08 R263; reset none -/
  handOvers : Tbl HandOver
  /-- queries by EUI-64; 08 R262; reset none -/
  queries : Tbl Query
  deriving DecidableEq, Repr

/-- Where a leg stands (R279, R288). -/
inductive LegPhase where
  /-- DELAYED with a cause, line work not started (09 R279) -/
  | delayed (cause : Nat)
  /-- line work has started (09 R288) -/
  | active
  /-- committed, its result ready, the record not yet made (09 R287) -/
  | committed
  /-- ended with an outcome and a cause (09 R299, R300) -/
  | ended (outcome cause : Nat)
  deriving DecidableEq, Repr

/-- One leg of a transaction (R268, R284–R288). -/
structure Leg where
  /-- global address of the target; 32 bits; 09 R273; reset — -/
  target : Nat
  /-- entry of the target, if it has one here; reset — -/
  entry : Option Nat
  /-- where it stands; 09 R288; reset — -/
  phase : LegPhase
  /-- LINE_TAG; 16 bits; 09 R284; reset — -/
  tag : Nat
  /-- number of request fragments; 09 R285; reset — -/
  frags : Nat
  /-- FRAG_MAX taken at admission, or the lane limit; bytes; 09 R285; reset — -/
  fragMax : Nat
  /-- fragments acknowledged; 09 R288; reset — -/
  acked : List Nat
  /-- the final request fragment was acknowledged at some time; 09 R288; reset false -/
  delivered : Bool
  /-- attempts made; 0–7; 09 R288; reset 0 -/
  attempts : Nat
  /-- LEG_RETRIES taken at admission; 0–7; 09 R288; reset — -/
  retries : Nat
  /-- tick at which RESP_WAIT ends; 09 R288; reset none -/
  respDue : Option Nat
  /-- response fragments committed, by index; 09 R284; reset none -/
  response : Tbl (List Byte)
  /-- index of the response's last fragment; 09 R284; reset none -/
  respLast : Option Nat
  /-- it waits for tokens; 1 bit; 09 R281; reset false -/
  waits : Bool
  /-- it moved to another device; 08 R264; reset none -/
  movedTo : Option Nat
  /-- ms from admission to commit; 09 R276; reset 0 -/
  commitMs : Nat
  deriving DecidableEq, Repr

/-- A transaction (R268, R273, R290, R291). -/
structure Txn where
  /-- PRI; 2 bits; 09 R271; reset — -/
  pri : Nat
  /-- session of its latest REQUEST or ABORT; 13 R412; reset — -/
  session : Nat
  /-- OP; 0–1; 09 R273; reset — -/
  op : Nat
  /-- the request resolved to other than one target; 1 bit; 09 R268, R278, R283; reset — -/
  many : Bool
  /-- AGG_TIME; ms; 09 R273; reset — -/
  aggTime : Nat
  /-- tick of arrival; 09 R288; reset — -/
  arrived : Nat
  /-- tick of the deadline; 09 R288; reset — -/
  deadline : Nat
  /-- request payload; 09 R273; reset — -/
  payload : List Byte
  /-- PRI and CRC-32 of the REQUEST's body; 09 R292; reset — -/
  mark : Nat
  /-- legs in order; 09 R268; reset — -/
  legs : List Leg
  /-- messages kept, in MSG_INDEX order; 09 R291; reset — -/
  sent : List (List Byte)
  /-- MSG_INDEX of the next message; 16 bits; 09 R271; reset 0 -/
  nSent : Nat
  /-- result records of the open RESPONSE message; 09 R290; reset none -/
  open_ : List (List Byte)
  /-- tick at which the open message's first record was ready; 09 R290; reset none -/
  openSince : Option Nat
  /-- an ABORT waits for some of its legs; 1 bit; 09 R294, R296; reset false -/
  aborting : Bool
  /-- legs that the ABORT ended ABORTED; 09 R298; reset 0 -/
  nAborted : Nat
  /-- tick at which CACHE_TIME ends, once the transaction has ended; 09 R291; reset none -/
  cachedTo : Option Nat
  /-- order of ending, for eviction; 09 R293; reset 0 -/
  endedAt : Nat
  /-- its messages were evicted; 1 bit; 09 R293; reset false -/
  evicted : Bool
  deriving DecidableEq, Repr

/-- A P0 REPORT that is sent again (R277). -/
structure ReportSend where
  /-- sendings made; 09 R277; reset — -/
  made : Nat
  /-- tick of the last sending; 09 R277; reset — -/
  last : Nat
  /-- the message; 09 R277; reset — -/
  msg : List Byte
  deriving DecidableEq, Repr

/-- The transaction engine (R268–R298). -/
structure TxnEngine where
  /-- transactions open or cached, by TXN_ID; those served for device d stand at (d + 1) × 2^32 + TXN_ID (08 R264); 131,072
  records; 09 R268; reset none -/
  txns : Tbl Txn
  /-- tokens of classes P1–P3 at `tokensAt`, in 1/409,600,000 token; 09 R281; reset full -/
  tokens : Tbl Nat
  /-- tick up to which the buckets are filled; 09 R281; reset 0 -/
  tokensAt : Nat
  /-- legs that wait for tokens, in admission order: transaction and leg; 09 R281; reset none -/
  waiting : List (Nat × Nat)
  /-- next TXN_ID of the device's REPORTs; 32 bits; 09 R269; reset 0x80000000 -/
  nextReport : Nat
  /-- P0 REPORTs being repeated, by TXN_ID; 09 R277; reset none -/
  reports : Tbl ReportSend
  deriving DecidableEq, Repr

/-- A committed association request that waits for its answer (R210, R211, R249). -/
structure Request where
  /-- segment; 6 bits; 07 R210; reset — -/
  seg : Nat
  /-- entry of the repeater that forwarded it; 08 R249; reset — -/
  via : Option Nat
  /-- body; 07 R210; reset — -/
  body : List Byte
  /-- SNR of its reception, linear, 2^-16; 08 R239; reset — -/
  snr : Nat
  /-- waveform in which it came; 07 R212; reset — -/
  wave : Wave
  /-- SF in which it came; 7–14; 07 R212; reset — -/
  sf : Nat
  deriving DecidableEq, Repr

/-- Medium access: entries, pages, the queue of the device's MPDUs. -/
structure Mac where
  /-- endpoint table, unlisted entries FREE; 131,072 entries; 07 R216, 01 R20; reset all FREE -/
  eps : Tbl Ep
  /-- pages of the pool in use; 2–16,383; 06 R180; reset none -/
  pages : Tbl Page
  /-- pages retired by an uncorrectable error; 01 R23; reset none -/
  retiredPages : List Nat
  /-- MPDUs of the device not yet resolved, oldest first; 07 R203, R204; reset none -/
  queue : List Down
  /-- number of the next MPDU; the model's own; reset 0 -/
  nextId : Nat
  /-- segments, unlisted as after reset; 08 R232; reset all disabled -/
  segs : Tbl Seg
  /-- messages of the last committed MPDUs that their receivers have not yet taken: entry and body; 05 R139; reset none -/
  committed : List (Nat × List Byte)
  /-- committed association requests not yet answered, oldest first; 07 R211; reset none -/
  requests : List Request
  deriving DecidableEq, Repr


/-- The configuration of a channel in force (R59, R90, R151). -/
structure ChanCfg where
  /-- TERM_ENABLE; 1 bit; 02 R59; reset TRUE -/
  term : Bool
  /-- AGC_MODE: FIXED (true) or AUTO; 02 R59; reset AUTO -/
  fixed : Bool
  /-- FIXED_GAIN; INTEGER8, 0.5 dB; 02 R59; reset 60 -/
  fixedGain : Int
  /-- AGC_TARGET; INTEGER8, dBFS; 02 R59; reset -12 -/
  target : Int
  /-- GAIN_MAX; INTEGER8, 0.5 dB; 02 R59; reset 84 -/
  gainMax : Int
  /-- TX_LISTEN_GAIN; INTEGER8, 0.5 dB; 02 R59; reset 0 -/
  listenGain : Int
  /-- IDLE_TRIM; INTEGER16, 0.005 ppm; 02 R59; reset 0 -/
  idleTrim : Int
  /-- TX_DELAY; 14 bits; 02 R59; reset 0 -/
  txDelay : Nat
  /-- TX_FS_CURRENT; 0.1 mA; 02 R59; reset 200 -/
  fsCurrent : Nat
  /-- MASK_1–MASK_8; 32 bits each; 03 R90; reset 0 -/
  masks : List Nat
  /-- DETECT_LEVEL; 1/256; 05 R151; reset 64 -/
  detectLevel : Nat
  deriving DecidableEq, Repr

/-- The swell configuration of a channel in force (R119). -/
structure SwellCfg where
  /-- LANE_ENABLE; 1 bit; 04 R119; reset TRUE -/
  on : Bool
  /-- LANE_LEVEL; INTEGER8, dB; 04 R119; reset -16 -/
  level : Int
  /-- LANE_PRE_LEN; symbols; 04 R119; reset 4 -/
  lanePre : Nat
  /-- SWELL_PRE_LEN; symbols; 04 R119; reset 8 -/
  swellPre : Nat
  deriving DecidableEq, Repr

/-- The side word of a 64-sample block of a receive breakwater (R54). -/
structure SideWord where
  /-- gain code of the block, in 0.5 dB; none where the gain changed inside it; 02 R54; reset — -/
  gain : Option Int
  /-- a sample reached the clipping code; 1 bit; 02 R54; reset — -/
  clipped : Bool
  /-- position in the block of the sample taken more or left out; 6 bits; 02 R47, R54; reset — -/
  slip : Option Nat
  /-- T0 tick of the first sample at a trim or phase that took effect in the block; 64 bits; 02 R48, R54; reset — -/
  change : Option Nat
  /-- T0 tick of the block's first sample; 64 bits; 02 R54; reset — -/
  first : Nat
  deriving DecidableEq, Repr

/-- A preamble that a secondary detector found (R145, R146). -/
structure Second where
  /-- tick of the detection; 05 R146; reset — -/
  tick : Nat
  /-- linear metric γ in 2^-16; 05 R146; reset — -/
  metric : Nat
  /-- waveform of the preamble; 05 R145; reset — -/
  wave : Wave
  /-- SF of a swell preamble; 7–14; 04 R107; reset — -/
  sf : Nat
  deriving DecidableEq, Repr

/-- A line channel (R29–R61, R110–R114). -/
structure Channel where
  /-- configuration in force; 02 R59; reset defaults -/
  cfg : ChanCfg
  /-- swell configuration in force; 04 R119; reset defaults -/
  swell : SwellCfg
  /-- gain the AGC loop holds, in 0.5 dB; 02 R31, R61; reset 84 -/
  gain : Int
  /-- gain before the last change, in 0.5 dB; 02 R31; reset 84 -/
  gainWas : Int
  /-- tick of the first sample at the gain the loop holds; 64 bits; 02 R31; reset 0 -/
  gainFrom : Nat
  /-- the AGC is frozen; 1 bit; 02 R32; reset false -/
  frozen : Bool
  /-- receive trim in force, 0.005 ppm; 02 R46; reset 0 -/
  trim : Int
  /-- receive phase in force, 1/64 sample; 6 bits; 02 R46; reset 0 -/
  phase : Nat
  /-- phase accumulator at the last change of trim, in 1/200,000,000 sample, whole samples being slips; 02 R46, R47; reset 0 -/
  acc : Int
  /-- a trim and phase written that have not yet taken effect, and the tick of the write; 02 R48; reset none -/
  written : Option (Int × Nat × Nat)
  /-- T0 tick of the first sample at the value in force; 64 bits; 02 R48; reset 0 -/
  trimTick : Nat
  /-- side words of the blocks in the receive breakwater, the latest first; 02 R54; reset none -/
  blocks : List SideWord
  /-- fill of the receive breakwater in samples; 0–8,192; 02 R55; reset 0 -/
  fill : Nat
  /-- BW_PEAK; 16 bits; 02 R55; reset 0 -/
  peak : Nat
  /-- tick at which blanking after an own transmission ends; 02 R42; reset none -/
  blankEnd : Option Nat
  /-- the reception it takes part in; 05 R121; reset none -/
  rx : Option Nat
  /-- secondary detection during the reception it takes part in; 05 R145, R146; reset none -/
  second : Option Second
  /-- expected window open on it: link entry and closing tick; 02 R50; reset none -/
  window : Option (Nat × Nat)
  /-- tick since which it has neither received nor been blanked; 64 bits; 06 R163; reset 0 -/
  idleFrom : Nat
  /-- reception of the lane receiver; 04 R114; reset none -/
  laneRx : Option Nat
  /-- secondary detection of the lane receiver; 04 R114, 05 R145; reset none -/
  laneSecond : Option Second
  /-- tick at which an acknowledgement is due on sub-lane A; 04 R113; reset none -/
  ackDue : Option Nat
  /-- tick at which the lane receiver's blanking ends; 04 R114; reset none -/
  laneBlank : Option Nat
  deriving DecidableEq, Repr

/-- An LC group's synthesiser (R44, R45, R28). -/
structure LcGroup where
  /-- locked; 1 bit; 02 R44; reset true (the end of boot) -/
  locked : Bool
  /-- stopped, no channel of the group being enabled; 1 bit; 01 R28; reset false (every channel is enabled) -/
  stopped : Bool
  deriving DecidableEq, Repr

/-- A frame that the device plans, sends or has sent and of which the acknowledgement is still open (R40, R66, R99, R202). -/
structure TxFrame where
  /-- segment; 6 bits; 07 R187; reset — -/
  seg : Nat
  /-- waveform; 03 R66, 04 R94; reset — -/
  wave : Wave
  /-- TYPE; 4 bits; 03 R70; reset — -/
  type : Nat
  /-- DST; 16 bits; 03 R70; reset — -/
  dst : Nat
  /-- PRI; 2 bits; 03 R70; reset — -/
  pri : Nat
  /-- ACK_REQ; 1 bit; 03 R70; reset — -/
  ackReq : Bool
  /-- TMI; 8 bits; 03 R70; reset — -/
  tmi : Nat
  /-- TIDE; 2 bits; 03 R70; reset — -/
  tide : Nat
  /-- GI; 2 bits; 03 R70; reset — -/
  gi : Nat
  /-- PSC; 12 bits; 03 R70; reset — -/
  psc : Nat
  /-- SF of a swell frame; 7–14; 04 R94; reset — -/
  sf : Nat
  /-- channels that send it; 08 R236; reset — -/
  chans : List Nat
  /-- tick of its first sample; 02 R40; reset — -/
  start : Nat
  /-- tick of its first payload symbol, or first data symbol after the pivot; 09 R295; reset — -/
  data : Nat
  /-- tick of its end; 03 R66, 04 R99; reset — -/
  stop : Nat
  /-- numbers of the MPDUs it carries, in order; 03 R76; reset — -/
  mpdus : List Nat
  /-- body of a frame that carries no queued MPDU: a beacon, a wake, a sounding, an acknowledgement; reset — -/
  body : List Byte
  /-- entry of the link it is for; reset — -/
  entry : Option Nat
  /-- class of the map it used, for R183; reset none -/
  cls : Option Nat
  /-- its first sample has left; 1 bit; 02 R40; reset false -/
  started : Bool
  /-- its last sample has left; 1 bit; 02 R42; reset false -/
  ended : Bool
  /-- a breakwater ran empty; 1 bit; 01 R17; reset false -/
  underrun : Bool
  /-- its readiness has been checked and held; 1 bit; 01 R13; reset false -/
  ready : Bool
  /-- cancelled in its preamble; 1 bit; 09 R295; reset false -/
  cut : Bool
  /-- length of its bodies in a swell header, LEN; 8 bits; 04 R101; reset — -/
  len : Nat
  /-- preamble symbols of a swell frame; 04 R99, R100; reset — -/
  npre : Nat
  /-- its MPDUs as they are sent, header, body, tag and CRC-32; 03 R77, 04 R104; reset none -/
  wire : List (List Byte)
  deriving DecidableEq, Repr

/-- How far a reception has come (R121, R141). -/
inductive RxStage where
  /-- detected, no timing mark yet (05 R123) -/
  | detected
  /-- timing mark located (05 R123) -/
  | marked
  /-- both CE symbols received, fine trim written (05 R126) -/
  | trained
  /-- frame control or header passed: payload (05 R135) -/
  | payload
  /-- held passively to the frame's end (05 R141) -/
  | passive
  deriving DecidableEq, Repr

/-- Tap and noise estimate of a carrier on a member (R127). -/
structure Tap where
  /-- real part of 2H in 2^-30, with Y1 and Y2 in the transform's units; 05 R127; reset — -/
  re : Int
  /-- imaginary part of 2H in 2^-30; 05 R127; reset — -/
  im : Int
  /-- the sum of the squared magnitudes of Y2 − Y1 over the carriers of its noise window; 05 R127; reset — -/
  noise : Nat
  /-- carriers of its noise window; 1–9, 0 on a masked carrier; 05 R127; reset — -/
  count : Nat
  deriving DecidableEq, Repr

/-- A member of a reception's combining group (R130). -/
structure RxMember where
  /-- channel; 8 bits; 05 R130; reset — -/
  chan : Nat
  /-- linear SNR in 2^-16, from ρ until both CE symbols are in; 05 R146; reset — -/
  snr : Nat
  /-- detection is declared on it; false while the gain settles after a takeover; 1 bit; 05 R149; reset true -/
  declared : Bool
  /-- its timing mark has been located; 1 bit; 05 R123; reset false -/
  marked : Bool
  /-- taps of carriers 36 to 1,720 once both CE symbols are in; 05 R127; reset none -/
  taps : List Tap
  deriving DecidableEq, Repr

/-- The engine work on a protected MPDU of a reception (R137). -/
inductive Opening where
  /-- it waits for a line cipher engine, or one decrypts it -/
  | waits
  /-- its slot was EMPTY, EXHAUSTED or not accepted when the engine was to be taken (05 R144) -/
  | noKey
  /-- its message has ended with a good tag, under a slot and with a copy of its key -/
  | good (slot : Nat) (key : List Byte)
  /-- its message ended with a `TAG_FAIL` or `FAULT` mark (05 R137, 10 R333) -/
  | tagFail
  /-- its message ended with a `KEY_ERASED` mark -/
  | keyErased
  deriving DecidableEq, Repr

/-- A reception in progress (R121–R150). -/
structure Reception where
  /-- segment that receives it, none on an unbound channel; 05 R130; reset — -/
  seg : Option Nat
  /-- waveform; 03, 04 R94; reset — -/
  wave : Wave
  /-- SF of a swell reception; 04 R94; reset — -/
  sf : Nat
  /-- members, ascending; 05 R130; reset — -/
  members : List RxMember
  /-- stage; 05 R121; reset — -/
  stage : RxStage
  /-- the group has closed; 1 bit; 05 R130; reset false -/
  closed : Bool
  /-- tick of detection; 05 R122; reset — -/
  detected : Nat
  /-- tick of the earliest timing mark; 05 R123; reset 0 -/
  mark : Nat
  /-- time-stamp: T0 instant of the first sample at the pins, in 1/64 sample; 05 R128; reset 0 -/
  stamp : Nat
  /-- measured offset of a lane reception in 0.005 ppm; 04 R114; reset 0 -/
  offset : Int
  /-- frame control or swell header, checked; 128 bits; 03 R70, 04 R101; reset 0 -/
  head : Nat
  /-- tick of the frame's end; 03 R66, 04 R99; reset 0 -/
  stop : Nat
  /-- decoded codewords by index; 03 R81, 05 R121; reset none -/
  words : Tbl (List Byte)
  /-- lengths of the MPDUs once the directory passed its check; 03 R76; reset none -/
  dir : Option (List Nat)
  /-- MPDUs resolved so far; 05 R140; reset 0 -/
  next : Nat
  /-- bit j: MPDU j committed or was a duplicate; 8 bits; 07 R201; reset 0 -/
  acked : Nat
  /-- an MPDU of it has committed; 1 bit; 05 R139; reset false -/
  firstDone : Bool
  /-- it marked the endpoint ADRIFT; 1 bit; 07 R227; reset false -/
  marking : Bool
  /-- order of admission to the decoders; 05 R142; reset 0 -/
  admitted : Nat
  /-- the frame has ended; 1 bit; 02 R52; reset false -/
  finished : Bool
  /-- it was shed; 1 bit; 05 R142; reset false -/
  shed : Bool
  /-- SEQ[7:0] of a swell MPDU, for its acknowledgement; 04 R109; reset 0 -/
  seq8 : Nat
  /-- trim and, by channel, phases as they stood when the reception ended; 02 R52; reset none -/
  final : Option (Int × Tbl Nat)
  /-- entry of the link whose preload was in force when it was detected; 05 R136; reset none -/
  preload : Option Nat
  /-- CAPTURE_MARGIN in force for it, in dB; 05 R151; reset — -/
  margin : Nat
  /-- COMBINE_ENABLE in force for it; 1 bit; 05 R151; reset — -/
  combine : Bool
  /-- tick of the first secondary detection of the takeover that formed it; 05 R149; reset none -/
  formed : Option Nat
  /-- soft bits of the payload in the order of its coded stream, in 1/256; 05 R121, 03 R83; reset none -/
  soft : List Int
  /-- engine work on its protected MPDUs by index; 05 R137; reset none -/
  openings : Tbl Opening
  /-- the MPDU of a swell frame, once it has been received; 04 R104; reset none -/
  raw : Option (List Byte)
  /-- MPDUs, by index, that hold a tentative frame buffer; 05 R121, R135; reset none -/
  claims : List Nat
  deriving DecidableEq, Repr

/-- An expected window (R50): the link, when it opens and closes. -/
structure Window where
  /-- segment; 02 R50; reset — -/
  seg : Nat
  /-- entry of the link; 02 R50; reset — -/
  entry : Nat
  /-- tick at which it opens; 02 R50; reset — -/
  from_ : Nat
  /-- tick at which it closes; 02 R50; reset — -/
  upto : Nat
  deriving DecidableEq, Repr

/-- The line side: channels, synthesisers, frames and receptions. -/
structure Line where
  /-- channels 0–255, unlisted as after reset; 02 R59; reset defaults -/
  chans : Tbl Channel
  /-- LC groups 0–7, unlisted locked; 02 R44; reset locked -/
  groups : Tbl LcGroup
  /-- frames planned, on air or waiting for their acknowledgement; 02 R40; reset none -/
  frames : Tbl TxFrame
  /-- number of the next frame; the model's own; reset 0 -/
  nextFrame : Nat
  /-- receptions in progress; 05 R121; reset none -/
  rxs : Tbl Reception
  /-- number of the next reception; the model's own; reset 0 -/
  nextRx : Nat
  /-- number of the next admission to the decoders; 05 R142; reset 0 -/
  nextAdmit : Nat
  /-- codewords in the layer pipelines of the 64 LDPC decoders: reception and codeword; 01 R19; reset none -/
  decoders : List (Nat × Nat)
  /-- expected windows that have not closed; 02 R50; reset none -/
  windows : List Window
  /-- GI of the last frame on segment g whose frame control passed; 05 R136; reset 3 -/
  lastGi : Tbl Nat
  /-- P0 lane frames that wait for a sub-lane, and wakes to be sent again, as numbers of MPDUs or entries; 04 R113; reset none -/
  laneWait : List Nat
  /-- wake frames to be decided: by entry the reason and the earliest tick; 04 R113, R116, 07 R227; reset none -/
  wakes : Tbl (Nat × Nat)
  deriving DecidableEq, Repr
/-- The state of the device. -/
structure State where
  /-- the commands that wait, oldest first; host interface; reset empty -/
  pending : List Instr
  /-- T0 tick counter; 64 bits; 01 R15, 14 T0_TICK; reset DESIGN CHOICE 0, entry 3 -/
  now : Nat
  /-- the MODEL'S own counter of free values, not the spec's; reset DESIGN CHOICE 0, entry 2 -/
  free : Nat
  /-- boot and reset control -/
  sys : Sys
  /-- balls that hold state -/
  pins : Pins
  /-- numeric registers of the object dictionary by key, an unlisted key holding its default; 14 R427; reset the defaults of the object tables -/
  dict : Tbl Nat
  /-- byte strings of the object dictionary by key, an unlisted key holding its default; 14 R427; reset the defaults -/
  blobs : Tbl (List Byte)
  /-- dictionary server and transports -/
  mgmt : Mgmt
  /-- xSPI flash and fuses -/
  flash : Flash
  /-- key slots, engines, vault, admission -/
  keys : Keys
  /-- check units and queues -/
  svc : Svc
  /-- working memory by byte offset, an unlisted byte reading 0; 48 MiB; 01 R20; reset 0 (R362 for the scratch window, DESIGN CHOICE for the rest, entry 4) -/
  wm : List Host.Cell
  /-- mains converters -/
  mains : Mains
  /-- backhaul ports and sessions -/
  bh : Backhaul
  /-- domain time -/
  time : TimeState
  /-- performance counters -/
  perf : Perf
  /-- JTAG TAP -/
  jtag : Jtag
  /-- loop test -/
  loop : LoopTest
  /-- mains tracker -/
  tracker : Tracker
  /-- tide tables by channel and slot, unlisted slots as after reset; 06 R168, R184; reset empty -/
  tides : Tbl TideTable
  /-- medium access -/
  mac : Mac
  /-- grid domain -/
  domain : Domain
  /-- transaction engine -/
  txn : TxnEngine
  /-- line channels, synthesisers, frames and receptions -/
  line : Line
  deriving DecidableEq, Repr

/-- Faults: no command of this device stops the machine by a fault, since the spec gives every command an effect. -/
inductive Fault where
  /-- Raised by no command (safe: nothing stops by it); an inductive needs a constructor. -/
  | none
  deriving DecidableEq, Repr

/-- Refusals. -/
inductive Refusal where
  /-- Raised by `exec` for a command that has no meaning yet (safe: the machine stops). -/
  | notModelled (mnemonic : String)
  deriving DecidableEq, Repr

/-- 100 ms in T0 ticks: the watchdog period (R26). -/
def wdTicks : Nat := 40960000

/-- Boot control at the end of boot: running, every watchdog just serviced. -/
def Sys.reset : Sys where
  phase := .running
  wdDue := [(0, wdTicks), (1, wdTicks), (2, wdTicks), (3, wdTicks), (4, wdTicks), (5, wdTicks), (6, wdTicks),
    (7, wdTicks)]
  halted := []
  resetDue := none
  canId := 0
  bootLevels := false
  bootId := 0
  loaded := [(0, 0, [])]

/-- The balls at the end of boot (R484). -/
def Pins.reset : Pins where
  resetN := true
  trstN := false
  mctrig := false
  ppsOut := false
  canTxRecessive := true

/-- Registers whose value after reset is not the default of the object tables: the reset cause of a PIN reset, the slot that
booted, the result of the other slot, and the record of the boot (assumption log, entries 6 and 7). -/
def dictReset : Tbl Nat :=
  [(K.cause.CORE.key, 255), (K.boot.BOOT_TIME.key, 20000), (K.boot.BOOT_CANDIDATES.key, 1),
    ((K.bootp.SLOT_RESULT 1).key, 1)]

/-- The transports after reset. -/
def Mgmt.reset : Mgmt where
  lastAbort := 0
  lastData := []
  canRates := (2, 1)
  busOff := false
  canTx := []
  canXfer := none
  udpXfer := []
  mbxXfer := none
  windows := []
  kept := []
  spiHold := none
  torn := false
  mbxBusy := false
  mbxDone := false
  mbxResult := 0
  mbxLen := 0
  mailbox := []
  spiOut := []
  owed := []

/-- An image header with the given fields and one section for core 0 (R343): the public key of 97 bytes, the hash of the body and the
signature of 96 bytes stand in it. -/
def imageHeader (root seq secVersion fw bodyLen : Nat) (key hash signature : List Byte) : List Byte :=
  leBytes 4 0x53482560 ++ leBytes 2 1 ++ leBytes 1 root ++ leBytes 1 0 ++ leBytes 4 seq ++ leBytes 2 secVersion ++
    leBytes 2 0 ++ leBytes 4 fw ++ leBytes 4 bodyLen ++ leBytes 2 1 ++ List.replicate 6 0 ++ key ++ List.replicate 15 0 ++ hash ++
    leBytes 4 0 ++ leBytes 4 0 ++ leBytes 4 0 ++ leBytes 4 bodyLen ++ List.replicate 3792 0 ++ signature

/-- The public key under which the image of State.reset is signed, a key of the model's own (assumption log, entry 7). -/
def modelKey : List Byte :=
  beBytes 1 4 ++ beBytes 48 0x9E1787ABBA7688136D0B18BF3FEA2A84B5EFAD48A9EA364365C91EFA2412227D0456BA5EC7ED6063539ADA1C1E3B66E3 ++
    beBytes 48 0xD1A18E7F07ECE9BCDA3E46197BCDDB3ABF23386870F6D3F42454D1B0995378E7242FFD8112E8D9F824460C66FC476053

/-- SHA-384 of that key. -/
def modelRoot : List Byte :=
  beBytes 48 0x2E4081619435D11FAA05745E440F4B6EC7F8D34E6E421E3257D0C5204BDAF44BDB6CB34A0B239ADDE17A198479D05DB5

/-- SHA-384 of an empty body. -/
def emptyHash : List Byte :=
  beBytes 48 0x38B060A751AC96384CD9327EB1B1E36A21FDB71114BE07434C0CC7BF63F6E1DA274EDEBFE76F65FBD51AD2F14898B95B

/-- The header of the image of State.reset with its signature: a body of length 0. -/
def resetImage : List Byte :=
  imageHeader 0 1 0 0 0 modelKey emptyHash
    (beBytes 48 0x589407EDE523D26B1D65389F71615CF25E0759F35D275804FCCFAB925041918AEB3E87A6FC3475FE636706C6EE879743 ++
      beBytes 48 0x30DF279B9912FF5E35BE7616FEB26B89C4FDCF5ACE79F89178F5603C74F425A53E7DBE73F7A24EA47607FA2E15534377)

/-- The flash of a device as it is delivered to this model: one valid image in slot A, no ledger, no store copy
(assumption log, entry 7). -/
def Flash.reset : Flash where
  image := [(0, resetImage)]
  stores := []
  ledger := []
  ops := []
  journal := []
  eui64 := 0
  macBase := 0
  minVersion := 0
  provisionKey := List.replicate 32 0
  deviceKey := List.replicate 32 0
  imageKey := List.replicate 32 0
  rootHash := [modelRoot, List.replicate 48 0]
  rootRevoked := 0

/-- Every slot EMPTY, every engine free, the vault ready (R307, R324, R490). -/
def Keys.reset : Keys where
  slots := []
  engines := []
  waiting := []
  started := 0
  vaultLocked := false
  entropyFail := false
  vaultWaiting := []
  vaultResult := []
  admission := []
  ledgerOn := false

/-- Check units idle, queues empty, no buffer retired (R371, R490). -/
def Svc.reset : Svc where
  runs := []
  queues := []
  retiredBuffers := []

/-- The configuration of unit `u` after reset (R399). -/
def MainsCfg.reset (u : Nat) : MainsCfg where
  mode := if u < 8 then 1 else 0
  path := 0
  acq := 0
  input := 0
  avg := 0
  period := 16
  paired := false
  grouped := false
  source := 0
  param := 0
  sched := 0
  levels := (2147483647, 2147483647)
  hysts := (0, 0)
  thSources := (0, 0)
  thAlarms := (0, 0)
  holdoff := 1000
  userStage := 0
  coef := []
  skew := true

/-- A threshold after reset (R397). -/
def Thresh.reset : Thresh where
  above := false
  valid := false
  aboveSeen := false
  belowSeen := false
  count := 0
  max := 0
  min := 0
  latest := 0
  sinceAlarm := 0

/-- T9 clocks in T0 ticks (R15). -/
def clocks (n : Nat) : Nat := 32 * n

/-- Ticks from a restart to the first dump, window or conversion that counts (R383): 640 clocks of modulator start-up before a
dump, two dumps of 256 clocks more before a cycle-integral window, 52 clocks before an SH-240 conversion. -/
def startTicks (mode path : Nat) : Nat := clocks (if mode = 2 then 52 else if path = 1 then 640 + 2 * 256 else 640)

/-- Unit `u` after reset. -/
def MainsUnit.reset (u : Nat) : MainsUnit where
  cfg := MainsCfg.reset u
  busy := false
  edge := 0
  trigTick := 0
  pended := false
  pending := none
  sum := 0
  summed := 0
  firstLatch := 0
  sumFlags := 0
  startAt := startTicks (MainsCfg.reset u).mode (MainsCfg.reset u).path
  winEnd := 0
  lastWin := none
  latchNext := none
  words := []
  nextDump := 0
  combs := [0, 0, 0, 0]
  chain := 0
  compHist := []
  satNew := 0
  userWait := 32
  settledAt := none
  wave := []
  firHist := []
  biquads := [(0, 0, 0, 0), (0, 0, 0, 0), (0, 0, 0, 0), (0, 0, 0, 0)]
  ring := []
  ths := (Thresh.reset, Thresh.reset)
  holdUntil := none
  heldAlarm := none
  lastSched := none

/-- The mains converters after reset. -/
def Mains.reset : Mains where
  units := []
  groupPending := none
  groupSched := none
  lastPps := none
  alarms := []

/-- A port after reset: its link down, nothing queued. -/
def Port.reset : Port where
  cfg := none
  txq := []
  sending := none
  lastSent := none
  echo := (0, 0)

/-- The backhaul after reset. -/
def Backhaul.reset : Backhaul where
  ports := []
  laneMode := 1
  laneMap := 58596
  polarity := (0, 0)
  preset := 1
  domainPort := 0
  windows := []
  inbox := []
  unreserved := []

/-- Domain time after reset: UNSET, counting from 0 with c = 0 (R417). -/
def TimeState.reset : TimeState where
  baseTick := 0
  baseDt := 0
  c := 0
  history := []
  settled := 0
  settling := false
  bigRun := 0
  coastStart := none
  coastOver := false
  stepTick := none
  nextPps := none
  ppsRun := 0
  ppsLast := none
  ppsOutFall := none
  intervals := (0, 0)
  master := false
  lastSync := none
  lastAnnounce := none
  ptpLost := true
  ppsOutSec := none
  stepSum := 0
  ptp := ⟨none, none, 0, none, none, none⟩

/-- A bank after reset. -/
def Bank.reset : Bank where
  ticksBase := 0
  ctrs := []
  ovf := []

/-- Counters, dumps and samples after reset. -/
def Perf.reset : Perf where
  banks := []
  latchedAt := .none
  writing := none
  ring := []
  samples := []
  descriptors := 0

/-- The TAP at power-up. -/
def Jtag.reset : Jtag where
  tap := .testLogicReset
  instr := .idcode
  ir := []
  dr := []
  boundary := []
  tdo := none
  tck := false

/-- No loop test runs. -/
def LoopTest.reset : LoopTest where
  running := none
  start := 0


/-- The period of `hz` in units of 2^-16 tick, rounded to the nearest. -/
def nominalPeriod (hz : Nat) : Nat := (409600000 * 2 ^ 16 + hz / 2) / hz

/-- The tracker after reset: HOLDOVER at 50 Hz (R184). -/
def Tracker.reset : Tracker where
  cycle := 0
  zero := 0
  period := nominalPeriod 50
  phasor := none
  prior := none
  nominal := 50
  periods := []
  held := (0, 0)
  valid := 0
  lastPeriod := 0
  invalid := 0
  residual := 0
  slew := 0
  step := none

/-- A tide slot after reset (R184). -/
def TideSlot.reset : TideSlot where
  cls := 3
  stale := false
  power := 0
  rate := 0
  obs := 0
  missed := 0

/-- A tide table after reset: no occurrence observed. -/
def TideTable.reset : TideTable := ⟨[], [], [], 0⟩

/-- No sleep schedule. -/
def Sleep.none : Sleep := ⟨0, 0, 0, 0⟩

/-- A class vector of 24 slots at class 3 (R184). -/
def vectorWorst : Nat := 0xFFFFFFFFFFFF

/-- A FREE entry (R216, R217). -/
def Ep.reset : Ep where
  eui := 0
  addr := 0
  seg := 0
  state := 0
  adrift := false
  unusable := false
  lrMode := 0
  driftEmpty := true
  offsetEmpty := true
  laneSf := 0
  lrSf := 0
  bMax := 0
  rateMax := 0
  subset := 0
  driftBound := 0
  trim := 0
  phases := [0, 0, 0, 0, 0, 0, 0, 0]
  mapUp := [0, 0, 0]
  mapPend := [0, 0, 0]
  mapDn := [0, 0, 0]
  txSeq := 0
  rxTop := 0
  windowEmpty := true
  rxWindow := 0
  rxFc := 0
  leaseEnd := 0
  sleep := Sleep.none
  lastTs := 0
  offset := 0
  rate := 0
  holdEnd := .none
  tau := 0
  tauKnown := false
  features := 0
  lease := 0
  vector := vectorWorst
  snrs := []
  report := []
  route := .none
  routeSent := .none
  via := .none
  viaSeen := false
  granted := 0
  lineTag := 0
  allocReq := .none
  sounding := .none
  mapsAt := .none
  noAck := [0, 0, 0]
  crcRun := (0, 0)
  ceRuns := [[], [], []]
  ceBase := [.none, .none, .none]
  pendSet := false
  echo := .none
  nextSleep := .none
  window := .none
  listen := .none
  expired := 0
  movedTo := .none
  stepSum := 0
  marked := false
  allocHeard := .none
  reports := []

/-- A segment after reset (R187, R229). -/
def Seg.reset : Seg where
  firstBeacon := .none
  winding := false
  offset := 0
  region := [8, 0, 1, 24, 24]
  limits := [40, 100, 3, 86400, 3600, 1, 600, 40, 2, 0]
  lastEnd := (0, 0)
  offsetDue := false
  period := .none
  allocs := []
  beacon := []
  reach := []
  bcastSeq := 0
  routesAt := 0
  responses := []
  gaps := []
  claims := []
  rollover := .none
  retire := .none

/-- Medium access after reset: no entry, no page in use, nothing queued (R184). -/
def Mac.reset : Mac where
  eps := []
  pages := []
  retiredPages := []
  queue := []
  nextId := 0
  segs := []
  committed := []
  requests := []

/-- The grid domain after reset. -/
def Domain.reset : Domain where
  number := 0
  id := 0
  seq := 0
  peers := []
  heard := []
  helloAt := .none
  couplingAt := .none
  handOvers := []
  queries := []

/-- The transaction engine after reset: no record in use, buckets full (R281). -/
def TxnEngine.reset : TxnEngine where
  txns := []
  tokens := [(1, 500000 * 409600000), (2, 2000000 * 409600000), (3, 1000000 * 409600000)]
  tokensAt := 0
  waiting := []
  nextReport := 0x80000000
  reports := []

/-- The channel configuration after reset (R59, R90, R151). -/
def ChanCfg.reset : ChanCfg where
  term := true
  fixed := false
  fixedGain := 60
  target := -12
  gainMax := 84
  listenGain := 0
  idleTrim := 0
  txDelay := 0
  fsCurrent := 200
  masks := [0, 0, 0, 0, 0, 0, 0, 0]
  detectLevel := 64

/-- The swell configuration after reset (R119). -/
def SwellCfg.reset : SwellCfg := ⟨true, -16, 4, 8⟩

/-- A channel after reset (R61). -/
def Channel.reset : Channel where
  cfg := ChanCfg.reset
  swell := SwellCfg.reset
  gain := 84
  gainWas := 84
  gainFrom := 0
  frozen := false
  trim := 0
  phase := 0
  acc := 0
  written := .none
  trimTick := 0
  blocks := []
  fill := 0
  peak := 0
  blankEnd := .none
  rx := .none
  second := .none
  window := .none
  idleFrom := 0
  laneRx := .none
  laneSecond := .none
  ackDue := .none
  laneBlank := .none

/-- An LC group after reset. -/
def LcGroup.reset : LcGroup := ⟨true, false⟩

/-- The line side after reset. -/
def Line.reset : Line where
  chans := []
  groups := []
  frames := []
  nextFrame := 0
  rxs := []
  nextRx := 0
  nextAdmit := 0
  decoders := []
  windows := []
  lastGi := []
  laneWait := []
  wakes := []

/-- The machine right after reset, at the end of boot (R490). -/
def State.reset : State where
  pending := []
  now := 0
  free := 0
  sys := Sys.reset
  pins := Pins.reset
  dict := dictReset
  blobs := []
  mgmt := Mgmt.reset
  flash := Flash.reset
  keys := Keys.reset
  svc := Svc.reset
  wm := []
  mains := Mains.reset
  bh := Backhaul.reset
  time := TimeState.reset
  perf := Perf.reset
  jtag := Jtag.reset
  loop := LoopTest.reset
  tracker := Tracker.reset
  tides := []
  mac := Mac.reset
  domain := Domain.reset
  txn := TxnEngine.reset
  line := Line.reset

end Sys2Proof.Machine
end

