-- ==== Sys2Proof/Machine/Update.lean ====
section
/-! DEFINITION. One update per field of the state. -/

namespace Sys2Proof.Machine

/-- Change `pending`. -/
def State.modPending (s : State) (f : List Instr → List Instr) : State := { s with pending := f s.pending }

/-- Change `now`. -/
def State.modNow (s : State) (f : Nat → Nat) : State := { s with now := f s.now }

/-- Change `free`. -/
def State.modFree (s : State) (f : Nat → Nat) : State := { s with free := f s.free }

/-- Change `sys`. -/
def State.modSys (s : State) (f : Sys → Sys) : State := { s with sys := f s.sys }

/-- Change `pins`. -/
def State.modPins (s : State) (f : Pins → Pins) : State := { s with pins := f s.pins }

/-- Change `dict`. -/
def State.modDict (s : State) (f : Tbl Nat → Tbl Nat) : State := { s with dict := f s.dict }

/-- Change `blobs`. -/
def State.modBlobs (s : State) (f : Tbl (List Byte) → Tbl (List Byte)) : State := { s with blobs := f s.blobs }

/-- Change `mgmt`. -/
def State.modMgmt (s : State) (f : Mgmt → Mgmt) : State := { s with mgmt := f s.mgmt }

/-- Change `flash`. -/
def State.modFlash (s : State) (f : Flash → Flash) : State := { s with flash := f s.flash }

/-- Change `keys`. -/
def State.modKeys (s : State) (f : Keys → Keys) : State := { s with keys := f s.keys }

/-- Change `svc`. -/
def State.modSvc (s : State) (f : Svc → Svc) : State := { s with svc := f s.svc }

/-- Change `wm`. -/
def State.modWm (s : State) (f : List Host.Cell → List Host.Cell) : State := { s with wm := f s.wm }

/-- Change `mains`. -/
def State.modMains (s : State) (f : Mains → Mains) : State := { s with mains := f s.mains }

/-- Change `bh`. -/
def State.modBh (s : State) (f : Backhaul → Backhaul) : State := { s with bh := f s.bh }

/-- Change `time`. -/
def State.modTime (s : State) (f : TimeState → TimeState) : State := { s with time := f s.time }

/-- Change `perf`. -/
def State.modPerf (s : State) (f : Perf → Perf) : State := { s with perf := f s.perf }

/-- Change `jtag`. -/
def State.modJtag (s : State) (f : Jtag → Jtag) : State := { s with jtag := f s.jtag }

/-- Change `loop`. -/
def State.modLoop (s : State) (f : LoopTest → LoopTest) : State := { s with loop := f s.loop }

/-- Change `tracker`. -/
def State.modTracker (s : State) (f : Tracker → Tracker) : State := { s with tracker := f s.tracker }

/-- Change `tides`. -/
def State.modTides (s : State) (f : Tbl TideTable → Tbl TideTable) : State := { s with tides := f s.tides }

/-- Change `mac`. -/
def State.modMac (s : State) (f : Mac → Mac) : State := { s with mac := f s.mac }

/-- Change `domain`. -/
def State.modDomain (s : State) (f : Domain → Domain) : State := { s with domain := f s.domain }

/-- Change `txn`. -/
def State.modTxn (s : State) (f : TxnEngine → TxnEngine) : State := { s with txn := f s.txn }

/-- Change `line`. -/
def State.modLine (s : State) (f : Line → Line) : State := { s with line := f s.line }

end Sys2Proof.Machine
end

