-- ==== Sys2Proof/Machine/Ops.lean ====
section
/-! DEFINITION. The named operations over registers, byte strings, time, free values and memory that every meaning uses. -/

namespace Sys2Proof.Machine

/-- ceil(a / b). -/
def ceilDiv (a b : Nat) : Nat := (a + b - 1) / b

/-- What a meaning answers. -/
abbrev Out := Host.Outcome State Fault Refusal

/-- The cores run and the line is served (R345, R485). -/
def State.running (s : State) : Bool := s.sys.phase == .running

/-- The next state of a command that acts on `s`: what its effect made of everything but the queue of waiting commands. -/
def keepQueue (s t : State) : Out := .next (t.modPending fun _ => s.pending)

/-- A command's effect where the device runs; while it is held in reset or in recovery mode nothing happens. -/
def whenRunning (s : State) (t : State) : Out := keepQueue s (if s.running then t else s)

/-- Core `c` runs its firmware: the device runs, and no memory error has halted the core (R23, R25). -/
def State.coreUp (s : State) (c : Nat) : Bool := s.running && (Tbl.at? s.sys.halted c).isNone

/-- The effect of a command that is the work of core `c` (R25): a halted core does none of it until its watchdog resets the
device (R23). -/
def onCore (c : Nat) (s t : State) : Out := keepQueue s (if s.coreUp c then t else s)

/-- The core that coordinates segment `g` (R25). -/
def segCore (g : Nat) : Nat := 1 + g / 16

/-! Time in T0 ticks (R15). A span that is no whole number of ticks ends at the next tick (assumption log, entry 3). -/

/-- Ticks of `n` tenths of a microsecond. -/
def tenthUs (n : Nat) : Nat := (n * 4096 + 99) / 100

/-- Ticks of `n` microseconds. -/
def usTicks (n : Nat) : Nat := tenthUs (10 * n)

/-- Ticks of `n` milliseconds. -/
def msTicks (n : Nat) : Nat := n * 409600

/-- Ticks of `n` seconds. -/
def secTicks (n : Nat) : Nat := n * 409600000

/-! Registers of the dictionary. -/

/-- The raw value of a register. -/
def State.rd (s : State) (r : Reg) : Nat := Tbl.atD s.dict r.key r.dflt

/-- Write a register's raw value, reduced to its width. -/
def State.wr (s : State) (r : Reg) (v : Nat) : State :=
  s.modDict fun d => Tbl.store r.dflt d r.key (v % 2 ^ r.bits)

/-- A BOOLEAN register. -/
def State.flag (s : State) (r : Reg) : Bool := s.rd r != 0

/-- Set a BOOLEAN register. -/
def State.setFlag (s : State) (r : Reg) (b : Bool) : State := s.wr r (boolNat b)

/-- The signed value of an INTEGER register. -/
def State.rdInt (s : State) (r : Reg) : Int := sgn r.bits (s.rd r)

/-- Write an INTEGER register. -/
def State.wrInt (s : State) (r : Reg) (z : Int) : State := s.wr r (twos r.bits z)

/-- Advance a counter by `n`; it saturates at its maximum (R61, R426, R453). -/
def State.bumpBy (s : State) (r : Reg) (n : Nat) : State := s.wr r (min (2 ^ r.bits - 1) (s.rd r + n))

/-- Advance a counter by one. -/
def State.bump (s : State) (r : Reg) : State := s.bumpBy r 1

/-- A byte string of the dictionary. -/
def State.rdB (s : State) (b : Blob) : List Byte := Tbl.atD s.blobs b.key b.dflt

/-- Write a byte string of the dictionary. -/
def State.wrB (s : State) (b : Blob) (v : List Byte) : State := s.modBlobs fun d => Tbl.store b.dflt d b.key v

/-! Free values. -/

/-- A fresh free value and the state in which it has been used. -/
def State.fresh (s : State) : Nat × State := (Config.free s.free, s.modFree (· + 1))

/-! Working memory (R20). -/

/-- The byte of working memory at offset `a`; an unlisted byte reads 0. -/
def State.memByte (s : State) (a : Nat) : Byte := Tbl.atD s.wm a 0

/-- Write one byte of working memory; the list stays in its canonical form. -/
def State.setByte (s : State) (a : Nat) (b : Byte) : State := s.modWm fun m => Tbl.store 0 m a b

/-- Write bytes from offset `a` upwards. -/
def State.setBytes (s : State) : Nat → List Byte → State
  | _, [] => s
  | a, b :: bs => (s.setByte a b).setBytes (a + 1) bs

/-- The canonical form of working memory: offsets strictly rising, no listed byte 0. -/
def memWf (m : List Host.Cell) : Bool := Tbl.wf m && m.all fun c => c.2 != 0

/-! Counter banks (R464–R467). -/

/-- Bank `b`. -/
def State.bank (s : State) (b : Nat) : Bank := Tbl.atD s.perf.banks b Bank.reset

/-- Change bank `b`. -/
def State.modBank (s : State) (b : Nat) (f : Bank → Bank) : State :=
  s.modPerf fun p => { p with banks := Tbl.modD Bank.reset p.banks b f }

/-- Selection `k` of bank `b` counts event `code` of class `cls` (R465): its code matches, it is enabled, and the class, where
the event carries one, is in CLASS_MASK. -/
def State.selects (s : State) (b k code : Nat) (cls : Option Nat) : Bool :=
  let sel := s.rd (K.bank.SEL b k)
  code != 0 && field sel 0 8 == code && bitOf sel 12 &&
    (match cls with
     | none => true
     | some c => bitOf (field sel 8 4) c)

/-- Add `n` to counter `k` of a bank: a counter that passes 2^48 − 1 wraps and sets its overflow bit (R467). -/
def Bank.add (k n : Nat) (bk : Bank) : Bank :=
  let v := Tbl.atD bk.ctrs k 0 + n
  { bk with
    ctrs := Tbl.store 0 bk.ctrs k (v % 2 ^ 48)
    ovf := if 2 ^ 48 ≤ v then Tbl.store 0 bk.ovf k 1 else bk.ovf }

/-- `n` events `code` of class `cls` occur in bank `b` (R466). -/
def State.events (s : State) (b code : Nat) (cls : Option Nat) (n : Nat) : State :=
  (List.range 8).foldl (fun t k => if s.selects b k code cls then t.modBank b (Bank.add k n) else t) s

/-- One event `code` without a class. -/
def State.event (s : State) (b code : Nat) : State := s.events b code none 1

/-- One event `code` of class `c`. -/
def State.eventC (s : State) (b code c : Nat) : State := s.events b code (some c) 1

/-! Abort codes of R430. -/

/-- The CiA 301 abort codes (R430). -/
inductive Abort where
  | toggle | timeout | command | resources | level | writeOnly | readOnly | noObject | length | noSub | range
  | order | unusable | state
  deriving DecidableEq, Repr

/-- The number of an abort code (R430). -/
def Abort.code : Abort → Nat
  | .toggle => 0x05030000
  | .timeout => 0x05040000
  | .command => 0x05040001
  | .resources => 0x05040005
  | .level => 0x06010000
  | .writeOnly => 0x06010001
  | .readOnly => 0x06010002
  | .noObject => 0x06020000
  | .length => 0x06070010
  | .noSub => 0x06090011
  | .range => 0x06090030
  | .order => 0x08000000
  | .unusable => 0x08000020
  | .state => 0x08000022

/-- The outcome of a dictionary access stands in the state: its abort code and the bytes read. -/
def State.answer (s : State) (abort : Nat) (data : List Byte) : State :=
  s.modMgmt fun m => { m with lastAbort := abort, lastData := data }

/-- The level of an access on a path (R434); the store is applied and firmware acts at level 3. -/
def State.levelOf (s : State) : Path → Nat
  | .can => if s.sys.bootLevels then 2 else s.rd K.can.CAN_LEVEL
  | .spi => if s.sys.bootLevels then 3 else s.rd K.can.SPI_LEVEL
  | .udp m => s.rd (K.mgmt.MGMT_LEVEL m)
  | .store => 3
  | .firmware => 3

/-- The answer of an object's own rules to a write (R430 step 6): the abort code that refuses it, if any, and the state after
it. -/
structure WriteResult where
  abort : Option Abort
  state : State
  later : Option Waiting := none

/-- The write is refused. -/
def WriteResult.refuse (a : Abort) (s : State) : WriteResult := ⟨some a, s, none⟩

/-- The write is applied. -/
def WriteResult.accept (s : State) : WriteResult := ⟨none, s, none⟩

/-- The write is accepted and its response is owed until `w` has come (R336, R449). -/
def WriteResult.delay (w : Waiting) (s : State) : WriteResult := ⟨none, s, some w⟩

/-- A response is owed to its path. -/
def State.owe (s : State) (w : Waiting) (r : Reply) : State := s.modMgmt fun m => { m with owed := m.owed ++ [(w, r)] }

/-- A write's outcome, answered to its path; a delayed one is answered later. -/
def WriteResult.answered (r : WriteResult) : State :=
  match r.later, r.abort with
  | some w, _ => r.state.owe w .bare
  | none, some a => r.state.answer a.code []
  | none, none => r.state.answer 0 []

/-! Sampled descriptors (R473–R475), and what the counters of a core count (R466). -/

/-- The core that a user ID names: 8 to 15 are C0 to C7 (R324). -/
def userCore (user : Nat) : Option Nat := if 8 ≤ user && user < 16 then some (user - 8) else none

/-- An event of the bank of the core that a user ID names. -/
def State.userEvent (s : State) (user code : Nat) : State :=
  match userCore user with
  | some c => s.event c code
  | none => s

/-- Record a sampled descriptor when its work ends (R473–R475): every SAMPLE_N-th descriptor of the source; a full ring drops
its oldest record and sets SAMPLE_OVERFLOW. -/
def State.sampleDescriptor (s : State) (source opcode cls : Nat) (background : Bool) (addr issue : Nat) : State :=
  if !s.flag K.samp.SAMPLE_ENABLE || s.rd K.samp.SAMPLE_SOURCE ≠ source then s
  else
    let s := s.modPerf fun p => { p with descriptors := p.descriptors + 1 }
    if s.perf.descriptors % s.rd K.samp.SAMPLE_N ≠ 0 then s
    else
      let rec_ := leBytes 4 (opcode + source * 2 ^ 8 + cls * 2 ^ 12 + boolNat background * 2 ^ 14) ++ leBytes 4 (addr % 2 ^ 32) ++
        leBytes 4 (min (s.now - issue) 0xFFFFFFFF) ++ leBytes 4 (issue % 2 ^ 32)
      let full := s.perf.samples.length == 4096
      let s := s.modPerf fun p => { p with samples := (if full then p.samples.drop 1 else p.samples) ++ [rec_] }
      let s := s.wr K.samp.SAMPLE_COUNT (s.rd K.samp.SAMPLE_COUNT + 1)
      if full then s.setFlag K.samp.SAMPLE_OVERFLOW true else s

/-- `n` descriptors of work whose descriptor address and latency the spec does not give: both are free values where one is recorded
(assumption log, entry 26). -/
def State.sampleWork (s : State) (source opcode cls : Nat) : Nat → State
  | 0 => s
  | n + 1 =>
    if !s.flag K.samp.SAMPLE_ENABLE || s.rd K.samp.SAMPLE_SOURCE ≠ source then s
    else
      let (a, s) := s.fresh
      let (t, s) := s.fresh
      (s.sampleDescriptor source opcode cls false a (s.now - t)).sampleWork source opcode cls n

/-- A core's descriptor without a class of its own ends (R474): ISSUE_RANK is set, and its address is a free value. -/
def State.sampleBack (s : State) (source opcode issue : Nat) : State :=
  if !s.flag K.samp.SAMPLE_ENABLE || s.rd K.samp.SAMPLE_SOURCE ≠ source then s
  else
    let (a, s) := s.fresh
    s.sampleDescriptor source opcode 3 true a issue

/-- Bank `b` counts events of a code (R465). -/
def State.counted (s : State) (b code : Nat) : Bool := (List.range 8).any fun k => s.selects b k code none

/-- Events of a code that the spec defines and whose number in `d` ticks it does not give: a free value up to `d` (assumption log,
entry 2). -/
def State.freeEvents (s : State) (b code d : Nat) : State :=
  if s.counted b code then
    let (v, t) := s.fresh
    t.events b code none (v % (d + 1))
  else s

/-! Hardware queues (R363–R369). -/

/-- Queue `q`, empty where unlisted. -/
def HwQueue.empty : HwQueue := ⟨[], false, false, none, []⟩

/-- Queue `q`. -/
def State.queue (s : State) (q : Nat) : HwQueue := Tbl.atD s.svc.queues q HwQueue.empty

/-- Change queue `q`. -/
def State.modQueue (s : State) (q : Nat) (f : HwQueue → HwQueue) : State :=
  s.modSvc fun v => { v with queues := Tbl.modD HwQueue.empty v.queues q f }

/-- COUNT (R364). -/
def HwQueue.count (q : HwQueue) : Nat := q.words.length

/-- PACKETS (R364). -/
def HwQueue.packets (q : HwQueue) : Nat := (q.words.filter (·.2)).length

/-- FULL: COUNT equals the depth (R364). -/
def State.queueFull (s : State) (q : Nat) : Bool := (s.queue q).count == queueDepth q

/-- The producer of queue `q` waits for space (R363). -/
def producerWaits (q : Nat) : Bool :=
  !((108 ≤ q && q < 176) || q == 254 || q == 255)

/-- Remove the words of the packet being written: those after the last end mark (R366). -/
def dropOpen (ws : List (Nat × Bool)) : List (Nat × Bool) := (ws.reverse.dropWhile fun w => !w.2).reverse

/-- The class of the packets of a queue that belongs to one (R363). -/
def queueClass (q : Nat) : Option Nat :=
  if 96 ≤ q && q < 100 then some (q - 96) else if 100 ≤ q && q < 104 then some (q - 100) else none

/-- A word of queue `q` has been read by a user (R466): a core counts the word, and the packet that its end mark closes. -/
def State.wordRead (s : State) (q user : Nat) (endMark : Bool) : State :=
  match userCore user with
  | none => s
  | some c => if endMark then (s.event c 0x02).events c 0x09 (queueClass q) 1 else s.event c 0x02

/-- A producer writes one word to queue `q` (R364, R366, R369): a stalled read takes it at once; a full queue ignores it, sets
OVERRUN, removes the packet's words and ignores the rest of the packet. -/
def State.queuePut (s : State) (q word : Nat) (endMark : Bool) : State :=
  let h := s.queue q
  if h.dropping then
    (s.bump (K.q.OVERRUN_COUNT q)).modQueue q fun h => { h with dropping := !endMark }
  else if h.stalled then
    (s.modQueue q fun h => { h with stalled := false, lastRead := some (word, endMark) }).wordRead q (q - 72) endMark
  else if s.queueFull q then
    (((s.setFlag (K.q.OVERRUN q) true).bump (K.q.OVERRUN_COUNT q)).bump (K.q.PACKETS_DROPPED q)).modQueue q fun h =>
      { h with words := dropOpen h.words, dropping := !endMark }
  else s.modQueue q fun h => { h with words := h.words ++ [(word, endMark)] }

/-- Write a whole packet, its last word end-marked, word by word. -/
def State.putWords (s : State) (q : Nat) : List Nat → State
  | [] => s
  | [w] => s.queuePut q w true
  | w :: ws => (s.queuePut q w false).putWords q ws

/-- A producer sends a whole packet (R365): a producer that waits for space holds the packet back until it fits. -/
def State.sendPacket (s : State) (q : Nat) (ws : List Nat) : State :=
  let h := s.queue q
  if producerWaits q && !h.stalled && (!h.heldBack.isEmpty || queueDepth q < h.count + ws.length) then
    s.modQueue q fun h =>
      { h with heldBack := h.heldBack ++ [ws.zipIdx.map fun p => (p.1, p.2 + 1 == ws.length)] }
  else s.putWords q ws

end Sys2Proof.Machine
end

