-- ==== Sys2Proof/Machine/DomainTime.lean ====
section
/-! DEFINITION. Domain time as a function of the T0 counter (R415, R417): a count in units of 2^-40 tick. -/

namespace Sys2Proof.Machine

/-- Units of 2^-40 tick in one second. -/
def dtSecond : Nat := 409600000 * 2 ^ 40

/-- Domain time at tick `t` (R415). -/
def State.dtOf (s : State) (t : Nat) : Nat :=
  ((s.time.baseDt : Int) + ((t : Int) - s.time.baseTick) * (2 ^ 40 + s.time.c)).toNat

/-- Domain time now. -/
def State.dt (s : State) : Nat := s.dtOf s.now

/-- Whole domain seconds modulo 2^32 (R415). -/
def dtSec (x : Nat) : Nat := x / dtSecond % 2 ^ 32

/-- The fraction of a domain second in 2^-32 s. -/
def dtFrac (x : Nat) : Nat := x % dtSecond * 2 ^ 32 / dtSecond

/-- Seconds and fraction as one 64-bit value, seconds above (R399, R426). -/
def dtPair (x : Nat) : Nat := dtSec x * 2 ^ 32 + dtFrac x

/-- The domain time of a 64-bit seconds and fraction value. -/
def dtOfPair (v : Nat) : Nat := v / 2 ^ 32 * dtSecond + v % 2 ^ 32 * (dtSecond / 2 ^ 32)

/-- The first tick at which domain time is at least `x` (R415). -/
def State.tickOf (s : State) (x : Nat) : Nat :=
  let rate : Int := 2 ^ 40 + s.time.c
  ((s.time.baseTick : Int) + ((x : Int) - s.time.baseDt + rate - 1) / rate).toNat

/-- DT_STATE codes (R426). -/
def dtUnset : Nat := 0
/-- `TRACKING`. -/
def dtTracking : Nat := 1
/-- `COASTING`. -/
def dtCoasting : Nat := 2

/-- DT_STATE. -/
def State.dtState (s : State) : Nat := s.rd K.times.DT_STATE

/-- Domain time is synchronised (R417, R418). -/
def State.synchronised (s : State) : Bool :=
  !s.time.settling && (s.dtState == dtTracking || (s.dtState == dtCoasting && !s.time.coastOver))

/-- A step happened less than 2 s ago (R419: Draivitar then takes the device as not synchronised). -/
def State.recentStep (s : State) : Bool :=
  match s.time.stepTick with
  | some t => s.now < t + secTicks 2
  | none => false

/-- A span of units of 2^-40 tick in nanoseconds, rounded downwards. -/
def unitsToNs (u : Int) : Int := u * 244140625 / (100000000 * 2 ^ 40)

/-- A span in tenths of a nanosecond in units of 2^-40 tick. -/
def tenthNsToUnits (n : Int) : Int := n * 4096 * 2 ^ 40 / 100000

/-- The largest |c|: 200 ppm in units of 2^-40 (R415). -/
def maxC : Nat := 219902325

/-- The earliest whole domain second that has begun less than one tick ago or lies ahead, above `last`. -/
def State.nextSecond (s : State) (last : Option Nat) : Nat :=
  let cur := s.dt / dtSecond
  let n := if s.dt % dtSecond < 2 ^ 40 + maxC then cur else cur + 1
  match last with
  | some l => max n (l + 1)
  | none => n

end Sys2Proof.Machine
end

