-- ==== Sys2Proof/Machine/Coupling.lean ====
section
/-! DEFINITION. Which segments are coupled (R257, R258), and the seconds that pass without synchronised time while some are
(R420). -/

namespace Sys2Proof.Machine

/-- Network identifier of segment `g` (R12): device number above, segment below. -/
def State.nid (s : State) (g : Nat) : Nat := s.domain.number * 64 + g

/-- Segment `g` is enabled. -/
def State.segEnabled (s : State) (g : Nat) : Bool := s.flag (K.seg.SEG_ENABLE g)

/-- A linear level in 2^-16 is at least `db` decibels. -/
def reachesDb (level db : Nat) : Bool := 10 ^ db * 65536 ^ 10 ≤ level ^ 10

/-- The level of the interference record of segment `g` for a NID reaches COUPLE_LEVEL (R258). -/
def State.heardLoud (s : State) (g nid : Nat) : Bool :=
  match Tbl.at? s.domain.heard (g * 65536 + nid) with
  | some h => reachesDb h.level (s.rd K.dom.COUPLE_LEVEL)
  | none => false

/-- Peer `p` reports that its segment `b` hears a NID at COUPLE_LEVEL or more (R258). -/
def State.peerHears (s : State) (p : Peer) (b nid : Nat) : Bool :=
  p.couplings.any fun c => c.seg == b && c.nid == nid && 4 * s.rd K.dom.COUPLE_LEVEL ≤ c.level

/-- Segment `a` and the foreign segment with NID `n` are coupled (R257, R258). -/
def State.isCoupled (s : State) (a n : Nat) : Bool :=
  s.heardLoud a n ||
    (if n / 64 = s.domain.number then s.heardLoud (n % 64) (s.nid a)
     else match Tbl.at? s.domain.peers (n / 64) with
       | some p => s.peerHears p (n % 64) (s.nid a)
       | none => false)

/-- The NIDs of the segments that segment `a` is coupled with. -/
def State.coupledTo (s : State) (a : Nat) : List Nat :=
  let heard := s.domain.heard.filterMap fun h => if h.1 / 65536 = a then some (h.1 % 65536) else none
  let own := s.domain.heard.filterMap fun h =>
    if h.1 % 65536 = s.nid a && h.1 / 65536 ≠ a then some (s.nid (h.1 / 65536)) else none
  let told := s.domain.peers.flatMap fun p => p.2.couplings.map fun c => p.1 * 64 + c.seg
  ((heard ++ own ++ told).eraseDups.filter fun n => n != s.nid a && s.isCoupled a n).insertionSort fun x y => x ≤ y

/-- Domain time is fit for claims: synchronised, and no step within 2 s (R255, R419). -/
def State.claimTime (s : State) : Bool := s.synchronised && !s.recentStep

/-- The domain seconds that begin up to tick `t` while a segment is coupled and domain time is not fit for claims (R420). -/
def State.unsyncPass (s : State) (t : Nat) : State :=
  if s.claimTime || !((List.range 64).any fun g => s.segEnabled g && !(s.coupledTo g).isEmpty) then s
  else s.bumpBy K.times.UNSYNC_SECONDS (s.dtOf t / dtSecond - s.dt / dtSecond)

end Sys2Proof.Machine
end

