-- ==== Sys2Proof/Machine/Tracker.lean ====
section
/-! DEFINITION. The mains tracker: reference phase, its states, and the clearing of the tide tables (R153–R159). -/

namespace Sys2Proof.Machine

/-- TRACKER_STATE codes (R158). -/
def trkHoldover : Nat := 0
/-- `ACQUIRING`. -/
def trkAcquiring : Nat := 1
/-- `LOCKED`. -/
def trkLocked : Nat := 2

/-- TRACKER_STATE. -/
def State.trkState (s : State) : Nat := s.rd K.trks.TRACKER_STATE

/-- One cycle in units of 2^-32. -/
def fullCycle : Nat := 2 ^ 32

/-- Whole cycles and fraction (2^-32) of the reference phase at tick `t`, counted from the latest zero known. -/
def State.phaseAt (s : State) (t : Nat) : Int :=
  ((t : Int) * 2 ^ 16 - s.tracker.zero) * fullCycle / s.tracker.period

/-- REF_PHASE at tick `t` (R158). -/
def State.refPhase (s : State) (t : Nat) : Nat := (s.phaseAt t % fullCycle).toNat

/-- The cycle number at tick `t`. -/
def State.cycleAt (s : State) (t : Nat) : Int := s.tracker.cycle + s.phaseAt t / fullCycle

/-- The first T0 tick at or after reference phase zero `k` plus `frac` of a cycle (2^-32), by the phase held (R155). -/
def State.phaseTick (s : State) (k : Int) (frac : Nat) : Nat :=
  let num : Int := (s.tracker.zero : Int) * fullCycle + ((k - s.tracker.cycle) * fullCycle + frac) * s.tracker.period
  ((num + (2 ^ 48 - 1)) / 2 ^ 48).toNat

/-- ZERO_TICK: the latest reference phase zero at tick `t` (R158). -/
def State.zeroTick (s : State) (t : Nat) : Nat := s.phaseTick (s.cycleAt t) 0

/-- FREQUENCY in µHz of a period (R158). -/
def freqOf (period : Nat) : Nat := (409600000 * 2 ^ 16 * 1000000 + period / 2) / period

/-- Change the tracker's period and the FREQUENCY it shows; the tick is kept for the windows of R378. -/
def State.setPeriod (s : State) (p : Nat) : State :=
  (s.modTracker fun t => { t with period := p, periods := ((s.now, p) :: t.periods).take 8 }).wr K.trks.FREQUENCY (freqOf p)

/-- The tracker's period at tick `t` (R378), as far back as its latest changes are kept. -/
def State.periodAt (s : State) (t : Nat) : Nat :=
  match s.tracker.periods.find? fun x => decide (x.1 ≤ t) with
  | some x => x.2
  | none => if s.tracker.periods.length < 8 then nominalPeriod s.tracker.nominal else s.tracker.period

/-- The tracker was in `HOLDOVER` at some tick from `a` to before `b`, as far back as its latest stay (R395). -/
def State.heldIn (s : State) (a b : Nat) : Bool :=
  s.tracker.held.1 < b && (s.trkState == trkHoldover || a < s.tracker.held.2)

/-- Every channel's tide table returns to its state after reset (R157, R184). -/
def State.clearTides (s : State) : State := s.modTides fun _ => []

/-- Enter `HOLDOVER`; an exit from another state is counted (R156, R158). -/
def State.holdover (s : State) : State :=
  let s := if s.trkState = trkHoldover then s
    else ((s.bump K.trks.LOCK_LOSS_COUNT).setFlag K.trks.HOLDOVER_SEEN true).modTracker fun t =>
      { t with held := (s.now, t.held.2) }
  (s.wr K.trks.TRACKER_STATE trkHoldover).modTracker fun t =>
    { t with valid := 0, invalid := 0, residual := 0, slew := 0, step := none, lastPeriod := 0 }

/-- The reference unit is in native mode on its external input with its waveform path (R153). -/
def State.refUnitFit (s : State) : Bool :=
  let c := (Tbl.atD s.mains.units (s.rd K.trk.REF_UNIT) (MainsUnit.reset (s.rd K.trk.REF_UNIT))).cfg
  c.mode == 1 && c.path == 0 && c.input == 0

/-- A cycle with measured period `p` (2^-16 tick) is valid (R153). -/
def State.cycleValid (s : State) (p : Nat) : Bool :=
  match s.tracker.phasor with
  | none => false
  | some f => s.refUnitFit && !f.unsettled && s.rd K.trk.REF_MIN_LEVEL * 256 ≤ f.magnitude &&
      409600000 * 2 ^ 16 ≤ p * 70 && p * 40 ≤ 409600000 * 2 ^ 16

/-- The period measured between two phasors of the reference unit, in 2^-16 tick: the fundamental has turned by the whole cycles
between the midpoints, as the held period counts them, and by the difference of the angles (assumption log, entry 62). -/
def State.measuredPeriod (s : State) (old new : RefPhasor) : Nat :=
  let span := new.mid - old.mid
  let cycles := max 1 ((2 * span + s.tracker.period) / (2 * s.tracker.period))
  (((span * 2 ^ 32 : Nat) : Int) / ((cycles * 2 ^ 32 : Nat) + sgn 32 ((new.angle - old.angle) % 2 ^ 32).toNat)).toNat

/-- The positive-going zero crossing of the fundamental within a cycle about the midpoint of a phasor's window (R155), in 2^-16
tick. -/
def RefPhasor.crossing (f : RefPhasor) (period : Nat) : Nat :=
  f.mid + ((2 ^ 30 - f.angle) % 2 ^ 32).toNat * period / 2 ^ 32 - period / 2

/-- Two periods lie within 0.2 % (R154). -/
def periodsClose (p q : Nat) : Bool := 1000 * (max p q - min p q) ≤ 2 * q

/-- The measured phase less the phase held at a crossing (2^-16 tick), within half a cycle, in 2^-32 cycle. -/
def State.phaseError (s : State) (crossing : Nat) : Int :=
  let held := ((crossing : Int) - s.tracker.zero) * fullCycle / s.tracker.period % fullCycle
  if held * 2 ≤ fullCycle then -held else fullCycle - held

/-- Degrees in tenths as 2^-32 cycle. -/
def tenthDeg (d : Nat) : Int := (d : Int) * fullCycle / 3600

/-- The number of the held cycle whose zero lies nearest to a crossing. -/
def State.cycleNear (s : State) (crossing : Nat) : Nat :=
  (s.tracker.cycle + (((crossing : Int) - s.tracker.zero) * 2 + s.tracker.period) / (2 * s.tracker.period)).toNat

/-- Move the phase held by `e` (2^-32 cycle): phase zero comes earlier by `e` of a period. -/
def State.movePhase (s : State) (e : Int) : State :=
  s.modTracker fun t => { t with zero := ((t.zero : Int) - e * t.period / fullCycle).toNat }

/-- Name the held cycle nearest to a crossing as the latest zero known; the phase held does not change. -/
def State.reanchor (s : State) (crossing : Nat) : State :=
  let k := s.cycleNear crossing
  s.modTracker fun t => { t with zero := ((t.zero : Int) + ((k : Int) - t.cycle) * t.period).toNat, cycle := k }

/-- The entry into `LOCKED` (R157): an error of at most 7.5° is slewed, a larger one is stepped at the next boundary of the held cycle. -/
def State.lock (s : State) (p crossing : Nat) : State :=
  let e := s.phaseError crossing
  let s := s.wr K.trks.TRACKER_STATE trkLocked
  let s := s.modTracker fun t =>
    if |e| ≤ tenthDeg 75 then { t with slew := e, step := none } else { t with slew := 0, step := some (e, (s.cycleAt s.now + 1).toNat) }
  (s.modTracker fun t => { t with invalid := 0, residual := 0 }).setPeriod p

/-- The step of the entry error once the boundary that it awaits lies at or before tick `t` (R157): it is counted and clears the tables. -/
def State.takeStep (s : State) (t : Nat) : State :=
  match s.tracker.step with
  | none => s
  | some (e, k) =>
    if s.phaseTick k 0 ≤ t then
      (((s.movePhase e).modTracker fun t => { t with step := none }).bump K.trks.PHASE_STEP_COUNT).clearTides
    else s

/-- A valid cycle in `LOCKED` (R154, R155, R157): frequency is corrected; an entry error awaits its step or is slewed by at most 0.5°;
after that phase zero is placed at the crossing unless the residual is above 5° (assumption log, entry 16). -/
def State.lockedCycle (s : State) (p crossing : Nat) : State :=
  let s := s.modTracker fun t => { t with invalid := 0 }
  match s.tracker.step with
  | some _ => s.setPeriod p
  | none =>
    if s.tracker.slew ≠ 0 then
      let d := clampInt (-(tenthDeg 5)) (tenthDeg 5) s.tracker.slew
      ((s.movePhase d).modTracker fun t => { t with slew := t.slew - d }).setPeriod p
    else
      let e := s.phaseError crossing
      if tenthDeg 50 < |e| then
        let s := s.modTracker fun t => { t with residual := t.residual + 1 }
        if 4 ≤ s.tracker.residual then s.holdover else s.setPeriod p
      else
        let k := s.cycleNear crossing
        (s.modTracker fun t => { t with residual := 0, zero := crossing, cycle := k }).setPeriod p

/-- A valid cycle (R154). -/
def State.validCycle (s : State) (p crossing : Nat) : State :=
  if s.trkState = trkLocked then s.lockedCycle p crossing
  else
    let run := if s.trkState = trkAcquiring && periodsClose p s.tracker.lastPeriod then s.tracker.valid + 1 else 1
    let s := if s.trkState = trkHoldover then s.modTracker fun t => { t with held := (t.held.1, s.now) } else s
    let s := (s.wr K.trks.TRACKER_STATE trkAcquiring).modTracker fun t => { t with valid := run, lastPeriod := p }
    if 8 ≤ run then s.lock p crossing else s

/-- An invalid cycle (R154). -/
def State.invalidCycle (s : State) : State :=
  if s.trkState = trkAcquiring then s.holdover
  else if s.trkState = trkLocked then
    let s := s.modTracker fun t => { t with invalid := t.invalid + 1, residual := 0 }
    if 2 ≤ s.tracker.invalid then s.holdover else s
  else s

/-- A write of REF_UNIT (R158): the tracker is in `HOLDOVER` at once. -/
def State.refUnitWrite (s : State) (u : Nat) : WriteResult :=
  if 7 < u then .refuse .range s
  else .accept (((s.wr K.trk.REF_UNIT u).holdover).modTracker fun t => { t with phasor := none, prior := none })

/-- θ_s of segment `seg` at tick `t` (R159), given the offset in force in 0.1°. -/
def State.segPhaseAt (s : State) (t : Nat) (offset : Int) : Nat :=
  ((s.phaseAt t + offset * fullCycle / 3600) % fullCycle).toNat

/-- The tide slot of phase θ (R159). -/
def slotOfPhase (θ : Nat) : Nat := 24 * θ / fullCycle

end Sys2Proof.Machine
end

