-- ==== Sys2Proof/Machine/Clock.lean ====
section
/-! DEFINITION. The passing of T0 time, and the deadlines of expiry commands (assumption log, entry 3). -/

namespace Sys2Proof.Machine

/-- All 64 engines run a message (R466, bank 11). -/
def State.enginesBusy (s : State) : Bool := Tbl.count s.keys.engines (fun _ e => e.running.isSome) == 64

/-- Core `c` is not idle on its queue Q80 + c (R368, R466). -/
def State.coreAwake (s : State) (c : Nat) : Bool := !(s.queue (80 + c)).stalled

/-- A P0 leg is open (R466, bank 10). -/
def State.p0Open (s : State) : Bool :=
  s.txn.txns.any fun p => p.2.pri == 0 && p.2.legs.any fun l => match l.phase with
    | .ended _ _ => false
    | _ => true

/-- The events measured in ticks of R466 during `d` ticks of unchanged state. The ticks with backlog above half of R142's
threshold depend on the decoders' measured rate, which the spec does not give: their number is a free value up to `d` while
a payload is being received; so are the bursts of a core and its ticks of waiting for them (assumption log, entry 2). -/
def State.tickEvents (s : State) (d : Nat) : State :=
  let s := if s.enginesBusy then s.events 11 0x08 none d else s
  let s := if s.p0Open then s.events 10 0x0A none d else s
  let s := if s.line.rxs.any fun x => x.2.stage == .payload then
      let (v, t) := s.fresh
      t.events 8 0x0B none (v % (d + 1))
    else s
  (List.range 8).foldl (fun t c =>
    let t := if t.coreAwake c then t.events c 0x07 none d else t
    (t.freeEvents c 0x05 d).freeEvents c 0x06 d) s

/-- The T0 counter reaches `t`; the tracker's step of R157 falls on its boundary. -/
def State.passTo (s : State) (t : Nat) : State :=
  if t ≤ s.now then s else (((s.unsyncPass t).tickEvents (t - s.now)).takeStep t).modNow fun _ => t

/-- A deadline that is armed is met: time is at least its tick. -/
def State.atDeadline (s : State) (due : Nat) : State := s.passTo due

end Sys2Proof.Machine
end

