-- ==== Sys2Proof/Machine/Aes.lean ====
section
/-! DEFINITION. AES and its modes CCM, GCM, CMAC, CTR and key wrap, which the spec takes from their standards: FIPS 197, SP 800-38A
to 800-38D, RFC 3394 and RFC 3610 (R78, R305, R323, R410, R439; assumption log, entry 48). -/

namespace Sys2Proof.Machine

/-- The substitution table (FIPS 197), a number whose byte `b` is the substitute of `b`. -/
def aesTable : Nat :=
  0x75B227EBE28012079A059618C323C7041531D871F1E5A534CCF73F362693FDB7C072A49CAFA2D4ADF04759FA7DC982CA76ABD7FE2B670130C56F6BF27B777C63 +
  0xD2F3FF1021DAB6BCF5389D928F40A351A89F3C507F02F94585334D43FBAAEFD0CF584C4A39BECB6A5BB1FC20ED00D153842FE329B3D63B52A05A6E1B1A2C8309 * 256 ^ 64 +
  0x08AE7A65EAF4566CA94ED58D6D37C8E779E4959162ACD3C25C2406490A3A32E0DB0B5EDE14B8EE4688902A22DC4F816073195D643D7EA7C41744975FEC130CCD * 256 ^ 128 +
  0x16BB54B00F2D99416842E6BF0D89A18CDF2855CEE9871E9B948ED9691198F8E19E1DC186B95735610EF6034866B53E708A8BBD4B1F74DDE8C6B4A61C2E2578BA * 256 ^ 192

/-- The inverse table. -/
def aesBack : Nat :=
  0x25D18B6D49A25B76B224D92866A12E084EC3FA420B954CEE3D23C2A632947B54CBE9DEC444438E3487FF2F9B8239E37CFBD7F3819EA340BF38A53630D56A0952 +
  0x6B8A130103BDAFC1020F3FCA8F1E2CD00645B3B80558E4F70AD3BC8C00ABD890849D8DA75746155EDAB9EDFD5048706C92B6655DCC5CA4D41698688664F6F872 * 256 ^ 64 +
  0xF45ACD78FEC0DB9A2079D2C64B3E56FC1BBE18AA0E62B76F89C5291D711AF1476EDF751CE837F9E28535ADE72274AC9673E6B4F0CECFF297EADC674F4111913A * 256 ^ 128 +
  0x7D0C2155631469E126D677BA7E042B17619953833CBBEBC8B0F52AAE4D3BE0A0EF9CC9939F7AE52D0D4AB519A97F51605FEC8027591012B131C7078833A8DD1F * 256 ^ 192

/-- One byte through the substitution table. -/
def aesSub (b : Nat) : Nat := aesTable / 256 ^ b % 256

/-- One byte back through the substitution table. -/
def aesUnsub (b : Nat) : Nat := aesBack / 256 ^ b % 256

/-- A byte of the field times x. -/
def aesTimes2 (b : Nat) : Nat := if b < 128 then 2 * b else (2 * b) % 256 ^^^ 0x1B

/-- The product of a byte of the field and a constant below 16. -/
def aesMul (a b : Nat) : Nat :=
  ((List.range 4).foldl (fun (r : Nat × Nat) i => (if b / 2 ^ i % 2 = 1 then r.1 ^^^ r.2 else r.1, aesTimes2 r.2)) (0, a)).1

/-- Exclusive or of two byte strings, as long as the shorter. -/
def xorNats (a b : List Nat) : List Nat := List.zipWith (fun x y => x ^^^ y) a b

/-- The next word of a key schedule: `i` its index, `nk` the words of the key, `before` the word before it, `back` the word `nk` before
it. -/
def aesNextWord (nk i : Nat) (before back : List Nat) : List Nat :=
  let t :=
    if i % nk = 0 then
      match (before.drop 1 ++ before.take 1).map aesSub with
      | [] => []
      | b :: bs => (b ^^^ (List.range (i / nk - 1)).foldl (fun r _ => aesTimes2 r) 1) :: bs
    else if 6 < nk && i % nk = 4 then before.map aesSub
    else before
  xorNats back t

/-- `n` more words of a key schedule, the words so far standing latest first. -/
def aesSchedule (nk : Nat) : Nat → List (List Nat) → List (List Nat)
  | 0, ws => ws.reverse
  | n + 1, ws => aesSchedule nk n (aesNextWord nk ws.length (ws.headD []) (ws.getD (nk - 1) []) :: ws)

/-- Cut a list into pieces of `k`. -/
def piecesOf {α : Type} (k : Nat) : Nat → List α → List (List α)
  | 0, _ => []
  | n + 1, xs => if xs.isEmpty then [] else xs.take k :: piecesOf k n (xs.drop k)

/-- The round keys of a key of 16 or 32 bytes. -/
def aesRoundKeys (key : List Nat) : List (List Nat) :=
  let nk := key.length / 4
  let ws := aesSchedule nk (4 * (nk + 7) - nk) (piecesOf 4 nk key).reverse
  piecesOf 16 (nk + 7) ws.flatten

/-- The rows of a block, shifted; byte 4c + r stands in row r of column c. -/
def aesShift (back : Bool) (b : List Nat) : List Nat :=
  (List.range 16).map fun i =>
    let r := i % 4
    let c := if back then (i / 4 + 4 - r) % 4 else (i / 4 + r) % 4
    b.getD (4 * c + r) 0

/-- One column times the circulant of `m`. -/
def aesColumn (m : List Nat) (col : List Nat) : List Nat :=
  (List.range 4).map fun r => (List.range 4).foldl (fun a j => a ^^^ aesMul (col.getD j 0) (m.getD ((j + 4 - r) % 4) 0)) 0

/-- Every column of a block times the circulant of `m`. -/
def aesMix (m : List Nat) (b : List Nat) : List Nat := ((piecesOf 4 4 b).map (aesColumn m)).flatten

/-- The rounds after the first key, from the keys that remain. -/
def aesRounds : List (List Nat) → List Nat → List Nat
  | [], b => b
  | [k], b => xorNats (aesShift false (b.map aesSub)) k
  | k :: ks, b => aesRounds ks (xorNats (aesMix [2, 3, 1, 1] (aesShift false (b.map aesSub))) k)

/-- The inverse rounds, from the keys in reverse order. -/
def aesUnrounds : List (List Nat) → List Nat → List Nat
  | [], b => b
  | [k], b => xorNats ((aesShift true b).map aesUnsub) k
  | k :: ks, b => aesUnrounds ks (aesMix [14, 11, 13, 9] (xorNats ((aesShift true b).map aesUnsub) k))

/-- Encrypt one block under round keys. -/
def aesEncrypt (keys : List (List Nat)) (b : List Nat) : List Nat :=
  match keys with
  | [] => b
  | k :: ks => aesRounds ks (xorNats b k)

/-- Decrypt one block under round keys. -/
def aesDecrypt (keys : List (List Nat)) (b : List Nat) : List Nat :=
  match keys.reverse with
  | [] => b
  | k :: ks => aesUnrounds ks (xorNats b k)

/-- A number as `n` bytes, the most significant first. -/
def bigBytes (n v : Nat) : List Nat := (List.range n).reverse.map fun i => v / 256 ^ i % 256

/-- Pad with zeros to a multiple of 16 bytes. -/
def padBlock (b : List Nat) : List Nat := b ++ List.replicate ((16 - b.length % 16) % 16) 0

/-- Exclusive or with the keystream of counter blocks `at`, from counter `c` on. -/
def ctrFrom (keys : List (List Nat)) (block : Nat → List Nat) : Nat → List (List Nat) → List Nat
  | _, [] => []
  | c, b :: bs => xorNats b (aesEncrypt keys (block c)) ++ ctrFrom keys block (c + 1) bs

/-- Counter mode over a message. -/
def ctrCrypt (keys : List (List Nat)) (block : Nat → List Nat) (c : Nat) (msg : List Nat) : List Nat :=
  ctrFrom keys block c (piecesOf 16 (msg.length + 1) msg)

/-! CCM with a 13-byte nonce and a 2-byte length field. -/

/-- The CBC-MAC of a CCM message. -/
def ccmMac (keys : List (List Nat)) (tag : Nat) (nonce aad msg : List Nat) : List Nat :=
  let b0 := (64 + 8 * ((tag - 2) / 2) + 1) :: nonce ++ bigBytes 2 msg.length
  let blocks := b0 ++ padBlock (bigBytes 2 aad.length ++ aad) ++ padBlock msg
  (piecesOf 16 (blocks.length + 1) blocks).foldl (fun x b => aesEncrypt keys (xorNats x b)) (List.replicate 16 0)

/-- Counter block `c` of a CCM message. -/
def ccmBlock (nonce : List Nat) (c : Nat) : List Nat := 1 :: nonce ++ bigBytes 2 c

/-- Bytes as numbers. -/
def natsOf (b : List Byte) : List Nat := b.map (·.toNat)

/-- Numbers as bytes. -/
def bytesOfNats (b : List Nat) : List Byte := b.map (BitVec.ofNat 8)

/-- AES-CCM encryption: the ciphertext and the tag of `tag` bytes. -/
def ccmSeal (key : List Byte) (tag : Nat) (nonce aad msg : List Byte) : List Byte × List Byte :=
  let keys := aesRoundKeys (natsOf key)
  let n := natsOf nonce
  let mac := ccmMac keys tag n (natsOf aad) (natsOf msg)
  (bytesOfNats (ctrCrypt keys (ccmBlock n) 1 (natsOf msg)),
    bytesOfNats ((xorNats mac (aesEncrypt keys (ccmBlock n 0))).take tag))

/-- AES-CCM decryption: the plaintext, and whether the tag verifies. -/
def ccmOpen (key : List Byte) (nonce aad cipher tag : List Byte) : List Byte × Bool :=
  let keys := aesRoundKeys (natsOf key)
  let n := natsOf nonce
  let plain := ctrCrypt keys (ccmBlock n) 1 (natsOf cipher)
  let mac := ccmMac keys tag.length n (natsOf aad) plain
  (bytesOfNats plain, bytesOfNats ((xorNats mac (aesEncrypt keys (ccmBlock n 0))).take tag.length) == tag)

/-! GCM with a 96-bit IV and a 16-byte tag. -/

/-- A block as a number, its first byte the most significant. -/
def bigNat (b : List Nat) : Nat := b.foldl (fun a x => 256 * a + x) 0

/-- One step of the product in the field of GHASH. -/
def ghashStep (x : Nat) (r : Nat × Nat) (i : Nat) : Nat × Nat :=
  (if x / 2 ^ (127 - i) % 2 = 1 then r.1 ^^^ r.2 else r.1,
    if r.2 % 2 = 1 then r.2 / 2 ^^^ (0xE1 * 2 ^ 120) else r.2 / 2)

/-- The product in the field of GHASH. -/
def ghashMul (x y : Nat) : Nat := ((List.range 128).foldl (ghashStep x) (0, y)).1

/-- GHASH of additional data and ciphertext. -/
def ghash (h : Nat) (aad cipher : List Nat) : Nat :=
  let blocks := padBlock aad ++ padBlock cipher ++ bigBytes 8 (8 * aad.length) ++ bigBytes 8 (8 * cipher.length)
  (piecesOf 16 (blocks.length + 1) blocks).foldl (fun y b => ghashMul (y ^^^ bigNat b) h) 0

/-- Counter block `c` of a GCM message. -/
def gcmBlock (iv : List Nat) (c : Nat) : List Nat := iv ++ bigBytes 4 c

/-- The 16-byte tag of a GCM message. -/
def gcmTag (keys : List (List Nat)) (iv aad cipher : List Nat) : List Nat :=
  let h := bigNat (aesEncrypt keys (List.replicate 16 0))
  xorNats (bigBytes 16 (ghash h aad cipher)) (aesEncrypt keys (gcmBlock iv 1))

/-- AES-GCM encryption: the ciphertext and the 16-byte tag. -/
def gcmSeal (key iv aad msg : List Byte) : List Byte × List Byte :=
  let keys := aesRoundKeys (natsOf key)
  let cipher := ctrCrypt keys (gcmBlock (natsOf iv)) 2 (natsOf msg)
  (bytesOfNats cipher, bytesOfNats (gcmTag keys (natsOf iv) (natsOf aad) cipher))

/-- AES-GCM decryption: the plaintext, and whether the tag verifies. -/
def gcmOpen (key iv aad cipher tag : List Byte) : List Byte × Bool :=
  let keys := aesRoundKeys (natsOf key)
  (bytesOfNats (ctrCrypt keys (gcmBlock (natsOf iv)) 2 (natsOf cipher)),
    bytesOfNats (gcmTag keys (natsOf iv) (natsOf aad) (natsOf cipher)) == tag)

/-! CMAC. -/

/-- A subkey of CMAC from the one before. -/
def cmacDouble (v : Nat) : Nat := if v < 2 ^ 127 then 2 * v else (2 * v) % 2 ^ 128 ^^^ 0x87

/-- The 16-byte CMAC of a message. -/
def cmacOf (key msg : List Byte) : List Byte :=
  let keys := aesRoundKeys (natsOf key)
  let m := natsOf msg
  let k1 := cmacDouble (bigNat (aesEncrypt keys (List.replicate 16 0)))
  let whole := !m.isEmpty && m.length % 16 == 0
  let last := if whole then m.drop (m.length - 16) else m.drop (m.length / 16 * 16)
  let head := m.take (m.length - last.length)
  let tail := if whole then xorNats last (bigBytes 16 k1) else xorNats (padBlock (last ++ [128])) (bigBytes 16 (cmacDouble k1))
  let x := (piecesOf 16 (head.length + 1) head).foldl (fun x b => aesEncrypt keys (xorNats x b)) (List.replicate 16 0)
  bytesOfNats (aesEncrypt keys (xorNats x tail))

/-! Key wrap (RFC 3394). -/

/-- One step back of the unwrap: step `t` on block `i` of the registers. -/
def unwrapStep (keys : List (List Nat)) (n : Nat) (r : List Nat × List (List Nat)) (t : Nat) : List Nat × List (List Nat) :=
  let i := (t - 1) % n
  let b := aesDecrypt keys (xorNats r.1 (bigBytes 8 t) ++ r.2.getD i [])
  (b.take 8, r.2.set i (b.drop 8))

/-- Unwrap a key block of whole 64-bit words; none where its integrity check fails. -/
def keyUnwrap (key wrapped : List Byte) : Option (List Byte) :=
  let w := piecesOf 8 (wrapped.length + 1) (natsOf wrapped)
  let n := w.length - 1
  let r := ((List.range (6 * n)).reverse.map (· + 1)).foldl (unwrapStep (aesRoundKeys (natsOf key)) n) (w.headD [], w.drop 1)
  if wrapped.length % 8 = 0 && 3 ≤ w.length && r.1 == List.replicate 8 0xA6 then some (bytesOfNats r.2.flatten) else none

/-- One step of the wrap. -/
def wrapStep (keys : List (List Nat)) (n : Nat) (r : List Nat × List (List Nat)) (t : Nat) : List Nat × List (List Nat) :=
  let i := (t - 1) % n
  let b := aesEncrypt keys (r.1 ++ r.2.getD i [])
  (xorNats (b.take 8) (bigBytes 8 t), r.2.set i (b.drop 8))

/-- Wrap a block of whole 64-bit words. -/
def keyWrap (key plain : List Byte) : List Byte :=
  let w := piecesOf 8 (plain.length + 1) (natsOf plain)
  let r := ((List.range (6 * w.length)).map (· + 1)).foldl (wrapStep (aesRoundKeys (natsOf key)) w.length) (List.replicate 8 0xA6, w)
  bytesOfNats (r.1 ++ r.2.flatten)

end Sys2Proof.Machine
end

