-- ==== Sys2Proof/Machine/Cordic.lean ====
section
/-! DEFINITION. Angles in 2^-32 turn: the rotation of a point, and the angle of a point. The spec gives the line's values as real
numbers and no word width for the engines that compute them; the model's fixed-point arithmetic is a DESIGN CHOICE (assumption
log, entry 47). -/

namespace Sys2Proof.Machine

/-- A carrier value, real and imaginary part. -/
abbrev Gauss := Int × Int

/-- 2^32 × arctan(2^-i) / 2π for i = 0 to 31. -/
def cordicAngles : List Int :=
  [536870912, 316933406, 167458907, 85004756, 42667331, 21354465, 10679838, 5340245, 2670163, 1335087, 667544, 333772, 166886, 83443, 41722, 20861,
   10430, 5215, 2608, 1304, 652, 326, 163, 81, 41, 20, 10, 5, 3, 1, 1, 0]

/-- One CORDIC step: turn the point by the step's angle, forwards where `up`. -/
def cordicStep (i : Nat) (up : Bool) (p : Gauss) : Gauss :=
  let dx := p.2 / 2 ^ i
  let dy := p.1 / 2 ^ i
  if up then (p.1 - dx, p.2 + dy) else (p.1 + dx, p.2 - dy)

/-- Turn a point by the angle `z` that remains, step by step. -/
def cordicTurn : Nat → List Int → Int → Gauss → Gauss
  | _, [], _, p => p
  | i, a :: as, z, p =>
    if 0 ≤ z then cordicTurn (i + 1) as (z - a) (cordicStep i true p) else cordicTurn (i + 1) as (z + a) (cordicStep i false p)

/-- Turn a point onto the positive real axis and answer the angle that this took off. -/
def cordicAngle : Nat → List Int → Gauss → Int → Int
  | _, [], _, z => z
  | i, a :: as, p, z =>
    if p.2 ≤ 0 then cordicAngle (i + 1) as (cordicStep i true p) (z - a) else cordicAngle (i + 1) as (cordicStep i false p) (z + a)

/-- A quarter turn forwards. -/
def quarterTurn (p : Gauss) : Gauss := (-p.2, p.1)

/-- A point times exp(2πj z / 2^32), in units of 2^-30 of the point's. -/
def turned (z : Int) (p : Gauss) : Gauss :=
  let q := ((z + 2 ^ 29) / 2 ^ 30) % 4
  let p := if q = 0 then p else if q = 1 then quarterTurn p else if q = 2 then (-p.1, -p.2) else (p.2, -p.1)
  let r := z - (z + 2 ^ 29) / 2 ^ 30 * 2 ^ 30
  -- 652032874 / 2^30 is the inverse of the steps' gain
  cordicTurn 0 cordicAngles r (p.1 * 652032874, p.2 * 652032874)

/-- cos and sin of `num` / `den` turns, in 2^-30. -/
def unitAt (num den : Nat) : Gauss := turned (((num % den) * 2 ^ 32 / den : Nat) : Int) (1, 0)

/-- The angle of a point in 2^-32 turn, from −2^31 to 2^31; 0 for the origin, which adds nothing to a fit. -/
def turnOf (p : Gauss) : Int :=
  let up : Gauss := (p.1 * 2 ^ 40, p.2 * 2 ^ 40)
  if p = (0, 0) then 0
  else if 0 ≤ p.1 then cordicAngle 0 cordicAngles up 0
  else
    let z := cordicAngle 0 cordicAngles (-up.1, -up.2) 0
    if 0 ≤ p.2 then z + 2 ^ 31 else z - 2 ^ 31

/-! Complex arithmetic on carrier values. -/

/-- The product of two values. -/
def Gauss.mul (a b : Gauss) : Gauss := (a.1 * b.1 - a.2 * b.2, a.1 * b.2 + a.2 * b.1)

/-- The product with the conjugate of the second value. -/
def Gauss.mulConj (a b : Gauss) : Gauss := (a.1 * b.1 + a.2 * b.2, a.2 * b.1 - a.1 * b.2)

/-- The sum of two values. -/
def Gauss.add (a b : Gauss) : Gauss := (a.1 + b.1, a.2 + b.2)

/-- The difference of two values. -/
def Gauss.sub (a b : Gauss) : Gauss := (a.1 - b.1, a.2 - b.2)

/-- The squared magnitude. -/
def Gauss.power (a : Gauss) : Nat := (a.1 * a.1 + a.2 * a.2).toNat

/-- The integer square root, bit by bit from bit `n` downwards. -/
def isqrtFrom (v : Nat) : Nat → Nat → Nat
  | 0, r => r
  | n + 1, r => if (r + 2 ^ n) * (r + 2 ^ n) ≤ v then isqrtFrom v n (r + 2 ^ n) else isqrtFrom v n r

/-- The integer square root of a number below 2^256. -/
def isqrt (v : Nat) : Nat := isqrtFrom v 128 0

/-- The smallest `n` from `lo` up to `hi` that satisfies a rising test, by halving. -/
def leastBy (p : Nat → Bool) : Nat → Nat → Nat → Nat
  | 0, _, hi => hi
  | fuel + 1, lo, hi =>
    if hi ≤ lo then hi
    else
      let m := (lo + hi) / 2
      if p m then leastBy p fuel lo m else leastBy p fuel (m + 1) hi

end Sys2Proof.Machine
end

