-- ==== Sys2Proof/Machine/Channels.lean ====
section
/-! DEFINITION. Access to channels, frames and receptions; what a channel does now (R28, R42, R44, R59–R61). -/

namespace Sys2Proof.Machine

/-- Channel `n`. -/
def State.chan (s : State) (n : Nat) : Channel := Tbl.atD s.line.chans n Channel.reset

/-- Change channel `n`. -/
def State.modChan (s : State) (n : Nat) (f : Channel → Channel) : State :=
  s.modLine fun l => { l with chans := Tbl.modD Channel.reset l.chans n f }

/-- Change several channels. -/
def State.modChans (s : State) (ns : List Nat) (f : Channel → Channel) : State := ns.foldl (fun t n => t.modChan n f) s

/-- Frame `f`, if it is still open. -/
def State.frame? (s : State) (f : Nat) : Option TxFrame := Tbl.at? s.line.frames f

/-- Change frame `f`. -/
def State.modFrame (s : State) (f : Nat) (g : TxFrame → TxFrame) : State :=
  s.modLine fun l => { l with frames := Tbl.upd l.frames f g }

/-- Forget frame `f`. -/
def State.dropFrame (s : State) (f : Nat) : State := s.modLine fun l => { l with frames := Tbl.del l.frames f }

/-- Add a frame and answer its number. -/
def State.addFrame (s : State) (f : TxFrame) : Nat × State :=
  (s.line.nextFrame, s.modLine fun l => { l with frames := Tbl.ins l.frames l.nextFrame f, nextFrame := l.nextFrame + 1 })

/-- Reception `r`, if it is in progress. -/
def State.rx? (s : State) (r : Nat) : Option Reception := Tbl.at? s.line.rxs r

/-- Change reception `r`. -/
def State.modRx (s : State) (r : Nat) (f : Reception → Reception) : State :=
  s.modLine fun l => { l with rxs := Tbl.upd l.rxs r f }

/-- Forget reception `r`. -/
def State.dropRx (s : State) (r : Nat) : State := s.modLine fun l => { l with rxs := Tbl.del l.rxs r }

/-- Add a reception and answer its number. -/
def State.addRx (s : State) (x : Reception) : Nat × State :=
  (s.line.nextRx, s.modLine fun l => { l with rxs := Tbl.ins l.rxs l.nextRx x, nextRx := l.nextRx + 1 })

/-- A frame on the swell lane. -/
def isLane : Wave → Bool
  | .laneA => true
  | .laneB => true
  | _ => false

/-- LC group `k`. -/
def State.group (s : State) (k : Nat) : LcGroup := Tbl.atD s.line.groups k LcGroup.reset

/-- Change LC group `k`. -/
def State.modGroup (s : State) (k : Nat) (f : LcGroup → LcGroup) : State :=
  s.modLine fun l => { l with groups := Tbl.modD LcGroup.reset l.groups k f }

/-- The synthesiser of channel `n`'s group is locked (R44). -/
def State.locked (s : State) (n : Nat) : Bool := (s.group (n / 32)).locked

/-- The channels of LC group `k`. -/
def groupChans (k : Nat) : List Nat := (List.range 32).map fun c => 32 * k + c

/-- ENABLE of channel `n`. -/
def State.enabled (s : State) (n : Nat) : Bool := s.flag (K.ch.ENABLE n)

/-- The channel is in service: enabled, and its synthesiser locked (R28, R61). -/
def State.inService (s : State) (n : Nat) : Bool := s.enabled n && s.locked n

/-- The frames that satisfy `p`, with their numbers. -/
def State.framesWith (s : State) (p : TxFrame → Bool) : List (Nat × TxFrame) := s.line.frames.filter fun x => p x.2

/-- An OFDM, S1 or S2 frame of the channel is on the line. -/
def State.sending (s : State) (n : Nat) : Bool :=
  !(s.framesWith fun f => f.started && !f.ended && !(isLane f.wave) && f.chans.contains n).isEmpty

/-- A loop test runs on channel `n` (R514). -/
def State.loopOn (s : State) (n : Nat) : Bool := s.loop.running.any fun x => x.1 == n

/-! The phase accumulator (R46, R47). -/

/-- Units of the phase accumulator in a sample: a trim code advances it by itself in each sample (R46). -/
def accSample : Int := 200000000

/-- The accumulated phase at tick `t` (R46): it advances at the trim in force, a sample being two ticks. -/
def Channel.accAt (c : Channel) (t : Nat) : Int := c.acc + c.trim * (((t - c.trimTick) / 2 : Nat) : Int)

/-- Whole samples of accumulated phase at tick `t`: the samples taken more, or where negative left out, so far (R47). -/
def Channel.slipsAt (c : Channel) (t : Nat) : Int := c.accAt t / accSample

/-- The position of the slip in the 64-sample block whose first sample is at tick `first` (R47). -/
def Channel.slipIn (c : Channel) (first : Nat) : Option Nat :=
  (List.range 64).find? fun k => c.slipsAt (first + 2 * k) != c.slipsAt (first + 2 * k + 2)

/-- The tick at which a trim or phase written at tick `w` takes effect, given at tick `t` (R48): a sample boundary, 16 samples after the
write at the latest. -/
def trimBoundary (w t : Nat) : Nat := if t ≤ w + 31 then (t + 1) / 2 * 2 else (w + 32) / 2 * 2

/-- STATE of channel `n` (R61). -/
def State.chanState (s : State) (n : Nat) : Nat :=
  if !s.enabled n then 0
  else if !s.locked n then 1
  else if s.sending n then 4
  else if (s.chan n).rx.isSome then 3
  else 2

/-- The channel is idle: it neither receives nor transmits (R59). -/
def State.chanIdle (s : State) (n : Nat) : Bool := !s.sending n && (s.chan n).rx.isNone

/-- Write trim and phase of a channel (R48): they take effect at a sample boundary no later than 16 samples after. -/
def State.writeTrim (s : State) (n : Nat) (trim : Int) (phase : Nat) : State :=
  s.modChan n fun c => { c with written := some (trim, phase % 64, s.now) }

/-- One symbol of a swell frame in T0 ticks: 80 µs × 2^(SF − 7) in S0, an eighth of it in S1 and S2 (R106). -/
def swellSymbol (lane : Bool) (sf : Nat) : Nat := (if lane then 32768 else 4096) * 2 ^ (sf - 7)

/-- The first lane grid instant at or after tick `t`: multiples of 32,768 ticks (R112). -/
def laneGrid (t : Nat) : Nat := ceilDiv t 32768 * 32768

/-- The frames on one sub-lane of some of the channels, placed or on air (R112, R113). -/
def State.onLane (s : State) (b : Bool) (ns : List Nat) : List (Nat × TxFrame) :=
  s.framesWith fun f => !f.ended && f.wave == (if b then .laneB else .laneA) && f.chans.any ns.contains

/-- OFDM payload symbol period in ticks by GI code (R64). -/
def ofdmSymbol (gi : Nat) : Nat := 2 * (4096 + 256 * 2 ^ gi)

/-- Preamble and frame control: 28,672 samples (R66). -/
def ofdmHead : Nat := 57344

/-- The end of the unit of an OFDM preamble or frame control that is on the line at tick `t` (R65, R66): the SYNC run, the SYNC-
run, the CE part, the frame control symbol. -/
def ofdmUnitEnd (start t : Nat) : Nat :=
  let ends := [start + 20480, start + 24576, start + 45056, start + ofdmHead]
  (ends.find? fun e => t ≤ e).getD (start + ofdmHead)

/-- Where a frame stops when it is cancelled at tick `t` before its point of no return (R295): an OFDM frame at the end of its
unit, a swell frame at the end of the symbol in progress. -/
def TxFrame.stopAt (f : TxFrame) (t : Nat) : Nat :=
  match f.wave with
  | .ofdm => ofdmUnitEnd f.start t
  | w => f.start + ceilDiv (t - f.start) (swellSymbol (isLane w) f.sf) * swellSymbol (isLane w) f.sf

/-- The frame is past its point of no return (R295). -/
def State.beyond (s : State) (f : TxFrame) : Bool := f.ended || (f.started && f.data ≤ s.now)

/-- The MPDUs of frame `f` are queued again; a sending that is cancelled uses up none of their transmissions (R13, R295). -/
def State.requeue (s : State) (f : Nat) (started : Bool) : State :=
  let back := fun (d : Down) =>
    if d.frame = some f then { d with frame := none, tries := if started then d.tries - 1 else d.tries } else d
  s.modMac fun m => { m with queue := m.queue.map back }

/-- Cancel frame `f` before its point of no return (R295): one not yet started disappears, one in its preamble stops at the end
of its unit; its MPDUs are queued again. -/
def State.cancelFrame (s : State) (f : Nat) : State :=
  match s.frame? f with
  | none => s
  | some x =>
    if s.beyond x then s
    else
      let s := s.requeue f x.started
      if x.started then
        s.modFrame f fun x =>
          { x with mpdus := [], ackReq := false, entry := none, cls := none, cut := true, stop := x.stopAt s.now, data := x.stopAt s.now }
      else s.dropFrame f

end Sys2Proof.Machine
end

