-- ==== Sys2Proof/Machine/Crc.lean ====
section
/-! DEFINITION. The parametrised cyclic code of the check units and the settings that reproduce every check value of the
device (R351–R353). -/

namespace Sys2Proof.Machine

/-- The parameters of one check (R351, R352). -/
structure CrcParams where
  width : Nat
  poly : Nat
  init : Nat
  xorOut : Nat
  reflIn : Bool
  reflOut : Bool
  big : Bool
  deriving DecidableEq, Repr

/-- One bit enters the register (R351). -/
def crcBit (p : CrcParams) (reg : Nat) (bit : Bool) : Nat :=
  let shifted := reg * 2 % 2 ^ p.width
  if bitOf reg (p.width - 1) != bit then Nat.xor shifted p.poly else shifted

/-- The bits of a byte in the order in which they enter (R351). -/
def crcOrder (p : CrcParams) (d : Byte) : List Bool :=
  (List.range 8).map fun i => bitOf d.toNat (if p.reflIn then i else 7 - i)

/-- One byte enters the register (R351). -/
def crcByte (p : CrcParams) (reg : Nat) (d : Byte) : Nat := (crcOrder p d).foldl (crcBit p) reg

/-- Bits `w - 1 .. 0` of `v` in reverse order. -/
def revBits : Nat → Nat → Nat
  | 0, _ => 0
  | w + 1, v => v % 2 * 2 ^ w + revBits w (v / 2)

/-- The value over a byte string (R351). -/
def crcValue (p : CrcParams) (bs : List Byte) : Nat :=
  let reg := bs.foldl (crcByte p) p.init
  Nat.xor (if p.reflOut then revBits p.width reg else reg) p.xorOut

/-- The number of bytes of the check field (R352). -/
def crcLen (p : CrcParams) : Nat := (p.width + 7) / 8

/-- The check field of a value (R352). -/
def crcPlace (p : CrcParams) (v : Nat) : List Byte := if p.big then beBytes (crcLen p) v else leBytes (crcLen p) v

/-- The check field over a byte string. -/
def crcField (p : CrcParams) (bs : List Byte) : List Byte := crcPlace p (crcValue p bs)

/-- Frame control, bytes 0–12 (R71, R353). -/
def crcFrameControl : CrcParams := ⟨24, 0x864CFB, 0xFFFFFF, 0xFFFFFF, true, true, false⟩

/-- Aggregation directory and swell header (R76, R102, R353). -/
def crcDirectory : CrcParams := ⟨16, 0x1021, 0xFFFF, 0, true, true, false⟩

/-- MPDU and request body (R78, R292, R353). -/
def crcMpdu : CrcParams := ⟨32, 0x04C11DB7, 0xFFFFFFFF, 0xFFFFFFFF, true, true, false⟩

/-- Ledger and store sectors (R338, R449, R353). -/
def crcLedger : CrcParams :=
  ⟨64, 0x42F0E1EBA9EA3693, 0xFFFFFFFFFFFFFFFF, 0xFFFFFFFFFFFFFFFF, false, false, false⟩

/-- The data with its check field directly after it. -/
def withCrc (p : CrcParams) (bs : List Byte) : List Byte := bs ++ crcField p bs

/-- The last bytes are the check field of those before them. -/
def crcOk (p : CrcParams) (bs : List Byte) : Bool :=
  crcLen p ≤ bs.length && bs.drop (bs.length - crcLen p) == crcField p (bs.take (bs.length - crcLen p))

end Sys2Proof.Machine
end

