-- ==== Sys2Proof/Machine/Endpoints.lean ====
section
/-! DEFINITION. Endpoint entries, their pages and their sleep and drift models; the queue of the device's MPDUs (R180, R203–R205,
R216–R227, R232). -/

namespace Sys2Proof.Machine

/-- Endpoint entry `i`. -/
def State.ep (s : State) (i : Nat) : Ep := Tbl.atD s.mac.eps i Ep.reset

/-- The core that coordinates the segment of endpoint entry `i` (R25). -/
def State.entryCore (s : State) (i : Nat) : Nat := segCore (s.ep i).seg

/-- Change endpoint entry `i`. -/
def State.modEp (s : State) (i : Nat) (f : Ep → Ep) : State :=
  s.modMac fun m => { m with eps := Tbl.modD Ep.reset m.eps i f }

/-- Segment `g`. -/
def State.seg (s : State) (g : Nat) : Seg := Tbl.atD s.mac.segs g Seg.reset

/-- Change segment `g`. -/
def State.modSeg (s : State) (g : Nat) (f : Seg → Seg) : State :=
  s.modMac fun m => { m with segs := Tbl.modD Seg.reset m.segs g f }

/-- STATE codes of an entry (R213, R216). -/
def epFree : Nat := 0
/-- `ASSOCIATING`. -/
def epAssociating : Nat := 1
/-- `ASSOCIATED`. -/
def epAssociated : Nat := 2
/-- `EXPIRED`. -/
def epExpired : Nat := 3

/-- Global endpoint address of short address `a` on segment `g`. -/
def State.globalAddr (s : State) (g a : Nat) : Nat := s.nid g * 2 ^ 16 + a

/-- The member channels of segment `g` in member position order (R232). -/
def State.members (s : State) (g : Nat) : List Nat :=
  (List.range (s.rd (K.seg.MEMBER_COUNT g))).map fun p => s.rd (K.seg.MEMBER g p)

/-- The enabled segment that channel `n` is bound to (R232, R233). -/
def State.segOf (s : State) (n : Nat) : Option Nat :=
  (List.range 64).find? fun g => s.segEnabled g && (s.members g).contains n

/-- The entries that satisfy `p`, by rising index. -/
def State.epsWith (s : State) (p : Ep → Bool) : List Nat := (s.mac.eps.filter fun e => p e.2).map (·.1)

/-- The entry that holds a short address on segment `g`: one that is not FREE (R211). -/
def State.epAt (s : State) (g addr : Nat) : Option Nat :=
  (s.mac.eps.find? fun e => e.2.seg == g && e.2.addr == addr && e.2.state != epFree && !e.2.unusable).map (·.1)

/-- The entry of an EUI-64 on segment `g` that is not FREE. -/
def State.epOfEuiOn (s : State) (g eui : Nat) : Option Nat :=
  (s.mac.eps.find? fun e => e.2.eui == eui && e.2.seg == g && e.2.state != epFree && !e.2.unusable).map (·.1)

/-- The entry of an EUI-64 that is not FREE: a live one before an EXPIRED one. -/
def State.epOfEui (s : State) (eui : Nat) : Option Nat :=
  let held := s.mac.eps.filter fun e => e.2.eui == eui && e.2.state != epFree && !e.2.unusable
  match held.find? fun e => e.2.state != epExpired with
  | some e => some e.1
  | none => held.head?.map (·.1)

/-- A frame's source is known (R208): ASSOCIATING or ASSOCIATED on the segment. -/
def State.knownSrc (s : State) (g addr : Nat) : Option Nat :=
  match s.epAt g addr with
  | some i => if (s.ep i).state = epAssociating || (s.ep i).state = epAssociated then some i else none
  | none => none

/-- The number of ASSOCIATED entries of segment `g` (R230). -/
def State.associatedCount (s : State) (g : Nat) : Nat :=
  (s.epsWith fun e => e.seg == g && e.state == epAssociated).length

/-- Keep the ASSOCIATED object of segment `g` (R230). -/
def State.countAssociated (s : State) (g : Nat) : State := s.wr (K.segs.ASSOCIATED g) (s.associatedCount g)

/-- Pack fields of the given widths, the first in the lowest bits. -/
def packBits : List (Nat × Nat) → Nat
  | [] => 0
  | (w, v) :: rest => v % 2 ^ w + 2 ^ w * packBits rest

/-- The 64 bytes of an endpoint entry (R216). -/
def Ep.bytes (e : Ep) : List Byte :=
  leBytes 64 (packBits ([(64, e.eui), (16, e.addr), (6, e.seg), (3, e.state), (1, boolNat e.adrift), (1, boolNat e.unusable),
    (2, e.lrMode), (1, boolNat e.driftEmpty), (1, boolNat e.offsetEmpty), (1, 0), (3, e.laneSf), (3, e.lrSf), (2, 0),
    (4, e.bMax), (3, e.rateMax), (1, 0), (8, e.subset), (8, e.driftBound), (16, twos 16 e.trim)] ++
    (List.range 8).map (fun p => (6, e.phases.getD p 0)) ++
    (List.range 3).map (fun c => (16, e.mapUp.getD c 0)) ++ (List.range 3).map (fun c => (16, e.mapPend.getD c 0)) ++
    (List.range 3).map (fun c => (16, e.mapDn.getD c 0)) ++
    [(12, e.txSeq), (12, e.rxTop), (1, boolNat e.windowEmpty), (7, 0), (32, e.rxWindow), (32, e.rxFc), (32, e.leaseEnd),
      (16, e.sleep.period), (16, e.sleep.phase), (8, e.sleep.slots), (8, e.sleep.check)]))

/-- HOLD_LEFT in seconds (R217, R227). -/
def State.holdLeft (s : State) (e : Ep) : Nat :=
  match e.holdEnd with
  | some t => (t - s.now + 409599999) / 409600000
  | none => 0

/-- The 20 bytes of a drift record (R217). -/
def State.driftBytes (s : State) (e : Ep) : List Byte :=
  leBytes 8 e.lastTs ++ leBytes 4 (twos 32 e.offset) ++ leBytes 2 (twos 16 e.rate) ++ leBytes 2 (s.holdLeft e) ++
    leBytes 4 (e.tau + boolNat e.tauKnown * 2 ^ 31)

/-- A ledger field changed: the entry goes to the journal (R340). -/
def State.journalEp (s : State) (i : Nat) : State :=
  if !s.keys.ledgerOn then s
  else
    let e := s.ep i
    let r : EpRec := ⟨e.state != epFree, i, e.eui, e.addr, e.seg, e.state, e.lrMode, e.laneSf, e.lrSf, e.bMax, e.rateMax,
      e.driftBound, e.leaseEnd, e.sleep.period, e.sleep.phase, e.sleep.slots, e.sleep.check⟩
    s.modFlash fun f => { f with journal := f.journal ++ [r] }

/-! Tone-map pages (R180). -/

/-- Keep PAGES_FREE and its minimum (R186). -/
def State.countPages (s : State) : State :=
  let free := 16382 - s.mac.pages.length - s.mac.retiredPages.length
  let s := s.wr K.pool.PAGES_FREE free
  s.wr K.pool.PAGES_FREE_MIN (min free (s.rd K.pool.PAGES_FREE_MIN))

/-- The lowest free page of the pool. -/
def State.freePage (s : State) : Option Nat :=
  ((List.range 16382).find? fun k => (Tbl.at? s.mac.pages (k + 2)).isNone && !s.mac.retiredPages.contains (k + 2)).map (· + 2)

/-- The page a handle names, 0 for none; page 1 stands for the fixed map 1 with its GI in the top bits (R216). -/
def handlePage (h : Nat) : Nat := h % 2 ^ 14

/-- Free the pool pages of a list of handles. -/
def State.freeHandles (s : State) (hs : List Nat) : State :=
  (s.modMac fun m => { m with pages := hs.foldl (fun t h => if 2 ≤ handlePage h then Tbl.del t (handlePage h) else t) m.pages }).countPages

/-- Free every page of entry `i` (R213). -/
def State.freeEpPages (s : State) (i : Nat) : State :=
  let e := s.ep i
  (s.freeHandles (e.mapUp ++ e.mapPend ++ e.mapDn)).modEp i fun e =>
    { e with mapUp := [0, 0, 0], mapPend := [0, 0, 0], mapDn := [0, 0, 0] }

/-! Waveforms and member channels (R236, R246). -/

/-- A member channel of segment `g` runs the swell lane (R110). -/
def State.laneOn (s : State) (g : Nat) : Bool :=
  (s.members g).any fun n => (s.chan n).swell.on

/-- The endpoint can be served on the swell lane (R246). -/
def State.hasLane (s : State) (i : Nat) : Bool := (s.ep i).laneSf != 7 && s.laneOn (s.ep i).seg

/-- The members in SUBSET that satisfy `p`, or every member that satisfies it while SUBSET names none (R236). -/
def State.subsetOf (s : State) (i : Nat) (p : Nat → Bool) : List Nat :=
  let ms := s.members (s.ep i).seg
  let named := (ms.zipIdx.filter fun x => bitOf (s.ep i).subset x.2 && p x.1).map (·.1)
  if named.isEmpty then ms.filter p else named

/-! Sleepers (R219–R222). -/

/-- DRIFT_BOUND as ticks over a span: bound × 10^-6 × span, rounded up. -/
def driftTicks (bound span : Nat) : Nat := (bound * span + 999999) / 1000000

/-- 50 µs plus the drift over a span (R220, R226). -/
def guardOver (bound span : Nat) : Nat := usTicks 50 + driftTicks bound span

/-- G_W (R220). -/
def Ep.guardW (e : Ep) : Nat := guardOver e.driftBound (secTicks e.sleep.period)

/-- The schedule of an endpoint as it stands now: an accepted schedule takes over from its first wake instant (R219). -/
def State.sleepNow (s : State) (e : Ep) : Sleep :=
  match e.nextSleep with
  | some (n, t) => if t ≤ s.now then n else e.sleep
  | none => e.sleep

/-- The endpoint sleeps and is outside its served and its listen window (R222, R223). -/
def State.asleep (s : State) (i : Nat) : Bool :=
  let e := s.ep i
  (s.sleepNow e).period != 0 &&
    !(match e.window with
      | some (a, b, _) => a ≤ s.now && s.now ≤ b
      | none => false) &&
    !(match e.listen with
      | some (a, b) => a ≤ s.now && s.now ≤ b
      | none => false)

/-- A wake is possible (R222). -/
def State.wakePossible (s : State) (i : Nat) : Bool := (s.sleepNow (s.ep i)).check != 0 && s.hasLane i

/-- The endpoint listens now: awake, in the listen window of a wake frame, or in a served window in which it has shown itself (R221–R223,
R227). -/
def State.reachable (s : State) (i : Nat) : Bool :=
  let e := s.ep i
  let listens := match e.listen with
    | some (a, b) => a ≤ s.now && s.now ≤ b
    | none => false
  !s.asleep i && !e.adrift && (listens || (match e.window with
    | some (a, b, seen) => seen || s.now < a || b < s.now || (s.sleepNow e).period == 0
    | none => true))

/-- The sum of domain time steps since the endpoint's last time-stamp (R419). -/
def State.stepsSince (s : State) (e : Ep) : Int := s.time.stepSum - e.stepSum

/-- Divide, rounding to nearest with ties towards zero (R225). -/
def divTiesZero (a : Int) (b : Nat) : Int :=
  let q := (|a| * 2 + b - 1) / (2 * b)
  if a < 0 then -q else q

/-- The tick of a domain instant that the endpoint keeps by its own clock, on the time scale it learnt last (R419). -/
def State.ownTick (s : State) (e : Ep) (x : Nat) : Nat := s.tickOf ((x : Int) + s.stepsSince e).toNat

/-- t̂(D) of R226 for the instant at tick `d`. -/
def Ep.predict (e : Ep) (d : Nat) : Nat := ((d : Int) - divTiesZero (e.rate * ((d : Int) - e.lastTs)) 100000000).toNat

/-- The guard of R226 over a span; doubled while DRIFT_EMPTY or ADRIFT is set, and then at least 2 × G_W for a sleeper. -/
def Ep.guard (e : Ep) (span : Nat) : Nat :=
  if e.driftEmpty || e.adrift then max (2 * guardOver e.driftBound span) (if e.sleep.period = 0 then 0 else 2 * e.guardW)
  else guardOver e.driftBound span

/-- The next domain instant m × I (in units of 2^-40 tick) at or after `x` of a period in tenths of a second. -/
def nextMultiple (tenths offsetTenths x : Nat) : Nat :=
  let unit := dtSecond / 10
  let p := tenths * unit
  let o := offsetTenths * unit
  if x ≤ o then o else (x - o + p - 1) / p * p + o

/-- The next wake instant W at or after domain time `x` (R220). -/
def Ep.nextWake (e : Ep) (x : Nat) : Nat := nextMultiple (e.sleep.period * 10) (e.sleep.phase * 10) x

/-- The first beacon of segment `g` at or after tick `t`, on the period grid in force (R187). -/
def State.beaconAfter (s : State) (g t : Nat) : Nat :=
  match (s.seg g).period with
  | none => t
  | some p =>
    if t ≤ p then p
    else
      let len := (s.seg g).region.getD 0 8 * s.tracker.period
      let n := ((t - p) * 2 ^ 16 + len - 1) / len
      p + (n * len + 2 ^ 16 - 1) / 2 ^ 16

/-- The ticks of `n` tide slots at the present mains period. -/
def State.slotTicks (s : State) (n : Nat) : Nat := (n * s.tracker.period + 24 * 2 ^ 16 - 1) / (24 * 2 ^ 16)

/-- A delay in tide slots, rounded up (R275, R279). -/
def State.delaySlots (s : State) (ticks : Nat) : Nat := (ticks * 24 * 2 ^ 16 + s.tracker.period - 1) / s.tracker.period

/-- The start of the next served window (R220). -/
def State.nextWindow (s : State) (i : Nat) : Nat :=
  let e := s.ep i
  let w := e.nextWake (((s.dt : Int) - s.stepsSince e).toNat)
  s.beaconAfter e.seg (s.tickOf (((w : Int) + s.stepsSince e).toNat) + e.guardW)

/-- N_pre of the untimed wake (R117). -/
def State.untimedPre (s : State) (e : Ep) : Nat :=
  let t := swellSymbol true (e.laneSf + 7)
  4 + ceilDiv ((s.sleepNow e).check * secTicks 1 / 10 + 2 * t) t

/-- The untimed wake, if its N_pre is within 65,535: preamble symbols, first tick, and that it is not timed. -/
def State.untimedWake (s : State) (e : Ep) (start : Nat) : Option (Nat × Nat × Bool) :=
  if 65535 < s.untimedPre e then none else some (s.untimedPre e, laneGrid start, false)

/-- Aim a timed wake at the first check instant at or after domain time `x` whose start lies ahead of tick `from_` and finds sub-lane B free
(R117); `start` is where an untimed one would. -/
def State.aimWake (s : State) (e : Ep) (from_ start : Nat) (free : Nat → Nat → Bool) : Nat → Nat → Option (Nat × Nat × Bool)
  | 0, _ => none
  | n + 1, x =>
    let t := swellSymbol true (e.laneSf + 7)
    let check := nextMultiple (s.sleepNow e).check 0 x
    let d := s.ownTick e check
    let tp := e.predict d
    let g := e.guard (d - e.lastTs)
    let first := (tp - g) / 32768 * 32768
    let timed := 4 + ceilDiv (2 * g + 2 * t) t
    if s.untimedPre e < timed then s.untimedWake e start
    else if 65535 < timed then none
    else if from_ ≤ first && g ≤ tp && free first timed then some (timed, first, true)
    else s.aimWake e from_ start free n (check + 1)

/-- The wake form (R117): preamble symbols, the frame's first tick, and whether it is timed; none when N_pre passes 65,535. It starts no
earlier than tick `from_`, an untimed one no earlier than `start`, at which sub-lane B is free; `free` says whether B is over a timed
one. -/
def State.wakeForm (s : State) (i from_ start : Nat) (free : Nat → Nat → Bool) : Option (Nat × Nat × Bool) :=
  let e := s.ep i
  if e.adrift then s.untimedWake e start
  else s.aimWake e from_ start free 2048 (((s.dt : Int) - s.stepsSince e).toNat)

/-- A wake frame is possible and within the limit of R117. -/
def State.wakeWithin (s : State) (i : Nat) : Bool := (s.wakeForm i s.now s.now fun _ _ => true).isSome

/-! The duplicate window (R205). -/

/-- What the duplicate window makes of a SEQ: a duplicate, or the new RX_TOP and RX_WINDOW. -/
def windowJudge (empty : Bool) (top win seq : Nat) : Option (Nat × Nat) :=
  let d := (top + 4096 - seq % 4096) % 4096
  if empty then some (seq % 4096, 1)
  else if d ≤ 31 then (if bitOf win d then none else some (top, win + 2 ^ d))
  else if d ≤ 2047 then none
  else
    let slide := 4096 - d
    some (seq % 4096, (win * 2 ^ slide % 2 ^ 32) + 1)

/-- The replay rule fails (R315). -/
def Ep.replays (e : Ep) (fc : Nat) : Bool := !e.windowEmpty && fc ≤ e.rxFc && 1024 ≤ e.rxFc - fc

/-- Accept an MPDU's SEQ and frame counter at commit (R205, R315). -/
def Ep.accept (e : Ep) (seq : Nat) (fc : Option Nat) : Ep :=
  match windowJudge e.windowEmpty e.rxTop e.rxWindow seq with
  | none => e
  | some (top, win) =>
    { e with
      rxTop := top
      rxWindow := win
      rxFc := match fc with
        | some f => if e.windowEmpty then f else max e.rxFc f
        | none => e.rxFc
      windowEmpty := false }

/-! The drift model (R225–R228). -/

/-- A reception of one committed uplink as the drift model sees it: time-stamp, measured offset in 0.01 ppm, the allocation's
start and the period's beacon when it is the allocation's first PPDU, and whether R226 exempts it. -/
structure Heard1 where
  stamp : Nat
  offset : Int
  alloc : Option (Nat × Nat)
  exempt : Bool
  deriving DecidableEq, Repr

/-- The predicted wake window that a wake instant `w` opens contains tick `a` (R226). -/
def State.inWakeWindow (s : State) (e : Ep) (w a : Nat) : Bool :=
  let d := s.ownTick e w
  let g := e.guard (d - e.lastTs)
  let start := s.beaconAfter e.seg (d + e.guardW)
  e.predict d ≤ a + g && a ≤ start + s.slotTicks e.sleep.slots + g

/-- The ADRIFT test of R226. Of the wake instants of a sleeper only those next to the arrival can open a window that holds it: their predictions
run with the endpoint's clock, so it is there that they are looked for. -/
def State.adriftTest (s : State) (e : Ep) (h : Heard1) : Bool :=
  let sleeper := e.sleep.period != 0 &&
    (let at' : Int := (e.lastTs : Int) + ((h.stamp : Int) - e.lastTs) * 100000000 / (100000000 - e.rate)
     let x := ((s.dtOf at'.toNat : Int) - s.stepsSince e).toNat
     let p := e.sleep.period * dtSecond
     let w := e.nextWake (x - 2 * p)
     !((List.range 5).any fun k => s.inWakeWindow e (w + k * p) h.stamp))
  let timed := match h.alloc with
    | none => false
    | some (g, b) =>
      let predicted : Int := (g : Int) - divTiesZero (e.rate * ((g : Int) - b)) 100000000 + e.offset
      (e.guard (g - b) : Int) < |(h.stamp : Int) - predicted|
  !h.exempt && (sleeper || timed)

/-- The OFFSET and RATE that a committed reception gives (R225). -/
def Ep.drift (e : Ep) (h : Heard1) : Ep :=
  let rate := if e.driftEmpty || e.adrift then h.offset else e.rate + divTiesZero (h.offset - e.rate) 4
  let rate := clampInt (-32768) 32767 rate
  let e := { e with rate := rate }
  match h.alloc with
  | none => e
  | some (g, b) =>
    if !e.tauKnown then e
    else
      let x : Int := (h.stamp : Int) - g + divTiesZero (rate * ((g : Int) - b)) 100000000
      { e with offset := if e.offsetEmpty then x else e.offset + divTiesZero (x - e.offset) 8, offsetEmpty := false }

/-- MAX_FRAME and the other entries of R229 in force on segment `g`, by their place in `Seg.limits`. -/
def State.limit (s : State) (g k : Nat) : Nat := (s.seg g).limits.getD k 0

/-- Update the drift record of entry `i` at the first commit of a reception (R225–R227): the new state and whether it was marked
`ADRIFT` now. The test follows the new RATE and OFFSET, with the old LAST_TS and DRIFT_EMPTY. -/
def State.driftUpdate (s : State) (i : Nat) (h : Heard1) : State × Bool :=
  let e := s.ep i
  let new := e.drift h
  let mark := !e.adrift && s.adriftTest new h
  let finish := fun (x : Ep) => { x with lastTs := h.stamp, driftEmpty := false, stepSum := s.time.stepSum }
  if mark then
    let s := s.modEp i fun _ => finish { new with rate := 0, adrift := true, holdEnd := some (s.now + secTicks (s.limit e.seg 6)) }
    (s.bump (K.segs.ADRIFT_EVENTS e.seg), true)
  else (s.modEp i fun _ => finish { new with adrift := false, holdEnd := none }, false)

/-- A measurement of τ at the commit of an acknowledgement (R217): the interval and the turnaround, in ticks; τ is in samples of two ticks,
and half of their difference. The rounding breaks ties towards zero (DESIGN CHOICE, assumption log, entry 53). -/
def Ep.measureTau (e : Ep) (interval turnaround : Nat) : Ep :=
  let twice : Int := (interval : Int) - turnaround
  if e.tauKnown then { e with tau := ((e.tau : Int) + divTiesZero (twice - 4 * e.tau) 16).toNat }
  else { e with tau := (divTiesZero twice 4).toNat, tauKnown := true }

/-! The queue of the device's MPDUs (R203, R204). -/

/-- Queue an MPDU. -/
def State.enqueue (s : State) (d : Down) : State :=
  s.modMac fun m => { m with queue := m.queue ++ [{ d with id := m.nextId }], nextId := m.nextId + 1 }

/-- A sleeper needs a wake frame for a downlink of class `pri` (R222): REASON 1 for P0, 0 for P1. -/
def State.callWake (s : State) (i pri : Nat) : State :=
  if pri ≤ 1 && s.asleep i && s.wakePossible i then
    let was := Tbl.atD s.line.wakes i (0, 0)
    s.modLine fun l => { l with wakes := Tbl.ins l.wakes i (max (boolNat (pri == 0)) was.1, was.2) }
  else s

/-- The receivers of the hops to entry `i`, none where its link is direct (R240). -/
def Ep.hops (e : Ep) : List Nat :=
  match e.route with
  | some r => if r.length ≤ 1 then [] else r
  | none => []

/-- An MPDU to entry `i` in its own class, taking its route when that has more than one hop (R240, R246); a sleeper is woken for it
(R222). -/
def State.toEntry (s : State) (i type pri : Nat) (kind : DownKind) (body : List Byte) (lane : Bool) : State :=
  let e := s.ep i
  (s.enqueue ⟨0, e.seg, some i, type, pri, kind, body, none, 0, none, lane, if lane then [] else e.hops, [], none⟩).callWake i pri

/-- A MAC command to entry `i` at P1 (R209). -/
def State.sendCommand (s : State) (i : Nat) (kind : DownKind) (body : List Byte) : State :=
  s.toEntry i 8 1 kind body false

/-- Change the queued MPDU with number `id`. -/
def State.modDown (s : State) (id : Nat) (f : Down → Down) : State :=
  s.modMac fun m => { m with queue := m.queue.map fun d => if d.id = id then f d else d }

/-- Remove the queued MPDUs that satisfy `p` and are on no frame (R295). -/
def State.withdraw (s : State) (p : Down → Bool) : State :=
  s.modMac fun m => { m with queue := m.queue.filter fun d => d.frame.isSome || !p d }

/-- The first station of an MPDU's way: its endpoint, or the first receiver of its route. -/
def State.hopOf (s : State) (d : Down) : Option Nat :=
  match d.route with
  | [] => d.entry
  | a :: _ => s.epAt d.seg a

/-- MPDUs of a link direction with unresolved SEQ (R204, R244, R245): those that go over its hop, and the inner MPDUs to its station, which
count as resolved with their first hop. -/
def State.unresolved (s : State) (i : Nat) : Nat :=
  (s.mac.queue.filter fun d =>
    (d.seq.isSome && s.hopOf d == some i) || (!d.inner.isEmpty && d.entry == some i && s.hopOf d != some i)).length

end Sys2Proof.Machine
end

