-- ==== Sys2Proof/Machine/LineFormat.lean ====
section
/-! DEFINITION. The line format: frame control, swell header, MPDUs, coding, interleaving, mapping (R63–R86, R94–R103). -/

namespace Sys2Proof.Machine

/-! Frame control (R70–R72). -/

/-- The fields of a frame control (R70). -/
structure FrameControl where
  type : Nat
  nid : Nat
  dst : Nat
  src : Nat
  tmi : Nat
  psc : Nat
  gi : Nat
  pri : Nat
  ackReq : Bool
  more : Bool
  tide : Nat
  countM1 : Nat
  deriving DecidableEq, Repr

/-- Bits 0 to 103 of a frame control as 13 bytes (R70). -/
def FrameControl.bytes (f : FrameControl) : List Byte :=
  leBytes 13 (packBits [(2, 1), (4, f.type), (16, f.nid), (16, f.dst), (16, f.src), (8, f.tmi), (12, f.psc), (2, f.gi),
    (2, f.pri), (1, boolNat f.ackReq), (1, boolNat f.more), (2, f.tide), (3, f.countM1), (19, 0)])

/-- The 16 bytes of a frame control with its CRC24 (R71). -/
def FrameControl.encode (f : FrameControl) : List Byte := withCrc crcFrameControl f.bytes

/-- The fields in the 16 bytes of a frame control. -/
def FrameControl.fields (b : List Byte) : FrameControl :=
  let v := ofLe b
  ⟨field v 2 4, field v 6 16, field v 22 16, field v 38 16, field v 54 8, field v 62 12, field v 74 2, field v 76 2,
    bitOf v 78, bitOf v 79, field v 80 2, field v 82 3⟩

/-- 4.0 ms in ticks (R66). -/
def maxPpdu : Nat := 1638400

/-- The duration of a PPDU in ticks (R66). -/
def ppduTicks (psc gi : Nat) : Nat := ofdmHead + psc * ofdmSymbol gi

/-- Read a frame control; none where it fails its check (R72). -/
def fcRead (b : List Byte) : Option FrameControl :=
  let f := FrameControl.fields b
  if b.length = 16 && crcOk crcFrameControl b && ofLe b % 4 == 1 && f.type ≤ 9 && ppduTicks f.psc f.gi ≤ maxPpdu &&
      (f.psc != 0 || f.countM1 == 0) then some f else none

/-! Swell header (R101, R102, R105). -/

/-- The fields of a swell header (R101). -/
structure SwellHead where
  type : Nat
  nid : Nat
  dst : Nat
  src : Nat
  len : Nat
  pri : Nat
  ackReq : Bool
  deriving DecidableEq, Repr

/-- The 10 bytes of a swell header with its CRC16 (R101, R102). -/
def SwellHead.encode (h : SwellHead) : List Byte :=
  withCrc crcDirectory (leBytes 8 (packBits [(4, h.type), (16, h.nid), (16, h.dst), (16, h.src), (8, h.len), (2, h.pri),
    (1, boolNat h.ackReq), (1, 0)]))

/-- The frame types permitted in a use of swell mode (R105). -/
def swellPermits (lane : Bool) (type pri : Nat) : Bool :=
  if lane then ((type == 1 || type == 8) && pri == 0) || type == 2 || type == 9
  else type ≤ 9 && type != 3 && type != 6 && type != 7

/-- Read a swell header; none where it fails its check (R102). -/
def swellRead (lane : Bool) (b : List Byte) : Option SwellHead :=
  let v := ofLe b
  let h : SwellHead := ⟨field v 0 4, field v 4 16, field v 20 16, field v 36 16, field v 52 8, field v 60 2, bitOf v 62⟩
  if b.length = 10 && crcOk crcDirectory b && swellPermits lane h.type h.pri && (h.type == 2 || 11 ≤ h.len) then some h
  else none

/-- Data symbols of a swell frame (R99, R102). -/
def swellData (type len sf : Nat) : Nat := ceilDiv (80 + (if type = 2 then 0 else 8 * len)) sf

/-- The duration of a swell frame in ticks (R99). -/
def swellTicks (lane : Bool) (type len sf npre : Nat) : Nat := (npre + 2 + swellData type len sf) * swellSymbol lane sf

/-! MPDUs and the aggregation directory (R76–R78). -/

/-- The fields of an MPDU header (R77). -/
structure MpduHead where
  seq : Nat
  cls : Nat
  tag16 : Bool
  fc : Nat
  deriving DecidableEq, Repr

/-- The 7 bytes of an MPDU header (R77). -/
def MpduHead.bytes (h : MpduHead) : List Byte :=
  leBytes 7 (packBits [(12, h.seq), (4, 0), (2, h.cls), (1, boolNat h.tag16), (5, 0), (32, h.fc)])

/-- Read an MPDU header. -/
def MpduHead.read (b : List Byte) : MpduHead :=
  let v := ofLe (b.take 7)
  ⟨field v 0 12, field v 16 2, bitOf v 18, field v 24 32⟩

/-- T, the tag's length (R77). -/
def MpduHead.tagBytes (h : MpduHead) : Nat := if h.cls = 0 then 0 else if h.tag16 then 16 else 8

/-- The MPDU is long enough and its CRC-32 is good (R77, R78). -/
def mpduCrcOk (b : List Byte) : Bool :=
  11 + (MpduHead.read b).tagBytes ≤ b.length && crcOk crcMpdu b

/-- The body of an unprotected MPDU. -/
def mpduBody (b : List Byte) : List Byte := (b.drop 7).take (b.length - 11 - (MpduHead.read b).tagBytes)

/-- The length of an MPDU with a body and a tag (R77). -/
def mpduLen (body tag : Nat) : Nat := 7 + body + tag + 4

/-- The 13-byte CCM nonce (R78). -/
def ccmNonce (eui fc pri : Nat) : List Byte := leBytes 8 eui ++ leBytes 4 fc ++ leBytes 1 pri

/-- The directory of MPDUs with the given lengths (R76). -/
def dirBytes (lens : List Nat) : List Byte := withCrc crcDirectory (lens.flatMap fun n => leBytes 2 (n - 1))

/-- Read a directory of `m` entries from the start of a payload of `info` bits; none where its check fails (R76). -/
def dirRead (m info : Nat) (payload : List Byte) : Option (List Nat) :=
  let d := payload.take (2 * m + 2)
  let lens := (List.range m).map fun j => ofLe ((d.drop (2 * j)).take 2) % 2 ^ 14 + 1
  if d.length = 2 * m + 2 && crcOk crcDirectory d && 8 * (2 * m + 2 + lens.sum) ≤ info then some lens else none

/-! Sequences (R75, R79). -/

/-- `n` bits of the scrambler after a register whose bit i is z[t − 1 − i] (R79). -/
def scrambleBits : Nat → Nat → List Bool
  | 0, _ => []
  | n + 1, reg =>
    let z := bitOf reg 13 != bitOf reg 16
    z :: scrambleBits n ((2 * reg + boolNat z) % 2 ^ 17)

/-- The scrambler sequence from z[0] (R79). -/
def scrambler (n : Nat) : List Bool := scrambleBits n (2 ^ 17 - 1)

/-- The bits of bytes, least significant first (R5). -/
def bitsOf (bs : List Byte) : List Bool := bs.flatMap fun b => (List.range 8).map fun i => bitOf b.toNat i

/-- Bytes of bits, least significant first. -/
def bytesOf : Nat → List Bool → List Byte
  | 0, _ => []
  | n + 1, bs => BitVec.ofNat 8 (((bs.take 8).zipIdx.map fun b => boolNat b.1 * 2 ^ b.2).sum) :: bytesOf n (bs.drop 8)

/-- Scramble or descramble payload bytes (R79). -/
def scramble (bs : List Byte) : List Byte :=
  bytesOf bs.length (List.zipWith (fun a b => a != b) (bitsOf bs) (scrambler (8 * bs.length)))

/-- `n` bits of the pilot generator after a register whose bit i is a[t − 1 − i] (R75). -/
def pilotBits : Nat → Nat → List Bool
  | 0, _ => []
  | n + 1, reg =>
    let a := bitOf reg 8 != bitOf reg 10
    a :: pilotBits n ((2 * reg + boolNat a) % 2 ^ 11)

/-- The first `n` bits of the pilot sequence, a[0] to a[10] being 1 (R75). -/
def pilotSeq (n : Nat) : List Bool := (List.replicate 11 true ++ pilotBits (n - 11) (2 ^ 11 - 1)).take n

/-- The value of pilot `i` of symbol `t` (R75). -/
def pilotValue (t i : Nat) : Int := if (pilotSeq 2047).getD ((105 * t + i) % 2047) false then -1 else 1

/-! Frame control coding and placement (R73, R74). -/

/-- The parity of the bits of `v` selected by the octal generator. -/
def parityOf (v : Nat) : Bool := ((List.range 7).filter fun i => bitOf v i).length % 2 = 1

/-- The two coded bits for the current input and the six bits before it, the most recent as the most significant (R73). -/
def convPair (memory : Nat) (u : Bool) : List Bool :=
  let w := boolNat u * 64 + memory
  [parityOf (w &&& 0o133), parityOf (w &&& 0o171)]

/-- The convolutional encoder from a given memory. -/
def convFrom : Nat → List Bool → List Bool
  | _, [] => []
  | m, u :: us => convPair m u ++ convFrom ((boolNat u * 64 + m) / 2) us

/-- The 256 coded bits of a frame control, tail-biting (R73). -/
def convEncode (us : List Bool) : List Bool :=
  let last := (us.drop (us.length - 6)).zipIdx
  convFrom ((last.map fun b => boolNat b.1 * 2 ^ b.2).sum) us

/-- The coded bit that a slot of the frame control symbol carries (R74). -/
def fcSlotBit (slot : Nat) : Nat :=
  if slot < 1536 then
    let c := slot / 256
    let r := slot % 256
    -- 29 i + 43 c = r modulo 256; 53 is the inverse of 29
    (53 * (r + 256 * 43 - 43 * c)) % 256
  else (5 * (slot - 1536)) % 256

/-! Codewords (R80–R82). -/

/-- Information bits of a long and of a short codeword by rate code (R80). -/
def infoBits (rate : Nat) : Nat × Nat :=
  match rate with
  | 0 => (4608, 576)
  | 1 => (6144, 768)
  | 2 => (6912, 864)
  | 3 => (7680, 960)
  | _ => (8448, 1056)

/-- The codeword layout of a payload (R81). -/
structure Layout where
  long : Nat
  short : Nat
  fill : Nat
  info : Nat
  deriving DecidableEq, Repr

/-- R81. -/
def layoutOf (psc cs rate : Nat) : Layout :=
  let c := psc * cs
  let l := c / 9216
  let sh := (c - 9216 * l) / 1152
  ⟨l, sh, c - 9216 * l - 1152 * sh, l * (infoBits rate).1 + sh * (infoBits rate).2⟩

/-- The smallest payload symbol count that carries `p` bits, up to `most` (R81). -/
def pscFor (p cs rate most : Nat) : Option Nat :=
  ((List.range most).map (· + 1)).find? fun n => p ≤ (layoutOf n cs rate).info

/-- The index in a codeword of interleaver output `i` (R82). -/
def interleave (long : Bool) (i : Nat) : Nat :=
  let r := if long then 192 else 24
  (i % r) * 48 + i / r

/-! Carriers (R63, R83–R86). -/

/-- The band carriers (R63). -/
def bandCarriers : List Nat := (List.range 1685).map (· + 36)

/-- The data carriers in ascending order (R63). -/
def dataCarriers : List Nat := bandCarriers.filter fun k => k % 16 != 0

/-- A number is prime, by trial up to itself. -/
def primeNat (n : Nat) : Bool := 2 ≤ n && ((List.range n).drop 2).all fun d => n % d != 0

/-- S: the smallest prime greater than D/3 that does not divide D (R83). -/
def slotStep (d : Nat) : Nat :=
  ((List.range (d + 64)).find? fun p => d < 3 * p && d % p != 0 && primeNat p).getD 1

/-- The slot visited `m`-th in payload symbol `s` of `d` slots (R83). -/
def slotAt (d s m : Nat) : Nat := (m * slotStep d + s * 263) % d

/-- Gray decoding of a word of `n` bits (R85). -/
def grayDecode (n g : Nat) : Nat := (List.range n).foldl (fun a i => a ^^^ (g / 2 ^ i)) 0

/-- The word of bits, the first as the most significant. -/
def wordOf (bs : List Bool) : Nat := bs.foldl (fun a b => 2 * a + boolNat b) 0

/-- The amplitude of a Gray word (R85). -/
def amplitude (bs : List Bool) : Int :=
  if bs.isEmpty then 0 else 2 * (grayDecode bs.length (wordOf bs) : Int) - (2 ^ bs.length - 1)

/-- The I and Q amplitudes of a carrier's bits, before division by √E_b (R85). -/
def qam (bs : List Bool) : Int × Int :=
  let n := (bs.length + 1) / 2
  (amplitude (bs.take n), amplitude (bs.drop n))

/-- E_b (R85). -/
def qamEnergy (b : Nat) : Nat := ([0, 1, 2, 6, 10, 26, 42, 106, 170, 426, 682, 1706, 2730] : List Nat).getD b 0

/-- Coded bits per payload symbol and rate of the fixed maps (R86). -/
def fixedMap (tmi : Nat) : Nat × Nat := if tmi = 0 then (1580, 0) else (3160, 0)

/-- The sign of carrier index `i` of sounding symbol `t` (R89). -/
def soundingSign (t i : Nat) : Int := if (pilotSeq 2047).getD ((1685 * t + i) % 2047) false then -1 else 1

/-! Swell symbols (R94, R103). -/

/-- Position index and quarter turns of a data symbol's bits (R103). -/
def swellSymbolOf (bs : List Bool) : Nat × Nat :=
  let g := bs.take (bs.length - 2)
  (grayDecode g.length (wordOf g), match wordOf (bs.drop (bs.length - 2)) with
    | 0 => 0
    | 1 => 1
    | 3 => 2
    | _ => 3)

/-- The bit stream of a swell frame: header, then the scrambled payload (R103). -/
def swellStream (head payload : List Byte) : List Bool := bitsOf head ++ bitsOf (scramble payload)

/-! Masks (R69, R90, R110). -/

/-- Carrier `k` is masked on channel `n`: by an active range, or by the swell-lane guard. -/
def State.masked (s : State) (n k : Nat) : Bool :=
  let c := s.chan n
  (c.swell.on && 36 ≤ k && k ≤ 43) || c.cfg.masks.any fun m => bitOf m 31 && field m 0 11 ≤ k && k ≤ field m 16 11

/-- Carrier `k` is masked on some member of segment `g` (R87). -/
def State.segMasked (s : State) (g k : Nat) : Bool := (s.members g).any fun n => s.masked n k

end Sys2Proof.Machine
end

