-- ==== Sys2Proof/Machine/Ldpc.lean ====
section
/-! DEFINITION. The LDPC codes of the OFDM payload: base matrices, encoder, parity check (R80, R520, R521). -/

namespace Sys2Proof.Machine

/-! Base matrices; an entry −1 is a zero block. -/

/-- The information columns at rate 1/2 (R521). -/
def ldpcRate12 : List (List Int) :=
  [[217, -1, -1, 94, 150, -1, -1, 331, -1, -1, 18, -1],
   [-1, 42, -1, -1, 268, 7, -1, -1, 355, 121, -1, -1],
   [303, -1, 176, -1, -1, 260, 58, -1, -1, -1, -1, 289],
   [-1, 199, -1, 371, -1, -1, 112, 25, -1, 240, -1, -1],
   [86, -1, 330, -1, 47, -1, -1, -1, 193, -1, 274, -1],
   [-1, -1, -1, 158, -1, 339, -1, 206, -1, 63, -1, 115],
   [140, 288, -1, -1, -1, -1, 377, -1, 29, -1, 161, -1],
   [-1, -1, 251, -1, 305, 96, -1, 183, -1, -1, -1, 12],
   [359, -1, -1, 66, -1, -1, 223, -1, 147, 318, -1, -1],
   [-1, 105, 38, -1, -1, 212, -1, -1, -1, 174, 346, -1],
   [-1, 327, -1, 245, 81, -1, -1, 292, -1, -1, -1, 203],
   [54, -1, 137, -1, -1, -1, 264, -1, 311, -1, 99, 368]]

/-- The information columns at rate 2/3 (R521). -/
def ldpcRate23 : List (List Int) :=
  [[12, -1, 201, 77, -1, 340, -1, 118, -1, 263, -1, -1, 190, -1, 301, -1],
   [-1, 155, -1, 22, 286, -1, 97, -1, 374, -1, 141, 60, -1, 233, -1, -1],
   [249, 318, -1, -1, 73, -1, 180, 5, -1, -1, 327, -1, -1, -1, 88, 216],
   [-1, -1, 131, 296, -1, 44, -1, -1, 207, 362, -1, 169, 27, -1, -1, 254],
   [383, 69, -1, -1, 152, 238, -1, 281, -1, 14, -1, -1, -1, 107, 175, -1],
   [-1, 192, 336, -1, -1, -1, 51, -1, 120, -1, 259, 313, 166, -1, -1, 39],
   [100, -1, -1, 222, 349, -1, 277, -1, -1, 83, 16, -1, -1, 291, -1, 142],
   [-1, 248, 64, -1, -1, 187, -1, 356, 30, -1, -1, 109, 230, 8, 322, -1]]

/-- The information columns at rate 3/4 (R521). -/
def ldpcRate34 : List (List Int) :=
  [[61, -1, 208, 145, -1, 292, 33, -1, 379, -1, 170, 254, -1, 11, -1, 326, 94, -1],
   [-1, 117, 273, -1, 48, -1, 199, 336, -1, 82, -1, 21, 262, -1, 150, -1, 305, 188],
   [230, 9, -1, 361, 126, 74, -1, -1, 243, 165, -1, -1, 37, 284, -1, 352, -1, 103],
   [-1, 341, 56, -1, 219, -1, 138, 20, -1, 297, 71, -1, -1, 158, 246, -1, 6, -1],
   [178, -1, 314, 90, -1, 255, -1, 131, 2, -1, 347, 196, -1, -1, 43, 269, -1, 224],
   [-1, 277, -1, 211, 365, 13, 99, -1, 160, -1, -1, 304, 183, 72, -1, -1, 239, 32]]

/-- The information columns at rate 5/6 (R521). -/
def ldpcRate56 : List (List Int) :=
  [[-1, 250, 19, 133, -1, 301, 78, 212, -1, 359, 44, 167, -1, 290, 115, 26, -1, 238, 342, 91],
   [175, -1, 322, 60, 281, -1, 149, 3, 226, -1, 370, 107, 55, -1, 198, 317, 140, -1, 23, 264],
   [339, 86, -1, 245, 118, 192, -1, 376, 51, 280, -1, 14, 209, 162, -1, 73, 297, 128, -1, 185],
   [28, 214, 157, -1, 363, 39, 271, -1, 104, 186, 236, -1, 330, 67, 253, -1, 8, 311, 122, -1]]

/-- The information columns at rate 11/12 (R521). -/
def ldpcRate1112 : List (List Int) :=
  [[147, 32, 296, 211, 83, 355, 170, 9, 238, 124, 367, 58, 281, 193, 16, 309, 102, 244, 71, 335, 186, 262],
   [0, 273, 118, 41, 329, 156, 227, 300, 65, 350, 190, 276, 13, 97, 224, 144, 371, 35, 261, 112, 318, 52]]

/-- The information columns of the long base matrix of a rate code (R521). -/
def ldpcInfo (rate : Nat) : List (List Int) :=
  match rate with
  | 0 => ldpcRate12
  | 1 => ldpcRate23
  | 2 => ldpcRate34
  | 3 => ldpcRate56
  | _ => ldpcRate1112

/-- m_b, the rows of the base matrix of a rate code (R80). -/
def ldpcRows (rate : Nat) : Nat := (ldpcInfo rate).length

/-- Parity column `j` of row `r` in a base matrix of `mb` rows (R520). -/
def ldpcParity (mb r j : Nat) : Int :=
  if mb = 2 then (if j = 0 then (if r = 0 then 1 else 0) else if r = 0 then -1 else 0)
  else if j = 0 then (if r = 0 || r + 1 == mb then 1 else if r = mb / 2 then 0 else -1)
  else if r + 1 = j || r = j then 0 else -1

/-- H[r][c] of the long base matrix (R520, R521). -/
def ldpcEntry (rate r c : Nat) : Int :=
  let kb := 24 - ldpcRows rate
  if c < kb then ((ldpcInfo rate).getD r []).getD c (-1) else ldpcParity (ldpcRows rate) r (c - kb)

/-- Z: the lifting of a long and of a short codeword (R80). -/
def lifting (long : Bool) : Nat := if long then 384 else 48

/-- The shift of an entry at a lifting; none for a zero block. A short code reduces every shift modulo 48 (R80). -/
def ldpcShift (rate : Nat) (long : Bool) (r c : Nat) : Option Nat :=
  let p := ldpcEntry rate r c
  if p < 0 then none else some (p.toNat % lifting long)

/-- shift(v, p)[i] = v[(i + p) mod Z]: a block's product with a vector (chapter 18, Encoding). -/
def rotate (v : List Bool) (p : Nat) : List Bool := v.drop (p % v.length) ++ v.take (p % v.length)

/-- Exclusive or of two vectors. -/
def xorBits (a b : List Bool) : List Bool := List.zipWith (fun x y => x != y) a b

/-- Cut a vector into blocks of `z` bits. -/
def blocksOf (z : Nat) : Nat → List Bool → List (List Bool)
  | 0, _ => []
  | n + 1, v => v.take z :: blocksOf z n (v.drop z)

/-- The product of block row `r` of H with the first blocks of a codeword (R80). -/
def rowProduct (rate : Nat) (long : Bool) (r : Nat) (blocks : List (List Bool)) : List Bool :=
  blocks.zipIdx.foldl (fun acc b =>
    match ldpcShift rate long r b.2 with
    | some p => xorBits acc (rotate b.1 p)
    | none => acc) (List.replicate (lifting long) false)

/-- The parity blocks from p[r] on, from lam[r] on, with p[0] added in row x (chapter 18, Encoding). -/
def parityFrom (x : Nat) (p0 : List Bool) : Nat → List Bool → List (List Bool) → List (List Bool)
  | _, p, [] => [p]
  | _, p, [_] => [p]
  | r, p, l :: ls => p :: parityFrom x p0 (r + 1) (xorBits (xorBits l p) (if r = x then p0 else p.map fun _ => false)) ls

/-- The parity blocks of a codeword, from the products lam of its information blocks (chapter 18, Encoding). -/
def parityBlocks (z : Nat) (lam : List (List Bool)) : List (List Bool) :=
  match lam with
  | [l0, l1] =>
    let p0 := rotate l0 (z - 1)
    [p0, xorBits l1 p0]
  | l0 :: ls =>
    let p0 := ls.foldl xorBits l0
    p0 :: parityFrom (lam.length / 2) p0 1 (xorBits l0 (rotate p0 1)) ls
  | [] => []

/-- The systematic codeword of one block of information bits (R80). -/
def ldpcEncode (rate : Nat) (long : Bool) (info : List Bool) : List Bool :=
  let z := lifting long
  let mb := ldpcRows rate
  let s := blocksOf z (24 - mb) info
  info ++ (parityBlocks z ((List.range mb).map fun r => rowProduct rate long r s)).flatten

/-- H × cᵀ = 0 (R80). -/
def ldpcCheck (rate : Nat) (long : Bool) (word : List Bool) : Bool :=
  let blocks := blocksOf (lifting long) 24 word
  (List.range (ldpcRows rate)).all fun r => (rowProduct rate long r blocks).all (!·)

/-! The coded stream of a payload (R79, R81, R82). -/

/-- A codeword as the interleaver puts it out (R82). -/
def interleaved (long : Bool) (word : List Bool) : List Bool :=
  (List.range word.length).map fun i => word.getD (interleave long i) false

/-- `n` codewords of `k` information bits, coded and interleaved. -/
def codewords (rate : Nat) (long : Bool) (k : Nat) : Nat → List Bool → List Bool
  | 0, _ => []
  | n + 1, bits => interleaved long (ldpcEncode rate long (bits.take k)) ++ codewords rate long k n (bits.drop k)

/-- The coded stream of a payload: pad to info, scramble, encode, interleave, fill (R76, R79, R81, R82). -/
def codedStream (psc cs rate : Nat) (payload : List Byte) : List Bool :=
  let l := layoutOf psc cs rate
  let d := (bitsOf payload ++ List.replicate (l.info - 8 * payload.length) false).take l.info
  let z := scrambler (l.info + l.fill)
  let v := xorBits d z
  let k := infoBits rate
  codewords rate true k.1 l.long v ++ codewords rate false k.2 l.short (v.drop (l.long * k.1)) ++ z.drop l.info

end Sys2Proof.Machine
end

