-- ==== Sys2Proof/Machine/Acquire.lean ====
section
/-! DEFINITION. The arithmetic of a reception: correlation, offsets, taps and SNR, soft bits, the decoding of a header, pilot slope,
combining and demapping (R73, R74, R83–R85, R100, R103, R122, R125–R132, R134; assumption log, entry 47). -/

namespace Sys2Proof.Machine

/-! The detector (R122). -/

/-- The samples of `n` blocks from block `i` on, each with its block's gain. -/
def blockSamples (bs : List SampleBlock) (i n : Nat) : List (Int × Int) :=
  ((bs.drop i).take n).flatMap fun b => b.samples.map fun x => (b.gain, x)

/-- Σxy, Σx² and Σy² over the pairs of the latest 1,024 samples with the 1,024 before them at evaluation `e` of eight; a pair counts where
both were taken at the gain of the latest block (R122). -/
def correlate (bs : List SampleBlock) (e : Nat) : Int × Nat × Nat :=
  let g := ((bs.drop (e + 31)).head?.map (·.gain)).getD 0
  let ps := ((blockSamples bs e 16).zip (blockSamples bs (e + 16) 16)).filter fun p => p.1.1 == g && p.2.1 == g
  ((ps.map fun p => p.1.2 * p.2.2).sum, (ps.map fun p => (p.1.2 * p.1.2).toNat).sum, (ps.map fun p => (p.2.2 * p.2.2).toNat).sum)

/-- ρ reaches `level` / 256 at an evaluation (R122): the normalised correlation Σxy ÷ √(Σx² Σy²). -/
def rhoReaches (level : Nat) (c : Int × Nat × Nat) : Bool :=
  0 < c.1 && level ^ 2 * c.2.1 * c.2.2 ≤ (256 * c.1.toNat) ^ 2

/-- ρ of an evaluation in 2^-16. -/
def rhoOf (c : Int × Nat × Nat) : Nat :=
  if c.1 ≤ 0 || c.2.1 = 0 || c.2.2 = 0 then 0 else isqrt (2 ^ 32 * c.1.toNat ^ 2 / (c.2.1 * c.2.2))

/-- The detector of a waveform declares a detection (R122): an OFDM preamble at eight consecutive evaluations; a swell preamble is
found by the transform engines (R107). -/
def preambleDetects (p : Preamble) (wave : Wave) (level : Nat) : Bool :=
  wave != .ofdm || (p.blocks.length == 39 && (List.range 8).all fun e => rhoReaches level (correlate p.blocks e))

/-- ρ of a preamble in 2^-16, at the last evaluation. -/
def preambleRho (p : Preamble) (wave : Wave) : Nat := if wave == .ofdm then rhoOf (correlate p.blocks 7) else p.rho

/-- γ = ρ ÷ (1 − ρ) in 2^-16, ρ in 2^-16 (R146). -/
def gammaOf (rho : Nat) : Nat :=
  let r := min rho 65535
  r * 65536 / (65536 - r)

/-! Offsets (R100, R125, R126). -/

/-- The slope through the origin that fits phase advances in 2^-32 turn against their frequencies best, as a clock offset in 0.005 ppm: a
frequency `k` advances by `k` × ε turns between the two symbols (R125, R126). -/
def fitOffset (pts : List (Nat × Int)) : Int :=
  let num := (pts.map fun p => (p.1 : Int) * p.2).sum
  let den := (pts.map fun p => p.1 * p.1).sum
  if den = 0 then 0 else divTiesZero (num * 200000000) (2 ^ 32 * den)

/-- The advances in phase of values from one symbol to the next, with their frequencies from `k` on. -/
def advances (k : Nat) (a b : List Gauss) : List (Nat × Int) :=
  (a.zip b).zipIdx.map fun p => (k + p.2, turnOf (p.1.2.mulConj p.1.1))

/-- The coarse offset from the bins 9 to 430 of whole SYNC periods, in 0.005 ppm (R125): the fit over every pair of periods that follow
each other. -/
def coarseOffset (bins : List (List Gauss)) : Int :=
  fitOffset ((bins.zip (bins.drop 1)).flatMap fun p => advances 9 p.1 p.2)

/-- f_c × T of a sub-band at SF 7: its centre frequency times the symbol (R94, R95). -/
def centreCycles : Wave → Nat
  | .s1 => 82
  | .s2 => 210
  | _ => 80

/-- Δf × T and B × Δt of a rising frame, from the shifts of the preamble's and of the pivot's peak (R100). -/
def offsetsOf (preamble pivot : Int) : Int × Int := (2 * preamble - pivot, pivot - preamble)

/-- The clock offset of a swell frame in 0.005 ppm, from the shifts of the preamble's and the pivot's peak in 1/256 bin (R100, R108): Δf × T
over the cycles of the sub-band's centre in T. -/
def swellOffset (wave : Wave) (sf : Nat) (preamble pivot : Int) : Int :=
  divTiesZero ((offsetsOf preamble pivot).1 * 200000000) (256 * centreCycles wave * 2 ^ (sf - 7))

/-- The coarse offset that acquisition measures (R100, R125). -/
def markOffset (m : MarkSeen) (wave : Wave) (sf : Nat) : Int :=
  if wave == .ofdm then coarseOffset m.bins else swellOffset wave sf m.preamble m.pivot

/-- The whole SYNC periods between detection and the mark, or the preamble symbols of a swell frame (R124). -/
def markPeriods (m : MarkSeen) (wave : Wave) : Nat := if wave == .ofdm then m.bins.length else m.symbols

/-! Taps, noise and SNR (R127). -/

/-- The carriers at most four from `k` on one side, up to the band's or a mask's edge. -/
def noiseSide (masked : Nat → Bool) (next : Nat → Nat) : Nat → Nat → List Nat
  | 0, _ => []
  | n + 1, k => if k < 36 || 1720 < k || masked k then [] else k :: noiseSide masked next n (next k)

/-- The nine carriers centred on `k`, truncated at the band and mask edges (R127). -/
def noiseWindow (masked : Nat → Bool) (k : Nat) : List Nat :=
  noiseSide masked (· - 1) 4 (k - 1) ++ [k] ++ noiseSide masked (· + 1) 4 (k + 1)

/-- The tap and noise estimate of carrier `k` (R127), the CE symbol's value being exp(jπi²/1685). -/
def tapOf (masked : Nat → Bool) (y1 y2 : List Gauss) (noise : List Nat) (k : Nat) : Tap :=
  if masked k then ⟨0, 0, 0, 0⟩
  else
    let i := k - 36
    let w := noiseWindow masked k
    let h := turned (-(((i * i % 3370) * 2 ^ 32 / 3370 : Nat) : Int)) ((y1.getD i (0, 0)).add (y2.getD i (0, 0)))
    ⟨h.1, h.2, (w.map fun c => noise.getD (c - 36) 0).sum, w.length⟩

/-- The taps of the band carriers (R127). -/
def tapsOf (masked : Nat → Bool) (y1 y2 : List Gauss) : List Tap :=
  let noise := (y1.zip y2).map fun p => (p.2.sub p.1).power
  bandCarriers.map (tapOf masked y1 y2 noise)

/-- |H|² ÷ σ² of a carrier in 2^-16, σ² being noise ÷ (2 × count); a noise of 0 counts as 1, the least the transform can give. -/
def Tap.snr (t : Tap) (sum : Gauss) : Nat := sum.power * t.count * 2 ^ 15 / max 1 t.noise

/-- A channel's SNR in 2^-16: the mean over its unmasked band carriers (R127). -/
def snrOf (taps : List Tap) (y1 y2 : List Gauss) : Nat :=
  let good := (taps.zip (y1.zip y2)).filter fun p => p.1.count != 0
  if good.isEmpty then 0 else (good.map fun p => p.1.snr (p.2.1.add p.2.2)).sum / good.length

/-- The fine offset of a channel in 0.005 ppm, from its unmasked carriers (R126). -/
def fineOffset (masked : Nat → Bool) (y1 y2 : List Gauss) : Int :=
  fitOffset ((advances 36 y1 y2).filter fun p => !masked p.1)

/-! Weighted carrier values (R131, R132). -/

/-- conj(H) × Y ÷ σ² of a carrier, in units of 2^15 (conj of the tap, which is 2^31 H, the quotient in 2^-16). -/
def Tap.weigh (t : Tap) (y : Gauss) : Gauss :=
  let z := y.mulConj (t.re, t.im)
  (z.1 * (2 * t.count) / (max 1 t.noise : Nat), z.2 * (2 * t.count) / (max 1 t.noise : Nat))

/-- |H|² ÷ σ² of a carrier in 2^-30, from its tap. -/
def Tap.weight (t : Tap) : Nat := Gauss.power (t.re, t.im) * (2 * t.count) / (max 1 t.noise * 2 ^ 32)

/-- The sum of values. -/
def sumGauss (l : List Gauss) : Gauss := l.foldl Gauss.add (0, 0)

/-- The combined value of a carrier over its members, with 2^-20 as its unit, and 1 ÷ its noise variance in 2^-30 (R132): Σ conj(H) Y ÷
σ² over Σ |H|² ÷ σ². -/
def combine (parts : List (Tap × Gauss)) : Gauss × Nat :=
  let num := sumGauss (parts.map fun p => p.1.weigh p.2)
  let den := (parts.map fun p => p.1.weight).sum
  ((num.1 * 2 ^ 19 / (max 1 den : Nat), num.2 * 2 ^ 19 / (max 1 den : Nat)), den)

/-! The frame control (R73, R74, R131). -/

/-- The soft value of a BPSK slot of one channel: the real part of conj(H) × Y ÷ σ², positive for coded bit 1. -/
def slotSoft (taps : List Tap) (ys : List Gauss) (k : Nat) : Int :=
  match taps[k - 36]? with
  | some t => if t.count = 0 then 0 else (t.weigh (ys.getD (k - 36) (0, 0))).1
  | none => 0

/-- The 256 soft bits of a frame control, summed over channels and the copies of R74. -/
def fcSoft (parts : List (List Tap × List Gauss)) : List Int :=
  let slots := dataCarriers.map fun k => (parts.map fun p => slotSoft p.1 p.2 k).sum
  (List.range 256).map fun i => ((slots.zipIdx.filter fun x => fcSlotBit x.2 == i).map (·.1)).sum

/-- Soft bits in pairs. -/
def softPairs : List Int → List (Int × Int)
  | a :: b :: rest => (a, b) :: softPairs rest
  | _ => []

/-- How well the coded pair of memory `m` and input `u` agrees with two soft bits. -/
def branchGain (m : Nat) (u : Bool) (p : Int × Int) : Int :=
  match convPair m u with
  | [x, y] => (if x then p.1 else -p.1) + (if y then p.2 else -p.2)
  | _ => 0

/-- The better of two survivors. -/
def betterPath (a b : Option (Int × List Bool)) : Option (Int × List Bool) :=
  match a, b with
  | none, b => b
  | a, none => a
  | some x, some y => if y.1 ≤ x.1 then some x else some y

/-- One step of the trellis: the survivor at each of the 64 memories, its inputs latest first. -/
def trellisStep (surv : List (Option (Int × List Bool))) (p : Int × Int) : List (Option (Int × List Bool)) :=
  (List.range 64).map fun t =>
    let u := decide (32 ≤ t)
    let from_ := fun (m : Nat) => (surv.getD m none).map fun x => (x.1 + branchGain m u p, u :: x.2)
    betterPath (from_ (2 * t % 64)) (from_ (2 * t % 64 + 1))

/-- The best path of the trellis that starts and ends in memory `m`. -/
def tailPath (pairs : List (Int × Int)) (m : Nat) : Option (Int × List Bool) :=
  (pairs.foldl trellisStep ((List.range 64).map fun k => if k = m then some (0, []) else none)).getD m none

/-- The inputs that give exactly the signs of the soft bits from memory `m` back to it: then no other path is better. -/
def exactPath (m0 : Nat) : Nat → List (Int × Int) → Option (List Bool)
  | m, [] => if m = m0 then some [] else none
  | m, p :: ps =>
    let good := fun (u : Bool) => branchGain m u p == |p.1| + |p.2|
    if good false then (exactPath m0 (m / 2) ps).map (false :: ·)
    else if good true then (exactPath m0 (32 + m / 2) ps).map (true :: ·)
    else none

/-- Tail-biting Viterbi decoding (R131): the inputs whose coded bits agree best with the soft bits. -/
def viterbiTail (soft : List Int) : List Bool :=
  let pairs := softPairs soft
  match (List.range 64).findSome? fun m => exactPath m m pairs with
  | some us => us
  | none => (((List.range 64).foldl (fun best m => betterPath best (tailPath pairs m)) none).map fun x => x.2.reverse).getD []

/-- The 16 bytes of the frame control that channels received (R131). -/
def fcDecode (parts : List (List Tap × List Gauss)) : List Byte := bytesOf 16 (viterbiTail (fcSoft parts))

/-! The header of an S1 or S2 frame (R103, R134). -/

/-- The index of the largest number of a list. -/
def argMax (l : List Nat) : Nat :=
  (l.zipIdx.foldl (fun (b : Nat × Nat) x => if b.1 < x.1 then x else b) (l.headD 0, 0)).2

/-- The position of a symbol: the dechirped bin with the most power, summed over channels with their weights (R134). -/
def combinedBin (parts : List (Nat × List Gauss)) : Nat :=
  let n := parts.foldl (fun a p => max a p.2.length) 0
  argMax ((List.range n).map fun b => (parts.map fun p => p.1 * (p.2.getD b (0, 0)).power).sum)

/-- The change of phase from one symbol to the next in quarter turns, channels weighted (R103, R134). -/
def quarterChange (parts : List (Nat × Gauss × Gauss)) : Nat :=
  let z := sumGauss (parts.map fun p => let d := p.2.2.mulConj p.2.1; ((p.1 : Int) * d.1, (p.1 : Int) * d.2))
  ((turnOf z + 2 ^ 29) / 2 ^ 30 % 4).toNat

/-- The `n` bits of a Gray word, the first as the most significant. -/
def grayBits (n v : Nat) : List Bool := (List.range n).reverse.map fun i => bitOf (v ^^^ v / 2) i

/-- The bits of a data symbol (R103). -/
def symbolBits (sf bin quarter : Nat) : List Bool :=
  grayBits (sf - 2) bin ++ (match quarter with
    | 0 => [false, false]
    | 1 => [false, true]
    | 2 => [true, true]
    | _ => [true, false])

/-- The bits of header symbols: each channel gives its weight and its symbols, the first being the pivot's peak (R103). -/
def swellBits (sf : Nat) (parts : List (Nat × List (List Gauss))) (count : Nat) : List Bool :=
  let at_ := fun (i : Nat) => parts.map fun p => (p.1, p.2.getD i [])
  (List.range count).flatMap fun i =>
    let b0 := combinedBin (at_ i)
    let b1 := combinedBin (at_ (i + 1))
    symbolBits sf b1 (quarterChange (parts.map fun p =>
      (p.1, (p.2.getD i []).getD b0 (0, 0), (p.2.getD (i + 1) []).getD b1 (0, 0))))

/-- The 10 bytes of the swell header that channels received. -/
def swellDecode (sf : Nat) (parts : List (Nat × List (List Gauss))) : List Byte :=
  bytesOf 10 (swellBits sf parts (ceilDiv 80 sf))

/-! Pilots and payload symbols (R83–R85, R129, R132). -/

/-- A channel's timing error at a payload symbol in 1/256 of 1/64 sample, positive where it arrives late (R129): the slope of received
pilot ÷ (expected pilot × tap) across the unmasked pilot carriers; none where there is none. -/
def timingError (taps : List Tap) (ys : List Gauss) (symbol : Nat) : Option Int :=
  let pts := (List.range 105).filterMap fun i =>
    let k := 48 + 16 * i
    match taps[k - 36]? with
    | some t =>
      if t.count = 0 then none
      else
        let y := ys.getD (k - 36) (0, 0)
        let v := pilotValue symbol i
        some (k, turnOf (Gauss.mulConj (y.1 * v, y.2 * v) (t.re, t.im)))
    | none => none
  let den := (pts.map fun p => p.1 * p.1).sum
  -- a delay of τ samples turns carrier k by −k τ / 4096
  if den = 0 then none else some (-(divTiesZero ((pts.map fun p => (p.1 : Int) * p.2).sum) (64 * den)))

/-- The least squared distance from `z` (in 2^-20) to the amplitudes of `n` bits whose bit `i` is `b`, scaled by √E. -/
def axisDistance (n i : Nat) (b : Bool) (z : Int) : Nat :=
  let words := (List.range (2 ^ n)).map fun w => (List.range n).map fun j => bitOf w (n - 1 - j)
  let ds := (words.filter fun w => w.getD i false == b).map fun w => ((z - amplitude w * 2 ^ 20) ^ 2).toNat
  ds.foldl min (ds.headD 0)

/-- The soft bits of one axis: how much nearer a 1 is than a 0, over E and the noise variance, in 1/256 (R132). -/
def axisSoft (n e inv : Nat) (z : Int) : List Int :=
  let r := z * (isqrt (e * 2 ^ 20) : Nat) / 2 ^ 10
  (List.range n).map fun i =>
    ((axisDistance n i false r : Int) - axisDistance n i true r) * inv / ((e * 2 ^ 62 : Nat) : Int)

/-- The soft bits of a carrier of `b` bits from its combined value and inverse noise (R85, R132). -/
def demap (b : Nat) (z : Gauss × Nat) : List Int :=
  let n := (b + 1) / 2
  axisSoft n (qamEnergy b) z.2 z.1.1 ++ axisSoft (b - n) (qamEnergy b) z.2 z.1.2

/-- The loaded carriers of a map in ascending order: its slots (R83). -/
def slotCarriers (loading : List Nat) : List Nat := ((loading.zipIdx.filter fun x => x.1 != 0).map (·.2)).map (· + 36)

/-- The bits of every carrier under the fixed maps (R86). -/
def fixedLoading : List Nat := bandCarriers.map fun k => if k % 16 = 0 then 0 else 2

/-- The soft bits of payload symbol `t` in the order of the coded stream (R83, R84): `value` gives a carrier's combined value; map 0 adds the
soft bits of a point's two copies. -/
def symbolSoft (mapZero : Bool) (loading : List Nat) (t : Nat) (value : Nat → Gauss × Nat) : List Int :=
  let slots := slotCarriers loading
  let d := if mapZero then slots.length / 2 else slots.length
  (List.range d).flatMap fun m =>
    let j := slotAt d t m
    let k := slots.getD j 0
    let b := loading.getD (k - 36) 0
    if mapZero then
      let k2 := slots.getD (j + d) 0
      List.zipWith (· + ·) (demap b (value k)) (demap b (value k2))
    else demap b (value k)

/-- The soft bits of codeword `k` of a layout in codeword order, from those of the coded stream (R81, R82). -/
def codewordSoft (l : Layout) (k : Nat) (soft : List Int) : List Int :=
  let long := k < l.long
  let n := if long then 9216 else 1152
  let first := if long then 9216 * k else 9216 * l.long + 1152 * (k - l.long)
  let got := (soft.drop first).take n
  (List.range n).map fun c =>
    -- output i of the interleaver is codeword bit c
    let i := if long then (c % 48) * 192 + c / 48 else (c % 48) * 24 + c / 48
    got.getD i 0

end Sys2Proof.Machine
end

