-- ==== Sys2Proof/Machine/FlashCells.lean ====
section
/-! DEFINITION. The cells of the xSPI flash: image sectors, ledger sectors, and what a reset leaves of a write it cuts off
(R337, R338, R348, R487). -/

namespace Sys2Proof.Machine

/-- An erased sector (R338). -/
def erasedSector : List Byte := List.replicate 4096 0xFF

/-- Sector `k` of image slot `slot`; a sector whose write a reset cut off holds nothing that can be read (R487). -/
def State.imageSector (s : State) (slot k : Nat) : List Byte := Tbl.atD s.flash.image (slot * 4096 + k) erasedSector

/-- Program image sectors from sector number `n` of the flash onwards (R348). -/
def programImage (t : Tbl (List Byte)) : Nat → List (List Byte) → Tbl (List Byte)
  | _, [] => t
  | n, b :: bs => programImage (if b = erasedSector then Tbl.del t n else Tbl.ins t n b) (n + 1) bs

/-- The number of ledger sectors (R337). -/
def ledgerSectors : Nat := 4096

/-- The next erased ledger sector: the lowest-numbered one (assumption log, entry 13). -/
def State.erasedLedger (s : State) : Option Nat :=
  (List.range ledgerSectors).find? fun n => (Tbl.at? s.flash.ledger n).isNone

/-- The SECTOR_SEQ of the next sector (R338). -/
def State.nextSeq (s : State) : Nat := s.flash.ledger.foldl (fun m p => max m p.2.seq) 0 + 1

/-- Write one ledger sector into the next erased one; `good` is false for one that failed. -/
def State.ledgerPut (s : State) (body : SectorBody) (good : Bool) : State :=
  match s.erasedLedger with
  | none => s.bump K.ledger.LEDGER_WRITE_FAIL
  | some n => s.modFlash fun f => { f with ledger := Tbl.ins f.ledger n ⟨good, s.nextSeq, s.sys.bootId, body⟩ }

/-- A ledger operation. -/
def FlashOp.isLedger : FlashOp → Bool
  | .reservation _ => true
  | .journal _ _ => true
  | .admission _ => true
  | _ => false

/-- The sector a failed ledger write leaves behind: its checks fail (R340, R341, R487). -/
def FlashOp.sector : FlashOp → SectorBody
  | .reservation r => .reservation [r]
  | .journal rs _ => .journal rs
  | .admission rs => .admission rs
  | _ => .journal []

/-- A reset cuts one flash operation that is not complete (R449, R484, R487): what it was writing is not valid. -/
def State.cutOp (s : State) (op : FlashOp) : State :=
  match op with
  | .image first sectors => s.modFlash fun f => { f with image := programImage f.image first (sectors.map fun _ => []) }
  | .store copy c => s.modFlash fun f => { f with stores := Tbl.ins f.stores copy { c with valid := false } }
  | .restoreMark => s
  | op => s.ledgerPut op.sector false

/-- The flash after a reset has cut off the operations in progress (R487): an image sector then holds nothing, a ledger sector
fails its check, the store copy being written is not valid. -/
def State.cutFlash (s : State) : State :=
  (s.flash.ops.foldl State.cutOp s).modFlash fun f => { f with ops := [], journal := [] }

end Sys2Proof.Machine
end

