-- ==== Sys2Proof/Machine/Reset.lean ====
section
/-! DEFINITION. Resets: what a reset leaves unchanged, and the cause it records (R447, R484–R491). -/

namespace Sys2Proof.Machine

/-- The causes of R447. -/
inductive Cause where
  | pin | watchdog | memory | command
  deriving DecidableEq, Repr

/-- CAUSE (R447). -/
def Cause.code : Cause → Nat
  | .pin => 0
  | .watchdog => 1
  | .memory => 2
  | .command => 3

/-- The state of a device held in reset: everything as after reset but the flash, the fuses, the reset cause with
INTERNAL_RESETS, the JTAG TAP, and the levels the board drives (R484, R491); the queue of commands and the model's free
counter stay. The flash operations in progress are stopped (R484, R487). -/
def State.cold (s : State) (phase : Phase) : State :=
  { State.reset with
    pending := s.pending
    free := s.free
    sys := { Sys.reset with phase := phase, wdDue := [], bootLevels := true }
    pins := { Pins.reset with resetN := s.pins.resetN, trstN := s.pins.trstN, mctrig := s.pins.mctrig }
    dict := [K.cause.CAUSE, K.cause.CORE, K.cause.MEMORY, K.cause.DETAIL, K.cause.INTERNAL_RESETS].foldl
      (fun d r => Tbl.store r.dflt d r.key (s.rd r)) []
    flash := s.cutFlash.flash
    jtag := s.jtag }

/-- Record a reset cause (R447). -/
def State.setCause (s : State) (c : Cause) (core memory detail : Nat) : State :=
  (((s.wr K.cause.CAUSE c.code).wr K.cause.CORE core).wr K.cause.MEMORY memory).wr K.cause.DETAIL detail

/-- An internal reset records its cause, advances INTERNAL_RESETS and holds the device for 100 µs on T16 (R447, R485,
R486). -/
def State.internalReset (s : State) (c : Cause) (core memory detail : Nat) : State :=
  ((s.setCause c core memory detail).bump K.cause.INTERNAL_RESETS).cold .hold

/-- RESET_N resets the device: it clears the recorded cause, sets PIN and holds the device (R447, R483). -/
def State.pinReset (s : State) : State :=
  ((s.setCause .pin 255 0 0).wr K.cause.INTERNAL_RESETS 0).cold .held

/-- A low level on RESET_N of `lowNs` nanoseconds (R483): 10 µs or more resets; less than 1 µs never does; between the two a
free value decides. -/
def State.resetLow (s : State) (lowNs : Nat) : State :=
  let low := fun (t : State) => (t.modPins fun p => { p with resetN := false }).pinReset
  if 10000 ≤ lowNs then low s
  else if lowNs < 1000 then s
  else if s.fresh.1 % 2 = 1 then low s.fresh.2 else s.fresh.2

/-- RESET_N_ASSERT (R483, R486: RESET_N prevails in every phase). -/
def execResetNAssert (lowNs : Nat) (s : State) : Out := keepQueue s (s.resetLow lowNs)

/-- WATCHDOG_SERVICE (R26): the core's watchdog runs for another 100 ms; a halted core services nothing (R23). -/
def execWatchdogService (core : Nat) (s : State) : Out :=
  whenRunning s
    (if core < 8 && (Tbl.at? s.sys.halted core).isNone then
      (s.modSys fun y => { y with wdDue := Tbl.ins y.wdDue core (s.now + wdTicks) }).event core 0x08
     else s)

/-- WATCHDOG_EXPIRY (R26, R23, R486): the watchdog of `core` runs out; a core halted by a memory error records MEMORY. -/
def State.watchdogFires (s : State) (core : Nat) : State :=
  match Tbl.at? s.sys.wdDue core with
  | none => s
  | some due =>
    let s := s.atDeadline due
    match Tbl.at? s.sys.halted core with
    | some e => s.internalReset .memory core e.memory e.detail
    | none => s.internalReset .watchdog core 0 0

/-- WATCHDOG_EXPIRY (R26). -/
def execWatchdogExpiry (core : Nat) (s : State) : Out := whenRunning s (s.watchdogFires core)

/-- RESET_DELAY_EXPIRY (R448): the delay after a RESET write ends and the device resets with cause COMMAND. -/
def execResetDelayExpiry (s : State) : Out :=
  keepQueue s (match (if (Tbl.at? s.sys.halted 0).isNone then s.sys.resetDue else none) with
    | none => s
    | some (due, detail) => (s.atDeadline due).internalReset .command 255 0 detail)

/-- A write of RESET_REQ in the SPI window (R444, R448); it works in every boot state and in recovery (R443). -/
def State.resetReq (s : State) (value : Nat) : State :=
  if value = 0xA5A55A5A && (s.running || s.sys.phase == .recovery) then s.internalReset .command 255 0 2 else s

/-- RESET_REQ (R448). -/
def execResetReq (value : Nat) (s : State) : Out := keepQueue s (s.resetReq value)

end Sys2Proof.Machine
end

