-- ==== Sys2Proof/Machine/Queues.lean ====
section
/-! DEFINITION. Hardware queues: writes, reads and the correction of queue words (R363–R371). -/

namespace Sys2Proof.Machine

/-- The queue is at the start of a packet: its newest word, if any, is end-marked, and no packet is being dropped. -/
def HwQueue.atStart (q : HwQueue) : Bool :=
  !q.dropping && (match q.words.getLast? with
    | none => true
    | some w => w.2)

/-- A user that is a halted core does nothing (R23). -/
def State.userUp (s : State) (user : Nat) : Bool :=
  match userCore user with
  | some c => (Tbl.at? s.sys.halted c).isNone
  | none => true

/-- QUEUE_WRITE (R365, R366, R369): a producer that waits for space starts a packet only when it fits whole. -/
def State.queueWrite (s : State) (q word : Nat) (endMark : Bool) (packetWords user : Nat) : State :=
  let h := s.queue q
  if !s.userUp user || (producerWaits q && h.atStart && !h.stalled && queueDepth q < h.count + packetWords) then s
  else (s.userEvent user 0x03).queuePut q word endMark

/-- QUEUE_WRITE (R366). -/
def execQueueWrite (q word : Nat) (endMark : Bool) (packetWords user : Nat) (s : State) : Out :=
  whenRunning s (if q < 256 then s.queueWrite q word endMark packetWords user else s)

/-- Packets held back enter as soon as they fit, in order (R365). -/
def State.queueDrain (s : State) (q : Nat) : Nat → State
  | 0 => s
  | n + 1 =>
    match (s.queue q).heldBack with
    | [] => s
    | p :: ps =>
      if (s.queue q).count + p.length ≤ queueDepth q then
        let s := s.modQueue q fun h => { h with heldBack := ps }
        (p.foldl (fun t w => t.queuePut q w.1 w.2) s).queueDrain q n
      else s

/-- The queues on which a consumer may read without checking PACKETS (R363, R367). -/
def oneWordQueue (q : Nat) : Bool := (80 ≤ q && q < 88) || (96 ≤ q && q < 100)

/-- An ECC finding in a queue word (R371): a corrected word is counted in MEND and QM_CORRECTED; an uncorrectable word that a
queue holds resets the device, recording queue memory and the queue number; in a free word the scrubber writes 0 and counts
it. -/
def State.queueEcc (s : State) (q : Nat) (held : Bool) (ecc : Ecc) (index : Nat) : State :=
  match ecc with
  | .clean => s
  | .corrected => ((s.bump (K.q.MEND q)).bump K.qm.QM_CORRECTED).wr K.qm.QM_LAST_ADDR index
  | .uncorrectable =>
    if held then s.internalReset .memory 255 2 q else s.bump K.qm.QM_FREE_UNCORRECTED

/-- A consumer reads queue `q` (R364, R367, R368): it starts a packet only when one is whole, but on one-word queues; a read of
an empty queue stalls. -/
def State.queueTake (s : State) (q user : Nat) : State :=
  match (s.queue q).words with
  | [] =>
    if oneWordQueue q && !(s.queue q).stalled then
      ((s.bump (K.q.STALLS q)).modQueue q fun h => { h with stalled := true }).userEvent user 0x04
    else s
  | w :: ws =>
    if oneWordQueue q || 1 ≤ (s.queue q).packets then
      ((s.modQueue q fun h => { h with words := ws, lastRead := some w }).wordRead q user w.2).queueDrain q
        ((s.queue q).heldBack.length)
    else s

/-- QUEUE_READ (R368, R369, R371). -/
def State.queueRead (s : State) (q : Nat) (ecc : Ecc) (index user : Nat) : State :=
  if !s.userUp user then s
  else if (s.queue q).words.isEmpty then s.queueTake q user
  else
    let s := s.queueEcc q true ecc index
    if s.running then s.queueTake q user else s

/-- QUEUE_READ (R368). -/
def execQueueRead (q : Nat) (ecc : Ecc) (index user : Nat) (s : State) : Out :=
  whenRunning s (if q < 256 then s.queueRead q ecc index user else s)

/-- SNAPSHOT: COUNT, PACKETS, FULL and OVERRUN at one instant (R373). -/
def State.queueSnapshot (s : State) (q : Nat) : Nat :=
  (s.queue q).count + (s.queue q).packets * 2 ^ 13 + boolNat (s.queueFull q) * 2 ^ 26 +
    s.rd (K.q.OVERRUN q) * 2 ^ 27

end Sys2Proof.Machine
end

