-- ==== Sys2Proof/Machine/Vault.lean ====
section
/-! DEFINITION. The vault engine's functions beside key wrap (R334), which the spec takes from their standards: SHA-384 (FIPS 180-4),
ECDSA P-384 verification (FIPS 186-5), XTS-AES (IEEE 1619) and key derivation in counter mode with CMAC (SP 800-108)
(assumption log, entry 63). -/

namespace Sys2Proof.Machine

/-! SHA-384. -/

/-- The round constants. -/
def shaRounds : List Nat :=
  [0x428A2F98D728AE22, 0x7137449123EF65CD, 0xB5C0FBCFEC4D3B2F, 0xE9B5DBA58189DBBC,
   0x3956C25BF348B538, 0x59F111F1B605D019, 0x923F82A4AF194F9B, 0xAB1C5ED5DA6D8118,
   0xD807AA98A3030242, 0x12835B0145706FBE, 0x243185BE4EE4B28C, 0x550C7DC3D5FFB4E2,
   0x72BE5D74F27B896F, 0x80DEB1FE3B1696B1, 0x9BDC06A725C71235, 0xC19BF174CF692694] ++
  [0xE49B69C19EF14AD2, 0xEFBE4786384F25E3, 0x0FC19DC68B8CD5B5, 0x240CA1CC77AC9C65,
   0x2DE92C6F592B0275, 0x4A7484AA6EA6E483, 0x5CB0A9DCBD41FBD4, 0x76F988DA831153B5,
   0x983E5152EE66DFAB, 0xA831C66D2DB43210, 0xB00327C898FB213F, 0xBF597FC7BEEF0EE4,
   0xC6E00BF33DA88FC2, 0xD5A79147930AA725, 0x06CA6351E003826F, 0x142929670A0E6E70] ++
  [0x27B70A8546D22FFC, 0x2E1B21385C26C926, 0x4D2C6DFC5AC42AED, 0x53380D139D95B3DF,
   0x650A73548BAF63DE, 0x766A0ABB3C77B2A8, 0x81C2C92E47EDAEE6, 0x92722C851482353B,
   0xA2BFE8A14CF10364, 0xA81A664BBC423001, 0xC24B8B70D0F89791, 0xC76C51A30654BE30,
   0xD192E819D6EF5218, 0xD69906245565A910, 0xF40E35855771202A, 0x106AA07032BBD1B8] ++
  [0x19A4C116B8D2D0C8, 0x1E376C085141AB53, 0x2748774CDF8EEB99, 0x34B0BCB5E19B48A8,
   0x391C0CB3C5C95A63, 0x4ED8AA4AE3418ACB, 0x5B9CCA4F7763E373, 0x682E6FF3D6B2B8A3,
   0x748F82EE5DEFB2FC, 0x78A5636F43172F60, 0x84C87814A1F0AB72, 0x8CC702081A6439EC,
   0x90BEFFFA23631E28, 0xA4506CEBDE82BDE9, 0xBEF9A3F7B2C67915, 0xC67178F2E372532B] ++
  [0xCA273ECEEA26619C, 0xD186B8C721C0C207, 0xEADA7DD6CDE0EB1E, 0xF57D4F7FEE6ED178,
   0x06F067AA72176FBA, 0x0A637DC5A2C898A6, 0x113F9804BEF90DAE, 0x1B710B35131C471B,
   0x28DB77F523047D84, 0x32CAAB7B40C72493, 0x3C9EBE0A15C9BEBC, 0x431D67C49C100D4C,
   0x4CC5D4BECB3E42B6, 0x597F299CFC657E2A, 0x5FCB6FAB3AD6FAEC, 0x6C44198C4A475817]

/-- The initial value. -/
def shaInit : List Nat :=
  [0xCBBB9D5DC1059ED8, 0x629A292A367CD507, 0x9159015A3070DD17, 0x152FECD8F70E5939,
   0x67332667FFC00B31, 0x8EB44A8768581511, 0xDB0C2E0D64F98FA7, 0x47B5481DBEFA4FA4]

/-- A 64-bit word rotated right. -/
def rotr64 (n x : Nat) : Nat := x / 2 ^ n + x % 2 ^ n * 2 ^ (64 - n)

/-- The two functions of the message schedule. -/
def shaSmall0 (x : Nat) : Nat := rotr64 1 x ^^^ rotr64 8 x ^^^ (x / 2 ^ 7)

/-- The second. -/
def shaSmall1 (x : Nat) : Nat := rotr64 19 x ^^^ rotr64 61 x ^^^ (x / 2 ^ 6)

/-- The two functions of a round. -/
def shaBig0 (x : Nat) : Nat := rotr64 28 x ^^^ rotr64 34 x ^^^ rotr64 39 x

/-- The second. -/
def shaBig1 (x : Nat) : Nat := rotr64 14 x ^^^ rotr64 18 x ^^^ rotr64 41 x

/-- `n` more words of the message schedule, the latest first. -/
def shaSchedule : Nat → List Nat → List Nat
  | 0, w => w.reverse
  | n + 1, w => shaSchedule n ((shaSmall1 (w.getD 1 0) + w.getD 6 0 + shaSmall0 (w.getD 14 0) + w.getD 15 0) % 2 ^ 64 :: w)

/-- One round on the eight working words. -/
def shaRound (v : List Nat) (kw : Nat × Nat) : List Nat :=
  match v with
  | [a, b, c, d, e, f, g, h] =>
    let t1 := h + shaBig1 e + ((e &&& f) ^^^ ((2 ^ 64 - 1 - e) &&& g)) + kw.1 + kw.2
    let t2 := shaBig0 a + ((a &&& b) ^^^ (a &&& c) ^^^ (b &&& c))
    [(t1 + t2) % 2 ^ 64, a, b, c, (d + t1) % 2 ^ 64, e, f, g]
  | _ => v

/-- One block of 128 bytes. -/
def shaBlock (v : List Nat) (block : List Nat) : List Nat :=
  let w := shaSchedule 64 ((piecesOf 8 16 block).map bigNat).reverse
  List.zipWith (fun x y => (x + y) % 2 ^ 64) v ((shaRounds.zip w).foldl shaRound v)

/-- The 48 bytes of SHA-384. -/
def sha384 (msg : List Byte) : List Byte :=
  let m := natsOf msg
  let padded := m ++ 128 :: List.replicate ((239 - m.length % 128) % 128) 0 ++ bigBytes 16 (8 * m.length)
  let v := (piecesOf 128 (padded.length + 1) padded).foldl shaBlock shaInit
  bytesOfNats ((v.take 6).flatMap (bigBytes 8))

/-! ECDSA P-384. -/

/-- The prime of the curve. -/
def p384 : Nat := 2 ^ 384 - 2 ^ 128 - 2 ^ 96 + 2 ^ 32 - 1

/-- The order of the group. -/
def p384Order : Nat := 0xFFFFFFFFFFFFFFFFFFFFFFFFFFFFFFFFFFFFFFFFFFFFFFFFC7634D81F4372DDF581A0DB248B0A77AECEC196ACCC52973

/-- The coefficient b; a is −3. -/
def p384B : Nat := 0xB3312FA7E23EE7E4988E056BE3F82D19181D9C6EFE8141120314088F5013875AC656398D8A2ED19D2A85C8EDD3EC2AEF

/-- The base point. -/
def p384Base : Nat × Nat :=
  (0xAA87CA22BE8B05378EB1C71EF320AD746E1D3B628BA79B9859F741E082542A385502F25DBF55296C3A545E3872760AB7,
   0x3617DE4A96262C6F5D9E98BF9292DC29F8F41DBD289A147CE9DA3113B5F0B8C00A60B1CE1D7E819D7A431D7C90EA0E5F)

/-- The power of a number modulo `m`, over the lowest `bits` bits of the exponent. -/
def powMod (m : Nat) : Nat → Nat → Nat → Nat
  | 0, _, _ => 1 % m
  | bits + 1, b, e =>
    let r := powMod m bits (b * b % m) (e / 2)
    if e % 2 = 1 then b * r % m else r

/-- The inverse modulo a prime. -/
def invMod (m v : Nat) : Nat := powMod m 384 (v % m) (m - 2)

/-- A point in Jacobian coordinates; Z = 0 is the point at infinity. -/
abbrev Jacobian := Nat × Nat × Nat

/-- The difference modulo the prime. -/
def subP (a b : Nat) : Nat := (a + (p384 - b % p384)) % p384

/-- Twice a point. -/
def jacDouble (p : Jacobian) : Jacobian :=
  let (x, y, z) := p
  let d := z * z % p384
  let g := y * y % p384
  let b := x * g % p384
  let a := 3 * (subP x d * ((x + d) % p384)) % p384
  let x3 := subP (a * a % p384) (8 * b)
  let z3 := subP (subP ((y + z) * (y + z) % p384) g) d
  (x3, subP (a * subP (4 * b) x3 % p384) (8 * (g * g % p384)), z3)

/-- The sum of two points. -/
def jacAdd (p q : Jacobian) : Jacobian :=
  let (x1, y1, z1) := p
  let (x2, y2, z2) := q
  if z1 = 0 then q else if z2 = 0 then p
  else
    let u1 := x1 * (z2 * z2 % p384) % p384
    let u2 := x2 * (z1 * z1 % p384) % p384
    let s1 := y1 * (z2 * (z2 * z2 % p384) % p384) % p384
    let s2 := y2 * (z1 * (z1 * z1 % p384) % p384) % p384
    let h := subP u2 u1
    let r := subP s2 s1
    if h = 0 then if r = 0 then jacDouble p else (1, 1, 0)
    else
      let hh := h * h % p384
      let hhh := h * hh % p384
      let v := u1 * hh % p384
      let x3 := subP (subP (r * r % p384) hhh) (2 * v)
      (x3, subP (r * subP v x3 % p384) (s1 * hhh % p384), z1 * z2 % p384 * h % p384)

/-- u × P + v × Q over the lowest `bits` bits of both factors. -/
def jacMul2 (p q pq : Jacobian) : Nat → Nat → Nat → Jacobian
  | 0, _, _ => (1, 1, 0)
  | bits + 1, u, v =>
    let r := jacDouble (jacMul2 p q pq bits (u / 2) (v / 2))
    match u % 2, v % 2 with
    | 0, 0 => r
    | 1, 0 => jacAdd r p
    | 0, _ => jacAdd r q
    | _, _ => jacAdd r pq

/-- A signature of `r` and `s` over a message verifies under the public key (x, y), SHA-384 being the digest (R343). -/
def ecdsaVerify (x y : Nat) (msg : List Byte) (r s : Nat) : Bool :=
  let e := bigNat (natsOf (sha384 msg))
  let w := invMod p384Order s
  let onCurve := decide (x < p384 ∧ y < p384) && y * y % p384 == subP ((x * x % p384 * x + p384B) % p384) (3 * x)
  let g : Jacobian := (p384Base.1, p384Base.2, 1)
  let q : Jacobian := (x, y, 1)
  let t := jacMul2 g q (jacAdd g q) 384 (e * w % p384Order) (r * w % p384Order)
  onCurve && 0 < r && r < p384Order && 0 < s && s < p384Order && t.2.2 != 0 &&
    t.1 * invMod p384 (t.2.2 * t.2.2) % p384 % p384Order == r

/-! XTS-AES, whole data units of a multiple of 16 bytes. -/

/-- The next tweak: times α in the field, bytes little-endian. -/
def xtsTimes (t : List Nat) : List Nat :=
  let v := bigNat t.reverse
  (bigBytes 16 (if v < 2 ^ 127 then 2 * v else (2 * v) % 2 ^ 128 ^^^ 0x87)).reverse

/-- The blocks of a data unit, each through `f` between two additions of its tweak. -/
def xtsBlocks (f : List Nat → List Nat) : List Nat → List (List Nat) → List Nat
  | _, [] => []
  | t, b :: bs => xorNats (f (xorNats b t)) t ++ xtsBlocks f (xtsTimes t) bs

/-- The first tweak of data unit `n`, taken as a 128-bit little-endian integer (R337, R342). -/
def xtsTweak (key2 : List Byte) (n : Nat) : List Nat := aesEncrypt (aesRoundKeys (natsOf key2)) (bigBytes 16 n).reverse

/-- Encrypt data unit `n`. -/
def xtsSeal (key1 key2 : List Byte) (n : Nat) (data : List Byte) : List Byte :=
  bytesOfNats (xtsBlocks (aesEncrypt (aesRoundKeys (natsOf key1))) (xtsTweak key2 n) (piecesOf 16 (data.length + 1) (natsOf data)))

/-- Decrypt data unit `n`. -/
def xtsOpen (key1 key2 : List Byte) (n : Nat) (data : List Byte) : List Byte :=
  bytesOfNats (xtsBlocks (aesDecrypt (aesRoundKeys (natsOf key1))) (xtsTweak key2 n) (piecesOf 16 (data.length + 1) (natsOf data)))

/-! Key derivation. -/

/-- `n` blocks of key material in counter mode: counter and length in 32 bits, the label and the context parted by a zero byte. -/
def deriveKey (key label context : List Byte) (n : Nat) : List Byte :=
  (List.range n).flatMap fun i =>
    cmacOf key (bytesOfNats (bigBytes 4 (i + 1)) ++ label ++ [0] ++ context ++ bytesOfNats (bigBytes 4 (128 * n)))

end Sys2Proof.Machine
end

