-- ==== Sys2Proof/Machine/Keys.lean ====
section
/-! DEFINITION. Key slots: states, uses, transmit frame counters, loads and erases (R304–R314). -/

namespace Sys2Proof.Machine

/-- Slot states (R307, R349). -/
def slotEmpty : Nat := 0
/-- `LOADED`. -/
def slotLoaded : Nat := 1
/-- `NEAR_LIMIT`. -/
def slotNear : Nat := 2
/-- `EXHAUSTED`. -/
def slotExhausted : Nat := 3

/-- The value of TX_FC that is never used (R307). -/
def fcEnd : Nat := 0xFFFFFFFF

/-- STATE of slot `i`. -/
def State.slotState (s : State) (i : Nat) : Nat := s.rd (K.key.STATE i)

/-- A new message may start under slot `i`: it is LOADED or NEAR_LIMIT (R308). -/
def State.slotUsable (s : State) (i : Nat) : Bool := s.slotState i == slotLoaded || s.slotState i == slotNear

/-- What slot `i` holds. -/
def State.slot (s : State) (i : Nat) : KeySlot := Tbl.atD s.keys.slots i ⟨[], 0, 0, []⟩

/-- Change what slot `i` holds. -/
def State.modSlot (s : State) (i : Nat) (f : KeySlot → KeySlot) : State :=
  s.modKeys fun k => { k with slots := Tbl.modD ⟨[], 0, 0, []⟩ k.slots i f }

/-- KEYS_NEAR_LIMIT: slots now NEAR_LIMIT or EXHAUSTED (R350). -/
def State.keysNear (s : State) : Nat :=
  ((List.range 1024).filter fun i => s.slotState i == slotNear || s.slotState i == slotExhausted).length

/-- The state that USE_COUNT and TX_FC call for (R307). -/
def State.slotSettle (s : State) (i : Nat) : State :=
  if !s.slotUsable i then s
  else if (s.slot i).limit ≤ s.rd (K.key.USE_COUNT i) || s.rd (K.key.TX_FC i) == fcEnd then
    (s.wr (K.key.STATE i) slotExhausted).setFlag (K.key.NEAR_LIMIT_SEEN i) true
  else if (s.slot i).limit * 9 ≤ s.rd (K.key.USE_COUNT i) * 10 then
    (s.wr (K.key.STATE i) slotNear).setFlag (K.key.NEAR_LIMIT_SEEN i) true
  else s

/-- One use of slot `i` (R308). -/
def State.slotUse (s : State) (i : Nat) : State := (s.bump (K.key.USE_COUNT i)).slotSettle i

/-- Slot `i` has a frame counter to hand out: with the ledger enabled it must be reserved (R311, R312). -/
def State.fcReady (s : State) (i : Nat) : Bool :=
  s.slotUsable i && s.rd (K.key.TX_FC i) < fcEnd && (!s.keys.ledgerOn || s.rd (K.key.TX_FC i) < (s.slot i).resEnd)

/-- Take the next transmit frame counter of slot `i` (R311). -/
def State.takeFc (s : State) (i : Nat) : Nat × State :=
  (s.rd (K.key.TX_FC i), (s.wr (K.key.TX_FC i) (s.rd (K.key.TX_FC i) + 1)).slotSettle i)

/-- The highest FC_END of the ledger's reservation records with a fingerprint (R311). -/
def State.reservedEnd (s : State) (fp : Nat) : Nat :=
  (s.flash.ledger.flatMap fun p => match p.2.body with
    | .reservation rs => if p.2.good then rs else []
    | _ => []).foldl (fun m r => if r.fingerprint = fp then max m r.fcEnd else m) 0

/-- The messages of an engine. -/
def Engine.msgs (e : Engine) : List CipherMsg := e.running.toList ++ e.seam.toList

/-- Some engine holds a message under slot `i`, running or suspended (R309); `old` selects those under a replaced key. -/
def State.slotInUse (s : State) (i : Nat) (old : Bool) : Bool :=
  s.keys.engines.any fun p => p.2.msgs.any fun m => m.req.slot == i && m.old == old

/-- Messages under slot `i` now run under the old key. -/
def markOld (i : Nat) (e : Engine) : Engine :=
  let f := fun (m : CipherMsg) => if m.req.slot = i then { m with old := true } else m
  { e with running := e.running.map f, seam := e.seam.map f }

/-- A new key stands in slot `i` (R307, R309, R311): the slot restarts with the new key; messages already under it keep the old
one, and SHADOW_PENDING stays set until the last of them ends. -/
def State.slotInstall (s : State) (i : Nat) (key : List Byte) (fcStart fp : Nat) : State :=
  let inUse := s.slotInUse i false || s.slotInUse i true
  let fc := max fcStart (s.reservedEnd fp)
  let old := (s.slot i).key
  let s := s.modSlot i fun k =>
    { k with key := key, limit := s.rd (K.key.USE_LIMIT i), resEnd := fc, oldKey := if inUse then old else [] }
  let s := s.modKeys fun k => { k with engines := Tbl.mapVals k.engines fun _ e => markOld i e }
  let s := (((s.wr (K.key.STATE i) (if fc = fcEnd then slotExhausted else slotLoaded)).wr (K.key.KEY_BITS i)
    (8 * key.length)).wr (K.key.USE_COUNT i) 0).wr (K.key.TX_FC i) fc
  (s.wr (K.key.FINGERPRINT i) fp).setFlag (K.key.SHADOW_PENDING i) inUse

/-- The entries that read 0 once slot `i` is EMPTY (R307), and the key is gone. -/
def State.slotClear (s : State) (i : Nat) : State :=
  let s := [K.key.STATE i, K.key.KEY_BITS i, K.key.USE_COUNT i, K.key.TX_FC i, K.key.SHADOW_PENDING i,
    K.key.FINGERPRINT i].foldl (fun t r => t.wr r 0) s
  s.modKeys fun k => { k with slots := Tbl.del k.slots i }

/-- The last message under the old key of slot `i` has ended: the old key is zeroised (R309). -/
def State.shadowSettle (s : State) (i : Nat) : State :=
  if s.flag (K.key.SHADOW_PENDING i) && !s.slotInUse i true then
    (s.setFlag (K.key.SHADOW_PENDING i) false).modSlot i fun k => { k with oldKey := [] }
  else s

/-! The vault (R334–R336). -/

/-- One operation of the vault: it fails while the vault is LOCKED_OUT; two runs that differ fail it and advance VAULT_FAULTS,
and the third such mismatch locks the vault out (R335). -/
def State.vaultRun (s : State) (agree : Bool) : Bool × State :=
  if s.keys.vaultLocked then (false, s)
  else if agree then (true, s)
  else
    let s := s.bump K.vault.VAULT_FAULTS
    (false, s.modKeys fun k => { k with vaultLocked := 3 ≤ s.rd K.vault.VAULT_FAULTS })

/-- VAULT_STATE (R335, R336, R350); LOCKED_OUT hides ENTROPY_FAIL (assumption log, entry 12). -/
def State.vaultState (s : State) : Nat := if s.keys.vaultLocked then 1 else if s.keys.entropyFail then 2 else 0

/-- The result of a vault function (R334): a check answers one byte; an unwrap that fails answers nothing; random bytes are a free
value. -/
def State.vaultValue (s : State) : VaultFn → List Byte × State
  | .xts true k1 k2 n d => (xtsSeal k1 k2 n d, s)
  | .xts false k1 k2 n d => (xtsOpen k1 k2 n d, s)
  | .keyWrap i d => (keyWrap (s.slot i).key d, s)
  | .keyUnwrap i d => ((keyUnwrap (s.slot i).key d).getD [], s)
  | .sha384 d => (sha384 d, s)
  | .ecdsaVerify x y d r v => ([BitVec.ofNat 8 (boolNat (ecdsaVerify x y d r v))], s)
  | .derive label context n => (deriveKey s.flash.deviceKey label context n, s)
  | .random n => (leBytes n s.fresh.1, s.fresh.2)

/-- A vault operation runs (R308, R335): an unwrap under a slot counts one use of it. -/
def State.vaultOp (s : State) (o : VaultOp) : State :=
  let (ok, t) := s.vaultRun o.agree
  let t := match o.fn with
    | .keyUnwrap i _ => if s.keys.vaultLocked then t else t.slotUse i
    | _ => t
  if ok then
    let (v, t) := t.vaultValue o.fn
    (t.modKeys fun k => { k with vaultResult := v }).sampleBack o.core 0x40 t.now
  else t

/-! Loads (R305, R306). -/

/-- The fields of a load block (R305): SLOT, KEY_LEN, FC_START and KEY. -/
structure LoadBlock where
  slot : Nat
  long : Bool
  fcStart : Nat
  key : List Byte
  deriving DecidableEq, Repr

/-- Read a load block (R305). -/
def LoadBlock.read (b : List Byte) : LoadBlock :=
  ⟨ofLe (b.take 2), bitOf (ofLe (b.take 4)) 16, ofLe ((b.drop 4).take 4), b.drop 8⟩

/-- A refused load is counted in LOAD_FAIL of the slot (R306). -/
def State.loadRefused (s : State) (i : Nat) : WriteResult := .refuse .unusable (s.bump (K.key.LOAD_FAIL i))

/-- The unwrap of a load under slot 992, or under the fused provisioning key for slot 992 itself, counts one use (R308). -/
def State.unwrapUse (s : State) (i : Nat) : State := if i = 992 then s else s.slotUse 992

/-- The fingerprint of a key (R339): the first 8 bytes of AES-CMAC under it over 16 zero bytes. -/
def fingerprintOf (key : List Byte) : Nat := ofLe ((cmacOf key (List.replicate 16 0)).take 8)

/-- A load of slot `i` (R305, R306): the refusals of R306, then the new key. -/
def State.keyLoad (s : State) (i : Nat) (data : List Byte) (env : WriteEnv) : WriteResult :=
  if data.length ≠ 32 ∧ data.length ≠ 48 then s.loadRefused i
  else if s.keys.vaultLocked then s.loadRefused i
  else if i ≠ 992 ∧ !s.slotUsable 992 then s.loadRefused i
  else
    let (ok, s) := s.vaultRun env.vaultOk
    let s := s.unwrapUse i
    match keyUnwrap (if i = 992 then s.flash.provisionKey else (s.slot 992).key) data with
    | none => s.loadRefused i
    | some b =>
      let blk := LoadBlock.read b
      if !ok || b.length + 8 ≠ data.length || blk.slot ≠ i || blk.long ≠ (data.length == 48) then s.loadRefused i
      else .accept (s.slotInstall i blk.key blk.fcStart (fingerprintOf blk.key))

/-- A write of BOUND_EUI (R314, R349): only slots 128 to 991 bind, and an EUI-64 binds to one slot. -/
def State.boundWrite (s : State) (i eui : Nat) : WriteResult :=
  if i < 128 || 991 < i then .refuse .unusable s
  else if eui ≠ 0 && (List.range 1024).any (fun j => j != i && s.rd (K.key.BOUND_EUI j) == eui) then
    .refuse .unusable s
  else .accept (s.wr (K.key.BOUND_EUI i) eui)

/-- The slot bound to an EUI-64, if any (R314). -/
def State.boundSlot (s : State) (eui : Nat) : Option Nat :=
  if eui = 0 then none else (List.range 864).find? (fun j => s.rd (K.key.BOUND_EUI (128 + j)) == eui) |>.map (128 + ·)

/-- VAULT_CLEAR: TRUE returns the vault from LOCKED_OUT (R335). -/
def State.vaultClear (s : State) (value : Nat) : WriteResult :=
  if value = 0 then .accept s
  else .accept ((s.wr K.vault.VAULT_FAULTS 0).modKeys fun k => { k with vaultLocked := false })

/-- ENTROPY_TEST_FAIL (R336): output is blocked and the failure counted. -/
def execEntropyTestFail (s : State) : Out :=
  whenRunning s ((s.bump K.vault.ENTROPY_FAILS).modKeys fun k => { k with entropyFail := true })

/-- VAULT_OPERATION (R335, R336): it waits while the random source is blocked. -/
def execVaultOperation (op : VaultOp) (s : State) : Out :=
  onCore op.core s
    (let s := s.event op.core 0x01
     if s.keys.entropyFail then s.modKeys fun k => { k with vaultWaiting := k.vaultWaiting ++ [.op op] }
     else s.vaultOp op)

/-! Admission (R318, R319). -/

/-- The records of an ADMIT_WRITE value: 48 bytes each (R319). -/
def admRecords : Nat → List Byte → List AdmRec
  | 0, _ => []
  | n + 1, b => ⟨ofLe (b.take 8), (b.drop 8).take 40⟩ :: admRecords n (b.drop 48)

/-- One record replaces or deletes the record of its EUI-64 (R319). -/
def admApply (t : Tbl (List Byte)) (r : AdmRec) : Tbl (List Byte) :=
  if r.wrapped.all (· == 0) then Tbl.del t r.eui else Tbl.ins t r.eui r.wrapped

/-- A write of ADMIT_WRITE (R319): 1 to 64 records, at most 131,072 held; the records then go to the ledger. -/
def State.admitWrite (s : State) (data : List Byte) : WriteResult :=
  if data.length = 0 || data.length % 48 ≠ 0 || 64 * 48 < data.length then .refuse .range s
  else
    let recs := admRecords (data.length / 48) data
    let t := recs.foldl admApply s.keys.admission
    if 131072 < t.length then .refuse .resources s
    else
      let s := (s.modKeys fun k => { k with admission := t }).wr K.adm.ADMIT_COUNT t.length
      .accept (if s.keys.ledgerOn then s.modFlash fun f => { f with ops := f.ops ++ [.admission recs] } else s)

/-- A write of ADMIT_MODE (R318): LISTED needs the ledger. -/
def State.admitMode (s : State) (mode : Nat) : WriteResult :=
  if 1 < mode then .refuse .range s
  else if mode = 1 && !s.flag K.ledger.LEDGER_ENABLE then .refuse .unusable s
  else .accept (s.wr K.adm.ADMIT_MODE mode)

end Sys2Proof.Machine
end

