-- ==== Sys2Proof/Machine/Engines.lean ====
section
/-! DEFINITION. Line cipher engines: allocation, seams, messages and faults (R323–R333). -/

namespace Sys2Proof.Machine

/-- An engine after reset (R324). -/
def Engine.free : Engine := ⟨255, none, none, 255, false, false, false⟩

/-- Engine `e`. -/
def State.engine (s : State) (e : Nat) : Engine := Tbl.atD s.keys.engines e Engine.free

/-- Change engine `e`. -/
def State.modEngine (s : State) (e : Nat) (f : Engine → Engine) : State :=
  s.modKeys fun k => { k with engines := Tbl.modD Engine.free k.engines e f }

/-- The lock register (R324). -/
def Engine.lock (e : Engine) : Nat :=
  e.owner + (match e.running with
    | some m => m.req.cls
    | none => 0) * 2 ^ 8 + boolNat e.running.isSome * 2 ^ 10 + boolNat e.seam.isSome * 2 ^ 11 + e.seamOwner * 2 ^ 12 +
    (match e.seam with
    | some m => m.req.cls
    | none => 0) * 2 ^ 20 + boolNat e.lockedOut * 2 ^ 22

/-- ENG_STATE: 0 IDLE, 1 BUSY, 2 SUSPENDED, 3 LOCKED_OUT (R350); an engine that holds a seam is SUSPENDED (entry 12). -/
def Engine.stateCode (e : Engine) : Nat :=
  if e.lockedOut then 3 else if e.seam.isSome then 2 else if e.running.isSome then 1 else 0

/-- The end codes of R331. -/
inductive EndCode where
  | ok | tagFail | keyErased | fault | noKey | badDescriptor
  deriving DecidableEq, Repr

/-- END_CODE (R331). -/
def EndCode.code : EndCode → Nat
  | .ok => 0
  | .tagFail => 1
  | .keyErased => 2
  | .fault => 3
  | .noKey => 4
  | .badDescriptor => 5

/-- The status word that closes an output packet (R331). -/
def statusWord (code : EndCode) (e released : Nat) : Nat := code.code + e * 2 ^ 16 + released % 2 ^ 32 * 2 ^ 32

/-- The slots a mode may name (R323). -/
def modeSlot : CipherMode → Nat → Bool
  | .ccm, i => i < 992
  | .gcm, i => 993 ≤ i && i < 1024
  | .cmac, i => 993 ≤ i && i < 1024
  | .ctr, i => i < 1024 && i != 992

/-- A descriptor that the engine refuses with BAD_DESCRIPTOR (R323, R328). -/
def State.badDescriptor (s : State) (r : CipherReq) : Bool :=
  r.slot == 992 || r.slot == s.rd K.adm.ADMIT_KEK_SLOT || !modeSlot r.mode r.slot ||
    (!r.encrypt && ((r.output == .hold && 16384 < r.len) || (r.output == .releaseEarly && !r.earlyConsumer)))

/-- What the engine makes of a message (R323): its output, and whether its tag verifies. A descriptor carries the nonce, IV or counter
block, the additional data, the data, and the tag to verify or as many bytes as the tag to be made. -/
def CipherMsg.result (m : CipherMsg) : List Byte × Bool :=
  let r := m.req
  match r.mode, r.encrypt with
  | .ccm, true => let x := ccmSeal m.key r.tag.length r.nonce r.aad r.data; (x.1 ++ x.2, true)
  | .ccm, false => ccmOpen m.key r.nonce r.aad r.data r.tag
  | .gcm, true => let x := gcmSeal m.key r.nonce r.aad r.data; (x.1 ++ x.2, true)
  | .gcm, false => gcmOpen m.key r.nonce r.aad r.data r.tag
  | .cmac, true => (cmacOf m.key r.data, true)
  | .cmac, false => ([], cmacOf m.key r.data == r.tag)
  | .ctr, _ =>
    let first := bigNat (natsOf r.nonce)
    (bytesOfNats (ctrCrypt (aesRoundKeys (natsOf m.key)) (fun c => bigBytes 16 (first + c)) 0 (natsOf r.data)), true)

/-- The output that stands before the status word (R310, R328, R329, R333): all of it where the message ends well; else what was released
before, of a decryption in RELEASE_EARLY or of an encryption that no erase has zeroised. -/
def CipherMsg.output (m : CipherMsg) (code : EndCode) : List Byte :=
  let out := m.result.1
  if m.req.output == .verifyOnly && !m.req.encrypt then []
  else match code with
    | .ok => out
    | .keyErased => if m.req.encrypt || m.req.output != .releaseEarly then [] else out.take m.released
    | _ => if m.req.encrypt || m.req.output == .releaseEarly then out.take m.released else []

/-- Output bytes as 64-bit words, the first byte lowest, the last word filled up with zeros (R7; assumption log, entry 48). -/
def outWords (b : List Byte) : List Nat := (piecesOf 8 (b.length + 1) b).map ofLe

/-- An encryption takes a transmit frame counter: line MPDUs and northbound messages (R311, R410). -/
def takesFc (r : CipherReq) : Bool := r.encrypt && (r.mode == .ccm || r.mode == .gcm)

/-- The opcode of a descriptor in a sample record (R473). -/
def cipherOpcode (r : CipherReq) : Nat :=
  match r.mode, r.encrypt with
  | .ccm, true => 0x20
  | .ccm, false => 0x21
  | .gcm, true => 0x22
  | .gcm, false => 0x23
  | .cmac, _ => 0x24
  | .ctr, _ => 0x25

/-- What an end code makes of the MPDU that a message decrypts (R137, R144, R333). -/
def EndCode.opening (slot : Nat) (key : List Byte) : EndCode → Opening
  | .ok => .good slot key
  | .tagFail => .tagFail
  | .keyErased => .keyErased
  | .fault => .tagFail
  | .noKey => .noKey
  | .badDescriptor => .noKey

/-- The MAC engine learns how the message of a received MPDU ended (R137). -/
def State.openingEnds (s : State) (r : CipherReq) (key : List Byte) (code : EndCode) : State :=
  match r.mpdu with
  | some (x, j) => s.modRx x fun y => { y with openings := Tbl.ins y.openings j (code.opening r.slot key) }
  | none => s

/-- The output packet of a message on engine `e` (R331): its output and the status word. A MAC engine takes the packet of a received MPDU
as it comes. -/
def State.outPacket (s : State) (e : Nat) (m : CipherMsg) (code : EndCode) : State :=
  if m.req.mpdu.isSome then s
  else
    let out := m.output code
    s.sendPacket (16 + e) (outWords out ++ [statusWord code e out.length])

/-- The end of a message on engine `e`, apart from what follows on the engine: the output packet, the counters, the sampled
descriptor, and the shadow of the slot (R309, R329, R331). -/
def State.closeMsg (s : State) (e : Nat) (m : CipherMsg) (code : EndCode) : State :=
  let s := (s.bump (K.eng.MESSAGES e)).outPacket e m code
  let s := match code with
    | .tagFail =>
      let s := s.eventC 11 0x05 m.req.cls
      if m.req.output == OutputMode.releaseEarly then s.bump (K.eng.TAG_FAILS e) else s
    | .keyErased => (s.bump (K.eng.KEY_ERASED_ENDS e)).eventC 11 0x09 m.req.cls
    | _ => s
  let sample := fun (t : State) (source : Nat) =>
    t.sampleDescriptor source (cipherOpcode m.req) m.req.cls false m.req.descAddr m.issueTick
  let s := match userCore m.req.user with
    | some c => sample s c
    | none => s
  ((sample s 11).shadowSettle m.req.slot).openingEnds m.req m.key code

/-- A GCM message that verifies, and every CMAC message that is checked, counts one use of its slot; a message under a
replaced key counts against the old key only (R308, R309). -/
def State.endUse (s : State) (m : CipherMsg) (code : EndCode) : State :=
  if m.req.encrypt || m.old then s
  else
    match m.req.mode, code with
    | .gcm, .ok => s.slotUse m.req.slot
    | .cmac, .ok => s.slotUse m.req.slot
    | .cmac, .tagFail => s.slotUse m.req.slot
    | _, _ => s

/-- The engine after its running message is gone: the seam is restored with its owner (R326); otherwise a release that was
written, or the end of a pooled use, frees the engine (R324). -/
def Engine.afterMsg (e : Engine) : Engine :=
  match e.seam with
  | some m => { e with running := some m, seam := none, owner := e.seamOwner, seamOwner := 255, pooled := m.pooled }
  | none =>
    if e.releasing || e.pooled then { e with running := none, owner := 255, releasing := false, pooled := false }
    else { e with running := none }

/-- Start the message of a descriptor on engine `e`, which its user owns (R308, R309, R311): the key is copied, an encryption
takes a frame counter and counts one use. -/
def State.startMsg (s : State) (e : Nat) (r : CipherReq) : State :=
  let fc := if takesFc r then s.takeFc r.slot else (0, s)
  let key := (s.slot r.slot).key
  let s := if r.encrypt then fc.2.slotUse r.slot else fc.2
  let s := ((s.modKeys fun k => { k with started := k.started + 1 }).eventC 11 0x01 r.cls).userEvent r.user 0x01
  s.modEngine e fun g =>
    { g with running := some ⟨r, key, false, fc.1, s.keys.started, 0, 0, 0, s.now, g.pooled⟩ }

/-- A message that ends before it starts: the engine reports it in a status word and is free again (R331). -/
def State.refuseMsg (s : State) (e : Nat) (r : CipherReq) (code : EndCode) : State :=
  let s := if r.mpdu.isSome then s.bump (K.eng.MESSAGES e)
    else (s.bump (K.eng.MESSAGES e)).sendPacket (16 + e) [statusWord code e 0]
  (s.modEngine e Engine.afterMsg).openingEnds r [] code

/-- Engine `e`, owned by the user of `r`, takes the descriptor (R323, R328, R331). -/
def State.runDescriptor (s : State) (e : Nat) (r : CipherReq) : State :=
  if s.badDescriptor r then s.refuseMsg e r .badDescriptor
  else if !s.slotUsable r.slot then s.refuseMsg e r .noKey
  else s.startMsg e r

/-- The lowest-numbered free engine other than `avoid` (R325). -/
def State.freeEngine (s : State) (avoid : Option Nat) : Option Nat :=
  (List.range 64).find? fun e => (s.engine e).owner == 255 && !(s.engine e).lockedOut && avoid != some e

/-- Engine `e` qualifies for suspension by the P0 request `r` (R325). -/
def State.suspendable (s : State) (r : CipherReq) (e : Nat) : Bool :=
  match (s.engine e).running with
  | some m => m.req.cls != 0 && (s.engine e).seam.isNone && !(s.engine e).lockedOut &&
      (r.encrypt || r.output != .hold || m.held + r.len ≤ 16384)
  | none => false

/-- Engine `a` is chosen over `b`: the lower class, on a tie the message that started last (R325). -/
def State.prefers (s : State) (a b : Nat) : Bool :=
  match (s.engine a).running, (s.engine b).running with
  | some m, some n => n.req.cls < m.req.cls || (n.req.cls == m.req.cls && n.order < m.order)
  | _, _ => false

/-- The engine that a P0 request suspends (R325). -/
def State.victim (s : State) (r : CipherReq) : Option Nat :=
  (List.range 64).foldl (fun best e =>
    if !s.suspendable r e then best
    else match best with
      | none => some e
      | some b => if s.prefers e b then some e else some b) none

/-- The running message of engine `e` goes into its seam and the user of `r` becomes OWNER (R326). -/
def State.suspend (s : State) (e : Nat) (r : CipherReq) : State :=
  ((s.bump (K.eng.SEAMS e)).event 11 0x04).modEngine e fun g =>
    { g with
      running := none
      seam := g.running.map fun m => { m with pooled := g.pooled }
      seamOwner := g.owner
      owner := r.user
      pooled := true }

/-- The engine whose owner already is the user of `r`, and that runs no message (R324). -/
def State.ownedEngine (s : State) (r : CipherReq) : Option Nat :=
  (List.range 64).find? fun e =>
    (s.engine e).owner == r.user && (s.engine e).running.isNone && !(s.engine e).pooled && !(s.engine e).lockedOut

/-- Grant `r` an engine where one can be had (R325): one the user owns, the lowest-numbered free one, or for P0 one that can
be suspended; an encryption that would need an unreserved frame counter waits (R312). -/
def State.grant? (s : State) (r : CipherReq) (avoid : Option Nat) : Option State :=
  if takesFc r && s.slotUsable r.slot && !s.fcReady r.slot then none
  else match s.ownedEngine r with
    | some e => some (s.runDescriptor e r)
    | none => match s.freeEngine avoid with
      | some e => some ((s.modEngine e fun g => { g with owner := r.user, pooled := true }).runDescriptor e r)
      | none =>
        if r.cls = 0 then (s.victim r).map fun e => (s.suspend e r).runDescriptor e r else none

/-- `a` waits before `b`: class order, then arrival order (R325). -/
def insertWait (r : CipherReq) : List CipherReq → List CipherReq
  | [] => [r]
  | q :: qs => if r.cls < q.cls then r :: q :: qs else q :: insertWait r qs

/-- Waiting requests take engines in order while one can be had. -/
def State.serveWaiting (s : State) : Nat → State
  | 0 => s
  | n + 1 =>
    match s.keys.waiting.findSome? (fun r => (s.grant? r none).map fun t => (r, t)) with
    | some (r, t) => (t.modKeys fun k => { k with waiting := k.waiting.erase r }).serveWaiting n
    | none => s

/-- Serve every request that can be served. -/
def State.serve (s : State) : State := s.serveWaiting s.keys.waiting.length

/-- A request of a user (R325): granted, or queued; a P0 request that finds no engine is counted in P0_CIPHER_WAITS. -/
def State.engineRequest (s : State) (r : CipherReq) (avoid : Option Nat) : State :=
  match s.grant? r avoid with
  | some t => t
  | none =>
    let s := if r.cls = 0 && (!takesFc r || !s.slotUsable r.slot || s.fcReady r.slot) then
      (s.bump K.vault.P0_CIPHER_WAITS).event 11 0x07 else s
    s.modKeys fun k => { k with waiting := insertWait r k.waiting }

/-- CIPHER_ENGINE_REQUEST (R325). -/
def execCipherEngineRequest (req : CipherReq) (s : State) : Out := whenRunning s (s.engineRequest req none)

/-- The running message of engine `e` ends (R326, R331). -/
def State.endMsg (s : State) (e : Nat) (code : EndCode) : State :=
  match (s.engine e).running with
  | none => s
  | some m =>
    let s := (s.modEngine e Engine.afterMsg).endUse m code
    (s.closeMsg e m code).serve

/-- The suspended message of engine `e` ends (R327): its packet is closed and the seam is gone. -/
def State.endSeam (s : State) (e : Nat) (code : EndCode) : State :=
  match (s.engine e).seam with
  | none => s
  | some m => (s.modEngine e fun g => { g with seam := none, seamOwner := 255 }).closeMsg e m code

/-- ENGINE_OWNER_WRITE (R324): a free engine is taken by a user's own ID; the owner releases with 0xFF, at the end of a running
message; any other write is ignored and counted. -/
def State.ownerWrite (s : State) (e user value : Nat) : State :=
  let g := s.engine e
  if g.owner = 255 && value = user && user ≠ 255 && !g.lockedOut then
    s.modEngine e fun g => { g with owner := user, pooled := false }
  else if g.owner = user && value = 255 then
    if g.running.isSome then s.modEngine e fun g => { g with releasing := true }
    else (s.modEngine e fun g => { g with owner := 255, pooled := false }).serve
  else s.bump (K.eng.LOCK_VIOLATION e)

/-- ENGINE_OWNER_WRITE (R324). -/
def execEngineOwnerWrite (e user value : Nat) (s : State) : Out :=
  whenRunning s (if e < 64 then s.ownerWrite e user value else s)

/-- Lock an engine out (R333): every message on it ends FAULT, and its keys and seam are gone. -/
def State.lockOut (s : State) (e : Nat) : State :=
  let s := s.endSeam e .fault
  let s := match (s.engine e).running with
    | none => s
    | some m => (s.modEngine e fun g => { g with running := none }).closeMsg e m .fault
  s.modEngine e fun _ => { Engine.free with lockedOut := true }

/-- A forward block that differs from its inverse (R333): the mismatch is counted; the third locks the engine out, before that
the message ends FAULT; an encryption is given again to another engine with a new frame counter. -/
def State.blockMismatch (s : State) (e : Nat) (m : CipherMsg) : State :=
  let s := (s.bump (K.eng.FAULT_COUNT e)).event 11 0x06
  let s := if 3 ≤ s.rd (K.eng.FAULT_COUNT e) then (s.lockOut e).serve else s.endMsg e .fault
  if m.req.encrypt then s.engineRequest m.req (some e) else s

/-- CIPHER_BLOCK (R332): one AES block with its dummy rounds; its result is used only when the inverse datapath agrees. -/
def State.cipherBlock (s : State) (e : Nat) (matched : Bool) (dummyRounds released held : Nat) : State :=
  match (s.engine e).running with
  | none => s
  | some m =>
    let s := (s.event 11 0x02).events 11 0x03 none (min dummyRounds 7)
    if matched then s.modEngine e fun g => { g with
      running := some { m with blocks := m.blocks + 1, released := m.released + released, held := m.held + held } }
    else s.blockMismatch e m

/-- CIPHER_BLOCK (R332). -/
def execCipherBlock (e : Nat) (matched : Bool) (dummyRounds released held : Nat) (s : State) : Out :=
  whenRunning s (s.cipherBlock e matched dummyRounds released held)

/-- FAULT_CLEAR: TRUE returns the engine to service with FAULT_COUNT 0 (R333). -/
def State.faultClear (s : State) (e value : Nat) : WriteResult :=
  if value = 0 then .accept s
  else .accept (((s.wr (K.eng.FAULT_COUNT e) 0).modEngine e fun g => { g with lockedOut := false }).serve)

/-- The engine work of some requests is withdrawn (R143): a message ends with an error mark and no use of the slot, the engine is free, and
requests that wait are dropped. -/
def State.withdrawWork (s : State) (mine : CipherReq → Bool) : State :=
  let s := s.modKeys fun k => { k with waiting := k.waiting.filter fun r => !mine r }
  (List.range 64).foldl (fun t e =>
    let t := match (t.engine e).seam with
      | some m => if mine m.req then t.endSeam e .fault else t
      | none => t
    match (t.engine e).running with
    | some m => if mine m.req then t.endMsg e .fault else t
    | none => t) s

/-- The engine work of reception `x` is withdrawn (R143). -/
def State.withdrawOpenings (s : State) (x : Nat) : State := s.withdrawWork fun r => r.mpdu.any fun p => p.1 == x

/-- Every message under slot `i` ends KEY_ERASED, suspended ones first (R310, R327). -/
def State.eraseMsgs (s : State) (i : Nat) : State :=
  (List.range 64).foldl (fun t e =>
    let t := match (t.engine e).seam with
      | some m => if m.req.slot = i then t.endSeam e .keyErased else t
      | none => t
    match (t.engine e).running with
    | some m => if m.req.slot = i then t.endMsg e .keyErased else t
    | none => t) s

/-- An erase takes effect at once (R310): the slot is EMPTY, then every message under it ends. -/
def State.slotErase (s : State) (i : Nat) : State := (s.slotClear i).eraseMsgs i

end Sys2Proof.Machine
end

