-- ==== Sys2Proof/Machine/Flash.lean ====
section
/-! DEFINITION. The xSPI flash and the fuses: image slots and their checks, the ledger's sectors and reservations, and the
completion of flash writes (R337–R348, R487). -/

namespace Sys2Proof.Machine

/-- The number in bytes `[lo, lo + n)` of a header, little-endian (R343). -/
def headField (h : List Byte) (lo n : Nat) : Nat := ofLe ((h.drop lo).take n)

/-- MAGIC and HEADER_VERSION are right (R343, R344 step 2). -/
def headGood (h : List Byte) : Bool := h.length == 4096 && headField h 0 4 == 0x53482560 && headField h 4 2 == 1

/-- ROOT_INDEX (R343). -/
def headRoot (h : List Byte) : Nat := headField h 6 1

/-- IMAGE_SEQ (R343). -/
def headSeq (h : List Byte) : Nat := headField h 8 4

/-- SECURITY_VERSION (R343). -/
def headSecurity (h : List Byte) : Nat := headField h 12 2

/-- FW_VERSION (R343). -/
def headFw (h : List Byte) : Nat := headField h 16 4

/-- BODY_LEN (R343). -/
def headBody (h : List Byte) : Nat := headField h 20 4

/-- N_SECTIONS (R343). -/
def headSections (h : List Byte) : Nat := headField h 24 2

/-- The size of a section's target (R20, R343): 512 KiB of core memory or 4 MiB of firmware data. -/
def targetSize (t : Nat) : Nat := if t < 8 then 0x80000 else if t = 8 then 0x400000 else 0

/-- Section `k` lies within the body and its target (R343, R344 step 3). -/
def sectionGood (h : List Byte) (k : Nat) : Bool :=
  let at' := 192 + 16 * k
  headField h at' 1 ≤ 8 && headField h (at' + 4) 4 + headField h (at' + 12) 4 ≤ targetSize (headField h at' 1) &&
    headField h (at' + 8) 4 + headField h (at' + 12) 4 ≤ headBody h

/-- The rules that R343 gives for BODY_LEN and N_SECTIONS, and every section (R344 step 3). -/
def sectionsGood (h : List Byte) : Bool :=
  headBody h % 4096 == 0 && headBody h ≤ 16773120 && 1 ≤ headSections h && headSections h ≤ 16 &&
    (List.range (headSections h)).all (sectionGood h)

/-- The slot results of R350. -/
inductive SlotResult where
  | ok | blank | header | rootKey | signature | rollback | bodyHash | sections | notTried | vaultFail
  deriving DecidableEq, Repr

/-- The code of a slot result (R350). -/
def SlotResult.code : SlotResult → Nat
  | .ok => 0
  | .blank => 1
  | .header => 2
  | .rootKey => 3
  | .signature => 4
  | .rollback => 5
  | .bodyHash => 6
  | .sections => 7
  | .notTried => 8
  | .vaultFail => 9

/-- ROOT_REVOKED bit `k` (R334). -/
def State.revoked (s : State) (k : Nat) : Bool := bitOf s.flash.rootRevoked k

/-- Some sector of the slot was cut off by a reset (R487). -/
def State.slotCut (s : State) (slot : Nat) : Bool :=
  s.flash.image.any fun p => p.1 / 4096 == slot && p.2.isEmpty

/-- PUBLIC_KEY (R343). -/
def headKey (h : List Byte) : List Byte := (h.drop 32).take 97

/-- ROOT_INDEX names a root that is not revoked and whose fused hash is that of PUBLIC_KEY (R344 step 3). -/
def State.rootGood (s : State) (h : List Byte) : Bool :=
  headRoot h ≤ 1 && !s.revoked (headRoot h) && sha384 (headKey h) == s.flash.rootHash.getD (headRoot h) []

/-- SIGNATURE verifies under PUBLIC_KEY over header bytes 0–3,999 (R343, R344 step 3). -/
def signatureGood (h : List Byte) : Bool :=
  ofBe ((h.drop 32).take 1) == 4 &&
    ecdsaVerify (ofBe ((h.drop 33).take 48)) (ofBe ((h.drop 81).take 48)) (h.take 4000) (ofBe ((h.drop 4000).take 48))
      (ofBe ((h.drop 4048).take 48))

/-- The decrypted body of a slot (R342, R344 step 4): sector index k counted from the start of the slot is the tweak. -/
def State.slotBody (s : State) (slot : Nat) : List Byte :=
  (List.range (headBody (s.imageSector slot 0) / 4096)).flatMap fun k =>
    xtsOpen s.flash.imageKey Config.imageTweakKey (k + 1) (s.imageSector slot (k + 1))

/-- BODY_HASH is the SHA-384 of the decrypted body (R343, R344 step 4). -/
def State.bodyGood (s : State) (slot : Nat) : Bool :=
  !s.slotCut slot && sha384 (s.slotBody slot) == ((s.imageSector slot 0).drop 144).take 48

/-- Steps 2 to 4 of R344 on one slot. -/
def State.slotResult (s : State) (slot : Nat) : SlotResult :=
  let h := s.imageSector slot 0
  if h = erasedSector then .blank
  else if !headGood h then .header
  else if !s.rootGood h then .rootKey
  else if !signatureGood h then .signature
  else if headSecurity h < s.flash.minVersion then .rollback
  else if !sectionsGood h then .sections
  else if !s.bodyGood slot then .bodyHash
  else .ok

/-- Section `k` of a slot: TARGET, DEST_OFFSET and its bytes (R343). -/
def State.imageSection (s : State) (slot k : Nat) : Nat × Nat × List Byte :=
  let h := s.imageSector slot 0
  let at' := 192 + 16 * k
  (headField h at' 1, headField h (at' + 4) 4, ((s.slotBody slot).drop (headField h (at' + 8) 4)).take (headField h (at' + 12) 4))

/-- Load the sections of a slot (R344 step 4): into the cores' memories, or into the firmware data region of working memory (R20), of
which the host scratch window stays 0 (R362). -/
def State.loadSections (s : State) (slot : Nat) : State :=
  let xs := (List.range (headSections (s.imageSector slot 0))).map (s.imageSection slot)
  (xs.filter fun x => x.1 == 8).foldl (fun t x => t.setBytes (0x02C00000 + x.2.1) (x.2.2.take (0x3F0000 - x.2.1)))
    (s.modSys fun y => { y with loaded := xs.filter fun x => x.1 < 8 })

/-- The header of the running image. -/
def State.runningHead (s : State) : List Byte := s.imageSector (s.rd K.bootp.BOOT_SLOT) 0

/-- A write of COMMIT_SECURITY_VERSION (R346): fuses are blown up to the running image's version. -/
def State.commitVersion (s : State) (value : Nat) : WriteResult :=
  if value ≠ headSecurity s.runningHead then .refuse .range s
  else .accept (s.modFlash fun f => { f with minVersion := min 64 (max f.minVersion value) })

/-- A write of ROOT_REVOKE (R346): bit `k` is blown when the running image was signed under the other root. -/
def State.rootRevoke (s : State) (k : Nat) : WriteResult :=
  if 1 < k then .refuse .range s
  else if headRoot s.runningHead ≠ 1 - k then .refuse .unusable s
  else .accept (s.modFlash fun f => { f with rootRevoked := f.rootRevoked ||| 2 ^ k })

/-- Cut bytes into sectors of 4,096. -/
def sectorsOf : Nat → List Byte → List (List Byte)
  | 0, _ => []
  | n + 1, b => b.take 4096 :: sectorsOf n (b.drop 4096)

/-- A write of IMAGE_DATA (R347, R348; in recovery either slot, R345): the sectors are erased and programmed when the flash is
done with them. -/
def State.imageWrite (s : State) (data : List Byte) : WriteResult :=
  let k := (data.length - 8) / 4096
  let slot := headField data 0 1
  let offset := headField data 4 4
  if data.length ≠ 8 + 4096 * k || k = 0 || 256 < k || 1 < slot || offset % 4096 ≠ 0 ||
      0x1000000 < offset + 4096 * k then .refuse .range s
  else if s.running && slot = s.rd K.bootp.BOOT_SLOT then .refuse .unusable s
  else .accept (s.modFlash fun f =>
    { f with ops := f.ops ++ [.image (slot * 4096 + offset / 4096) (sectorsOf k (data.drop 8))] })

/-- A write of IMAGE_VERIFY (R347): TRUE checks the slot that did not boot. Where the vault fails the operation (R335) the result is
`VAULT_FAIL` (assumption log, entry 63). -/
def State.imageVerify (s : State) (value : Nat) (vaultOk : Bool) : WriteResult :=
  if value = 0 then .accept s
  else
    let (ok, s) := s.vaultRun vaultOk
    .accept (s.wr K.bootp.IMAGE_STATUS (if ok then s.slotResult (1 - s.rd K.bootp.BOOT_SLOT) else .vaultFail).code)

/-! The ledger. -/

/-- A number in bits `lo` upwards of a record (R339). -/
def at' (lo v : Nat) : Nat := v * 2 ^ lo

/-- An endpoint record (R339). -/
def EpRec.bytes (r : EpRec) : List Byte :=
  leBytes 32 (at' 0 (if r.isSet then 1 else 2) + at' 8 r.entry + at' 32 r.eui + at' 96 r.addr + at' 112 r.seg + at' 118 r.state +
    at' 121 r.lrMode + at' 123 r.laneSf + at' 126 r.lrSf + at' 129 r.bMax + at' 133 r.rateMax + at' 136 r.driftBound +
    at' 144 r.leaseEnd + at' 176 r.wakePeriod + at' 192 r.wakePhase + at' 208 r.wakeSlots + at' 216 r.checkInterval)

/-- A reservation record (R339). -/
def ResRec.bytes (r : ResRec) : List Byte := leBytes 16 (at' 0 r.slot + at' 32 r.fcEnd + at' 64 r.fingerprint)

/-- KIND, the place in a snapshot (SNAP_INDEX, SNAP_TOTAL, SNAP_ID), the number of records and their bytes (R338, R339). -/
def SectorBody.parts : SectorBody → Nat × (Nat × Nat × Nat) × Nat × List Byte
  | .snapshot i n id rs => (1, (i, n, id), rs.length, rs.flatMap EpRec.bytes)
  | .journal rs => (2, (0, 0, 0), rs.length, rs.flatMap EpRec.bytes)
  | .admission rs => (3, (0, 0, 0), rs.length, rs.flatMap fun r => leBytes 8 r.eui ++ r.wrapped)
  | .reservation rs => (4, (0, 0, 0), rs.length, rs.flatMap ResRec.bytes)

/-- The plaintext of a ledger sector (R338). -/
def LedgerSector.plain (x : LedgerSector) : List Byte :=
  let (kind, (index, total, id), n, recs) := x.body.parts
  withCrc crcLedger
    (leBytes 32 (at' 0 0x4C454447 + at' 32 1 + at' 40 kind + at' 48 n + at' 64 x.seq + at' 128 (x.bootId % 16) + at' 144 index +
      at' 160 total + at' 192 id) ++ (recs ++ List.replicate (4056 - recs.length) 0))

/-- The two keys of the ledger (R337): derived from DEVICE_KEY with the label "LEDGER" and the EUI-64. -/
def Flash.ledgerKeys (f : Flash) : List Byte × List Byte :=
  let k := deriveKey f.deviceKey (leBytes 6 0x52454744454C) (beBytes 8 f.eui64) 4
  (k.take 32, k.drop 32)

/-! The store copies as they stand in flash (R449). -/

/-- A record of a store copy. -/
def StoreRec.bytes (r : StoreRec) : List Byte :=
  leBytes 2 r.idx ++ leBytes 1 r.sub ++ [0] ++ leBytes 4 r.value.length ++ r.value

/-- The record areas of a copy one after the other: the records and the end record. -/
def StoreCopy.area (c : StoreCopy) : List Byte := c.records.flatMap StoreRec.bytes ++ List.replicate 8 0

/-- SECTOR_TOTAL. -/
def StoreCopy.total (c : StoreCopy) : Nat := (c.area.length + 4063) / 4064

/-- The plaintext of sector `i` of a copy. -/
def StoreCopy.plain (c : StoreCopy) (i : Nat) : List Byte :=
  let part := (c.area.drop (4064 * i)).take 4064
  withCrc crcLedger
    (leBytes 4 0x53544F52 ++ [1, 0] ++ leBytes 2 i ++ leBytes 4 c.seq ++ leBytes 4 c.fw ++ leBytes 2 c.total ++ leBytes 6 0 ++
      part ++ List.replicate (4064 - part.length) 0)

/-- The two keys of the store: derived from DEVICE_KEY with the label "STORE" (assumption log, entry 63: no context). -/
def Flash.storeKeys (f : Flash) : List Byte × List Byte :=
  let k := deriveKey f.deviceKey (leBytes 5 0x45524F5453) [] 4
  (k.take 32, k.drop 32)

/-- What stands in sector `i` of the area of copy `k`; none for one that a write left incomplete or that no write reached. -/
def Flash.storeSector (f : Flash) (k i : Nat) : Option (List Byte) :=
  match Tbl.at? f.stores k with
  | some c =>
    if c.valid && i < c.total then some (xtsSeal f.storeKeys.1 f.storeKeys.2 (0x3000 + 0x200 * k + i) (c.plain i)) else none
  | none => some erasedSector

/-- What stands in sector `n` of the flash (R337, R342, R449): an image slot, a store copy, or the ledger, whose sectors are encrypted with the flash offset
in sectors as the tweak; none where a write that was cut off or failed has left it. -/
def Flash.sector (f : Flash) (n : Nat) : Option (List Byte) :=
  if n < 0x2000 then
    let b := Tbl.atD f.image n erasedSector
    if b.isEmpty then none else some b
  else if 0x3000 ≤ n && n < 0x3400 then f.storeSector ((n - 0x3000) / 0x200) ((n - 0x3000) % 0x200)
  else match Tbl.at? f.ledger (n - 0x2000) with
    | none => some erasedSector
    | some x => if x.good then some (xtsSeal f.ledgerKeys.1 f.ledgerKeys.2 n x.plain) else none

/-- Endpoint records in groups of 126 (R339). -/
def recGroups : Nat → List EpRec → List (List EpRec)
  | 0, _ => []
  | n + 1, rs => rs.take 126 :: recGroups n (rs.drop 126)

/-- Write the sectors of a snapshot, then erase the older snapshot and journal sectors (R340). -/
def State.putSnapshot (s : State) (recs : List EpRec) : State :=
  let n := max 1 ((recs.length + 125) / 126)
  let id := s.nextSeq
  let old := s.flash.ledger
  let s := (recGroups n recs).zipIdx.foldl (fun t g => t.ledgerPut (.snapshot g.2 n id g.1) true) s
  s.modFlash fun f => { f with ledger := f.ledger.filter fun p =>
    id ≤ p.2.seq || !(old.any fun q => q.1 == p.1) || (match p.2.body with
      | .snapshot _ _ _ _ => false
      | .journal _ => false
      | _ => true) }

/-- Write admission records in sectors of 84 (R339). -/
def State.putAdmission (s : State) : Nat → List AdmRec → State
  | 0, _ => s
  | n + 1, rs => if rs.isEmpty then s else (s.ledgerPut (.admission (rs.take 84)) true).putAdmission n (rs.drop 84)

/-- The reservation record for `r` stands in the ledger: encryptions that waited for it proceed (R312). -/
def State.reserved (s : State) (r : ResRec) : State :=
  let s := s.ledgerPut (.reservation [r]) true
  if s.rd (K.key.FINGERPRINT r.slot) = r.fingerprint then
    (s.modSlot r.slot fun k => { k with resEnd := max k.resEnd r.fcEnd }).serve
  else s

/-- A flash operation completes. -/
def State.flashDone (s : State) (op : FlashOp) : State :=
  match op with
  | .image first sectors => s.modFlash fun f => { f with image := programImage f.image first sectors }
  | .store copy c =>
    (s.modFlash fun f => { f with stores := Tbl.ins f.stores copy c }).wr K.stores.STORE_SEQ c.seq
  | .restoreMark => s.modFlash fun f => { f with stores := Tbl.mapVals f.stores fun _ c => { c with valid := false } }
  | .reservation r => s.reserved r
  | .journal recs false => s.ledgerPut (.journal recs) true
  | .journal recs true => s.putSnapshot recs
  | .admission recs => s.putAdmission (recs.length + 1) recs

/-- A flash operation fails (R340, R453): a ledger write is counted and repeated in the next erased sector; a failed store is
counted and its copy is not valid; an image write is repeated (assumption log, entry 13). -/
def State.flashFailed (s : State) (op : FlashOp) (rest : List FlashOp) : State :=
  match op with
  | .store copy c =>
    (s.modFlash fun f => { f with ops := rest, stores := Tbl.ins f.stores copy { c with valid := false } }).bump
      K.stores.STORE_FAIL
  | op =>
    if op.isLedger then (s.ledgerPut op.sector false).bump K.ledger.LEDGER_WRITE_FAIL else s

/-- FLASH_WRITE_DONE (R340, R348, R449): the oldest flash operation completes or fails; a locked-out vault encrypts no ledger
sector, so a ledger write then fails (R335). -/
def State.flashWriteDone (s : State) (ok : Bool) : State :=
  match s.flash.ops with
  | [] => s
  | op :: rest =>
    if op.isLedger && s.keys.vaultLocked then s.bump K.ledger.LEDGER_WRITE_FAIL
    else if ok then (s.modFlash fun f => { f with ops := rest }).flashDone op
    else s.flashFailed op rest

/-- A reservation of slot `i` is being written. -/
def State.reserving (s : State) (i : Nat) : Bool :=
  s.flash.ops.any fun op => match op with
    | .reservation r => r.slot == i
    | _ => false

/-- FC_RESERVATION (R312): once half of the block is used, the record of the next block's end goes to the ledger. -/
def State.fcReservation (s : State) (i : Nat) : State :=
  if !s.keys.ledgerOn || !s.slotUsable i || s.reserving i then s
  else if (s.slot i).resEnd = fcEnd || s.rd (K.key.TX_FC i) + 2 ^ 19 < (s.slot i).resEnd then s
  else s.modFlash fun f => { f with ops := f.ops ++
    [.reservation ⟨i, min fcEnd (max (s.slot i).resEnd (s.rd (K.key.TX_FC i)) + 2 ^ 20), s.rd (K.key.FINGERPRINT i)⟩] }

/-- FC_RESERVATION (R312). -/
def execFcReservation (slot : Nat) (s : State) : Out := onCore 7 s (s.fcReservation slot)

end Sys2Proof.Machine
end

