-- ==== Sys2Proof/Machine/Time.lean ====
section
/-! DEFINITION. Disciplining domain time: PTP, PPS_IN, TIME_SET, coasting, PPS_OUT (R416–R424). -/

namespace Sys2Proof.Machine

/-- A new base point now, with rate correction `c` (R415). -/
def State.rebase (s : State) (c : Int) : State :=
  let x := s.dt
  (s.modTime fun t => { t with baseTick := s.now, baseDt := x, c := c }).wrInt K.times.RATE_CORR (c * 10 ^ 9 / 2 ^ 40)

/-- Step domain time by `delta` units now (R418, R419). -/
def State.stepTime (s : State) (delta : Int) (state : Nat) : State :=
  let x := ((s.dt : Int) + delta).toNat
  let moved := (x : Int) - s.dt
  let s := s.modTime fun t =>
    { t with
      baseTick := s.now
      baseDt := x
      settled := 0
      settling := state == dtTracking
      bigRun := 0
      stepTick := some s.now
      stepSum := t.stepSum + moved }
  ((s.bump K.times.TIME_STEPS).wrInt K.times.LAST_STEP (unitsToNs moved)).wr K.times.DT_STATE state

/-- The corrections in force during the last 64 s, oldest cut at its start: the pairs of span and correction. -/
def spans (from' upto : Nat) : List (Nat × Int) → List (Nat × Int)
  | [] => []
  | (t, c) :: rest =>
    if t ≤ from' then [(upto - from', c)] else (upto - t, c) :: spans from' t rest

/-- The mean of c over the last 64 s of tracking (R417). -/
def State.meanC (s : State) : Int :=
  let sp := spans (s.now - secTicks 64) s.now s.time.history
  let total := (sp.map (·.1)).sum
  if total = 0 then s.time.c else (sp.map fun p => (p.1 : Int) * p.2).sum / total

/-- Domain time loses its source (R417). -/
def State.coast (s : State) : State :=
  if s.dtState ≠ dtTracking then s
  else
    let s := s.rebase s.meanC
    (s.modTime fun t => { t with coastStart := some s.now, coastOver := false, history := [] }).wr K.times.DT_STATE
      dtCoasting

/-- The history of c while tracking: corrections older than 64 s go, but for the one in force then. -/
def pruneHistory (cut : Nat) : List (Nat × Int) → List (Nat × Int)
  | [] => []
  | (t, c) :: rest => if t ≤ cut then [(t, c)] else (t, c) :: pruneHistory cut rest

/-- The slewing loop sets c (R418): its value after a measurement is a free value within ±200 ppm (entry 14). -/
def State.slew (s : State) : State :=
  let (v, s) := s.fresh
  let s := s.rebase (((v % (2 * maxC + 1) : Nat) : Int) - maxC)
  s.modTime fun t => { t with history := pruneHistory (s.now - secTicks 64) ((s.now, t.c) :: t.history) }

/-- Enter `TRACKING` (R417). -/
def State.track (s : State) : State :=
  (s.modTime fun t => { t with history := [(s.now, t.c)], coastStart := none, coastOver := false }).wr K.times.DT_STATE
    dtTracking

/-- One offset measurement: domain time minus source, in units of 2^-40 tick (R417, R418). -/
def State.measure (s : State) (off : Int) : State :=
  let s := s.wrInt K.times.OFFSET (clampInt (-(2 ^ 31)) (2 ^ 31 - 1) (unitsToNs off))
  if s.dtState = dtUnset then (s.stepTime (-off) dtTracking).track
  else
    let s := if s.dtState = dtCoasting then s.track else s
    let limit : Int := tenthNsToUnits (10000 * s.rd K.time.STEP_LIMIT)
    let run := if limit < |off| then s.time.bigRun + 1 else 0
    if run = 4 then s.stepTime (-off) dtTracking
    else
      let ok := if |off| ≤ tenthNsToUnits 10000 then s.time.settled + 1 else 0
      (s.modTime fun t =>
        { t with bigRun := run, settled := min 16 ok, settling := t.settling && ok < 16 }).slew

/-- PPS_IN disciplines domain time under the present TIME_SOURCE (R416). -/
def State.ppsSelected (s : State) : Bool := s.rd K.time.TIME_SOURCE == 1 || s.rd K.time.TIME_SOURCE == 2

/-- PTP disciplines domain time: with source 0, and with source 1 while PPS_IN is not valid (R416). -/
def State.ptpSelected (s : State) : Bool :=
  s.rd K.time.TIME_SOURCE == 0 || (s.rd K.time.TIME_SOURCE == 1 && !s.flag K.times.PPS_VALID)

/-- The selected source is lost (R417): for source 1, once neither PPS_IN nor PTP gives a time. -/
def State.sourceGone (s : State) : Bool :=
  match s.rd K.time.TIME_SOURCE with
  | 0 => s.time.ptpLost
  | 1 => s.time.ptpLost && !s.flag K.times.PPS_VALID
  | 2 => !s.flag K.times.PPS_VALID
  | _ => false

/-- Coast where the selected source is lost. -/
def State.coastIfGone (s : State) : State := if s.sourceGone then s.coast else s

/-- Ticks of three message intervals of 2^`log` seconds. -/
def threeIntervals (log : Int) : Nat :=
  if 0 ≤ log then 3 * 409600000 * 2 ^ log.toNat else 3 * 409600000 / 2 ^ (-log).toNat

/-- SOURCE_LOSS (R417, R423). -/
def State.sourceLoss (s : State) (kind : LossKind) : State :=
  match kind with
  | .sync =>
    match s.time.lastSync with
    | some t =>
      let s := s.atDeadline (t + threeIntervals s.time.intervals.1)
      (s.modTime fun t => { t with ptpLost := true, lastSync := none }).coastIfGone
    | none => s
  | .announce =>
    match s.time.lastAnnounce with
    | some t =>
      let s := s.atDeadline (t + threeIntervals s.time.intervals.2)
      (s.modTime fun t => { t with ptpLost := true, lastAnnounce := none }).coastIfGone
    | none => s
  | .ppsIn => s.coastIfGone

/-- SOURCE_LOSS (R417). -/
def execSourceLoss (kind : LossKind) (s : State) : Out := whenRunning s (s.sourceLoss kind)

/-- COAST_LIMIT_EXPIRY (R417). -/
def execCoastLimitExpiry (s : State) : Out :=
  whenRunning s (match s.time.coastStart with
    | some t => (s.atDeadline (t + secTicks (s.rd K.time.COAST_LIMIT))).modTime fun t => { t with coastOver := true }
    | none => s)

/-- A write of TIME_SET (R416, R417): at once with source 3; with source 2 it names the second of the next PPS_IN edge; the
other sources take their seconds from PTP (assumption log, entry 14). -/
def State.timeSet (s : State) (value : Nat) : WriteResult :=
  match s.rd K.time.TIME_SOURCE with
  | 3 =>
    let s := s.stepTime ((dtOfPair value : Int) - s.dt) dtCoasting
    .accept (s.modTime fun t => { t with coastStart := some s.now, coastOver := false })
  | 2 => .accept (s.modTime fun t => { t with nextPps := some (value / 2 ^ 32) })
  | _ => .accept s

/-- PPS_IN becomes invalid (R423). -/
def State.ppsInvalid (s : State) : State :=
  ((s.setFlag K.times.PPS_VALID false).bump K.times.PPS_MISSED).coastIfGone

/-- The nearest whole second to `x`. -/
def nearestSecond (x : Nat) : Nat := (x + dtSecond / 2) / dtSecond

/-- A valid, selected edge disciplines domain time (R416, R423). -/
def State.ppsDiscipline (s : State) : State :=
  let at' := (s.dt : Int) - tenthNsToUnits (s.rd K.time.PPS_IN_DELAY)
  match s.rd K.time.TIME_SOURCE, s.time.nextPps with
  | 2, some sec =>
    ((s.modTime fun t => { t with nextPps := none }).stepTime (((sec * dtSecond : Nat) : Int) - at') dtTracking).track
  | 2, none =>
    if s.dtState = dtUnset || !s.flag K.times.PPS_VALID then s
    else s.measure (at' - ((nearestSecond at'.toNat * dtSecond : Nat) : Int))
  | 1, _ =>
    if s.dtState = dtUnset || !s.flag K.times.PPS_VALID then s
    else s.measure (at' - ((nearestSecond at'.toNat * dtSecond : Nat) : Int))
  | _, _ => s

/-- PPS_IN_EDGE (R423). -/
def State.ppsEdge (s : State) : State :=
  let inWindow := match s.time.ppsLast with
    | some t => secTicks 1 ≤ s.now - t + msTicks 1 && s.now - t ≤ secTicks 1 + msTicks 1
    | none => false
  let run := if inWindow then s.time.ppsRun + 1 else 1
  let late := s.time.ppsLast.isSome && !inWindow
  let s := s.modTime fun t => { t with ppsRun := min 4 run, ppsLast := some s.now }
  let s := if late && s.flag K.times.PPS_VALID then s.ppsInvalid
    else if 4 ≤ run then s.setFlag K.times.PPS_VALID true else s
  s.ppsDiscipline

/-- PPS_IN_EDGE (R423). -/
def execPpsInEdge (s : State) : Out := whenRunning s s.ppsEdge

/-- PPS_IN_TIMEOUT (R423): 2 s without an edge. -/
def State.ppsTimeout (s : State) : State :=
  match s.time.ppsLast with
  | none => s
  | some t =>
    let s := (s.atDeadline (t + secTicks 2)).modTime fun t => { t with ppsRun := 0, ppsLast := none }
    if s.flag K.times.PPS_VALID then s.ppsInvalid else s

/-- PPS_IN_TIMEOUT (R423). -/
def execPpsInTimeout (s : State) : Out := whenRunning s s.ppsTimeout

/-- PPS_OUT_RISE (R424): at the next whole second of domain time, if PPS_OUT_MODE allows; a pulse still high is not doubled. -/
def State.ppsRise (s : State) : State :=
  let last := match s.time.ppsOutSec with
    | some k => if k = s.dt / dtSecond then some k else none
    | none => none
  let sec := s.nextSecond last
  let s := s.passTo (s.tickOf (sec * dtSecond))
  let allowed := s.rd K.time.PPS_OUT_MODE == 2 || (s.rd K.time.PPS_OUT_MODE == 1 && s.synchronised)
  let s := s.modTime fun t => { t with ppsOutSec := some sec }
  if !allowed || s.pins.ppsOut then s
  else (s.modPins fun p => { p with ppsOut := true }).modTime fun t => { t with ppsOutFall := some (s.now + msTicks 100) }

/-- PPS_OUT_RISE (R424). -/
def execPpsOutRise (s : State) : Out := whenRunning s s.ppsRise

/-- PPS_OUT_FALL (R424). -/
def execPpsOutFall (s : State) : Out :=
  whenRunning s (match s.time.ppsOutFall with
    | some t => ((s.atDeadline t).modPins fun p => { p with ppsOut := false }).modTime fun t => { t with ppsOutFall := none }
    | none => s)

end Sys2Proof.Machine
end

