-- ==== Sys2Proof/Machine/Backhaul.lean ====
section
/-! DEFINITION. The backhaul port: links, frames in and out, address resolution, northbound sessions and PTP (R401–R414,
R421). -/

namespace Sys2Proof.Machine

/-- The number of ports of the lane mode in force (R401). -/
def State.portCount (s : State) : Nat :=
  match s.bh.laneMode with
  | 1 => 1
  | 2 => 2
  | 3 => 4
  | 4 => 1
  | 5 => 2
  | 6 => 4
  | _ => 0

/-- Port `p`. -/
def State.port (s : State) (p : Nat) : Port := Tbl.atD s.bh.ports p Port.reset

/-- Change port `p`. -/
def State.modPort (s : State) (p : Nat) (f : Port → Port) : State :=
  s.modBh fun b => { b with ports := Tbl.modD Port.reset b.ports p f }

/-- The link of port `p` is up (R404). -/
def State.linkUp (s : State) (p : Nat) : Bool := s.flag (K.ports.LINK_UP p)

/-- MAC_ADDR of port `p`: the fused base plus p until it is written (R425). -/
def State.macAddr (s : State) (p : Nat) : Nat :=
  match Tbl.at? s.dict (K.port.MAC_ADDR p).key with
  | some m => m
  | none => s.flash.macBase + p

/-- The port configuration that takes effect when the link comes up (R425). -/
def State.portConfig (s : State) (p : Nat) : PortCfg where
  mac := s.macAddr p
  ipVersion := s.rd (K.port.IP_VERSION p)
  vlan := s.rd (K.port.VLAN_ID p)
  hopLimit := s.rd (K.port.HOP_LIMIT p)
  addr := s.rdB (K.port.IP_ADDR p)
  prefixLen := s.rd (K.port.PREFIX_LEN p)
  gateway := s.rdB (K.port.GATEWAY p)
  maxFrame := s.rd K.bh.MAX_FRAME_BYTES
  nbUdp := s.rd K.bh.NB_UDP_PORT
  mgmtUdp := s.rd K.bh.MGMT_UDP_PORT
  drvUdp := s.rd K.bh.DRV_UDP_PORT
  group := s.rdB K.bh.DOMAIN_GROUP

/-- The port configuration in force on port `p`, or what will be when its link comes up. -/
def State.portCfg (s : State) (p : Nat) : PortCfg := (s.port p).cfg.getD (s.portConfig p)

/-- LINK_UP (R404, R425): the port entries take effect; DOMAIN_PORT_SEL does so with the link of the port that it names. -/
def State.linkComesUp (s : State) (p : Nat) : State :=
  if p < s.portCount && !s.linkUp p then
    let t := (s.setFlag (K.ports.LINK_UP p) true).modPort p fun q => { q with cfg := some (s.portConfig p) }
    if s.rd K.bh.DOMAIN_PORT_SEL = p then t.modBh fun b => { b with domainPort := p } else t
  else s

/-- LINK_UP (R404). -/
def execLinkUp (port : Nat) (s : State) : Out := whenRunning s (s.linkComesUp port)

/-- LINK_DOWN (R404): the frames queued for the port are discarded whole and counted. -/
def State.linkGoesDown (s : State) (p : Nat) : State :=
  if s.linkUp p then
    let lost := (s.port p).txq.length + (s.port p).sending.toList.length
    (((s.setFlag (K.ports.LINK_UP p) false).bump (K.ports.LINK_DOWNS p)).bumpBy (K.ports.TX_LINK_DOWN p) lost).modPort p
      fun q => { q with txq := [], sending := none, cfg := none }
  else s

/-- LINK_DOWN (R404). -/
def execLinkDown (port : Nat) (s : State) : Out := whenRunning s (s.linkGoesDown port)

/-! Transmission (R406, R410, R412). -/

/-- The session of a message no longer is enabled (R412). -/
def State.sessionGone (s : State) : OutMsg → Option Nat
  | .northbound k _ _ _ _ => if s.flag (K.sess.SESS_ENABLE k) then none else some k
  | _ => none

/-- Put a frame into level order, behind the frames of its own level (R406). -/
def insertTx (x : TxItem) : List TxItem → List TxItem
  | [] => [x]
  | y :: ys => if x.level < y.level then x :: y :: ys else y :: insertTx x ys

/-- The port starts the next frame; messages of disabled sessions are discarded (R406, R412). -/
def State.startTx (s : State) (p : Nat) : Nat → State
  | 0 => s
  | n + 1 =>
    match (s.port p).txq with
    | [] => s.modPort p fun q => { q with sending := none }
    | x :: xs =>
      let s := s.modPort p fun q => { q with txq := xs }
      match s.sessionGone x.msg with
      | some k => (s.bump (K.sesss.NO_KEY k)).startTx p n
      | none =>
        let s := s.modPort p fun q => { q with sending := some x }
        match x.msg with
        | .northbound k _ _ _ _ => s.bump (K.sesss.TX_MSGS k)
        | _ => s

/-- Queue a frame on port `p` (R404, R406): while the link is down it is discarded and counted. -/
def State.portSend (s : State) (p : Nat) (x : TxItem) : State :=
  if !s.linkUp p then s.bump (K.ports.TX_LINK_DOWN p)
  else
    let s := s.modPort p fun q => { q with txq := insertTx x q.txq }
    if (s.port p).sending.isNone then s.startTx p (s.port p).txq.length else s

/-- The transmit level of a northbound message of priority `pri` (R406). -/
def nbLevel (pri : Nat) : Nat := if pri = 0 then 2 else 4 + pri

/-- The 16-byte session header of a northbound datagram (R409). -/
def State.sessionHeader (s : State) (k : Nat) (toHost : Bool) (seq : Nat) : List Byte :=
  beBytes 1 1 ++ beBytes 1 (128 * boolNat toHost) ++ beBytes 2 (s.rd (K.sess.SESSION_ID k)) ++ beBytes 4 0 ++ beBytes 8 seq

/-- The 96-bit IV of a northbound datagram, from its header (R409): SESSION_ID, DIR as one byte, a zero byte and PKT_SEQ. -/
def nbIv (header : List Byte) : List Byte :=
  (header.drop 2).take 2 ++ beBytes 1 (boolNat (bitOf (ofBe header) 119)) ++ [0] ++ header.drop 8

/-- The UDP payload of a northbound datagram (R409): the header, the message encrypted under AES-GCM, and the tag. -/
def nbPayload (key header msg : List Byte) : List Byte :=
  let x := gcmSeal key (nbIv header) header msg
  header ++ x.1 ++ x.2

/-- Send a northbound message on session `k` (R404, R410, R412): no key, or a disabled session, discards and counts it; each
datagram takes one TX_FC value and one use of the slot; with the ledger an unreserved value is waited for. -/
def State.nbSend (s : State) (k pri : Nat) (msg : List Byte) : State :=
  let slot := s.rd (K.sess.KEY_SLOT k)
  let p := s.rd (K.sess.SESS_PORT k)
  if !s.flag (K.sess.SESS_ENABLE k) then s.bump (K.sesss.NO_KEY k)
  else if !s.linkUp p then s.bump (K.ports.TX_LINK_DOWN p)
  else if !s.slotUsable slot then s.bump (K.sesss.NO_KEY k)
  else if !s.fcReady slot then s.modBh fun b => { b with unreserved := b.unreserved ++ [(k, pri, msg)] }
  else
    let (seq, s) := s.takeFc slot
    let payload := nbPayload (s.slot slot).key (s.sessionHeader k true seq) msg
    (s.slotUse slot).portSend p ⟨nbLevel pri, .northbound k pri seq msg payload⟩

/-- Messages that waited for a frame counter are sent (R312). -/
def State.nbResume (s : State) : State :=
  let waiting := s.bh.unreserved
  waiting.foldl (fun t m => t.nbSend m.1 m.2.1 m.2.2) (s.modBh fun b => { b with unreserved := [] })

/-- The length of a northbound message that a session's port can carry in one frame (R413). -/
def State.nbLimit (s : State) (k : Nat) : Nat :=
  let c := s.portCfg (s.rd (K.sess.SESS_PORT k))
  c.maxFrame - ((if c.ipVersion = 6 then 98 else 78) + (if c.vlan = 0 then 0 else 4))

/-- ETH_FRAME_TX_END (R406). -/
def State.txEnd (s : State) (p : Nat) : State :=
  match (s.port p).sending with
  | none => s
  | some x =>
    let s := (s.bump (K.ports.TX_FRAMES p)).modPort p fun q => { q with lastSent := some x }
    s.startTx p ((s.port p).txq.length + 1)

/-- ETH_FRAME_TX_END (R406). -/
def execEthFrameTxEnd (port : Nat) (s : State) : Out := whenRunning s (s.txEnd port)

/-! Reception (R402, R405, R407, R408). -/

/-- The Ethernet multicast address of an IP group: IPv6 in its last 4 bytes, IPv4 in the low 23 bits of its first 4 bytes
(PRESUMED from RFC 2464 and RFC 1112, entry 15). -/
def groupMac (v6 : Bool) (g : List Byte) : Nat :=
  if v6 then 0x333300000000 + ofBe (g.drop 12) else 0x01005E000000 + ofBe (g.take 4) % 2 ^ 23

/-- The multicast addresses the port has joined: DOMAIN_GROUP while Draivitar is enabled, neighbour solicitations of its own
address, and the PTP addresses of its PTP transport (R405, R414; PRESUMED where the standards give them, entry 15). -/
def State.joined (s : State) (p : Nat) (c : PortCfg) : List Nat :=
  let v6 := c.ipVersion = 6
  (if s.flag K.dom.DOMAIN_ENABLE && s.bh.domainPort == p then [groupMac v6 c.group] else []) ++
    (if v6 then [0x3333FF000000 + ofBe (c.addr.drop 13), 0x3333FF000000 + c.mac % 2 ^ 24] else []) ++
    (if s.rd K.time.PTP_PORT_SEL ≠ p then []
     else if s.rd K.time.PTP_TRANSPORT = 0 then [0x011B19000000, 0x0180C200000E]
     else if s.rd K.time.PTP_TRANSPORT = 1 then [0x01005E000181, 0x01005E00006B]
     else [0x333300000181, 0x33330000006B])

/-- The frame's destination and tags pass (R405). -/
def State.frameForUs (s : State) (p : Nat) (c : PortCfg) (f : EthFrame) : Bool :=
  (f.dst == c.mac || f.dst == 0xFFFFFFFFFFFF || (s.joined p c).contains f.dst) &&
    f.vlans == (if c.vlan = 0 then [] else [c.vlan]) && !f.macControl

/-- UDP ports that the port classifies (R408). -/
def State.udpKnown (s : State) (c : PortCfg) (d : Nat) : Bool :=
  d == c.nbUdp || d == c.mgmtUdp || d == c.drvUdp ||
    (s.rd K.time.PTP_TRANSPORT ≠ 0 && (d == 319 || d == 320))

/-- A UDP checksum is accepted: a good one, and on IPv4 a zero one (R408). -/
def sumAccepted (c : PortCfg) (x : UdpSum) : Bool := x == .good || (x == .zero && c.ipVersion == 4)

/-- The IP checks of R407 and R408 discard the frame; a bad UDP checksum counts as filtered (entry 15). -/
def State.ipFiltered (s : State) (c : PortCfg) (f : EthFrame) : Bool :=
  f.ip && (f.fragment || f.ipOptions || (f.udp && (!sumAccepted c f.checksum || !s.udpKnown c f.udpPort)))

/-- ETH_FRAME_RX (R405): the first check that fails counts and discards the frame; an accepted frame writes its descriptor of
three words, whose content the spec does not give, into Q108 + p (R363). -/
def State.frameRx (s : State) (p : Nat) (f : EthFrame) : State :=
  match (s.port p).cfg with
  | none => s
  | some c =>
    if !f.fcsOk then s.bump (K.ports.RX_FCS_ERR p)
    else if c.maxFrame < f.len then s.bump (K.ports.RX_OVERSIZE p)
    else if !s.frameForUs p c f then s.bump (K.ports.RX_FILTERED p)
    else if f.bufferFull then s.bump (K.ports.RX_DROP p)
    else
      let s := s.bump (K.ports.RX_FRAMES p)
      if s.ipFiltered c f then s.bump (K.ports.RX_FILTERED p)
      else
        let (a, s) := s.fresh
        let (b, s) := s.fresh
        let (d, s) := s.fresh
        s.sendPacket (108 + p) [a % 2 ^ 64, b % 2 ^ 64, d % 2 ^ 64]

/-- ETH_FRAME_RX (R405). -/
def execEthFrameRx (port : Nat) (frame : EthFrame) (s : State) : Out := whenRunning s (s.frameRx port frame)

/-- The link-local IPv6 address formed from a MAC address (R407; PRESUMED from RFC 4291, entry 15). -/
def linkLocal (mac : Nat) : List Byte :=
  [0xFE, 0x80, 0, 0, 0, 0, 0, 0] ++ beBytes 3 ((mac / 2 ^ 24) ^^^ 0x020000) ++ [0xFF, 0xFE] ++ beBytes 3 (mac % 2 ^ 24)

/-- ADDRESS_RESOLUTION (R407): ARP for the IPv4 address, a neighbour solicitation for an IPv6 address of the port. -/
def State.resolve (s : State) (p : Nat) (kind : ResolveKind) (target : List Byte) : State :=
  match (s.port p).cfg with
  | none => s
  | some c =>
    let ours := match kind with
      | .arp => c.ipVersion == 4 && target == c.addr.take 4
      | .neighbourSolicitation => c.ipVersion == 6 && (target == c.addr || target == linkLocal c.mac)
    if ours then s.portSend p ⟨8, .resolution kind⟩ else s

/-- ADDRESS_RESOLUTION (R407). -/
def execAddressResolution (port : Nat) (kind : ResolveKind) (target : List Byte) (s : State) : Out :=
  whenRunning s (s.resolve port kind target)

/-- The second in which echo requests are counted at a port, and the answers given in it (R407). -/
def State.echoWindow (s : State) (p : Nat) : Nat × Nat :=
  if (s.port p).echo.1 + secTicks 1 ≤ s.now || (s.port p).echo.2 = 0 then (s.now, 0) else (s.port p).echo

/-- ICMP_ECHO (R407): at most 100 answers in a second. -/
def State.echo (s : State) (p : Nat) : State :=
  if (s.port p).cfg.isNone || 100 ≤ (s.echoWindow p).2 then s
  else
    (s.modPort p fun q => { q with echo := ((s.echoWindow p).1, (s.echoWindow p).2 + 1) }).portSend p ⟨8, .echoReply⟩

/-- ICMP_ECHO (R407). -/
def execIcmpEcho (port : Nat) (s : State) : Out := whenRunning s (s.echo port)

/-! Northbound datagrams (R409, R411) and sessions (R425). -/

/-- A sequence number passes the window of the highest and the 63 below it (R411, R440). -/
def SeqWindow.accepts (w : SeqWindow) (seq : Nat) : Bool :=
  match w.high with
  | none => true
  | some h => h < seq || (h ≤ seq + 63 && seq != h && !w.seen.contains seq)

/-- The window after `seq` was accepted. -/
def SeqWindow.advance (w : SeqWindow) (seq : Nat) : SeqWindow :=
  match w.high with
  | none => ⟨some seq, []⟩
  | some h =>
    if h < seq then ⟨some seq, (h :: w.seen).filter fun x => seq ≤ x + 63⟩ else ⟨some h, seq :: w.seen⟩

/-- The empty window. -/
def SeqWindow.empty : SeqWindow := ⟨none, []⟩

/-- The enabled session on port `p` with a SESSION_ID (R411 step 2). -/
def State.sessionOf (s : State) (p sid : Nat) : Option Nat :=
  (List.range 16).find? fun k =>
    s.flag (K.sess.SESS_ENABLE k) && s.rd (K.sess.SESS_PORT k) == p && s.rd (K.sess.SESSION_ID k) == sid

/-- The peer address as the port compares it: IPv4 in the first 4 bytes (R425). -/
def State.peerMatches (s : State) (p k : Nat) (addr : List Byte) (udp : Nat) : Bool :=
  let n := match (s.port p).cfg with
    | some c => if c.ipVersion = 4 then 4 else 16
    | none => 16
  addr.take n == (s.rdB (K.sess.PEER_ADDR k)).take n && udp == s.rd (K.sess.PEER_UDP_PORT k)

/-- The 16-byte header of a northbound datagram (R409). -/
def nbHead (d : NbDatagram) : List Byte := d.payload.take 16

/-- The message of a northbound datagram under a key, and whether its tag verifies (R409, R411). -/
def nbOpened (d : NbDatagram) (key : List Byte) : List Byte × Bool :=
  let n := d.payload.length - 16
  gcmOpen key (nbIv (nbHead d)) (nbHead d) ((d.payload.take n).drop 16) (d.payload.drop n)

/-- NB_DATAGRAM (R411): the checks in order; a verified message counts one use of its slot (R308) and waits for the transaction
engine. -/
def State.datagram (s : State) (d : NbDatagram) : State :=
  if (s.port d.port).cfg.isNone then s
  else
    let h := ofBe (nbHead d)
    if field h 120 8 ≠ 1 || bitOf h 119 || d.payload.length < 44 then s.bump (K.ports.RX_FILTERED d.port)
    else match s.sessionOf d.port (field h 96 16) with
      | none => s.bump (K.ports.RX_FILTERED d.port)
      | some k =>
        if !s.peerMatches d.port k d.srcAddr d.srcUdp then s.bump (K.sesss.PEER_MISMATCH k)
        else
        let slot := s.rd (K.sess.KEY_SLOT k)
        let (message, ok) := nbOpened d (s.slot slot).key
        if !s.slotUsable slot || !ok then s.bump (K.sesss.AUTH_FAIL k)
        else
          let s := s.slotUse slot
          let w := Tbl.atD s.bh.windows k SeqWindow.empty
          if !w.accepts (field h 0 64) then s.bump (K.sesss.REPLAY k)
          else
            (s.bump (K.sesss.RX_MSGS k)).modBh fun b =>
              { b with
                windows := Tbl.ins b.windows k (w.advance (field h 0 64))
                inbox := b.inbox ++ [(k, message)] }

/-- NB_DATAGRAM (R411). -/
def execNbDatagram (d : NbDatagram) (s : State) : Out := whenRunning s (s.datagram d)

/-- The rules of a session entry (R425): sub 1 SESS_ENABLE, 3 KEY_SLOT and 4 SESSION_ID have conditions of their own. -/
def State.sessionRefused (s : State) (k sub value : Nat) : Option Abort :=
  let clash := fun (sid : Nat) => (List.range 16).any fun j =>
    j != k && s.flag (K.sess.SESS_ENABLE j) && s.rd (K.sess.SESSION_ID j) == sid
  match sub with
  | 1 => if value ≠ 0 && clash (s.rd (K.sess.SESSION_ID k)) then some .range else none
  | 3 => if value = s.rd K.dom.DOMAIN_KEY_SLOT || value = s.rd K.adm.ADMIT_KEK_SLOT then some .unusable else none
  | 4 => if s.flag (K.sess.SESS_ENABLE k) && clash value then some .range else none
  | _ => none

/-- A session entry was written: the session's replay window is empty again (R425). -/
def State.sessionChanged (s : State) (k : Nat) : State := s.modBh fun b => { b with windows := Tbl.del b.windows k }

/-! PTP (R418, R421). -/

/-- Send a PTP message on the PTP port: event messages first (R406), the others last (entry 15). -/
def State.ptpOut (s : State) (k : PtpKind) : State :=
  let event := k == .sync || k == .delayReq || k == .pdelayReq || k == .pdelayResp
  s.portSend (s.rd K.time.PTP_PORT_SEL) ⟨if event then 1 else 8, .ptp k⟩

/-- The selected source gave a measurement, or domain time is still unset (R416, R417). -/
def State.ptpMeasure (s : State) (off : Int) : State :=
  if s.ptpSelected || (s.rd K.time.TIME_SOURCE == 1 && s.dtState == dtUnset) then s.measure off else s

/-- Time-stamp of an event at the balls that the port receives or sends, with the integrator's delay of 0.1 ns units applied (R422):
the message passes the module's far end earlier than the balls when it is received and later when it is sent. -/
def rxStamp (tick16 ext : Nat) : Int := (tick16 : Int) - (ext : Int) * 65536 / 100000
/-- See `rxStamp`. -/
def txStamp (tick16 ext : Nat) : Int := (tick16 : Int) + (ext : Int) * 65536 / 100000

/-- Domain time, in units of 2^-40 tick, at a time-stamp in 1/16 tick (R415, R422). -/
def State.dtOf16 (s : State) (t : Int) : Int :=
  (s.time.baseDt : Int) + (t - 16 * s.time.baseTick) * (2 ^ 40 + s.time.c) / 16

/-- A PTP time or correction of 2^-16 ns in units of 2^-40 tick. -/
def ptpUnits (x : Int) : Int := x * (2 ^ 24 * 4096) / 10000

/-- Change what the port knows of its master. -/
def State.modPtp (s : State) (f : PtpClock → PtpClock) : State := s.modTime fun t => { t with ptp := f t.ptp }

/-- Sync and its Follow_Up are complete (R421, R422; IEEE 1588-2019 11.2): the offset is the time-stamp less the master's time, the
corrections, ASYMMETRY and the path delay. Until a path delay has been measured there is no offset (entry 15). -/
def State.ptpOffset (s : State) (t2 t1 : Int) : State :=
  let s := s.modPtp fun p => { p with down := some (t2, t1) }
  match s.time.ptp.delay with
  | some d => s.ptpMeasure (s.dtOf16 t2 - ptpUnits t1 - tenthNsToUnits (s.rdInt K.time.ASYMMETRY) - d)
  | none => s

/-- A Sync of the selected master: a one-step one gives an offset, a two-step one waits for its Follow_Up. -/
def State.ptpSync (s : State) (m : PtpMsg) : State :=
  let s := s.modTime fun t =>
    { t with lastSync := some s.now, intervals := (m.logInterval, t.intervals.2), ptpLost := t.lastAnnounce.isNone }
  let t2 := rxStamp m.rx16 (s.rd K.time.EXT_DELAY_RX)
  if m.twoStep then s.modPtp fun p => { p with sync := some (m.seq, t2, m.correction) }
  else s.ptpOffset t2 (m.time + m.correction)

/-- A Follow_Up completes the Sync of its sequence number. -/
def State.ptpFollowUp (s : State) (m : PtpMsg) : State :=
  match s.time.ptp.sync with
  | some (q, t2, corr) =>
    if q ≠ m.seq then s else (s.modPtp fun p => { p with sync := none }).ptpOffset t2 (m.time + corr + m.correction)
  | none => s

/-- Delay_Resp to the port's own request: the mean path delay (IEEE 1588-2019 11.3). -/
def State.ptpDelayResp (s : State) (m : PtpMsg) : State :=
  match s.time.ptp.req, s.time.ptp.down with
  | some (q, t3), some (t2, t1) =>
    if q ≠ m.seq || m.requester ≠ s.flash.eui64 then s
    else
      let d := (s.dtOf16 t2 - ptpUnits t1 + ptpUnits (m.time - m.correction) - s.dtOf16 t3) / 2
      s.modPtp fun p => { p with req := none, delay := some d }
  | _, _ => s

/-- The link delay of a peer delay exchange from its two time-stamps and the peer's turnaround (IEEE 1588-2019 11.4). -/
def State.ptpLinkDelay (s : State) (t1 t4 turn : Int) : State :=
  s.modPtp fun p => { p with req := none, resp := none, delay := some ((s.dtOf16 t4 - s.dtOf16 t1 - ptpUnits turn) / 2) }

/-- Pdelay_Resp to the port's own request: a one-step one carries the turnaround in its correction. -/
def State.ptpPeerResp (s : State) (m : PtpMsg) : State :=
  match s.time.ptp.req with
  | some (q, t1) =>
    if q ≠ m.seq || m.requester ≠ s.flash.eui64 then s
    else
      let t4 := rxStamp m.rx16 (s.rd K.time.EXT_DELAY_RX)
      if m.twoStep then s.modPtp fun p => { p with resp := some (t4, m.time - m.correction) }
      else s.ptpLinkDelay t1 t4 m.correction
  | none => s

/-- Pdelay_Resp_Follow_Up gives the time at which the response left. -/
def State.ptpPeerFollowUp (s : State) (m : PtpMsg) : State :=
  match s.time.ptp.req, s.time.ptp.resp with
  | some (q, t1), some (t4, t2) =>
    if q ≠ m.seq || m.requester ≠ s.flash.eui64 then s else s.ptpLinkDelay t1 t4 (m.time + m.correction - t2)
  | _, _ => s

/-- An Announce (R417, R421): the best master clock algorithm, whose outcome the message brings, selects its sender or makes the port
a master. -/
def State.ptpAnnounce (s : State) (m : PtpMsg) : State :=
  if m.best then
    (s.modTime fun t =>
      { t with
        master := false
        lastAnnounce := some s.now
        intervals := (t.intervals.1, m.logInterval)
        ptpLost := t.lastSync.isNone }).wr K.times.MASTER_ID m.masterId
  else if !s.flag K.time.PTP_SLAVE_ONLY then s.modTime fun t => { t with master := true }
  else s

/-- PTP_MESSAGE (R421): messages of another domain and management messages are ignored, and so is what the delay mechanism in
PTP_DELAY_MECH does not use. -/
def State.ptpRx (s : State) (m : PtpMsg) : State :=
  let peer := s.rd K.time.PTP_DELAY_MECH == 1
  let slave := !s.time.master && m.best
  if m.domainNumber ≠ s.rd K.time.PTP_DOMAIN_NUMBER then s
  else match m.kind with
    | .management => s
    | .announce => s.ptpAnnounce m
    | .delayReq => if s.time.master && !peer then s.ptpOut .delayResp else s
    | .pdelayReq =>
      if !peer then s
      else if s.flag K.time.PTP_TWO_STEP then (s.ptpOut .pdelayResp).ptpOut .pdelayFollowUp
      else s.ptpOut .pdelayResp
    | .sync => if slave then s.ptpSync m else s
    | .followUp => if slave then s.ptpFollowUp m else s
    | .delayResp => if slave && !peer then s.ptpDelayResp m else s
    | .pdelayResp => if peer then s.ptpPeerResp m else s
    | .pdelayFollowUp => if peer then s.ptpPeerFollowUp m else s

/-- PTP_MESSAGE (R421). -/
def execPtpMessage (m : PtpMsg) (s : State) : Out := whenRunning s (s.ptpRx m)

/-- Send a delay request that leaves the balls at `tx16` (R421, R422). -/
def State.ptpRequest (s : State) (k : PtpKind) (tx16 : Nat) : State :=
  (s.modPtp fun p =>
    { p with
      req := some (p.reqSeq, txStamp tx16 (s.rd K.time.EXT_DELAY_TX))
      resp := none
      reqSeq := (p.reqSeq + 1) % 65536 }).ptpOut k

/-- PTP_MESSAGE_SEND (R421): as slave the request of the delay mechanism; as master Sync and Announce, and Follow_Up when
two-step. -/
def State.ptpSend (s : State) (k : PtpKind) (tx16 : Nat) : State :=
  let peer := s.rd K.time.PTP_DELAY_MECH = 1
  match k with
  | .delayReq => if !s.time.master && !peer then s.ptpRequest .delayReq tx16 else s
  | .pdelayReq => if peer then s.ptpRequest .pdelayReq tx16 else s
  | .sync =>
    if !s.time.master then s
    else if s.flag K.time.PTP_TWO_STEP then (s.ptpOut .sync).ptpOut .followUp else s.ptpOut .sync
  | .announce => if s.time.master then s.ptpOut .announce else s
  | _ => s

/-- PTP_MESSAGE_SEND (R421). -/
def execPtpMessageSend (kind : PtpKind) (tx16 : Nat) (s : State) : Out := whenRunning s (s.ptpSend kind tx16)

end Sys2Proof.Machine
end

