-- ==== Sys2Proof/Machine/Drv.lean ====
section
/-! DEFINITION. Draivitar messages on their way out (R254, R414), and the key slot of a link (R313, R314). -/

namespace Sys2Proof.Machine

/-- Draivitar message types (R256). -/
def drvHello : Nat := 1
/-- `COUPLING`. -/
def drvCoupling : Nat := 2
/-- `SLOT_MAP`. -/
def drvSlotMap : Nat := 3
/-- `ROAM_QUERY`. -/
def drvRoamQuery : Nat := 4
/-- `ROAM_OFFER`. -/
def drvRoamOffer : Nat := 5
/-- `ROAM_ACCEPT`. -/
def drvRoamAccept : Nat := 6
/-- `TXN_RELAY`. -/
def drvTxnRelay : Nat := 7

/-- Peer `d`, as nothing is known of it. -/
def Peer.empty : Peer := ⟨0, none, [], 0, none, [], []⟩

/-- Peer `d`. -/
def State.peer (s : State) (d : Nat) : Peer := Tbl.atD s.domain.peers d Peer.empty

/-- Change peer `d`. -/
def State.modPeer (s : State) (d : Nat) (f : Peer → Peer) : State :=
  s.modDomain fun x => { x with peers := Tbl.modD Peer.empty x.peers d f }

/-- The 24-byte header of the next Draivitar message (R254). -/
def State.drvHeader (s : State) (type len : Nat) : List Byte :=
  beBytes 1 1 ++ beBytes 1 type ++ beBytes 2 s.domain.number ++ beBytes 4 s.domain.id ++ beBytes 4 s.domain.seq ++
    beBytes 8 (dtPair s.dt) ++ beBytes 2 len ++ beBytes 2 0

/-- Where a Draivitar message goes (R414): to the group, or to the source address of the latest HELLO accepted from the peer. -/
def State.drvAddr (s : State) (peer : Option Nat) : List Byte :=
  match peer with
  | some d => (s.peer d).addr
  | none => (s.portCfg s.bh.domainPort).group

/-- Send a Draivitar message to the group or to a peer (R254, R414): while DOMAIN_ENABLE is set and DOMAIN_KEY_SLOT holds a usable
key, whose use its CMAC counts. A peer without an accepted HELLO has no address to send to. -/
def State.drvSend (s : State) (type : Nat) (peer : Option Nat) (body : List Byte) : State :=
  let slot := s.rd K.dom.DOMAIN_KEY_SLOT
  if !s.flag K.dom.DOMAIN_ENABLE || !s.slotUsable slot || s.drvAddr peer == [] then s
  else
    let msg := s.drvHeader type body.length ++ body
    let cmac := cmacOf (s.slot slot).key msg
    let s := (s.slotUse slot).modDomain fun d => { d with seq := (d.seq + 1) % 2 ^ 32 }
    s.portSend s.bh.domainPort ⟨3, .domain peer (s.drvAddr peer) (msg ++ cmac)⟩

/-- KEY_PHASE codes (R321). -/
def phaseNone : Nat := 0
/-- `DELIVERING`. -/
def phaseDelivering : Nat := 1
/-- `OVERLAP`. -/
def phaseOverlap : Nat := 2

/-- The slot that protects the frames the device sends to entry `i` (R313, R314): the pairwise slot of a privileged endpoint,
else the segment's next-key slot for a marked endpoint in `OVERLAP`, else its network key slot. -/
def State.linkSlot (s : State) (i : Nat) : Nat :=
  let e := s.ep i
  match s.boundSlot e.eui with
  | some j => j
  | none => if s.rd (K.segs.KEY_PHASE e.seg) = phaseOverlap && e.marked then 64 + e.seg else e.seg

/-- KEY_CLASS of a frame under a slot (R313). -/
def keyClass (slot : Nat) : Nat := if slot < 64 then 1 else if slot < 128 then 2 else 3

/-- The length of the tag the device sends on segment `g` (R313). -/
def State.tagLen (s : State) (g : Nat) : Nat := s.rd (K.seg.TAG_LEN g)

end Sys2Proof.Machine
end

