-- ==== Sys2Proof/Machine/Blank.lean ====
section
/-! DEFINITION. What a reception is once its header has passed, and what a channel does by what it sends and is about to send: its
blanking, the gain in force, its DAC outputs (R34, R39, R40, R42, R114, R201, R514). -/

namespace Sys2Proof.Machine

/-! Receptions. -/

/-- The lead channel of a reception: its lowest member (R130). -/
def Reception.lead (x : Reception) : Nat := (x.members.head?.map (·.chan)).getD 0

/-- The channels of a reception. -/
def Reception.chans (x : Reception) : List Nat := x.members.map (·.chan)

/-- The header of an OFDM reception. -/
def Reception.fc (x : Reception) : FrameControl := FrameControl.fields (leBytes 16 x.head)

/-- The tick of the first sample of a reception: its time-stamp in whole ticks (R128). -/
def Reception.begin_ (x : Reception) : Nat := x.stamp / 32

/-- PRI of a reception, once its header has passed. -/
def Reception.pri (x : Reception) : Nat := if x.wave == .ofdm then field x.head 76 2 else field x.head 60 2

/-- TYPE of a reception, once its header has passed. -/
def Reception.type (x : Reception) : Nat := if x.wave == .ofdm then field x.head 2 4 else field x.head 0 4

/-- DST of a reception. -/
def Reception.dst (x : Reception) : Nat := if x.wave == .ofdm then field x.head 22 16 else field x.head 20 16

/-- SRC of a reception. -/
def Reception.src (x : Reception) : Nat := if x.wave == .ofdm then field x.head 38 16 else field x.head 36 16

/-- ACK_REQ of a reception. -/
def Reception.ackReq (x : Reception) : Bool := if x.wave == .ofdm then bitOf x.head 78 else bitOf x.head 62

/-- MPDUs that a reception carries. -/
def Reception.mpdus (x : Reception) : Nat :=
  if x.wave == .ofdm then (if x.fc.psc = 0 || x.fc.type = 6 then 0 else x.fc.countM1 + 1)
  else if field x.head 0 4 = 2 then 0 else 1

/-- Every MPDU of the reception is resolved. -/
def Reception.resolved (x : Reception) : Bool := x.mpdus ≤ x.next

/-- The reception may draw an acknowledgement (R201); one that was shed does so for the MPDUs that had committed (R142). -/
def Reception.wantsAck (x : Reception) : Bool :=
  x.stage == .payload && x.ackReq && x.dst == 0 && x.type != 0 && x.type != 4 && 0 < x.mpdus

/-- 60 µs in ticks (R201). -/
def ackTurn : Nat := 24576

/-- D_A (R109). -/
def swellTurn (lane : Bool) (sf : Nat) : Nat := max (2 * swellSymbol lane sf) ackTurn

/-- The instant at which a reception's acknowledgement starts (R109, R201). -/
def Reception.ackAt (x : Reception) : Nat := x.stop + (if x.wave == .ofdm then ackTurn else swellTurn (isLane x.wave) x.sf)

/-! What a channel sends (R39, R40). -/

/-- TX_DELAY of channel `n` in 1/64 sample, whole samples above (R40). -/
def State.txDelay (s : State) (n : Nat) : Nat := (s.chan n).cfg.txDelay % 2 ^ 14

/-- The instant in 1/32 tick at which channel `n` puts out the first sample of a frame (R40): the scheduled instant, delayed by the
channel's TX_DELAY. -/
def State.leaves (s : State) (f : TxFrame) (n : Nat) : Nat := 32 * f.start + s.txDelay n

/-- The tick by which the last sample of a frame has left channel `n`. -/
def State.leftBy (s : State) (f : TxFrame) (n : Nat) : Nat := f.stop + ceilDiv (s.txDelay n) 32

/-- What the DAC of a channel puts out (R17, R39): less than 10 µA on each output; I_FS/2 on each, which is zero differential
voltage; the samples of the frames on air, added; the tone of a loop test, from its first sample on; zero samples after an underrun. -/
inductive DacOut where
  | off
  | mid
  | frames (fs : List Nat)
  | tone (start : Nat)
  | zeros
  deriving DecidableEq, Repr

/-- The frames that are on air on channel `n`, on the line and on the lane. -/
def State.onAir (s : State) (n : Nat) : List (Nat × TxFrame) :=
  s.framesWith fun f => f.started && !f.ended && f.chans.contains n

/-- The DAC outputs of channel `n` (R39): off while the device is held in reset, boots or recovers, and on a disabled channel once the
frame it still sent has ended (R60). A loop test's tone lasts 40 µs and its falling ramp (R514). -/
def State.dac (s : State) (n : Nat) : DacOut :=
  if !s.running then .off
  else
    let fs := s.onAir n
    if fs.isEmpty then
      (if !s.enabled n then .off else if s.loopOn n && s.now < s.loop.start + 2 * 8320 then .tone s.loop.start else .mid)
    else
      let live := (fs.filter fun f => !f.2.underrun).map (·.1)
      if live.isEmpty then .zeros else .frames live

/-! Blanking and gain (R34, R42). -/

/-- The start of the next beacon of segment `g`, where one is to come (R187). -/
def State.beaconDue (s : State) (g : Nat) : Option Nat :=
  if !s.segEnabled g then none
  else match (s.seg g).period with
    | some _ => some (s.beaconAfter g s.now)
    | none => (s.seg g).firstBeacon

/-- A beacon or an acknowledgement leaves channel `n` within 1.0 µs (R42). -/
def State.aboutToSend (s : State) (n : Nat) : Bool :=
  (s.line.rxs.any fun x =>
    x.2.finished && x.2.wantsAck && x.2.acked != 0 && !isLane x.2.wave && x.2.chans.contains n &&
      32 * x.2.ackAt + s.txDelay n ≤ 32 * (s.now + tenthUs 10)) ||
  (match s.segOf n with
   | some g => (s.beaconDue g).any fun t => 32 * t + s.txDelay n ≤ 32 * (s.now + tenthUs 10)
   | none => false)

/-- OFDM and S1/S2 detection of the channel is blanked (R42): from 1.0 µs before the first sample of an own frame leaves it until 2.0 µs
after the last has. -/
def State.blanked (s : State) (n : Nat) : Bool :=
  (s.chan n).blankEnd.any (fun t => s.now < t) ||
    !(s.framesWith fun f =>
      !f.ended && !(isLane f.wave) && f.chans.contains n && s.leaves f n ≤ 32 * (s.now + tenthUs 10)).isEmpty ||
    s.aboutToSend n

/-- The gain that the AGC loop has in force at tick `t` (R31): a new gain applies from its first sample on. -/
def Channel.gainAt (c : Channel) (t : Nat) : Int := if t < c.gainFrom then c.gainWas else c.gain

/-- The gain in force (R34, R42, R514), in 0.5 dB. -/
def State.gainNow (s : State) (n : Nat) : Int :=
  let c := s.chan n
  if s.loopOn n then c.cfg.listenGain
  else if c.cfg.fixed then c.cfg.fixedGain else if s.blanked n then c.cfg.listenGain else c.gainAt s.now

end Sys2Proof.Machine
end

