-- ==== Sys2Proof/Machine/Tide.lean ====
section
/-! DEFINITION. Tide slots and tide tables: observation windows, averages, classes and class vectors (R159–R170). -/

namespace Sys2Proof.Machine

/-- The measured period and crossing of the reference unit's cycle, in 2^-16 tick (R153, R155): none without a phasor, or with no
phasor before it to measure a period from. -/
def State.cycleMeasured (s : State) : Option (Nat × Nat) :=
  match s.tracker.phasor, s.tracker.prior with
  | some f, some g =>
    let p := s.measuredPeriod g f
    some (p, f.crossing p)
  | _, _ => none

/-- MAINS_CYCLE (R154): the tracker judges the cycle of the reference unit's latest phasor; a unit that has yielded none yields an
invalid cycle. -/
def State.mainsCycle (s : State) : State :=
  let m := s.cycleMeasured
  let ok := match m with
    | some (p, _) => s.cycleValid p
    | none => false
  let s := s.modTracker fun t =>
    { t with phasor := none, prior := match t.phasor with
        | some f => some f
        | none => t.prior }
  match m with
  | some (p, crossing) => if ok then (s.reanchor crossing).validCycle p crossing else s.invalidCycle
  | none => s.invalidCycle

/-- MAINS_CYCLE (R154). -/
def execMainsCycle (s : State) : Out := whenRunning s s.mainsCycle

/-- Channel `n`'s tide table. -/
def State.tideTable (s : State) (n : Nat) : TideTable := Tbl.atD s.tides n TideTable.reset

/-- Change channel `n`'s tide table. -/
def State.modTideTable (s : State) (n : Nat) (f : TideTable → TideTable) : State :=
  s.modTides fun t => Tbl.modD TideTable.reset t n f

/-- Slot `i` of channel `n`'s tide table. -/
def State.tide (s : State) (n i : Nat) : TideSlot := Tbl.atD (s.tideTable n).slots i TideSlot.reset

/-- Change slot `i` of channel `n`'s tide table. -/
def State.modTide (s : State) (n i : Nat) (f : TideSlot → TideSlot) : State :=
  s.modTideTable n fun t => { t with slots := Tbl.modD TideSlot.reset t.slots i f }

/-- The tide table of channel `n` returns to its state after reset (R160, R234). -/
def State.clearTide (s : State) (n : Nat) : State := s.modTides fun t => Tbl.del t n

/-! Tide slots in time (R159, R162, R167). -/

/-- The segment whose grid and thresholds govern the observation of channel `n`: none for a channel that is bound to no segment or to a
disabled one (R160, R167, R235). -/
def State.tideSeg (s : State) (n : Nat) : Option Nat := (s.segOf n).filter s.segEnabled

/-- The phase offset, in 0.1°, of the grid on which channel `n` observes (R159, R167). -/
def State.tideOffset (s : State) (n : Nat) : Int := ((s.tideSeg n).map fun g => (s.seg g).offset).getD 0

/-- The tide slots that have begun by tick `t` on the grid of offset `φ`, counted on from the tracker's latest zero. -/
def State.slotCount (s : State) (φ : Int) (t : Nat) : Int := 24 * (s.phaseAt t + φ * fullCycle / 3600) / fullCycle

/-- The tick at which slot `idx` of that count begins. -/
def State.slotTick (s : State) (φ idx : Int) : Nat :=
  let ref : Int := idx * fullCycle / 24 - φ * fullCycle / 3600 + (s.tracker.cycle : Int) * fullCycle
  s.phaseTick (ref / fullCycle) (ref % fullCycle).toNat

/-! Observation (R163, R164). The observations' arithmetic is in the assumption log, entry 61. -/

/-- Channel `n` is idle, outside reception and blanking, and has been since tick `first` (R163). -/
def State.observes (s : State) (n first : Nat) : Bool :=
  let c := s.chan n
  s.inService n && c.rx.isNone && c.laneRx.isNone && !s.blanked n && c.idleFrom ≤ first

/-- 10^(k/20) in 2^-40, for k from 0 to 19. -/
def halfDbTable : List Nat :=
  [1099511627776, 1233672337084, 1384203128770, 1553101454982, 1742608493894, 1955238888772, 2193814115771, 2461499923203, 2761848339097,
    3098844804450, 3476961057611, 3901214471529, 4377234631245, 4911338035067, 5510611910660, 6183008258257, 6937449368866,
    7783946217653, 8733731303501, 9799407697443]

/-- The power factor from codes to the pins at a gain in 0.5 dB: 10^((100 − gain)/20) in 2^-40 (R164). -/
def pinFactor (gain : Int) : Nat :=
  let k := (100 - gain).toNat
  halfDbTable.getD (k % 20) 0 * 10 ^ (k / 20)

/-- The middle of some numbers, the lower one of two (R164). -/
def medianOf (xs : List Nat) : Option Nat := (xs.insertionSort (· ≤ ·))[(xs.length - 1) / 2]?

/-- The power of a carrier at the pins in 10^-20 mW into 100 Ω, from |Y[k]|² over 4,096 samples in codes: a full-scale sine is 0.5 V of
amplitude at the converter (R29, R164, R168). -/
def pinPower (square : Nat) (gain : Int) : Nat := square * 5 ^ 21 * pinFactor gain / (2 ^ 70 * 10 ^ 5)

/-- The median power of the channel's unmasked band carriers in a window; where every carrier is masked the spec states none, and it is a
free value (assumption log, entry 61). -/
def State.windowPower (s : State) (n : Nat) (seen : List (Int × Int)) : Nat × State :=
  let squares := ((bandCarriers.zip seen).filter fun p => !s.masked n p.1).map fun p => (p.2.1 * p.2.1 + p.2.2 * p.2.2).toNat
  match medianOf squares with
  | some m => (pinPower m (s.gainNow n), s)
  | none => s.fresh

/-- Tick `first` is one of the eight evenly spaced positions of its occurrence on channel `n` (R163). -/
def State.windowPlace (s : State) (n first : Nat) : Bool :=
  let φ := s.tideOffset n
  let k := s.slotCount φ first
  let a := s.slotTick φ k
  (List.range 8).any fun j => first == a + (s.slotTick φ (k + 1) - a) * j / 8

/-- OBSERVATION_WINDOW (R163): the window of 4,096 samples from tick `first` on, with its carriers 36 to 1,720; one that no engine takes up
before the occurrence ends is dropped and counted. -/
def State.observationWindow (s : State) (n first : Nat) (seen : Option (List (Int × Int))) : State :=
  let s := s.passTo (first + 8192)
  if !s.windowPlace n first || !s.observes n first || first < (s.chan n).gainFrom + 128 ||
      ((s.tideTable n).windows.any fun w => w.1 == first) then s
  else match seen with
    | none => s.bump (K.tide.WINDOWS_DROPPED n)
    | some ys =>
      let (p, s) := s.windowPower n ys
      s.modTideTable n fun t => { t with windows := t.windows ++ [(first, p)] }

/-- OBSERVATION_WINDOW (R163). -/
def execObservationWindow (channel first : Nat) (seen : Option (List (Int × Int))) (s : State) : Out :=
  whenRunning s (s.observationWindow channel first seen)

/-- A block of samples is examined for impulses where the channel is idle in it and its gain is that of the block before (R163). -/
def State.idleBlock (s : State) (n first : Nat) (samples : List Int) : State :=
  match (s.chan n).blocks with
  | ⟨some g, _, _, _, _⟩ :: _ =>
    if s.observes n first && (s.chan n).gainFrom + 128 ≤ first then
      s.modTideTable n fun t => { t with
        blocks := ⟨first, g, samples.foldl (fun m x => max m x.natAbs) 0, (samples.map fun x => (x * x).toNat).sum⟩ :: t.blocks }
    else s
  | _ => s

/-- A block's peak lies at least `level` decibels above a mean square of `med` / 64, both at the pins (R164). -/
def impulsive (level med : Nat) (b : IdleBlock) : Bool :=
  0 < b.peak && med ^ 10 * 10 ^ level ≤ (b.peak ^ 2 * 64 * pinFactor b.gain) ^ 10

/-- The impulses among the idle blocks of an occurrence, oldest first (R164): the runs of blocks that follow each other. -/
def impulseRuns (hit : IdleBlock → Bool) : Option Nat → List IdleBlock → Nat
  | _, [] => 0
  | last, b :: bs =>
    if hit b then (if last == some b.first then 0 else 1) + impulseRuns hit (some (b.first + 128)) bs
    else impulseRuns hit none bs

/-- R_obs in 1/256 of 0.01 per ms over the idle blocks of an occurrence (R164): a block lasts 128 ticks, 1/3,200 ms. -/
def impulseRate (level : Nat) (blocks : List IdleBlock) : Nat :=
  let med := (medianOf (blocks.map fun b => b.squares * pinFactor b.gain)).getD 0
  impulseRuns (impulsive level med) none blocks * (3200 * 25600) / blocks.length

/-- F: the least P over the observed slots of channel `n` (R164). -/
def State.tideFloor (s : State) (n : Nat) : Option Nat :=
  (List.range 24).foldl (fun (b : Option Nat) i =>
    let t := s.tide n i
    if t.obs = 0 then b
    else match b with
      | none => some t.power
      | some p => some (min p t.power)) none

/-- 10·log10(p / f) + add ≥ level, in decibels, by integer powers (R164, R165). -/
def dbReaches (p f add level : Nat) : Bool := 10 ^ level * f ^ 10 ≤ p ^ 10 * 10 ^ add

/-- The thresholds that govern channel `n` (R165, R167): NOISE_1–3 in dB and IMP_1–3 in 0.01 per ms. -/
def State.tideThresholds (s : State) (n : Nat) : List Nat × List Nat :=
  match s.tideSeg n with
  | some g =>
    ([s.rd (K.seg.NOISE_1 g), s.rd (K.seg.NOISE_2 g), s.rd (K.seg.NOISE_3 g)],
      [s.rd (K.seg.IMP_1 g), s.rd (K.seg.IMP_2 g), s.rd (K.seg.IMP_3 g)])
  | none => ([4, 10, 20], [10, 50, 200])

/-- STALE_CYCLES of channel `n`. -/
def State.staleCycles (s : State) (n : Nat) : Nat :=
  match s.tideSeg n with
  | some g => s.rd (K.seg.STALE_CYCLES g)
  | none => 256

/-- IMPULSE_LEVEL of channel `n` in decibels. -/
def State.impulseLevel (s : State) (n : Nat) : Nat := ((s.tideSeg n).map fun g => s.rd (K.seg.IMPULSE_LEVEL g)).getD 20

/-- class(E + add dB, R × scale) of R165: `p` and `f` are P and F, `r` is R in 1/256 of 0.01 per ms. -/
def tideClass (noise imp : List Nat) (p f add r scale : Nat) : Nat :=
  let ce := (noise.filter fun x => dbReaches p f add x).length
  let cr := (imp.filter fun x => x * 256 ≤ r * scale).length
  max ce cr

/-- The averages of R164 after an observed occurrence: P in 10^-20 mW and R in 1/256 of 0.01 per ms, each eighth rounded down to a whole
unit (DESIGN CHOICE, assumption log, entry 61). -/
def TideSlot.average (t : TideSlot) (power rate : Nat) : TideSlot :=
  if t.obs = 0 then { t with power := power, rate := rate, obs := 1 }
  else
    { t with
      power := ((t.power : Int) + ((power : Int) - t.power) / 8).toNat
      rate := ((t.rate : Int) + ((rate : Int) - t.rate) / 8).toNat
      obs := min (t.obs + 1) 15 }

/-- The class of a slot after its averages moved (R165); where F is 0 the spec states no E, and the class from noise is a free
value (assumption log, entry 19). -/
def State.slotClass (s : State) (n i : Nat) : Nat × State :=
  let t := s.tide n i
  let (noise, imp) := s.tideThresholds n
  let f := (s.tideFloor n).getD 0
  let (v, s') := if f = 0 then s.fresh else (0, s)
  let up := if f = 0 then max (v % 4) (tideClass [] imp 0 0 0 t.rate 1) else tideClass noise imp t.power f 0 t.rate 1
  let down := if f = 0 then up else tideClass noise imp t.power f 2 t.rate 2
  (if t.obs < 2 then 3 else if t.cls < up then up else if down < t.cls then down else t.cls, s')

/-- An observed occurrence ends (R164–R166). -/
def State.tideObserved (s : State) (n i power rate : Nat) : State :=
  let s := s.modTide n i fun t => { t.average power rate with missed := 0, stale := false }
  let (c, s) := s.slotClass n i
  let s := if c = (s.tide n i).cls then s else s.bump (K.tide.CLASS_CHANGES n)
  s.modTide n i fun t => { t with cls := c }

/-- An occurrence ends without being observed (R166): after STALE_CYCLES of them the slot is stale, and the coordinator keeps the
channel silent in it for one cycle of the next beacon period. -/
def State.tideMissed (s : State) (n i : Nat) : State :=
  let s := s.modTide n i fun t => { t with missed := t.missed + 1 }
  if (s.tide n i).stale || (s.tide n i).missed < s.staleCycles n then s
  else
    let s := s.modTide n i fun t => { t with stale := true }
    match s.segOf n with
    | some g => s.modSeg g fun x => { x with gaps := x.gaps ++ [(n, i)] }
    | none => s

/-- The tick at which the occurrence of slot `i` on channel `n` ends that is in progress, or else the latest one before it; the next one where
that has ended already. -/
def State.slotEnd (s : State) (n i : Nat) : Nat :=
  let φ := s.tideOffset n
  let k := s.slotCount φ s.now
  let due := s.slotTick φ (k - (k - i) % 24 + 1)
  if due ≤ (s.tideTable n).ended then s.slotTick φ (k - (k - i) % 24 + 25) else due

/-- TIDE_SLOT_END (R163–R166): the occurrence of slot `i` ends; with four windows or more it has been observed. -/
def State.tideSlotEnd (s : State) (n i : Nat) : State :=
  if 23 < i || !s.enabled n then s
  else
    let due := s.slotEnd n i
    let φ := s.tideOffset n
    let from_ := s.slotTick φ (s.slotCount φ due - 1)
    let s := s.passTo due
    let t := s.tideTable n
    let powers := (t.windows.filter fun w => from_ ≤ w.1 && w.1 < due).map (·.2)
    let blocks := (t.blocks.filter fun b => from_ ≤ b.first && b.first < due).reverse
    let s := s.modTideTable n fun t =>
      { t with windows := t.windows.filter fun w => due ≤ w.1, blocks := t.blocks.filter fun b => due ≤ b.first, ended := due }
    if 4 ≤ powers.length then s.tideObserved n i (powers.sum / powers.length) (impulseRate (s.impulseLevel n) blocks)
    else s.tideMissed n i

/-- TIDE_SLOT_END (R165). -/
def execTideSlotEnd (channel slot : Nat) (s : State) : Out := onCore 7 s (s.tideSlotEnd channel slot)

/-! What the tide table shows (R168). -/

/-- E in 0.25 dB, at most 255: the largest e with P^40 ≥ 10^e F^40. -/
def quarterDb (p f : Nat) : Nat :=
  ((List.range 256).foldl (fun (b : Nat × Nat) e => if b.2 * f ^ 40 ≤ p ^ 40 then (e, b.2 * 10) else b) (0, 1)).1

/-- SLOT_i (R168). -/
def State.slotObject (s : State) (n i : Nat) : Nat :=
  let t := s.tide n i
  let f := (s.tideFloor n).getD 0
  let e := if t.obs = 0 then 0 else if f = 0 then Config.free s.free % 256 else quarterDb t.power f
  t.cls + boolNat t.stale * 4 + e * 2 ^ 8 + min 4095 (t.rate / 256) * 2 ^ 16 + t.obs * 2 ^ 28

/-- The whole part of log10 of a number. -/
def ilog10 : Nat → Nat → Nat
  | 0, _ => 0
  | fuel + 1, v => if v < 10 then 0 else 1 + ilog10 fuel (v / 10)

/-- FLOOR in 0.1 dBm: 100·log10 of F in mW, rounded downwards; −32,768 while no slot is observed (R168). -/
def State.floorObject (s : State) (n : Nat) : Int :=
  match s.tideFloor n with
  | none => -32768
  | some f => if f = 0 then sgn 16 (Config.free s.free) else (ilog10 10000 (f ^ 100) : Int) - 2000

/-- CLASS_VECTOR of channel `n` (R168, R169). -/
def State.classVector (s : State) (n : Nat) : Nat :=
  ((List.range 24).map fun i => (s.tide n i).cls * 4 ^ i).sum

/-- The class of slot `i` in a vector (R169). -/
def vectorClass (v i : Nat) : Nat := field v (2 * i) 2

/-- The slot-wise maximum of two vectors (R170). -/
def vectorMax (a b : Nat) : Nat := ((List.range 24).map fun i => max (vectorClass a i) (vectorClass b i) * 4 ^ i).sum

/-- The vector that governs the uplinks of entry `i` (R170): over the channels of its subset. -/
def State.upVector (s : State) (i : Nat) : Nat :=
  (s.subsetOf i fun _ => true).foldl (fun v n => vectorMax v (s.classVector n)) 0

/-- TIDE_REPORT (R169): the endpoint's vector; a body of another length is discarded and counted (R209). -/
def State.tideReport (s : State) (i : Nat) (body : List Byte) : State :=
  if body.length = 6 then s.modEp i fun e => { e with vector := ofLe body } else s.bump (K.segs.MAC_CMD_BAD (s.ep i).seg)

/-- The messages that wait for core `c`: those from the segments it coordinates (R25). -/
def State.coreMail (s : State) (c : Nat) : List (Nat × List Byte) := s.mac.committed.filter fun m => s.entryCore m.1 == c

/-- The committed MAC command of entry `i` is taken from those that wait for their receiver. -/
def State.takeCommitted (s : State) (i : Nat) (body : List Byte) : State :=
  s.modMac fun m => { m with committed := m.committed.erase (i, body) }

/-! Period slots in time (R159, R162, R187). -/

/-- The tide slot of segment `g` at tick `t`. -/
def State.slotAtTick (s : State) (g t : Nat) : Nat := slotOfPhase (s.segPhaseAt t (s.seg g).offset)

/-- The tick at which the `k`-th tide slot boundary after tick `t` comes on segment `g`. -/
def State.slotEdge (s : State) (g t k : Nat) : Nat := s.slotTick (s.seg g).offset (s.slotCount (s.seg g).offset t + k)

/-- The tick at which period slot `n` of segment `g` begins, in the period that began at tick `p` (R187). -/
def State.slotStart (s : State) (g p n : Nat) : Nat := if n = 0 then p else s.slotEdge g p n

/-- Slots of the running period of segment `g` (R187). -/
def State.periodLen (s : State) (g : Nat) : Nat := 24 * (s.seg g).region.getD 0 8

/-- The period slot of segment `g` at tick `t`, none outside a running period. -/
def State.periodSlot (s : State) (g t : Nat) : Option Nat :=
  match (s.seg g).period with
  | none => none
  | some p =>
    let k := (t - p) * 24 * 2 ^ 16 / s.tracker.period
    let n := if s.slotStart g p (k + 1) ≤ t then k + 1 else if t < s.slotStart g p k then k - 1 else k
    if t < p || s.periodLen g ≤ n then none else some n

/-- The ticks from `a` up to `b` touch a listening gap of one of the channels (R166): its tide slot in the period's last mains cycle. -/
def State.inGap (s : State) (g : Nat) (ns : List Nat) (a b : Nat) : Bool :=
  match (s.seg g).period with
  | none => false
  | some p => (s.seg g).gaps.any fun z => 24 ≤ z.2 && ns.contains z.1 &&
      (let k := s.periodLen g - 24 + (z.2 - (s.seg g).region.getD 1 0) % 24
       a < s.slotStart g p (k + 1) && s.slotStart g p k < b)

/-- The tide slots that the ticks from `a` to `b` overlap, at most one whole cycle of them. -/
def State.slotsBetween (s : State) (g a b : Nat) : List Nat :=
  let θ := fun (t : Nat) => 24 * (s.phaseAt t + (s.seg g).offset * fullCycle / 3600) / fullCycle
  let n := (θ b - θ a).toNat
  (List.range (min 24 (n + 1))).map fun k => ((θ a + k) % 24).toNat

/-- The worst class of a vector over those slots. -/
def State.worstClass (s : State) (g v a b : Nat) : Nat :=
  (s.slotsBetween g a b).foldl (fun c i => max c (vectorClass v i)) 0

end Sys2Proof.Machine
end

