-- ==== Sys2Proof/Machine/Maps.lean ====
section
/-! DEFINITION. Sounding, negotiation and tone maps of both directions of a link (R175–R183). -/

namespace Sys2Proof.Machine

/-! Decibels (R182, R239). -/

/-- The linear value of the arithmetic mean, in decibels, of linear SNRs in 2^-16: their geometric mean, in 2^-64; none of an empty list. -/
def meanDb (l : List Nat) : Option Nat :=
  let p := (l.map (· * 2 ^ 48)).prod
  let top := (l.foldl max 0) * 2 ^ 48
  if l.isEmpty then none else some (leastBy (fun x => p < (x + 1) ^ l.length) 400 0 top)

/-! Descriptors (R178, R180). -/

/-- A tone map as a frame uses it: TMI, rate code, GI code and coded bits per payload symbol C_s. -/
structure MapDesc where
  tmi : Nat
  rate : Nat
  gi : Nat
  cs : Nat
  deriving DecidableEq, Repr

/-- The descriptor that a handle of the endpoint table names (R180, R216). -/
def State.handleDesc (s : State) (h : Nat) : Option MapDesc :=
  let p := handlePage h
  if p = 0 then none
  else if p = 1 then some ⟨1, (fixedMap 1).2, h / 2 ^ 14 % 4, (fixedMap 1).1⟩
  else (Tbl.at? s.mac.pages p).map fun x => ⟨x.tmi, x.rate, x.gi, x.loading.sum⟩

/-- The downlink descriptor of entry `i` for class `c`. -/
def State.downDesc (s : State) (i c : Nat) : Option MapDesc := s.handleDesc ((s.ep i).mapDn.getD c 0)

/-- The TMIs from 2 up that a list of handles names, with their classes. -/
def State.tmisOf (s : State) (hs : List Nat) : List (Nat × Nat) :=
  hs.zipIdx.filterMap fun h => match s.handleDesc h.1 with
    | some d => if 2 ≤ d.tmi then some (d.tmi, h.2) else none
    | none => none

/-- A map to be installed for a class. -/
structure MapRecord where
  cls : Nat
  tmi : Nat
  rate : Nat
  gi : Nat
  loading : List Nat
  deriving DecidableEq, Repr

/-- Give a map its handle (R180): TMI 0 has none, TMI 1 names page 1 with its GI, any other takes a pool page if there is one. -/
def State.takePage (s : State) (i : Nat) (down : Bool) (r : MapRecord) : Nat × State :=
  if r.tmi = 0 then (0, s)
  else if r.tmi = 1 then (1 + r.gi * 2 ^ 14, s)
  else match s.freePage with
    | none => (0, s.bump (K.segs.TMAP_NO_PAGE (s.ep i).seg))
    | some p =>
      (p, (s.modMac fun m => { m with pages := Tbl.ins m.pages p ⟨r.tmi, r.rate, r.gi, i, down, r.cls, r.loading⟩ }).countPages)

/-- Give a set of maps its handles, class 2 first (R180). -/
def State.takePages (s : State) (i : Nat) (down : Bool) (rs : List MapRecord) : List Nat × State :=
  [2, 1, 0].foldl (fun (a : List Nat × State) c =>
    match rs.find? fun r => r.cls == c with
    | none => a
    | some r =>
      let x := a.2.takePage i down r
      (a.1.set c x.1, x.2)) ([0, 0, 0], s)

/-! The tone map response (R178, R181). -/

/-- The 1,685 loading codes of 843 bytes: carrier 36 + j in bits [4j + 3 : 4j] (R178). -/
def loadingRead (b : List Byte) : List Nat :=
  (b.flatMap fun x => [x.toNat % 16, x.toNat / 16]).take 1685

/-- The 843 bytes of a loading. -/
def loadingBytes (l : List Nat) : List Byte :=
  (List.range 843).map fun j => BitVec.ofNat 8 (l.getD (2 * j) 0 + 16 * l.getD (2 * j + 1) 0)

/-- The map records that CLASS_MASK announces, and the bytes after them; none where the body is too short. -/
def mapRecords (mask : Nat) : List Nat → List Byte → Option (List MapRecord × List Byte)
  | [], b => some ([], b)
  | c :: cs, b =>
    if !bitOf mask c then mapRecords mask cs b
    else
      let h := ofLe (b.take 4)
      let tmi := field h 0 8
      let n := if 2 ≤ tmi then 847 else 4
      if b.length < n then none
      else
        let l := if 2 ≤ tmi then loadingRead ((b.drop 4).take 843) else []
        (mapRecords mask cs (b.drop n)).map fun x => (⟨c, tmi, field h 8 3, field h 11 2, l⟩ :: x.1, x.2)

/-- Read a tone map response; none where it is malformed (R181): its class vector and records. -/
def mapResponseRead (b : List Byte) : Option (Nat × List MapRecord) :=
  if b.length < 12 then none
  else
    let h := ofLe (b.take 12)
    match mapRecords (field h 0 3) [0, 1, 2] (b.drop 12) with
    | some (rs, []) => some (field h 8 48, rs)
    | _ => none

/-- A record loads a pilot, or a carrier masked on a channel of the segment (R181). -/
def State.loadsWrong (s : State) (g : Nat) (l : List Nat) : Bool :=
  l.zipIdx.any fun x => x.1 != 0 && ((x.2 + 36) % 16 == 0 || s.segMasked g (x.2 + 36))

/-- The record is rejected (R181). -/
def State.mapRejected (s : State) (i : Nat) (all : List MapRecord) (r : MapRecord) : Bool :=
  4 < r.rate ||
    (2 ≤ r.tmi && (r.loading.any (12 < ·) || r.loading.all (· == 0) || s.loadsWrong (s.ep i).seg r.loading ||
      ((s.tmisOf (s.ep i).mapDn).any fun x => x.1 == r.tmi && x.2 != r.cls) ||
      (all.any fun x => x.tmi == r.tmi && x.cls < r.cls)))

/-- TONE_MAP_RESPONSE (R169, R179, R181): the endpoint's vector is taken and the valid records become the downlink maps. -/
def State.mapResponse (s : State) (i : Nat) (body : List Byte) : State :=
  let g := (s.ep i).seg
  match mapResponseRead body with
  | none => s.bump (K.segs.TMAP_MALFORMED g)
  | some (v, rs) =>
    let bad := rs.filter fun r => s.mapRejected i rs r
    let good := rs.filter fun r => !s.mapRejected i rs r
    let s := (s.bumpBy (K.segs.TMAP_REJECTED g) bad.length).modEp i fun e => { e with vector := v, noAck := [0, 0, 0] }
    let s := s.freeHandles (s.ep i).mapDn
    let (hs, s) := s.takePages i true good
    (s.modEp i fun e => { e with mapDn := hs }).bump (K.segs.TMAP_NEGOTIATED g)

/-- TONE_MAP_RESPONSE (R181). -/
def execToneMapResponse (entry : Nat) (body : List Byte) (s : State) : Out :=
  onCore (s.entryCore entry) s ((s.takeCommitted entry body).mapResponse entry body)

/-- TIDE_REPORT (R169). -/
def execTideReport (entry : Nat) (body : List Byte) (s : State) : Out :=
  onCore (s.entryCore entry) s ((s.takeCommitted entry body).tideReport entry body)

/-! Sounding (R175, R176). -/

/-- The body of a SOUND_REQUEST (R175) with its command code (R209). -/
def soundRequestBody (mask psc gi deadline : Nat) : List Byte :=
  leBytes 1 1 ++ leBytes 5 (packBits [(24, mask), (6, psc), (2, gi), (8, deadline)])

/-- Ask the endpoint to sound the slots of its uplink that are not class 3 (R182), unless a negotiation is in progress or there
is no such slot. -/
def State.startSounding (s : State) (i : Nat) : State :=
  let e := s.ep i
  let v := s.upVector i
  let mask := (((List.range 24).filter fun k => vectorClass v k != 3).map fun k => 2 ^ k).sum
  if e.sounding.isSome || mask = 0 || e.state ≠ epAssociated then s
  else
    let left := s.rd (K.seg.SOUND_TIMEOUT e.seg)
    (s.modEp i fun e => { e with sounding := some ⟨mask, left, []⟩ }).sendCommand i .command
      (soundRequestBody mask (s.rd (K.seg.SOUND_PSC e.seg)) 3 left)

/-- Sounding frames for entry `i` are still queued. -/
def State.soundingDown (s : State) (i : Nat) : Bool :=
  s.mac.queue.any fun d => d.entry == some i && d.type == 6

/-- SOUND_REQUEST from an endpoint (R176): one sounding frame at P2 for each slot asked for. A request that comes while frames of
an earlier one wait is ignored (R175). -/
def State.soundRequest (s : State) (i : Nat) (body : List Byte) : State :=
  let v := ofLe body
  if body.length ≠ 5 then s.bump (K.segs.MAC_CMD_BAD (s.ep i).seg)
  else if s.soundingDown i || field v 24 6 = 0 then s
  else
    ((List.range 24).filter fun k => bitOf v k).foldl (fun t k =>
      t.enqueue ⟨0, (t.ep i).seg, some i, 6, 2, .sounding k, body, none, 0, none, false, [], [], none⟩) s

/-- SOUND_REQUEST (R176). -/
def execSoundRequest (entry : Nat) (body : List Byte) (s : State) : Out :=
  onCore (s.entryCore entry) s ((s.takeCommitted entry body).soundRequest entry body)

/-- SOUND_TIMEOUT (R176): no beacon period is left before DEADLINE; the negotiation is abandoned, the current maps stay. -/
def State.soundTimeout (s : State) (i : Nat) : State :=
  match (s.ep i).sounding with
  | none => s
  | some x =>
    if x.left ≠ 0 then s
    else (s.modEp i fun e => { e with sounding := none }).bump (K.segs.SOUND_TIMEOUTS (s.ep i).seg)

/-- SOUND_TIMEOUT (R176). -/
def execSoundTimeout (entry : Nat) (s : State) : Out := onCore (s.entryCore entry) s (s.soundTimeout entry)

/-! Uplink maps (R177). -/

/-- 10^(1/100) in units of 2^-64. -/
def hundredthDecade : Nat := 18876423941023515214

/-- snr / 65,536 ≥ 10^(d/100) × (2^(b·r) − 1), where r is num/den and d the sum of Γ_r and the margin in 0.1 dB (R177;
assumption log, entry 20). -/
def carrierHolds (snr d b num den : Nat) : Bool :=
  let c := 65536 * hundredthDecade ^ d
  2 ^ (b * num) * c ^ den ≤ (c + snr * 2 ^ (64 * d)) ^ den

/-- The code rates by RATE (R178), and Γ_r in 0.1 dB (R177). -/
def rateOf (r : Nat) : Nat × Nat × Nat :=
  match r with
  | 0 => (1, 2, 16)
  | 1 => (2, 3, 18)
  | 2 => (3, 4, 20)
  | 3 => (5, 6, 22)
  | _ => (11, 12, 26)

/-- The bits that a carrier of linear SNR `snr` (2^-16) carries at rate code `r` (R177). -/
def bitsFor (snr r margin bMax : Nat) : Nat :=
  let x := rateOf r
  (List.range bMax).foldl (fun b k => if carrierHolds snr (x.2.2 + 5 * margin) (k + 1) x.1 x.2.1 then k + 1 else b) 0

/-- The loading of one class at rate code `r` (R177). -/
def State.loadingAt (s : State) (i r : Nat) (snrs : List Nat) : List Nat :=
  let e := s.ep i
  (List.range 1685).map fun j =>
    if (j + 36) % 16 = 0 || s.segMasked e.seg (j + 36) then 0
    else bitsFor (snrs.getD j 0) r (s.rd (K.seg.MAP_MARGIN e.seg)) e.bMax

/-- The rate with the largest r × Σ b, the lower on a tie, with its loading (R177). -/
def State.bestLoading (s : State) (i : Nat) (snrs : List Nat) : Nat × List Nat :=
  let value := fun (x : Nat × List Nat) => (rateOf x.1).1 * (12 / (rateOf x.1).2.1) * x.2.sum
  (List.range (min 5 ((s.ep i).rateMax + 1))).foldl (fun (b : Nat × List Nat) r =>
    let x := (r, s.loadingAt i r snrs)
    if value b < value x then x else b) (0, s.loadingAt i 0 snrs)

/-- The carrier values of channel `n` in a symbol. -/
def valuesOn (n : Nat) (sy : List SymbolSeen) : List Gauss := ((sy.find? fun c => c.chan == n).map (·.carriers)).getD []

/-- |Y|² ÷ σ² of a known symbol's carrier in 2^-16, σ² being noise ÷ (2 × count) of the frame's CE symbols. -/
def Tap.knownSnr (t : Tap) (y : Gauss) : Nat := y.power * t.count * 2 ^ 17 / max 1 t.noise

/-- The channels of a sounding frame with their taps (R127). -/
def State.soundTaps (s : State) (x : SoundSeen) : List (Nat × List Tap) := x.ce.map fun c => (c.chan, tapsOf (s.masked c.chan) c.y1 c.y2)

/-- SNR_i,k of the band carriers of a sounding frame (R177): each known symbol gives |H|² by itself, σ² is the frame's, and the members' SNRs
add as R132 combines them (DESIGN CHOICE, assumption log, entry 55). -/
def State.soundSnrs (s : State) (x : SoundSeen) : List Nat :=
  let parts := s.soundTaps x
  bandCarriers.map fun k =>
    let at_ := fun (sy : List SymbolSeen) => (parts.map fun p =>
      match p.2[k - 36]? with
      | some t => t.knownSnr ((valuesOn p.1 sy).getD (k - 36) (0, 0))
      | none => 0).sum
    (x.symbols.map at_).sum / max 1 x.symbols.length

/-- The CE SNR of a sounding frame in 2^-16, over its channels (R127). -/
def State.soundCe (s : State) (x : SoundSeen) : Nat :=
  ((s.soundTaps x).zip x.ce |>.map fun p => snrOf p.1.2 p.2.y1 p.2.y2).sum

/-- The sounding frames of the slots of class `c` in vector `v`. -/
def ofClass (v c : Nat) (xs : List SoundSeen) : List SoundSeen := xs.filter fun x => x.slot < 24 && vectorClass v x.slot == c

/-- SNR_c,k (R177): the least over the sounded slots of class `c`; none where there is no such slot. -/
def State.classSnr (s : State) (v c : Nat) (xs : List SoundSeen) : Option (List Nat) :=
  match (ofClass v c xs).map s.soundSnrs with
  | [] => none
  | r :: rs => some (rs.foldl (fun a b => List.zipWith min a b) r)

/-! The guard of the new maps (R177). -/

/-- The impulse response of the taps of carriers 36 to 1,720 at 4,096 samples, from 2,048 samples before the window's start. -/
def impulse (taps : List Gauss) : List Nat :=
  (List.range 4096).map fun n =>
    (sumGauss ((taps.zip bandCarriers).map fun p => turned ((p.2 * (n + 2048) % 4096 * 2 ^ 20 : Nat) : Int) p.1)).power

/-- The span in samples from the first to the last tap within 25 dB of the strongest, around which the response is laid. -/
def tapSpan (h : List Nat) : Nat :=
  let m := argMax h
  let top := h.getD m 0
  let near := (List.range 4096).filter fun k => top ^ 2 ≤ (h.getD ((m + 2048 + k) % 4096) 0) ^ 2 * 10 ^ 5
  near.getLast?.getD 0 - near.headD 0

/-- The mean taps of channel `n` over sounding frames, up to a factor. -/
def State.meanTaps (s : State) (n : Nat) (xs : List SoundSeen) : List Gauss :=
  let rows := xs.flatMap fun x => ((s.soundTaps x).filter fun p => p.1 == n).map fun p => p.2.map fun t => (t.re, t.im)
  rows.foldl (fun a b => List.zipWith Gauss.add a b) (bandCarriers.map fun _ => (0, 0))

/-- L in ticks (R177): the longest of the channels that heard the frames (DESIGN CHOICE, assumption log, entry 55). -/
def State.soundSpan (s : State) (xs : List SoundSeen) : Nat :=
  let ns := (xs.flatMap fun x => x.ce.map (·.chan)).eraseDups
  2 * (ns.map fun n => tapSpan (impulse (s.meanTaps n xs))).foldl max 0

/-- The smallest GI code whose guard less 0.625 µs is at least a span in ticks, or 3 (R177). -/
def giFor (span : Nat) : Nat := ((List.range 4).find? fun g => span + 256 ≤ 512 * 2 ^ g).getD 3

/-- Map 1 as a loading: 2 on every data carrier (R86, R180). -/
def mapOneLoading : List Nat := (List.range 1685).map fun j => if (j + 36) % 16 = 0 then 0 else 2

/-- The lowest TMI from 2 up that no handle and no listed TMI uses (R177). -/
def State.freshTmi (s : State) (hs : List Nat) (taken : List Nat) : Nat :=
  let used := (s.tmisOf hs).map (·.1) ++ taken
  (((List.range 254).map (· + 2)).find? fun t => !used.contains t).getD 2

/-- The new uplink set (R177): a class without a sounded slot, or on which no carrier carries a bit, gets no map. -/
def State.uplinkMaps (s : State) (i : Nat) (heard : List SoundSeen) : List MapRecord :=
  let v := s.upVector i
  let gi := giFor (s.soundSpan heard)
  ([0, 1, 2].foldl (fun (a : List MapRecord) c =>
    match s.classSnr v c heard with
    | none => a
    | some row =>
      let (r, l) := s.bestLoading i row
      if l.all (· == 0) then a
      else if l = mapOneLoading && r = 0 then a ++ [⟨c, 1, 0, gi, []⟩]
      else a ++ [⟨c, s.freshTmi ((s.ep i).mapUp ++ (s.ep i).mapPend) (a.map (·.tmi)), r, gi, l⟩]) [])

/-- The body of the device's tone map response (R178). -/
def State.mapResponseBody (s : State) (i : Nat) (rs : List MapRecord) : List Byte :=
  let e := s.ep i
  leBytes 12 (packBits [(3, (rs.map fun r => 2 ^ r.cls).sum), (5, 0), (48, s.upVector i), (8, e.subset),
    (24, if e.tauKnown then e.tau else 0), (8, 0)]) ++
    rs.flatMap fun r =>
      leBytes 4 (packBits [(8, r.tmi), (3, r.rate), (2, r.gi)]) ++ (if 2 ≤ r.tmi then loadingBytes r.loading else [])

/-- SOUNDING_COMPLETE (R177, R179): every slot asked for has been sounded; the set computed from those frames becomes pending and goes to
the endpoint. -/
def State.soundingComplete (s : State) (i : Nat) (heard : List SoundSeen) : State :=
  match (s.ep i).sounding with
  | none => s
  | some x =>
    if (List.range 24).any fun k => bitOf x.mask k && !x.got.contains k then s
    else
      let s := (s.freeHandles (s.ep i).mapPend).modEp i fun e => { e with mapPend := [0, 0, 0], sounding := none }
      let heard := heard.filter fun y => x.got.contains y.slot
      let v := s.upVector i
      let rs := s.uplinkMaps i heard
      let (hs, s) := s.takePages i false rs
      let held := rs.filter fun r => hs.getD r.cls 0 != 0
      let base := (List.range 3).map fun c => meanDb ((ofClass v c heard).map s.soundCe)
      let s := s.modEp i fun e => { e with mapPend := hs, pendSet := true, ceBase := base, ceRuns := [[], [], []] }
      s.toEntry i 7 1 .mapResponse (s.mapResponseBody i held) false

/-- SOUNDING_COMPLETE (R177). -/
def execSoundingComplete (entry : Nat) (heard : List SoundSeen) (s : State) : Out :=
  onCore (s.entryCore entry) s (s.soundingComplete entry heard)

/-- The pending uplink set, if there is one, becomes current and the old set's pages are freed (R179): a set may be without a map. -/
def State.installUp (s : State) (i : Nat) : State :=
  if !(s.ep i).pendSet then s
  else
    let s := s.freeHandles (s.ep i).mapUp
    (s.modEp i fun e =>
      { e with mapUp := e.mapPend, mapPend := [0, 0, 0], pendSet := false, mapsAt := some s.now, crcRun := (0, 0) }).bump
      (K.segs.TMAP_NEGOTIATED (s.ep i).seg)

/-- MAP_REFRESH (R182): MAP_REFRESH minutes after the last installed set; 0 disables it. -/
def State.mapRefresh (s : State) (i : Nat) : State :=
  let m := s.rd (K.seg.MAP_REFRESH (s.ep i).seg)
  match (s.ep i).mapsAt with
  | none => s
  | some t =>
    if m = 0 then s
    else ((s.atDeadline (t + secTicks (60 * m))).modEp i fun e => { e with mapsAt := none }).startSounding i

/-- MAP_REFRESH (R182). -/
def execMapRefresh (entry : Nat) (s : State) : Out := onCore (s.entryCore entry) s (s.mapRefresh entry)

/-- The union mask of segment `g` has changed (R182): every associated link is sounded. -/
def State.maskChanged (s : State) (g : Nat) : State :=
  (s.epsWith fun e => e.seg == g && e.state == epAssociated).foldl (fun t i => t.startSounding i) s

/-- The decibel mean of 16 linear SNRs in 2^-16 is at least 3 dB below or 6 dB above a linear base in 2^-64 (R182): (Π γ)^10 against
base^160 at 48 and 96 decibels. -/
def ceMoved (run : List Nat) (base : Nat) : Bool :=
  let p := (run.map (· * 2 ^ 48)).prod ^ 10
  p * 10 ^ 48 ≤ base ^ 160 || base ^ 160 * 10 ^ 96 ≤ p

/-- A committed frame's CE SNR on the map of class `c` (R182): the mean of 16 has fallen 3 dB below or risen 6 dB above its value
at negotiation. -/
def State.ceWatch (s : State) (i c snr : Nat) : State :=
  let run := (snr :: (s.ep i).ceRuns.getD c []).take 16
  let s := s.modEp i fun e => { e with ceRuns := e.ceRuns.set c run }
  match (s.ep i).ceBase.getD c none with
  | some b => if run.length = 16 && ceMoved run b then s.startSounding i else s
  | none => s

/-- A reception of the link on the class map `c` ended with MPDU_CRC_FAIL or without (R182): 8 failures in a row start
sounding. -/
def State.crcWatch (s : State) (i c : Nat) (failed : Bool) : State :=
  let run := (s.ep i).crcRun
  let n := if !failed then 0 else if run.1 = c then run.2 + 1 else 1
  let s := s.modEp i fun e => { e with crcRun := (c, if 8 ≤ n then 0 else n) }
  if 8 ≤ n then s.startSounding i else s

/-- Downlink frames on the map of class `c` drew an acknowledgement or not (R183): after 8 without one the descriptor is
dropped. -/
def State.mapAckWatch (s : State) (i c : Nat) (acked : Bool) : State :=
  let n := if acked then 0 else (s.ep i).noAck.getD c 0 + 1
  let s := s.modEp i fun e => { e with noAck := e.noAck.set c (if 8 ≤ n then 0 else n) }
  let h := (s.ep i).mapDn.getD c 0
  if 8 ≤ n && h ≠ 0 then
    ((s.freeHandles [h]).modEp i fun e => { e with mapDn := e.mapDn.set c 0 }).bump (K.segs.MAP_DROPS (s.ep i).seg)
  else s

end Sys2Proof.Machine
end

