-- ==== Sys2Proof/Machine/Routes.lean ====
section
/-! DEFINITION. Hops, routes and relay tables of a segment (R237–R241). -/

namespace Sys2Proof.Machine

/-- 10^(1/40), one quarter of a decibel in power, in units of 2^-64. -/
def quarterDecibel : Nat := 19539782377468919692

/-- 10^(s/10) of s in 0.25 dB, in units of 2^-64, rounded downwards (assumption log, entry 20). -/
def linearOf (s : Int) : Nat :=
  if 0 ≤ s then quarterDecibel ^ s.toNat * 2 ^ 64 / 2 ^ (64 * s.toNat)
  else 2 ^ (64 * (-s).toNat) * 2 ^ 64 / quarterDecibel ^ (-s).toNat

/-- n × log2(1 + x) ≥ 1,200 for a linear SNR in 2^-64 (R239). -/
def bitsReach (x n : Nat) : Bool := 2 ^ (1200 + 64 * n) ≤ (2 ^ 64 + x) ^ n

/-- ceil(1,200 ÷ b) with b = min(11, log2(1 + 10^(s/10))) (R239); s is at least 0 dB. -/
def hopTerm (x : Nat) : Nat := leastBy (bitsReach x) 16 110 1200

/-- The stations of segment `g` beside the coordinator: entries that hold an address and may be served. -/
def State.stations (s : State) (g : Nat) : List Nat :=
  s.epsWith fun e => e.seg == g && (e.state == epAssociating || e.state == epAssociated) && !e.unusable

/-- The SNR that station `i` reports for an address, if it reports one (R237). -/
def State.reported (s : State) (i addr : Nat) : Option Nat :=
  ((s.ep i).report.find? fun x => x.1 == addr).map (·.2)

/-- A linear SNR in 2^-64 less 3 dB. -/
def lessThree (x : Nat) : Nat := x * 2 ^ 768 / quarterDecibel ^ 12

/-- The SNR of a hop from its two directions, linear in 2^-64 (R239): the lower one, or the only one less 3 dB; none once a direction is
reported unusable. -/
def hopSnr (bad : Bool) (up down : Option Nat) : Option Nat :=
  if bad then none
  else match up, down with
    | some a, some b => some (min a b)
    | some a, none => some (lessThree a)
    | none, some b => some (lessThree b)
    | none, none => none

/-- A reported SNR, in 0.25 dB, as a linear one. -/
def asLinear (x : Option Nat) : Option Nat := x.map fun v => linearOf (v : Int)

/-- The SNR of the hop between the coordinator and entry `i` (R239): the mean in decibels of its direct receptions, and what it reports. -/
def State.firstHop (s : State) (i : Nat) : Option Nat :=
  let r := s.reported i 0
  hopSnr (r == some 0) (meanDb (s.ep i).snrs) (asLinear r)

/-- Entry `j` associated over repeater `i`, and no report has given that hop yet (R249). -/
def State.viaOnly (s : State) (i j : Nat) : Bool := (s.ep j).via == some i && !(s.ep j).viaSeen

/-- NEIGHBOUR_MIN_SNR of segment `g`, linear in 2^-64 (R239). -/
def State.minSnr (s : State) (g : Nat) : Nat := linearOf (4 * (s.rd (K.seg.NEIGHBOUR_MIN_SNR g) : Int))

/-- The SNR of the hop between entries `i` and `j` (R239); the hop over which one associated stands at NEIGHBOUR_MIN_SNR until a
report gives it (R249). -/
def State.hopBetween (s : State) (i j : Nat) : Option Nat :=
  let a := s.reported j (s.ep i).addr
  let b := s.reported i (s.ep j).addr
  if s.viaOnly i j || s.viaOnly j i then some (s.minSnr (s.ep i).seg)
  else hopSnr (a == some 0 || b == some 0) (asLinear a) (asLinear b)

/-- The cost of a hop, if it is usable (R239). -/
def State.hopCost (s : State) (g : Nat) (snr : Option Nat) : Option Nat :=
  match snr with
  | none => none
  | some x => if x < s.minSnr g then none else some (hopTerm x + s.rd (K.seg.HOP_PENALTY g))

/-- Entry `i` may forward for others (R240). -/
def State.forwards (s : State) (i : Nat) : Bool :=
  let e := s.ep i
  e.state == epAssociated && bitOf e.features 3 && (s.sleepNow e).period == 0 && !e.adrift && !e.unusable

/-- A path: its cost and its stations as entries, in order from the coordinator. -/
abbrev Path' := Nat × List Nat

/-- The addresses of a path's stations. -/
def State.pathAddrs (s : State) (p : Path') : List Nat := p.2.map fun i => (s.ep i).addr

/-- Path `a` is taken before path `b` of as many hops: lower cost, then the lower address at the first difference (R240). -/
def State.pathBefore (s : State) (a b : Path') : Bool :=
  a.1 < b.1 || (a.1 == b.1 && decide (s.pathAddrs a < s.pathAddrs b))

/-- The better of two optional paths, the first one on a tie. -/
def State.betterPath (s : State) (a b : Option Path') : Option Path' :=
  match a, b with
  | none, b => b
  | a, none => a
  | some x, some y => if s.pathBefore y x then some y else some x

/-- The best paths of exactly one hop. -/
def State.onePaths (s : State) (g : Nat) : Tbl Path' :=
  (s.stations g).filterMap fun i => (s.hopCost g (s.firstHop i)).map fun c => (i, (c, [i]))

/-- The best paths of one hop more. -/
def State.longerPaths (s : State) (g : Nat) (t : Tbl Path') : Tbl Path' :=
  let mids := t.filter fun p => s.forwards p.1
  (s.stations g).filterMap fun j =>
    (mids.foldl (fun (b : Option Path') p =>
      if p.2.2.contains j then b
      else s.betterPath b ((s.hopCost g (s.hopBetween p.1 j)).map fun c => (p.2.1 + c, p.2.2 ++ [j]))) none).map fun x => (j, x)

/-- The best path of every station, over at most 1 + `n` hops; fewer hops win on equal cost (R240). -/
def State.bestPaths (s : State) (g : Nat) : Nat → Tbl Path' → Tbl Path' → Tbl Path'
  | 0, _, best => best
  | n + 1, last, best =>
    let next := s.longerPaths g last
    let merged := next.foldl (fun (b : Tbl Path') p =>
      match Tbl.at? b p.1 with
      | none => Tbl.ins b p.1 p.2
      | some x => if p.2.1 < x.1 then Tbl.ins b p.1 p.2 else b) best
    s.bestPaths g n next merged

/-- The routes of segment `g` (R240): receivers in order, the endpoint last. -/
def State.routesOf (s : State) (g : Nat) : Tbl (List Nat) :=
  let one := s.onePaths g
  let best := if s.flag (K.seg.REPEAT_ENABLE g) then s.bestPaths g 7 one one else one
  best.map fun p => (p.1, s.pathAddrs p.2)

/-- UP_ROUTE of a station with downlink route `r` (R241). -/
def upRoute (r : List Nat) : List Nat := r.dropLast.reverse ++ [0]

/-- The neighbours of a station at address `a` over all routes: its upstream next hops and its downstream neighbours (R241). -/
def relayNeighbours (a : Nat) (routes : List (List Nat)) : List Nat :=
  let ups := routes.filterMap fun r => (r.zip r.tail).find? (fun p => p.2 == a) |>.map (·.1)
  let downs := routes.filterMap fun r => (r.zip r.tail).find? (fun p => p.1 == a) |>.map (·.2)
  ((ups ++ downs).eraseDups).take 64

/-- The ROUTE_SET body of entry `i` (R241), none while it has no route. -/
def State.routeBody (s : State) (i : Nat) (routes : List (List Nat)) : Option (List Byte) :=
  let e := s.ep i
  e.route.map fun r =>
    let up := upRoute r
    let ns := relayNeighbours e.addr routes
    leBytes 1 up.length ++ leBytes 1 ns.length ++ up.flatMap (leBytes 2) ++
      ns.flatMap fun a => leBytes 2 a ++ leBytes 8 (((s.epAt e.seg a).map fun j => (s.ep j).eui).getD 0)

/-- The body that a station acts on before any ROUTE_SET: direct, with no relay table. -/
def directBody : List Byte := leBytes 1 1 ++ leBytes 1 0 ++ leBytes 2 0

/-- Send ROUTE_SET to entry `i` if its route or relay table has changed (R241). -/
def State.sendRouteSet (s : State) (i : Nat) (routes : List (List Nat)) : State :=
  match s.routeBody i routes with
  | none => s
  | some b =>
    if b = (s.ep i).routeSent.getD directBody then s
    else
      let s := (s.withdraw fun d => d.kind == .routeSet && d.entry == some i).modEp i fun e => { e with routeSent := some b }
      (s.sendCommand i .routeSet (leBytes 1 0x0C ++ b)).bump (K.segs.ROUTE_SETS_SENT (s.ep i).seg)

/-- Recompute the routes of segment `g`, count them, and send ROUTE_SET where they changed (R240, R241). -/
def State.recomputeRoutes (s : State) (g : Nat) : State :=
  let t := s.routesOf g
  let is := s.stations g
  let s := is.foldl (fun u i => u.modEp i fun e => { e with route := Tbl.at? t i }) s
  let s := s.modSeg g fun x => { x with routesAt := s.now }
  let s := s.wr (K.segs.ROUTED_ENDPOINTS g) (t.filter fun p => 1 < p.2.length).length
  is.foldl (fun u i => u.sendRouteSet i (t.map (·.2))) s

/-- The hops of a segment as R241 watches them: the cost, if usable, of every pair that a report of entry `i` may change. -/
def State.hopsAt (s : State) (i : Nat) : List (Option Nat) :=
  let g := (s.ep i).seg
  s.hopCost g (s.firstHop i) :: (s.stations g).map fun j => s.hopCost g (s.hopBetween i j)

/-- Read a NEIGHBOUR_REPORT; none where its length is wrong (R237). -/
def reportRead (b : List Byte) : Option (List (Nat × Nat)) :=
  match b with
  | [] => none
  | n :: r =>
    if 32 < n.toNat || r.length ≠ 4 * n.toNat then none
    else some ((List.range n.toNat).map fun k =>
      let v := ofLe ((r.drop (4 * k)).take 4)
      (field v 0 16, field v 16 8))

/-- A report of entry `i` gives the hops over which stations associated (R249). -/
def State.hopsGiven (s : State) (i : Nat) (r : List (Nat × Nat)) : State :=
  let lists := fun (j : Nat) => r.any fun x => x.1 == (s.ep j).addr
  (s.epsWith fun e => e.seg == (s.ep i).seg && e.via.isSome).foldl (fun t j =>
    let hop := (t.ep j).via.getD j
    if (j = i && lists hop) || (hop = i && lists j) then t.modEp j fun e => { e with viaSeen := true } else t) s

/-- NEIGHBOUR_REPORT (R237, R241): it replaces the previous one; a hop whose usability or cost changes recomputes the routes. -/
def State.neighbourReport (s : State) (i : Nat) (body : List Byte) : State :=
  match reportRead body with
  | none => s.bump (K.segs.MAC_CMD_BAD (s.ep i).seg)
  | some r =>
    let before := s.hopsAt i
    let s := (s.modEp i fun e => { e with report := r }).hopsGiven i r
    if s.hopsAt i = before then s else s.recomputeRoutes (s.ep i).seg

/-- NEIGHBOUR_REPORT (R237). -/
def execNeighbourReport (entry : Nat) (body : List Byte) (s : State) : Out :=
  onCore (s.entryCore entry) s ((s.takeCommitted entry body).neighbourReport entry body)

/-- ROUTE_INTERVAL (R241). -/
def State.routeInterval (s : State) (g : Nat) : State :=
  if s.segEnabled g then
    (s.atDeadline ((s.seg g).routesAt + secTicks (60 * s.rd (K.seg.ROUTE_INTERVAL g)))).recomputeRoutes g
  else s

/-- ROUTE_INTERVAL (R241). -/
def execRouteInterval (seg : Nat) (s : State) : Out := onCore 6 s (s.routeInterval seg)

end Sys2Proof.Machine
end

