-- ==== Sys2Proof/Machine/TxnCore.lean ====
section
/-! DEFINITION. The transaction engine: records, messages, legs and their attempts, aggregation and the idempotence cache
(R268–R301). -/

namespace Sys2Proof.Machine

/-! Outcome codes (R299). -/

/-- `SERVED`. -/
def outServed : Nat := 0
/-- `DELAYED`. -/
def outDelayed : Nat := 1
/-- `REFUSED`. -/
def outRefused : Nat := 2
/-- `COMPLETED`. -/
def outCompleted : Nat := 3
/-- `TIMED_OUT`. -/
def outTimedOut : Nat := 4
/-- `ABANDONED`. -/
def outAbandoned : Nat := 5
/-- `ABORTED`. -/
def outAborted : Nat := 6
/-- `TOO_LATE_COMPLETED`. -/
def outTooLate : Nat := 7
/-- `FAILED`. -/
def outFailed : Nat := 8
/-- `NOT_FOUND`. -/
def outNotFound : Nat := 9

/-! Cause codes (R300). -/

/-- `NONE`. -/
def causeNone : Nat := 0
/-- `QUEUE_FULL`. -/
def causeQueueFull : Nat := 1
/-- `QUOTA`. -/
def causeQuota : Nat := 2
/-- `NO_ROUTE`. -/
def causeNoRoute : Nat := 3
/-- `ENDPOINT_ASLEEP`. -/
def causeAsleep : Nat := 4
/-- `ENDPOINT_ADRIFT`. -/
def causeAdrift : Nat := 5
/-- `KEY_EXHAUSTED`. -/
def causeKey : Nat := 6
/-- `ROAMED`. -/
def causeRoamed : Nat := 7
/-- `BAD_REQUEST`. -/
def causeBad : Nat := 8
/-- `TXN_ID_REUSED`. -/
def causeReused : Nat := 9
/-- `RESULT_EVICTED`. -/
def causeEvicted : Nat := 10
/-- `MEMORY_ERROR`. -/
def causeMemory : Nat := 11
/-- `NOT_DELIVERED`. -/
def causeNotDelivered : Nat := 12
/-- `NO_RESPONSE`. -/
def causeNoResponse : Nat := 13
/-- `MIXED`. -/
def causeMixed : Nat := 14

/-! Records (R268, R282, R303). -/

/-- Transaction `k`: an identifier, or, for one served for device d, (d + 1) × 2^32 above it. -/
def State.txn? (s : State) (k : Nat) : Option Txn := Tbl.at? s.txn.txns k

/-- Change transaction `k`. -/
def State.modTxnRec (s : State) (k : Nat) (f : Txn → Txn) : State :=
  s.modTxn fun e => { e with txns := Tbl.upd e.txns k f }

/-- The device that transaction `k` is served for, none for one of the own host. -/
def servedFor (k : Nat) : Option Nat := if k < 2 ^ 32 then none else some (k / 2 ^ 32 - 1)

/-- The leg has not ended. -/
def Leg.open' (l : Leg) : Bool :=
  match l.phase with
  | .ended _ _ => false
  | _ => true

/-- The legs that have not ended. -/
def Txn.openLegs (t : Txn) : List Leg := t.legs.filter (·.open')

/-- Records held (R268, R291): one while cached or for a single target, else the parent and one for each open leg here. -/
def Txn.records (t : Txn) : Nat :=
  if t.cachedTo.isSome || !t.many then 1 else 1 + (t.openLegs.filter fun l => l.movedTo.isNone).length

/-- RECORDS_OPEN. -/
def State.recordsOpen (s : State) : Nat :=
  s.txn.txns.foldl (fun n t => if t.2.cachedTo.isSome then n else n + t.2.records) 0

/-- RECORDS_CACHED. -/
def State.recordsCached (s : State) : Nat := Tbl.count s.txn.txns fun _ t => t.cachedTo.isSome

/-- Free records of the 131,072. -/
def State.recordsFree (s : State) : Nat := 131072 - s.recordsOpen - s.recordsCached

/-- Records that P0 holds, open or cached. -/
def State.recordsP0 (s : State) : Nat := s.txn.txns.foldl (fun n t => if t.2.pri = 0 then n + t.2.records else n) 0

/-- Keep RECORDS_FREE_MIN. -/
def State.countRecords (s : State) : State :=
  s.wr K.txns.RECORDS_FREE_MIN (min (s.rd K.txns.RECORDS_FREE_MIN) s.recordsFree)

/-! Messages (R271, R275, R276, R291, R412). -/

/-- The 12-byte header (R271). -/
def nbHeader (type pri : Nat) (final : Bool) (id index len : Nat) : List Byte :=
  beBytes 1 1 ++ beBytes 1 type ++ beBytes 2 (pri * 2 ^ 14 + boolNat final * 2 ^ 13) ++ beBytes 4 id ++ beBytes 2 index ++
    beBytes 2 len

/-- Message types (R272). -/
def msgRequest : Nat := 1
/-- `ABORT`. -/
def msgAbort : Nat := 2
/-- `ANSWER`. -/
def msgAnswer : Nat := 3
/-- `RESPONSE`. -/
def msgResponse : Nat := 4
/-- `ABORT_RESULT`. -/
def msgAbortResult : Nat := 5
/-- `REPORT`. -/
def msgReport : Nat := 6

/-- A message of transaction `k` goes to its session, or back to the device it is served for (R264, R412). -/
def State.txnEmit (s : State) (k : Nat) (t : Txn) (msg : List Byte) : State :=
  match servedFor k with
  | none => (s.eventC 10 0x09 t.pri).nbSend t.session t.pri msg
  | some d => (s.bump K.doms.TXN_RELAYED).drvSend drvTxnRelay (some d) msg

/-- Send the next message of transaction `k` and keep it (R271, R291). -/
def State.txnSend (s : State) (k type : Nat) (final : Bool) (body : List Byte) : State :=
  match s.txn? k with
  | none => s
  | some t =>
    let msg := nbHeader type t.pri final (k % 2 ^ 32) t.nSent body.length ++ body
    (s.modTxnRec k fun t => { t with sent := t.sent ++ [msg], nSent := t.nSent + 1 }).txnEmit k t msg

/-- An ANSWER body (R275). -/
def answerBody (outcome cause expected nLegs nServed nDelayed nRefused : Nat) : List Byte :=
  beBytes 1 outcome ++ beBytes 1 cause ++ beBytes 2 0 ++ beBytes 4 expected ++ beBytes 4 nLegs ++ beBytes 4 nServed ++
    beBytes 4 nDelayed ++ beBytes 4 nRefused

/-- An ANSWER outside any transaction (R274, R291, R292): it is the only message, so FINAL is set. -/
def State.strayAnswer (s : State) (session pri id cause : Nat) : State :=
  let body := answerBody outRefused cause 0 0 0 0 0
  (s.eventC 10 0x09 pri).nbSend session pri (nbHeader msgAnswer pri true id 0 body.length ++ body)

/-- A result record (R276). -/
def resultRecord (target outcome cause info : Nat) (payload : List Byte) : List Byte :=
  beBytes 4 target ++ beBytes 1 outcome ++ beBytes 1 cause ++ beBytes 2 payload.length ++ beBytes 4 info ++ payload

/-- The response of a leg: its fragments in order, at most 4,096 bytes (R276, R286). -/
def Leg.responseBytes (l : Leg) : List Byte := (l.response.flatMap (·.2)).take 4096

/-- The final record of a leg (R276). -/
def Leg.finalRecord (l : Leg) : List Byte :=
  match l.phase with
  | .ended o c =>
    let done := o = outCompleted || o = outTooLate
    resultRecord l.target o c (if done then l.commitMs else if c = causeRoamed then l.movedTo.getD 0 else 0)
      (if done then l.responseBytes else [])
  | _ => []

/-- Count a leg's outcome and cause (R303). -/
def State.countLeg (s : State) (pri outcome cause : Nat) : State :=
  let s := s.bump (K.outc.OUTCOME pri outcome)
  if cause = 0 then s else s.bump (K.caus.CAUSE pri (cause - 1))

/-- The length at which a RESPONSE message closes (R290, R413). -/
def State.aggLimit (s : State) (k : Nat) (t : Txn) : Nat :=
  match servedFor k with
  | none => min (s.rd (K.cls.AGG_BYTES t.pri)) (s.nbLimit t.session)
  | some _ => s.rd (K.cls.AGG_BYTES t.pri)

/-- Send the open RESPONSE message, if it holds a record. -/
def State.flushOpen (s : State) (k : Nat) (final : Bool) : State :=
  match s.txn? k with
  | none => s
  | some t =>
    if t.open_.isEmpty then s
    else (s.modTxnRec k fun t => { t with open_ := [], openSince := none }).txnSend k msgResponse final t.open_.flatten

/-- Pack a record (R290): the open message closes before a record that would overflow it. -/
def State.packRecord (s : State) (k : Nat) (r : List Byte) : State :=
  match s.txn? k with
  | none => s
  | some t =>
    let s := if s.aggLimit k t < 12 + t.open_.flatten.length + r.length then s.flushOpen k false else s
    s.modTxnRec k fun t => { t with open_ := t.open_ ++ [r], openSince := some (t.openSince.getD s.now) }

/-! The idempotence cache (R291, R293). -/

/-- Bytes of the messages kept for ended transactions. -/
def State.cacheBytes (s : State) : Nat :=
  s.txn.txns.foldl (fun n t => if t.2.cachedTo.isSome then n + t.2.sent.flatten.length else n) 0

/-- The cached transaction with messages that ended first. -/
def State.oldestCached (s : State) : Option Nat :=
  (s.txn.txns.foldl (fun (b : Option (Nat × Nat)) t =>
    if t.2.cachedTo.isSome && !t.2.sent.isEmpty then
      match b with
      | some (k, e) => if t.2.endedAt < e then some (t.1, t.2.endedAt) else some (k, e)
      | none => some (t.1, t.2.endedAt)
    else b) none).map (·.1)

/-- Free the messages of the oldest cached transactions down to CACHE_LIMIT (R293). -/
def State.evict (s : State) : Nat → State
  | 0 => s
  | n + 1 =>
    if s.cacheBytes ≤ s.rd K.txn.CACHE_LIMIT then s
    else match s.oldestCached with
      | none => s
      | some k => ((s.modTxnRec k fun t => { t with sent := [], evicted := true }).bump K.txns.CACHE_EVICTED).evict n

/-- The body of an ABORT_RESULT (R298). -/
def Txn.abortBody (t : Txn) (nAborted : Nat) : List Byte :=
  let done := (t.legs.filter fun l => match l.phase with
    | .ended o _ => o = outCompleted || o = outTooLate
    | _ => false).length
  beBytes 1 (if nAborted = 0 then outTooLate else outAborted) ++ beBytes 1 (if t.evicted then causeEvicted else causeNone) ++
    beBytes 2 0 ++ beBytes 4 nAborted ++ beBytes 4 done ++
    (if t.many then [] else t.legs.flatMap Leg.finalRecord)

/-- The transaction's last leg has ended (R290, R291, R296): its last messages go out and its record passes to the cache; a
transaction of another device is dropped. -/
def State.finishTxn (s : State) (k : Nat) : State :=
  match s.txn? k with
  | none => s
  | some t =>
    if (servedFor k).isSome then (s.flushOpen k true).modTxn fun e => { e with txns := Tbl.del e.txns k }
    else
      let s := s.flushOpen k (!t.aborting)
      let s := if t.aborting then s.txnSend k msgAbortResult true (t.abortBody t.nAborted) else s
      let order := s.txn.txns.foldl (fun n t => max n (t.2.endedAt + 1)) 1
      let s := s.modTxnRec k fun t =>
        { t with aborting := false, endedAt := order, cachedTo := some (s.now + secTicks (s.rd K.txn.CACHE_TIME)) }
      s.evict s.txn.txns.length

/-! Legs. -/

/-- Leg `j` of a transaction. -/
def Txn.leg? (t : Txn) (j : Nat) : Option Leg := t.legs[j]?

/-- Change leg `j` of transaction `k`. -/
def State.modLeg (s : State) (k j : Nat) (f : Leg → Leg) : State :=
  s.modTxnRec k fun t => { t with legs := t.legs.modify j f }

/-- Leg `j` of transaction `k`. -/
def State.leg? (s : State) (k j : Nat) : Option Leg := (s.txn? k).bind fun t => t.leg? j

/-- An MPDU carries a fragment of the leg. -/
def DownKind.ofLeg (k j : Nat) : DownKind → Bool
  | .fragment k' j' _ _ => k == k' && j == j'
  | _ => false

/-- An exchange of the leg is past the point of no return (R295). -/
def State.legBeyond (s : State) (k j : Nat) : Bool :=
  s.mac.queue.any fun d => d.kind.ofLeg k j &&
    (match d.frame.bind s.frame? with
     | some f => s.beyond f
     | none => false)

/-- Withdraw the frames of a leg (R295): queued MPDUs go, a frame before its point of no return is cancelled and the MPDUs of
other legs on it are queued again. -/
def State.withdrawLeg (s : State) (k j : Nat) : State :=
  let fs := s.mac.queue.filterMap fun d => if d.kind.ofLeg k j then d.frame else none
  let s := fs.foldl (fun t f => t.cancelFrame f) s
  s.withdraw fun d => d.kind.ofLeg k j

/-- A leg ends (R276, R288, R294): counted, its record made, and its transaction with it when it was the last. -/
def State.endLeg (s : State) (k j outcome cause : Nat) : State :=
  match s.txn? k, s.leg? k j with
  | some t, some l =>
    if !l.open' then s
    else
      let s := (s.withdraw fun d => d.kind.ofLeg k j).modTxn fun e =>
        { e with waiting := e.waiting.filter fun w => !(w.1 == k && w.2 == j) }
      let s := s.modLeg k j fun l => { l with phase := .ended outcome cause, respDue := none, waits := false }
      let s := if (servedFor k).isNone then s.countLeg t.pri outcome cause else s
      let s := if outcome = outCompleted || outcome = outTooLate then s.eventC 10 0x07 t.pri else s
      let s := if outcome = outRefused then s.eventC 10 0x04 t.pri else s
      let fin := ((s.leg? k j).map Leg.finalRecord).getD []
      let s := if t.aborting && !t.many && (servedFor k).isNone then s else s.packRecord k fin
      match s.txn? k with
      | some t' =>
        if t'.openLegs.isEmpty then s.finishTxn k
        else if t'.aggTime = 0 then s.flushOpen k false
        else s
      | none => s
  | _, _ => s

/-- The leg has committed (R287, R294): with its result, as the answer to an abort that waited. -/
def State.commitLeg (s : State) (k j : Nat) : State :=
  match s.txn? k with
  | none => s
  | some t =>
    let s := s.modLeg k j fun l => { l with commitMs := (s.now - t.arrived) / 409600 }
    s.endLeg k j (if t.aborting then outTooLate else outCompleted) causeNone

/-! Admission of a leg (R279–R281). -/

/-- What the judgement of a leg says. -/
inductive Verdict where
  /-- line work may start -/
  | served
  /-- it waits: cause and expected ticks -/
  | delayed (cause ticks : Nat)
  /-- it is refused -/
  | refused (cause : Nat)
  deriving DecidableEq, Repr

/-- The entry that a global address names on this device. -/
def State.legEntry (s : State) (target : Nat) : Option Nat :=
  if target / 2 ^ 22 = s.domain.number then s.epAt (target / 2 ^ 16 % 64) (target % 2 ^ 16) else none

/-- The slots that the frames of entry `i` need (R279 step 2, R317): its own, and that of the first hop of its route. -/
def State.slotsReady (s : State) (i : Nat) : Bool :=
  s.slotUsable (s.linkSlot i) &&
    (match (s.ep i).route with
     | some (a :: _ :: _) =>
       (match s.epAt (s.ep i).seg a with
        | some h => s.slotUsable (s.linkSlot h)
        | none => true)
     | _ => true)

/-- The endpoint holds downlinks back now (R279 steps 3 and 4). -/
def State.epVerdict (s : State) (i pri : Nat) : Option Verdict :=
  let e := s.ep i
  if e.adrift then some (.delayed causeAdrift (secTicks (s.holdLeft e)))
  else if s.asleep i then
    if pri ≤ 1 && s.wakePossible i then some (if s.wakeWithin i then .served else .refused causeAsleep)
    else some (.delayed causeAsleep (s.nextWindow i - s.now))
  else none

/-- Steps 1 to 4 of R279 for entry `i`; none where none of them decides. -/
def State.entryVerdict (s : State) (i pri : Nat) : Option Verdict :=
  let e := s.ep i
  if e.state = epExpired then some (.refused (if e.movedTo.isSome then causeRoamed else causeNoRoute))
  else if !s.segEnabled e.seg || e.route.isNone then some (.refused causeNoRoute)
  else if !s.slotsReady i then some (.refused causeKey)
  else s.epVerdict i pri

/-- Steps 1 to 4 of R279 for a target. -/
def State.earlyVerdict (s : State) (target pri : Nat) : Option Verdict :=
  match s.legEntry target with
  | none => some (.refused causeNoRoute)
  | some i => s.entryVerdict i pri

/-- A refusal of a downlink to entry `i` for want of a usable path, the entry being live, is counted in NO_ROUTE (R240). -/
def State.countRouteless (s : State) (i : Option Nat) : State :=
  match i with
  | none => s
  | some i =>
    let e := s.ep i
    if e.state ≠ epExpired && s.segEnabled e.seg && e.route.isNone then s.bump (K.segs.NO_ROUTE e.seg) else s

/-- A leg that is judged again is refused (R240, R279, R288). -/
def State.refuseLeg (s : State) (k j cause : Nat) : State :=
  (s.countRouteless ((s.leg? k j).bind (·.entry))).endLeg k j outRefused cause

/-- Tokens of class `c` now, in 1/409,600,000 token (R281). -/
def State.tokensNow (s : State) (c : Nat) : Nat :=
  min (s.rd (K.cls.QUOTA c) * 409600000) (Tbl.atD s.txn.tokens c 0 + s.rd (K.cls.QUOTA c) * (s.now - s.txn.tokensAt))

/-- Bring the buckets up to now. -/
def State.refill (s : State) : State :=
  let full := [1, 2, 3].map fun c => (c, s.tokensNow c)
  s.modTxn fun e => { e with tokens := full, tokensAt := s.now }

/-- Take `n` tokens of class `c`, as many as there are. -/
def State.takeTokens (s : State) (c n : Nat) : State :=
  if c = 0 then s
  else s.refill.modTxn fun e => { e with tokens := Tbl.upd e.tokens c fun v => v - n * 409600000 }

/-- Fragments that a leg still has to send. -/
def Leg.left (l : Leg) : Nat := l.frags - l.acked.length

/-- The bridged downlinks of class `c` that wait for tokens, oldest first. -/
def State.bridgedWaiting (s : State) (c : Nat) : List Down := s.mac.queue.filter fun d => d.pri == c && d.held == some causeQuota

/-- Tokens that the legs and bridged downlinks waiting in class `c` need. -/
def State.tokensWanted (s : State) (c : Nat) : Nat :=
  s.txn.waiting.foldl (fun n w =>
    match s.txn? w.1, s.leg? w.1 w.2 with
    | some t, some l => if t.pri = c then n + l.left else n
    | _, _ => n) (s.bridgedWaiting c).length

/-- Open legs of class `c`. -/
def State.openLegs (s : State) (c : Nat) : Nat :=
  s.txn.txns.foldl (fun n t => if t.2.pri = c && t.2.cachedTo.isNone then n + t.2.openLegs.length else n) 0

/-- The class limits (R280, R281) for a leg of `n` fragments. -/
def State.classVerdict (s : State) (c n : Nat) : Verdict :=
  let need := (s.tokensWanted c + n) * 409600000
  let have' := s.tokensNow c
  if c = 0 then .served
  else if c = 3 then
    if have' < n * 409600000 then .refused causeQuota
    else if s.rd (K.cls.QUEUE_LIMIT 3) ≤ s.openLegs 3 then .refused causeQueueFull
    else .served
  else if need ≤ have' then .served
  else .delayed causeQuota (ceilDiv (need - have') (s.rd (K.cls.QUOTA c)))

/-- R279: the verdict on a leg of `n` fragments with a deadline; `quota` tells whether the class limits apply. -/
def State.legVerdict (s : State) (target pri n deadline : Nat) (quota : Bool) : Verdict :=
  match (s.earlyVerdict target pri).getD (if quota then s.classVerdict pri n else .served) with
  | .delayed c t => if deadline < s.now + t then .refused c else .delayed c t
  | v => v

/-! Line work of a leg (R284, R285, R288). -/

/-- The largest fragment of a leg (R285). -/
def State.fragMax (s : State) (pri : Nat) (i : Nat) : Nat :=
  let m := s.rd (K.cls.FRAG_MAX pri)
  if pri = 0 && s.hasLane i then min m (if s.tagLen (s.ep i).seg = 16 then 222 else 230) else m

/-- The number of fragments of a payload (R285). -/
def fragCount (len size : Nat) : Nat := max 1 (ceilDiv len size)

/-- The leg's route has more than one hop (R287). -/
def State.routed (s : State) (i : Nat) : Bool :=
  match (s.ep i).route with
  | some r => 2 ≤ r.length
  | none => false

/-- The body of request fragment `q` (R242, R284). -/
def fragBody (op tag q size : Nat) (last receipt : Bool) (payload : List Byte) : List Byte :=
  leBytes 1 0 ++ leBytes 5 (op + tag * 2 ^ 8 + q * 2 ^ 24 + boolNat last * 2 ^ 32 + boolNat receipt * 2 ^ 33) ++
    (payload.drop (q * size)).take size

/-- Queue every request fragment of the leg that is not acknowledged (R288). -/
def State.sendFragments (s : State) (k j : Nat) : State :=
  match s.txn? k, s.leg? k j with
  | some t, some l =>
    match l.entry with
    | none => s
    | some i =>
      let lane := t.pri == 0 && s.hasLane i
      let todo := (List.range l.frags).filter fun q => !l.acked.contains q
      let s := s.modLeg k j fun l => { l with phase := .active, respDue := none }
      todo.foldl (fun u q =>
        let last := q + 1 == l.frags
        u.toEntry i 1 t.pri (.fragment k j q last)
          (fragBody t.op l.tag q l.fragMax last (t.op == 1 && s.routed i) t.payload) lane) s
  | _, _ => s

/-- A leg may start: it takes its tokens, or waits for them in admission order, or is refused for want of them (R280, R281). -/
def State.startLeg (s : State) (k j : Nat) : State :=
  match s.txn? k, s.leg? k j with
  | some t, some l =>
    if (servedFor k).isSome then s.sendFragments k j
    else match s.classVerdict t.pri l.left with
      | .refused c => if c = causeQueueFull then (s.takeTokens t.pri l.left).sendFragments k j else s.endLeg k j outRefused c
      | .delayed c _ =>
        (s.modLeg k j fun l => { l with phase := .delayed c, waits := true }).modTxn fun e =>
          { e with waiting := e.waiting ++ [(k, j)] }
      | .served => (s.takeTokens t.pri l.left).sendFragments k j
  | _, _ => s

/-- A leg that waited for its endpoint is judged again and starts when nothing holds it (R222, R227). -/
def State.resumeLeg (s : State) (k j : Nat) : State :=
  match s.txn? k, s.leg? k j with
  | some t, some l =>
    match l.phase, l.entry with
    | .delayed c, some i =>
      if c = causeQuota then s
      else match s.entryVerdict i t.pri with
        | some (.delayed c _) => s.modLeg k j fun l => { l with phase := .delayed c }
        | some (.refused c) => s.refuseLeg k j c
        | _ => s.startLeg k j
    | _, _ => s
  | _, _ => s

/-- The open legs of entry `i`, class by class and in order of arrival within a class. -/
def State.legsOf (s : State) (i : Nat) : List (Nat × Nat) :=
  let all := s.txn.txns.flatMap fun t =>
    (t.2.legs.zipIdx.filter fun l => l.1.open' && l.1.entry == some i && l.1.movedTo.isNone).map fun l => (t.2.pri, t.2.arrived, t.1, l.2)
  (all.insertionSort fun a b => a.1 < b.1 ∨ (a.1 = b.1 ∧ a.2.1 ≤ b.2.1)).map fun x => (x.2.2.1, x.2.2.2)

/-- Every leg that waits for entry `i`, but for tokens, waits for it as `ADRIFT` from now on (R227). -/
def State.holdLegs (s : State) (i : Nat) : State :=
  (s.legsOf i).foldl (fun t l => t.modLeg l.1 l.2 fun x => match x.phase with
    | .delayed c => if c = causeQuota then x else { x with phase := .delayed causeAdrift }
    | _ => x) s

/-! Bridged downlinks (R252). A bridged downlink counts as one request fragment, and in its class it waits for tokens behind the legs
(DESIGN CHOICE, assumption log, entry 58). -/

/-- A bridged downlink to entry `i` is dropped (R240, R252). -/
def State.dropBridge (s : State) (d : Down) : State :=
  ((s.countRouteless d.entry).modMac fun m => { m with queue := m.queue.filter fun x => x.id ≠ d.id }).bump (K.segs.BRIDGE_DROP d.seg)

/-- A bridged downlink goes on the line. -/
def State.startBridge (s : State) (d : Down) (i : Nat) : State :=
  ((s.takeTokens d.pri 1).modDown d.id fun x => { x with held := none }).callWake i d.pri

/-- A bridged downlink is judged as any other of its class (R252, R279–R281): it goes, is held back, or is dropped. -/
def State.judgeBridge (s : State) (d : Down) : State :=
  match d.entry with
  | none => s.dropBridge d
  | some i => match (s.entryVerdict i d.pri).getD (s.classVerdict d.pri 1) with
    | .refused _ => s.dropBridge d
    | .delayed c _ => s.modDown d.id fun x => { x with held := some c }
    | .served => s.startBridge d i

/-- Release the legs and bridged downlinks that waited for entry `i`, in class order (R221, R227). -/
def State.resumeLegs (s : State) (i : Nat) : State :=
  let s := (s.legsOf i).foldl (fun t l => t.resumeLeg l.1 l.2) s
  (s.mac.queue.filter fun d => d.entry == some i && d.held.any fun c => c != causeQuota).foldl (fun t d => t.judgeBridge d) s

/-- An attempt of a leg has failed (R288): it is retried under R279 steps 1 to 4, or ends. A waiting abort takes its record
instead. -/
def State.endTry (s : State) (k j cause : Nat) : State :=
  match s.txn? k, s.leg? k j with
  | some t, some l =>
    if !l.open' || t.aborting then s
    else if l.attempts = l.retries then (s.withdrawLeg k j).endLeg k j outAbandoned cause
    else
      let s := (s.withdrawLeg k j).modLeg k j fun l =>
        { l with attempts := l.attempts + 1, respDue := none, acked := if cause = causeNoResponse then [] else l.acked }
      match (match l.entry with | some i => s.entryVerdict i t.pri | none => s.earlyVerdict l.target t.pri) with
      | some (.refused c) => s.refuseLeg k j c
      | some (.delayed c _) => s.modLeg k j fun l => { l with phase := .delayed c }
      | _ => s.sendFragments k j
  | _, _ => s

/-- A request fragment was acknowledged (R287, R288). -/
def State.fragAcked (s : State) (k j q : Nat) (last : Bool) : State :=
  match s.txn? k, s.leg? k j with
  | some t, some l =>
    if !l.open' then s
    else
      let s := s.modLeg k j fun l => { l with acked := if l.acked.contains q then l.acked else l.acked ++ [q] }
      if !last then s
      else
        let s := s.modLeg k j fun l =>
          { l with delivered := true, respDue := some (s.now + msTicks (s.rd K.txn.RESP_WAIT)) }
        match l.entry with
        | some i => if t.op = 1 && !s.routed i then s.commitLeg k j else s
        | none => s
  | _, _ => s

/-- An MPDU of the leg was abandoned (R203, R288). -/
def State.fragAbandoned (s : State) (k j : Nat) : State := s.endTry k j causeNotDelivered

/-- Refuse every open leg of entry `i` (R213, R227): only those that satisfy `p`. -/
def State.refuseLegs (s : State) (i cause : Nat) (p : Leg → Bool) : State :=
  (s.legsOf i).foldl (fun t l =>
    match t.leg? l.1 l.2 with
    | some x => if p x then (t.withdrawLeg l.1 l.2).endLeg l.1 l.2 outRefused cause else t
    | none => t) s

end Sys2Proof.Machine
end

