-- ==== Sys2Proof/Machine/Assoc.lean ====
section
/-! DEFINITION. Association, leases, MAC commands and sleep schedules: the life of an endpoint entry (R209–R227). -/

namespace Sys2Proof.Machine

/-! The life of an entry (R213). -/

/-- Bridged MPDUs of entry `i` that wait, or all that do with `i` absent. -/
def bridgedTo (i : Nat) (d : Down) : Bool := d.kind == .bridged && d.entry == some i

/-- Drop the bridged MPDUs that wait for entry `i` and count them (R252). -/
def State.dropBridged (s : State) (i : Nat) : State :=
  let n := (s.mac.queue.filter fun d => d.frame.isNone && bridgedTo i d).length
  (s.withdraw (bridgedTo i)).bumpBy (K.segs.BRIDGE_DROP (s.ep i).seg) n

/-- The frames that carry an MPDU of entry `i` and are before their point of no return are cancelled, and every MPDU for the entry
that is then on no frame is withdrawn. -/
def State.withdrawEntry (s : State) (i : Nat) : State :=
  let fs := s.mac.queue.filterMap fun d => if d.entry = some i then d.frame else none
  let s := fs.foldl (fun t f => t.cancelFrame f) s
  s.withdraw fun d => d.entry == some i

/-- Entry `i` enters `EXPIRED` (R213): its downlinks are refused with a cause, its pages freed, and the expiry is counted. -/
def State.expireWith (s : State) (i cause : Nat) : State :=
  let g := (s.ep i).seg
  let s := ((s.refuseLegs i cause fun _ => true).dropBridged i).withdrawEntry i
  let s := (s.freeEpPages i).modEp i fun e =>
    { e with
      state := epExpired, expired := s.now, route := none, routeSent := none, allocReq := none, sounding := none, echo := none,
      nextSleep := none, window := none, listen := none, via := none, holdEnd := none, marked := false }
  let s := ((s.bump (K.segs.LEASE_EXPIRED g)).countAssociated g).journalEp i
  let s := s.modLine fun l => { l with wakes := Tbl.del l.wakes i }
  s.recomputeRoutes g

/-- Entry `i` enters `EXPIRED`, its downlinks refused with `NO_ROUTE` (R213). -/
def State.expire (s : State) (i : Nat) : State := s.expireWith i causeNoRoute

/-- Entry `i` returns to `FREE` (R213). -/
def State.freeEntry (s : State) (i : Nat) : State :=
  let g := (s.ep i).seg
  let s := (((s.refuseLegs i causeNoRoute fun _ => true).dropBridged i).withdrawEntry i).freeEpPages i
  let s := (s.modEp i fun e => { Ep.reset with unusable := e.unusable }).journalEp i
  (s.modMac fun m => { m with eps := Tbl.store Ep.reset m.eps i (Tbl.atD m.eps i Ep.reset) }).countAssociated g

/-- An entry in `ASSOCIATING` becomes `ASSOCIATED` (R213). -/
def State.associate (s : State) (i : Nat) : State :=
  if (s.ep i).state = epAssociating then
    ((s.modEp i fun e => { e with state := epAssociated }).countAssociated (s.ep i).seg).journalEp i
  else s

/-- LEASE_EXPIRY (R213): LEASE_END has passed. -/
def State.leaseExpiry (s : State) (i : Nat) : State :=
  if (s.ep i).state = epAssociated then (s.atDeadline (s.tickOf ((s.ep i).leaseEnd * dtSecond))).expire i else s

/-- LEASE_EXPIRY (R213). -/
def execLeaseExpiry (entry : Nat) (s : State) : Out := onCore (s.entryCore entry) s (s.leaseExpiry entry)

/-- ADDRESS_HOLD_EXPIRY (R213): ADDRESS_HOLD seconds after expiry the entry is FREE. -/
def State.holdExpiry (s : State) (i : Nat) : State :=
  if (s.ep i).state = epExpired then
    (s.atDeadline ((s.ep i).expired + secTicks (s.limit (s.ep i).seg 4))).freeEntry i
  else s

/-- ADDRESS_HOLD_EXPIRY (R213). -/
def execAddressHoldExpiry (entry : Nat) (s : State) : Out := onCore (s.entryCore entry) s (s.holdExpiry entry)

/-- Ticks of `n` beacon periods of segment `g` at the present mains period. -/
def State.periodTicks (s : State) (g n : Nat) : Nat := s.slotTicks (24 * (s.seg g).region.getD 0 8 * n)

/-- RELAYED_ASSOC_TIMEOUT (R249): 4 beacon periods after a grant through a repeater without an inner MPDU. -/
def State.relayedTimeout (s : State) (i : Nat) : State :=
  let e := s.ep i
  if e.state = epAssociating && e.via.isSome then (s.atDeadline (e.granted + s.periodTicks e.seg 4)).freeEntry i else s

/-- RELAYED_ASSOC_TIMEOUT (R249). -/
def execRelayedAssocTimeout (entry : Nat) (s : State) : Out := onCore (s.entryCore entry) s (s.relayedTimeout entry)

/-! The association request (R210–R212). -/

/-- The fields of an association request's body (R210). -/
structure AssocReq where
  eui : Nat
  prev : Nat
  lease : Nat
  bMax : Nat
  rateMax : Nat
  features : Nat
  laneSf : Nat
  lrMax : Nat
  drift : Nat
  deriving DecidableEq, Repr

/-- Read an association request of 18 bytes or more (R210). -/
def assocRead (b : List Byte) : Option AssocReq :=
  if b.length < 18 then none
  else
    let v := ofLe (b.take 18)
    some ⟨field v 0 64, field v 64 16, field v 80 32, field v 112 4, field v 116 3, field v 120 8, field v 128 4,
      field v 132 4, field v 136 8⟩

/-- A short address that may be granted (R211). -/
def assignable (a : Nat) : Bool := 1 ≤ a && a ≤ 0xFFEF

/-- The addresses of segment `g` that are not free. -/
def State.usedAddrs (s : State) (g : Nat) : List Nat :=
  (s.mac.eps.filter fun e => e.2.seg == g && e.2.state != epFree).map (·.2.addr)

/-- The lowest number from `a` that is not in a list, within `n` tries. -/
def lowestFree (used : List Nat) : Nat → Nat → Option Nat
  | 0, _ => none
  | n + 1, a => if used.contains a then lowestFree used n (a + 1) else some a

/-- The lowest free entry index (R211, R216). -/
def State.freeIndex (s : State) : Option Nat :=
  lowestFree ((s.mac.eps.filter fun e => e.2.state != epFree || e.2.unusable).map (·.1)) 131072 0

/-- The lease that a request gets (R211). -/
def State.leaseFor (s : State) (g asked : Nat) : Nat :=
  min 2592000 (max 3600 (if asked = 0 then s.limit g 3 else asked))

/-- The address by rules 2 and 3 of R211, for entry `i`. -/
def State.pickAddr (s : State) (g : Nat) (r : AssocReq) (i : Nat) : Option (Nat × Nat) :=
  let used := s.usedAddrs g
  if assignable r.prev && !used.contains r.prev then some (i, r.prev)
  else match lowestFree used 0xFFEF 1 with
    | some a => if assignable a then some (i, a) else none
    | none => none

/-- The entry and the address that a grant gives (R211): the entry of the EUI-64 on this segment with its address, else a free one
(or, when none is left, the one that holds the EUI-64 on another segment) with PREV_ADDR or the lowest free address. -/
def State.grantPlace (s : State) (g : Nat) (r : AssocReq) : Option (Nat × Nat) :=
  match s.epOfEuiOn g r.eui with
  | some i => some (i, (s.ep i).addr)
  | none => match s.freeIndex, s.epOfEui r.eui with
    | some i, _ => s.pickAddr g r i
    | none, some i => s.pickAddr g r i
    | none, none => none

/-- The payload of a key block (R320): the context and the key. -/
def State.keyContext (s : State) (g cls slot overlap activate : Nat) : List Byte :=
  let k := (s.slot slot).key
  leBytes 8 (packBits [(16, s.nid g), (2, cls), (1, boolNat (k.length == 32)), (5, 0), (8, overlap), (32, activate)]) ++ k

/-- A key block (R320): wrapped under a join key (form 0), or plain without one (form 1). -/
def State.keyBlock (s : State) (jk : Option (List Byte)) (g cls slot overlap activate : Nat) : List Byte :=
  let x := s.keyContext g cls slot overlap activate
  match jk with
  | some k => leBytes 1 0 ++ keyWrap k x
  | none => leBytes 1 1 ++ x

/-- The rollover of segment `g` delivers or overlaps: the class 2 block is given out. -/
def State.nextKeyOut (s : State) (g : Nat) : Bool := s.rd (K.segs.KEY_PHASE g) != phaseNone

/-- The key blocks of a granted response, under the join key that admitted it (R320). -/
def State.grantBlocks (s : State) (g : Nat) (jk : Option (List Byte)) : List Byte :=
  if jk.isSome then
    let (t, o) := (s.seg g).rollover.getD (0, 0)
    s.keyBlock jk g 1 g 0 0 ++ (if s.nextKeyOut g then s.keyBlock jk g 2 (64 + g) o t else [])
  else []

/-- The body of an association response (R212). -/
def assocBody (eui result addr lease laneSf lrMode lrSf : Nat) : List Byte :=
  leBytes 17 (packBits [(64, eui), (8, result), (16, addr), (32, lease), (4, laneSf), (2, lrMode), (2, 0), (4, lrSf), (4, 0)])

/-- LR_MODE of a waveform (R212). -/
def lrModeOf : Wave → Nat
  | .s1 => 1
  | .s2 => 2
  | _ => 0

/-- The join key of an EUI-64 (R308, R318, R319, R335): the vault unwraps its record under the slot of ADMIT_KEK_SLOT, which counts a use; a
failure is counted. While the vault is locked out the lookup fails. -/
def State.joinKey (s : State) (eui : Nat) : Option (List Byte) × State :=
  match Tbl.at? s.keys.admission eui with
  | none => (none, s)
  | some w =>
    let kek := s.rd K.adm.ADMIT_KEK_SLOT
    if s.keys.vaultLocked then (none, s)
    else if !s.slotUsable kek then (none, s.bump K.adm.ADMIT_UNWRAP_FAIL)
    else
      let jk := keyUnwrap (s.slot kek).key (w.take (if s.rd K.adm.ADMIT_JK_BITS = 128 then 24 else 40))
      let s := s.slotUse kek
      (jk, if jk.isSome then s else s.bump K.adm.ADMIT_UNWRAP_FAIL)

/-- An EUI-64 is admitted (R318): always while ADMIT_MODE is OPEN, else where its join key unwraps. The key comes with it. -/
def State.admitted (s : State) (eui : Nat) : Bool × Option (List Byte) × State :=
  if s.rd K.adm.ADMIT_MODE = 0 then (true, none, s)
  else
    let (jk, s) := s.joinKey eui
    (jk.isSome, jk, s)

/-- Queue an association response (R212): alone in an allocation of its own, or through the repeater that forwarded the request. -/
def State.sendAssocResponse (s : State) (g : Nat) (entry via : Option Nat) (body : List Byte) : State :=
  let route := match via with
    | some v => (s.ep v).route.getD [(s.ep v).addr]
    | none => []
  let id := s.mac.nextId
  let s := s.enqueue ⟨0, g, entry, 5, 1, .assocResponse, body, none, 0, none, false, route, [], none⟩
  if via.isSome then s else s.modSeg g fun x => { x with responses := x.responses ++ [(id, 0)] }

/-- Withdraw an association response of entry `i` that is still queued or being retried (R211). -/
def State.withdrawResponse (s : State) (i : Nat) : State :=
  let fs := s.mac.queue.filterMap fun d => if d.entry = some i && d.kind == .assocResponse then d.frame else none
  let s := fs.foldl (fun t f => t.cancelFrame f) s
  let ids := (s.mac.queue.filter fun d => d.entry == some i && d.kind == .assocResponse).map (·.id)
  let s := s.withdraw fun d => ids.contains d.id
  s.modMac fun m => { m with segs := Tbl.mapVals m.segs fun _ x => { x with responses := x.responses.filter fun r => !ids.contains r.1 } }

/-- The MPDUs for entry `i` when its link starts afresh (R204, R211): commands go, fragments of open transactions take new SEQs. -/
def State.restartQueue (s : State) (i : Nat) : State :=
  let s := s.withdraw fun d => d.entry == some i && (match d.kind with
    | .fragment _ _ _ _ => false
    | .bridged => false
    | _ => true)
  let f := fun (d : Down) =>
    if d.entry = some i && d.frame.isNone then { d with seq := none, tries := 0 } else d
  s.modMac fun m => { m with queue := m.queue.map f }

/-- The entry as a grant leaves it (R211, R217): the link starts afresh. -/
def State.grantEp (s : State) (g addr : Nat) (r : AssocReq) (via : Option Nat) (snr : Nat) (wave : Wave) (sf : Nat) (old : Ep) : Ep :=
  let lease := s.leaseFor g r.lease
  { Ep.reset with
    eui := r.eui, addr := addr, seg := g, state := epAssociating, lrMode := lrModeOf wave,
    lrSf := if lrModeOf wave = 0 then 0 else sf - 7,
    laneSf := if 7 ≤ r.laneSf && r.laneSf ≤ 11 then r.laneSf - 7 else 7,
    bMax := r.bMax, rateMax := r.rateMax,
    driftBound := if r.drift = 0 then s.limit g 7 else r.drift,
    leaseEnd := (dtSec s.dt + lease) % 2 ^ 32, lease := lease, features := r.features,
    snrs := if via.isSome then [] else [snr], via := via, granted := s.now, lineTag := old.lineTag }

/-- Grant entry `i` with address `addr` (R211, R212). -/
def State.grant (s : State) (g i addr : Nat) (r : AssocReq) (q : Request) (jk : Option (List Byte)) : State :=
  let old := s.ep i
  let s := ((s.withdrawResponse i).restartQueue i).freeEpPages i
  let e := s.grantEp g addr r q.via q.snr q.wave q.sf old
  let s := (s.modEp i fun _ => e).bump (K.segs.ASSOC_GRANTED g)
  let s := ((s.countAssociated g).journalEp i).recomputeRoutes g
  let s := if old.state = epFree || old.seg = g then s else s.countAssociated old.seg
  s.sendAssocResponse g (some i) q.via
    (assocBody r.eui 0 addr e.lease (if e.laneSf = 7 then 0 else e.laneSf + 7) e.lrMode (if e.lrMode = 0 then 0 else q.sf) ++
      s.grantBlocks g jk)

/-- Refuse a request with a RESULT (R211, R212). -/
def State.refuseAssoc (s : State) (g result : Nat) (r : AssocReq) (q : Request) : State :=
  (s.bump (K.segs.ASSOC_REFUSED g)).sendAssocResponse g none q.via
    (assocBody r.eui result 0xFFFE 0 0 (lrModeOf q.wave) (if lrModeOf q.wave = 0 then 0 else q.sf))

/-- What a request comes to. -/
inductive AssocOutcome where
  | malformed
  | refused (result : Nat)
  | granted (entry addr : Nat) (jk : Option (List Byte))
  deriving DecidableEq, Repr

/-- Decide a request (R210, R211, R318): the outcome and the state after the join key's unwrap. -/
def State.assocDecide (s : State) (g : Nat) (body : List Byte) : AssocOutcome × State :=
  match assocRead body with
  | none => (.malformed, s)
  | some r =>
    if s.limit g 5 = 0 then (.refused 2, s)
    else
      let (ok, jk, s) := s.admitted r.eui
      if !ok then (.refused 2, s)
      else if r.bMax < 2 || 12 < r.bMax || 4 < r.rateMax then (.refused 3, s)
      else match s.grantPlace g r with
        | none => (.refused 1, s)
        | some (i, a) => (.granted i a jk, s)

/-! Leases, allocations, schedules (R209, R215, R219). -/

/-- A committed MAC command with a body of the wrong length is discarded and counted (R209). -/
def State.badCommand (s : State) (i : Nat) : State := s.bump (K.segs.MAC_CMD_BAD (s.ep i).seg)

/-- LEASE_RENEW (R215): LEASE_GRANT answers it. -/
def State.leaseRenew (s : State) (i : Nat) (body : List Byte) : State :=
  if body.length ≠ 4 then s.badCommand i
  else
    let g := (s.ep i).seg
    let lease := s.leaseFor g (ofLe body)
    let stop := (dtSec s.dt + lease) % 2 ^ 32
    ((s.modEp i fun e => { e with leaseEnd := stop, lease := lease }).journalEp i).sendCommand i .command
      (leBytes 1 4 ++ leBytes 4 lease ++ leBytes 4 stop)

/-- LEASE_RENEW (R215). -/
def execLeaseRenew (entry : Nat) (body : List Byte) (s : State) : Out :=
  onCore (s.entryCore entry) s ((s.takeCommitted entry body).leaseRenew entry body)

/-- ALLOC_REQUEST (R209): the link's standing uplink allocation; 0 slots cancel it. -/
def State.allocRequest (s : State) (i : Nat) (body : List Byte) : State :=
  if body.length ≠ 4 then s.badCommand i
  else
    let v := ofLe body
    s.modEp i fun e => { e with allocReq := if field v 0 16 = 0 then none else some (field v 0 16, field v 16 2) }

/-- ALLOC_REQUEST (R209). -/
def execAllocRequest (entry : Nat) (body : List Byte) (s : State) : Out :=
  onCore (s.entryCore entry) s ((s.takeCommitted entry body).allocRequest entry body)

/-- DISASSOCIATE from the endpoint (R213). -/
def State.disassociated (s : State) (i : Nat) (body : List Byte) : State :=
  if body.length ≠ 1 then s.badCommand i
  else if (s.ep i).state = epAssociated || (s.ep i).state = epAssociating then s.expire i else s

/-- DISASSOCIATE (R213). -/
def execDisassociate (entry : Nat) (body : List Byte) (s : State) : Out :=
  onCore (s.entryCore entry) s ((s.takeCommitted entry body).disassociated entry body)

/-- The 6 bytes of a schedule (R219). -/
def Sleep.bytes (x : Sleep) : List Byte := leBytes 2 x.period ++ leBytes 2 x.phase ++ leBytes 1 x.slots ++ leBytes 1 x.check

/-- Read a schedule. -/
def Sleep.read (b : List Byte) : Sleep :=
  let v := ofLe b
  ⟨field v 0 16, field v 16 16, field v 32 8, field v 40 8⟩

/-- The schedule that the coordinator accepts (R219). -/
def Ep.judgeSleep (e : Ep) (x : Sleep) : Sleep :=
  if x.period ≠ 0 && (e.lease < 2 * x.period || !bitOf e.features 2 || x.period ≤ x.phase || x.slots = 0) then
    { x with period := 0 }
  else x

/-- Send a schedule to the endpoint; it takes force once it is acknowledged (R219). -/
def State.sendSleep (s : State) (i : Nat) (x : Sleep) : State :=
  ((s.withdraw fun d => d.kind == .sleepEcho && d.entry == some i).modEp i fun e => { e with echo := some x }).sendCommand i
    .sleepEcho (leBytes 1 5 ++ x.bytes)

/-- SLEEP_SCHEDULE (R219). -/
def State.sleepSchedule (s : State) (i : Nat) (body : List Byte) : State :=
  if body.length ≠ 6 then s.badCommand i else s.sendSleep i ((s.ep i).judgeSleep (Sleep.read body))

/-- SLEEP_SCHEDULE (R219). -/
def execSleepSchedule (entry : Nat) (body : List Byte) (s : State) : Out :=
  onCore (s.entryCore entry) s ((s.takeCommitted entry body).sleepSchedule entry body)

/-- The schedule that an acknowledged echo carried is in force from the first wake instant at least 1 s after the echo's end at tick `stop` (R219). -/
def State.sleepAcked (s : State) (i : Nat) (body : List Byte) (stop : Nat) : State :=
  let x := Sleep.read (body.drop 1)
  let e := { s.ep i with sleep := x }
  let at' : Nat :=
    if x.period = 0 then stop
    else
      let d := ((s.dtOf stop : Int) + dtSecond - s.stepsSince e).toNat
      s.tickOf (((e.nextWake d : Int) + s.stepsSince e).toNat)
  (s.modEp i fun e =>
    { e with sleep := if x.period = 0 then x else e.sleep
             echo := if e.echo = some x then none else e.echo
             nextSleep := if x.period = 0 then none else some (x, at') }).journalEp i

/-- The schedule waiting for its first wake instant becomes the one in force (R219). -/
def State.settleSleep (s : State) (i : Nat) : State :=
  match (s.ep i).nextSleep with
  | some (x, t) =>
    if t ≤ s.now then (s.modEp i fun e => { e with sleep := x, nextSleep := none }).journalEp i else s
  | none => s

/-- An uplink of a sleeper has committed in its served or listen window, or outside both (R221): its downlink service opens. -/
def State.openService (s : State) (i : Nat) : State :=
  let s := s.modEp i fun e => { e with window := e.window.map fun w => (w.1, w.2.1, true) }
  if (s.ep i).adrift then s else s.resumeLegs i

/-- PRESENT (R221, R223): a sleeper outside both windows counts its window from the beacon of the running period. -/
def State.present (s : State) (i : Nat) : State :=
  let e := s.ep i
  let sl := s.sleepNow e
  let s := if sl.period ≠ 0 && s.asleep i && !e.adrift then
      let from' := ((s.seg e.seg).period).getD s.now
      s.modEp i fun e => { e with window := some (from', from' + s.slotTicks sl.slots, true) }
    else s
  s.openService i

/-- PRESENT (R221). -/
def execPresent (entry : Nat) (s : State) : Out := onCore (s.entryCore entry) s ((s.takeCommitted entry []).present entry)

/-- WAKE_WINDOW_END (R221). -/
def State.windowEnd (s : State) (i : Nat) : State :=
  match (s.ep i).window with
  | none => s
  | some (_, b, seen) =>
    let s := (s.atDeadline b).modEp i fun e => { e with window := none }
    if seen then s else s.bump (K.segs.WAKE_MISSED (s.ep i).seg)

/-- WAKE_WINDOW_END (R221). -/
def execWakeWindowEnd (entry : Nat) (s : State) : Out := onCore (s.entryCore entry) s (s.windowEnd entry)

/-- A leg is held for its endpoint: it has nothing under way at the endpoint's side. -/
def Leg.heldLeg (l : Leg) : Bool :=
  match l.phase with
  | .delayed c => c == causeAdrift
  | .active => l.respDue.isNone
  | _ => false

/-- ADRIFT_HOLD_EXPIRY (R227): the held downlinks are refused; `ADRIFT` stays. -/
def State.adriftExpiry (s : State) (i : Nat) : State :=
  match (s.ep i).holdEnd with
  | none => s
  | some t =>
    let s := (s.atDeadline t).modEp i fun e => { e with holdEnd := none }
    (s.refuseLegs i causeAdrift Leg.heldLeg).dropBridged i

/-- ADRIFT_HOLD_EXPIRY (R227). -/
def execAdriftHoldExpiry (entry : Nat) (s : State) : Out := onCore (s.entryCore entry) s (s.adriftExpiry entry)

/-! Commands of the coordinator (R209, R231). -/

/-- LANE_SF_SET (R209): a lane SF from 7 to 11 for an associated endpoint. -/
def State.laneSfSet (s : State) (i sf : Nat) : State :=
  if (s.ep i).state = epAssociated && 7 ≤ sf && sf ≤ 11 then s.sendCommand i .command (leBytes 1 7 ++ leBytes 1 sf) else s

/-- LANE_SF_SET (R209). -/
def execLaneSfSet (entry sf : Nat) (s : State) : Out := onCore (s.entryCore entry) s (s.laneSfSet entry sf)

/-- LONG_REACH_SET (R209): OFDM, S1 or S2 with an SF from 7 to 14. -/
def State.longReachSet (s : State) (i mode sf : Nat) : State :=
  if (s.ep i).state = epAssociated && mode ≤ 2 && 7 ≤ sf && sf ≤ 14 then
    s.sendCommand i .command (leBytes 1 8 ++ leBytes 1 (sf + 16 * mode))
  else s

/-- LONG_REACH_SET (R209). -/
def execLongReachSet (entry mode sf : Nat) (s : State) : Out := onCore (s.entryCore entry) s (s.longReachSet entry mode sf)

/-- The acknowledgement of a command commits: LANE_SF_SET and LONG_REACH_SET apply (R209). -/
def State.commandAcked (s : State) (i : Nat) (body : List Byte) : State :=
  let v := ofLe (body.drop 1)
  if ofLe (body.take 1) = 7 then (s.modEp i fun e => { e with laneSf := field v 0 4 - 7 }).journalEp i
  else if ofLe (body.take 1) = 8 then
    (s.modEp i fun e => { e with lrMode := field v 4 2, lrSf := field v 0 4 - 7 }).journalEp i
  else s

/-- The entry that cursor `u` selects (R231). -/
def State.cursorEntry (s : State) (u : Nat) : Option Nat := s.epAt (s.rd (K.cur.SEGMENT u)) (s.rd (K.cur.SHORT_ADDR u))

/-- A write of DISASSOCIATE of cursor `u` (R231). -/
def State.cursorDisassociate (s : State) (u value : Nat) : WriteResult :=
  if value = 0 then .accept s
  else match s.cursorEntry u with
    | some i =>
      if (s.ep i).state = epAssociated then .accept (s.sendCommand i .disassociate (leBytes 1 10 ++ leBytes 1 2))
      else .refuse .state s
    | none => .refuse .state s

end Sys2Proof.Machine
end

