-- ==== Sys2Proof/Machine/Claims.lean ====
section
/-! DEFINITION. Coupled segments and their claims on the medium (R257–R261). -/

namespace Sys2Proof.Machine

/-- The tick at which domain second `n` begins. -/
def State.secondTick (s : State) (n : Nat) : Nat := s.tickOf (n * dtSecond)

/-- The first and the last tick of a claim's interval in domain second `n` (R260). -/
def State.claimSpan (s : State) (n : Nat) (c : Claim) : Nat × Nat :=
  let a := s.tickOf (n * dtSecond + c.start * (dtSecond / 2 ^ 32))
  (a, a + c.ticks)

/-- The own claim for second `n`: as resolved, else as sent (R259, R261). A claim stands at 2 n as sent and at 2 n + 1 once
resolved. -/
def State.ownClaim (s : State) (g n : Nat) : Option (List Claim) :=
  match Tbl.at? (s.seg g).claims (2 * n + 1) with
  | some c => some c
  | none => Tbl.at? (s.seg g).claims (2 * n)

/-- Segment `g` may use the ticks from `a` up to `b` (R259, R261): while it is coupled, inside what it has claimed for that second (none before its
first claim: assumption log, entry 24). -/
def State.claimAllows (s : State) (g a b : Nat) : Bool :=
  let n := s.dtOf a / dtSecond
  !s.claimTime || (s.coupledTo g).isEmpty ||
    ((s.ownClaim g n).getD []).any fun c => (s.claimSpan n c).1 ≤ a && b ≤ (s.claimSpan n c).2

/-- The enabled members of segment `g`: they send its beacons, broadcasts and association responses (R236). -/
def State.everyone (s : State) (g : Nat) : List Nat := (s.members g).filter s.enabled

/-- N_pre of an S1 or S2 frame on several channels (R99): SWELL_PRE_LEN of the first of them (DESIGN CHOICE, assumption log, entry 54:
they may differ and R100 gives a frame one preamble). -/
def State.swellPre (s : State) (ns : List Nat) : Nat := (s.chan (ns.headD 0)).swell.swellPre

/-- The sub-band, 0 for none, and the SF of the reach beacon of segment `g` (R195). -/
def State.reachOf (s : State) (g : Nat) : Nat × Nat := (field (s.limit g 9) 4 2, field (s.limit g 9) 0 4)

/-- The occupancy of a reach beacon of LEN 255, in slots, where the segment sends one (R195). -/
def State.reachSlots (s : State) (g : Nat) : Nat :=
  let (mode, sf) := s.reachOf g
  if mode = 0 then 0 else s.delaySlots (swellTicks false 0 255 sf (s.swellPre (s.everyone g)))

/-- The starts of the periods of segment `g`, each with its tick, that begin from tick `a` up to tick `b`. -/
def State.periodsIn (s : State) (g a b : Nat) : List Nat :=
  match (s.seg g).period with
  | none => []
  | some p =>
    let n := 24 * (s.seg g).region.getD 0 8
    ((List.range 256).map fun k => s.slotStart g p (n * k)).filter fun t => a ≤ t && t < b

/-- A claim of `n` slots of segment `g` from tick `t` on. -/
def State.claimAt (s : State) (g t n : Nat) (beacon : Bool) : Claim :=
  ⟨dtFrac (s.dtOf t), n, beacon, s.slotEdge g t n - t⟩

/-- The claims of the first intervals of a list that together stay within `room` ticks, and the room left. -/
def takeClaims : Nat → List Claim → List Claim × Nat
  | room, [] => ([], room)
  | room, c :: cs =>
    if c.ticks ≤ room then
      let (xs, left) := takeClaims (room - c.ticks) cs
      (c :: xs, left)
    else ([], room)

/-- The claim that segment `g` makes for second `n` (R259): its beacon regions, and within its share its reach beacons and one run of whole
slots that lies, among the segments coupled, at the place of its key's rank (the choice within the share is the model's, log entry 24). -/
def State.makeClaim (s : State) (g n : Nat) : List Claim :=
  let a := s.secondTick n
  let b := s.secondTick (n + 1)
  let peers := s.coupledTo g
  let share := 1 + peers.length
  let rank := (peers.filter fun x => x < s.nid g).length
  let lead := (s.seg g).region.getD 2 1
  let beacons := (s.periodsIn g a b).map fun t => s.claimAt g t lead true
  let wanted := (s.periodsIn g a b).map fun t => s.claimAt g (s.slotStart g t lead) (s.reachSlots g) false
  let (reach, room) := if s.reachSlots g = 0 then ([], (b - a) / share) else takeClaims ((b - a) / share) wanted
  let first := s.slotEdge g (a + (b - a) * rank / share) 1
  let stop := min (a + (b - a) * (rank + 1) / share) (first + room)
  let count := (stop - first) / s.slotTicks 1
  beacons ++ reach ++ (if count = 0 then [] else [s.claimAt g first count false])

/-- The bytes of a SLOT_MAP body (R260). -/
def State.slotMapBody (s : State) (g n : Nat) (cs : List Claim) : List Byte :=
  beBytes 1 g ++ beBytes 1 0 ++ beBytes 2 cs.length ++ beBytes 4 n ++ beBytes 4 (s.tracker.period / 2 ^ 8) ++
    cs.flatMap fun c => beBytes 4 c.start ++ beBytes 2 (boolNat c.beacon * 2 ^ 15 + c.count % 2 ^ 15)

/-- The devices that own a segment coupled with segment `g`. -/
def State.coupledDevices (s : State) (g : Nat) : List Nat :=
  ((s.coupledTo g).map (· / 64)).eraseDups.filter fun d => d != s.domain.number

/-- SLOT_MAP_SEND (R259): in second N the claim for second N + 2, once. -/
def State.slotMapSend (s : State) (g : Nat) : State :=
  let n := s.dt / dtSecond + 2
  if !s.segEnabled g || !s.claimTime || (s.coupledTo g).isEmpty || (Tbl.at? (s.seg g).claims (2 * n)).isSome ||
      (Tbl.at? (s.seg g).claims (2 * n + 1)).isSome then s
  else
    let cs := (s.makeClaim g n).take 1024
    let s := s.modSeg g fun x => { x with claims := Tbl.ins (Tbl.keep x.claims fun k _ => 2 * n ≤ k + 8) (2 * n) cs }
    (s.coupledDevices g).foldl (fun t d => t.drvSend drvSlotMap (some d) (t.slotMapBody g n cs)) s

/-- SLOT_MAP_SEND (R259). -/
def execSlotMapSend (seg : Nat) (s : State) : Out := onCore 6 s (s.slotMapSend seg)

/-! Resolution (R261). -/

/-- The claim of NID `x` for second `n` as it was sent: an own segment's, or a peer's that came in time. -/
def State.claimOf (s : State) (x n : Nat) : List Claim :=
  if x / 64 = s.domain.number then Tbl.atD (s.seg (x % 64)).claims (2 * n) []
  else match Tbl.at? s.domain.peers (x / 64) with
    | some p => (p.claims.filter fun c => c.1 == x % 64 && c.2.1 == n).flatMap fun c => c.2.2.2
    | none => []

/-- Two spans of ticks overlap. -/
def overlaps (a b : Nat × Nat) : Bool := a.1 < b.2 && b.1 < a.2

/-- The slots of an interval that no span of a list touches, as intervals of one slot each joined where they follow each other. -/
def State.keepSlots (s : State) (g n : Nat) (c : Claim) (others : List (Nat × Nat)) : List Claim × Nat :=
  let a := (s.claimSpan n c).1
  let spans := (List.range c.count).map fun k => (s.slotStart g a k, s.slotStart g a (k + 1))
  let step := fun (x : List Claim × Nat × Bool) (p : Nat × Nat) =>
    if others.any (overlaps p) then (x.1, x.2.1 + 1, false)
    else match x.1.getLast?, x.2.2 with
      | some l, true => (x.1.dropLast ++ [{ l with count := l.count + 1, ticks := l.ticks + (p.2 - p.1) }], x.2.1, true)
      | _, _ => (x.1 ++ [⟨dtFrac (s.dtOf p.1), 1, false, p.2 - p.1⟩], x.2.1, true)
  let out := spans.foldl step ([], 0, false)
  (out.1, out.2.1)

/-- The contention regions of segment `g` that lie in second `n`, as spans. -/
def State.regionsIn (s : State) (g n : Nat) : List (Nat × Nat) :=
  let r := (s.seg g).region
  if r.getD 4 0 = 0 then []
  else (s.periodsIn g (s.secondTick (n - 1)) (s.secondTick (n + 1))).filterMap fun t =>
    let x := (s.slotStart g t (r.getD 3 0), s.slotStart g t (r.getD 3 0 + r.getD 4 0))
    if overlaps x (s.secondTick n, s.secondTick (n + 1)) then some x else none

/-- Pairs of spans that overlap. -/
def clashes (xs ys : List (Nat × Nat)) : Nat := (xs.map fun x => (ys.filter (overlaps x)).length).sum

/-- The earliest own claim of segment `g` that is not resolved and whose second has not begun. -/
def State.openClaim (s : State) (g : Nat) : Option Nat :=
  let cs := (s.seg g).claims
  (cs.find? fun c => c.1 % 2 == 0 && (Tbl.at? cs (c.1 + 1)).isNone && s.dt / dtSecond < c.1 / 2).map fun c => c.1 / 2

/-- CLAIM_RESOLVE (R261), 500 ms before the claimed second begins. -/
def State.claimResolve (s : State) (g : Nat) : State :=
  match s.openClaim g with
  | none => s
  | some n =>
    let s := s.atDeadline (s.secondTick n - msTicks 500)
    let mine := Tbl.atD (s.seg g).claims (2 * n) []
    let peers := s.coupledTo g
    let spansOf := fun (x : Nat) (p : Claim → Bool) => ((s.claimOf x n).filter p).map (s.claimSpan n)
    let lower := (peers.filter fun x => x < s.nid g).flatMap fun x => spansOf x fun _ => true
    let higher := (peers.filter fun x => s.nid g < x).flatMap fun x => spansOf x fun _ => true
    let beacons := peers.flatMap fun x => spansOf x fun c => c.beacon
    let own := (mine.filter (·.beacon)).map (s.claimSpan n)
    let kept := mine.map fun c => if c.beacon then ([c], 0) else s.keepSlots g n c lower
    let s := s.bumpBy (K.segs.YIELDED_SLOTS g) (kept.map (·.2)).sum
    let s := s.bumpBy (K.segs.BEACON_CLASH g) (clashes own beacons)
    let s := s.bumpBy (K.segs.CR_CLASH g) (clashes (s.regionsIn g n) higher)
    s.modSeg g fun x => { x with claims := Tbl.ins x.claims (2 * n + 1) (kept.flatMap (·.1)) }

/-- CLAIM_RESOLVE (R261). -/
def execClaimResolve (seg : Nat) (s : State) : Out := onCore 6 s (s.claimResolve seg)

end Sys2Proof.Machine
end

