-- ==== Sys2Proof/Machine/Mpdu.lean ====
section
/-! DEFINITION. MPDUs as they are sent and opened: header, body, tag and CRC-32 (R77, R78, R104, R116, R243, R311, R313). -/

namespace Sys2Proof.Machine

/-- An MPDU of a sender with its header, body, tag and CRC-32 (R77, R78): unprotected without a key, TAG16 and FRAME_COUNTER then 0. -/
def sealMpdu (key : Option (List Byte)) (eui pri tag : Nat) (h : MpduHead) (body : List Byte) : List Byte :=
  match key with
  | none => withCrc crcMpdu (MpduHead.bytes { h with cls := 0, tag16 := false, fc := 0 } ++ body)
  | some k =>
    let head := MpduHead.bytes { h with tag16 := tag == 16 }
    let c := ccmSeal k tag (ccmNonce eui h.fc pri) head body
    withCrc crcMpdu (head ++ c.1 ++ c.2)

/-- An unprotected MPDU of the device. -/
def plainMpdu (seq : Nat) (body : List Byte) : List Byte := sealMpdu none 0 0 0 ⟨seq, 0, false, 0⟩ body

/-- The plaintext of a protected MPDU from a sender, and whether its tag verifies (R78): the header is the additional data. -/
def ccmOpenMpdu (key : List Byte) (eui pri : Nat) (raw : List Byte) : List Byte × Bool :=
  let h := MpduHead.read raw
  let body := raw.length - 11 - h.tagBytes
  ccmOpen key (ccmNonce eui h.fc pri) (raw.take 7) ((raw.drop 7).take body) ((raw.drop (7 + body)).take h.tagBytes)

/-- An MPDU of the device under slot `j` in a frame of class `pri` (R78, R308, R311): it takes the slot's next frame counter and one
use. -/
def State.sealUnder (s : State) (j pri tag seq : Nat) (body : List Byte) : List Byte × State :=
  let (fc, t) := s.takeFc j
  (sealMpdu (some (s.slot j).key) s.flash.eui64 pri tag ⟨seq, keyClass j, tag == 16, fc⟩ body, t.slotUse j)

/-- The body of a relayed MPDU (R242, R243): DATA_HEAD, NEXT 0, ORIGIN 0x0000, the route, the inner MPDU. -/
def envelopeBody (type : Nat) (route : List Nat) (inner : List Byte) : List Byte :=
  leBytes 1 (route.length + type * 16) ++ leBytes 3 0 ++ route.flatMap (leBytes 2) ++ inner

end Sys2Proof.Machine
end

