-- ==== Sys2Proof/Machine/Tx.lean ====
section
/-! DEFINITION. Frames on their way out: readiness, start, end, blanking, underrun, and the windows in which their acknowledgements
are accepted (R13, R17, R40–R43, R109, R202). -/

namespace Sys2Proof.Machine

/-- The turnaround of a frame's acknowledgement. -/
def TxFrame.turn (f : TxFrame) : Nat :=
  match f.wave with
  | .ofdm => ackTurn
  | w => swellTurn (isLane w) f.sf

/-- How far an acknowledgement may start from its expected instant: 5 µs, or one symbol (R109, R202). -/
def TxFrame.slack (f : TxFrame) : Nat :=
  match f.wave with
  | .ofdm => 2048
  | w => swellSymbol (isLane w) f.sf

/-- MAX_DELAY of a segment in force, in ticks. -/
def State.maxDelay (s : State) (g : Nat) : Nat := usTicks ((s.seg g).limits.getD 1 100)

/-- The ticks between which an acknowledgement of frame `f` must start (R109, R202). -/
def State.ackWindow (s : State) (f : TxFrame) : Nat × Nat :=
  let base := f.stop + f.turn
  match f.entry.map s.ep with
  | some e =>
    if e.tauKnown then (base + 4 * e.tau - f.slack, base + 4 * e.tau + f.slack)
    else (base - f.slack, base + 2 * s.maxDelay f.seg + f.slack)
  | none => (base - f.slack, base + 2 * s.maxDelay f.seg + f.slack)

/-- The MPDUs of a frame, in order. -/
def State.downsOf (s : State) (f : TxFrame) : List Down :=
  f.mpdus.filterMap fun id => s.mac.queue.find? fun d => d.id == id

/-- TX_READINESS_CHECK (R13): a frame whose samples are short on any of its channels is cancelled on all of them; `ready` names the channels
that hold enough. -/
def State.readiness (s : State) (f : Nat) (ready : List Nat) : State :=
  match s.frame? f with
  | none => s
  | some x =>
    if x.started || x.ended then s
    else
      let s := s.atDeadline (x.start - tenthUs 20)
      let short := x.chans.filter fun n => !ready.contains n
      if short.isEmpty then s.modFrame f fun x => { x with ready := true }
      else
        let s := short.foldl (fun t n => t.bump (K.chs.LATE_FRAME_COUNT n)) s
        (s.event 9 0x05).cancelFrame f

/-- TX_READINESS_CHECK (R13). -/
def execTxReadinessCheck (frame : Nat) (ready : List Nat) (s : State) : Out := whenRunning s (s.readiness frame ready)

/-- The readiness of frame `f` is judged where it has not been (R13). -/
def State.judgeReady (s : State) (f : Nat) (ready : List Nat) : State :=
  match s.frame? f with
  | some x => if x.ready then s else s.readiness f ready
  | none => s

/-- One MPDU of a frame leaves: a transmission of R203, counted as a retransmission from the second on. -/
def State.countSending (s : State) (f : TxFrame) (d : Down) : State :=
  let s := s.eventC 9 0x03 f.pri
  let s := if 0 < d.tries && d.entry.isSome then (s.eventC 9 0x04 f.pri).bump (K.segs.RETRIES f.seg) else s
  let s := match d.kind with
    | .fragment _ _ _ _ => ((s.bump K.txns.FRAG_TX).eventC 10 0x05 f.pri).sampleWork 10 0x50 f.pri 1
    | _ => s
  s.modDown d.id fun d => { d with tries := d.tries + 1 }

/-- C_s and the rate code of the map that an OFDM frame of the device uses (R171). -/
def State.mapOf (s : State) (x : TxFrame) : Nat × Nat :=
  if x.tmi ≤ 1 then fixedMap x.tmi
  else match x.entry with
    | some i =>
      let p := handlePage ((s.ep i).mapDn.getD x.tide 0)
      ((Tbl.at? s.mac.pages p).map fun y => (y.loading.sum, y.rate)).getD (fixedMap 0)
    | none => fixedMap 0

/-- The frame's first sample leaves on every channel of its set (R40); a reach beacon is counted (R195). -/
def State.startFrame (s : State) (f : Nat) : State :=
  match s.frame? f with
  | none => s
  | some x =>
    let s := s.modFrame f fun x => { x with started := true }
    let s := s.eventC 9 0x01 x.pri
    let s := if x.wave == .ofdm then
        let m := s.mapOf x
        let l := layoutOf x.psc m.1 m.2
        let n := if x.type = 6 then 0 else l.long + l.short
        let s := (s.events 9 0x02 none x.psc).events 9 0x07 (some x.pri) n
        (s.sampleWork 9 0x12 x.pri n).sampleWork 9 0x02 x.pri x.psc
      else s
    let s := if x.type = 0 && (x.wave == .s1 || x.wave == .s2) then s.bump (K.segs.REACH_BEACONS x.seg) else s
    (s.downsOf x).foldl (fun t d => t.countSending x d) s

/-- Another OFDM, S1 or S2 frame is on one of the frame's channels at its start (R107). -/
def State.lineTaken (s : State) (f : Nat) (x : TxFrame) : Bool :=
  s.line.frames.any fun y =>
    y.1 != f && y.2.started && !y.2.ended && !(isLane y.2.wave) && y.2.chans.any x.chans.contains && y.2.start ≤ x.start && x.start < y.2.stop

/-- A frame leaves out the channels that a listening gap keeps silent while it would be sent; without any left it is cancelled (R166). -/
def State.hush (s : State) (f : Nat) : State :=
  match s.frame? f with
  | none => s
  | some x =>
    let ns := x.chans.filter fun n => !s.inGap x.seg [n] x.start x.stop
    if ns.isEmpty then s.cancelFrame f else s.modFrame f fun x => { x with chans := ns }

/-- FRAME_TX_START (R13, R40, R107): no frame starts while a channel's synthesiser is unlocked (R45) or another frame is on its line; it is
then cancelled before its start. -/
def State.frameStart (s : State) (f : Nat) (ready : List Nat) : State :=
  match (s.frame? f).map fun x => x.started || isLane x.wave with
  | some false =>
    let s := (s.judgeReady f ready).hush f
    match s.frame? f with
    | none => s
    | some x =>
      let s := s.atDeadline x.start
      if x.chans.all s.inService && !s.lineTaken f x then s.startFrame f else s.cancelFrame f
  | _ => s

/-- FRAME_TX_START (R40). -/
def execFrameTxStart (frame : Nat) (ready : List Nat) (s : State) : Out := whenRunning s (s.frameStart frame ready)

/-- Queued MPDUs of a frame that asks for no acknowledgement are done when it ends; a broadcast is queued again until it has been sent
BCAST_REPEAT times (R206). -/
def State.doneUnacked (s : State) (x : TxFrame) : State :=
  let again := fun (d : Down) => d.kind == .broadcast && d.tries < s.limit x.seg 8 && !(s.seg x.seg).winding
  s.modMac fun m =>
    { m with queue := (m.queue.filter fun d => !x.mpdus.contains d.id || again d).map fun d =>
        if x.mpdus.contains d.id then { d with frame := none } else d }

/-- An exchange of the coordinator has ended at tick `t`, and its allocation carries no PPDU for `gap` ticks more (R197). -/
def State.exchangeEnd (s : State) (g t gap : Nat) : State := s.modSeg g fun x => { x with lastEnd := (t, gap) }

/-- Once every frame of a segment that winds down is settled, the legs whose fragments were sent end (R235). -/
def State.windLegs (s : State) (g : Nat) : State :=
  if !(s.seg g).winding || !(s.framesWith fun f => f.seg == g).isEmpty then s
  else
    let s := (s.epsWith fun e => e.seg == g).foldl (fun t i => (t.legsOf i).foldl (fun u l =>
      match (u.leg? l.1 l.2).map fun x => (x.phase, x.delivered) with
      | none => u
      | some (LegPhase.committed, _) => u
      | some (_, d) => u.endLeg l.1 l.2 outAbandoned (if d then causeNoResponse else causeNotDelivered)) t) s
    s.modSeg g fun x => { x with winding := false }

/-- An ended frame waits for its acknowledgement, in an expected window of its link (R50), or is done. -/
def State.afterFrame (s : State) (f : Nat) (x : TxFrame) : State :=
  if x.ackReq then
    let w := s.ackWindow x
    let s := s.modFrame f fun x => { x with ended := true }
    match x.entry with
    | some i =>
      if isLane x.wave then s
      else s.modLine fun l => { l with windows := l.windows ++ [⟨x.seg, i, w.1, w.2⟩] }
    | none => s
  else
    let s := s.doneUnacked x
    ((if isLane x.wave then s else s.exchangeEnd x.seg x.stop (usTicks 60)).dropFrame f).windLegs x.seg

/-- FRAME_TX_END (R42): on each channel blanking lasts 2.0 µs more. -/
def State.frameEnd (s : State) (f : Nat) : State :=
  match s.frame? f with
  | none => s
  | some x =>
    if !x.started || x.ended || isLane x.wave then s
    else
      let s := s.atDeadline x.stop
      let s := x.chans.foldl (fun t n => t.modChan n fun c => { c with blankEnd := some (t.leftBy x n + tenthUs 20) }) s
      s.afterFrame f x

/-- FRAME_TX_END (R42). -/
def execFrameTxEnd (frame : Nat) (s : State) : Out := whenRunning s (s.frameEnd frame)

/-- TX_BLANK_END (R42): the AGC resumes AUTO from the gain it held, from this instant on. -/
def State.txBlankEnd (s : State) (n : Nat) : State :=
  match (s.chan n).blankEnd with
  | some t => (s.atDeadline t).modChan n fun c =>
      { c with blankEnd := none, idleFrom := max c.idleFrom t, gainWas := c.cfg.listenGain, gainFrom := max c.gainFrom t }
  | none => s

/-- TX_BLANK_END (R42). -/
def execTxBlankEnd (channel : Nat) (s : State) : Out := whenRunning s (s.txBlankEnd channel)

/-- TX_UNDERRUN (R17): once the frame has started, zero samples go out to its scheduled end. -/
def State.txUnderrun (s : State) (n : Nat) : State :=
  match s.framesWith fun f => f.started && !f.ended && f.chans.contains n with
  | [] => s
  | (f, _) :: _ =>
    (((s.setFlag (K.chs.TX_UNDERRUN n) true).bump (K.chs.TX_UNDERRUN_COUNT n)).event 9 0x06).modFrame f fun x =>
      { x with underrun := true }

/-- TX_UNDERRUN (R17). -/
def execTxUnderrun (channel : Nat) (s : State) : Out := whenRunning s (s.txUnderrun channel)

/-- An acknowledgement meets the acceptance tests for frame `x` (R109, R202): `src` is the address it must come from, `seq8` the
low byte of the SEQ of a swell frame's MPDU. A frame that ran empty is not acknowledged (R17). -/
def State.ackMeets (s : State) (x : TxFrame) (a : AckSeen) (src seq8 : Nat) : Bool :=
  let w := s.ackWindow x
  !x.underrun && a.checkOk && a.nid == s.nid x.seg && a.dst == 0 && a.src == src && w.1 ≤ a.start && a.start ≤ w.2 &&
    (match x.wave with
     | .ofdm => a.type == 2 || a.type == 3
     | _ => a.type == 2 && a.info == seq8)

/-- The acknowledgement of a reception as a frame of the device (R109, R201). -/
def State.ackFrame (s : State) (x : Reception) (start : Nat) : TxFrame :=
  let g := x.seg.getD 0
  let ofdm := x.wave == .ofdm
  let f := FrameControl.fields (leBytes 16 x.head)
  let n := if ofdm then f.countM1 + 1 else 1
  let whole := x.acked == 2 ^ n - 1
  let lane := isLane x.wave
  let sfTicks := swellTicks lane 2 0 x.sf 4
  { seg := g
    wave := if lane then .laneA else x.wave
    type := if !ofdm || whole then 2 else 3
    dst := if ofdm then f.src else field x.head 36 16
    pri := if ofdm then f.pri else field x.head 60 2
    ackReq := false
    tmi := if ofdm && !whole then x.acked else 0
    tide := 0
    gi := 0
    psc := 0
    sf := x.sf
    chans := x.members.map (·.chan)
    start := start
    data := if ofdm then start + ofdmHead else start + 6 * swellSymbol lane x.sf
    stop := if ofdm then start + ofdmHead else start + sfTicks
    mpdus := []
    body := if ofdm then
        FrameControl.encode ⟨if whole then 2 else 3, s.nid g, f.src, 0, if whole then 0 else x.acked, 0, 0, f.pri, false, false, 0, 0⟩
      else SwellHead.encode ⟨2, s.nid g, field x.head 36 16, 0, x.seq8, field x.head 60 2, false⟩
    entry := none
    cls := none
    started := true
    ended := false
    underrun := false
    ready := true
    cut := false
    len := x.seq8
    npre := 4
    wire := [] }

end Sys2Proof.Machine
end

