-- ==== Sys2Proof/Machine/Lane.lean ====
section
/-! DEFINITION. The swell lane: placing P0 frames and wake frames on its two sub-lanes (R110–R117). -/

namespace Sys2Proof.Machine

/-- The channels that carry lane frames to entry `i` (R236). -/
def State.laneChans (s : State) (i : Nat) : List Nat := s.subsetOf i fun n => (s.chan n).swell.on && s.enabled n

/-- An acknowledgement is due on sub-lane A of some of the channels before tick `t` (R113). -/
def State.ackDueBefore (s : State) (ns : List Nat) (t : Nat) : Bool :=
  ns.any fun n => (s.chan n).ackDue.any fun a => a < t

/-- The frames that take a sub-lane of some channels between two ticks. -/
def State.laneHolds (s : State) (b : Bool) (ns : List Nat) (start stop : Nat) : List (Nat × TxFrame) :=
  (s.onLane b ns).filter fun f => f.2.start < stop && start < f.2.stop

/-- The slot that protects frames to entry `i` can protect one more now (R311, R317). -/
def State.linkReady (s : State) (i : Nat) : Bool := s.fcReady (s.linkSlot i)

/-- The next SEQ of the downlink to entry `i` (R204). -/
def State.takeSeq (s : State) (i : Nat) : Nat × State :=
  let q := (s.ep i).txSeq
  (q, s.modEp i fun e => { e with txSeq := (q + 1) % 4096 })

/-- The queued MPDU with number `id`. -/
def State.down? (s : State) (id : Nat) : Option Down := s.mac.queue.find? fun d => d.id == id

/-- Give a queued MPDU to entry `i` its SEQ, once (R204). -/
def State.giveSeq (s : State) (i id : Nat) : State :=
  match s.down? id with
  | some d =>
    if d.seq.isSome then s
    else
      let (q, s) := s.takeSeq i
      s.modDown id fun d => { d with seq := some q }
  | none => s

/-- Queued MPDU `id` goes on frame `f` as an MPDU of its own under slot `j` with the given body (R77, R311). -/
def State.wireDown (s : State) (j f id : Nat) (body : List Byte) : State :=
  match s.down? id with
  | none => s
  | some d =>
    let (m, s) := s.sealUnder j d.pri (s.tagLen d.seg) (d.seq.getD 0) body
    (s.modDown id fun d => { d with frame := some f }).modFrame f fun x => { x with wire := x.wire ++ [m] }

/-- Another MPDU of the link direction may be open (R204): it has its SEQ already, or fewer than 32 do. -/
def State.seqRoom (s : State) (i : Nat) (d : Down) : Bool := d.seq.isSome || s.unresolved i < 32

/-- The wake of entry `i` is to be decided again (R113, R117). -/
def State.rewake (s : State) (x : TxFrame) : State :=
  match x.entry with
  | some i => s.modLine fun l => { l with wakes := Tbl.ins l.wakes i (ofLe (x.body.drop 1), 0) }
  | none => s

/-- A wake frame gives sub-lane B up for a P0 frame (R113): one that has started is cut at the end of its symbol and counted, one that has
not disappears; either is decided again. -/
def State.yieldWake (s : State) (f : Nat) : State :=
  match s.frame? f with
  | none => s
  | some x =>
    let s := if x.started then
        (x.chans.foldl (fun t n => (t.bump (K.chs.LANE_WAKE_CUT n)).event 9 0x09) s).modFrame f fun x =>
          { x with cut := true, stop := x.stopAt s.now }
      else s.dropFrame f
    s.rewake x

/-- Where a P0 frame that displaces wake frames on B starts: at the end of the symbol that B is sending, else at the next grid instant
(R112, R113). -/
def State.afterSymbol (s : State) (fs : List (Nat × TxFrame)) : Nat :=
  fs.foldl (fun t f => if f.2.started then max t (f.2.stopAt s.now) else t) (laneGrid s.now)

/-- LANE_PRE_LEN of a frame on several channels: that of the first of them (DESIGN CHOICE, assumption log, entry 54: they may differ and
R100 gives a frame one preamble). -/
def State.lanePre (s : State) (ns : List Nat) : Nat := (s.chan (ns.headD 0)).swell.lanePre

/-- A lane frame of queued MPDU `d` for entry `i` on a sub-lane at tick `start`. -/
def State.laneFrame (s : State) (d : Down) (i : Nat) (b : Bool) (ns : List Nat) (start : Nat) : TxFrame :=
  let e := s.ep i
  let sf := e.laneSf + 7
  let pre := s.lanePre ns
  let len := mpduLen d.body.length (s.tagLen e.seg)
  { seg := e.seg, wave := if b then .laneB else .laneA, type := d.type, dst := e.addr, pri := 0, ackReq := true, tmi := 0, tide := 0,
    gi := 0, psc := 0, sf := sf, chans := ns, start := start, data := start + (pre + 2) * swellSymbol true sf,
    stop := start + swellTicks true d.type len sf pre, mpdus := [d.id], body := [], entry := some i, cls := none,
    started := false, ended := false, underrun := false, ready := false, cut := false, len := len, npre := pre, wire := [] }

/-- Put the frame of a queued MPDU on a sub-lane of its channels: it takes its SEQ, a frame counter and a use of its slot. -/
def State.putLane (s : State) (i : Nat) (d : Down) (f : TxFrame) : State :=
  let s := s.giveSeq i d.id
  let (k, s) := s.addFrame f
  (s.wireDown (s.linkSlot i) k d.id d.body).modLine fun l => { l with laneWait := l.laneWait.filter (· ≠ d.id) }

/-- Place the MPDU on the lane (R113): on A where it is free from the next grid instant to the frame's end, else on B where that is free or
holds wake frames, else it waits. A frame that ends on a grid instant leaves its sub-lane free from that instant on (DESIGN CHOICE,
assumption log, entry 54). -/
def State.placeOn (s : State) (d : Down) (i : Nat) (ns : List Nat) : State :=
  let start := laneGrid s.now
  let a := s.laneFrame d i false ns start
  if (s.laneHolds false ns start a.stop).isEmpty && !s.ackDueBefore ns a.stop then s.putLane i d a
  else
    let wakes := (s.onLane true ns).filter fun f => f.2.type == 9
    let at' := s.afterSymbol (wakes.filter fun f => start < f.2.stop)
    let b := s.laneFrame d i true ns at'
    let held := s.laneHolds true ns (min start at') b.stop
    if held.all fun f => f.2.type == 9 then (held.foldl (fun t f => t.yieldWake f.1) s).putLane i d b
    else if s.line.laneWait.contains d.id then s
    else
      (ns.foldl (fun t n => (t.bump (K.chs.LANE_P0_DEFERRED n)).event 9 0x0A) s).modLine fun l =>
        { l with laneWait := l.laneWait ++ [d.id] }

/-- LANE_FRAME_PLACE (R113): a P0 frame is ready once its endpoint listens, its key is usable and its SEQ is free. -/
def State.lanePlace (s : State) (id : Nat) : State :=
  match s.mac.queue.find? fun d => d.id == id with
  | none => s.modLine fun l => { l with laneWait := l.laneWait.filter (· ≠ id) }
  | some d =>
    match d.entry with
    | none => s
    | some i =>
      let ns := s.laneChans i
      if !s.segEnabled d.seg || !d.lane || d.frame.isSome || d.held.isSome || ns.isEmpty || !s.hasLane i || !s.reachable i || !s.linkReady i ||
          !s.seqRoom i d then s
      else s.placeOn d i ns

/-- LANE_FRAME_PLACE (R113). -/
def execLaneFramePlace (mpdu : Nat) (s : State) : Out := whenRunning s (s.lanePlace mpdu)

/-- The lane receivers of channels that begin to send on the lane lose the receptions in progress (R114); these count under no cause
(assumption log, entry 54). -/
def State.abortLaneRx (s : State) (ns : List Nat) : State :=
  ns.foldl (fun t n => match (t.chan n).laneRx with
    | some r => ((t.withdrawOpenings r).dropRx r).modChan n fun c => { c with laneRx := none, laneSecond := none, idleFrom := t.now }
    | none => t) s

/-- LANE_FRAME_START (R13, R40, R45, R112): a frame is cancelled whose synthesiser is unlocked, or on a channel whose lane no longer runs
(DESIGN CHOICE, assumption log, entry 54: R119 lets LANE_ENABLE FALSE take effect before it starts). -/
def State.laneStart (s : State) (f : Nat) (ready : List Nat) : State :=
  match (s.frame? f).map fun x => x.started || !isLane x.wave with
  | some false =>
    let was := s.frame? f
    let s := (s.judgeReady f ready).hush f
    let s := match s.frame? f with
      | some x =>
        let s := s.atDeadline x.start
        if x.chans.all fun n => s.inService n && (s.chan n).swell.on then (s.abortLaneRx x.chans).startFrame f else s.cancelFrame f
      | none => s
    match s.frame? f, was with
    | none, some x => if x.type = 9 then s.rewake x else s
    | _, _ => s
  | _ => s

/-- LANE_FRAME_START (R112). -/
def execLaneFrameStart (frame : Nat) (ready : List Nat) (s : State) : Out := whenRunning s (s.laneStart frame ready)

/-! Wake frames (R116, R117, R222, R223). -/

/-- LISTEN_SLOTS for a wake frame that ends at tick `stop` (R222): to the end of the first contention region after the first beacon
that starts after it, 255 at most. -/
def State.listenSlots (s : State) (g stop : Nat) : Nat :=
  match (s.seg g).period with
  | none => 255
  | some _ =>
    let r := (s.seg g).region
    let b := s.beaconAfter g (stop + 1)
    max 1 (min 255 (s.delaySlots (b + s.slotTicks (r.getD 3 0 + r.getD 4 0) - stop)))

/-- A wake frame for entry `i` (R116). -/
def State.wakeTx (s : State) (i reason pre first : Nat) (ns : List Nat) : TxFrame :=
  let e := s.ep i
  let sf := e.laneSf + 7
  let len := mpduLen 2 (s.tagLen e.seg)
  let stop := first + swellTicks true 9 len sf pre
  { seg := e.seg, wave := .laneB, type := 9, dst := e.addr, pri := 0, ackReq := false, tmi := 0, tide := 0, gi := 0, psc := 0,
    sf := sf, chans := ns, start := first, data := first + (pre + 2) * swellSymbol true sf, stop := stop, mpdus := [],
    body := leBytes 1 (s.listenSlots e.seg stop) ++ leBytes 1 reason, entry := some i, cls := none, started := false,
    ended := false, underrun := false, ready := false, cut := false, len := len, npre := pre, wire := [] }

/-- The slot that protects a wake frame to entry `i`: of KEY_CLASS 1 or 3 (R116). -/
def State.wakeSlot (s : State) (i : Nat) : Nat := (s.boundSlot (s.ep i).eui).getD (s.ep i).seg

/-- A wake frame stands on its sub-lane with its MPDU, which takes a SEQ, a frame counter and a use of its slot (R116, R204, R311). -/
def State.putWake (s : State) (i : Nat) (x : TxFrame) : State :=
  let (q, s) := s.takeSeq i
  let (m, s) := s.sealUnder (s.wakeSlot i) 0 (s.tagLen x.seg) q x.body
  (s.addFrame { x with wire := [m] }).2

/-- The tick from which sub-lane B of some channels carries nothing (R117). -/
def State.laneBFree (s : State) (ns : List Nat) (from_ : Nat) : Nat := (s.onLane true ns).foldl (fun t f => max t f.2.stop) from_

/-- Decide the wake of entry `i` (R117): not while its key is unusable (R116); where no form fits its downlinks are refused. -/
def State.decideWake (s : State) (i : Nat) : State :=
  match Tbl.at? s.line.wakes i with
  | none => s
  | some (reason, from_) =>
    let ns := s.laneChans i
    let forget := fun (t : State) => t.modLine fun l => { l with wakes := Tbl.del l.wakes i }
    let sf := (s.ep i).laneSf + 7
    let free := fun (first pre : Nat) =>
      (s.laneHolds true ns first (first + swellTicks true 9 (mpduLen 2 (s.tagLen (s.ep i).seg)) sf pre)).isEmpty
    if !(s.ep i).adrift && !s.asleep i then (forget s).resumeLegs i
    else if !s.segEnabled (s.ep i).seg || !s.wakePossible i then forget s
    else if !s.fcReady (s.wakeSlot i) || ns.isEmpty || ((s.onLane true ns).any fun f => f.2.type == 9 && f.2.entry == some i && !f.2.cut) then s
    else
      let start := max from_ s.now
      match s.wakeForm i start (s.laneBFree ns start) free with
      | none => (forget s).refuseLegs i causeAsleep Leg.open'
      | some (pre, first, _) => (forget s).putWake i (s.wakeTx i reason pre first ns)

/-- WAKE_FRAME (R117). -/
def execWakeFrame (entry : Nat) (s : State) : Out := whenRunning s (s.decideWake entry)

/-- Frames and wakes that wait for a sub-lane are tried again (R113, R117). -/
def State.laneAgain (s : State) : State :=
  let s := s.line.laneWait.foldl (fun t id => t.lanePlace id) s
  s.line.wakes.foldl (fun t w => t.decideWake w.1) s

/-- A wake frame has been sent to its end (R223, R230): the endpoint listens. -/
def State.wakeDone (s : State) (x : TxFrame) : State :=
  let s := s.bump (K.segs.WAKES_SENT x.seg)
  match x.entry with
  | none => s
  | some i =>
    let s := s.modEp i fun e => { e with listen := some (x.stop, x.stop + s.slotTicks (ofLe (x.body.take 1))) }
    if (s.ep i).adrift then s else s.resumeLegs i

/-- LANE_FRAME_END (R113, R114, R120): the lane receivers stay blanked for one symbol more; a frame that was not cut counts as sent; what
waits is placed on the freed sub-lane. -/
def State.laneEnd (s : State) (f : Nat) : State :=
  match s.frame? f with
  | none => s
  | some x =>
    if !x.started || x.ended || !isLane x.wave then s
    else
      let s := s.atDeadline x.stop
      let s := s.modChans x.chans fun c => { c with laneBlank := some (x.stop + swellSymbol true x.sf) }
      let s := if x.cut then s else x.chans.foldl (fun t n => (t.bump (K.chs.LANE_TX_FRAMES n)).event 9 0x08) s
      let s := if x.type = 9 then ((if x.cut then s else s.wakeDone x).dropFrame f).windLegs x.seg else s.afterFrame f x
      s.laneAgain

/-- LANE_FRAME_END (R113). -/
def execLaneFrameEnd (frame : Nat) (s : State) : Out := whenRunning s (s.laneEnd frame)

/-- A lane frame of channel `n` is on the line. -/
def State.laneSending (s : State) (n : Nat) : Bool := (s.onLane false [n] ++ s.onLane true [n]).any fun f => f.2.started

/-- The lane receiver of channel `n` is blanked (R114). -/
def State.laneBlanked (s : State) (n : Nat) : Bool := (s.chan n).laneBlank.any (fun t => s.now < t) || s.laneSending n

/-- LANE_BLANK_END (R114). -/
def State.laneBlankEnd (s : State) (n : Nat) : State :=
  match (s.chan n).laneBlank with
  | some t => (s.atDeadline t).modChan n fun c => { c with laneBlank := none }
  | none => s

/-- LANE_BLANK_END (R114). -/
def execLaneBlankEnd (channel : Nat) (s : State) : Out := whenRunning s (s.laneBlankEnd channel)

/-- An acknowledgement takes sub-lane A of its channels (R113): a frame placed there that has not started gives way and is placed
again. -/
def State.takeLaneA (s : State) (ns : List Nat) : State :=
  let fs := (s.onLane false ns).filter fun f => !f.2.started
  let ids := fs.flatMap fun f => f.2.mpdus
  let s := fs.foldl (fun t f => t.cancelFrame f.1) s
  s.modLine fun l => { l with laneWait := l.laneWait ++ ids.filter fun id => !l.laneWait.contains id }

end Sys2Proof.Machine
end

