-- ==== Sys2Proof/Machine/Beacon.lean ====
section
/-! DEFINITION. Beacon periods, allocations, beacons and reach beacons (R187–R196, R221, R247). -/

namespace Sys2Proof.Machine

/-! The period grid (R187, R234). -/

/-- The first start of tide slot `slot` of segment `g` after tick `t` (R159). -/
def State.nextSlotStart (s : State) (g t slot : Nat) : Nat :=
  let k := (slot + 24 - s.slotAtTick g t) % 24
  s.slotEdge g t (if k = 0 then 24 else k)

/-- The start of the next beacon period of segment `g` (R187, R234). -/
def State.nextBeacon (s : State) (g : Nat) : Nat :=
  let half := s.slotTicks 1 / 2
  let slot := s.rd (K.seg.BEACON_SLOT g)
  match (s.seg g).period with
  | some p => s.nextSlotStart g (p + s.periodTicks g 1 - half) slot
  | none => s.nextSlotStart g ((s.seg g).firstBeacon.getD s.now - 1) slot

/-- Configuration that takes effect at a period boundary (R160, R187, R229). -/
def State.applyPeriodConfig (s : State) (g : Nat) : State :=
  let s := if (s.seg g).offsetDue then (s.members g).foldl (fun t n => t.clearTide n) s else s
  s.modSeg g fun x =>
    { x with
      offset := s.rdInt (K.seg.SEG_PHASE_OFFSET g)
      offsetDue := false
      region := [s.rd (K.seg.BP_CYCLES g), s.rd (K.seg.BEACON_SLOT g), s.rd (K.seg.BEACON_SLOTS g), s.rd (K.seg.CR_FIRST g),
        s.rd (K.seg.CR_COUNT g)]
      limits := [s.rd (K.seg.MAX_FRAME g), s.rd (K.seg.MAX_DELAY g), s.rd (K.seg.ROBUST_GI g), s.rd (K.seg.LEASE_TIME g),
        s.rd (K.seg.ADDRESS_HOLD g), s.rd (K.seg.ASSOC_PERMIT g), s.rd (K.seg.ADRIFT_HOLD g), s.rd (K.seg.DEFAULT_DRIFT g),
        s.rd (K.seg.BCAST_REPEAT g), s.rd (K.seg.REACH_BEACON g)] }

/-- ROBUST_GI in force. -/
def State.robustGi (s : State) (g : Nat) : Nat := s.limit g 2

/-- The longest PPDU of a segment in ticks (R190). -/
def State.maxFrame (s : State) (g : Nat) : Nat := s.limit g 0 * 40960

/-- The length of a queued MPDU on its next hop (R77, R243). -/
def State.downLen (s : State) (d : Down) : Nat :=
  let tag := s.tagLen d.seg
  match d.route with
  | [] => mpduLen d.body.length (if d.type = 5 then 0 else tag)
  | r => mpduLen (4 + 2 * r.length + mpduLen d.body.length (if d.type = 5 then 0 else tag)) tag

/-- Slots that hold one exchange of the longest frame (assumption log, entry 22). -/
def State.exchangeSlots (s : State) (g : Nat) : Nat :=
  s.delaySlots (s.maxFrame g + ackTurn + 2 * s.maxDelay g + ofdmHead)

/-! Demands (R196). -/

/-- A demand for an allocation: address, slots, direction, kind, the tide slot it must end in (for sounding), and the MPDU of an
association response. -/
structure Demand where
  addr : Nat
  count : Nat
  down : Bool
  kind : Nat
  slot : Option Nat
  response : Option Nat
  deriving DecidableEq, Repr

/-- A demand without a slot of its own. -/
def Demand.plain (addr count : Nat) (down : Bool) (kind : Nat) : Demand := ⟨addr, count, down, kind, none, none⟩

/-- KIND of an entry's allocations: 2 on a long-reach link (R193). -/
def Ep.dataKind (e : Ep) : Nat := if e.lrMode = 0 then 0 else 2

/-- Slots that hold an S1 or S2 exchange of an MPDU of `len` bytes on some channels. -/
def State.swellSlots (s : State) (g type len sf : Nat) (ns : List Nat) : Nat :=
  s.delaySlots (swellTicks false type len sf (s.swellPre ns) + swellTurn false sf + 2 * s.maxDelay g + swellTicks false 2 0 sf 4)

/-- Slots of a downlink allocation of entry `i` for the MPDUs given (assumption log, entry 22): one exchange of the longest frame, or of
the longest MPDU that goes in S1 or S2. -/
def State.downSlots (s : State) (g i : Nat) (ds : List Down) : Nat :=
  let e := s.ep i
  if e.lrMode = 0 then s.exchangeSlots g
  else s.swellSlots g 1 (((ds.map s.downLen).filter (· ≤ 255)).foldl max 0) (e.lrSf + 7) (s.subsetOf i s.enabled)

/-- The stations with queued downlinks of class `c` on segment `g` that may be sent now (R196). -/
def State.downDemands (s : State) (g c : Nat) : List Demand :=
  let ds := s.mac.queue.filter fun d =>
    d.seg == g && d.pri == c && d.frame.isNone && d.held.isNone && !d.lane && !(d.kind == .assocResponse && d.route.isEmpty)
  let hops := (ds.filterMap s.hopOf).eraseDups
  (hops.filter fun i => !s.asleep i && !(s.ep i).adrift).map fun i =>
    .plain (s.ep i).addr (s.downSlots g i (ds.filter fun d => s.hopOf d == some i)) true (s.ep i).dataKind

/-- A wake instant W with W + G_W between ticks `a` and `b` opens the served window of entry `i` (R220). -/
def State.windowOpens (s : State) (i a b : Nat) : Bool :=
  let e := s.ep i
  e.sleep.period != 0 && e.state == epAssociated &&
    (let x := ((s.dtOf a : Int) - s.stepsSince e).toNat
     let guardDt := (dtSecond / 409600000) * e.guardW
     let w := e.nextWake (x + 1 - guardDt)
     let t := s.tickOf (((w : Int) + s.stepsSince e).toNat) + e.guardW
     a < t && t ≤ b)

/-- Sleepers served in the period that starts at `b` after one at `a` (R221, R223). -/
def State.sleeperDemands (s : State) (g a b : Nat) : List Nat :=
  (s.epsWith fun e => e.seg == g).filter fun i => s.windowOpens i a b || (match (s.ep i).listen with
    | some (x, _) => a < x && x ≤ b
    | none => false)

/-- The repeaters of segment `g` with a downstream neighbour, nearest first (R247). -/
def State.activeRepeaters (s : State) (g : Nat) : List Nat :=
  let routes := (s.stations g).filterMap fun i => (s.ep i).route
  let mids := (routes.flatMap fun r => r.dropLast.zipIdx.map fun x => (x.2, x.1)).eraseDups
  ((mids.insertionSort fun a b => a.1 ≤ b.1).map (·.2)).eraseDups

/-- The repeater next before the station with address `a` on its route (R247). -/
def State.upstream (s : State) (g a : Nat) : Option Nat :=
  (s.epAt g a).bind fun i => ((s.ep i).route).bind fun r => r.dropLast.getLast?

/-- The slots that an association response needs (R212). -/
def State.responseSlots (s : State) (g : Nat) (body : List Byte) : Nat :=
  let v := ofLe body
  if field v 124 2 = 0 then s.exchangeSlots g
  else s.swellSlots g 5 (mpduLen body.length 0) (field v 128 4) (s.everyone g)

/-- Association responses that may still have an allocation (R196, R212): in the first two periods after their request, or sent once. -/
def State.dueResponses (s : State) (g : Nat) : List Down :=
  (s.seg g).responses.filterMap fun r => (s.down? r.1).filter fun d => r.2 < 2 || 0 < d.tries

/-- The allocations of the active repeaters for their relayed beacons, nearest first (R247). -/
def State.repeaterDemands (s : State) (g : Nat) : List Demand :=
  (s.activeRepeaters g).map fun x => .plain x (s.exchangeSlots g) false 0

/-- The other demands of a period in the order of R196. -/
def State.demands (s : State) (g a b : Nat) : List Demand :=
  let sleepers := (s.sleeperDemands g a b).map fun i => Demand.plain (s.ep i).addr 1 false 3
  let responses := (s.dueResponses g).map fun d =>
    (⟨0xFFFE, s.responseSlots g d.body, true, if field (ofLe d.body) 124 2 = 0 then 0 else 2, none, some d.id⟩ : Demand)
  let soundings := (s.epsWith fun e => e.seg == g).flatMap fun i =>
    match (s.ep i).sounding with
    | some x =>
      ((List.range 24).filter fun k => bitOf x.mask k && !x.got.contains k).map fun k =>
        (⟨(s.ep i).addr, 2, false, 1, some k, none⟩ : Demand)
    | none => []
  let standing := fun (c : Nat) => (s.epsWith fun e => e.seg == g && e.state == epAssociated).filterMap fun i =>
    match (s.ep i).allocReq with
    | some (n, k) => if k = c then some (Demand.plain (s.ep i).addr n false (s.ep i).dataKind) else none
    | none => none
  s.downDemands g 0 ++ sleepers ++ responses ++ soundings ++ standing 0 ++
    [1, 2, 3].flatMap fun c => standing c ++ s.downDemands g c

/-- Slots `[first, first + count)` are free of the given intervals. -/
def slotsFree (used : List (Nat × Nat)) (first count : Nat) : Bool :=
  used.all fun u => u.1 + u.2 ≤ first || first + count ≤ u.1

/-- The lowest place for a demand from period slot `from_` on, in a period of `n` slots that begins at tide slot `origin`, within the slots
claimed (R261). -/
def placeDemand (used : List (Nat × Nat)) (claimed : Nat → Nat → Bool) (n origin from_ : Nat) (d : Demand) : Option Nat :=
  (List.range n).find? fun f => from_ ≤ f && f + d.count ≤ n && slotsFree used f d.count && claimed f d.count &&
    (match d.slot with
     | some k => (origin + f + d.count - 1) % 24 == k
     | none => true)

/-- Payload symbols that fit the beacon region at ROBUST_GI and MAX_FRAME, in a period that begins at tick `b` (R190, R191). -/
def State.beaconSymbols (s : State) (g b : Nat) : Nat :=
  (min (s.maxFrame g) (s.slotStart g b ((s.seg g).region.getD 2 1) - b) - ofdmHead) / ofdmSymbol (s.robustGi g)

/-- Allocation entries that a beacon of segment `g` can hold (R81, R193). -/
def State.beaconRoom (s : State) (g b : Nat) : Nat :=
  let info := (layoutOf (s.beaconSymbols g b) (fixedMap 0).1 0).info
  let head := 8 * (4 + mpduLen (36 + 6 * (s.members g).length) 0)
  min 2047 ((info - head) / 64)

/-- Allocation entries that a reach beacon of LEN 255 holds (R195). -/
def State.reachRoom (s : State) (g : Nat) : Nat := (255 - 11 - 36 - 6 * (s.members g).length) / 8

/-- The allocations made so far, the slots taken, and the entries left for a later period. -/
structure Placed where
  allocs : List Alloc
  used : List (Nat × Nat)
  missed : Nat
  deriving DecidableEq, Repr

/-- No entry of the demand fits the beacon any more, or the reach beacon for KIND 2 (R195, R196). -/
def State.entriesFull (s : State) (g b : Nat) (x : Placed) (d : Demand) : Bool :=
  s.beaconRoom g b ≤ x.allocs.length ||
    (d.kind == 2 && (s.reachOf g).1 != 0 && s.reachRoom g ≤ (x.allocs.filter fun a => a.kind == 2).length)

/-- Place one demand in the period that begins at tick `b` (R196): behind the first uplink allocation of the station's upstream repeater
(R247). One that the beacons cannot hold waits and is counted. -/
def State.placeOne (s : State) (g b : Nat) (x : Placed) (d : Demand) : Placed :=
  let claimed := fun (f c : Nat) => s.claimAllows g (s.slotStart g b f) (s.slotStart g b (f + c))
  let after := match s.upstream g d.addr with
    | none => 0
    | some u => ((x.allocs.find? fun a => a.addr == u && !a.down).map fun a => a.first + a.count).getD 0
  match placeDemand x.used claimed (s.periodLen g) ((s.seg g).region.getD 1 0) after d with
  | none => x
  | some f =>
    if s.entriesFull g b x d then { x with missed := x.missed + 1 }
    else { x with
      allocs := x.allocs ++ [⟨d.addr, f, d.count, 2 ^ (s.members g).length - 1, d.down, d.kind, d.response⟩]
      used := (f, d.count) :: x.used }

/-- Allocate the demands (R196, R247) of the period from tick `b`, the one before from `a`: the repeaters' own first (DESIGN CHOICE,
assumption log, entry 22: R196 gives them no rank, and R247 puts them before the stations behind them). The beacon regions, the reach
beacon and the contention region are taken. -/
def State.allocate (s : State) (g a b : Nat) : List Alloc × Nat :=
  let r := (s.seg g).region
  let used := (0, r.getD 2 1 + s.reachSlots g) :: (if r.getD 4 0 = 0 then [] else [(r.getD 3 0, r.getD 4 0)])
  let out := (s.repeaterDemands g ++ s.demands g a b).foldl (s.placeOne g b) ⟨[], used, 0⟩
  (out.allocs.insertionSort fun x y => x.first ≤ y.first, out.missed)

/-! The beacon's body (R192, R193). -/

/-- One allocation entry (R193). -/
def Alloc.bytes (x : Alloc) : List Byte :=
  leBytes 8 (packBits [(16, x.addr), (11, x.first), (11, x.count), (8, x.members), (1, boolNat x.down), (2, x.kind)])

/-- The head of a beacon whose frame starts at tick `t`, with `n` entries (R192). -/
def State.beaconHead (s : State) (g t n : Nat) : List Byte :=
  let r := (s.seg g).region
  let l := (s.seg g).limits
  let d := s.dtOf t
  leBytes 36 (packBits [(16, s.rd (K.segs.BP_COUNT g)), (7, r.getD 0 8), (3, r.getD 2 1),
    (1, boolNat (s.trkState == trkLocked)), (1, boolNat (s.laneOn g)), (4, s.sys.bootId),
    (16, s.segPhaseAt t (s.seg g).offset / 2 ^ 16), (16, twos 16 (s.seg g).offset), (32, s.tracker.period / 2 ^ 8),
    (32, dtFrac d), (32, dtSec d), (11, r.getD 3 0), (11, r.getD 4 0), (10, (l.getD 1 100 + 1) / 2), (6, l.getD 0 40),
    (2, l.getD 2 3), (3, (s.members g).length - 1), (11, n), (10, 0), (64, s.flash.eui64)])

/-- The class vectors of the members; all class 3 for one whose ENABLE is clear (R169, R234). -/
def State.beaconVectors (s : State) (g : Nat) : List Byte :=
  (s.members g).flatMap fun n => leBytes 6 (if s.enabled n then s.classVector n else vectorWorst)

/-- A frame of the coordinator to every enabled member on map 0 at ROBUST_GI with one MPDU (R191, R206, R212, R236). -/
def State.robustFrame (s : State) (g type dst pri start : Nat) (body wire : List Byte) : TxFrame :=
  let gi := s.robustGi g
  let psc := (pscFor (8 * (4 + wire.length)) (fixedMap 0).1 0 400).getD 1
  { seg := g, wave := .ofdm, type := type, dst := dst, pri := pri, ackReq := false, tmi := 0, tide := 3, gi := gi, psc := psc, sf := 0,
    chans := s.everyone g, start := start, data := start + ofdmHead, stop := start + ppduTicks psc gi,
    mpdus := [], body := body, entry := none, cls := none, started := false, ended := false, underrun := false, ready := false, cut := false,
    len := 0, npre := 0, wire := [wire] }

/-- A frame that `x` describes, sent in S1 or S2 with one MPDU (R99, R107, R195, R212). -/
def State.asSwell (s : State) (x : TxFrame) (mode sf len : Nat) : TxFrame :=
  let pre := s.swellPre x.chans
  { x with
    wave := if mode = 2 then .s2 else .s1, tide := 0, tmi := 0, gi := 0, psc := 0, sf := sf, len := len, npre := pre, cls := none,
    data := x.start + (pre + 2) * swellSymbol false sf, stop := x.start + swellTicks false x.type len sf pre }

/-- The MPDU of a beacon (R191, R195): KEY_CLASS 0, its SEQ the low bits of BP_COUNT. -/
def State.beaconMpdu (s : State) (g : Nat) (body : List Byte) : List Byte := plainMpdu (s.rd (K.segs.BP_COUNT g) % 4096) body

/-! One period begins. -/

/-- Open the served windows of the sleepers listed (R220, R221, R250). -/
def State.openWindows (s : State) (g a b : Nat) : State :=
  (s.epsWith fun e => e.seg == g).foldl (fun t i =>
    let t := t.settleSleep i
    if t.windowOpens i a b then
      let e := t.ep i
      let extra := match e.route with
        | some r => t.periodTicks g (r.length - 1)
        | none => 0
      t.modEp i fun e => { e with window := some (b, b + t.slotTicks e.sleep.slots + extra, false) }
    else t) s

/-- Count a period against the negotiations in progress (R175, R176). -/
def State.countDeadlines (s : State) (g : Nat) : State :=
  let s := (s.epsWith fun e => e.seg == g && e.sounding.isSome).foldl (fun t i =>
    t.modEp i fun e => { e with sounding := e.sounding.map fun x => { x with left := x.left - 1 } }) s
  let older := fun (d : Down) =>
    if d.seg = g && d.type = 6 then { d with body := leBytes 5 (ofLe d.body - 2 ^ 32) } else d
  let s := s.modMac fun m => { m with queue := m.queue.map older }
  s.withdraw fun d => d.seg == g && d.type == 6 && ofLe d.body < 2 ^ 32

/-- Association responses age (R196): one without an allocation by the end of its second period is not sent. -/
def State.ageResponses (s : State) (g : Nat) (placed : List Nat) : State :=
  let late := (s.seg g).responses.filter fun r => !placed.contains r.1 && 1 ≤ r.2 &&
    (match s.down? r.1 with
     | some d => d.tries == 0
     | none => false)
  let s := s.modSeg g fun x =>
    { x with responses := (x.responses.filter fun r => !late.contains r && s.mac.queue.any fun d => d.id == r.1).map fun r => (r.1, r.2 + 1) }
  late.foldl (fun t r =>
    match t.mac.queue.find? fun d => d.id == r.1 with
    | none => t
    | some d =>
      let t := t.withdraw fun x => x.id == r.1
      match d.entry with
      | some i => if (t.ep i).state = epAssociating then t.freeEntry i else t
      | none => t) s

/-- Pending listening gaps become those of this period and are counted (R166); an active gap carries its slot plus 24. -/
def State.armGaps (s : State) (g : Nat) : State :=
  let fresh := (s.seg g).gaps.filter fun x => x.2 < 24
  let s := fresh.foldl (fun t x => t.bump (K.tide.STALE_GAPS x.1)) s
  s.modSeg g fun x => { x with gaps := fresh.map fun y => (y.1, y.2 + 24) }

/-- BEACON (R187, R191–R196): the period begins, its allocations are built, and the beacon goes out on every enabled member. -/
def State.beacon (s : State) (g : Nat) : State :=
  if !s.segEnabled g || (s.seg g).winding then s
  else
    let last := (s.seg g).period
    let start := s.nextBeacon g
    let s := (s.atDeadline start).applyPeriodConfig g
    let s := if (s.seg g).beacon.isEmpty then s
      else s.wr (K.segs.BP_COUNT g) ((s.rd (K.segs.BP_COUNT g) + 1) % 65536)
    let a := last.getD (start - 1)
    let s := ((s.countDeadlines g).openWindows g a start).armGaps g
    let (allocs, missed) := s.allocate g a start
    let s := (s.bumpBy (K.segs.ALLOC_OVERFLOW g) missed).ageResponses g (allocs.filterMap (·.response))
    let body := s.beaconHead g start allocs.length ++ s.beaconVectors g ++ allocs.flatMap Alloc.bytes
    let s := (s.modSeg g fun x => { x with period := some start, firstBeacon := none, allocs := allocs, beacon := body }).wr
      (K.segs.SEG_STATE g) 2
    let f := s.robustFrame g 0 0xFFFF 0 start body (s.beaconMpdu g body)
    if f.chans.isEmpty then s else (s.addFrame f).2

/-- BEACON (R191). -/
def execBeacon (seg : Nat) (s : State) : Out := onCore (segCore seg) s (s.beacon seg)

/-- REACH_BEACON (R195): a swell beacon in its sub-band at its SF, with the KIND 2 entries of the period; on a coupled
segment only where it has claimed the slots (R261). -/
def State.reachBeacon (s : State) (g : Nat) : State :=
  let (mode, sf) := s.reachOf g
  match (s.seg g).period with
  | none => s
  | some p =>
    if mode = 0 || !s.segEnabled g || (s.everyone g).isEmpty then s
    else
      let start := s.slotStart g p ((s.seg g).region.getD 2 1)
      let s := s.atDeadline start
      let kept := (s.seg g).allocs.filter fun x => x.kind == 2
      let body := s.beaconHead g start kept.length ++ s.beaconVectors g ++ kept.flatMap Alloc.bytes
      let x := s.asSwell (s.robustFrame g 0 0xFFFF 0 start body (s.beaconMpdu g body)) mode sf (mpduLen body.length 0)
      if s.claimAllows g x.start x.stop then ((s.modSeg g fun y => { y with reach := body }).addFrame x).2 else s

/-- REACH_BEACON (R195). -/
def execReachBeacon (seg : Nat) (s : State) : Out := onCore (segCore seg) s (s.reachBeacon seg)

end Sys2Proof.Machine
end

