-- ==== Sys2Proof/Machine/Filter.lean ====
section
/-! DEFINITION. The filter engine's arithmetic: combs, compensation FIR, user stage and phasor (R389–R395). -/

namespace Sys2Proof.Machine

/-- The units' latch offsets d_u in modulator clocks (R393). -/
def latchOffset (u : Nat) : Nat := if u < 8 then 0 else 4 * (u - 7)

/-- The tick of dump `k` of unit `u` (R393): t0 lies on the grid of 256 modulator clocks aligned to the T0 counter. -/
def dumpTick (u k : Nat) : Nat := clocks (256 * k + latchOffset u)

/-- The fixed delay of stages 1 and 2 in ticks, which LATCH_TICK removes (R389, R394). -/
def fixedDelay : Nat := 274368

/-- Compensation coefficient `k` of 64: symmetric, the sum being 4,194,304 (R392); the rest is open (assumption log, entry 10). -/
def compCoef (k : Nat) : Int :=
  let m := if k < 32 then k else 63 - k
  if m < 31 then sgn 24 (Config.compHalf m) else 2097152 - ((List.range 31).map fun i => sgn 24 (Config.compHalf i)).sum

/-- The 64 compensation coefficients. -/
def compCoefs : List Int := (List.range 64).map compCoef

/-- Saturate an accumulator at ±(2^47 − 1) (R391). -/
def sat48 (x : Int) : Int × Bool := (clampInt (-(2 ^ 47 - 1)) (2 ^ 47 - 1) x, decide (2 ^ 47 ≤ |x|))

/-- Saturate an output at ±8,388,607 (R391). -/
def sat24 (x : Int) : Int × Bool := (clampInt (-8388607) 8388607 x, decide (8388608 ≤ |x|))

/-- Shift right by `n` bits, rounding convergently with ties to even (R391). -/
def roundShift (n : Nat) (x : Int) : Int :=
  let q := x / 2 ^ n
  let r := x % 2 ^ n
  if r * 2 < 2 ^ n then q else if 2 ^ n < r * 2 then q + 1 else if q % 2 = 0 then q else q + 1

/-- Accumulate products, saturating at each addition (R391): the sum and the number of saturations. -/
def mac (acc : Int × Nat) : List (Int × Int) → Int × Nat
  | [] => acc
  | (a, b) :: rest =>
    let t := sat48 (acc.1 + a * b)
    mac (t.1, acc.2 + boolNat t.2) rest

/-- Round an accumulator to an output (R391): the output and the number of saturations so far. -/
def finish (shift : Nat) (acc : Int × Nat) : Int × Nat :=
  let t := sat24 (roundShift shift acc.1)
  (t.1, acc.2 + boolNat t.2)

/-- One biquad section in direct form I (R391): its output, its new history and the saturations. -/
def biquad (k : List Int) (h : Int × Int × Int × Int) (x : Int) : Int × (Int × Int × Int × Int) × Nat :=
  let (x1, x2, y1, y2) := h
  let y := finish 21 (mac (0, 0) [(k.getD 0 0, x), (k.getD 1 0, x1), (k.getD 2 0, x2), (-(k.getD 3 0), y1),
    (-(k.getD 4 0), y2)])
  (y.1, (x, x1, y.1, y1), y.2)

/-- The cascade of biquads in section order. -/
def cascade (x : Int) : List Int → List (Int × Int × Int × Int) → Int × List (Int × Int × Int × Int) × Nat
  | _, [] => (x, [], 0)
  | k, h :: hs =>
    let (y, h', n) := biquad (k.take 5) h x
    let (z, hs', n') := cascade y (k.drop 5) hs
    (z, h' :: hs', n + n')

/-- The user stage of a unit on one stage-2 sample (R389, R391, R392): output, changed unit, saturations. -/
def MainsUnit.userStage (m : MainsUnit) (x : Int) : Int × MainsUnit × Nat :=
  match m.cfg.userStage with
  | 1 =>
    let hist := (x :: m.firHist).take 32
    let y := finish 22 (mac (0, 0) (m.cfg.coef.zip (hist ++ List.replicate (32 - hist.length) 0)))
    (y.1, { m with firHist := hist.take 31 }, y.2)
  | 2 =>
    let (y, hs, n) := cascade x m.cfg.coef m.biquads
    (y, { m with biquads := hs }, n)
  | _ => (x, m, 0)

/-- Stage 1 on one integrator word `w`: four combs, scaled from 2^32 to 2^23 (R389, R391): the output and whether it saturated. The
integrators' words are 48 bits wide (assumption log, entry 62). -/
def combOut (w : Nat) (h : List Nat) : Int × Bool :=
  let x (i : Nat) : Int := h.getD i 0
  sat24 (roundShift 9 (sgn 48 (((w : Int) - 4 * x 0 + 6 * x 1 - 4 * x 2 + x 3) % 2 ^ 48).toNat))

/-- Stages 1 and 2 of a unit on the word of dump `k` taken at `tick` (R384, R389): the unit, and a stage 2 sample where the dump
falls on a decimation instant, with its saturations. The first two words after the start-up delay are discarded: they pass only through
the combs. -/
def MainsUnit.takeWord (m : MainsUnit) (k w tick : Nat) : MainsUnit × Option (Int × Nat) :=
  let n := if tick < m.startAt then m.chain else Nat.min 68 (m.chain + 1)
  let (y, sat) := combOut w m.combs
  let m := { m with chain := n, combs := (w :: m.combs).take 4 }
  if n ≤ 2 then (m, none)
  else
    let m := { m with compHist := (y :: m.compHist).take 64, satNew := m.satNew + boolNat sat }
    if k % 4 ≠ 0 then (m, none)
    else
      let x := finish 22 (mac (0, m.satNew) (compCoefs.zip m.compHist))
      ({ m with satNew := 0 }, some x)

/-! The phasor stage (R395). -/

/-- The part of a sample interval of 1,024 clocks about instant `t` that lies inside the window from `a` to `b`, in 2^-16 tick. -/
def edgeWeight (a b t : Int) : Int :=
  let half : Int := clocks 512 * 2 ^ 16
  max 0 (min b (t + half) - max a (t - half))

/-- The one-cycle Fourier transform of samples over the window from `a` to `b` (2^-16 tick), about its midpoint, in 2^-30 of sample
× 2^-16 tick: the cosine and the sine sum. -/
def fourier (a b : Int) (xs : List (Int × Int)) : Gauss :=
  xs.foldl (fun acc (t, x) =>
    let w := edgeWeight a b t
    if w = 0 then acc
    else
      let c := turned (((2 * t - a - b) * 2 ^ 32) / (2 * (b - a))) (1, 0)
      (acc.1 + c.1 * x * w, acc.2 + c.2 * x * w)) (0, 0)

/-- MAGNITUDE: the RMS of the fundamental in 2^-24 of full scale from its sums over a window of `len` (R395). -/
def phasorMagnitude (len : Nat) (g : Gauss) : Nat := isqrt (8 * (g.1.natAbs * g.1.natAbs + g.2.natAbs * g.2.natAbs) / (2 ^ 60 * (len * len)))

/-- The fundamental's angle at the window's midpoint, in 2^-32 cycle, a cosine's peak being 0. -/
def phasorAngle (g : Gauss) : Int := turnOf (g.1, -g.2)

end Sys2Proof.Machine
end

