-- ==== Sys2Proof/Machine/Mains.lean ====
section
/-! DEFINITION. Mains converters: configuration, triggers, results, thresholds and alarms (R374–R400). -/

namespace Sys2Proof.Machine

/-- Unit `u`. -/
def State.unit (s : State) (u : Nat) : MainsUnit := Tbl.atD s.mains.units u (MainsUnit.reset u)

/-- Change unit `u`. -/
def State.modUnit (s : State) (u : Nat) (f : MainsUnit → MainsUnit) : State :=
  s.modMains fun m => { m with units := Tbl.modD (MainsUnit.reset u) m.units u f }

/-- The INTEGER32 values of a byte string (R392). -/
def int32s : Nat → List Byte → List Int
  | 0, _ => []
  | n + 1, b => sgn 32 (ofLe (b.take 4)) :: int32s n (b.drop 4)

/-- The configuration entries of unit `u` as the dictionary holds them (R399). -/
def State.mainsCfg (s : State) (u : Nat) : MainsCfg where
  mode := s.rd (K.mc.MODE u)
  path := s.rd (K.mc.PATH u)
  acq := s.rd (K.mc.ACQ u)
  input := s.rd (K.mc.INPUT_SEL u)
  avg := s.rd (K.mc.AVG_LOG2 u)
  period := s.rd (K.mc.SH240_PERIOD u)
  paired := s.flag (K.mc.PAIRED u)
  grouped := s.flag (K.mc.GROUPED u)
  source := s.rd (K.mc.TRIG_SOURCE u)
  param := s.rd (K.mc.TRIG_PARAM u)
  sched := s.rd (K.mc.SCHED_START u)
  levels := (s.rdInt (K.mc.TH_LEVEL_0 u), s.rdInt (K.mc.TH_LEVEL_1 u))
  hysts := (s.rd (K.mc.TH_HYST_0 u), s.rd (K.mc.TH_HYST_1 u))
  thSources := (s.rd (K.mc.TH_SOURCE_0 u), s.rd (K.mc.TH_SOURCE_1 u))
  thAlarms := (s.rd (K.mc.TH_ALARM_0 u), s.rd (K.mc.TH_ALARM_1 u))
  holdoff := s.rd (K.mc.ALARM_HOLDOFF u)
  userStage := s.rd (K.mc.USER_STAGE u)
  coef := int32s ((s.rdB (K.mc.USER_COEF u)).length / 4) (s.rdB (K.mc.USER_COEF u))
  skew := s.flag (K.mc.SKEW_COMP u)

/-- A combination of MODE, PATH and ACQ that R376 gives. -/
def modeGood (mode path acq : Nat) : Bool :=
  mode == 0 || mode == 2 || (mode == 1 && (path == 1 || acq == 0))

/-- The first T9 edge at or after tick `t`: T9 clocks lie on multiples of 32 ticks (R15). -/
def nextEdge (t : Nat) : Nat := (t + 31) / 32 * 32

/-- A restart of unit `u` (R384): averager, filters and thresholds begin anew, conversions in progress are gone, and the
waveform path is UNSETTLED until its chain settles. The configuration entries are in force. -/
def State.restartUnit (s : State) (u : Nat) : State :=
  let c := s.mainsCfg u
  s.modUnit u fun m =>
    { MainsUnit.reset u with
      cfg := c
      edge := m.edge
      trigTick := m.trigTick
      startAt := s.now + startTicks c.mode c.path
      nextDump := m.nextDump
      ring := m.ring
      ths := ({ m.ths.1 with valid := false }, { m.ths.2 with valid := false })
      holdUntil := m.holdUntil
      heldAlarm := m.heldAlarm
      lastSched := m.lastSched }

/-- Put the configuration entries of unit `u` in force at a result boundary (R385); a change of the user stage clears its
history, and outputs are UNSETTLED for 32 samples of 1,024 clocks. -/
def State.applyMainsCfg (s : State) (u : Nat) : State :=
  let c := s.mainsCfg u
  s.modUnit u fun m =>
    if c.userStage ≠ m.cfg.userStage then
      { m with
        cfg := c
        firHist := []
        biquads := (MainsUnit.reset u).biquads
        userWait := 32 }
    else { m with cfg := c }

/-- MAINS_CONFIG_APPLY (R385): not while a triggered conversion is in progress. -/
def State.mainsConfigApply (s : State) (u : Nat) : State :=
  if u < 64 && !(s.unit u).busy then s.applyMainsCfg u else s

/-- MAINS_CONFIG_APPLY (R385). -/
def execMainsConfigApply (unit : Nat) (s : State) : Out := whenRunning s (s.mainsConfigApply unit)

/-- A write to MODE (sub 1), PATH (2), ACQ (3) or INPUT_SEL (4) of unit `u` (R374, R376, R381, R384). -/
def State.mainsRestartWrite (s : State) (u sub value : Nat) : WriteResult :=
  let mode := if sub = 1 then value else s.rd (K.mc.MODE u)
  let path := if sub = 2 then value else s.rd (K.mc.PATH u)
  let acq := if sub = 3 then value else s.rd (K.mc.ACQ u)
  if 2 < mode || 1 < path || 1 < acq || !modeGood mode path acq ||
      (sub == 1 && value != 2 && s.flag (K.mc.PAIRED u)) ||
      (sub == 4 && (value == 6 || value == 7 || 15 < value)) then .refuse .range s
  else
    let r := match sub with
      | 1 => K.mc.MODE u
      | 2 => K.mc.PATH u
      | 3 => K.mc.ACQ u
      | _ => K.mc.INPUT_SEL u
    let changed := s.rd r ≠ value
    let s := s.wr r value
    .accept (if changed then s.restartUnit u else s)

/-- Unit `u` is the partner of a pair (R381). -/
def State.partnerOf (s : State) (u : Nat) : Bool := u % 2 == 1 && 9 ≤ u && s.flag (K.mc.PAIRED (u - 1))

/-- The rules of the other entries of unit `u` (R381, R388, R392, R399): the abort code, if any. -/
def State.mainsEntryRefused (s : State) (u sub value : Nat) : Option Abort :=
  match sub with
  | 6 => if s.flag (K.mc.PAIRED u) && value % 2 = 1 then some .range else none
  | 7 => if value ≠ 0 && (u < 8 || u % 2 = 1 || s.rd (K.mc.MODE u) ≠ 2 || s.rd (K.mc.SH240_PERIOD u) % 2 = 1) then
      some .range else none
  | 8 => if value ≠ 0 && 7 < u then some .range else none
  | _ => none

/-- A mains breakwater overflows (R17, R384): the newest word is dropped and the unit restarts; the words before it stay. -/
def State.mainsOverflow (s : State) (u : Nat) : State :=
  ((s.setFlag (K.mcr.BW_OVERFLOW u) true).restartUnit u).modUnit u fun m => { m with words := (s.unit u).words }

/-- MAINS_BW_OVERFLOW (R17, R384). -/
def execMainsBwOverflow (unit : Nat) (s : State) : Out := whenRunning s (if unit < 64 then s.mainsOverflow unit else s)

/-! Triggers (R383–R388). -/

/-- Unit `u` takes triggers: in `TRIGGERED` acquisition and not `OFF`. -/
def MainsUnit.triggered (m : MainsUnit) : Bool := m.cfg.mode != 0 && m.cfg.acq == 1

/-- The start-up delay D of a unit in ticks (R383). -/
def MainsCfg.startUp (c : MainsCfg) : Nat := clocks (if c.mode = 2 then 52 else 1152)

/-- Start a conversion of unit `u` at edge `e` for the trigger recognised at `t`, with start-up delay `d` (R383, R387): it latches
at e + D + d_u. -/
def State.startConversion (s : State) (u e t d : Nat) (pended : Bool) : State :=
  let latch := e + d + clocks (latchOffset u)
  s.modUnit u fun m =>
    { m with busy := true, edge := e, trigTick := t, pended := pended, pending := none, sum := 0, summed := 0, sumFlags := 0,
             latchNext := some latch, winEnd := latch }

/-- A dropped trigger (R387). -/
def State.triggerLost (s : State) (u : Nat) : State :=
  (s.setFlag (K.mcr.TRIGGER_LOST u) true).bump (K.mcr.TRIGGER_LOST_COUNT u)

/-- A trigger of unit `u` recognised at edge `e` (R387): a conversion, a pending trigger, or a loss; a second trigger at the
same edge is lost. -/
def State.trigger (s : State) (u e : Nat) : State :=
  let m := s.unit u
  if !m.triggered then s
  else if !m.busy then s.startConversion u e e m.cfg.startUp false
  else if m.pending.isSome || (m.edge = e && !m.pended) then s.triggerLost u
  else s.modUnit u fun m => { m with pending := some e }

/-- The members of the simultaneous group (R388). -/
def State.groupMembers (s : State) : List Nat :=
  (List.range 8).filter fun u => (s.unit u).cfg.grouped && (s.unit u).triggered

/-- D_max, the largest start-up delay among the members (R388). -/
def State.groupDelay (s : State) : Nat := (s.groupMembers.map fun u => (s.unit u).cfg.startUp).foldl max 0

/-- A group trigger recognised at edge `e` (R388): all members at once, or pended for the whole group, or lost by every
member. -/
def State.groupTrigger (s : State) (e : Nat) : State :=
  let ms := s.groupMembers
  if ms.isEmpty then s
  else if ms.all fun u => !(s.unit u).busy then
    ms.foldl (fun t u => t.startConversion u e e s.groupDelay false) s
  else if s.mains.groupPending.isSome || (ms.all fun u => (s.unit u).edge == e && !(s.unit u).pended) then
    (ms.foldl (fun t u => t.triggerLost u) s).bump K.grp.GROUP_LOST_COUNT
  else s.modMains fun m => { m with groupPending := some e }

/-- Unit `u` leaves busy (R385, R387, R388): its configuration applies, and a pending trigger starts at the next T9 edge. -/
def State.leaveBusy (s : State) (u : Nat) : State :=
  let m := s.unit u
  let s := (s.modUnit u fun m => { m with busy := false, latchNext := none }).applyMainsCfg u
  let e := nextEdge (s.now + 1)
  if m.cfg.grouped then
    match s.mains.groupPending with
    | none => s
    | some t =>
      if s.groupMembers.all fun v => !(s.unit v).busy then
        s.groupMembers.foldl (fun w v => w.startConversion v e t s.groupDelay true)
          (s.modMains fun g => { g with groupPending := none })
      else s
  else
    match m.pending with
    | none => s
    | some t => s.startConversion u e t (s.unit u).cfg.startUp true

/-- A write of TRIG_NOW (R386, R388): TRUE triggers the unit at the next edge, whatever its source; a grouped unit never takes
it. -/
def State.trigNow (s : State) (u value : Nat) : WriteResult :=
  .accept (if value ≠ 0 && !(s.unit u).cfg.grouped then s.trigger u (nextEdge s.now) else s)

/-- A write of GROUP_TRIG_NOW (R388). -/
def State.groupTrigNow (s : State) (value : Nat) : WriteResult :=
  .accept (if value ≠ 0 then s.groupTrigger (nextEdge s.now) else s)

/-- Trigger a unit or the group at edge `e`; a grouped unit takes no trigger of its own (R388). -/
def State.triggerWho (s : State) (w : TrigWho) (e : Nat) : State :=
  match w with
  | .unit u => if (s.unit u).cfg.grouped then s else s.trigger u e
  | .group => s.groupTrigger e

/-- The trigger source, parameter and schedule of a unit or of the group (R386, R399). -/
def State.trigSpec (s : State) (w : TrigWho) : Nat × Nat × Nat :=
  match w with
  | .unit u => ((s.unit u).cfg.source, (s.unit u).cfg.param, (s.unit u).cfg.sched)
  | .group => (s.rd K.grp.GROUP_SOURCE, s.rd K.grp.GROUP_PARAM, s.rd K.grp.GROUP_SCHED_START)

/-- A unit number of a trigger is one of MC0–MC63. -/
def whoValid : TrigWho → Bool
  | .unit u => u < 64
  | .group => true

/-- The last recognised schedule instant of a unit or of the group. -/
def State.lastSched (s : State) : TrigWho → Option Nat
  | .unit u => (s.unit u).lastSched
  | .group => s.mains.groupSched

/-- Note that schedule instant `m` has been recognised. -/
def State.setLastSched (s : State) (w : TrigWho) (m : Nat) : State :=
  match w with
  | .unit u => s.modUnit u fun x => { x with lastSched := some m }
  | .group => s.modMains fun x => { x with groupSched := some m }

/-- An instant of domain time lies before the latest step: a forward step skipped it (R419). -/
def State.skipped (s : State) (tick : Nat) : Bool :=
  match s.time.stepTick with
  | some t => tick < t
  | none => false

/-- SCHEDULE_TRIGGER (R386, R419): instant SCHED_START + m × TRIG_PARAM µs; no instant is taken twice. -/
def State.scheduleTrigger (s : State) (w : TrigWho) (m : Nat) : State :=
  let (source, param, sched) := s.trigSpec w
  let again := match s.lastSched w with
    | some l => m ≤ l
    | none => false
  if !whoValid w || source ≠ 1 || param < 20 || again then s
  else
    let tick := s.tickOf (dtOfPair sched + m * param * dtSecond / 1000000)
    if s.skipped tick then s.setLastSched w m
    else
      let s := s.passTo (nextEdge tick)
      (s.setLastSched w m).triggerWho w (nextEdge s.now)

/-- SCHEDULE_TRIGGER (R386). -/
def execScheduleTrigger (who : TrigWho) (m : Nat) (s : State) : Out := whenRunning s (s.scheduleTrigger who m)

/-- MAINS_PHASE_TRIGGER (R386): on every TRIG_PARAM[23:16]-th cycle, at TRIG_PARAM[15:0] × 2^-16 of the cycle. -/
def State.phaseTrigger (s : State) (w : TrigWho) (cycle : Nat) : State :=
  let (source, param, _) := s.trigSpec w
  let n := field param 16 8
  if !whoValid w || source ≠ 2 || n = 0 || cycle % n ≠ 0 then s
  else
    let tick := s.phaseTick cycle (field param 0 16 * 2 ^ 16)
    let s := s.passTo (nextEdge tick)
    s.triggerWho w (nextEdge s.now)

/-- MAINS_PHASE_TRIGGER (R386). -/
def execMainsPhaseTrigger (who : TrigWho) (cycle : Nat) (s : State) : Out := whenRunning s (s.phaseTrigger who cycle)

/-- The units and the group whose trigger source is `src` and whose parameter satisfies `p`. -/
def State.subscribers (s : State) (src : Nat) (p : Nat → Bool) : List TrigWho :=
  ((List.range 64).filter (fun u => (s.unit u).cfg.source == src && p (s.unit u).cfg.param)).map .unit ++
    (if s.rd K.grp.GROUP_SOURCE = src && p (s.rd K.grp.GROUP_PARAM) then [.group] else [])

/-- Trigger every subscriber at edge `e`. -/
def State.triggerAll (s : State) (ws : List TrigWho) (e : Nat) : State := ws.foldl (fun t w => t.triggerWho w e) s

/-- PPS_TRIGGER (R386, R419): the next whole second of domain time; a backward step repeats none. -/
def State.ppsTrigger (s : State) : State :=
  let sec := s.nextSecond s.mains.lastPps
  let s := s.passTo (nextEdge (s.tickOf (sec * dtSecond)))
  (s.modMains fun m => { m with lastPps := some sec }).triggerAll (s.subscribers 3 fun _ => true) (nextEdge s.now)

/-- PPS_TRIGGER (R386). -/
def execPpsTrigger (s : State) : Out := whenRunning s s.ppsTrigger

/-- MCTRIG_EDGE (R386): recognised at the third T9 edge after the pin edge. -/
def State.mctrigEdge (s : State) (rising : Bool) : State :=
  let s := s.modPins fun p => { p with mctrig := rising }
  s.triggerAll (s.subscribers 5 fun p => bitOf p 0 != rising) (nextEdge (s.now + 1) + 64)

/-- MCTRIG_EDGE (R386). -/
def execMctrigEdge (rising : Bool) (s : State) : Out := whenRunning s (s.mctrigEdge rising)

/-! Results, thresholds and alarms (R394–R400). -/

/-- The bytes of an alarm's REPORT payload, 24 bytes in network byte order (R398). -/
def Alarm.payload (a : Alarm) : List Byte :=
  beBytes 1 a.unit ++ beBytes 1 a.th ++ beBytes 1 (boolNat a.down) ++ beBytes 1 a.flags ++ beBytes 4 (twos 32 a.value) ++
    beBytes 4 (twos 32 a.level) ++ beBytes 2 a.count ++ beBytes 2 0 ++ beBytes 8 a.time

/-- Send an alarm into Q254 (R398): the alarm is lost to an overrun when the queue is full. -/
def State.sendAlarm (s : State) (u : Nat) (a : Alarm) : State :=
  let full := s.queueFull 254
  let s := (s.bump (K.mcr.ALARMS_SENT u)).queuePut 254 (u + a.th * 2 ^ 8) true
  let s := if full then s else s.modMains fun m => { m with alarms := m.alarms ++ [a] }
  s.modUnit u fun m =>
    { m with
      holdUntil := if m.cfg.holdoff = 0 then none else some (s.now + msTicks m.cfg.holdoff)
      heldAlarm := none
      ths := ({ m.ths.1 with sinceAlarm := 0 }, { m.ths.2 with sinceAlarm := 0 }) }

/-- An alarm-enabled crossing (R398): sent, or held during the hold-off. -/
def State.alarm (s : State) (u : Nat) (a : Alarm) : State :=
  match (s.unit u).holdUntil with
  | some t =>
    if s.now < t then (s.bump (K.mcr.ALARMS_HELD u)).modUnit u fun m => { m with heldAlarm := some a }
    else s.sendAlarm u a
  | none => s.sendAlarm u a

/-- ALARM_HOLDOFF_EXPIRY (R398): one alarm goes out for the latest held crossing. -/
def State.holdoffExpiry (s : State) (u : Nat) : State :=
  match (s.unit u).holdUntil with
  | none => s
  | some t =>
    let s := (s.atDeadline t).modUnit u fun m => { m with holdUntil := none }
    match (s.unit u).heldAlarm with
    | some a => s.sendAlarm u a
    | none => s

/-- ALARM_HOLDOFF_EXPIRY (R398). -/
def execAlarmHoldoffExpiry (unit : Nat) (s : State) : Out := whenRunning s (s.holdoffExpiry unit)

/-- Threshold `j` of a unit. -/
def MainsUnit.th (m : MainsUnit) (j : Nat) : Thresh := if j = 0 then m.ths.1 else m.ths.2

/-- Change threshold `j` of unit `u`. -/
def State.modTh (s : State) (u j : Nat) (f : Thresh → Thresh) : State :=
  s.modUnit u fun m => { m with ths := if j = 0 then (f m.ths.1, m.ths.2) else (m.ths.1, f m.ths.2) }

/-- One value judged by a threshold (R396): the new threshold, and the crossing, `some true` being downwards. -/
def Thresh.judge (t : Thresh) (level : Int) (hyst : Nat) (v : Int) : Thresh × Option Bool :=
  if !t.valid then
    ({ t with valid := true, above := level ≤ v, max := v, min := v, latest := v }, none)
  else
    let mm := { t with max := Max.max t.max v, min := Min.min t.min v, latest := v }
    if !t.above && level ≤ v then
      ({ mm with above := true, aboveSeen := true, count := Nat.min (t.count + 1) 65535,
                 sinceAlarm := Nat.min (t.sinceAlarm + 1) 65535 }, some false)
    else if t.above && v < level - hyst then
      ({ mm with above := false, belowSeen := true, count := Nat.min (t.count + 1) 65535,
                 sinceAlarm := Nat.min (t.sinceAlarm + 1) 65535 }, some true)
    else (mm, none)

/-- A TRIG_PARAM that names a crossing of unit `u`, threshold `j`, direction `down` (R386). -/
def crossingNamed (u j : Nat) (down : Bool) (p : Nat) : Bool :=
  field p 0 6 == u && field p 6 1 == j && (field p 7 2 == boolNat down || field p 7 2 == 2)

/-- A crossing acts (R398): triggers within 2.0 µs, and an alarm when its direction is enabled. -/
def State.crossing (s : State) (u j : Nat) (down : Bool) (value level : Int) (flags time : Nat) : State :=
  let c := (s.unit u).cfg
  let enabled := bitOf (if j = 0 then c.thAlarms.1 else c.thAlarms.2) (boolNat down)
  let source := if j = 0 then c.thSources.1 else c.thSources.2
  let a : Alarm := ⟨u, j, down, source + 2 * field flags 1 1 + 4 * field flags 4 1 + 8 * field flags 2 1, value, level,
    ((s.unit u).th j).sinceAlarm, time⟩
  let s := if enabled then s.alarm u a else s
  s.triggerAll (s.subscribers 4 (crossingNamed u j down)) (nextEdge (s.now + 1))

/-- Judge threshold `j` of unit `u` with a value of source `src` (R396); values flagged UNSETTLED are not compared. -/
def State.judgeTh (s : State) (u j src : Nat) (v : Int) (flags time : Nat) : State :=
  let c := (s.unit u).cfg
  let (level, hyst, source) := if j = 0 then (c.levels.1, c.hysts.1, c.thSources.1)
    else (c.levels.2, c.hysts.2, c.thSources.2)
  if bitOf flags 0 || source ≠ src || (src = 1 && !(c.mode = 1 && c.path = 0)) then s
  else
    let (t, cross) := ((s.unit u).th j).judge level hyst v
    let s := s.modTh u j fun _ => t
    match cross with
    | none => s
    | some down => s.crossing u j down v level flags time

/-- Both thresholds of unit `u`, in order. -/
def State.judge (s : State) (u src : Nat) (v : Int) (flags time : Nat) : State :=
  (s.judgeTh u 0 src v flags time).judgeTh u 1 src v flags time

/-- EVENT_j of unit `u` (R397). -/
def Thresh.bytes (t : Thresh) : List Byte :=
  leBytes 2 (boolNat t.aboveSeen + 2 * boolNat t.belowSeen + 4 * boolNat t.above + 8 * boolNat t.valid) ++
    leBytes 2 t.count ++ leBytes 4 (twos 32 t.max) ++ leBytes 4 (twos 32 t.min)

/-- A read of EVENT_j clears it (R397). -/
def State.eventRead (s : State) (u j : Nat) : List Byte × State :=
  (((s.unit u).th j).bytes,
    s.modTh u j fun t =>
      { t with aboveSeen := false, belowSeen := false, count := 0, max := t.latest, min := t.latest })

/-- Flag words (R400). -/
def flagWord (unsettled holdover saturated pended unsync : Bool) : Nat :=
  boolNat unsettled + 2 * boolNat holdover + 4 * boolNat saturated + 8 * boolNat pended + 16 * boolNat unsync

/-- C0 places a result in the result objects of unit `u` (R400): LAST_RESULT with the result count modulo 65,536, RESULTS,
TRIG_TICK and WAVE_RING. -/
def State.placeResult (s : State) (u : Nat) (v : Int) (flags latch trig : Nat) : State :=
  let s := s.bump (K.mcr.RESULTS u)
  let n := ofLe (((s.rdB (K.mcr.LAST_RESULT u)).drop 6).take 2) + 1
  let s := s.wrB (K.mcr.LAST_RESULT u)
    (leBytes 4 (twos 32 v) ++ leBytes 2 flags ++ leBytes 2 n ++ leBytes 8 latch)
  let s := if trig = 0 then s else s.wr (K.mcr.TRIG_TICK u) trig
  s.modUnit u fun m =>
    { m with ring := (if m.ring.length = 1024 then m.ring.drop 1 else m.ring) ++ [⟨latch, v, flags⟩] }

/-- The filter engine delivers a result of unit `u`: it travels to C0 through Q112 + u (R363, R400), where C0 takes it at once unless
it has halted and a full queue loses it (R366); the thresholds judge it (R396). -/
def State.deliver (s : State) (u : Nat) (v : Int) (flags latch trig : Nat) : State :=
  let s := if s.queueFull (112 + u) || !s.coreUp 0 then s.queuePut (112 + u) (twos 32 v + 2 ^ 32 * flags) true
    else s.placeResult u v flags latch trig
  s.judge u 0 v flags (dtPair (s.dtOf latch))

/-- WAVE_RING (R400). -/
def MainsUnit.ringBytes (m : MainsUnit) : List Byte :=
  match m.ring with
  | [] => leBytes 8 0 ++ leBytes 2 0 ++ leBytes 2 0
  | r :: _ =>
    leBytes 8 r.latch ++ leBytes 2 m.ring.length ++ leBytes 2 ((m.ring.getLast?.map (·.flags)).getD 0) ++
      m.ring.flatMap fun x => leBytes 4 (twos 32 x.value)

/-! The filter engine's intake (R389, R390). -/

/-- Dump `k` of unit `u` reaches its mains breakwater (R17, R389): a unit outside the waveform path, or before the end of its start-up
delay, yields no word; a full breakwater overflows. -/
def State.takeDump (s : State) (u k w : Nat) : State :=
  let m := s.unit u
  if 64 ≤ u || m.cfg.mode ≠ 1 || m.cfg.path ≠ 0 || k < m.nextDump || dumpTick u k < m.startAt then s
  else
    let s := s.modUnit u fun m => { m with nextDump := k + 1 }
    if 64 ≤ m.words.length then s.mainsOverflow u
    else s.modUnit u fun m => { m with words := m.words ++ [(k, w % 2 ^ 48)] }

/-- The word that the engine takes next (R390): the earliest latch instant over all units, MC0 first among equals. -/
def State.nextWord (s : State) : Option (Nat × Nat × Nat) :=
  s.mains.units.foldl (fun best p =>
    match p.2.words with
    | [] => best
    | (k, w) :: _ =>
      match best with
      | some (v, j, _) => if dumpTick p.1 k < dumpTick v j then some (p.1, k, w) else best
      | none => some (p.1, k, w)) none

/-- Deliver a stage 2 sample `x` of unit `u` with its saturations, at dump `k` (R389, R391, R394): the phasor stage keeps it, the
user stage filters it. -/
def State.waveSample (s : State) (u k : Nat) (x : Int × Nat) : State :=
  let latch := dumpTick u k - fixedDelay
  let (y, m, n) := (s.unit u).userStage x.1
  let filled := m.chain == 68
  let unsettled := !filled || (m.cfg.userStage != 0 && m.userWait != 0)
  let m := { m with
    wave := ((latch, x.1) :: m.wave).take 512
    userWait := if filled then m.userWait - 1 else m.userWait
    settledAt := match m.settledAt with
      | some t => some t
      | none => if unsettled then none else some latch }
  let s := (s.modUnit u fun _ => m).bumpBy (K.mcr.ACC_OVERFLOW u) (x.2 + n)
  (s.deliver u y (flagWord unsettled false (x.2 + n != 0) false false) latch 0).applyMainsCfg u

/-- The engine takes waiting words in order until one completes a sample (R390), `fuel` words at most. -/
def State.engineRun (s : State) : Nat → State
  | 0 => s
  | n + 1 =>
    match s.nextWord with
    | none => s
    | some (u, k, w) =>
      let s := s.passTo (dumpTick u k)
      let (m, x) := (s.unit u).takeWord k w (dumpTick u k)
      let s := s.modUnit u fun _ => { m with words := m.words.drop 1 }
      match x with
      | some x => s.waveSample u k x
      | none => s.engineRun n

/-- WAVEFORM_SAMPLE (R389–R394): the dumps (unit, number on the grid, word) that have reached the breakwaters, and the engine up
to its next sample. -/
def State.waveformSample (s : State) (dumps : List (Nat × Nat × Nat)) : State :=
  let s := dumps.foldl (fun t d => t.takeDump d.1 d.2.1 d.2.2) s
  s.engineRun (s.mains.units.map fun p => p.2.words.length).sum

/-- WAVEFORM_SAMPLE (R389). -/
def execWaveformSample (dumps : List (Nat × Nat × Nat)) (s : State) : Out := whenRunning s (s.waveformSample dumps)

/-- Reference phase zero `k` in 2^-16 tick, by the phase held. -/
def State.zeroAt (s : State) (k : Nat) : Int := s.tracker.zero + ((k : Int) - s.tracker.cycle) * s.tracker.period

/-- The sums of unit `u`'s stage 2 samples over cycle `k`, at their true latch instants or, with SKEW_COMP clear, at instants
without d_u (R395). -/
def State.phasorSums (s : State) (u k : Nat) : Gauss :=
  let m := s.unit u
  let back := if m.cfg.skew then 0 else clocks (latchOffset u)
  fourier (s.zeroAt k) (s.zeroAt (k + 1)) (m.wave.map fun x => ((((x.1 - back) * 2 ^ 16 : Nat) : Int), x.2))

/-- PHASOR (R395, R396): the phasor of cycle `k` of unit `u`; the reference unit's phasor waits for the tracker. -/
def State.phasorResult (s : State) (u k : Nat) : State :=
  let m := s.unit u
  if 64 ≤ u || m.cfg.mode ≠ 1 || m.cfg.path ≠ 0 then s
  else
    let a := s.zeroAt k
    let b := s.zeroAt (k + 1)
    let g := s.phasorSums u k
    let mid := ((a + b) / 2).toNat
    let magnitude := phasorMagnitude s.tracker.period g
    let x := s.dtOf (mid / 2 ^ 16)
    let phase := ((phasorAngle g - ((s.tracker.nominal * (x % dtSecond) * 2 ^ 32 / dtSecond : Nat) : Int)) % 2 ^ 32).toNat
    let unsettled := match m.settledAt with
      | some t => decide (a < t * 2 ^ 16)
      | none => true
    let flags := flagWord unsettled (s.heldIn (a / 2 ^ 16).toNat (ceilDiv b.toNat (2 ^ 16))) false false !s.synchronised
    let s := s.passTo (ceilDiv b.toNat (2 ^ 16))
    let s := s.wrB (K.mcr.PHASOR u)
      (leBytes 4 magnitude ++ leBytes 4 phase ++ leBytes 4 (dtFrac x) ++ leBytes 4 (dtSec x) ++ leBytes 4 flags)
    let s := if u = s.rd K.trk.REF_UNIT then
        s.modTracker fun t => { t with phasor := some ⟨magnitude, unsettled, phasorAngle g, mid⟩ }
      else s
    s.judge u 1 magnitude flags (dtPair x)

/-- PHASOR (R395). -/
def execPhasor (unit cycle : Nat) (s : State) : Out := whenRunning s (s.phasorResult unit cycle)

/-- Round `a / b` to the nearest integer, ties to even. -/
def roundDiv (a : Int) (b : Nat) : Int :=
  let q := a / b
  let r := a % b
  if r * 2 < b then q else if (b : Int) < r * 2 then q + 1 else if q % 2 = 0 then q else q + 1

/-- N_p of a period in units of 2^-16 tick (R378). -/
def windowClocks (period : Nat) : Nat := (roundDiv period (32 * 2 ^ 16)).toNat

/-- One result enters the averager (R382): 2^n results are summed and their sum is shifted down arithmetically; the value goes out with
the LATCH_TICK of its first member and the flags of all, and a triggered conversion is then over. -/
def State.average (s : State) (u : Nat) (v : Int) (latch flags : Nat) : State :=
  let m := s.unit u
  let first := if m.summed = 0 then latch else m.firstLatch
  let sum := m.sum + v
  let flags := flags ||| m.sumFlags
  if m.summed + 1 < 2 ^ m.cfg.avg then
    s.modUnit u fun m => { m with sum := sum, summed := m.summed + 1, firstLatch := first, sumFlags := flags }
  else
    let trig := m.cfg.acq = 1
    let s := s.modUnit u fun m => { m with sum := 0, summed := 0, sumFlags := 0 }
    let s := s.deliver u (sum / 2 ^ m.cfg.avg) (flags + 8 * boolNat (trig && m.pended)) first (if trig then m.trigTick else 0)
    if trig then s.leaveBusy u else s.applyMainsCfg u

/-- The first clock of the window of mains cycle `k` in `CONTINUOUS`, or of a triggered unit's next window (R379). -/
def State.windowStart (s : State) (u k : Nat) : Nat :=
  let m := s.unit u
  if m.cfg.acq = 1 then m.winEnd
  else max m.winEnd (nextEdge (s.phaseTick k 0) + clocks (latchOffset u))

/-- CYCLE_INTEGRAL (R378, R379, R382): the sum of the bit stream over the window of cycle `k`; the period is the tracker's at the
window's first clock, and in `HOLDOVER` the held one, with the result flagged. No window that begins before the end of the start-up
delay gives a result (R384). -/
def State.cycleIntegral (s : State) (u k : Nat) (bits : Int) : State :=
  let m := s.unit u
  let again := match m.lastWin with
    | some j => k ≤ j
    | none => false
  if 64 ≤ u || m.cfg.mode ≠ 1 || m.cfg.path ≠ 1 || (if m.cfg.acq = 1 then !m.busy else again) then s
  else
    let start := s.windowStart u k
    let n := windowClocks (s.periodAt start)
    let (v, sat) := sat24 (roundDiv (bits * 2 ^ 23) n)
    let held := s.heldIn start (start + 1)
    let s := s.passTo (start + clocks n)
    let s := s.modUnit u fun m => { m with winEnd := start + clocks n, lastWin := if m.cfg.acq = 1 then m.lastWin else some k }
    if start < m.startAt && m.cfg.acq ≠ 1 then s
    else s.average u v start (flagWord false held sat false false)

/-- CYCLE_INTEGRAL (R378). -/
def execCycleIntegral (unit cycle : Nat) (bits : Int) (s : State) : Out := whenRunning s (s.cycleIntegral unit cycle bits)

/-- The code of an SH-240 conversion of a voltage in nanovolts (R380). -/
def sh240Code (nanovolts : Int) : Int := clampInt 0 0xFFF (nanovolts * 4096 / 2500000000)

/-- The latch instant of a unit's next SH-240 conversion (R380, R383, R393): in `CONTINUOUS` the first lies on the grid at or after
the start-up delay (assumption log, entry 62). -/
def MainsUnit.nextLatch (m : MainsUnit) (u : Nat) : Nat :=
  match m.latchNext with
  | some t => t
  | none => dumpTick u (ceilDiv (m.startAt - clocks (latchOffset u)) (clocks 256))

/-- SH240_RESULT (R380–R382): a conversion of unit `u`, or of its partner while the pair is formed, which latches half a period after
it, enters the averager of the even unit. -/
def State.sh240Result (s : State) (u : Nat) (nanovolts : Int) : State :=
  let u := if u % 2 = 1 && 9 ≤ u && (s.unit (u - 1)).cfg.paired && (s.unit (u - 1)).cfg.mode = 2 then u - 1 else u
  let m := s.unit u
  if 64 ≤ u || m.cfg.mode ≠ 2 || (m.cfg.acq = 1 && !m.busy) then s
  else
    let latch := m.nextLatch u
    let s := s.passTo latch
    let s := s.modUnit u fun m =>
      { m with latchNext := some (latch + clocks (if m.cfg.paired then m.cfg.period / 2 else m.cfg.period)) }
    s.average u (sh240Code nanovolts) latch 0

/-- SH240_RESULT (R380). -/
def execSh240Result (unit : Nat) (nanovolts : Int) (s : State) : Out := whenRunning s (s.sh240Result unit nanovolts)

end Sys2Proof.Machine
end

