-- ==== Sys2Proof/Machine/WmView.lean ====
section
/-! DEFINITION. Working memory as the check units read it (R20): the endpoint table and the tone-map pages as they stand, every
other byte as memory itself lists it. -/

namespace Sys2Proof.Machine

/-- The loadings of a tone-map page (R180): maps 0 and 1 in pages 0 and 1, the pool's pages, nothing in a free one. -/
def State.pageLoading (s : State) (p : Nat) : List Nat :=
  if p < 2 then mapOneLoading
  else match Tbl.at? s.mac.pages p with
    | some x => x.loading
    | none => []

/-- Entry `c` of a page: 0 but for carriers 36 to 1,720 (R20). -/
def pageEntry (loading : List Nat) (c : Nat) : Nat := if c < 36 then 0 else loading.getD (c - 36) 0

/-- The byte at offset `a` of the tone-map region (R20): two entries of 4 bits, the lower carrier in the lower bits. -/
def State.pageByte (s : State) (a : Nat) : Byte :=
  let l := s.pageLoading (a / 1024)
  let c := a % 1024 * 2
  BitVec.ofNat 8 (pageEntry l c + 16 * pageEntry l (c + 1))

/-- The byte that a scan of working memory reads at offset `a` (R20, R357). -/
def State.viewByte (s : State) (a : Nat) : Byte :=
  if a < 0x00800000 then (s.ep (a / 64)).bytes.getD (a % 64) 0
  else if a < 0x01800000 then s.pageByte (a - 0x00800000)
  else s.memByte a

/-- `n` bytes from offset `a`. -/
def State.viewBytes (s : State) (a n : Nat) : List Byte := (List.range n).map fun i => s.viewByte (a + i)

end Sys2Proof.Machine
end

