-- ==== Sys2Proof/Machine/Checks.lean ====
section
/-! DEFINITION. Check units and the host scratch window (R351–R362). -/

namespace Sys2Proof.Machine

/-- The scratch window: its base and its size (R362). -/
def scratchBase : Nat := 0x02FF0000

/-- The size of the scratch window (R362). -/
def scratchSize : Nat := 0x10000

/-- The configuration entries of unit `u` as they stand (R372). -/
def State.cuConfig (s : State) (u : Nat) : CuRun where
  check := s.rd (K.cu.MODE u) == 1
  width := s.rd (K.cu.WIDTH u)
  poly := s.rd (K.cu.POLY u)
  init := s.rd (K.cu.INIT u)
  xorOut := s.rd (K.cu.XOR_OUT u)
  reflIn := s.flag (K.cu.REFLECT_IN u)
  reflOut := s.flag (K.cu.REFLECT_OUT u)
  big := s.rd (K.cu.APPEND_ORDER u) == 1
  start := s.rd (K.cu.START u)
  len := s.rd (K.cu.LENGTH u)
  memError := false
  issued := s.now

/-- The cyclic code of a run. -/
def CuRun.params (r : CuRun) : CrcParams := ⟨r.width, r.poly, r.init, r.xorOut, r.reflIn, r.reflOut, r.big⟩

/-- The bytes a run reads and writes, as the first offset and the offset after the last. -/
def CuRun.span (r : CuRun) : Nat × Nat :=
  (r.start, r.start + r.len + (if r.check then 0 else crcLen r.params))

/-- The run ends at once with RANGE (R356). -/
def CuRun.outOfRange (r : CuRun) (u : Nat) : Bool :=
  2 ^ r.width ≤ r.poly || 2 ^ r.width ≤ r.init || 2 ^ r.width ≤ r.xorOut ||
    (r.check && r.len < crcLen r.params) ||
    (r.span.1 < r.span.2 && Config.wmSize < r.span.2) ||
    (u < 6 && !r.check &&
      (r.start + r.len < scratchBase || scratchBase + scratchSize < r.start + r.len + crcLen r.params))

/-- Unit `u` is BUSY. -/
def State.cuBusy (s : State) (u : Nat) : Bool := (Tbl.at? s.svc.runs u).isSome

/-- STATUS codes (R372). -/
def cuStatusDone : Nat := 2

/-- The core whose descriptor a run of unit `u` is: C5 for CU6; for the others C0, whose dictionary server writes GO (R25, R361). -/
def cuCore (u : Nat) : Nat := if u = 6 then 5 else 0

/-- End a run: results and STATUS in one step, RUNS, and the completion word into Q240 + u (R360). -/
def State.cuFinish (s : State) (u status len value : Nat) : State :=
  let s := ((s.wr (K.cu.RESULT_LEN u) len).wr (K.cu.RESULT_VALUE u) value).wr (K.cu.STATUS u) status
  let s := (s.bump (K.cu.RUNS u)).modSvc fun v => { v with runs := Tbl.del v.runs u }
  s.sendPacket (240 + u) [status + len * 2 ^ 32]

/-- A write of GO (R356, R361): FALSE starts nothing; TRUE captures the configuration and starts a run, or ends it at once with
RANGE. The value of RESULT_VALUE after RANGE keeps its last value (assumption log, entry 11). -/
def State.cuGo (s : State) (fromHost : Bool) (u value : Nat) (memError : Bool) : WriteResult :=
  if fromHost && 6 ≤ u then .refuse .state s
  else if s.cuBusy u then .refuse .state s
  else if value = 0 then .accept s
  else
    let r := s.cuConfig u
    if r.outOfRange u then .accept (s.cuFinish u 5 0 (s.rd (K.cu.RESULT_VALUE u)))
    else .accept (((s.wr (K.cu.STATUS u) 1).modSvc fun v =>
      { v with runs := Tbl.ins v.runs u { r with memError := memError } }).event (cuCore u) 0x01)

/-- The bytes the value is computed over: all of LENGTH, or LENGTH without the check field (R354, R355). -/
def State.cuData (s : State) (r : CuRun) : List Byte :=
  s.viewBytes r.start (if r.check then r.len - crcLen r.params else r.len)

/-- A run reaches its end (R354, R355, R358, R360). -/
def State.cuEnd (s : State) (u : Nat) (r : CuRun) : State :=
  let n := crcLen r.params
  let v := crcValue r.params (s.cuData r)
  if r.memError then s.cuFinish u 6 0 (s.rd (K.cu.RESULT_VALUE u))
  else if r.check then
    if s.viewBytes (r.start + r.len - n) n == crcPlace r.params v then s.cuFinish u 3 (r.len - n) v
    else s.cuFinish u 4 0 v
  else (s.setBytes (r.start + r.len) (crcPlace r.params v)).cuFinish u cuStatusDone (r.len + n) v

/-- CU_RUN_END (R360). -/
def execCuRunEnd (u : Nat) (s : State) : Out :=
  whenRunning s (match Tbl.at? s.svc.runs u with
    | some r => (s.cuEnd u r).sampleBack (cuCore u) 0x30 r.issued
    | none => s)

/-- A write to a configuration entry of unit `u` (R356, R361). -/
def State.cuConfigAllowed (s : State) (fromHost : Bool) (u : Nat) : Bool := !(fromHost && 6 ≤ u) && !s.cuBusy u

/-- A host run in progress covers some of the bytes from `a` up to `b` (R362). -/
def State.scratchBusy (s : State) (a b : Nat) : Bool :=
  s.svc.runs.any fun p => p.1 < 6 && p.2.span.1 < b && a < p.2.span.2

/-- A write of SCRATCH_DATA: 1 to 4,096 bytes from SCRATCH_OFFSET within the window (R362, R373). -/
def State.scratchWrite (s : State) (data : List Byte) : WriteResult :=
  let off := s.rd K.scratch.SCRATCH_OFFSET
  let a := scratchBase + off
  if data.length = 0 || 4096 < data.length || scratchSize < off + data.length then .refuse .range s
  else if s.scratchBusy a (a + data.length) then .refuse .state s
  else .accept (s.setBytes a data)

/-- A read of SCRATCH_DATA: up to 4,096 bytes from SCRATCH_OFFSET (R362). -/
def State.scratchRead (s : State) : List Byte :=
  let off := s.rd K.scratch.SCRATCH_OFFSET
  s.viewBytes (scratchBase + off) (min 4096 (scratchSize - off))

end Sys2Proof.Machine
end

