-- ==== Sys2Proof/Machine/Plan.lean ====
section
/-! DEFINITION. Planning a downlink frame: where it may stand, its map by trial, its MPDUs (R171–R174, R176, R188, R190, R204, R212,
R236, R243). -/

namespace Sys2Proof.Machine

/-! Where the device may send (R188, R190, R197). -/

/-- Where a frame of the device may stand: in a downlink allocation, or in coordinator slots (R188). -/
inductive Place where
  | alloc (x : Alloc)
  | coordinator
  deriving DecidableEq, Repr

/-- The place that period slot `n` of segment `g` gives a frame to address `a`, or an association response with the number `own` (R188, R212): its
own downlink allocation, or a coordinator slot, which no response takes. -/
def State.placeAt (s : State) (g a : Nat) (own : Option Nat) (n : Nat) : Option Place :=
  let x := s.seg g
  let r := x.region
  let inside := fun (f c : Nat) => decide (f ≤ n) && decide (n < f + c)
  match x.allocs.find? fun y => inside y.first y.count with
  | some y => if y.addr == a && y.down && y.response == own then some (.alloc y) else none
  | none =>
    if own.isSome || n < r.getD 2 1 + s.reachSlots g || inside (r.getD 3 0) (r.getD 4 0) then none else some .coordinator

/-- A place, with the tick at which its run of slots began and the tick at which it ends. -/
structure Stand where
  place : Place
  from_ : Nat
  upto : Nat
  deriving DecidableEq, Repr

/-- Where a frame that starts at tick `t` stands (R190): the slots behind it up to the end of its allocation, or of the coordinator slots. -/
def State.standAt (s : State) (g a : Nat) (own : Option Nat) (t : Nat) : Option Stand :=
  match (s.seg g).period, s.periodSlot g t with
  | some p, some n => (s.placeAt g a own n).map fun x =>
    let last := ((List.range (s.periodLen g - n)).find? fun k => s.placeAt g a own (n + k) != some x).getD (s.periodLen g - n)
    let first := match x with
      | .alloc y => y.first
      | .coordinator => n
    ⟨x, s.slotStart g p first, s.slotStart g p (n + last)⟩
  | _, _ => none

/-- A frame of this waveform may stand there (R193, R197): allocations of KIND 2 carry S1 and S2 frames only, the others none. -/
def Stand.suits (x : Stand) (w : Wave) : Bool :=
  match x.place with
  | .alloc y => (y.kind == 2) == (w != .ofdm)
  | .coordinator => true

/-- What an acknowledgement to entry `i` takes after a frame's end: 60 µs, twice τ (MAX_DELAY while it is unknown) and 140 µs
(R174). -/
def State.ackRoom (s : State) (i : Nat) : Nat :=
  let e := s.ep i
  ackTurn + (if e.tauKnown then 4 * e.tau else 2 * s.maxDelay e.seg) + ofdmHead

/-- What the acknowledgement of a frame takes after its end (R109, R174). -/
def State.roomOf (s : State) (x : TxFrame) : Nat :=
  if !x.ackReq then 0
  else
    let delay := match x.entry.map s.ep with
      | some e => if e.tauKnown then 4 * e.tau else 2 * s.maxDelay x.seg
      | none => 2 * s.maxDelay x.seg
    x.turn + delay + (if x.wave == .ofdm then ofdmHead else swellTicks false 2 0 x.sf 4)

/-- The ticks that must pass between the end of an exchange and the next PPDU of its allocation (R197). -/
def TxFrame.spacing (x : TxFrame) : Nat := usTicks (if x.ackReq then 20 else 60)

/-- Frame `x` leaves the frames placed on its segment their line, their acknowledgements and, within an allocation that began at tick
`from_`, their spacing (R107, R190, R197). -/
def State.clears (s : State) (x : TxFrame) (from_ : Option Nat) : Bool :=
  let gap := fun (y : TxFrame) => if from_.any (fun t => t ≤ y.start && t ≤ x.start) then y.spacing else 0
  (s.framesWith fun y => !isLane y.wave && y.seg == x.seg && y.type != 2 && y.type != 3 && y.chans.any x.chans.contains).all fun y =>
    x.stop + s.roomOf x + gap x ≤ y.2.start || y.2.stop + s.roomOf y.2 + gap y.2 ≤ x.start

/-- The exchange before, in the same allocation, ended long enough ago (R197). -/
def State.spaced (s : State) (g start : Nat) (from_ : Option Nat) : Bool :=
  let e := (s.seg g).lastEnd
  !from_.any (fun t => t ≤ e.1) || e.1 + e.2 ≤ start

/-- A frame may be placed at a stand (R107, R190, R197): it has channels, its exchange ends there, the claims allow it, no listening gap
and no other frame is touched. -/
def State.canStand (s : State) (x : TxFrame) (at_ : Stand) : Bool :=
  let own := match at_.place with
    | .alloc _ => some at_.from_
    | .coordinator => none
  !x.chans.isEmpty && s.now ≤ x.start && x.start < x.stop && at_.suits x.wave && x.stop + s.roomOf x ≤ at_.upto &&
    (x.wave != .ofdm || x.stop ≤ x.start + s.maxFrame x.seg) && s.claimAllows x.seg x.start x.stop &&
    !s.inGap x.seg x.chans x.start x.stop && s.clears x own && s.spaced x.seg x.start own

/-! The choice of a map (R171, R174). -/

/-- A map with its class, map 0 standing at class 3. -/
structure MapChoice where
  cls : Nat
  desc : MapDesc
  deriving DecidableEq, Repr

/-- The maps a downlink to entry `i` may use (R171). -/
def State.mapChoices (s : State) (i : Nat) : List MapChoice :=
  let g := (s.ep i).seg
  ([0, 1, 2].filterMap fun c => (s.downDesc i c).map fun d => MapChoice.mk c d) ++
    [⟨3, ⟨0, (fixedMap 0).2, s.robustGi g, (fixedMap 0).1⟩⟩]

/-- One trial of R174. -/
structure Trial where
  choice : MapChoice
  psc : Nat
  info : Nat
  deriving DecidableEq, Repr

/-- Trial `a` is taken before trial `b` (R174). -/
def Trial.before (a b : Trial) : Bool :=
  let la := ppduTicks a.psc a.choice.desc.gi
  let lb := ppduTicks b.psc b.choice.desc.gi
  b.info < a.info || (a.info == b.info && (la < lb || (la == lb && b.choice.cls < a.choice.cls)))

/-- The start of the first slot after `a`, before `b`, whose class is worse than that of the slot at `a`; `b` if there is none. -/
def State.worseSlot (s : State) (g v a b : Nat) : Nat :=
  let c := vectorClass v (s.slotAtTick g a)
  let edges := (List.range 24).map fun k => s.slotEdge g a (k + 1)
  (edges.find? fun t => t < b && c < vectorClass v (s.slotAtTick g t)).getD b

/-- One trial: map `m`, start and latest end (R174); none where no PSC fits or the map is not one R171 allows. -/
def State.tryMap (s : State) (g v start stop : Nat) (m : MapChoice) : Option Trial :=
  let last := min stop (start + s.maxFrame g)
  let n := (last - start - ofdmHead) / ofdmSymbol m.desc.gi
  if n = 0 then none
  else
    let w := s.worstClass g v start (start + ppduTicks n m.desc.gi - 1)
    if m.cls < w then none else some ⟨m, n, (layoutOf n m.desc.cs m.desc.rate).info⟩

/-- The trial that R174 sends, if any. -/
def State.planTrial (s : State) (i start stop : Nat) (ackReq : Bool) : Option Trial :=
  let g := (s.ep i).seg
  let v := (s.ep i).vector
  let e1 := if ackReq then stop - s.ackRoom i else stop
  let e2 := min e1 (s.worseSlot g v start e1)
  ((s.mapChoices i).flatMap fun m => (s.tryMap g v start e1 m).toList ++ (s.tryMap g v start e2 m).toList).foldl
    (fun (b : Option Trial) t => match b with
      | none => some t
      | some x => if t.before x then some t else some x) none

/-! The MPDUs (R77, R204, R243). -/

/-- TYPE of the frame that carries a queued MPDU: an envelope is data (R242). -/
def Down.frameType (d : Down) : Nat := if d.route.isEmpty then d.type else 1

/-- The MPDU may be planned on the hop to entry `i` (R204, R245, R311): the slots of its link and of its hop can protect it, and, while it
takes its first SEQ, the link of its station has room for one more. -/
def State.planable (s : State) (g i : Nat) (d : Down) : Bool :=
  d.seg == g && d.frame.isNone && d.held.isNone && !d.lane && s.hopOf d == some i && !(d.kind == .assocResponse && d.route.isEmpty) &&
    (match d.entry with
     | some j => (s.linkReady j || d.type == 6 || d.type == 5) && (j == i || !d.inner.isEmpty || s.unresolved j < 32)
     | none => true)

/-- The MPDUs that a frame takes, in order, while they fit `info` bits and at most 8 (R76). -/
def State.fill (s : State) (info : Nat) : List Down → List Down → List Down
  | acc, [] => acc
  | acc, d :: ds =>
    let next := acc ++ [d]
    let bits := 8 * (2 * next.length + 2 + (next.map s.downLen).sum)
    if next.length ≤ 8 && bits ≤ info then s.fill info next ds else acc

/-- The first `n` of the MPDUs to entry `j`, the others as they are. -/
def firstTo (j n : Nat) (ds : List Down) : List Down :=
  let kept := ((ds.filter fun d => d.entry == some j).take n).map (·.id)
  ds.filter fun d => d.entry != some j || kept.contains d.id

/-- The first MPDU in class order, with those of its PRI and frame type behind it, within the limits of open SEQs on the hop and, for inner
MPDUs, on the links of their stations (R204, R245). -/
def State.planGroup (s : State) (g i : Nat) : List Down :=
  let ds := (s.mac.queue.filter (s.planable g i)).insertionSort fun a b => a.pri ≤ b.pri
  match ds with
  | [] => []
  | d :: _ =>
    let same := ds.filter fun x => x.pri == d.pri && x.frameType == d.frameType && (d.type != 6 || x.id == d.id)
    let fresh := (same.filter fun x => x.seq.isNone).take (32 - s.unresolved i)
    let inner := ((fresh.filter fun x => !x.route.isEmpty).filterMap (·.entry)).eraseDups
    let fresh := inner.foldl (fun ds j => if j = i then ds else firstTo j (32 - s.unresolved j) ds) fresh
    if d.type = 6 then [d] else same.filter fun x => x.seq.isSome || fresh.contains x

/-- The inner MPDU of a relayed downlink is built once, by the coordinator as its originator (R243, R245): with the SEQ, key and frame counter of
the link to its station; an association response is unprotected, and without an entry its SEQ is a free value (assumption log, entry 56). -/
def State.buildInner (s : State) (d : Down) : State :=
  if d.route.isEmpty || !d.inner.isEmpty then s
  else
    let (seq, s) := match d.entry with
      | some j => s.takeSeq j
      | none => (let (v, t) := s.fresh; (v % 4096, t))
    let (m, s) := match d.entry with
      | some j => if d.type = 5 then (plainMpdu seq d.body, s) else s.sealUnder (s.linkSlot j) d.pri (s.tagLen d.seg) seq d.body
      | none => (plainMpdu seq d.body, s)
    s.modDown d.id fun d => { d with inner := m }

/-- The body of a queued MPDU on its next hop (R243). -/
def Down.hopBody (d : Down) : List Byte := if d.route.isEmpty then d.body else envelopeBody d.type d.route d.inner

/-- An MPDU goes on frame `f` over the hop to entry `i` (R77, R204, R243, R245): it has its SEQ on the hop, and is protected afresh. -/
def State.boardMpdu (s : State) (i f : Nat) (d : Down) : State :=
  let s := (s.buildInner d).giveSeq i d.id
  match s.down? d.id with
  | some d => s.wireDown (s.linkSlot i) f d.id d.hopBody
  | none => s

/-- The frame that carries `ds` to entry `i` by trial `t` (R171). -/
def State.ofdmTx (s : State) (g i start : Nat) (ackReq : Bool) (ds : List Down) (t : Trial) : TxFrame :=
  let m := t.choice
  let bits := 8 * (2 * ds.length + 2 + (ds.map s.downLen).sum)
  let psc := (pscFor bits m.desc.cs m.desc.rate t.psc).getD t.psc
  { seg := g, wave := .ofdm, type := (ds.head?.map Down.frameType).getD 1, dst := (s.ep i).addr, pri := (ds.head?.map (·.pri)).getD 0,
    ackReq := ackReq, tmi := m.desc.tmi, tide := m.cls, gi := m.desc.gi, psc := psc, sf := 0,
    chans := s.subsetOf i s.enabled, start := start, data := start + ofdmHead, stop := start + ppduTicks psc m.desc.gi,
    mpdus := ds.map (·.id), body := [], entry := some i, cls := if m.cls = 3 then none else some m.cls, started := false,
    ended := false, underrun := false, ready := false, cut := false, len := 0, npre := 0, wire := [] }

/-- An S1 or S2 frame of one MPDU to entry `i` (R107, R172). -/
def State.swellTx (s : State) (g i start : Nat) (ackReq : Bool) (d : Down) : TxFrame :=
  let e := s.ep i
  s.asSwell (s.ofdmTx g i start ackReq [d] ⟨⟨3, ⟨0, 0, 0, 0⟩⟩, 0, 0⟩) e.lrMode (e.lrSf + 7) (s.downLen d)

/-- Put a planned frame with its MPDUs. -/
def State.putFrame (s : State) (i : Nat) (x : TxFrame) (ds : List Down) : State :=
  let (f, s) := s.addFrame x
  ds.foldl (fun t d => t.boardMpdu i f d) s

/-- A sounding frame for a tide slot (R89, R176, R190): its payload begins with the slot and holds as many symbols as fit it and MAX_FRAME. -/
def State.planSounding (s : State) (g i start stop : Nat) (at_ : Stand) (d : Down) : State :=
  match d.kind with
  | .sounding k =>
    let v := ofLe d.body
    let gi := field v 30 2
    let t := s.nextSlotStart g (start + ofdmHead - 1) k
    let len := min (s.slotEdge g t 1 - t) (s.maxFrame g - ofdmHead)
    let psc := min (min 32 (field v 24 6)) (len / ofdmSymbol gi)
    let x := { s.ofdmTx g i (t - ofdmHead) false [d] ⟨⟨3, ⟨0, 0, gi, 0⟩⟩, psc, 0⟩ with
      type := 6, psc := psc, stop := t + psc * ofdmSymbol gi, tide := 0 }
    if psc = 0 || stop < x.stop || !s.canStand x at_ then s
    else
      let (f, s) := s.addFrame x
      s.modDown d.id fun d => { d with frame := some f }
  | _ => s

/-- A P0 MPDU off the swell lane takes the route of its station; on a direct link it keeps its SEQ. -/
def Ep.offLane (e : Ep) (d : Down) : Down := { d with lane := false, route := e.hops, seq := if e.hops.isEmpty then d.seq else none }

/-- P0 MPDUs queued for a swell lane that is gone go like any other downlink of their class (R246). -/
def State.dropLanes (s : State) (i : Nat) : State :=
  let waits := fun (d : Down) => d.lane && d.entry == some i && d.frame.isNone
  let off := fun (d : Down) => if waits d then (s.ep i).offLane d else d
  if s.hasLane i then s else s.modMac fun m => { m with queue := m.queue.map off }

/-- A frame to the station at entry `i` between two ticks (R171–R174): in an allocation of KIND 2 one in S1 or S2, which a link that calls for
them uses in place of map 0. -/
def State.planTo (s : State) (g i start stop : Nat) (ackReq : Bool) : State :=
  let s := s.dropLanes i
  match s.standAt g (s.ep i).addr none start with
  | none => s
  | some at_ =>
    if (s.ep i).seg ≠ g || !s.reachable i || !s.linkReady i then s
    else match s.planGroup g i with
      | [] => s
      | d :: ds =>
        let stop := min stop at_.upto
        if d.type = 6 then s.planSounding g i start stop at_ d
        else
          let trial := s.planTrial i start stop ackReq
          let swell := (s.ep i).lrMode ≠ 0 && d.route.isEmpty && s.downLen d ≤ 255 && d.frameType ≠ 7 &&
            (!at_.suits .ofdm || (match trial with
             | some t => t.choice.cls == 3
             | none => true))
          if swell then
            let x := s.swellTx g i start ackReq d
            if stop < x.stop + s.roomOf x || !s.canStand x at_ then s else s.putFrame i x [d]
          else match trial with
            | none => s
            | some t =>
              let taken := s.fill t.info [] (d :: ds)
              let x := s.ofdmTx g i start ackReq taken t
              if taken.isEmpty || !s.canStand x at_ then s else s.putFrame i x taken

/-- The entry number that names the association responses of a segment in DOWNLINK_PLAN. -/
def responsesEntry : Nat := 131072

/-- The entry number that names the broadcasts of a segment in DOWNLINK_PLAN. -/
def broadcastEntry : Nat := 131073

/-- The oldest association response of segment `g` that is on no frame (R196, R212). -/
def State.nextResponse (s : State) (g : Nat) : Option Down :=
  (s.seg g).responses.findSome? fun r => (s.down? r.1).filter fun d => d.frame.isNone

/-- Put a frame with one unprotected MPDU of the queue. -/
def State.putPlain (s : State) (x : TxFrame) (id : Nat) : State :=
  let (f, s) := s.addFrame x
  s.modDown id fun d => { d with frame := some f }

/-- The SEQ of an association response: its link's, or a free value where it grants none (assumption log, entry 56). -/
def State.responseSeq (s : State) (d : Down) : Nat × State :=
  match d.seq, d.entry with
  | some q, _ => (q, s)
  | none, some i => let (q, s) := s.takeSeq i; (q, s.modDown d.id fun d => { d with seq := some q })
  | none, none => let (v, s) := s.fresh; (v % 4096, s.modDown d.id fun d => { d with seq := some (v % 4096) })

/-- An association response in its own allocation (R212): OFDM on map 0 at ROBUST_GI, or the sub-band and SF of the request; ACK_REQ is
set when it grants. -/
def State.planResponse (s : State) (g start stop : Nat) : State :=
  match s.nextResponse g with
  | none => s
  | some d =>
    match s.standAt g 0xFFFE (some d.id) start with
    | none => s
    | some at_ =>
      let v := ofLe d.body
      let mode := field v 124 2
      let (seq, t) := s.responseSeq d
      let m := plainMpdu seq d.body
      let base := { s.robustFrame g 5 0xFFFE 1 start [] m with ackReq := d.entry.isSome, mpdus := [d.id], entry := d.entry }
      let x := if mode = 0 then base else s.asSwell base mode (field v 128 4) m.length
      if min stop at_.upto < x.stop + s.roomOf x || !s.canStand x at_ then s else t.putPlain x d.id

/-- The oldest broadcast of segment `g` that is on no frame (R206). -/
def State.nextBroadcast (s : State) (g : Nat) : Option Down :=
  s.mac.queue.find? fun d => d.seg == g && d.kind == .broadcast && d.frame.isNone

/-- A broadcast data or MAC command frame (R170, R171, R206, R236): map 0 at ROBUST_GI with TIDE 3 on every enabled member, its SEQ of the
broadcast series and unchanged when it is repeated, under the network key of the segment. -/
def State.planBroadcast (s : State) (g start stop : Nat) : State :=
  match s.nextBroadcast g, s.standAt g 0xFFFF none start with
  | some d, some at_ =>
    let (seq, t) := match d.seq with
      | some q => (q, s)
      | none => ((s.seg g).bcastSeq, (s.modSeg g fun x => { x with bcastSeq := (x.bcastSeq + 1) % 4096 }).modDown d.id fun y =>
          { y with seq := some (s.seg g).bcastSeq })
    let (m, t) := t.sealUnder g d.pri (s.tagLen g) seq d.body
    let x := { s.robustFrame g d.type 0xFFFF d.pri start [] m with mpdus := [d.id] }
    if !s.fcReady g || min stop at_.upto < x.stop || !s.canStand x at_ then s else t.putPlain x d.id
  | _, _ => s

/-- DOWNLINK_PLAN (R174): a frame to a station, to the requesters of association, or to all, in the span given. -/
def State.downlinkPlan (s : State) (g i start stop : Nat) (ackReq : Bool) : State :=
  if !s.segEnabled g then s
  else if i = responsesEntry then s.planResponse g start stop
  else if i = broadcastEntry then s.planBroadcast g start stop
  else s.planTo g i start stop ackReq

/-- DOWNLINK_PLAN (R174). -/
def execDownlinkPlan (seg entry start stop : Nat) (ackReq : Bool) (s : State) : Out :=
  onCore (segCore seg) s (s.downlinkPlan seg entry start stop ackReq)

end Sys2Proof.Machine
end

