-- ==== Sys2Proof/Machine/Delivery.lean ====
section
/-! DEFINITION. What an acknowledgement, or its absence, does to the MPDUs of a frame (R109, R179, R183, R202, R203, R209–R213, R217,
R235, R246, R321). -/

namespace Sys2Proof.Machine

/-! Next-key deliveries (R320, R321). -/

/-- Queue the next-key delivery of entry `i` (R320): DATA_HEAD with HOPS 0 and KIND 2, then the block, in form 0 where an admission
record exists; none is built where its join key does not unwrap (R335). -/
def State.sendNextKey (s : State) (i : Nat) : State :=
  let e := s.ep i
  let g := e.seg
  let (t, o) := (s.seg g).rollover.getD (0, 0)
  let (jk, s) := s.joinKey e.eui
  if jk.isNone && ((Tbl.at? s.keys.admission e.eui).isSome || s.keys.vaultLocked) then s
  else s.toEntry i 1 1 .keyDelivery (leBytes 1 0x20 ++ s.keyBlock jk g 2 (64 + g) o t) false

/-- Entry `i` is owed a delivery (R321): associated, not marked, none queued, while the segment delivers or overlaps. -/
def State.owedKey (s : State) (i : Nat) : Bool :=
  let e := s.ep i
  e.state == epAssociated && !e.marked && s.nextKeyOut e.seg &&
    !s.mac.queue.any fun d => d.kind == .keyDelivery && d.entry == some i

/-- Queue a delivery for entry `i` if it is owed one. -/
def State.oweKey (s : State) (i : Nat) : State := if s.owedKey i then s.sendNextKey i else s

/-- A delivery to entry `i` was acknowledged (R321): it is marked and counted, while the rollover runs. -/
def State.markKey (s : State) (i : Nat) : State :=
  let g := (s.ep i).seg
  if s.nextKeyOut g && !(s.ep i).marked then
    (s.modEp i fun e => { e with marked := true }).bump (K.segs.NEXT_DELIVERED g)
  else s

/-- The body of a response carries a class 2 block behind the class 1 block (R320): one block alone ends at byte 66 at most. -/
def hasNextBlock (body : List Byte) : Bool := 66 < body.length

/-! The end of an MPDU. -/

/-- The association response of entry `i` was acknowledged (R213, R321). -/
def State.assocAcked (s : State) (i : Nat) (body : List Byte) : State :=
  let s := s.associate i
  if hasNextBlock body then s.markKey i else s.oweKey i

/-- The MPDU leaves the queue. -/
def State.resolveDown (s : State) (id : Nat) : State :=
  s.modMac fun m => { m with queue := m.queue.filter fun d => d.id ≠ id }

/-- An MPDU was acknowledged on its first hop; `stop` is the end of its frame. -/
def State.downAcked (s : State) (d : Down) (stop : Nat) : State :=
  let s := s.resolveDown d.id
  let s := if d.route.isEmpty then s else s.bump (K.segs.RELAYED_DOWN d.seg)
  match d.kind, d.entry with
  | .fragment k j q last, _ => s.fragAcked k j q last
  | .command, some i => s.commandAcked i d.body
  | .sleepEcho, some i => s.sleepAcked i d.body stop
  | .disassociate, some i => if (s.ep i).state = epAssociated then s.expire i else s
  | .assocResponse, some i => if d.route.isEmpty then s.assocAcked i d.body else s
  | .keyDelivery, some i => s.markKey i
  | .mapResponse, some i => s.installUp i
  | _, _ => s

/-- An MPDU will not be sent again: whoever sent it is told, and a P0 downlink of the lane to a station behind repeaters goes along the route
instead (R246, R252). -/
def State.downLost (s : State) (d : Down) : State :=
  let s := s.resolveDown d.id
  match (if d.lane then d.entry.filter s.routed else none) with
  | some i => s.enqueue { (s.ep i).offLane d with tries := 0, frame := none }
  | none => match d.kind, d.entry with
    | .fragment k j _ _, _ => s.fragAbandoned k j
    | .disassociate, some i => if (s.ep i).state = epAssociated then s.expire i else s
    | .assocResponse, some i => if (s.ep i).state = epAssociating && d.route.isEmpty then s.freeEntry i else s
    | .sleepEcho, some i => s.modEp i fun e => { e with echo := if e.echo = some (Sleep.read (d.body.drop 1)) then none else e.echo }
    | .routeSet, some i => s.modEp i fun e => { e with routeSent := none }
    | .keyDelivery, some i => s.oweKey i
    | .bridged, _ => s.bump (K.segs.BRIDGE_DROP d.seg)
    | _, _ => s

/-- An MPDU is abandoned after its last retry (R203, R230). -/
def State.downAbandoned (s : State) (d : Down) : State := (s.bump (K.segs.MPDU_ABANDONED d.seg)).downLost d

/-- The leg of an MPDU is still open. -/
def State.legLive (s : State) (d : Down) : Bool :=
  match d.kind with
  | .fragment k j _ _ => ((s.leg? k j).map (·.open')).getD false
  | _ => true

/-- An MPDU drew no acknowledgement (R203): it is sent again up to 7 times; one whose leg has ended, or on a segment that winds down
(R235), is not, and a bridged one is then counted (R252). -/
def State.downUnacked (s : State) (d : Down) : State :=
  if !s.legLive d then s.resolveDown d.id
  else if (s.seg d.seg).winding then (s.resolveDown d.id).bumpBy (K.segs.BRIDGE_DROP d.seg) (boolNat (d.kind == .bridged))
  else if 8 ≤ d.tries then s.downAbandoned d
  else s.modDown d.id fun d => { d with frame := none }

/-- The frame is settled: its expected window and the frame itself go. -/
def State.settleFrame (s : State) (f : Nat) (x : TxFrame) : State :=
  let w := s.ackWindow x
  let s := s.modLine fun l => { l with windows := l.windows.filter fun y =>
    !(y.seg == x.seg && some y.entry == x.entry && y.from_ == w.1) }
  s.dropFrame f

/-- ACK_RECEIVE (R109, R202, R217): an acknowledgement that meets the tests resolves the MPDUs it names. -/
def State.ackReceive (s : State) (f : Nat) (a : AckSeen) : State :=
  match s.frame? f with
  | none => s
  | some x =>
    let ds := s.downsOf x
    let src := (x.entry.map fun i => (s.ep i).addr).getD 0
    let seq8 := ((ds.head?.bind (·.seq)).getD 0) % 256
    if !x.ackReq || !x.ended || !s.ackMeets x a src seq8 then s
    else
      let s := s.passTo a.start
      let s := match x.entry with
        | some i =>
          let s := if isLane x.wave then s else s.modEp i fun e => e.measureTau (a.start - x.stop) x.turn
          (match x.cls with
           | some c => s.mapAckWatch i c true
           | none => s)
        | none => s
      let s := s.settleFrame f x
      let s := if isLane x.wave then s
        else s.exchangeEnd x.seg (a.start + (if x.wave == .ofdm then ofdmHead else swellTicks false 2 0 x.sf 4)) (usTicks 20)
      (ds.zipIdx.foldl (fun t d =>
        if a.type = 2 || bitOf a.info d.2 then t.downAcked d.1 x.stop else t.downUnacked d.1) s).windLegs x.seg

/-- ACK_RECEIVE (R202). -/
def execAckReceive (frame : Nat) (seen : AckSeen) (s : State) : Out := whenRunning s (s.ackReceive frame seen)

/-- The acknowledgement window of frame `f` closes without acceptance (R109, R183, R203). One transmission on several channels counts once in
LANE_ACK_MISSED, on the first of them (DESIGN CHOICE, assumption log, entry 54). -/
def State.ackExpiry (s : State) (f : Nat) (swell : Bool) : State :=
  match s.frame? f with
  | none => s
  | some x =>
    if !x.ackReq || !x.ended || (x.wave == .ofdm) == swell then s
    else
      let ds := s.downsOf x
      let s := s.atDeadline (s.ackWindow x).2
      let s := if swell then s.bump (K.chs.LANE_ACK_MISSED (x.chans.headD 0)) else s
      let s := match x.entry, x.cls with
        | some i, some c => s.mapAckWatch i c false
        | _, _ => s
      (ds.foldl (fun t d => t.downUnacked d) (s.settleFrame f x)).windLegs x.seg

/-- ACK_WINDOW_EXPIRY (R203). -/
def execAckWindowExpiry (frame : Nat) (s : State) : Out := whenRunning s (s.ackExpiry frame false)

/-- SWELL_ACK_WINDOW_EXPIRY (R109). -/
def execSwellAckWindowExpiry (frame : Nat) (s : State) : Out := whenRunning s (s.ackExpiry frame true)

/-! Segments on and off (R233–R235). -/

/-- A write of TRUE to SEG_ENABLE (R233, R234). -/
def State.segEnableWrite (s : State) (g : Nat) : WriteResult :=
  let ms := s.members g
  let taken := (List.range 64).any fun h => h != g && s.segEnabled h && (s.members h).any ms.contains
  if s.segEnabled g then .accept s
  else if ms.isEmpty || !(List.zipWith (fun a b => decide (a < b)) ms ms.tail).all id || taken then .refuse .state s
  else
    let s := (s.setFlag (K.seg.SEG_ENABLE g) true).wr (K.segs.SEG_STATE g) 1
    let s := ms.foldl (fun t n => t.clearTide n) s
    let first := s.now + ceilDiv (2 * s.tracker.period) (2 ^ 16)
    .accept ((s.modSeg g fun x =>
      { x with firstBeacon := some first, winding := false, period := none, allocs := [], gaps := [], offset := s.rdInt (K.seg.SEG_PHASE_OFFSET g), offsetDue := false,
               lastEnd := (0, 0) }).recomputeRoutes g)

/-- Line work of a leg has not started (R235): it is DELAYED, or no fragment of it has been sent. -/
def State.legUnsent (s : State) (k j : Nat) (l : Leg) : Bool :=
  match l.phase with
  | .delayed _ => true
  | .active => l.attempts == 0 && l.acked.isEmpty && !l.delivered &&
      !s.mac.queue.any fun d => d.kind.ofLeg k j && (d.frame.isSome || 0 < d.tries)
  | _ => false

/-- Refuse the legs of entry `i` whose line work has not started (R235). -/
def State.refuseUnsent (s : State) (i : Nat) : State :=
  (s.legsOf i).foldl (fun t l =>
    match t.leg? l.1 l.2 with
    | some x => if t.legUnsent l.1 l.2 x then t.endLeg l.1 l.2 outRefused causeNoRoute else t
    | none => t) s

/-- A write of FALSE to SEG_ENABLE (R235): frames before their point of no return are cancelled, legs whose line work has not
started are refused, the rest is settled as its frames are. -/
def State.segDisableWrite (s : State) (g : Nat) : State :=
  if !s.segEnabled g then s
  else
    let s := (s.setFlag (K.seg.SEG_ENABLE g) false).wr (K.segs.SEG_STATE g) 0
    let s := ((s.framesWith fun f => f.seg == g).map (·.1)).foldl (fun t f => t.cancelFrame f) s
    let s := (s.epsWith fun e => e.seg == g).foldl (fun t i => t.refuseUnsent i) s
    let dropped := (s.mac.queue.filter fun d => d.seg == g && d.frame.isNone && d.kind == .bridged).length
    let s := (s.withdraw fun d => d.seg == g).bumpBy (K.segs.BRIDGE_DROP g) dropped
    let wakes := s.line.wakes.filter fun w => (s.ep w.1).seg ≠ g
    let s := s.modLine fun l => { l with wakes := wakes }
    (s.modSeg g fun x =>
      { x with firstBeacon := none, winding := true, period := none, allocs := [], gaps := [], responses := [] }).windLegs g

end Sys2Proof.Machine
end

