-- ==== Sys2Proof/Machine/RxCore.lean ====
section
/-! DEFINITION. Receptions: their release, rinses and groups, the preloads of expected windows, and the gain of a channel
(R31–R34, R46–R53, R130–R134, R143, R144). -/

namespace Sys2Proof.Machine

/-! Trim and phase (R49–R53). -/

/-- The position of channel `n` among the members of segment `g`. -/
def State.position (s : State) (g n : Nat) : Nat := ((s.members g).idxOf? n).getD 0

/-- The trim and phase stored for entry `i` on channel `n`; IDLE_TRIM and phase 0 while none has been stored (R52). -/
def State.linkTrim (s : State) (i n : Nat) : Int × Nat :=
  let e := s.ep i
  if e.driftEmpty then ((s.chan n).cfg.idleTrim, 0) else (e.trim, e.phases.getD (s.position e.seg n) 0)

/-- What the interpolator of an idle channel takes (R49, R52): the values of the link of an open expected window, else IDLE_TRIM
and phase 0. -/
def State.idleTrim (s : State) (n : Nat) : Int × Nat :=
  match (s.chan n).window with
  | some (i, _) => s.linkTrim i n
  | none => ((s.chan n).cfg.idleTrim, 0)

/-- Channel `n` ends its part in OFDM, S1 or S2 reception `r` (R32, R52): the AGC unfreezes, the interpolator returns. A channel that
holds a later reception is left alone. -/
def State.releaseChan (s : State) (r n : Nat) : State :=
  if (s.chan n).rx ≠ some r then s
  else
    let s := s.modChan n fun c => { c with rx := none, frozen := false, second := none, idleFrom := s.now }
    let (t, p) := s.idleTrim n
    s.writeTrim n t p

/-- The lane receiver of channel `n` ends its part in reception `r`. -/
def State.releaseLane (s : State) (r n : Nat) : State :=
  if (s.chan n).laneRx ≠ some r then s else s.modChan n fun c => { c with laneRx := none, laneSecond := none, idleFrom := s.now }

/-- Release one channel of reception `r`. -/
def State.releaseFrom (s : State) (r : Nat) (x : Reception) (n : Nat) : State :=
  if isLane x.wave then s.releaseLane r n else s.releaseChan r n

/-- Release every channel of reception `r`. -/
def State.releaseAll (s : State) (r : Nat) (x : Reception) : State :=
  x.members.foldl (fun t m => t.releaseFrom r x m.chan) s

/-- C_s and the rate code of the map of an OFDM reception, none where no descriptor names it (R173). -/
def State.rxMap (s : State) (x : Reception) : Option (Nat × Nat) :=
  let f := x.fc
  if f.tmi ≤ 1 then some (fixedMap f.tmi)
  else match x.seg.bind fun g => s.knownSrc g f.src with
    | none => none
    | some i =>
      let hs := [(s.ep i).mapUp.getD f.tide 0, (s.ep i).mapPend.getD f.tide 0]
      hs.findSome? fun h => match s.handleDesc h with
        | some d => if d.tmi = f.tmi then some (d.cs, d.rate) else none
        | none => none

/-- The codewords of an OFDM reception that are complete at tick `t` (R81). -/
def State.arrived (s : State) (x : Reception) (t : Nat) : Nat :=
  if x.wave != .ofdm then 0
  else match x.stage, s.rxMap x with
    | .payload, some m =>
      let f := x.fc
      let all := layoutOf f.psc m.1 m.2
      let n := min f.psc ((t - (x.begin_ + ofdmHead)) / ofdmSymbol f.gi)
      let bits := n * m.1
      if n = f.psc then all.long + all.short
      else if bits < all.long * 9216 then bits / 9216
      else all.long + (bits - all.long * 9216) / 1152
    | _, _ => 0

/-- Codewords in hand that are not yet decoded (R142). -/
def State.backlog (s : State) (x : Reception) : Nat := s.arrived x s.now - x.words.length

/-- The codewords in hand, in the order in which decoders take them (R142, R457): by class, then by admission, then as received. -/
def State.wordsInHand (s : State) : List (Nat × Nat) :=
  let rs := (s.line.rxs.filter fun x => x.2.stage == .payload && !x.2.shed).insertionSort fun a b =>
    a.2.pri < b.2.pri || (a.2.pri == b.2.pri && a.2.admitted ≤ b.2.admitted)
  rs.flatMap fun x => ((List.range (s.arrived x.2 s.now)).filter fun k => (Tbl.at? x.2.words k).isNone).map fun k => (x.1, k)

/-- The codewords that the decoders hold: one whose reception was rinsed or shed is abandoned (R142, R143). -/
def State.decoding (s : State) : List (Nat × Nat) :=
  s.line.decoders.filter fun w => match s.rx? w.1 with
    | some x => !x.shed && (Tbl.at? x.words w.2).isNone
    | none => false

/-- The decoders take codewords in order while one of the two places of each of the 64 is free (R19). Where places have just come `free`, a
P0 codeword that takes one has waited for it (R466). -/
def State.feedDecoders (s : State) (free : Bool) : State :=
  let held := s.decoding
  let next := (s.wordsInHand.filter fun w => !held.contains w).take (128 - held.length)
  let p0 := next.countP fun w => ((s.rx? w.1).map fun x => x.pri) == some 0
  (s.events 8 0x0A none (if free then p0 else 0)).modLine fun l => { l with decoders := held ++ next }

/-- A reception rinse (R143): every channel returns to idle detection; queued codewords are discarded and counted. -/
def State.rinse (s : State) (r : Nat) (counted : Reg) : State :=
  match s.rx? r with
  | none => s
  | some x =>
    let n := s.backlog x
    let s := ((s.feedDecoders false).bumpBy (K.chs.CODEWORDS_DISCARDED x.lead) n).events 8 0x08 (some x.pri) n
    let s := s.withdrawOpenings r
    ((((s.bump counted).event 8 0x04).releaseAll r x).dropRx r).feedDecoders true

/-- Channel `n` leaves its reception for a cause of its own (R133): the group goes on while a member is left. -/
def State.leaveRx (s : State) (n : Nat) (lane : Bool) (counted : Reg) : State :=
  match if lane then (s.chan n).laneRx else (s.chan n).rx with
  | none => s
  | some r =>
    match s.rx? r with
    | none => s
    | some x =>
      if x.members.length ≤ 1 then s.rinse r counted
      else (((s.bump counted).bump (K.chs.GROUP_LEAVE n)).releaseFrom r x n).modRx r fun x =>
        { x with members := x.members.filter fun m => m.chan ≠ n }

/-! The gain (R31–R34). -/

/-- A code of the clipping magnitude (R31). -/
def clips (x : Int) : Bool := 8100 ≤ |x|

/-- The power of a block reaches `quarters` quarters of a decibel relative to full scale, 0 dBFS being the mean power of a sine of
amplitude 8,192: 64 × 2^25 for the sum of the squares (R31; assumption log, entry 49). -/
def levelReaches (squares : Nat) (quarters : Int) : Bool :=
  if 0 ≤ quarters then 10 ^ quarters.toNat * 2 ^ (31 * 40) ≤ squares ^ 40
  else 2 ^ (31 * 40) ≤ squares ^ 40 * 10 ^ (-quarters).toNat

/-- The step of R31 for a block below the clipping code, in 0.5 dB: AGC_TARGET less the block's RMS level, within ±6 dB, to the nearest
0.5 dB with ties towards the lower gain. -/
def rmsStep (target : Int) (squares : Nat) : Int :=
  -- step m is right while the level lies below target − m/2 + 1/4 dB
  let fits := fun (m : Int) => !levelReaches squares (4 * target - 2 * m + 1)
  match (List.range 24).find? fun k => fits (12 - k) with
  | some k => 12 - k
  | none => -12

/-- The gain that a block calls for (R31); gains are in 0.5 dB. -/
def gainStep (target : Int) (samples : List Int) (gain most : Int) : Int :=
  let step := if samples.any clips then -12 else rmsStep target ((samples.map fun x => (x * x).toNat).sum)
  clampInt (-12) most (gain + step)

/-- The side word of a channel's block whose first sample is at tick `first` (R54). -/
def State.sideWord (s : State) (n first : Nat) (samples : List Int) : SideWord :=
  let c := s.chan n
  { gain := if first < c.gainFrom && c.gainFrom < first + 128 then none else some (s.gainNow n)
    clipped := samples.any clips
    slip := c.slipIn first
    change := if 0 < c.trimTick && first ≤ c.trimTick && c.trimTick < first + 128 then some c.trimTick else none
    first := first }

/-- A block enters a channel's receive breakwater with its side word (R54, R55). -/
def State.blockIn (s : State) (n first : Nat) (samples : List Int) (fill : Nat) : State :=
  let w := s.sideWord n first samples
  let f := min 8192 fill
  s.modChan n fun c => { c with fill := f, peak := max c.peak f, blocks := (w :: c.blocks).take (ceilDiv f 64) }

/-- AGC_DECISION (R31–R34, R42, R54, R55): the block of 64 samples from tick `first` on. A decision needs a block taken wholly at one
gain; the new gain applies from the first sample of the block after the next. -/
def State.agcDecision (s : State) (n first : Nat) (samples : List Int) (fill : Nat) : State :=
  if !s.inService n then s
  else
    let s := ((s.passTo (first + 128)).blockIn n first samples fill).idleBlock n first samples
    let c := s.chan n
    if s.blanked n then s
    else if c.frozen then (if samples.any clips then s.bump (K.chs.CLIP_COUNT n) else s)
    else if c.cfg.fixed || s.loopOn n || first < c.gainFrom then s
    else
      let g := gainStep c.cfg.target samples c.gain c.cfg.gainMax
      if g = c.gain then s else s.modChan n fun c => { c with gain := g, gainWas := c.gain, gainFrom := first + 256 }

/-- AGC_DECISION (R31). -/
def execAgcDecision (channel first : Nat) (samples : List Int) (fill : Nat) (s : State) : Out :=
  whenRunning s (s.agcDecision channel first samples fill)

/-! Expected windows and trims (R48–R50). -/

/-- TRIM_PRELOAD (R50): 2.0 µs before a window opens, the link's values go to every channel of its segment; a channel with a
reception in progress takes them when that ends (R52). -/
def State.trimPreload (s : State) (g i opens : Nat) : State :=
  match s.line.windows.find? fun w => w.seg == g && w.entry == i && w.from_ == opens with
  | none => s
  | some w =>
    let s := s.atDeadline (w.from_ - tenthUs 20)
    (s.members g).foldl (fun t n =>
      let t := t.modChan n fun c => { c with window := some (i, w.upto) }
      if (t.chan n).rx.isSome then t
      else
        let (a, p) := t.linkTrim i n
        t.writeTrim n a p) s

/-- TRIM_PRELOAD (R50). -/
def execTrimPreload (seg entry opens : Nat) (s : State) : Out := whenRunning s (s.trimPreload seg entry opens)

/-- EXPECTED_WINDOW_END (R49). -/
def State.windowClose (s : State) (n : Nat) : State :=
  match (s.chan n).window with
  | none => s
  | some (i, upto) =>
    let s := (s.atDeadline upto).modLine fun l => { l with windows := l.windows.filter fun w => !(w.entry == i && w.upto == upto) }
    let s := s.modChan n fun c => { c with window := none }
    if (s.chan n).rx.isSome then s else s.writeTrim n (s.chan n).cfg.idleTrim 0

/-- EXPECTED_WINDOW_END (R49). -/
def execExpectedWindowEnd (channel : Nat) (s : State) : Out := whenRunning s (s.windowClose channel)

/-- TRIM_TAKES_EFFECT (R46–R48): at a sample boundary, in one step; the tick of the first sample at the new value is reported, and the
phase accumulated so far is kept. -/
def State.trimApply (s : State) (n : Nat) : State :=
  match (s.chan n).written with
  | some (t, p, w) => s.modChan n fun c =>
      let e := max c.trimTick (trimBoundary w s.now)
      { c with trim := t, phase := p, acc := c.accAt e, written := none, trimTick := e }
  | none => s

/-- TRIM_TAKES_EFFECT (R48). -/
def execTrimTakesEffect (channel : Nat) (s : State) : Out := whenRunning s (s.trimApply channel)

/-- RX_BREAKWATER_OVERFLOW (R17, R55, R133): the breakwater is full at 8,192 samples. -/
def State.rxOverflow (s : State) (n : Nat) : State :=
  if !s.enabled n then s
  else
    let s := ((s.setFlag (K.chs.RX_OVERFLOW n) true).event 8 0x0C)
    let s := s.modChan n fun c => { c with fill := 8192, peak := 8192 }
    let s := if (s.chan n).rx.isSome then s.leaveRx n false (K.chs.RX_OVERFLOW_COUNT n) else s.bump (K.chs.RX_OVERFLOW_COUNT n)
    match (s.chan n).laneRx.bind s.rx? with
    | some x => ((s.releaseAll ((s.chan n).laneRx.getD 0) x).event 8 0x04).dropRx ((s.chan n).laneRx.getD 0)
    | none => s

/-- RX_BREAKWATER_OVERFLOW (R17). -/
def execRxBreakwaterOverflow (channel : Nat) (s : State) : Out := whenRunning s (s.rxOverflow channel)

/-! Synthesisers and channels on and off (R44, R45, R60). -/

/-- The channels of a group restart (R28, R45): the state after reset but for the configuration, zero trim, then IDLE_TRIM, since they are
idle (R49). -/
def State.restartChan (s : State) (n : Nat) : State :=
  let s := s.modChan n fun c =>
    { Channel.reset with
      cfg := c.cfg, swell := c.swell, blankEnd := c.blankEnd, laneBlank := c.laneBlank, fill := c.fill, peak := c.peak
      window := c.window, trimTick := s.now }
  let (t, p) := s.idleTrim n
  s.writeTrim n t p

/-- SYNTH_LOCK (R28, R44, R45): after lock the channels restart from zero trim and their idle state. -/
def State.synthLock (s : State) (k : Nat) : State :=
  if 7 < k || (s.group k).locked || (s.group k).stopped then s
  else ((groupChans k).filter s.enabled).foldl (fun t n => t.restartChan n) (s.modGroup k fun g => { g with locked := true })

/-- SYNTH_LOCK (R44). -/
def execSynthLock (group : Nat) (s : State) : Out := whenRunning s (s.synthLock group)

/-- SYNTH_LOCK_LOSS (R45): the group's receptions are rinsed and counted as overflows, and every channel of the group reports the loss;
frames that have begun run on. -/
def State.synthLoss (s : State) (k : Nat) : State :=
  if 7 < k || !(s.group k).locked then s
  else
    let s := s.modGroup k fun g => { g with locked := false }
    (groupChans k).foldl (fun t n =>
      ((t.bump (K.chs.SYNTH_LOCK_LOSS n)).leaveRx n false (K.chs.RX_OVERFLOW_COUNT n)).leaveRx n true (K.chs.RX_OVERFLOW_COUNT n)) s

/-- SYNTH_LOCK_LOSS (R45). -/
def execSynthLockLoss (group : Nat) (s : State) : Out := whenRunning s (s.synthLoss group)

/-- Some channel of LC group `k` is enabled (R28). -/
def State.groupUsed (s : State) (k : Nat) : Bool := (groupChans k).any s.enabled

/-- A write of TRUE to ENABLE (R28, R60): the channel starts with the state after reset; a stopped synthesiser restarts and has yet to
lock. -/
def State.channelOn (s : State) (n : Nat) : State :=
  if s.enabled n then s
  else
    let s := s.setFlag (K.ch.ENABLE n) true
    let s := if (s.group (n / 32)).stopped then s.modGroup (n / 32) fun _ => ⟨false, false⟩ else s
    (s.modChan n fun c => { c with fill := 0, peak := 0 }).restartChan n

/-- A write of FALSE to ENABLE (R28, R60): receptions are rinsed, frames whose first payload symbol has not left are cancelled; with the
last channel of its group the synthesiser stops. -/
def State.channelOff (s : State) (n : Nat) : State :=
  if !s.enabled n then s
  else
    let s := (s.leaveRx n false (K.chs.RINSE_DISABLED n)).leaveRx n true (K.chs.RINSE_DISABLED n)
    let fs := (s.framesWith fun f => f.chans.contains n).map (·.1)
    let s := fs.foldl (fun t f => t.cancelFrame f) s
    let s := (s.setFlag (K.ch.ENABLE n) false).modChan n fun c => { c with window := none, written := none }
    if s.groupUsed (n / 32) then s else s.modGroup (n / 32) fun _ => ⟨false, true⟩

/-! Configuration (R59, R119). -/

/-- The configuration registers of channel `n` (R59, R90, R151). -/
def State.chanConfig (s : State) (n : Nat) : ChanCfg where
  term := s.flag (K.ch.TERM_ENABLE n)
  fixed := s.rd (K.ch.AGC_MODE n) == 1
  fixedGain := s.rdInt (K.ch.FIXED_GAIN n)
  target := s.rdInt (K.ch.AGC_TARGET n)
  gainMax := s.rdInt (K.ch.GAIN_MAX n)
  listenGain := s.rdInt (K.ch.TX_LISTEN_GAIN n)
  idleTrim := s.rdInt (K.ch.IDLE_TRIM n)
  txDelay := s.rd (K.ch.TX_DELAY n)
  fsCurrent := s.rd (K.ch.TX_FS_CURRENT n)
  masks := (List.range 8).map fun j => s.rd (K.ch.MASK n j)
  detectLevel := s.rd (K.ch.DETECT_LEVEL n)

/-- The union mask of the segment of channel `n` (R90): the carriers masked on some of its channels. -/
def State.unionMask (s : State) (n : Nat) : List Nat :=
  match s.segOf n with
  | some g => bandCarriers.filter (s.segMasked g)
  | none => []

/-- A union mask other than it was starts sounding on its segment (R182). -/
def State.maskCheck (s : State) (n : Nat) (was : List Nat) : State :=
  match s.segOf n with
  | some g => if s.unionMask n = was then s else s.maskChanged g
  | none => s

/-- CHANNEL_CONFIG_APPLY (R59): pending writes take effect while the channel is idle; a changed mask starts
sounding on its segment (R182). A gain above a new GAIN_MAX stays until the next decision, which R31 clamps (DESIGN CHOICE, assumption
log, entry 65). -/
def State.configApply (s : State) (n : Nat) : State :=
  if !s.chanIdle n then s
  else
    let new := s.chanConfig n
    let old := (s.chan n).cfg
    let was := s.unionMask n
    let s := s.modChan n fun c => { c with cfg := new }
    let s := if old.idleTrim ≠ new.idleTrim && (s.chan n).window.isNone then s.writeTrim n new.idleTrim 0 else s
    s.maskCheck n was

/-- CHANNEL_CONFIG_APPLY (R59). -/
def execChannelConfigApply (channel : Nat) (s : State) : Out := whenRunning s (s.configApply channel)

/-- The swell entries take effect (R119): no frame is in progress on the channel or its lane, and the lane receiver holds none. -/
def State.swellApply (s : State) (n : Nat) : State :=
  let c := s.chan n
  if !s.chanIdle n || c.laneRx.isSome || s.laneSending n then s
  else
    let new : SwellCfg := ⟨s.flag (K.ch.LANE_ENABLE n), s.rdInt (K.ch.LANE_LEVEL n), s.rd (K.ch.LANE_PRE_LEN n), s.rd (K.ch.SWELL_PRE_LEN n)⟩
    (s.modChan n fun c => { c with swell := new }).maskCheck n (s.unionMask n)

/-- SWELL_CONFIG_APPLY (R119). -/
def execSwellConfigApply (channel : Nat) (s : State) : Out := whenRunning s (s.swellApply channel)

end Sys2Proof.Machine
end

