-- ==== Sys2Proof/Machine/Opening.lean ====
section
/-! DEFINITION. The decryption of received MPDUs: the slot that opens one, the engine that the MAC engine takes for it, and the end of a
message (R78, R104, R137, R143, R313, R314, R329, R331). -/

namespace Sys2Proof.Machine

/-- The slot of a key class that entry `i` of segment `g` may use (R313, R314). -/
def State.classSlot (s : State) (g i cls : Nat) : Option Nat :=
  match s.boundSlot (s.ep i).eui with
  | some j => if cls = 3 then some j else none
  | none => if cls = 1 then some g else if cls = 2 then some (64 + g) else none

/-- The slot that opens an MPDU of entry `i` on segment `g`, none where its class is not accepted or the slot not usable. -/
def State.openSlot (s : State) (g i cls : Nat) : Option Nat :=
  (s.classSlot g i cls).bind fun j => if s.slotUsable j then some j else none

/-- The entry of a reception's known source, with its segment (R208). -/
def State.srcOf (s : State) (x : Reception) : Option (Nat × Nat) :=
  x.seg.bind fun g => (s.knownSrc g x.src).map fun i => (g, i)

/-- The work on MPDU `j` of reception `r` (R137). -/
def State.setOpening (s : State) (r j : Nat) (o : Opening) : State :=
  s.modRx r fun x => { x with openings := Tbl.ins x.openings j o }

/-- A line cipher engine is asked for to decrypt MPDU `j` of reception `r`, `len` bytes long with header `h` (R137): in RELEASE_EARLY, by the
MAC engine of the lead channel's group; where no slot opens it, none is. MPDUs of unknown sources are not decrypted (R208). -/
def State.openMpdu (s : State) (r j : Nat) (x : Reception) (h : MpduHead) (len : Nat) : State :=
  match s.srcOf x with
  | none => s
  | some (g, i) =>
    if h.cls = 0 || (Tbl.at? x.openings j).isSome then s
    else match s.openSlot g i h.cls with
      | none => s.setOpening r j .noKey
      | some k =>
        let (a, s) := (s.setOpening r j .waits).fresh
        s.engineRequest
          { user := x.lead / 32, cls := x.pri, slot := k, mode := .ccm, encrypt := false, output := .releaseEarly
            len := len - 11 - h.tagBytes, earlyConsumer := true, descAddr := a, mpdu := some (r, j) } none

/-- The bytes of MPDU `j` in an OFDM payload: those decoded so far, and its length. -/
def Reception.mpduSoFar (x : Reception) (payload : List Byte) (j : Nat) : Option (List Byte × Nat) :=
  x.dir.map fun lens =>
    let n := lens.getD j 0
    ((payload.drop (2 * lens.length + 2 + (lens.take j).sum)).take n, n)

/-- MPDU `j` as it was received; none while its bytes are not all there (R76, R104). -/
def Reception.mpduBytes (x : Reception) (payload : List Byte) (j : Nat) : Option (List Byte) :=
  if x.wave != .ofdm then x.raw
  else match x.mpduSoFar payload j with
    | some (b, n) => if b.length = n then some b else none
    | none => none

/-- The protected MPDUs whose first body bytes are decoded take their engines (R137). -/
def State.openMpdus (s : State) (r : Nat) (payload : List Byte) : State :=
  match s.rx? r with
  | none => s
  | some x =>
    (List.range x.mpdus).foldl (fun t j =>
      match t.rx? r with
      | none => t
      | some y => match y.mpduSoFar payload j with
        | some (b, n) => if 7 < b.length && 11 ≤ n then t.openMpdu r j y (MpduHead.read b) n else t
        | none => t) s

/-- The end code of a message (R329, R331); none while the bytes of the MPDU that it decrypts are not all there. -/
def State.messageEndCode (s : State) (m : CipherMsg) (payload : Reception → List Byte) : Option EndCode :=
  match m.req.mpdu with
  | none => some (if m.result.2 then .ok else .tagFail)
  | some (r, j) =>
    match s.rx? r with
    | none => some .tagFail
    | some x => match x.mpduBytes (payload x) j, s.srcOf x with
      | some raw, some (_, i) => some (if (ccmOpenMpdu m.key (s.ep i).eui x.pri raw).2 then .ok else .tagFail)
      | some _, none => some .tagFail
      | none, _ => none

end Sys2Proof.Machine
end

