-- ==== Sys2Proof/Machine/Rx.lean ====
section
/-! DEFINITION. Receptions from detection to the header check, their payload, capture and end (R72, R114, R122–R136, R141–R150,
R201, R257). -/

namespace Sys2Proof.Machine

/-! Acquisition (R122–R126, R130). -/

/-- A member on which detection is declared. -/
def newMember (n snr : Nat) : RxMember := ⟨n, snr, true, false, []⟩

/-- A reception on channel `n` of an enabled segment, or of none, as its detection leaves it. CAPTURE_MARGIN and COMBINE_ENABLE are those in
force then (R59, R151); a channel bound to no segment takes their defaults (assumption log, entry 50). -/
def State.newRx (s : State) (n : Nat) (wave : Wave) (sf : Nat) (ms : List RxMember) : Reception where
  seg := s.segOf n
  wave := wave
  sf := sf
  members := ms
  stage := .detected
  closed := false
  detected := s.now
  mark := 0
  stamp := 0
  offset := 0
  head := 0
  stop := 0
  words := []
  dir := none
  next := 0
  acked := 0
  firstDone := false
  marking := false
  admitted := 0
  finished := false
  shed := false
  seq8 := 0
  final := none
  preload := (s.chan n).window.map (·.1)
  margin := match s.segOf n with
    | some g => s.rd (K.seg.CAPTURE_MARGIN g)
    | none => 6
  combine := match s.segOf n with
    | some g => s.flag (K.seg.COMBINE_ENABLE g)
    | none => false
  formed := none
  soft := []
  openings := []
  raw := none
  claims := []

/-- The AGC of channel `n` freezes at the gain in force (R32), in reception `r`. -/
def State.freeze (s : State) (n r : Nat) : State :=
  s.modChan n fun c => { c with rx := some r, frozen := true, gain := c.gainAt s.now, gainFrom := min c.gainFrom s.now }

/-- A detection is declared and counted (R122, R152). -/
def State.countDetect (s : State) (n : Nat) : State := (s.bump (K.chs.DETECT_COUNT n)).event 8 0x01

/-- Members in ascending order of channel. -/
def sortMembers (ms : List RxMember) : List RxMember := ms.insertionSort fun a b => a.chan ≤ b.chan

/-- Change the member on channel `n`. -/
def Reception.modMember (x : Reception) (n : Nat) (f : RxMember → RxMember) : Reception :=
  { x with members := x.members.map fun m => if m.chan = n then f m else m }

/-- The member on channel `n`. -/
def Reception.member? (x : Reception) (n : Nat) : Option RxMember := x.members.find? fun m => m.chan == n

/-- Detection on a channel whose new group has formed by a takeover (R149): declared, and the gain frozen, once no gain step is under
way. -/
def State.declare (s : State) (n r gamma : Nat) (x : Reception) : State :=
  match x.member? n with
  | none => s
  | some m =>
    if m.declared || s.now < (s.chan n).gainFrom then s
    else
      let first := x.members.all fun y => !y.declared
      (((s.countDetect n).freeze n r)).modRx r fun x =>
        { x.modMember n (fun y => { y with declared := true, snr := gamma }) with detected := if first then s.now else x.detected }

/-- DETECTION (R32, R122, R149): the detector's condition holds on an idle channel in service, or on one that a takeover has given to a
new group; the gain freezes. A lane receiver holds one reception and has its own blanking (R114). -/
def State.detection (s : State) (n : Nat) (wave : Wave) (sf : Nat) (seen : Preamble) : State :=
  let c := s.chan n
  let gamma := gammaOf (preambleRho seen wave)
  if !s.inService n || !preambleDetects seen wave c.cfg.detectLevel then s
  else if isLane wave then
    if !c.swell.on || s.laneBlanked n || c.laneRx.isSome then s
    else
      let (r, s) := s.addRx (s.newRx n wave sf [newMember n gamma])
      (s.countDetect n).modChan n fun c => { c with laneRx := some r }
  else if s.blanked n then s
  else match c.rx with
    | some r => match s.rx? r with
      | some x => if x.wave == wave && x.sf == sf then s.declare n r gamma x else s
      | none => s
    | none =>
      let (r, s) := s.addRx (s.newRx n wave sf [newMember n gamma])
      (s.countDetect n).freeze n r

/-- DETECTION (R122). -/
def execDetection (channel : Nat) (wave : Wave) (sf : Nat) (seen : Preamble) (s : State) : Out :=
  whenRunning s (s.detection channel wave sf seen)

/-- The trim and phase last written to channel `n`. -/
def State.trimLast (s : State) (n : Nat) : Int × Nat :=
  let c := s.chan n
  match c.written with
  | some (t, p, _) => (t, p)
  | none => (c.trim, c.phase)

/-- The ticks from the first sample of a frame to its timing mark: 10,240 samples, or N_pre symbols of a swell frame (R94, R128). -/
def markAfter (wave : Wave) (sf periods : Nat) : Nat :=
  if wave == .ofdm then 20480 else periods * swellSymbol (isLane wave) sf

/-- The time-stamp of a frame in 1/64 sample (R128): the tick of the timing mark less the samples before it, corrected for the slips
between and for the phase code, which delays the sampling instant (assumption log, entry 51). -/
def Channel.stampOf (c : Channel) (mark after : Nat) : Nat :=
  ((32 * mark : Nat) - (32 * after : Nat) + 64 * (c.slipsAt mark - c.slipsAt (mark - after)) + c.phase : Int).toNat

/-- TIMING_MARK (R53, R100, R123–R125, R128): `mark` is the T0 tick of the sign change from SYNC to SYNC−, or of the end of a swell
frame's preamble. The coarse offset is written within the SYNC− symbols. -/
def State.timingMark (s : State) (n mark : Nat) (seen : MarkSeen) : State :=
  match (s.chan n).rx with
  | none => s
  | some r => match s.rx? r with
    | none => s
    | some x => match x.member? n with
      | none => s
      | some m =>
        if !(x.stage == .detected || x.stage == .marked) || !m.declared || m.marked then s
        else
          let s := s.passTo mark
          let (t, p) := s.trimLast n
          let off := markOffset seen x.wave x.sf
          if markPeriods seen x.wave < 2 || (x.wave == .ofdm && x.detected + usTicks 50 < s.now) then s.rinse r (K.chs.ACQ_FAIL_COUNT x.lead)
          else if 24000 < |t + off| then s.leaveRx n false (K.chs.TRIM_RANGE_COUNT n)
          else
            let st := (s.chan n).stampOf mark (markAfter x.wave x.sf (markPeriods seen x.wave))
            let early := fun (a b : Nat) => if x.stage == .detected then b else min a b
            (s.writeTrim n (t + off) p).modRx r fun x =>
              { x.modMember n (fun y => { y with marked := true }) with
                stage := .marked, mark := early x.mark mark, stamp := early x.stamp st }

/-- TIMING_MARK (R123). -/
def execTimingMark (channel mark : Nat) (seen : MarkSeen) (s : State) : Out := whenRunning s (s.timingMark channel mark seen)

/-- ACQ_FAIL (R124): no timing mark within 50.0 µs of detection. -/
def State.acqFail (s : State) (n : Nat) : State :=
  match (s.chan n).rx with
  | none => s
  | some r =>
    match s.rx? r with
    | none => s
    | some x =>
      if x.stage != .detected then s else (s.atDeadline (x.detected + usTicks 50)).rinse r (K.chs.ACQ_FAIL_COUNT x.lead)

/-- ACQ_FAIL (R124). -/
def execAcqFail (channel : Nat) (s : State) : Out := whenRunning s (s.acqFail channel)

/-- The receptions that join reception `x` when its group closes (R130). -/
def State.joiners (s : State) (r : Nat) (x : Reception) : List (Nat × Reception) :=
  if x.seg.isNone || !x.combine then []
  else s.line.rxs.filter fun y =>
    y.1 != r && y.2.seg == x.seg && y.2.combine && y.2.wave == x.wave && y.2.sf == x.sf && y.2.stage == .marked && !y.2.closed &&
      x.mark ≤ y.2.mark && y.2.mark ≤ x.mark + 204

/-- GROUP_CLOSE (R130): 0.5 µs after the earliest mark; every joining member but the lead is counted. The group's time-stamp and tick of
detection are the earliest of its members' (DESIGN CHOICE, assumption log, entry 51: R128 gives one stamp to a frame and names no
member). -/
def State.groupClose (s : State) (r : Nat) : State :=
  match s.rx? r with
  | none => s
  | some x =>
    if x.closed || isLane x.wave || x.stage != .marked then s
    else
      let s := s.atDeadline (x.mark + 205)
      let js := s.joiners r x
      let ms := sortMembers (x.members ++ js.flatMap fun y => y.2.members)
      let s := js.foldl (fun t y => t.dropRx y.1) s
      let s := s.modChans (ms.map (·.chan)) fun c => { c with rx := some r }
      let s := ms.tail.foldl (fun t m => t.bump (K.chs.GROUP_JOIN m.chan)) s
      s.modRx r fun x =>
        { x with members := ms, closed := true, stamp := js.foldl (fun a y => min a y.2.stamp) x.stamp
                 detected := js.foldl (fun a y => min a y.2.detected) x.detected }

/-- GROUP_CLOSE (R130). -/
def execGroupClose (rx : Nat) (s : State) : Out := whenRunning s (s.groupClose rx)

/-- What was received of the CE symbols on channel `n`. -/
def ceOf (seen : List CeSeen) (n : Nat) : Option CeSeen := seen.find? fun c => c.chan == n

/-- A member with its taps, noise estimates and SNR once both CE symbols are in (R127). -/
def State.trainMember (s : State) (seen : List CeSeen) (m : RxMember) : RxMember :=
  match ceOf seen m.chan with
  | none => m
  | some c =>
    let taps := tapsOf (s.masked m.chan) c.y1 c.y2
    { m with taps := taps, snr := snrOf taps c.y1 c.y2 }

/-- The fine trim that a group's members call for (R126): the trim each has in force plus its own fine offset, weighted by its SNR; the
lead's trim where no member has a weight. -/
def State.groupTrim (s : State) (seen : List CeSeen) (lead : Nat) (ms : List RxMember) : Int :=
  let hits := ms.filterMap fun m => (ceOf seen m.chan).map fun c =>
    (m.snr, (s.trimLast m.chan).1 + fineOffset (s.masked m.chan) c.y1 c.y2)
  let w := (hits.map (·.1)).sum
  if w = 0 then (s.trimLast lead).1 else divTiesZero ((hits.map fun h => (h.1 : Int) * h.2).sum) w

/-- FINE_TRIM (R53, R123, R126, R127): once both CE symbols are in, every member takes the one trim of the group; a trim out of range rinses
member by member (R133). -/
def State.fineTrim (s : State) (r : Nat) (seen : List CeSeen) : State :=
  match s.rx? r with
  | none => s
  | some x =>
    if x.stage != .marked || x.wave != .ofdm then s
    else
      let s := if x.closed then s else s.groupClose r
      match s.rx? r with
      | none => s
      | some x =>
        let s := s.passTo (x.begin_ + 45056)
        let ms := x.members.map (s.trainMember seen)
        let trim := s.groupTrim seen x.lead ms
        if 24000 < |trim| then x.members.foldl (fun t m => t.leaveRx m.chan false (K.chs.TRIM_RANGE_COUNT m.chan)) s
        else
          let s := x.members.foldl (fun t m => t.writeTrim m.chan trim (t.trimLast m.chan).2) s
          s.modRx r fun x => { x with stage := .trained, members := ms }

/-- FINE_TRIM (R126). -/
def execFineTrim (rx : Nat) (seen : List CeSeen) (s : State) : Out := whenRunning s (s.fineTrim rx seen)

/-! The header check (R72, R102, R114, R131, R134–R136, R141). -/

/-- Σ γ over the members (R146). -/
def Reception.metric (x : Reception) : Nat := (x.members.map (·.snr)).sum

/-- Hand a foreign header to the interference records of segment `g` (R257). -/
def State.hear (s : State) (g nid level : Nat) : State :=
  let key := g * 65536 + nid
  match Tbl.at? s.domain.heard key with
  | some h =>
    let l := ((h.level : Int) + ((level : Int) - h.level) / 8).toNat
    s.modDomain fun d => { d with heard := Tbl.ins d.heard key ⟨l, s.now⟩ }
  | none =>
    let mine := s.domain.heard.filter fun h => h.1 / 65536 == g
    let full := 64 ≤ mine.length
    let low := mine.foldl (fun (b : Option (Nat × Nat)) h =>
      match b with
      | some (k, l) => if h.2.level < l then some (h.1, h.2.level) else some (k, l)
      | none => some (h.1, h.2.level)) none
    s.modDomain fun d =>
      let t := match low with
        | some (k, _) => if full then Tbl.del d.heard k else d.heard
        | none => d.heard
      { d with heard := Tbl.ins t key ⟨level, s.now⟩ }

/-- The GI that payload transforms assume before the check (R136): that of the link whose preload was in force at detection, else that of
the segment's last frame. A link's GI is that of its uplink map of the lowest class that has a descriptor, else ROBUST_GI (DESIGN
CHOICE, assumption log, entry 33: its classes may differ). -/
def State.predictedGi (s : State) (x : Reception) : Nat :=
  match x.preload with
  | some i => (((s.ep i).mapUp.findSome? fun h => (s.handleDesc h).map (·.gi))).getD (s.robustGi (s.ep i).seg)
  | none => match x.seg with
    | some g => Tbl.atD s.line.lastGi g 3
    | none => 3

/-- A header that passed is judged for its receiver (R141): the reception is decoded, or held passively. -/
def State.addressed (s : State) (r : Nat) (x : Reception) (nid dst : Nat) : Bool × State :=
  let hold := fun (t : State) => (false, t.modRx r fun x => { x with stage := .passive })
  match x.seg with
  | none => hold (s.bump (K.chs.FOREIGN_COUNT x.lead))
  | some g =>
    if nid ≠ s.nid g then
      let s := s.bump (K.chs.FOREIGN_COUNT x.lead)
      hold (if isLane x.wave then s else s.hear g nid x.metric)
    else if dst ≠ 0 && dst ≠ 0xFFFF then hold (s.bump (K.chs.NOT_ADDRESSED_COUNT x.lead))
    else (true, s)

/-- The reception's payload is admitted to the decoders (R135, R142). -/
def State.admitRx (s : State) (r : Nat) : State :=
  let k := s.line.nextAdmit
  (s.modLine fun l => { l with nextAdmit := k + 1 }).modRx r fun x => { x with stage := .payload, admitted := k }

/-- A frame control has passed for reception `r` (R72, R136, R141, R173). -/
def State.fcPassed (s : State) (r : Nat) (f : FrameControl) (bytes : List Byte) : State :=
  let s := (s.modRx r fun x => { x with head := ofLe bytes, stop := x.begin_ + ppduTicks f.psc f.gi }).event 8 0x02
  match s.rx? r with
  | none => s
  | some x =>
    let s := if f.psc ≠ 0 && s.predictedGi x ≠ f.gi then s.bump (K.chs.GI_MISS x.lead) else s
    let s := match x.seg with
      | some g => s.modLine fun l => { l with lastGi := Tbl.store 3 l.lastGi g f.gi }
      | none => s
    let (mine, s) := s.addressed r x f.nid f.dst
    if !mine then s
    else if f.type ≠ 2 && f.type ≠ 3 && f.type ≠ 6 && (s.rxMap x).isNone then
      s.rinse r (K.chs.DIR_FAIL_COUNT x.lead)
    else s.admitRx r

/-- A swell header has passed for reception `r`: the frame ends with its last data symbol (R99). -/
def State.swellPassed (s : State) (r : Nat) (h : SwellHead) (bytes : List Byte) : State :=
  let s := s.modRx r fun x =>
    { x with head := ofLe bytes
             stop := x.mark + (2 + swellData h.type h.len x.sf) * swellSymbol (isLane x.wave) x.sf }
  match s.rx? r with
  | none => s
  | some x =>
    let (mine, s) := s.addressed r x h.nid h.dst
    if mine then s.admitRx r else s

/-- A header of the reception's waveform passes its check and reception `r` goes on under it; false where it fails. -/
def State.headPassed (s : State) (r : Nat) (wave : Wave) (bytes : List Byte) : Bool × State :=
  if wave == .ofdm then
    match fcRead bytes with
    | some f => (true, s.fcPassed r f bytes)
    | none => (false, s)
  else match swellRead (isLane wave) bytes with
    | some h => (true, s.swellPassed r h bytes)
    | none => (false, s)

/-- The bytes pass the header check of a waveform. -/
def lineHeadGood (wave : Wave) (bytes : List Byte) : Bool :=
  if wave == .ofdm then (fcRead bytes).isSome else (swellRead (isLane wave) bytes).isSome

/-- A member whose own header passes with another value leaves its group as a reception of its own (R131); the last member of a group
stays (DESIGN CHOICE, assumption log, entry 52). -/
def State.splitMember (s : State) (r n : Nat) (bytes : List Byte) : State :=
  match s.rx? r with
  | none => s
  | some x =>
    match x.member? n with
    | none => s
    | some m =>
      if x.members.length ≤ 1 then s
      else
        let s := (s.bump (K.chs.GROUP_LEAVE n)).modRx r fun x => { x with members := x.members.filter fun y => y.chan ≠ n }
        let (q, s) := s.addRx { x with members := [m] }
        ((s.modChan n fun c => { c with rx := some q }).headPassed q x.wave bytes).2

/-- The header that members of a reception received, each with what it saw (R131, R134). -/
def Reception.decodeHead (x : Reception) (parts : List (RxMember × HeadSeen)) : List Byte :=
  if x.wave == .ofdm then fcDecode (parts.map fun p => (p.1.taps, p.2.carriers))
  else swellDecode x.sf (parts.map fun p => (p.1.snr, p.2.symbols))

/-- The members of a reception of whose header something was seen. -/
def Reception.headParts (x : Reception) (seen : List HeadSeen) : List (RxMember × HeadSeen) :=
  x.members.filterMap fun m => (seen.find? fun h => h.chan == m.chan).map fun h => (m, h)

/-- The tick at which a header is in (R66, R99). -/
def Reception.headEnd (x : Reception) : Nat :=
  if x.wave == .ofdm then x.begin_ + ofdmHead else x.mark + (2 + ceilDiv 80 x.sf) * swellSymbol (isLane x.wave) x.sf

/-- The combined header is judged, then the members' own copies: they count only where the combined one passed (DESIGN CHOICE, assumption
log, entry 52). -/
def State.judgeHead (s : State) (r : Nat) (x : Reception) (seen : List HeadSeen) : State :=
  let parts := x.headParts seen
  let bytes := x.decodeHead parts
  if !lineHeadGood x.wave bytes then
    s.rinse r (if x.wave == .ofdm then K.chs.FC_FAIL_COUNT x.lead else K.chs.SWELL_HDR_FAIL x.lead)
  else
    let s := if parts.length ≤ 1 then s
      else parts.foldl (fun t p =>
        let own := x.decodeHead [p]
        if lineHeadGood x.wave own && own != bytes then t.splitMember r p.1.chan own else t) s
    (s.headPassed r x.wave bytes).2

/-- FRAME_CONTROL_CHECK (R72, R123, R131, R134): the header is decoded from all members once it is in. -/
def State.frameControlCheck (s : State) (r : Nat) (seen : List HeadSeen) : State :=
  match s.rx? r with
  | none => s
  | some x =>
    let ready := x.stage == .trained || (x.wave != .ofdm && x.stage == .marked)
    if !ready || isLane x.wave then s
    else
      let s := if x.closed then s else s.groupClose r
      match s.rx? r with
      | none => s
      | some x => (s.passTo x.headEnd).judgeHead r x seen

/-- FRAME_CONTROL_CHECK (R72). -/
def execFrameControlCheck (rx : Nat) (seen : List HeadSeen) (s : State) : Out := whenRunning s (s.frameControlCheck rx seen)

/-- LANE_HEADER_CHECK (R114): the lane receiver of a channel, in its own arithmetic; `stamp` is the frame's first sample in 1/64 sample. -/
def State.laneHeaderCheck (s : State) (n sf : Nat) (bytes : List Byte) (seen : MarkSeen) (stamp : Nat) : State :=
  match (s.chan n).laneRx with
  | none => s
  | some r =>
    match s.rx? r with
    | none => s
    | some x =>
      let offset := swellOffset .laneA sf seen.preamble seen.pivot
      if x.stage != .detected then s
      else if 24000 < |offset| then s.rinse r (K.chs.TRIM_RANGE_COUNT n)
      else match swellRead true bytes with
        | none => s.rinse r (K.chs.LANE_HDR_FAIL n)
        | some h =>
          -- the check comes with the header's last symbol; the symbols that remain end the frame
          let left := swellData h.type h.len sf - ceilDiv 80 sf
          let mark := s.now - (2 + ceilDiv 80 sf) * swellSymbol true sf
          let s := s.modRx r fun x => { x with sf := sf, offset := offset, stamp := stamp, mark := mark }
          let s := s.swellPassed r h bytes
          let stop := s.now + left * swellSymbol true sf
          s.modRx r fun x => { x with stop := stop }

/-- LANE_HEADER_CHECK (R114). -/
def execLaneHeaderCheck (channel sf : Nat) (bytes : List Byte) (seen : MarkSeen) (stamp : Nat) (s : State) : Out :=
  whenRunning s (s.laneHeaderCheck channel sf bytes seen stamp)

/-! The payload (R129, R132, R142). -/

/-- One step of phase towards the measured arrival (R129): a later arrival takes a later sampling instant. -/
def phaseStep (phase : Nat) (e : Int) : Nat :=
  if e ≤ -128 then (phase + 63) % 64 else if 128 ≤ e then (phase + 1) % 64 else phase

/-- What was received of a payload symbol on channel `n`. -/
def symbolOf (seen : List SymbolSeen) (n : Nat) : Option SymbolSeen := seen.find? fun c => c.chan == n

/-- A member's timing error at payload symbol `t` in 1/256 of 1/64 sample, 0 where none can be measured (R129). -/
def memberError (seen : List SymbolSeen) (t : Nat) (m : RxMember) : Int :=
  ((symbolOf seen m.chan).bind fun c => timingError m.taps c.carriers t).getD 0

/-- The SNR-weighted mean of the members' timing errors (R129), rounded with ties towards zero. -/
def meanError (seen : List SymbolSeen) (t : Nat) (ms : List RxMember) : Int :=
  let w := (ms.map (·.snr)).sum
  if w = 0 then 0 else divTiesZero ((ms.map fun m => (m.snr : Int) * memberError seen t m).sum) w

/-- The correction of the trims at payload symbol `t` whose first sample is `d` ticks after the midpoint of the CE symbols (R129): half the
rate of the mean error, in 0.005 ppm, ties towards zero. -/
def rateFix (e : Int) (d : Nat) : Int := divTiesZero (e * 100000000 * 2) (64 * 256 * d)

/-- The first sample of payload symbol `t`, numbered from 1, in ticks from the frame's first (R66). -/
def symbolAt (gi t : Nat) : Nat := ofdmHead + (t - 1) * ofdmSymbol gi

/-- The loading of the map of an OFDM reception: bits of carriers 36 to 1,720 (R86, R173). -/
def State.rxLoading (s : State) (x : Reception) : List Nat :=
  if x.fc.tmi ≤ 1 then fixedLoading
  else match (s.srcOf x).bind fun p =>
      [(s.ep p.2).mapUp.getD x.fc.tide 0, (s.ep p.2).mapPend.getD x.fc.tide 0].findSome? fun h =>
        (Tbl.at? s.mac.pages (handlePage h)).bind fun y => if y.tmi = x.fc.tmi then some y.loading else none with
    | some l => l
    | none => []

/-- The combined value of carrier `k` over the members in which it is not masked (R132). -/
def combinedAt (seen : List SymbolSeen) (ms : List RxMember) (k : Nat) : Gauss × Nat :=
  combine (ms.filterMap fun m => match symbolOf seen m.chan, m.taps[k - 36]? with
    | some c, some t => if t.count = 0 then none else some (t, c.carriers.getD (k - 36) (0, 0))
    | _, _ => none)

/-- The soft bits of a payload symbol join those before it (R121, R132). -/
def State.softIn (s : State) (r : Nat) (x : Reception) (t : Nat) (seen : List SymbolSeen) : State :=
  let soft := symbolSoft (x.fc.tmi == 0) (s.rxLoading x) t (combinedAt seen x.members)
  s.modRx r fun x => { x with soft := x.soft ++ soft }

/-- PILOT_TRACK (R129, R132): payload symbol `t` of 1 to PSC is in; every member's phase follows its pilots, every eighth symbol corrects the
trims within ±120 ppm (R46), and the carriers are combined and demapped. -/
def State.pilotTrack (s : State) (r t : Nat) (seen : List SymbolSeen) : State :=
  match s.rx? r with
  | none => s
  | some x =>
    if x.stage != .payload || x.wave != .ofdm || x.finished || t = 0 || x.fc.psc < t then s
    else
      let s := s.passTo (x.begin_ + symbolAt x.fc.gi (t + 1))
      let fix := if t % 8 = 0 then rateFix (meanError seen t x.members) (symbolAt x.fc.gi t - 36864) else 0
      let s := x.members.foldl (fun u m =>
        let (a, p) := u.trimLast m.chan
        let e := memberError seen t m
        if fix = 0 && phaseStep p e = p then u else u.writeTrim m.chan (clampInt (-24000) 24000 (a - fix)) (phaseStep p e)) s
      s.softIn r x t seen

/-- PILOT_TRACK (R129). -/
def execPilotTrack (rx symbol : Nat) (seen : List SymbolSeen) (s : State) : Out := whenRunning s (s.pilotTrack rx symbol seen)

/-- SHED (R142): the lowest class in the backlog below P0, and in it the frame admitted last. -/
def State.shedChoice (s : State) : Option (Nat × Reception) :=
  (s.line.rxs.filter fun x => x.2.stage == .payload && x.2.pri ≠ 0 && !x.2.shed && 0 < s.backlog x.2).foldl
    (fun (b : Option (Nat × Reception)) x =>
      match b with
      | none => some x
      | some y => if y.2.pri < x.2.pri || (y.2.pri == x.2.pri && y.2.admitted < x.2.admitted) then some x else some y) none

/-- The remaining payload of one frame is shed (R142): its MPDUs that have not committed are rinsed; those that have are acknowledged
(R201). -/
def State.shed (s : State) : State :=
  match s.shedChoice with
  | none => s
  | some (r, x) =>
    let counter := match x.pri with
      | 1 => K.chs.SHED_P1 x.lead
      | 2 => K.chs.SHED_P2 x.lead
      | _ => K.chs.SHED_P3 x.lead
    let s := ((s.feedDecoders false).bump counter).event 8 0x09
    let s := (s.bumpBy (K.chs.CODEWORDS_DISCARDED x.lead) (s.backlog x)).events 8 0x08 (some x.pri) (s.backlog x)
    let s := s.events 8 0x05 (some x.pri) (x.mpdus - x.next)
    ((s.withdrawOpenings r).modRx r fun x => { x with shed := true, next := x.mpdus, claims := [] }).feedDecoders true

/-- SHED (R142). -/
def execShed (s : State) : Out := whenRunning s s.shed

/-- The layout of an OFDM reception's payload. -/
def State.rxLayout (s : State) (x : Reception) : Layout :=
  let m := (s.rxMap x).getD (fixedMap 0)
  layoutOf x.fc.psc m.1 m.2

/-- The tick at which codeword `k` of a reception has been received: the end of the payload symbol with its last bit (R81, R82). -/
def State.wordTick (s : State) (x : Reception) (k : Nat) : Nat :=
  let l := s.rxLayout x
  let bits := if k < l.long then 9216 * (k + 1) else 9216 * l.long + 1152 * (k + 1 - l.long)
  x.begin_ + symbolAt x.fc.gi (ceilDiv bits ((s.rxMap x).getD (fixedMap 0)).1 + 1)

/-- Information bytes of codeword `k`. -/
def State.wordBytes (s : State) (x : Reception) (k : Nat) : Nat :=
  let m := (s.rxMap x).getD (fixedMap 0)
  (if k < (s.rxLayout x).long then (infoBits m.2).1 else (infoBits m.2).2) / 8

/-- The information bytes of the codewords decoded without a gap from the first. -/
def prefixWords (words : Tbl (List Byte)) : Nat → Nat → List Byte
  | 0, _ => []
  | n + 1, k => match Tbl.at? words k with
    | some b => b ++ prefixWords words n (k + 1)
    | none => []

/-- The descrambled payload as far as it has been decoded (R79). -/
def Reception.payload (x : Reception) : List Byte := scramble (prefixWords x.words x.words.length 0)

/-- The directory of a reception is judged as soon as its bytes are in (R76); once it has passed, its MPDUs claim frame buffers (R135). -/
def State.dirCheck (s : State) (r : Nat) (x : Reception) : State :=
  let n := x.fc.countM1 + 1
  if x.dir.isSome || x.payload.length < 2 * n + 2 then s
  else match dirRead n (s.rxLayout x).info x.payload with
    | some d => s.modRx r fun x => { x with dir := some d, claims := List.range n }
    | none => s.rinse r (K.chs.DIR_FAIL_COUNT x.lead)

/-- CODEWORD_DECODED (R19, R76, R79, R135, R137): the codeword's information bits join the payload; the directory and the MPDUs that it
completes go on. A codeword that no decoder has taken yet cannot be decoded. -/
def State.codewordDecoded (s : State) (r k iterations : Nat) (bytes : List Byte) : State :=
  match s.rx? r with
  | none => s
  | some x =>
    let l := s.rxLayout x
    if x.wave != .ofdm || x.stage != .payload || x.shed || x.fc.type = 6 || l.long + l.short ≤ k || (Tbl.at? x.words k).isSome ||
        bytes.length ≠ s.wordBytes x k then s
    else
      let s := (s.passTo (s.wordTick x k)).feedDecoders false
      if !s.line.decoders.contains (r, k) then s
      else
      let s := ((s.eventC 8 0x06 x.pri).events 8 0x07 (some x.pri) iterations).sampleWork 8 (if k < l.long then 0x10 else 0x11) x.pri 1
      let s := (s.modRx r fun x => { x with words := Tbl.ins x.words k bytes }).feedDecoders true
      match s.rx? r with
      | none => s
      | some x => (s.dirCheck r x).openMpdus r x.payload

/-- CODEWORD_DECODED (R19). -/
def execCodewordDecoded (rx index iterations : Nat) (bytes : List Byte) (s : State) : Out :=
  whenRunning s (s.codewordDecoded rx index iterations bytes)

/-! A second preamble (R145–R150). -/

/-- A secondary detection counts as a new preamble (R145): within 10 µs of the timing mark only at a SYNC timing at least 0.5 µs from
the current one modulo 5.0 µs; `offset` is that difference in ticks. -/
def State.newPreamble (s : State) (x : Reception) (offset : Int) : Bool :=
  let early := x.stage == .detected || (x.stage == .marked && s.now ≤ x.mark + usTicks 10)
  let m := offset % 2048
  !early || (205 ≤ m && m ≤ 1843)

/-- The reception that a channel's line or lane receiver holds. -/
def State.rxOn (s : State) (n : Nat) (lane : Bool) : Option Nat := if lane then (s.chan n).laneRx else (s.chan n).rx

/-- What the line or the lane receiver's secondary detector of a channel found. -/
def Channel.found (c : Channel) (lane : Bool) : Option Second := if lane then c.laneSecond else c.second

/-- Set what a secondary detector found. -/
def Channel.setFound (lane : Bool) (y : Option Second) (c : Channel) : Channel :=
  if lane then { c with laneSecond := y } else { c with second := y }

/-- The receiver of channel `n` is deaf to preambles of the line or the lane (R42, R114). -/
def State.deaf (s : State) (n : Nat) (lane : Bool) : Bool := if lane then s.laneBlanked n else s.blanked n

/-- SECONDARY_DETECTION (R42, R145, R146): the detector's condition holds on a channel that receives; its metric is kept for the
comparison. -/
def State.secondaryDetection (s : State) (n : Nat) (wave : Wave) (sf : Nat) (seen : Preamble) (offset : Int) : State :=
  let lane := isLane wave
  match (s.rxOn n lane).bind s.rx? with
  | none => s
  | some x =>
    if !s.inService n || s.deaf n lane || !preambleDetects seen wave (s.chan n).cfg.detectLevel || !s.newPreamble x offset ||
        ((s.chan n).found lane).isSome then s
    else s.modChan n (Channel.setFound lane (some ⟨s.now, gammaOf (preambleRho seen wave), wave, sf⟩))

/-- SECONDARY_DETECTION (R145). -/
def execSecondaryDetection (channel : Nat) (wave : Wave) (sf : Nat) (seen : Preamble) (offset : Int) (s : State) : Out :=
  whenRunning s (s.secondaryDetection channel wave sf seen offset)

/-- The metric of new over old reaches the margin in decibels: 10·log10(new / old) ≥ margin (R148). -/
def overMargin (new old margin : Nat) : Bool := 10 ^ margin * old ^ 10 ≤ new ^ 10

/-- The channels whose secondary detector found the new preamble that reception `x` meets, within 0.5 µs of the first (R146). On the lane
the receiver stands for its own segment's group. -/
def State.seconds (s : State) (x : Reception) : List (Nat × Second) :=
  let lane := isLane x.wave
  let cands := match x.seg with
    | some g => if lane then x.chans else (x.chans ++ s.members g).eraseDups
    | none => x.chans
  let hits := cands.filterMap fun n => ((s.chan n).found lane).map fun y => (n, y)
  match hits.foldl (fun (b : Option (Nat × Second)) h => match b with
      | some y => if h.2.tick < y.2.tick then some h else some y
      | none => some h) none with
  | none => []
  | some f => hits.filter fun h => h.2.tick ≤ f.2.tick + 204 && h.2.wave == f.2.wave && h.2.sf == f.2.sf

/-- What a new preamble of metric `new` does to reception `x`: the counter under which it goes, none where it stays (R147, R148). -/
def Reception.captured (x : Reception) (new : Nat) : Option Reg :=
  if !(x.stage == .payload || x.stage == .passive) then some (K.chs.RINSE_TAKEOVER x.lead)
  else if overMargin new x.metric x.margin then some (K.chs.LOST_TO_CAPTURE x.lead)
  else none

/-- One reception that holds channels of a new preamble is judged; true where it has gone. -/
def State.judgeCapture (s : State) (q new : Nat) : Bool × State :=
  match s.rx? q with
  | none => (true, s)
  | some x => match x.captured new with
    | some c => (true, s.rinse q c)
    | none => (false, s.bump (K.chs.CAPTURE_IGNORED x.lead))

/-- The receptions of channels of segment `g` that found the same preamble on their own within the window of a new group that began at tick
`first` (R149). -/
def State.windowMates (s : State) (g : Option Nat) (wave : Wave) (sf first : Nat) : List (Nat × Reception) :=
  s.line.rxs.filter fun y =>
    g.isSome && y.2.seg == g && y.2.combine && y.2.wave == wave && y.2.sf == sf && y.2.stage == .detected && y.2.formed.isNone &&
      first ≤ y.2.detected && y.2.detected ≤ first + 204

/-- A new group of the channels `hs` that found a preamble (R149): their gain is unfrozen, and detection is yet to be declared on them. -/
def State.formGroup (s : State) (first : Nat) (hs : List (Nat × Second)) : State :=
  match hs with
  | [] => s
  | h :: _ =>
    let x := s.newRx h.1 h.2.wave h.2.sf []
    let mates := if x.combine then s.windowMates x.seg x.wave x.sf first else []
    let ms := sortMembers ((hs.map fun y => { newMember y.1 y.2.metric with declared := false }) ++ mates.flatMap fun y => y.2.members)
    let s := mates.foldl (fun t y => t.dropRx y.1) s
    let (q, s) := s.addRx { x with members := ms, closed := x.combine, formed := some first }
    let s := s.modChans (mates.flatMap fun y => y.2.chans) fun c => { c with rx := some q }
    let s := s.modChans (hs.map (·.1)) fun c => { c with rx := some q, frozen := false, second := none }
    ms.tail.foldl (fun t m => t.bump (K.chs.GROUP_JOIN m.chan)) s

/-- The channels that found a new preamble and are free for it acquire it (R130, R149): as one group, or each alone where the segment does
not combine; a lane receiver holds its reception at once. -/
def State.takeOver (s : State) (first : Nat) (hits : List (Nat × Second)) : State :=
  match hits with
  | [] => s
  | h :: _ =>
    if isLane h.2.wave then
      hits.foldl (fun t y =>
        let (q, t) := t.addRx (t.newRx y.1 y.2.wave y.2.sf [newMember y.1 y.2.metric])
        (t.countDetect y.1).modChan y.1 fun c => { c with laneRx := some q, laneSecond := none }) s
    else if (s.newRx h.1 h.2.wave h.2.sf []).combine then s.formGroup first hits
    else hits.foldl (fun t y => t.formGroup first [y]) s

/-- CAPTURE_DECISION (R146–R149): 0.5 µs after the first secondary detection every reception that holds a channel of the new preamble is
judged by the same metric; the channels of those that go acquire it. -/
def State.captureDecision (s : State) (r : Nat) : State :=
  match s.rx? r with
  | none => s
  | some x =>
    let hits := s.seconds x
    match hits with
    | [] => s
    | h :: _ =>
      let lane := isLane x.wave
      let first := hits.foldl (fun a y => min a y.2.tick) h.2.tick
      let s := s.atDeadline (first + 205)
      let new := (hits.map fun y => y.2.metric).sum
      let s := s.modChans (hits.map (·.1)) (Channel.setFound lane none)
      let held := (r :: hits.filterMap fun y => s.rxOn y.1 lane).eraseDups
      let (gone, s) := held.foldl (fun (b : List Nat × State) q =>
        let v := b.2.judgeCapture q new
        (if v.1 then q :: b.1 else b.1, v.2)) ([], s)
      s.takeOver first (hits.filter fun y => match s.rxOn y.1 lane with
        | some q => gone.contains q
        | none => true)

/-- CAPTURE_DECISION (R148). -/
def execCaptureDecision (rx : Nat) (s : State) : Out := whenRunning s (s.captureDecision rx)

/-! The end of a reception and its acknowledgement (R52, R109, R140, R142, R201). -/

/-- Nothing of an ended reception is left to do. -/
def Reception.done (x : Reception) : Bool := x.finished && (x.stage == .passive || (x.resolved && (!x.wantsAck || x.acked == 0)))

/-- The acknowledgement of a lane reception is due on its channels (R113), or no longer. -/
def State.setDue (s : State) (x : Reception) (due : Bool) : State :=
  if !isLane x.wave then s
  else s.modChans x.chans fun c =>
    { c with ackDue := if due then some x.ackAt else if c.ackDue = some x.ackAt then none else c.ackDue }

/-- Forget a reception once nothing is left to do; no acknowledgement of it is due any more. -/
def State.dropDone (s : State) (r : Nat) : State :=
  match s.rx? r with
  | some x => if x.done then (s.setDue x false).dropRx r else s
  | none => s

/-- A sounding frame has been measured in its tide slot (R176, R177). -/
def State.soundingHeard (s : State) (x : Reception) : State :=
  if x.wave != .ofdm || x.type ≠ 6 || x.stage != .payload then s
  else match s.srcOf x with
    | none => s
    | some (g, i) =>
      let slot := s.slotAtTick g (x.begin_ + ofdmHead)
      let add := fun (y : Sounding) =>
        if bitOf y.mask slot && !y.got.contains slot then { y with got := y.got ++ [slot] } else y
      s.modEp i fun e => { e with sounding := e.sounding.map add }

/-- The trim and phases of a reception as they stand on its channels (R52). -/
def State.finalOf (s : State) (x : Reception) : Int × Tbl Nat :=
  ((s.trimLast x.lead).1, x.members.foldl (fun t m => Tbl.ins t m.chan (s.trimLast m.chan).2) [])

/-- RECEPTION_END (R52): the reception's final trim and phases are kept for its commits, the interpolator takes an open window's preload or
IDLE_TRIM, and the AGC unfreezes. -/
def State.receptionEnd (s : State) (r : Nat) : State :=
  match s.rx? r with
  | none => s
  | some x =>
    if x.finished || !(x.stage == .payload || x.stage == .passive) then s
    else
      let s := (s.atDeadline x.stop).soundingHeard x
      let last := s.finalOf x
      let s := (s.releaseAll r x).modRx r fun x => { x with finished := true, final := some last }
      let s := if x.wantsAck && !(x.resolved && x.acked == 0) then s.setDue x true else s
      s.dropDone r

/-- RECEPTION_END (R52). -/
def execReceptionEnd (rx : Nat) (s : State) : Out := whenRunning s (s.receptionEnd rx)

/-- An acknowledgement leaves on the members of the group it answers (R13, R109, R113, R201, R236), but for those that a listening gap keeps
silent (R166), where its channels are in service and their breakwaters hold enough samples: `ready` names those that do. -/
def State.sendAck (s : State) (x : Reception) (ready : List Nat) : State :=
  let s := s.setDue x false
  let f := s.ackFrame x x.ackAt
  let ns := x.chans.filter fun n => !s.inGap f.seg [n] f.start f.stop
  let short := ns.filter fun n => !ready.contains n
  if ns.isEmpty || !(ns.all s.inService) then s
  else if !short.isEmpty then
    short.foldl (fun t n => t.bump (K.chs.LATE_FRAME_COUNT n)) (s.event 9 0x05)
  else
    let s := if isLane x.wave then s.takeLaneA ns else s
    let s := (s.addFrame { f with chans := ns }).2.eventC 9 0x01 f.pri
    if isLane x.wave then s.abortLaneRx ns else s

/-- The frame is still resolved when its decoding finishes, without an acknowledgement (R142). -/
def Reception.unasked (x : Reception) : Reception := { x with head := x.head - (if x.wave == .ofdm then 2 ^ 78 else 2 ^ 62) }

/-- The wake that a marking uplink calls for starts after that uplink itself where it draws no acknowledgement (R227). -/
def State.wakeUnacked (s : State) (x : Reception) : State :=
  match (if x.marking then s.srcOf x else none) with
  | some (_, i) => s.modLine fun l => { l with wakes := Tbl.upd l.wakes i fun w => (w.1, min w.2 x.stop) }
  | none => s

/-- ACK_SEND and SWELL_ACK_SEND (R109, R142, R201): an unresolved P0 frame draws none and is counted late. -/
def State.ackSend (s : State) (r : Nat) (swell : Bool) (ready : List Nat) : State :=
  match s.rx? r with
  | none => s
  | some x =>
    if !x.finished || !x.wantsAck || (x.wave == .ofdm) == swell then s
    else
      let s := s.atDeadline x.ackAt
      if !x.resolved then
        let s := if x.pri = 0 then s.bump (K.chs.ACK_LATE x.lead) else s
        ((s.setDue x false).wakeUnacked x).modRx r Reception.unasked
      else if x.acked = 0 then (s.setDue x false).dropRx r
      else (s.sendAck x ready).dropRx r

/-- ACK_SEND (R201). -/
def execAckSend (rx : Nat) (ready : List Nat) (s : State) : Out := whenRunning s (s.ackSend rx false ready)

/-- SWELL_ACK_SEND (R109). -/
def execSwellAckSend (rx : Nat) (ready : List Nat) (s : State) : Out := whenRunning s (s.ackSend rx true ready)

/-! The end of a cipher message (R137, R331). -/

/-- CIPHER_MESSAGE_END (R326, R329, R331): the running message of engine `e` ends; one of the MAC engine as its MPDU's tag says. -/
def State.messageEnd (s : State) (e : Nat) : State :=
  match (s.engine e).running.bind fun m => s.messageEndCode m Reception.payload with
  | some c => s.endMsg e c
  | none => s

/-- CIPHER_MESSAGE_END (R331). -/
def execCipherMessageEnd (e : Nat) (s : State) : Out := whenRunning s (s.messageEnd e)

end Sys2Proof.Machine
end

