-- ==== Sys2Proof/Machine/Txn.lean ====
section
/-! DEFINITION. Northbound requests, aborts and reports, and the deadlines of transactions (R273–R298). -/

namespace Sys2Proof.Machine

/-- A northbound message's header fields and body (R271). -/
structure NbMsg where
  version : Nat
  type : Nat
  pri : Nat
  id : Nat
  len : Nat
  body : List Byte
  deriving DecidableEq, Repr

/-- Read a northbound message; none where it is shorter than a header. -/
def nbRead (m : List Byte) : Option NbMsg :=
  if m.length < 12 then none
  else
    let h := ofBe (m.take 12)
    some ⟨field h 88 8, field h 80 8, field h 78 2, field h 32 32, field h 0 16, m.drop 12⟩

/-- The parts of a REQUEST body (R273). -/
structure NbRequest where
  kind : Nat
  op : Nat
  agg : Nat
  timeout : Nat
  targets : List Nat
  payload : List Byte
  deriving DecidableEq, Repr

/-- The `n` four-byte words of a byte string in network order. -/
def beWords : Nat → List Byte → List Nat
  | 0, _ => []
  | n + 1, bs => ofBe (bs.take 4) :: beWords n (bs.drop 4)

/-- The `n` four-byte words of a byte string, little-endian (R7). -/
def leWords : Nat → List Byte → List Nat
  | 0, _ => []
  | n + 1, bs => ofLe (bs.take 4) :: leWords n (bs.drop 4)

/-- A target in its form (R273). -/
def targetGood (kind t : Nat) : Bool :=
  if kind = 2 then t % 2 ^ 16 == 0xFFFF else if kind = 3 then t < 64 else true

/-- Read a REQUEST body; none where R274 refuses it for its form. -/
def requestRead (m : NbMsg) : Option NbRequest :=
  let h := ofBe (m.body.take 12)
  let kind := field h 88 8
  let op := field h 80 8
  let agg := field h 64 16
  let n := field h 16 16
  let len := field h 0 16
  let targets := beWords n (m.body.drop 12)
  if m.version ≠ 1 || m.len ≠ m.body.length || m.body.length < 12 || 2 ^ 31 ≤ m.id || 3 < kind || 1 < op || 10000 < agg ||
      4096 < len || m.body.length ≠ 12 + 4 * n + len || !(if kind = 1 then 1 ≤ n && n ≤ 1024 else n == 1) ||
      !targets.all (targetGood kind) then none
  else some ⟨kind, op, agg, field h 32 32, targets, m.body.drop (12 + 4 * n)⟩

/-- The list of group `g` (R278). -/
def State.groupList (s : State) (g : Nat) : List Nat :=
  let b := s.rdB (K.groups.GROUP g)
  leWords (b.length / 4) b

/-- The targets a request resolves to (R278). -/
def State.resolveTargets (s : State) (r : NbRequest) : List Nat :=
  match r.kind with
  | 0 => r.targets
  | 1 => r.targets.eraseDups
  | 2 =>
    let t := r.targets.headD 0
    let g := t / 2 ^ 16 % 64
    if t / 2 ^ 22 = s.domain.number then
      (s.epsWith fun e => e.seg == g && e.state == epAssociated).map fun i => s.globalAddr g (s.ep i).addr
    else []
  | _ => (s.groupList (r.targets.headD 0)).eraseDups

/-- The verdict as outcome, cause and expected ticks. -/
def Verdict.parts : Verdict → Nat × Nat × Nat
  | .served => (outServed, causeNone, 0)
  | .delayed c t => (outDelayed, c, t)
  | .refused c => (outRefused, c, 0)

/-- A new leg (R284, R285). -/
def State.newLeg (s : State) (target : Nat) (i : Option Nat) (pri len : Nat) (v : Verdict) : Leg :=
  let size := match i with
    | some i => s.fragMax pri i
    | none => s.rd (K.cls.FRAG_MAX pri)
  { target := target
    entry := i
    phase := match v with
      | .served => .active
      | .delayed c _ => .delayed c
      | .refused c => .ended outRefused c
    tag := match i with
      | some i => (s.ep i).lineTag
      | none => 0
    frags := fragCount len size
    fragMax := size
    acked := []
    delivered := false
    attempts := 0
    retries := s.rd (K.cls.LEG_RETRIES pri)
    respDue := none
    response := []
    respLast := none
    waits := false
    movedTo := match v, i with
      | .refused c, some i => if c = causeRoamed then (s.ep i).movedTo else none
      | _, _ => none
    commitMs := 0 }

/-- Judge one target of transaction `k` and add its leg (R279–R281): admitted legs take a LINE_TAG, legs served take their tokens,
legs short of tokens wait. -/
def State.judgeLeg (s : State) (k target : Nat) : Verdict × State :=
  match s.txn? k with
  | none => (.served, s)
  | some t =>
    let i := s.legEntry target
    let draft := s.newLeg target i t.pri t.payload.length .served
    let v := s.legVerdict target t.pri draft.frags t.deadline (servedFor k).isNone
    let l := s.newLeg target i t.pri t.payload.length v
    let j := t.legs.length
    let s := s.countRouteless i
    let s := match v, i with
      | .refused _, _ => s
      | _, some i => s.modEp i fun e => { e with lineTag := (e.lineTag + 1) % 2 ^ 16 }
      | _, _ => s
    let s := match v with
      | .served => if (servedFor k).isNone then s.takeTokens t.pri l.frags else s
      | .delayed c _ =>
        if c = causeQuota then s.modTxn fun e => { e with waiting := e.waiting ++ [(k, j)] } else s
      | _ => s
    (v, s.modTxnRec k fun t => { t with legs := t.legs ++ [{ l with waits := v.parts.2.1 == causeQuota && v.parts.1 == outDelayed }] })

/-- Judge all targets in order. -/
def State.judgeLegs (s : State) (k : Nat) (targets : List Nat) : List Verdict × State :=
  targets.foldl (fun a x =>
    let r := a.2.judgeLeg k x
    (a.1 ++ [r.1], r.2)) ([], s)

/-- OUTCOME, CAUSE and expected ticks of the ANSWER (R283). A request without a leg is refused for want of a usable entry
(assumption log, entry 18). -/
def answerOf (vs : List Verdict) : Nat × Nat × Nat :=
  let ps := vs.map Verdict.parts
  if ps.any fun p => p.1 == outServed then (outServed, causeNone, 0)
  else
    let ds := ps.filter fun p => p.1 == outDelayed
    match ds with
    | d :: rest => rest.foldl (fun a b => if b.2.2 < a.2.2 then b else a) d
    | [] =>
      match ps with
      | [] => (outRefused, causeNoRoute, 0)
      | p :: rest => if rest.all fun q => q.2.1 == p.2.1 then p else (outRefused, causeMixed, 0)

/-- Group records into RESPONSE bodies of at most `limit` bytes with their header (R290). -/
def packBodies (limit : Nat) : List Byte → List (List Byte) → List (List Byte)
  | cur, [] => if cur.isEmpty then [] else [cur]
  | cur, r :: rs =>
    if !cur.isEmpty && limit < 12 + cur.length + r.length then cur :: packBodies limit r rs
    else packBodies limit (cur ++ r) rs

/-- The DELAYED and REFUSED records of the legs at admission (R283). -/
def State.admissionRecords (s : State) (t : Txn) (vs : List Verdict) : List (List Byte) :=
  (t.legs.zip vs).filterMap fun x =>
    match x.2 with
    | .served => none
    | .delayed c d => some (resultRecord x.1.target outDelayed c (s.delaySlots d) [])
    | .refused _ => some x.1.finalRecord

/-- Send the ANSWER of transaction `k` and, for several targets, its admission records at once (R275, R283). -/
def State.sendAnswer (s : State) (k : Nat) (vs : List Verdict) : State :=
  match s.txn? k with
  | none => s
  | some t =>
    let count := fun (o : Nat) => (vs.filter fun v => v.parts.1 == o).length
    let (o, c, d) := answerOf vs
    let recs := if t.many then s.admissionRecords t vs else []
    let gone := t.openLegs.isEmpty
    let s := s.txnSend k msgAnswer (gone && recs.isEmpty)
      (answerBody o c (if o = outDelayed then s.delaySlots d else 0) vs.length (count outServed) (count outDelayed)
        (count outRefused))
    let bodies := packBodies (s.aggLimit k t) [] recs
    bodies.zipIdx.foldl (fun u b => u.txnSend k msgResponse (gone && b.2 + 1 == bodies.length) b.1) s

/-- Count the legs at admission (R303, R466). -/
def State.countAdmission (s : State) (pri : Nat) (vs : List Verdict) : State :=
  vs.foldl (fun t v => (t.countLeg pri v.parts.1 v.parts.2.1).eventC 10 (2 + v.parts.1) pri) s

/-- R282: `need` records can be claimed for a transaction of class `pri`. -/
def State.recordsAllow (s : State) (pri need : Nat) : Bool :=
  need ≤ s.recordsFree &&
    (pri == 0 || s.rd K.txn.P0_RESERVE - s.recordsP0 ≤ s.recordsFree - need)

/-- Start the line work of the legs that were served. -/
def State.startServed (s : State) (k : Nat) : State :=
  match s.txn? k with
  | none => s
  | some t =>
    (List.range t.legs.length).foldl (fun u j =>
      match u.leg? k j with
      | some l => if l.phase = .active then u.sendFragments k j else u
      | none => u) s

/-- Open a transaction and answer it (R278–R283). -/
def State.openTxn (s : State) (session : Nat) (m : NbMsg) (r : NbRequest) (targets : List Nat) : State :=
  let ms := min (if r.timeout = 0 then s.rd (K.cls.DEFAULT_TIMEOUT m.pri) else r.timeout) (s.rd (K.cls.MAX_TIMEOUT m.pri))
  let t : Txn :=
    { pri := m.pri, session := session, op := r.op, many := targets.length != 1, aggTime := r.agg, arrived := s.now,
      deadline := s.now + msTicks ms, payload := r.payload, mark := m.pri * 2 ^ 32 + crcValue crcMpdu m.body, legs := [],
      sent := [], nSent := 0, open_ := [], openSince := none, aborting := false, nAborted := 0, cachedTo := none, endedAt := 0,
      evicted := false }
  let base := s.modTxn fun e => { e with txns := Tbl.ins e.txns m.id t }
  let (vs, judged) := base.judgeLegs m.id targets
  let need := ((judged.txn? m.id).map Txn.records).getD 1
  if !s.recordsAllow m.pri need then
    let full := targets.map fun x => s.newLeg x none m.pri r.payload.length (.refused causeQueueFull)
    let vs := targets.map fun _ => Verdict.refused causeQueueFull
    let s := base.modTxnRec m.id fun t => { t with legs := full }
    ((s.sendAnswer m.id vs).countAdmission m.pri vs).modTxn fun e => { e with txns := Tbl.del e.txns m.id }
  else
    let s := (((judged.eventC 10 0x01 m.pri).countRecords.sendAnswer m.id vs).countAdmission m.pri vs).startServed m.id
    match s.txn? m.id with
    | some t => if t.openLegs.isEmpty then s.finishTxn m.id else s
    | none => s

/-- Forward a northbound message to the devices that hold legs of transaction `k` (R264, R297). -/
def State.relayToMoved (s : State) (k : Nat) (msg : List Byte) : State :=
  match s.txn? k with
  | none => s
  | some t =>
    let ds := (t.openLegs.filterMap (·.movedTo)).eraseDups
    ds.foldl (fun u d => (u.bump K.doms.TXN_RELAYED).drvSend drvTxnRelay (some d) msg) s

/-- Send the kept messages of transaction `k` again (R291). -/
def State.resend (s : State) (k : Nat) : State :=
  match s.txn? k with
  | none => s
  | some t => t.sent.foldl (fun u m => u.txnEmit k t m) s

/-- A REQUEST whose TXN_ID is open or cached (R291, R292): nothing is executed. -/
def State.duplicate (s : State) (session : Nat) (m : NbMsg) (msg : List Byte) (t : Txn) : State :=
  if t.mark ≠ m.pri * 2 ^ 32 + crcValue crcMpdu m.body then
    (s.bump (K.caus.CAUSE m.pri (causeReused - 1))).strayAnswer session m.pri m.id causeReused
  else
    let s := (s.modTxnRec m.id fun t => { t with session := session }).eventC 10 0x08 m.pri
    if t.cachedTo.isNone then ((s.bump K.txns.DUP_OPEN).resend m.id).relayToMoved m.id msg
    else
      let s := s.bump K.txns.CACHE_HITS
      if t.evicted then s.strayAnswer session m.pri m.id causeEvicted else s.resend m.id

/-- A refused request (R274): answered, counted, no transaction opened. -/
def State.badRequest (s : State) (session : Nat) (m : NbMsg) : State :=
  ((s.bump K.txns.BAD_REQUESTS).bump (K.caus.CAUSE m.pri (causeBad - 1))).strayAnswer session m.pri m.id causeBad

/-- A message is taken from those that wait for the engine (R411). -/
def State.takeInbox (s : State) (session : Nat) (msg : List Byte) : State :=
  s.modBh fun b => { b with inbox := b.inbox.erase (session, msg) }

/-- REQUEST (R274, R278–R283, R291, R292). -/
def State.request (s : State) (session : Nat) (msg : List Byte) : State :=
  match nbRead msg with
  | none => s
  | some m =>
    if m.type ≠ msgRequest then s
    else match requestRead m with
      | none => s.badRequest session m
      | some r =>
        match s.txn? m.id with
        | some t => s.duplicate session m msg t
        | none =>
          let targets := s.resolveTargets r
          if (r.kind = 3 && targets.isEmpty) || (m.pri = 0 && s.rd K.txn.P0_MAX_TARGETS < targets.length) then
            s.badRequest session m
          else s.openTxn session m r targets

/-- REQUEST (R279). -/
def execRequest (session : Nat) (message : List Byte) (s : State) : Out :=
  onCore 5 s ((s.takeInbox session message).request session message)

/-! Aborts (R294–R298). -/

/-- The abort takes a leg's record, once no exchange of it is past the point of no return (R294, R295). -/
def State.abortLeg (s : State) (k j : Nat) : State :=
  match s.txn? k, s.leg? k j with
  | some t, some l =>
    if !t.aborting || !l.open' || l.movedTo.isSome || s.legBeyond k j then s
    else
      let s := (s.withdrawLeg k j).modTxnRec k fun t => { t with nAborted := t.nAborted + 1 }
      s.endLeg k j outAborted (if l.delivered then causeNoResponse else causeNotDelivered)
  | _, _ => s

/-- ABORT_TAKE_RECORD (R295). -/
def execAbortTakeRecord (txn leg : Nat) (s : State) : Out := onCore 5 s (s.abortLeg txn leg)

/-- An ABORT of an open transaction (R294): each open leg in turn. -/
def State.abortOpen (s : State) (k : Nat) (msg : List Byte) (t : Txn) : State :=
  let s := (s.modTxnRec k fun t => { t with aborting := true }).relayToMoved k msg
  (List.range t.legs.length).foldl (fun u j => u.abortLeg k j) s

/-- An ABORT_RESULT that belongs to no open transaction (R296, R298). -/
def State.strayAbortResult (s : State) (session pri id index : Nat) (body : List Byte) : State :=
  (s.eventC 10 0x09 pri).nbSend session pri (nbHeader msgAbortResult pri true id index body.length ++ body)

/-- ABORT (R274, R294, R296, R298). -/
def State.abort (s : State) (session : Nat) (msg : List Byte) : State :=
  match nbRead msg with
  | none => s
  | some m =>
    if m.type ≠ msgAbort then s
    else if m.version ≠ 1 || m.len ≠ 0 || !m.body.isEmpty then s.bump K.txns.BAD_REQUESTS
    else
      let s := s.bump K.txns.ABORTS
      match (if m.id < 2 ^ 31 then s.txn? m.id else none) with
      | none => s.strayAbortResult session m.pri m.id 0 (beBytes 1 outNotFound ++ beBytes 11 0)
      | some t =>
        let s := s.modTxnRec m.id fun t => { t with session := session }
        if t.cachedTo.isNone then s.abortOpen m.id msg t
        else
          let s := if t.many then s.resend m.id else s
          s.strayAbortResult session t.pri m.id t.nSent (t.abortBody 0)

/-- ABORT (R294). -/
def execAbort (session : Nat) (message : List Byte) (s : State) : Out :=
  onCore 5 s ((s.takeInbox session message).abort session message)

/-! Deadlines and timers. -/

/-- The tick at which the bucket of class `c` holds `n` tokens. -/
def State.tokensDue (s : State) (c n : Nat) : Nat :=
  s.txn.tokensAt + ceilDiv (n * 409600000 - Tbl.atD s.txn.tokens c 0) (s.rd (K.cls.QUOTA c))

/-- The first bridged downlink that waits in the class goes, no leg waiting there (R252, R281). -/
def State.bridgeRelease (s : State) (c : Nat) : State :=
  match s.bridgedWaiting c with
  | d :: _ =>
    let s := s.atDeadline (s.tokensDue c 1)
    match d.entry.bind fun i => s.entryVerdict i c, d.entry with
    | some (.refused _), _ => s.dropBridge d
    | some (.delayed x _), _ => s.modDown d.id fun y => { y with held := some x }
    | _, some i => s.startBridge d i
    | _, none => s
  | [] => s

/-- LEG_QUOTA_RELEASE (R281): the first leg that waits in the class starts once the bucket holds its tokens. -/
def State.quotaRelease (s : State) (c : Nat) : State :=
  match s.txn.waiting.find? fun w => ((s.txn? w.1).map (·.pri)) == some c with
  | none => s.bridgeRelease c
  | some (k, j) =>
    match s.leg? k j with
    | none => s
    | some l =>
      if s.rd (K.cls.QUOTA c) < l.left then s
      else
        let s := (s.atDeadline (s.tokensDue c l.left)).modTxn fun e => { e with waiting := e.waiting.filter fun w => w ≠ (k, j) }
        let s := s.modLeg k j fun l => { l with waits := false }
        match l.entry.bind fun i => s.entryVerdict i c with
        | some (.delayed x _) => s.modLeg k j fun l => { l with phase := .delayed x }
        | some (.refused x) => s.refuseLeg k j x
        | _ => (s.takeTokens c l.left).sendFragments k j

/-- LEG_QUOTA_RELEASE (R281). -/
def execLegQuotaRelease (cls : Nat) (s : State) : Out :=
  onCore 5 s (if 1 ≤ cls && cls ≤ 3 then s.quotaRelease cls else s)

/-- RESP_WAIT_EXPIRY (R288). -/
def State.respWaitExpiry (s : State) (k j : Nat) : State :=
  match s.leg? k j with
  | some l =>
    (match l.respDue with
     | some t => if l.open' then (s.atDeadline t).endTry k j causeNoResponse else s
     | none => s)
  | none => s

/-- RESP_WAIT_EXPIRY (R288). -/
def execRespWaitExpiry (txn leg : Nat) (s : State) : Out := onCore 5 s (s.respWaitExpiry txn leg)

/-- LEG_DEADLINE (R288): the leg ends TIMED_OUT and its frames are withdrawn. -/
def State.legDeadline (s : State) (k j : Nat) : State :=
  match s.txn? k, s.leg? k j with
  | some t, some l =>
    if !l.open' || l.movedTo.isSome then s
    else
      ((s.atDeadline t.deadline).withdrawLeg k j).endLeg k j outTimedOut
        (if l.delivered then causeNoResponse else causeNotDelivered)
  | _, _ => s

/-- LEG_DEADLINE (R288). -/
def execLegDeadline (txn leg : Nat) (s : State) : Out := onCore 5 s (s.legDeadline txn leg)

/-- AGG_TIME_EXPIRY (R290). -/
def State.aggExpiry (s : State) (k : Nat) : State :=
  match s.txn? k with
  | some t =>
    (match t.openSince with
     | some x => (s.atDeadline (x + msTicks t.aggTime)).flushOpen k false
     | none => s)
  | none => s

/-- AGG_TIME_EXPIRY (R290). -/
def execAggTimeExpiry (txn : Nat) (s : State) : Out := onCore 5 s (s.aggExpiry txn)

/-- CACHE_TIME_EXPIRY (R291): the record and its messages are freed. -/
def State.cacheExpiry (s : State) (k : Nat) : State :=
  match (s.txn? k).bind (·.cachedTo) with
  | some x => (s.atDeadline x).modTxn fun e => { e with txns := Tbl.del e.txns k }
  | none => s

/-- CACHE_TIME_EXPIRY (R291). -/
def execCacheTimeExpiry (txn : Nat) (s : State) : Out := onCore 5 s (s.cacheExpiry txn)

/-! Reports (R277, R412). -/

/-- Send a REPORT message to every enabled session that takes reports. -/
def State.emitReport (s : State) (pri : Nat) (msg : List Byte) : State :=
  let s := s.bump K.txns.REPORTS_SENT
  let ks := (List.range 16).filter fun k => s.flag (K.sess.SESS_ENABLE k) && s.flag (K.sess.REPORTS k)
  if ks.isEmpty then s.bump K.times.REPORTS_UNSENT
  else ks.foldl (fun t k => (t.eventC 10 0x09 pri).nbSend k pri msg) s

/-- A new REPORT under the device's next TXN_ID (R269, R277); a P0 one is sent again later. -/
def State.sendReport (s : State) (pri originKind origin : Nat) (payload : List Byte) : State :=
  let id := s.txn.nextReport
  let body := beBytes 1 originKind ++ beBytes 1 0 ++ beBytes 2 payload.length ++ beBytes 4 origin ++ payload
  let msg := nbHeader msgReport pri true id 0 body.length ++ body
  let s := s.modTxn fun e =>
    { e with
      nextReport := if id + 1 = 2 ^ 32 then 2 ^ 31 else id + 1
      reports := if pri = 0 && 1 < s.rd K.txn.REPORT_REPEAT then Tbl.ins e.reports id ⟨1, s.now, msg⟩ else e.reports }
  s.emitReport pri msg

/-- REPORT_REPEAT (R277): 10 ms after the last sending, until REPORT_REPEAT sendings are made. -/
def State.reportRepeat (s : State) (id : Nat) : State :=
  match Tbl.at? s.txn.reports id with
  | none => s
  | some r =>
    let s := s.atDeadline (r.last + msTicks 10)
    let s := s.modTxn fun e =>
      { e with reports :=
          if s.rd K.txn.REPORT_REPEAT ≤ r.made + 1 then Tbl.del e.reports id
          else Tbl.ins e.reports id { r with made := r.made + 1, last := s.now } }
    s.emitReport 0 r.msg

/-- REPORT_REPEAT (R277). -/
def execReportRepeat (txn : Nat) (s : State) : Out := onCore 5 s (s.reportRepeat txn)

/-- ALARM_REPORT (R398): the alarm's word leaves Q254 and a P0 REPORT goes out. -/
def State.alarmReport (s : State) : State :=
  match s.mains.alarms with
  | [] => s
  | a :: rest =>
    let s := (s.queueTake 254 16).modMains fun m => { m with alarms := rest }
    s.sendReport 0 1 a.unit a.payload

/-- ALARM_REPORT (R398). -/
def execAlarmReport (s : State) : Out := onCore 5 s s.alarmReport

/-! Moved legs come back (R264, R297). -/

/-- A result record as another device returns it: target, outcome, cause, INFO, payload, and the records after it. -/
def recordRead (b : List Byte) : Option ((Nat × Nat × Nat × Nat × List Byte) × List Byte) :=
  if b.length < 12 then none
  else
    let h := ofBe (b.take 12)
    let len := field h 32 16
    some ((field h 64 32, field h 56 8, field h 48 8, field h 0 32, (b.drop 12).take len), b.drop (12 + len))

/-- A final record of a moved leg ends the leg here (R297). -/
def State.movedRecord (s : State) (k dev : Nat) (r : Nat × Nat × Nat × Nat × List Byte) : State :=
  match s.txn? k with
  | none => s
  | some t =>
    match t.legs.zipIdx.find? fun l => l.1.target == r.1 && l.1.movedTo == some dev && l.1.open' with
    | none => s
    | some (_, j) =>
      if r.2.1 < outRefused then s
      else
        let s := s.modLeg k j fun l => { l with response := [(0, r.2.2.2.2)], commitMs := r.2.2.2.1 }
        let s := if t.aborting && r.2.1 = outAborted then s.modTxnRec k fun t => { t with nAborted := t.nAborted + 1 } else s
        s.endLeg k j r.2.1 r.2.2.1

/-- The records of a RESPONSE that came back in TXN_RELAY. -/
def State.movedRecords (s : State) (k dev : Nat) : Nat → List Byte → State
  | 0, _ => s
  | n + 1, b =>
    match recordRead b with
    | none => s
    | some (r, rest) => (s.movedRecord k dev r).movedRecords k dev n rest

/-- A northbound message that arrives in TXN_RELAY from device `dev` (R264, R297): a RESPONSE brings back records of moved legs; an
ABORT or a repeated REQUEST concerns the legs served for that device. -/
def State.relayed (s : State) (dev : Nat) (msg : List Byte) : State :=
  match nbRead msg with
  | none => s
  | some m =>
    let k := (dev + 1) * 2 ^ 32 + m.id
    if m.type = msgResponse then s.movedRecords m.id dev m.body.length m.body
    else match s.txn? k with
      | none => s
      | some t =>
        if m.type = msgAbort then s.abortOpen k msg t
        else if m.type = msgRequest then s.resend k
        else s

end Sys2Proof.Machine
end

