-- ==== Sys2Proof/Machine/Commit.lean ====
section
/-! DEFINITION. The commit of received MPDUs, what a commit does to the link, and where its message goes (R137–R140, R205–R209,
R225–R227, R236, R239, R242–R252, R277, R284–R289, R313–R315). -/

namespace Sys2Proof.Machine

/-! What the first commit of a reception does to its link (R52, R139, R182, R225–R227, R236, R239). -/

/-- The uplink allocations of an address in the running period, in slot order. -/
def State.upAllocs (s : State) (g addr : Nat) : List Alloc :=
  ((s.seg g).allocs.filter fun a => a.addr == addr && !a.down).insertionSort fun a b => a.first ≤ b.first

/-- The allocation of a list whose span (R225) contains period slot `n`, with the first slot of the span. -/
def spanOf (n : Nat) : Nat → List Alloc → Option (Nat × Alloc)
  | _, [] => none
  | lo, a :: as => if lo ≤ n && n < a.first + a.count then some (lo, a) else spanOf n (a.first + a.count) as

/-- The uplink allocation whose first PPDU a frame of entry `i` at tick `at_` is (R225): its start, the period's beacon, and the first tick
of its span, of which no frame has been heard yet. -/
def State.firstOfAlloc (s : State) (i at_ : Nat) : Option (Nat × Nat × Nat) :=
  let e := s.ep i
  let g := e.seg
  let r := (s.seg g).region
  match (s.seg g).period, s.periodSlot g at_ with
  | some p, some n =>
    if r.getD 3 0 ≤ n && n < r.getD 3 0 + r.getD 4 0 then none
    else match spanOf n (r.getD 2 1) (s.upAllocs g e.addr) with
      | some (lo, a) =>
        let span := s.slotStart g p lo
        if e.allocHeard = some span then none else some (s.slotStart g p a.first, p, span)
      | none => none
  | _, _ => none

/-- The trim and, by channel, phases of a reception (R52): as it left them when it ended, or as they stand. -/
def State.rxFinal (s : State) (x : Reception) : Int × Tbl Nat := x.final.getD (s.finalOf x)

/-- What the drift model is told of a reception from entry `i` (R225, R226), with the allocation of which it is the first PPDU. -/
def State.heardOf (s : State) (i : Nat) (x : Reception) (alloc : Option (Nat × Nat × Nat)) : Heard1 :=
  let lane := isLane x.wave
  { stamp := x.begin_
    offset := divTiesZero (if lane then x.offset else (s.rxFinal x).1) 2
    alloc := alloc.map fun a => (a.1, a.2.1)
    exempt := lane || (match (s.ep i).listen with
      | some (a, b) => a ≤ x.begin_ && x.begin_ ≤ b
      | none => false) }

/-- The bit of the member position of channel `n`. -/
def State.positionBit (s : State) (g n : Nat) : Nat := 2 ^ s.position g n

/-- The trim and phases that a committed OFDM, S1 or S2 reception leaves in the entry of its link (R52). -/
def State.storeTrim (s : State) (i : Nat) (x : Reception) : State :=
  if isLane x.wave then s
  else
    let (t, ps) := s.rxFinal x
    let place := fun (m : RxMember) => s.position (s.ep i).seg m.chan
    s.modEp i fun e => { e with trim := t, phases := x.members.foldl (fun a m => a.set (place m) (Tbl.atD ps m.chan 0)) e.phases }

/-- SUBSET and SNR that a direct OFDM, S1 or S2 reception leaves in the entry (R236, R239). -/
def State.storeLink (s : State) (i : Nat) (x : Reception) : State :=
  if isLane x.wave then s
  else
    let g := (s.ep i).seg
    let best := x.members.foldl (fun a m => max a m.snr) 0
    let spread := s.rd (K.seg.SUBSET_SPREAD g)
    let near := x.members.filter fun m => best ^ 10 ≤ 10 ^ spread * m.snr ^ 10
    let subset := (near.map fun m => s.positionBit g m.chan).sum
    s.modEp i fun e => { e with subset := subset % 256, snrs := (x.metric :: e.snrs).take 8 }

/-- A downlink to entry `i` is held: a leg that its endpoint delays, or an MPDU that waits. -/
def State.holdsDown (s : State) (i : Nat) : Bool :=
  (s.legsOf i).any (fun l => (s.leg? l.1 l.2).any fun x => x.phase == .delayed causeAdrift) ||
    s.mac.queue.any fun d => d.entry == some i && d.frame.isNone

/-- A newly marked endpoint's downlinks are held as `ADRIFT`, and it is woken without a schedule if there is one and a wake is possible (R227):
after the acknowledgement of the marking reception, or after that itself where it draws none. -/
def State.adriftWake (s : State) (i : Nat) (x : Reception) : State :=
  let s := s.holdLegs i
  let after := if x.wantsAck then (s.ackFrame x x.ackAt).stop else x.stop
  if s.holdsDown i && s.wakePossible i then s.modLine fun l => { l with wakes := Tbl.ins l.wakes i (0, after) } else s

/-- The TMI and GI of the frame name a map of the pending uplink set that the current set does not name (R179). -/
def State.usesPending (s : State) (i : Nat) (f : FrameControl) : Bool :=
  let names := fun (h : Nat) => (s.handleDesc h).any fun d => d.tmi == f.tmi && (f.tmi != 1 || d.gi == f.gi)
  f.tmi ≠ 0 && f.tide < 3 && names ((s.ep i).mapPend.getD f.tide 0) && !names ((s.ep i).mapUp.getD f.tide 0)

/-- The frame uses the link's map of a class (R182). -/
def onClassMap (f : FrameControl) : Bool := f.tmi != 0 && f.tide < 3

/-- The link's maps at the first commit of an OFDM reception (R179, R182); `fresh` is whether it is the link's first. -/
def State.mapsHeard (s : State) (i : Nat) (x : Reception) (fresh : Bool) : State :=
  let f := x.fc
  let ofdm := x.wave == .ofdm
  let s := if ofdm && s.usesPending i f then s.installUp i else s
  let s := if ofdm && onClassMap f then s.ceWatch i f.tide x.metric else s
  let e := s.ep i
  if fresh && !e.pendSet && e.mapUp.all (· == 0) then s.startSounding i else s

/-- A new address is heard (R213, R321). -/
def State.heardFrom (s : State) (i : Nat) : State :=
  if (s.ep i).state = epAssociating then (s.associate i).oweKey i else s

/-- The drift record at the first commit of a reception (R225–R227). -/
def State.driftHeard (s : State) (r i : Nat) (x : Reception) : State :=
  let alloc := if isLane x.wave then none else s.firstOfAlloc i x.begin_
  let (s, marked) := s.driftUpdate i (s.heardOf i x alloc)
  let s := match alloc with
    | some a => s.modEp i fun e => { e with allocHeard := some a.2.2 }
    | none => s
  if marked then (s.modRx r fun x => { x with marking := true }).adriftWake i x else s

/-- The first commit of a reception from entry `i` (R139, R182, R221, R225–R227). -/
def State.firstCommit (s : State) (r i : Nat) (x : Reception) : State :=
  let fresh := (s.ep i).driftEmpty
  let was := (s.ep i).adrift
  let s := ((s.modRx r fun x => { x with firstDone := true }).storeLink i x).driftHeard r i x
  let s := (s.heardFrom i).mapsHeard i x fresh
  let s := if (s.sleepNow (s.ep i)).period ≠ 0 then s.openService i else s
  if was && !(s.ep i).adrift then s.resumeLegs i else s

/-! Where a committed message goes. -/

/-- A committed message waits for its receiver (R139). -/
def State.handOn (s : State) (i : Nat) (body : List Byte) : State :=
  s.modMac fun m => { m with committed := m.committed ++ [(i, body)] }

/-- A committed MAC command (R209): one that an endpoint may not send, or with a reserved code, is discarded and counted; the others
wait for their own step, which judges their length. -/
def State.macCommand (s : State) (i : Nat) (body : List Byte) : State :=
  let code := ofLe (body.take 1)
  let bad := body.isEmpty || !([1, 2, 3, 5, 6, 9, 10, 11].contains code) || (code == 6 && body.length != 1)
  if bad then s.badCommand i else s.handOn i (body.drop 1)

/-- The open leg of entry `i` with a LINE_TAG and an operation (R284, R289). -/
def State.legTagged (s : State) (i tag op : Nat) : Option (Nat × Nat) :=
  s.txn.txns.findSome? fun t =>
    if t.2.op ≠ op then none
    else (t.2.legs.zipIdx.find? fun l => l.1.open' && l.1.entry == some i && l.1.tag == tag && l.1.movedTo.isNone).map fun l => (t.1, l.2)

/-- The fragments 0 to `last` are all there. -/
def wholeTo (frags : Tbl (List Byte)) : Option Nat → Bool
  | none => false
  | some m => (List.range (m + 1)).all fun q => (Tbl.at? frags q).isSome

/-- A response fragment (R284, R287): the one that completes the response commits the leg. -/
def State.responseFragment (s : State) (k j frag : Nat) (last : Bool) (payload : List Byte) : State :=
  let s := s.modLeg k j fun l =>
    { l with response := Tbl.ins l.response frag payload, respLast := if last then some frag else l.respLast }
  match s.leg? k j with
  | some l => if wholeTo l.response l.respLast then s.commitLeg k j else s
  | none => s

/-- A report fragment (R277, R284): complete reports go northbound at the frame's class. -/
def State.reportFragment (s : State) (i pri tag frag : Nat) (last : Bool) (payload : List Byte) : State :=
  let (t, l) := Tbl.atD (s.ep i).reports tag ([], none)
  let t := Tbl.ins t frag payload
  let l := if last then some frag else l
  if wholeTo t l then
    let e := s.ep i
    (s.modEp i fun e => { e with reports := Tbl.del e.reports tag }).sendReport pri 0 (s.globalAddr e.seg e.addr) (t.flatMap (·.2))
  else s.modEp i fun e => { e with reports := Tbl.ins e.reports tag (t, l) }

/-- A committed line fragment from entry `i` (R277, R284, R287, R289). One of fewer than 5 bytes or with a reserved OP is discarded without a
counter (DESIGN CHOICE, assumption log, entry 57: the spec names none). -/
def State.lineFragment (s : State) (i pri : Nat) (b : List Byte) : State :=
  if b.length < 5 then s
  else
    let v := ofLe (b.take 5)
    let op := field v 0 4
    let tag := field v 8 16
    let frag := field v 24 8
    let last := bitOf v 32
    let payload := b.drop 5
    let s := (s.bump K.txns.FRAG_RX).eventC 10 0x06 pri
    match op with
    | 2 => match s.legTagged i tag 0 with
      | some (k, j) => s.responseFragment k j frag last payload
      | none => s.bump K.txns.LATE_RESPONSE
    | 3 => s.reportFragment i pri tag frag last payload
    | 4 => match s.legTagged i tag 1 with
      | some (k, j) => s.commitLeg k j
      | none => s.bump K.txns.LATE_RESPONSE
    | _ => s

/-- A bridged MPDU becomes a new downlink of its segment `b` (R251, R252): on the lane where a P0 downlink takes it, once it has been judged. -/
def State.bridgeTo (s : State) (b addr pri : Nat) (body : List Byte) : State :=
  match s.epAt b addr with
  | none => s.bump (K.segs.BRIDGE_DROP b)
  | some j =>
    let lane := pri == 0 && s.hasLane j && mpduLen body.length (s.tagLen b) ≤ 255
    let id := s.mac.nextId
    let d : Down :=
      { id := id, seg := b, entry := some j, type := 1, pri := pri, kind := .bridged, body := body, seq := none, tries := 0, frame := none
        lane := lane, route := if lane then [] else (s.ep j).hops, inner := [], held := none }
    (s.enqueue d).judgeBridge d

/-- A bridging MPDU from entry `i` (R251). -/
def State.bridge (s : State) (i pri : Nat) (body : List Byte) : State :=
  let a := (s.ep i).seg
  let dst := ofLe ((body.drop 1).take 4)
  let b := dst / 2 ^ 16 % 64
  let addr := dst % 2 ^ 16
  let mask := s.rd (K.seg.BRIDGE_LO a) + s.rd (K.seg.BRIDGE_HI a) * 2 ^ 32
  if body.length < 9 || dst / 2 ^ 22 ≠ s.domain.number || addr = 0xFFFF || addr = 0xFFFE || !bitOf mask b || !s.segEnabled b then
    s.bump (K.segs.BRIDGE_DROP a)
  else
    (s.bump (K.segs.BRIDGED a)).bridgeTo b addr pri
      (body.take 5 ++ leBytes 4 (s.globalAddr a (s.ep i).addr) ++ body.drop 9)

/-- A committed data body with HOPS 0 (R242). One with a reserved KIND, or a next-key delivery, which no endpoint sends, is discarded without a
counter (DESIGN CHOICE, assumption log, entry 57). Line fragments are the work of C5, bridging that of C6 (R25). -/
def State.dataPlain (s : State) (i pri : Nat) (body : List Byte) : State :=
  match field (ofLe (body.take 1)) 4 4 with
  | 0 => if s.coreUp 5 then s.lineFragment i pri (body.drop 1) else s
  | 1 => if s.coreUp 6 then s.bridge i pri body else s
  | _ => s

/-! The checks of an MPDU (R137, R138, R207, R313–R315). -/

/-- What the checks of an MPDU make of it (R137, R138): a committed one has its body and, where it was protected, its slot and the key under
which it was opened. -/
inductive MpduJudged where
  | rinsed (counter : Reg)
  | duplicate
  | committed (under : Option (Nat × List Byte)) (body : List Byte)
  deriving DecidableEq, Repr

/-- How far the decryption of a protected MPDU has come (R137). -/
inductive Opened where
  | waits
  | failed (counter : Reg)
  | plain (slot : Nat) (key body : List Byte)
  deriving DecidableEq, Repr

/-- The staged checks of an MPDU from station `i` at its commit point, in order (R138): its SEQ, then the replay rule where it was protected. -/
def State.judgeWindow (s : State) (n i : Nat) (h : MpduHead) (under : Option (Nat × List Byte)) (body : List Byte) : MpduJudged :=
  if (windowJudge (s.ep i).windowEmpty (s.ep i).rxTop (s.ep i).rxWindow h.seq).isNone then .duplicate
  else if under.isSome && (s.ep i).replays h.fc then .rinsed (K.chs.MPDU_REPLAY n)
  else .committed under body

/-- Judge an MPDU of known station `i` in a frame of type `type` whose lead channel is `n` (R137, R138, R207); none while it is still being
decrypted. -/
def State.judgeMpdu (s : State) (n i type : Nat) (raw : List Byte) (opened : Opened) : Option MpduJudged :=
  let h := MpduHead.read raw
  if !mpduCrcOk raw then some (.rinsed (K.chs.MPDU_CRC_FAIL n))
  else if h.cls = 0 then
    some (if type = 0 || type = 4 || type = 5 then s.judgeWindow n i h none (mpduBody raw) else .rinsed (K.chs.MPDU_NO_KEY n))
  else match opened with
    | .waits => none
    | .failed c => some (.rinsed c)
    | .plain k key body => some (s.judgeWindow n i h (some (k, key)) body)

/-- How far the decryption of MPDU `j` of a reception from station `i` has come (R137, R144). -/
def State.openedOf (s : State) (x : Reception) (i j : Nat) (raw : List Byte) : Opened :=
  match Tbl.at? x.openings j with
  | none => .waits
  | some .waits => .waits
  | some .noKey => .failed (K.chs.MPDU_NO_KEY x.lead)
  | some .tagFail => .failed (K.chs.MPDU_TAG_FAIL x.lead)
  | some .keyErased => .failed (K.chs.MPDU_KEY_ERASED x.lead)
  | some (.good k key) => .plain k key (ccmOpenMpdu key (s.ep i).eui x.pri raw).1

/-- The windows of station `i` take an MPDU (R139, R205, R315), and its slot a use, where it still holds the key that opened it (R309). -/
def State.acceptMpdu (s : State) (i : Nat) (raw : List Byte) (under : Option (Nat × List Byte)) : State :=
  let h := MpduHead.read raw
  let s := s.modEp i fun e => e.accept h.seq (if h.cls = 0 then none else some h.fc)
  match under with
  | some (k, key) => if (s.slot k).key = key then s.slotUse k else s
  | none => s

/-! Relay envelopes (R243–R245, R249). -/

/-- The inner MPDU of an envelope has been rinsed. -/
def State.innerFail (s : State) (g : Nat) : State := s.bump (K.segs.RELAY_INNER_FAIL g)

/-- The decryption of an inner MPDU from station `o` (R78, R243): by the originator's EUI-64 and the PRI of the envelope's frame. It is opened at
once (DESIGN CHOICE, assumption log, entry 59: R137 takes an engine for an MPDU of a reception). -/
def State.openInner (s : State) (g n o pri : Nat) (raw : List Byte) : Opened :=
  match s.openSlot g o (MpduHead.read raw).cls with
  | none => .failed (K.chs.MPDU_NO_KEY n)
  | some k =>
    let key := (s.slot k).key
    let p := ccmOpenMpdu key (s.ep o).eui pri raw
    if p.2 then .plain k key p.1 else .failed (K.chs.MPDU_TAG_FAIL n)

/-- An association request waits for its answer (R139, R210, R249). -/
def State.pushRequest (s : State) (q : Request) : State := s.modMac fun m => { m with requests := m.requests ++ [q] }

/-- A relayed association request (R249): unprotected, forwarded by the station of ORIGIN. Where no such station is known there is nobody to
answer through, and it counts as rinsed (DESIGN CHOICE, assumption log, entry 57). -/
def State.innerRequest (s : State) (g origin : Nat) (raw : List Byte) : State :=
  match s.knownSrc g origin with
  | some v =>
    if mpduCrcOk raw && (MpduHead.read raw).cls = 0 then
      (s.bump (K.segs.RELAYED_UP g)).pushRequest ⟨g, some v, mpduBody raw, 0, .ofdm, 0⟩
    else s.innerFail g
  | none => s.innerFail g

/-- An inner MPDU commits as the device's own (R138, R139, R244, R245); `n` is the lead channel of the envelope's reception. -/
def State.innerCommit (s : State) (g n pri kind origin : Nat) (raw : List Byte) : State :=
  if kind = 4 then s.innerRequest g origin raw
  else match s.knownSrc g origin with
    | none => s.bump (K.segs.UNKNOWN_SRC g)
    | some o =>
      match s.judgeMpdu n o kind raw (s.openInner g n o pri raw) with
      | none => s
      | some (.rinsed _) => s.innerFail g
      | some .duplicate => s.bump (K.chs.MPDU_DUPLICATE n)
      | some (.committed under body) =>
        let s := ((s.acceptMpdu o raw under).bump (K.segs.RELAYED_UP g)).heardFrom o
        let s := if (s.sleepNow (s.ep o)).period ≠ 0 then s.openService o else s
        if kind = 8 then s.macCommand o body
        else if kind = 1 && field (ofLe (body.take 1)) 0 4 = 0 then s.dataPlain o pri body
        else s

/-- An envelope goes on to the next of its receivers with NEXT incremented and the inner MPDU unchanged (R244); where that station has no entry it
is discarded (DESIGN CHOICE, assumption log, entry 57). -/
def State.forward (s : State) (g pri : Nat) (body : List Byte) : State :=
  let v := ofLe ((body.drop 1).take 3)
  let next := field v 0 3 + 1
  match s.epAt g (ofLe ((body.drop (4 + 2 * next)).take 2)) with
  | some i => s.enqueue
      { id := 0, seg := g, entry := some i, type := 1, pri := pri, kind := .forwarded
        body := body.take 1 ++ leBytes 3 (v - v % 8 + next) ++ body.drop 4
        seq := none, tries := 0, frame := none, lane := false, route := [], inner := [], held := none }
  | none => s.innerFail g

/-- An envelope on its commit at the device (R243, R244); one that is cut short, or with HOPS above 8, names no receiver. -/
def State.envelope (s : State) (g n pri : Nat) (body : List Byte) : State :=
  let hops := field (ofLe (body.take 1)) 0 4
  let kind := field (ofLe (body.take 1)) 4 4
  let v := ofLe ((body.drop 1).take 3)
  let next := field v 0 3
  let receiver := ofLe ((body.drop (4 + 2 * next)).take 2)
  let head := 4 + 2 * hops
  if 8 < hops || body.length < head || hops ≤ next || receiver ≠ 0 then s.innerFail g
  else if next + 1 < hops then s.forward g pri body
  else s.innerCommit g n pri kind (field v 8 16) (body.drop head)

/-- A committed MPDU is delivered by its frame's type (R139); the types that no endpoint sends to the device carry nothing for it. -/
def State.deliverMpdu (s : State) (g : Nat) (i : Option Nat) (x : Reception) (body : List Byte) : State :=
  match x.type, i with
  | 1, some i =>
    if field (ofLe (body.take 1)) 0 4 = 0 then s.dataPlain i x.pri body else s.envelope g x.lead x.pri body
  | 4, _ => s.pushRequest ⟨g, none, body, x.metric, x.wave, x.sf⟩
  | 7, some i => s.handOn i body
  | 8, some i => s.macCommand i body
  | _, _ => s

/-! MPDU_RESOLVE. -/

/-- An MPDU rinse (R143, R144). -/
def State.mpduRinse (s : State) (x : Reception) (counter : Reg) : State := (s.bump counter).eventC 8 0x05 x.pri

/-- An MPDU that commits, fully or as a duplicate, has its bit in the acknowledgement (R139, R201). -/
def State.ackBit (s : State) (r j : Nat) (raw : List Byte) : State :=
  s.modRx r fun x => { x with acked := x.acked + 2 ^ j, seq8 := (MpduHead.read raw).seq % 256 }

/-- LANE_RX_FRAMES and SWELL_RX_FRAMES (R120). -/
def State.swellCount (s : State) (x : Reception) : State :=
  if x.wave == .ofdm then s
  else if isLane x.wave then (s.bump (K.chs.LANE_RX_FRAMES x.lead)).event 8 0x0D
  else s.bump (K.chs.SWELL_RX_FRAMES x.lead)

/-- A reception on a class map has ended with its last MPDU: CRC-32 failed or not (R182). -/
def State.crcEnd (s : State) (i : Nat) (x : Reception) (j : Nat) (failed : Bool) : State :=
  if x.wave == .ofdm && onClassMap x.fc && j + 1 = x.mpdus then s.crcWatch i x.fc.tide failed else s

/-- An association request from an unassociated station (R207, R208): it needs no known source. -/
def State.resolveRequest (s : State) (r g j : Nat) (x : Reception) (raw : List Byte) : State :=
  let n := x.lead
  if !mpduCrcOk raw then s.mpduRinse x (K.chs.MPDU_CRC_FAIL n)
  else if (MpduHead.read raw).cls ≠ 0 then s.mpduRinse x (K.chs.MPDU_NO_KEY n)
  else ((((s.bump (K.chs.MPDU_COMMIT n)).eventC 8 0x03 x.pri).swellCount x).ackBit r j raw).deliverMpdu g none x (mpduBody raw)

/-- MPDU `j` of a reception from station `i` has been judged (R138, R139). -/
def State.resolveKnown (s : State) (r g j i : Nat) (x : Reception) (raw : List Byte) : MpduJudged → State
  | .rinsed c => (s.mpduRinse x c).crcEnd i x j (c == K.chs.MPDU_CRC_FAIL x.lead)
  | .duplicate => (((s.bump (K.chs.MPDU_DUPLICATE x.lead)).ackBit r j raw).swellCount x).crcEnd i x j false
  | .committed under body =>
    let s := ((s.bump (K.chs.MPDU_COMMIT x.lead)).eventC 8 0x03 x.pri).swellCount x
    let s := ((s.acceptMpdu i raw under).ackBit r j raw).storeTrim i x
    let s := if x.firstDone then s else s.firstCommit r i x
    (s.crcEnd i x j false).deliverMpdu g (some i) x body

/-- What resolves MPDU `j` with bytes `raw` (R138, R139, R144, R208); none while it is still being decrypted. -/
def State.resolveMpdu (s : State) (r g j : Nat) (x : Reception) (raw : List Byte) (noBuffer : Bool) : Option State :=
  match s.knownSrc g x.src with
  | none =>
    if x.type ≠ 4 || x.src ≠ 0xFFFE then some (s.mpduRinse x (K.segs.UNKNOWN_SRC g))
    else if noBuffer then some (s.mpduRinse x (K.chs.MPDU_NO_BUFFER x.lead))
    else some (s.resolveRequest r g j x raw)
  | some i =>
    if noBuffer then some (s.mpduRinse x (K.chs.MPDU_NO_BUFFER x.lead))
    else (s.judgeMpdu x.lead i x.type raw (s.openedOf x i j raw)).map (s.resolveKnown r g j i x raw)

/-- The MPDU of a swell frame has been received, LEN bytes long (R104). -/
def State.takeRaw (s : State) (r : Nat) (x : Reception) (raw : List Byte) : State :=
  if x.wave == .ofdm || x.raw.isSome || raw.length ≠ field x.head 52 8 then s
  else s.modRx r fun x => { x with raw := some raw, claims := [0] }

/-- An engine is asked for an MPDU that has none yet (R137). -/
def State.openLate (s : State) (r j : Nat) (x : Reception) (raw : List Byte) : State :=
  if mpduCrcOk raw then s.openMpdu r j x (MpduHead.read raw) raw.length else s

/-- MPDU `j` is resolved: its engine work, its buffer claim and, with the last, the reception go. -/
def State.mpduDone (s : State) (r j : Nat) : State :=
  ((s.withdrawWork fun q => q.mpdu == some (r, j)).modRx r fun x => { x with next := j + 1, claims := x.claims.filter (· ≠ j) }).dropDone r

/-- MPDU_RESOLVE (R138, R140): MPDUs are resolved in index order. -/
def State.mpduResolve (s : State) (r j : Nat) (work : MpduWork) : State :=
  match s.rx? r with
  | none => s
  | some x =>
    if x.stage != .payload || x.next ≠ j || x.mpdus ≤ j then s
    else
      let s := s.takeRaw r x work.raw
      match s.rx? r with
      | none => s
      | some x => match x.seg, x.mpduBytes x.payload j with
        | some g, some raw =>
          let s := s.openLate r j x raw
          match (s.rx? r).bind fun x => s.resolveMpdu r g j x raw work.noBuffer with
          | some t => t.mpduDone r j
          | none => s
        | _, _ => s

/-- MPDU_RESOLVE (R138). -/
def execMpduResolve (rx index : Nat) (work : MpduWork) (s : State) : Out := whenRunning s (s.mpduResolve rx index work)

end Sys2Proof.Machine
end

