-- ==== Sys2Proof/Machine/Domain.lean ====
section
/-! DEFINITION. The grid domain: Draivitar messages, interference records, coupling, claims of peers, roaming and moved legs, and
the association request with its roaming (R211, R253–R264, R301). -/

namespace Sys2Proof.Machine

/-! Receiving (R254, R255). -/

/-- The fields of a Draivitar header (R254). -/
structure DrvHead where
  version : Nat
  type : Nat
  src : Nat
  domain : Nat
  seq : Nat
  sent : Nat
  len : Nat
  deriving DecidableEq, Repr

/-- Read a header of 24 bytes (R254). -/
def drvRead (h : List Byte) : Option DrvHead :=
  let v := ofBe h
  if h.length = 24 then
    some ⟨field v 184 8, field v 176 8, field v 160 16, field v 128 32, field v 96 32, field v 32 64, field v 16 16⟩
  else none

/-- The message is stale (R255). -/
def State.drvStale (s : State) (h : DrvHead) : Bool :=
  let t := dtOfPair h.sent
  let far := t + 5 * dtSecond < s.dt || s.dt + 5 * dtSecond < t
  far || (match (s.peer h.src).last with
    | some (q, sent) => h.seq ≤ q && t ≤ dtOfPair sent + 10 * dtSecond
    | none => false)

/-- A HELLO that carries the device's own number with another EUI-64 sets DEVICE_CLASH (R253). -/
def State.drvClash (s : State) (h : DrvHead) (body : List Byte) : State :=
  if h.type = drvHello && body.length = 17 && ofBe ((body.drop 8).take 8) ≠ s.flash.eui64 then
    s.setFlag K.doms.DEVICE_CLASH true
  else s

/-- Receive a Draivitar message of a type (R253–R255): the sender's number where it is accepted. A CMAC that is checked counts a use
of DOMAIN_KEY_SLOT (R308). -/
def State.drvAccept (s : State) (type : Nat) (header body cmac : List Byte) : Option Nat × State :=
  match drvRead header with
  | none => (none, s)
  | some h =>
    let slot := s.rd K.dom.DOMAIN_KEY_SLOT
    let ok := cmacOf (s.slot slot).key (header ++ body) == cmac
    if !s.flag K.dom.DOMAIN_ENABLE || h.type ≠ type || h.len ≠ body.length || h.version ≠ 1 || h.domain ≠ s.domain.id then (none, s)
    else if h.src = s.domain.number then (none, if s.slotUsable slot && ok then (s.slotUse slot).drvClash h body else s)
    else if !s.slotUsable slot then (none, s.bump K.doms.DRV_AUTH_FAIL)
    else
      let s := s.slotUse slot
      if !ok then (none, s.bump K.doms.DRV_AUTH_FAIL)
      else if s.drvStale h then (none, s.bump K.doms.DRV_STALE)
      else (some h.src, s.modPeer h.src fun p => { p with last := some (h.seq, h.sent) })

/-! HELLO and COUPLING (R256–R258). -/

/-- Keep PEERS_PRESENT. -/
def State.countPeers (s : State) : State :=
  s.wr K.doms.PEERS_PRESENT (Tbl.count s.domain.peers fun _ p => p.hello.isSome)

/-- HELLO_SEND (R256): every second. -/
def State.helloSend (s : State) : State :=
  if !s.flag K.dom.DOMAIN_ENABLE then s
  else
    let s := match s.domain.helloAt with
      | some t => s.atDeadline (t + secTicks 1)
      | none => s
    let segs := (((List.range 64).filter s.segEnabled).map fun g => 2 ^ g).sum
    (s.modDomain fun d => { d with helloAt := some s.now }).drvSend drvHello none
      (beBytes 8 segs ++ beBytes 8 s.flash.eui64 ++ beBytes 1 (boolNat s.claimTime))

/-- HELLO_SEND (R256). -/
def execHelloSend (s : State) : Out := onCore 6 s s.helloSend

/-- HELLO (R253, R256). -/
def State.helloRx (s : State) (addr header body cmac : List Byte) : State :=
  match s.drvAccept drvHello header body cmac with
  | (some d, s) =>
    if body.length ≠ 17 then s
    else
      (s.modPeer d fun p =>
        { p with hello := some s.now, addr := addr, segments := ofBe (body.take 8), eui := ofBe ((body.drop 8).take 8) }).countPeers
  | (none, s) => s

/-- HELLO (R253). -/
def execHello (addr header body cmac : List Byte) (s : State) : Out := onCore 6 s (s.helloRx addr header body cmac)

/-- PEER_ABSENT (R256): 5 s without an accepted HELLO. -/
def State.peerAbsent (s : State) (d : Nat) : State :=
  match (s.peer d).hello with
  | none => s
  | some t =>
    ((s.atDeadline (t + secTicks 5)).modPeer d fun p => { p with hello := none, couplings := [], claims := [] }).countPeers

/-- PEER_ABSENT (R256). -/
def execPeerAbsent (device : Nat) (s : State) : Out := onCore 6 s (s.peerAbsent device)

/-- Decibels of a linear value in 2^-16, in 0.25 dB rounded downwards. -/
def quarterOf (metric : Nat) : Int := (leastBy (fun k => metric * 2 ^ 48 < linearOf ((k : Int) - 400)) 12 0 1600 : Int) - 401

/-- A level in 0.25 dB as COUPLING gives it (R258). -/
def levelByte (level : Nat) : Nat := min 255 (quarterOf level).toNat

/-- The records of segment `g` that a COUPLING lists or its object shows. -/
def State.recordsOf (s : State) (g : Nat) : List (Nat × Heard) :=
  s.domain.heard.filterMap fun h => if h.1 / 65536 = g then some (h.1 % 65536, h.2) else none

/-- COUPLING_SEND (R256, R258). -/
def State.couplingSend (s : State) : State :=
  if !s.flag K.dom.DOMAIN_ENABLE then s
  else
    let loud := s.domain.heard.filter fun h => reachesDb h.2.level (s.rd K.dom.COUPLE_LEVEL)
    let body := (loud.take 1486).flatMap fun h =>
      beBytes 1 (h.1 / 65536) ++ beBytes 2 (h.1 % 65536) ++ beBytes 1 (levelByte h.2.level) ++
        beBytes 2 (min 65535 ((s.now - h.2.last) / 409600000))
    (s.modDomain fun d => { d with couplingAt := some s.now }).drvSend drvCoupling none body

/-- COUPLING_SEND (R256). -/
def execCouplingSend (s : State) : Out := onCore 6 s s.couplingSend

/-- The entries of a COUPLING body (R258). -/
def couplingRead : Nat → List Byte → List Coupling
  | 0, _ => []
  | n + 1, b => ⟨ofBe (b.take 1), ofBe ((b.drop 1).take 2), ofBe ((b.drop 3).take 1)⟩ :: couplingRead n (b.drop 6)

/-- COUPLING (R256, R258): the report of a peer that is not absent replaces its last one. -/
def State.couplingRx (s : State) (header body cmac : List Byte) : State :=
  match s.drvAccept drvCoupling header body cmac with
  | (some d, s) =>
    if body.length % 6 ≠ 0 || (s.peer d).hello.isNone then s
    else s.modPeer d fun p => { p with couplings := couplingRead (body.length / 6) body }
  | (none, s) => s

/-- COUPLING (R258). -/
def execCoupling (header body cmac : List Byte) (s : State) : Out := onCore 6 s (s.couplingRx header body cmac)

/-- COUPLE_AGE_EXPIRY (R257). -/
def State.coupleAge (s : State) (g nid : Nat) : State :=
  match Tbl.at? s.domain.heard (g * 65536 + nid) with
  | none => s
  | some h =>
    (s.atDeadline (h.last + secTicks (s.rd K.dom.COUPLE_AGE))).modDomain fun d =>
      { d with heard := Tbl.del d.heard (g * 65536 + nid) }

/-- COUPLE_AGE_EXPIRY (R257). -/
def execCoupleAgeExpiry (seg nid : Nat) (s : State) : Out := onCore 6 s (s.coupleAge seg nid)

/-! SLOT_MAP (R260, R261). -/

/-- The intervals of a SLOT_MAP body; `period` is MAINS_PERIOD in 2^-8 tick. -/
def claimsRead (period : Nat) : Nat → List Byte → List Claim
  | 0, _ => []
  | n + 1, b =>
    let c := ofBe ((b.drop 4).take 2)
    ⟨ofBe (b.take 4), c % 2 ^ 15, bitOf c 15, c % 2 ^ 15 * period / (24 * 2 ^ 8)⟩ :: claimsRead period n (b.drop 6)

/-- SLOT_MAP (R255, R260, R261): honoured while domain time is synchronised, from a peer that is not absent, up to 500 ms before its
second begins. -/
def State.slotMapRx (s : State) (header body cmac : List Byte) : State :=
  match s.drvAccept drvSlotMap header body cmac with
  | (none, s) => s
  | (some d, s) =>
    let n := ofBe ((body.drop 2).take 2)
    let sec := ofBe ((body.drop 4).take 4)
    if body.length < 12 || 1024 < n || body.length ≠ 12 + 6 * n || !s.claimTime || (s.peer d).hello.isNone then s
    else if s.secondTick sec < s.now + msTicks 500 then s.bump K.doms.CLAIMS_LATE
    else
      let g := ofBe (body.take 1)
      let cs := claimsRead (ofBe ((body.drop 8).take 4)) n (body.drop 12)
      s.modPeer d fun p =>
        { p with claims := (p.claims.filter fun c => !(c.1 == g && c.2.1 == sec) && s.dt / dtSecond ≤ c.2.1) ++ [(g, sec, s.now, cs)] }

/-- SLOT_MAP (R260). -/
def execSlotMap (header body cmac : List Byte) (s : State) : Out := onCore 6 s (s.slotMapRx header body cmac)

/-! Roaming: the old device (R263, R264, R301). -/

/-- The hand-over for an EUI-64. -/
def State.handOver? (s : State) (eui : Nat) : Option HandOver := Tbl.at? s.domain.handOvers eui

/-- Set the hand-over for an EUI-64. -/
def State.setHandOver (s : State) (eui : Nat) (h : HandOver) : State :=
  s.modDomain fun d => { d with handOvers := Tbl.ins d.handOvers eui h }

/-- Forget the hand-over for an EUI-64. -/
def State.dropHandOver (s : State) (eui : Nat) : State := s.modDomain fun d => { d with handOvers := Tbl.del d.handOvers eui }

/-- The legs of entry `i` that may move (R264, R301): of the own host, not delivered, not past the point of no return. -/
def State.movable (s : State) (i : Nat) : List (Nat × Nat) :=
  (s.legsOf i).filter fun l => match s.txn? l.1, s.leg? l.1 l.2 with
    | some t, some x => (servedFor l.1).isNone && !t.aborting && !x.delivered && !s.legBeyond l.1 l.2
    | _, _ => false

/-- The record of a moved leg (R301). -/
def State.movedBytes (s : State) (k j : Nat) : List Byte :=
  match s.txn? k, s.leg? k j with
  | some t, some l =>
    beBytes 4 k ++ beBytes 4 l.target ++ beBytes 1 (t.pri * 64 + t.op * 32) ++ beBytes 1 (l.retries - l.attempts) ++
      beBytes 8 (dtPair (s.dtOf t.deadline)) ++ beBytes 2 t.payload.length ++ t.payload
  | _, _ => []

/-- The fixed part of a ROAM_OFFER (R263). -/
def offerHead (eui status movedTo leaseEnd drift : Nat) (x : Sleep) (n : Nat) : List Byte :=
  beBytes 8 eui ++ beBytes 1 status ++ beBytes 2 movedTo ++ beBytes 4 leaseEnd ++ beBytes 1 drift ++
    beBytes 2 x.period ++ beBytes 2 x.phase ++ beBytes 1 x.slots ++ beBytes 1 x.check ++ beBytes 2 n

/-- Cut records into groups that fit one message (R414): 8,960 bytes with header, CMAC and fixed part. -/
def offerGroups : List Byte → List (List Byte) → List (List (List Byte)) → List (List (List Byte))
  | _, [], done => if done.isEmpty then [[]] else done
  | used, r :: rs, done =>
    match done.getLast? with
    | some g =>
      if used.length + r.length ≤ 8895 then offerGroups (used ++ r) rs (done.dropLast ++ [g ++ [r]])
      else offerGroups r rs (done ++ [[r]])
    | none => offerGroups r rs [[r]]

/-- The line work of an offered leg stops until the accept or its timeout (R264). -/
def State.suspendLeg (s : State) (k j dev : Nat) : State :=
  let s := (s.withdrawLeg k j).modTxn fun e => { e with waiting := e.waiting.filter fun w => w ≠ (k, j) }
  s.modLeg k j fun l => { l with movedTo := some dev, waits := false }

/-- Offer the records of entry `i` to device `dev` (R263, R264, R414). -/
def State.offer (s : State) (i dev : Nat) : State :=
  let e := s.ep i
  let legs := s.movable i
  let groups := offerGroups [] (legs.map fun l => s.movedBytes l.1 l.2) []
  let s := legs.foldl (fun t l => t.suspendLeg l.1 l.2 dev) s
  let s := s.setHandOver e.eui ⟨dev, some s.now, legs⟩
  groups.zipIdx.foldl (fun t g =>
    let last := g.2 + 1 == groups.length
    t.drvSend drvRoamOffer (some dev)
      (offerHead e.eui (if last then 0 else 2) 0 e.leaseEnd e.driftBound (s.sleepNow e) g.1.length ++ g.1.flatten)) s

/-- ROAM_QUERY (R263). -/
def State.roamQueryRx (s : State) (header body cmac : List Byte) : State :=
  match s.drvAccept drvRoamQuery header body cmac with
  | (none, s) => s
  | (some d, s) =>
    let eui := ofBe (body.take 8)
    match (if body.length = 16 then s.epOfEui eui else none) with
    | none => s
    | some i =>
      let e := s.ep i
      let short := fun (status dev : Nat) => s.drvSend drvRoamOffer (some d) (offerHead eui status dev 0 0 Sleep.none 0)
      if e.state = epAssociating then s
      else match s.handOver? eui with
        | some h => match h.offered with
          | some _ => short 3 h.querier
          | none => short 1 h.querier
        | none => s.offer i d

/-- ROAM_QUERY (R263). -/
def execRoamQuery (header body cmac : List Byte) (s : State) : Out := onCore 6 s (s.roamQueryRx header body cmac)

/-- A leg that stays behind ends with `ROAMED` and the new device in INFO (R301). -/
def State.endRoamed (s : State) (k j dev : Nat) : State :=
  match s.leg? k j with
  | some l =>
    ((s.withdrawLeg k j).modLeg k j fun l => { l with movedTo := some dev }).endLeg k j
      (if l.delivered then outAbandoned else outRefused) causeRoamed
  | none => s

/-- Entry `i` has moved to device `dev` (R263, R264): its remaining legs end, and it enters EXPIRED. -/
def State.movedAway (s : State) (i dev : Nat) : State :=
  let s := (s.legsOf i).foldl (fun t l => t.endRoamed l.1 l.2 dev) s
  let s := if (s.ep i).state = epExpired then s else s.expireWith i causeRoamed
  (s.modEp i fun e => { e with movedTo := some dev }).bump K.doms.ROAMED_OUT

/-- ROAM_ACCEPT (R263, R264). -/
def State.roamAcceptRx (s : State) (header body cmac : List Byte) : State :=
  match s.drvAccept drvRoamAccept header body cmac with
  | (none, s) => s
  | (some d, s) =>
    let eui := ofBe (body.take 8)
    match (if body.length = 10 then s.handOver? eui else none), s.epOfEui eui with
    | some h, some i =>
      if h.offered.isNone || h.querier ≠ d then s
      else (s.setHandOver eui { h with offered := none }).movedAway i d
    | _, _ => s

/-- ROAM_ACCEPT (R264). -/
def execRoamAccept (header body cmac : List Byte) (s : State) : Out := onCore 6 s (s.roamAcceptRx header body cmac)

/-- An offered leg stays with the old device (R263) and is carried on. -/
def State.restoreLeg (s : State) (k j : Nat) : State :=
  let s := s.modLeg k j fun l => { l with movedTo := none }
  match s.txn? k, s.leg? k j with
  | some t, some l =>
    if t.aborting then s.abortLeg k j
    else match l.phase, l.entry with
      | .delayed c, _ => if c = causeQuota then s.startLeg k j else s.resumeLeg k j
      | .active, some i =>
        (match s.entryVerdict i t.pri with
         | some (.refused c) => s.refuseLeg k j c
         | some (.delayed c _) => s.modLeg k j fun l => { l with phase := .delayed c }
         | _ => s.sendFragments k j)
      | _, _ => s
  | _, _ => s

/-- ROAM_ACCEPT_TIMEOUT (R263): 2.0 s after the last offer. -/
def State.roamAcceptTimeout (s : State) (eui : Nat) : State :=
  match s.handOver? eui with
  | none => s
  | some h =>
    match h.offered with
    | none => s
    | some t => h.legs.foldl (fun u l => u.restoreLeg l.1 l.2) ((s.atDeadline (t + secTicks 2)).dropHandOver eui)

/-- ROAM_ACCEPT_TIMEOUT (R263). -/
def execRoamAcceptTimeout (eui : Nat) (s : State) : Out := onCore 6 s (s.roamAcceptTimeout eui)

/-! Roaming: the new device (R262–R264, R301). -/

/-- The query for an EUI-64. -/
def State.query? (s : State) (eui : Nat) : Option Query := Tbl.at? s.domain.queries eui

/-- Set the query for an EUI-64. -/
def State.setQuery (s : State) (eui : Nat) (q : Query) : State :=
  s.modDomain fun d => { d with queries := Tbl.ins d.queries eui q }

/-- Forget the query for an EUI-64. -/
def State.dropQuery (s : State) (eui : Nat) : State := s.modDomain fun d => { d with queries := Tbl.del d.queries eui }

/-- Ask the domain for the records of entry `i` (R262). -/
def State.sendQuery (s : State) (i : Nat) (repeated : Bool) : State :=
  let e := s.ep i
  (s.setQuery e.eui ⟨i, s.now, none, repeated, []⟩).drvSend drvRoamQuery none
    (beBytes 8 e.eui ++ beBytes 4 (s.globalAddr e.seg e.addr) ++ beBytes 4 e.leaseEnd)

/-- The association is kept as new (R262, R263). -/
def State.noOffer (s : State) (eui : Nat) : State := (s.dropQuery eui).bump K.doms.ROAM_NO_OFFER

/-- The moved legs of an offer (R301); a record that is cut short ends the list. -/
def movedRead : Nat → List Byte → List MovedLeg
  | 0, _ => []
  | n + 1, b =>
    let len := ofBe ((b.drop 18).take 2)
    if b.length < 20 + len then []
    else
      let x := ofBe ((b.drop 8).take 1)
      ⟨ofBe (b.take 4), ofBe ((b.drop 4).take 4), field x 6 2, field x 5 1, ofBe ((b.drop 9).take 1), ofBe ((b.drop 10).take 8),
        (b.drop 20).take len⟩ :: movedRead n (b.drop (20 + len))

/-- The record that a moved transaction of device `dev` has here. -/
def State.servedTxn (s : State) (m : MovedLeg) : Txn :=
  { pri := m.pri, session := 0, op := m.op, many := true, aggTime := 0, arrived := s.now, deadline := s.tickOf (dtOfPair m.deadline),
    payload := m.payload, mark := 0, legs := [], sent := [], nSent := 0, open_ := [], openSince := none, aborting := false,
    nAborted := 0, cachedTo := none, endedAt := 0, evicted := false }

/-- Take over one moved leg for entry `i` (R264, R301): judged without tokens, sent from fragment 0 under a LINE_TAG of its own. -/
def State.adoptLeg (s : State) (dev i : Nat) (m : MovedLeg) : State :=
  let k := (dev + 1) * 2 ^ 32 + m.txn
  let s := if (s.txn? k).isSome then s else s.modTxn fun e => { e with txns := Tbl.ins e.txns k (s.servedTxn m) }
  let j := ((s.txn? k).map fun t => t.legs.length).getD 0
  let here := s.globalAddr (s.ep i).seg (s.ep i).addr
  let draft := s.newLeg here (some i) m.pri m.payload.length .served
  let v := s.legVerdict here m.pri draft.frags (s.tickOf (dtOfPair m.deadline)) false
  let l := { s.newLeg here (some i) m.pri m.payload.length v with target := m.target, retries := m.retries }
  let s := (s.modTxnRec k fun t => { t with legs := t.legs ++ [l] }).modEp i fun e => { e with lineTag := (e.lineTag + 1) % 2 ^ 16 }
  let s := s.countRecords
  match v with
  | .served => s.sendFragments k j
  | .delayed _ _ => s
  | .refused _ =>
    let s := (s.countRouteless (some i)).packRecord k l.finalRecord
    match s.txn? k with
    | some t => if t.openLegs.isEmpty then s.finishTxn k else s.flushOpen k false
    | none => s

/-- The lease of two that ends later, as domain seconds modulo 2^32. -/
def laterLease (a b : Nat) : Nat := if (b + 2 ^ 32 - a) % 2 ^ 32 < 2 ^ 31 then b else a

/-- The new device adopts an offer with records (R263). -/
def State.adopt (s : State) (i dev : Nat) (body : List Byte) (legs : List MovedLeg) : State :=
  let eui := (s.ep i).eui
  let sleep : Sleep := ⟨ofBe ((body.drop 16).take 2), ofBe ((body.drop 18).take 2), ofBe ((body.drop 20).take 1), ofBe ((body.drop 21).take 1)⟩
  let s := (s.modEp i fun e =>
    { e with leaseEnd := laterLease e.leaseEnd (ofBe ((body.drop 11).take 4)), driftBound := ofBe ((body.drop 15).take 1) }).journalEp i
  let s := s.sendSleep i sleep
  let s := (s.drvSend drvRoamAccept (some dev) (beBytes 8 eui ++ beBytes 2 legs.length)).bump K.doms.ROAMED_IN
  legs.foldl (fun t m => t.adoptLeg dev i m) (s.dropQuery eui)

/-- ROAM_OFFER (R263, R414). -/
def State.roamOfferRx (s : State) (header body cmac : List Byte) : State :=
  match s.drvAccept drvRoamOffer header body cmac with
  | (none, s) => s
  | (some d, s) =>
    let eui := ofBe (body.take 8)
    let status := ofBe ((body.drop 8).take 1)
    match (if 24 ≤ body.length then s.query? eui else none) with
    | none => s
    | some q =>
      let legs := q.legs ++ movedRead (ofBe ((body.drop 22).take 2)) (body.drop 24)
      if status = 0 then s.adopt q.entry d body legs
      else if status = 2 then s.setQuery eui { q with legs := legs }
      else if status = 3 && !q.repeated then s.setQuery eui { q with again := some (s.now + msTicks 2500) }
      else if status = 1 || status = 3 then s.noOffer eui
      else s

/-- ROAM_OFFER (R263). -/
def execRoamOffer (header body cmac : List Byte) (s : State) : Out := onCore 6 s (s.roamOfferRx header body cmac)

/-- ROAM_OFFER_WAIT_EXPIRY (R262): 2.0 s after the query. -/
def State.offerWaitExpiry (s : State) (eui : Nat) : State :=
  match s.query? eui with
  | some q => if q.again.isSome then s else (s.atDeadline (q.sent + secTicks 2)).noOffer eui
  | none => s

/-- ROAM_OFFER_WAIT_EXPIRY (R262). -/
def execRoamOfferWaitExpiry (eui : Nat) (s : State) : Out := onCore 6 s (s.offerWaitExpiry eui)

/-- ROAM_REQUERY (R263): 2.5 s after STATUS 3, once. -/
def State.roamRequery (s : State) (eui : Nat) : State :=
  match s.query? eui with
  | some q => match q.again with
    | some t => (s.atDeadline t).sendQuery q.entry true
    | none => s
  | none => s

/-- ROAM_REQUERY (R263). -/
def execRoamRequery (eui : Nat) (s : State) : Out := onCore 6 s (s.roamRequery eui)

/-- TXN_RELAY (R264). -/
def State.txnRelayRx (s : State) (header body cmac : List Byte) : State :=
  match s.drvAccept drvTxnRelay header body cmac with
  | (some d, s) => s.relayed d body
  | (none, s) => s

/-- TXN_RELAY (R264). -/
def execTxnRelay (header body cmac : List Byte) (s : State) : Out := onCore 6 s (s.txnRelayRx header body cmac)

/-! ASSOCIATION_REQUEST, with the move between segments of one device (R211, R262–R264). -/

/-- A leg moves from one entry of the device to another: it starts afresh there, without tokens (R262, R264). -/
def State.moveLeg (s : State) (k j i : Nat) : State :=
  let s := s.withdrawLeg k j
  match s.txn? k, s.leg? k j with
  | some t, some l =>
    let tag := (s.ep i).lineTag
    let size := s.fragMax t.pri i
    let s := s.modEp i fun e => { e with lineTag := (e.lineTag + 1) % 2 ^ 16 }
    let s := s.modLeg k j fun l =>
      { l with entry := some i, tag := tag, fragMax := size, frags := fragCount t.payload.length size, acked := [] }
    if l.waits then s
    else match s.entryVerdict i t.pri with
      | some (.refused c) => s.refuseLeg k j c
      | some (.delayed c _) => s.modLeg k j fun l => { l with phase := .delayed c }
      | _ => s.sendFragments k j
  | _, _ => s

/-- The endpoint of entry `o` is now entry `i` of another segment (R262–R264). -/
def State.moveInside (s : State) (o i : Nat) : State :=
  let old := s.ep o
  let legs := (s.legsOf o).filter fun l => match s.leg? l.1 l.2 with
    | some x => !x.delivered && !s.legBeyond l.1 l.2
    | none => false
  let s := (s.modEp i fun e => { e with leaseEnd := laterLease e.leaseEnd old.leaseEnd, driftBound := old.driftBound }).journalEp i
  let s := s.sendSleep i (s.sleepNow old)
  let s := legs.foldl (fun t l => t.moveLeg l.1 l.2 i) s
  (s.movedAway o s.domain.number).bump K.doms.ROAMED_IN

/-- A granted request (R211, R262): a new EUI-64 is asked for in the domain; one that another segment of the device holds, EXPIRED
included, moves (R263, R264). -/
def State.grantRoaming (s : State) (g i addr : Nat) (r : AssocReq) (q : Request) (jk : Option (List Byte)) : State :=
  let old := s.epOfEui r.eui
  let s := (s.grant g i addr r q jk).dropHandOver r.eui
  match old with
  | none => if s.flag K.dom.ROAM_ENABLE && s.flag K.dom.DOMAIN_ENABLE then s.sendQuery i false else s
  | some o => if o = i || (s.ep o).seg = g then s else s.moveInside o i

/-- The oldest committed association request of segment `g` leaves those that wait. -/
def State.takeRequest (s : State) (g : Nat) : Option (Request × State) :=
  (s.mac.requests.find? fun q => q.seg == g).map fun q => (q, s.modMac fun m => { m with requests := m.requests.erase q })

/-- ASSOCIATION_REQUEST (R210–R212, R318, R336): the oldest request of the segment is answered; while the entropy source is blocked, an
unwrap under LISTED waits. -/
def State.associationRequest (s : State) (g : Nat) : State :=
  if s.keys.entropyFail && s.rd K.adm.ADMIT_MODE = 1 then s
  else match s.takeRequest g with
    | none => s
    | some (q, s) => match assocRead q.body with
      | none => s.bump (K.segs.ASSOC_MALFORMED g)
      | some r => match s.assocDecide g q.body with
        | (.malformed, s) => s.bump (K.segs.ASSOC_MALFORMED g)
        | (.refused x, s) => s.refuseAssoc g x r q
        | (.granted i a jk, s) => s.grantRoaming g i a r q jk

/-- ASSOCIATION_REQUEST (R211). -/
def execAssociationRequest (seg : Nat) (s : State) : Out := onCore (segCore seg) s (if s.segEnabled seg then s.associationRequest seg else s)

end Sys2Proof.Machine
end

