-- ==== Sys2Proof/Machine/Memory.lean ====
section
/-! DEFINITION. The correction of memory words and the effect of an uncorrectable one (R21–R23, R358, R371). -/

namespace Sys2Proof.Machine

/-- The regions of working memory (R20), with the host scratch window apart (R362). -/
inductive Region where
  | endpoints | pages | buffers | transactions | firmware | scratch
  deriving DecidableEq, Repr

/-- The region of a working-memory offset (R20, R362). -/
def regionOf (off : Nat) : Region :=
  if off < 0x00800000 then .endpoints
  else if off < 0x01800000 then .pages
  else if off < 0x02400000 then .buffers
  else if off < 0x02C00000 then .transactions
  else if off < 0x02FF0000 then .firmware
  else .scratch

/-- A core halts on a memory error (R23): `memory` and `detail` wait for the reset cause that its watchdog will record. -/
def State.haltCore (s : State) (c memory detail : Nat) : State :=
  s.modSys fun y => { y with halted := if (Tbl.at? y.halted c).isSome then y.halted else Tbl.ins y.halted c ⟨memory, detail⟩ }

/-- A retired entry: every field 0 but UNUSABLE (R23). -/
def Ep.retired : Ep :=
  { Ep.reset with driftEmpty := false, offsetEmpty := false, windowEmpty := false, unusable := true }

/-- Retire endpoint entry `i` (R23): its pages are free, its downlinks refused with `NO_ROUTE`, no grant chooses it again. -/
def State.retireEntry (s : State) (i : Nat) : State :=
  if (s.ep i).unusable then s
  else
    let g := (s.ep i).seg
    let held := (s.ep i).state != epFree
    let s := ((s.refuseLegs i causeNoRoute fun _ => true).dropBridged i).withdrawEntry i
    let s := (s.freeEpPages i).modEp i fun _ => Ep.retired
    let s := s.modLine fun l => { l with wakes := Tbl.del l.wakes i }
    let s := s.bump K.wm.ENTRIES_RETIRED
    if held then ((s.countAssociated g).journalEp i).recomputeRoutes g else s

/-- A handle without page `k`. -/
def dropHandle (k h : Nat) : Nat := if handlePage h = k then 0 else h

/-- Retire tone-map page `k` (R23): it leaves the pool and the descriptor that held it is dropped; pages 0 and 1 are fixed and
have no pool to leave. -/
def State.retirePage (s : State) (k : Nat) : State :=
  if k < 2 || s.mac.retiredPages.contains k then s
  else
    let f := fun (e : Ep) =>
      { e with mapUp := e.mapUp.map (dropHandle k), mapPend := e.mapPend.map (dropHandle k), mapDn := e.mapDn.map (dropHandle k) }
    let s := s.modMac fun m =>
      { m with eps := Tbl.mapVals m.eps fun _ e => f e, pages := Tbl.del m.pages k, retiredPages := k :: m.retiredPages }
    (s.bump K.wm.PAGES_RETIRED).countPages

/-- Abandon an MPDU of the device for want of its buffer (R23): no retries were made, and MPDU_ABANDONED does not count it (R230). -/
def State.loseDown (s : State) (d : Down) : State :=
  let s := match d.frame with
    | some f => s.cancelFrame f
    | none => s
  s.downLost d

/-- Retire the buffer of a frame-buffer word (R23): a free value says which reception or transmission used it, if any; the error
is counted in WM_UNCORRECTED. -/
def State.retireBuffer (s : State) (off : Nat) : State :=
  let b := Config.bufferOf off
  let s := if s.svc.retiredBuffers.contains b then s
    else (s.bump K.wm.WM_RETIRED).modSvc fun v => { v with retiredBuffers := b :: v.retiredBuffers }
  let rxs := s.line.rxs.map (·.1)
  let (v, s) := s.fresh
  let k := v % (rxs.length + s.mac.queue.length + 1)
  match rxs[k]? with
  | some r => s.rinse r K.wm.WM_UNCORRECTED
  | none =>
    let s := s.bump K.wm.WM_UNCORRECTED
    match s.mac.queue[k - rxs.length]? with
    | some d => s.loseDown d
    | none => s

/-- The transaction of a transaction record is lost (R23): a free value says which one held it, if any; its open legs end
`FAILED` with `MEMORY_ERROR`. -/
def State.loseTxn (s : State) : State :=
  let (v, s) := s.fresh
  match s.txn.txns[v % (s.txn.txns.length + 1)]? with
  | none => s
  | some (k, t) => (List.range t.legs.length).foldl (fun u j => u.endLeg k j outFailed causeMemory) s

/-- The core that an error in the firmware data region affects (R23): the reader where it is one, else a free value. -/
def State.affectedCore (s : State) (reader : Option Nat) : Nat × State :=
  match reader with
  | some c => (c, s)
  | none =>
    let (v, t) := s.fresh
    (v % 8, t)

/-- An uncorrectable error at offset `off` of working memory (R23, R358). -/
def State.wmUncorrectable (s : State) (off : Nat) (reader : Option Nat) : State :=
  let s := s.wr K.wm.WM_LAST_ADDR (off / 8 * 8)
  match regionOf off with
  | .endpoints => (s.bump K.wm.WM_UNCORRECTED).retireEntry (off / 64)
  | .pages => (s.bump K.wm.WM_UNCORRECTED).retirePage ((off - 0x00800000) / 1024)
  | .buffers => s.retireBuffer off
  | .transactions => (s.bump K.wm.WM_UNCORRECTED).loseTxn
  | .firmware =>
    let (c, s) := (s.bump K.wm.WM_UNCORRECTED).affectedCore reader
    s.haltCore c 1 (off / 8)
  | .scratch => s.bump K.wm.WM_UNCORRECTED

/-- The finding of a read of working memory (R21, R23). -/
def State.wmEcc (s : State) (off : Nat) (ecc : Ecc) (reader : Option Nat) : State :=
  match ecc with
  | .clean => s
  | .corrected => (s.bump K.wm.WM_CORRECTED).wr K.wm.WM_LAST_ADDR (off / 8 * 8)
  | .uncorrectable => if off < Config.wmSize then s.wmUncorrectable off reader else s

/-- The finding of a read of the memory of core `c` (R21, R23). -/
def State.coreEcc (s : State) (c off : Nat) (ecc : Ecc) : State :=
  if 8 ≤ c then s
  else match ecc with
    | .clean => s
    | .corrected => s.bump (K.cm.CM_CORRECTED c)
    | .uncorrectable => s.haltCore c 3 (off / 8)

/-- SCRUB (R21–R23, R371): one word, and the count of a pass that it ends. -/
def State.scrub (s : State) (target : ScanTarget) (ecc : Ecc) (passEnd : Bool) : State :=
  let s := match target with
    | .working off => s.wmEcc off ecc none
    | .queue q held word => if q < 256 then s.queueEcc q (held && !(s.queue q).words.isEmpty) ecc word else s
    | .core c off => s.coreEcc c off ecc
  if passEnd && s.running then s.bump K.scrub.SCRUB_PASS else s

/-- SCRUB (R22). -/
def execScrub (target : ScanTarget) (ecc : Ecc) (passEnd : Bool) (s : State) : Out :=
  whenRunning s (s.scrub target ecc passEnd)

end Sys2Proof.Machine
end

