-- ==== Sys2Proof/Machine/Rollover.lean ====
section
/-! DEFINITION. Key loads and erases with what they do to a rollover, and the rollover itself (R305–R310, R321, R336). -/

namespace Sys2Proof.Machine

/-- The segment whose next network key stands in slot `i` (R304). -/
def nextKeySeg (i : Nat) : Option Nat := if 64 ≤ i && i < 128 then some (i - 64) else none

/-- Segment `g` has a rollover that an erase can cancel: it is scheduled or runs (R321). -/
def State.rollsOver (s : State) (g : Nat) : Bool :=
  s.rd (K.seg.NEXT_ACTIVATE g) != 0 || s.rd (K.segs.KEY_PHASE g) != phaseNone

/-- Withdraw the next-key deliveries of segment `g` that are still queued (R321). -/
def State.withdrawDeliveries (s : State) (g : Nat) : State :=
  s.withdraw fun d => d.kind == .keyDelivery && d.seg == g

/-- Clear the marks of segment `g` (R321). -/
def State.clearMarks (s : State) (g : Nat) : State :=
  (s.epsWith fun e => e.seg == g && e.marked).foldl (fun t i => t.modEp i fun e => { e with marked := false }) s

/-- The rollover of segment `g` is over or cancelled: NEXT_ACTIVATE 0, KEY_PHASE `NONE`, no marks (R321). -/
def State.endRollover (s : State) (g : Nat) : State :=
  (((s.wr (K.seg.NEXT_ACTIVATE g) 0).wr (K.segs.KEY_PHASE g) phaseNone).clearMarks g).modSeg g fun x =>
    { x with rollover := none }

/-- The delivery begins, or begins again with a new key: NEXT_DELIVERED 0, and every endpoint of the segment is owed it (R321). -/
def State.startDelivery (s : State) (g : Nat) : State :=
  let s := ((s.withdrawDeliveries g).clearMarks g).wr (K.segs.NEXT_DELIVERED g) 0
  (s.epsWith fun e => e.seg == g && e.state == epAssociated).foldl (fun t i => t.oweKey i) s

/-- A load of slot 64 + g has succeeded (R321): step 1 of a scheduled rollover, or a new key for one that runs. -/
def State.nextKeyLoaded (s : State) (g : Nat) : State :=
  if s.rd (K.segs.KEY_PHASE g) = phaseNone then
    if s.rd (K.seg.NEXT_ACTIVATE g) = 0 then s
    else
      let r := (s.rd (K.seg.NEXT_ACTIVATE g), s.rd (K.seg.KEY_OVERLAP g))
      ((s.wr (K.segs.KEY_PHASE g) phaseDelivering).modSeg g fun x => { x with rollover := some r }).startDelivery g
  else s.startDelivery g

/-- A key load with its effect on a rollover (R305, R306, R321); requests that waited for the slot are served. -/
def State.loadKey (s : State) (i : Nat) (data : List Byte) (env : WriteEnv) : WriteResult :=
  let r := s.keyLoad i data env
  match r.abort with
  | some a => .refuse a r.state
  | none =>
    let s := r.state
    let s := match nextKeySeg i with
      | some g => (s.modSeg g fun x => { x with retire := none }).nextKeyLoaded g
      | none => s
    .accept s.serve

/-- An erase of slot `i` (R310), which cancels the rollover of a next-key slot (R321). -/
def State.eraseKey (s : State) (i : Nat) : State :=
  let s := s.slotErase i
  match nextKeySeg i with
  | none => s
  | some g =>
    let s := s.modSeg g fun x => { x with retire := none }
    if s.rollsOver g then (s.withdrawDeliveries g).endRollover g else s

/-- A write of NEXT_ACTIVATE (R321): refused while a rollover runs and for a second less than 60 s ahead. -/
def State.nextActivateWrite (s : State) (g second : Nat) : WriteResult :=
  if s.rd (K.segs.KEY_PHASE g) ≠ phaseNone || second * dtSecond < s.dt + 60 * dtSecond then .refuse .range s
  else .accept (s.wr (K.seg.NEXT_ACTIVATE g) second)

/-- Domain time reaches NEXT_ACTIVATE (R321 step 3). -/
def State.overlapStart (s : State) (g : Nat) : State :=
  if s.rd (K.segs.KEY_PHASE g) ≠ phaseDelivering then s
  else (s.atDeadline (s.tickOf (s.rd (K.seg.NEXT_ACTIVATE g) * dtSecond))).wr (K.segs.KEY_PHASE g) phaseOverlap

/-- OVERLAP_START (R321). -/
def execOverlapStart (seg : Nat) (s : State) : Out := onCore 7 s (s.overlapStart seg)

/-- Slot `g` takes the key of slot 64 + g with its use count, its limit and its frame counter, as a write under R309 (R321
step 4). -/
def State.promoteSlot (s : State) (g : Nat) : State :=
  let n := 64 + g
  let k := s.slot n
  let s := s.slotInstall g k.key 0 (s.rd (K.key.FINGERPRINT n))
  let s := [(K.key.STATE g, K.key.STATE n), (K.key.USE_COUNT g, K.key.USE_COUNT n), (K.key.TX_FC g, K.key.TX_FC n)].foldl
    (fun t p => t.wr p.1 (t.rd p.2)) s
  (s.wr (K.key.USE_LIMIT g) k.limit).modSlot g fun x => { x with limit := k.limit, resEnd := k.resEnd }

/-- Promotion at NEXT_ACTIVATE + KEY_OVERLAP (R321 step 4). -/
def State.promotion (s : State) (g : Nat) : State :=
  match (s.seg g).rollover with
  | none => s
  | some (t, o) =>
    if s.rd (K.segs.KEY_PHASE g) ≠ phaseOverlap then s
    else
      let s := ((s.atDeadline (s.tickOf ((t + o) * dtSecond))).promoteSlot g).bump (K.segs.PROMOTIONS g)
      (((s.withdrawDeliveries g).endRollover g).modSeg g fun x => { x with retire := some (s.now + secTicks 2) }).serve

/-- PROMOTION (R321). -/
def execPromotion (seg : Nat) (s : State) : Out := onCore 7 s (s.promotion seg)

/-- 2.0 s after promotion the next-key slot is EMPTY, with no erase effects (R321 step 4). -/
def State.nextKeyRetire (s : State) (g : Nat) : State :=
  match (s.seg g).retire with
  | none => s
  | some t => ((s.atDeadline t).slotClear (64 + g)).modSeg g fun x => { x with retire := none }

/-- NEXT_KEY_RETIRE (R321). -/
def execNextKeyRetire (seg : Nat) (s : State) : Out := onCore 7 s (s.nextKeyRetire seg)

/-! The random source (R336). -/

/-- A key load while the random source is blocked waits for fresh masks (R336). -/
def State.loadOrWait (s : State) (i : Nat) (data : List Byte) (env : WriteEnv) : WriteResult :=
  if s.keys.entropyFail && !s.keys.vaultLocked && (data.length = 32 || data.length = 48) then
    .delay .masks (s.modKeys fun k => { k with vaultWaiting := k.vaultWaiting ++ [.load i data env] })
  else s.loadKey i data env

end Sys2Proof.Machine
end

