-- ==== Sys2Proof/Machine/Perf.lean ====
section
/-! DEFINITION. Performance counters: selections, dumps, live values and the sample ring (R464–R477); and the loop test (R514). -/

namespace Sys2Proof.Machine

/-- The highest event code of a bank (R466). -/
def lastCode (b : Nat) : Nat :=
  if b < 8 then 0x09 else if b = 8 then 0x0D else if b = 9 then 0x0A else if b = 10 then 0x0A else 0x09

/-- A write of SEL_k (R465): the counter and its overflow bit are cleared; an undefined code is refused. -/
def State.selWrite (s : State) (b k value : Nat) : WriteResult :=
  if lastCode b < field value 0 8 then .refuse .range s
  else .accept ((s.wr (K.bank.SEL b k) (value % 2 ^ 13)).modBank b fun x =>
    { x with ctrs := Tbl.del x.ctrs k, ovf := Tbl.del x.ovf k })

/-- A write of BANK_CLEAR (R465). -/
def State.bankClear (s : State) (b value : Nat) : WriteResult :=
  .accept (if value = 0 then s else s.modBank b fun _ => { Bank.reset with ticksBase := s.now })

/-- TICKS of bank `b` (R464). -/
def State.bankTicks (s : State) (b : Nat) : Nat := (s.now - (s.bank b).ticksBase) % 2 ^ 64

/-- The overflow bits of a bank as one byte (R470). -/
def Bank.ovfByte (x : Bank) : Nat := ((List.range 8).map fun k => Tbl.atD x.ovf k 0 * 2 ^ k).sum

/-- ENABLE of each SEL_k of a bank as one byte (R470). -/
def State.enByte (s : State) (b : Nat) : Nat :=
  ((List.range 8).map fun k => boolNat (bitOf (s.rd (K.bank.SEL b k)) 12) * 2 ^ k).sum

/-- The 64-byte block of bank `b` in a dump record (R470). -/
def State.bankBlock (s : State) (b : Nat) : List Byte :=
  let x := s.bank b
  leBytes 8 (s.bankTicks b) ++ ((List.range 8).flatMap fun k => leBytes 6 (Tbl.atD x.ctrs k 0)) ++ leBytes 1 x.ovfByte ++
    leBytes 1 (s.enByte b) ++ leBytes 6 0

/-- A dump record (R470). -/
def State.dumpRecord (s : State) (seq : Nat) : List Byte :=
  leBytes 4 seq ++ leBytes 4 (s.rd K.perf.DUMP_PERIOD) ++ leBytes 8 s.now ++ (List.range 12).flatMap s.bankBlock

/-- DUMP_LATCH (R469): at the next multiple of DUMP_PERIOD × 4,096 ticks every bank is latched; a latch that finds the previous
record still being written uses its number and is counted. -/
def State.dumpLatch (s : State) : State :=
  if !s.flag K.perf.DUMP_ENABLE then s
  else
    let p := s.rd K.perf.DUMP_PERIOD * 4096
    let due := ceilDiv s.now p * p
    let s := s.passTo (if s.perf.latchedAt = some due then due + p else due)
    let s := s.modPerf fun x => { x with latchedAt := some s.now }
    let seq := (s.rd K.perf.DUMP_SEQ + 1) % 2 ^ 32
    let s := s.wr K.perf.DUMP_SEQ seq
    if s.perf.writing.isSome then s.bump K.perf.DUMP_SKIPPED
    else
      let r := s.dumpRecord seq
      s.modPerf fun x => { x with writing := some r }

/-- DUMP_LATCH (R469). -/
def execDumpLatch (s : State) : Out := whenRunning s s.dumpLatch

/-- DUMP_RECORD_WRITTEN (R469): the record stands in the ring of 256; the notice to C0 is one end-marked word, whose content the
spec does not give. -/
def State.dumpWritten (s : State) : State :=
  match s.perf.writing with
  | none => s
  | some r =>
    let s := s.modPerf fun x =>
      { x with writing := none, ring := (if x.ring.length < 256 then x.ring else x.ring.drop 1) ++ [r] }
    let (v, s) := s.fresh
    s.sendPacket 250 [v % 2 ^ 64]

/-- DUMP_RECORD_WRITTEN (R469). -/
def execDumpRecordWritten (s : State) : Out := whenRunning s s.dumpWritten

/-- DUMP_LATEST: the newest record, all 0 before the first (R477). -/
def State.dumpLatest (s : State) : List Byte := s.perf.ring.getLast?.getD (List.replicate 784 0)

/-- LIVE_TICKS (R471). -/
def State.liveTicks (s : State) (b : Nat) : List Byte := leBytes 8 (s.bankTicks b) ++ leBytes 8 s.now

/-- LIVE_k (R471). -/
def State.live (s : State) (b k : Nat) : List Byte :=
  let x := s.bank b
  leBytes 8 (Tbl.atD x.ctrs k 0 + Tbl.atD x.ovf k 0 * 2 ^ 48 + boolNat (bitOf (s.rd (K.bank.SEL b k)) 12) * 2 ^ 49) ++
    leBytes 8 s.now

/-! Sampling (R475). -/

/-- A change of SAMPLE_SOURCE or SAMPLE_N empties the ring and restarts the descriptor count. -/
def State.sampleRestart (s : State) : State := s.modPerf fun x => { x with samples := [], descriptors := 0 }

/-- A write of SAMPLE_SOURCE or SAMPLE_N within its range (R475). -/
def State.sampleConfig (s : State) (r : Reg) (value : Nat) : WriteResult :=
  .accept (if s.rd r = value then s else (s.wr r value).sampleRestart)

/-- A write of SAMPLE_ENABLE (R473): enabling restarts the descriptor count. -/
def State.sampleEnable (s : State) (value : Nat) : WriteResult :=
  let s := if value = 1 && !s.flag K.samp.SAMPLE_ENABLE then s.modPerf fun x => { x with descriptors := 0 } else s
  .accept (s.wr K.samp.SAMPLE_ENABLE value)

/-- A read of SAMPLE_RING (R475). -/
def State.sampleRing (s : State) : List Byte × State :=
  (s.perf.samples.flatten, (s.modPerf fun x => { x with samples := [] }).setFlag K.samp.SAMPLE_OVERFLOW false)

/-! The loop test (R514). -/

/-- A write of LOOP_TEST (R514): the channel must be enabled and belong to no enabled segment. -/
def State.loopStart (s : State) (n : Nat) : WriteResult :=
  if !s.enabled n || (s.segOf n).isSome then .refuse .state s
  else .accept (s.modLoop fun _ => ⟨some (n, (s.chan n).gain), s.now⟩)

/-- Half decibel tenths of the power of a tone: `power` reaches `h` halves of 0.1 dBFS, 2^108 being full scale (R514). -/
def toneReaches (power : Nat) (h : Int) : Bool :=
  if 0 ≤ h then 10 ^ h.toNat * 2 ^ 21600 ≤ power ^ 200 else 2 ^ 21600 ≤ power ^ 200 * 10 ^ (-h).toNat

/-- The level on carrier 200 of the 4,096 codes of the receive converter in the middle 20 µs, by a single-bin transform, in 0.1 dBFS to the nearest
(R514; fixed point and full scale: assumption log, entries 47 and 49); −32,768 where nothing is there. -/
def toneLevel (samples : List Int) : Int :=
  let at_ := fun (x : Int) (n : Nat) => turned (-(((200 * n) % 4096 * 2 ^ 20 : Nat) : Int)) (x, 0)
  let power := (((samples.take 4096).zipIdx.map fun y => at_ y.1 y.2).foldl Gauss.add (0, 0)).power
  if power = 0 then -32768 else (leastBy (fun k => !toneReaches power (2 * (k : Int) - 6599)) 13 0 6000 : Int) - 3300

/-- LOOP_TEST_DONE (R514): the level in 0.1 dBFS and the channel; the gain returns to the AGC. -/
def State.loopDone (s : State) (samples : List Int) : State :=
  match s.loop.running with
  | none => s
  | some (n, gain) =>
    let s := (s.wrInt K.loop.LOOP_RESULT (toneLevel samples)).wr K.loop.LOOP_CHANNEL n
    (s.modChan n fun c => { c with gain := gain }).modLoop fun _ => LoopTest.reset

/-- LOOP_TEST_DONE (R514): the codes of the channel's receive converter over the middle 20 µs of the tone. -/
def execLoopTestDone (samples : List Int) (s : State) : Out := whenRunning s (s.loopDone samples)

end Sys2Proof.Machine
end

