-- ==== Sys2Proof/Machine/DictRead.lean ====
section
/-! DEFINITION. What a read of a dictionary object returns and what it clears (R429–R431 and the object tables of every chapter).
An object that no function here names returns the value of its register. -/

namespace Sys2Proof.Machine

/-- What a read gives: the bytes and the state after it. -/
abbrev ReadOut := Option (List Byte × State)

/-- A read that changes nothing. -/
def State.shows (s : State) (b : List Byte) : ReadOut := some (b, s)

/-- A read of a sticky flag clears it in the same step (R61). -/
def State.showsSticky (s : State) (r : Reg) : ReadOut := some (leBytes 1 (s.rd r), s.wr r 0)

/-- Channel status (R61). -/
def State.readChannel (s : State) (n sub : Nat) : ReadOut :=
  match sub with
  | 0x01 => s.shows (leBytes 1 (s.chanState n))
  | 0x02 => s.shows (leBytes 1 (twos 8 (s.gainNow n)))
  | 0x03 => s.shows (leBytes 2 (twos 16 (s.chan n).trim))
  | 0x04 => s.shows (leBytes 1 (s.chan n).phase)
  | 0x05 => s.showsSticky (K.chs.RX_OVERFLOW n)
  | 0x07 => s.showsSticky (K.chs.TX_UNDERRUN n)
  | 0x0C => some (leBytes 2 (s.chan n).peak, s.modChan n fun c => { c with peak := c.fill })
  | 0x0D => s.shows (leBytes 1 (boolNat (s.locked n)))
  | _ => none

/-- Tracker status (R158). -/
def State.readTracker (s : State) (sub : Nat) : ReadOut :=
  match sub with
  | 0x03 => s.shows (leBytes 4 (s.refPhase s.now))
  | 0x04 => s.shows (leBytes 8 (s.zeroTick s.now))
  | 0x05 => s.showsSticky K.trks.HOLDOVER_SEEN
  | _ => none

/-- Tide table of channel `n` (R168). -/
def State.readTide (s : State) (n sub : Nat) : ReadOut :=
  if 1 ≤ sub && sub ≤ 24 then s.shows (leBytes 4 (s.slotObject n (sub - 1)))
  else if sub = 25 then s.shows (leBytes 2 (twos 16 (s.floorObject n)))
  else if sub = 26 then s.shows (leBytes 8 (s.classVector n))
  else none

/-- The interference records of segment `g`, the highest L first (R257). -/
def State.loudest (s : State) (g : Nat) : List (Nat × Heard) :=
  (s.recordsOf g).insertionSort fun a b => b.2.level ≤ a.2.level

/-- COUPLING_j of segment `g` (R266). -/
def State.couplingObject (s : State) (g j : Nat) : Nat :=
  match (s.loudest g)[j]? with
  | some h => h.1 + levelByte h.2.level * 2 ^ 16 + boolNat (s.isCoupled g h.1) * 2 ^ 24
  | none => 0

/-- Segment status (R186, R266). -/
def State.readSegment (s : State) (g sub : Nat) : ReadOut :=
  if sub = 0x0D then s.shows (leBytes 2 (s.coupledTo g).length)
  else if 0x10 ≤ sub && sub < 0x20 then s.shows (leBytes 4 (s.couplingObject g (sub - 0x10)))
  else if sub = 0x20 then s.shows (leBytes 4 (s.segPhaseAt s.now (s.seg g).offset))
  else none

/-- Endpoint access cursors (R231). -/
def State.readCursor (s : State) (u sub : Nat) : ReadOut :=
  match sub, s.cursorEntry u with
  | 0x03, i => s.shows (leBytes 1 (boolNat i.isSome))
  | 0x04, some i => s.shows (s.ep i).bytes
  | 0x04, none => s.shows (List.replicate 64 0)
  | 0x05, some i => s.shows (s.driftBytes (s.ep i))
  | 0x05, none => s.shows (List.replicate 20 0)
  | _, _ => none

/-- Cipher engines (R350). -/
def State.readEngine (s : State) (e sub : Nat) : ReadOut :=
  match sub with
  | 0x01 => s.shows (leBytes 1 (s.engine e).stateCode)
  | 0x02 => s.shows (leBytes 4 (s.engine e).lock)
  | _ => none

/-- Queues (R373). -/
def State.readQueue (s : State) (q sub : Nat) : ReadOut :=
  match sub with
  | 0x02 => s.shows (leBytes 2 (s.queue q).count)
  | 0x03 => s.shows (leBytes 2 (s.queue q).packets)
  | 0x04 => s.shows (leBytes 4 (s.queueSnapshot q))
  | 0x05 => s.shows (leBytes 1 (boolNat (s.queueFull q)))
  | 0x06 => s.showsSticky (K.q.OVERRUN q)
  | _ => none

/-- Mains results (R400). -/
def State.readMains (s : State) (u sub : Nat) : ReadOut :=
  match sub with
  | 0x01 => s.shows (s.rdB (K.mcr.LAST_RESULT u))
  | 0x03 => s.shows (s.rdB (K.mcr.PHASOR u))
  | 0x04 => s.shows (s.unit u).ringBytes
  | 0x05 => some (s.eventRead u 0)
  | 0x06 => some (s.eventRead u 1)
  | 0x07 => s.showsSticky (K.mcr.TRIGGER_LOST u)
  | 0x09 => s.showsSticky (K.mcr.BW_OVERFLOW u)
  | _ => none

/-- Domain time status (R426): TIME_PAIR is a tick with the domain time at that tick. -/
def State.readTime (s : State) (sub : Nat) : ReadOut :=
  match sub with
  | 0x02 => s.shows (leBytes 1 (boolNat s.synchronised))
  | 0x03 => s.shows (leBytes 8 s.now ++ leBytes 8 (dtPair s.dt))
  | _ => none

/-- The electronic error register (R453): bit 4 a backhaul port down or CAN FD bus-off, bit 7 a lock-out or DEVICE_CLASH, bit 0
with either. -/
def State.errorRegister (s : State) : Nat :=
  let comm := (List.range s.portCount).any (fun p => !s.linkUp p) || s.mgmt.busOff
  let fault := s.keys.engines.any (fun e => e.2.lockedOut) || s.keys.vaultLocked || s.flag K.doms.DEVICE_CLASH
  boolNat (comm || fault) + boolNat comm * 2 ^ 4 + boolNat fault * 2 ^ 7

/-- The decimal digits of a number as ASCII. -/
def asciiDecimal (n : Nat) : List Byte := (Nat.toDigits 10 n).map fun c => BitVec.ofNat 8 c.toNat

/-- SW_VERSION: FW_VERSION as "a.b.c.d", one decimal per byte, most significant first (R453). -/
def versionText (v : Nat) : List Byte :=
  asciiDecimal (field v 24 8) ++ [0x2E] ++ asciiDecimal (field v 16 8) ++ [0x2E] ++ asciiDecimal (field v 8 8) ++ [0x2E] ++
    asciiDecimal (field v 0 8)

/-- An entry that a store captures (R449): rw, and neither a cursor, nor SCRATCH_OFFSET, nor the scratch window itself, whose
contents are 0 after every reset (R362; assumption log, entry 28). -/
def ObjRow.stored (idx : Nat) (r : ObjRow) : Bool :=
  r.access == .rw && !(0x8000 ≤ idx && idx < 0x8100) && idx != 0xA020

/-- ASCII text. -/
def ascii (t : String) : List Byte := t.toList.map fun c => BitVec.ofNat 8 c.toNat

/-- A number in upper-case hexadecimal, `n` digits or more. -/
def asciiHex (n v : Nat) : List Byte :=
  let d := (Nat.toDigits 16 v).map fun c => BitVec.ofNat 8 c.toUpper.toNat
  List.replicate (n - d.length) 0x30 ++ d

/-- The section of one object in the electronic data sheet (R452): its name and keys as CiA 306 has them (PRESUMED, entry 10), and the
two keys of Purvaell's own. -/
def edsSection (idx sub : Nat) (r : ObjRow) : List Byte :=
  ascii "[" ++ asciiHex 4 idx ++ (if sub = 0 then [] else ascii "sub" ++ asciiHex 1 sub) ++ ascii "]" ++ [13, 10] ++
    Config.edsKeys idx sub ++ ascii "PVL_Level=" ++ asciiDecimal r.level ++ [13, 10] ++ ascii "PVL_Stored=" ++
    asciiDecimal (boolNat (r.stored idx)) ++ [13, 10]

/-- The electronic data sheet (R452): every object in a section of its own, each member of an indexed family too. -/
def edsBytes : List Byte :=
  Config.edsHead ++ (List.range 0x10000).flatMap fun idx =>
    match objRows.filter fun r => r.hasIndex idx with
    | [] => []
    | rows => (List.range 256).flatMap fun sub =>
      match rows.find? fun r => r.has idx sub with
      | some r => edsSection idx sub r
      | none => []

/-- Identity and communication objects (R453). -/
def State.readIdentity (s : State) (idx sub : Nat) : ReadOut :=
  if idx = 0x1001 then s.shows (leBytes 1 s.errorRegister)
  else if idx = 0x1008 then s.shows (s.rdB K.id.DEVICE_NAME)
  else if idx = 0x1009 then s.shows (s.rdB K.id.HW_VERSION)
  else if idx = 0x100A then s.shows (versionText (headFw s.runningHead))
  else if idx = 0x1018 && sub = 4 then s.shows (leBytes 4 s.flash.eui64)
  else if idx = 0x1021 then s.shows edsBytes
  else if idx = 0x1100 then
    (match sub with
      | 1 => s.shows (leBytes 8 s.flash.eui64)
      | 2 => s.shows (leBytes 4 (headFw s.runningHead))
      | 3 => s.shows (leBytes 2 (headSecurity s.runningHead))
      | _ => none)
  else if idx = 0x1D01 && sub = 1 then s.shows (leBytes 1 s.sys.canId)
  else none

/-- Device-wide objects (R158, R350, R453). -/
def State.readDevice (s : State) (idx sub : Nat) : ReadOut :=
  if idx = 0x2010 then s.shows (leBytes 8 s.now)
  else if idx = 0x2101 then s.readTracker sub
  else if idx = 0x2200 && sub = 1 then s.shows (leBytes 1 s.vaultState)
  else if idx = 0x2200 && sub = 5 then s.shows (leBytes 2 s.keysNear)
  else if idx = 0x2201 && sub = 4 then s.shows (leBytes 1 s.flash.minVersion)
  else none

/-- Transaction, backhaul and domain objects (R302, R303, R425, R426). -/
def State.readBackhaul (s : State) (idx sub : Nat) : ReadOut :=
  if idx = 0x7001 && sub = 1 then s.shows (leBytes 4 s.recordsOpen)
  else if idx = 0x7001 && sub = 2 then s.shows (leBytes 4 s.recordsCached)
  else if 0x7080 ≤ idx && idx < 0x70C0 then s.shows (s.rdB (K.groups.GROUP (idx - 0x7080)))
  else if idx = 0x7100 && sub = 0x0A then s.shows (s.rdB K.bh.DOMAIN_GROUP)
  else if 0x7101 ≤ idx && idx < 0x7105 then
    (match sub with
      | 1 => s.shows (leBytes 6 (s.macAddr (idx - 0x7101)))
      | 3 => s.shows (s.rdB (K.port.IP_ADDR (idx - 0x7101)))
      | 5 => s.shows (s.rdB (K.port.GATEWAY (idx - 0x7101)))
      | _ => none)
  else if 0x7110 ≤ idx && idx < 0x7120 && sub = 5 then s.shows (s.rdB (K.sess.PEER_ADDR (idx - 0x7110)))
  else if idx = 0x7131 then s.readTime sub
  else none

/-- Counter and sampling objects (R469–R475, R477). -/
def State.readPerf (s : State) (idx sub : Nat) : ReadOut :=
  if idx = 0x9000 && sub = 6 then s.shows s.dumpLatest
  else if idx = 0x9000 && sub = 7 then s.shows s.perf.ring.flatten
  else if idx = 0x9001 && sub = 6 then some s.sampleRing
  else if 0x9020 ≤ idx then
    (if sub = 1 then s.shows (s.liveTicks (idx - 0x9020)) else s.shows (s.live (idx - 0x9020) (sub - 2)))
  else none

/-- The 64 compensation coefficients as INTEGER32 values (R392). -/
def compBytes : List Byte := compCoefs.flatMap fun k => leBytes 4 (twos 32 k)

/-- The USER_COEF of unit `u`: its default is 32 zeros (R399). -/
def State.userCoef (s : State) (u : Nat) : List Byte :=
  let b := s.rdB (K.mc.USER_COEF u)
  if b.isEmpty then List.replicate 128 0 else b

/-- The objects whose value is no register of their own, by range of R427. -/
def State.readSpecial (s : State) (idx sub : Nat) : ReadOut :=
  if idx < 0x2000 then s.readIdentity idx sub
  else if idx < 0x3000 then s.readDevice idx sub
  else if 0x3100 ≤ idx && idx < 0x3200 then s.readChannel (idx - 0x3100) sub
  else if 0x3440 ≤ idx && idx < 0x3480 then s.readSegment (idx - 0x3440) sub
  else if 0x3800 ≤ idx && idx < 0x3900 then s.readTide (idx - 0x3800) sub
  else if 0x4000 ≤ idx && idx < 0x4040 && sub = 0x21 then s.shows (s.userCoef (idx - 0x4000))
  else if 0x4040 ≤ idx && idx < 0x4080 then s.readMains (idx - 0x4040) sub
  else if idx = 0x4080 then s.shows compBytes
  else if 0x5400 ≤ idx && idx < 0x5800 && sub = 7 then s.showsSticky (K.key.NEAR_LIMIT_SEEN (idx - 0x5400))
  else if 0x5800 ≤ idx && idx < 0x5840 then s.readEngine (idx - 0x5800) sub
  else if 0x6100 ≤ idx && idx < 0x6200 then s.readQueue (idx - 0x6100) sub
  else if 0x7000 ≤ idx && idx < 0x7200 then s.readBackhaul idx sub
  else if 0x8000 ≤ idx && idx < 0x8100 then s.readCursor (idx - 0x8000) sub
  else if 0x9000 ≤ idx && idx < 0x9100 then s.readPerf idx sub
  else if idx = 0xA020 && sub = 2 then s.shows s.scratchRead
  else none

/-- The bytes of a numeric type; 0 for types whose length is part of the transfer (R428). -/
def ObjType.bytes : ObjType → Nat
  | .boolean => 1
  | .unsigned n => n
  | .integer n => n
  | .octets n => n
  | .octets2 n _ => n
  | .visible => 0
  | .domain => 0

/-- The value that the register of an entry holds. -/
def State.rawValue (s : State) (idx sub : Nat) : Nat := Tbl.atD s.dict (idx * 256 + sub) (objDefault (idx * 256 + sub))

/-- A read of entry `idx:sub`, whose row is `r` (R431). -/
def State.objRead (s : State) (idx sub : Nat) (r : ObjRow) : List Byte × State :=
  (s.readSpecial idx sub).getD (leBytes r.ty.bytes (s.rawValue idx sub), s)

/-! Access checks (R345, R427, R429, R430, R434, R476). -/

/-- The entries that the boot sequencer serves in recovery mode (R345): identity, the boot objects and the reset command. -/
def recoveryIndex (idx : Nat) : Bool := idx == 0x1018 || idx == 0x2201 || idx == 0x2001

/-- The hardware of path `via` works: while the device runs; in recovery mode CAN FD and local SPI alone (R345). -/
def State.pathUp (s : State) (via : Path) : Bool :=
  s.running || (s.sys.phase == .recovery && (via == .can || via == .spi))

/-- Some server answers path `via`: the dictionary server of C0 while the device runs (R25), the boot sequencer in recovery mode (R345); none
while C0 is halted (R23). -/
def State.answers (s : State) (via : Path) : Bool := s.pathUp via && (Tbl.at? s.sys.halted 0).isNone

/-- The server that answers defines index `idx` (R345, R427). -/
def State.definesIndex (s : State) (idx : Nat) : Bool := objIndex? idx && (s.running || recoveryIndex idx)

/-- The level that a read of row `r` needs (R476). -/
def State.readLevel (s : State) (r : ObjRow) : Nat := if r.perf && s.flag K.perf.USER_READ then 0 else r.level

/-- The level that a write of entry `idx:sub` needs: none for IMAGE_DATA in recovery mode (R345). -/
def State.writeLevel (s : State) (idx sub : Nat) (r : ObjRow) : Nat :=
  if !s.running && idx = 0x2201 && sub = 6 then 0 else r.level

/-- Checks 2 to 4 of R430 on a read. -/
def State.readRefused (s : State) (via : Path) (idx sub : Nat) : Abort ⊕ ObjRow :=
  if !s.definesIndex idx then .inl .noObject
  else match objRow? idx sub with
    | none => .inl .noSub
    | some r =>
      if r.access = .wo then .inl .writeOnly
      else if s.levelOf via < s.readLevel r then .inl .level
      else .inr r

/-- Checks 2 to 4 of R430 on a write. -/
def State.writeRefused (s : State) (via : Path) (idx sub : Nat) : Abort ⊕ ObjRow :=
  if !s.definesIndex idx then .inl .noObject
  else match objRow? idx sub with
    | none => .inl .noSub
    | some r =>
      if r.access = .ro then .inl .readOnly
      else if s.levelOf via < s.writeLevel idx sub r then .inl .level
      else .inr r

/-- A read of the dictionary on path `via`: the abort code or the bytes, and the state after it. -/
def State.readObject (s : State) (via : Path) (idx sub : Nat) : (Abort ⊕ List Byte) × State :=
  match s.readRefused via idx sub with
  | .inl a => (.inl a, s)
  | .inr r => let (b, t) := s.objRead idx sub r; (.inr b, t)

/-- A read of the dictionary with its outcome left in the state. -/
def State.dictRead (s : State) (via : Path) (idx sub : Nat) : State :=
  if !s.answers via then s
  else match s.readObject via idx sub with
    | (.inl a, t) => t.answer a.code []
    | (.inr b, t) => t.answer 0 b

end Sys2Proof.Machine
end

