-- ==== Sys2Proof/Machine/Store.lean ====
section
/-! DEFINITION. Capturing the dictionary into a store copy and marking the copies invalid (R449, R451). -/

namespace Sys2Proof.Machine

/-- An entry whose record comes before the group lists, which are captured apart (R449). -/
def stored (idx : Nat) (r : ObjRow) : Bool := r.stored idx && !(0x7080 ≤ idx && idx < 0x70C0)

/-- The records of index `idx`, in ascending subindex. -/
def State.indexRecords (s : State) (idx : Nat) : List StoreRec :=
  match objRows.filter fun r => r.hasIndex idx && stored idx r with
  | [] => []
  | rows => (List.range 256).filterMap fun sub =>
    (rows.find? fun r => r.has idx sub).map fun r => ⟨idx, sub, (s.objRead idx sub r).1⟩

/-- The records of all entries but the group lists, in ascending index and subindex (R449). -/
def State.plainRecords (s : State) : List StoreRec := (List.range 0x10000).flatMap s.indexRecords

/-- The size of a record: INDEX, SUB, a reserved byte, LENGTH and the value (R449). -/
def StoreRec.size (r : StoreRec) : Nat := 8 + r.value.length

/-- The bytes of records that one copy holds, less the end record (R449). -/
def storeRoom : Nat := 512 * 4064 - 8

/-- The group lists that still fit, in ascending g, after `used` bytes; the others are left out whole (R449). -/
def State.groupRecords (s : State) (used : Nat) : List StoreRec :=
  ((List.range 64).foldl (fun (a : List StoreRec × Nat) g =>
    let r : StoreRec := ⟨0x7080 + g, 0, s.rdB (K.groups.GROUP g)⟩
    if a.2 + r.size ≤ storeRoom then (r :: a.1, a.2 + r.size) else a) ([], used)).1.reverse

/-- The capture of the dictionary at this instant (R449). -/
def State.capture (s : State) : List StoreRec :=
  let plain := s.plainRecords
  plain ++ s.groupRecords (plain.map StoreRec.size).sum

/-- Stores that the flash has not finished count as done when the next one chooses its copy. -/
def Flash.storesAfter (f : Flash) : Tbl StoreCopy :=
  f.ops.foldl (fun t op => match op with
    | .store k c => Tbl.ins t k c
    | .restoreMark => Tbl.mapVals t fun _ c => { c with valid := false }
    | _ => t) f.stores

/-- How old copy `k` is: 0 where it is absent or not valid, else its STORE_SEQ plus 1. -/
def copyAge (t : Tbl StoreCopy) (k : Nat) : Nat :=
  match Tbl.at? t k with
  | some c => if c.valid then c.seq + 1 else 0
  | none => 0

/-- The copy that a store overwrites: the older one (R449). -/
def olderCopy (t : Tbl StoreCopy) : Nat := if copyAge t 1 < copyAge t 0 then 1 else 0

/-- A write of STORE_ALL (R449): its response is owed until the copy stands in flash. -/
def State.storeAll (s : State) (value : Nat) (flashFits : Bool) : WriteResult :=
  if value ≠ 0x65766173 then .refuse .range s
  else if !flashFits then .refuse .unusable s
  else
    let t := s.flash.storesAfter
    let recs := s.capture
    let held := (recs.filter fun r => 0x7080 ≤ r.idx && r.idx < 0x70C0).length
    let c : StoreCopy :=
      ⟨true, (t.foldl (fun m p => max m p.2.seq) 0 + 1) % 2 ^ 32, headFw s.runningHead, recs⟩
    let s := s.bumpBy K.stores.STORE_OMITTED (64 - held)
    .delay .flash (s.modFlash fun f => { f with ops := f.ops ++ [.store (olderCopy t) c] })

/-- A write of RESTORE_ALL (R451): both copies are marked invalid; no object in force changes. -/
def State.restoreAll (s : State) (value : Nat) : WriteResult :=
  if value ≠ 0x64616F6C then .refuse .range s
  else .accept (s.modFlash fun f => { f with ops := f.ops ++ [.restoreMark] })

end Sys2Proof.Machine
end

