-- ==== Sys2Proof/Machine/DictWrite.lean ====
section
/-! DEFINITION. Writes of dictionary objects (R430, R431): the checks in the order of R430, each object's own rules, and the
effect of the write. -/

namespace Sys2Proof.Machine

/-- The path belongs to the host (R361). -/
def pathHost : Path → Bool
  | .can => true
  | .udp _ => true
  | .spi => true
  | .store => false
  | .firmware => false

/-- Refuse with `a` where the condition holds; else store the value. -/
def State.writeUnless (s : State) (bad : Bool) (a : Abort) (r : Reg) (v : Nat) : WriteResult :=
  if bad then .refuse a s else .accept (s.wr r v)

/-! Levels, principals, reset (R434, R439, R448). -/

/-- A slot that no management principal may name (R439). -/
def State.mgmtSlotTaken (s : State) (slot : Nat) : Bool :=
  slot == 992 || slot == s.rd K.dom.DOMAIN_KEY_SLOT || slot == s.rd K.adm.ADMIT_KEK_SLOT ||
    (List.range 16).any fun k => s.flag (K.sess.SESS_ENABLE k) && s.rd (K.sess.KEY_SLOT k) == slot

/-- A write of principal `m`'s configuration: its replay window is empty after it (R440). -/
def State.mgmtWrite (s : State) (m sub v : Nat) : WriteResult :=
  let r := match sub with
    | 1 => K.mgmt.MGMT_ENABLE m
    | 2 => K.mgmt.MGMT_KEY_SLOT m
    | _ => K.mgmt.MGMT_LEVEL m
  if sub = 1 && v = 1 && s.mgmtSlotTaken (s.rd (K.mgmt.MGMT_KEY_SLOT m)) then .refuse .unusable s
  else .accept ((s.wr r v).modMgmt fun x => { x with windows := Tbl.del x.windows m })

/-- DETAIL of a commanded reset (R447). -/
def pathDetail : Path → Nat
  | .can => 0
  | .udp _ => 1
  | _ => 2

/-- A write of RESET (R448): the device resets 10 ms after the response; a reset already due keeps its instant. -/
def State.resetWrite (s : State) (via : Path) (v : Nat) : WriteResult :=
  if v ≠ 0x74657372 then .refuse .range s
  else .accept (s.modSys fun y => { y with resetDue := y.resetDue.orElse fun _ => some (s.now + msTicks 10, pathDetail via) })

/-! Segments (R160, R185, R187, R195, R229, R233). -/

/-- A threshold write keeps its order among the three (R185). -/
def ordered3 (a b c : Nat) : Bool := a < b && b < c

/-- The regions lie in the period and do not overlap (R187, R188, R229). -/
def regionsFit (cycles slots first count : Nat) : Bool :=
  slots ≤ first && slots ≤ 24 * cycles && first + count ≤ 24 * cycles

/-- A reach beacon of LEN 255 lasts no more than half the period at 70 Hz (R195). -/
def reachFits (v cycles pre : Nat) : Bool :=
  field v 4 2 = 0 || 2 * 70 * swellTicks false 0 255 (field v 0 4) pre ≤ cycles * Config.tickHz

/-- REACH_BEACON names a sub-band and an SF that exist (R229). -/
def reachGood (v : Nat) : Bool := field v 4 2 = 0 || (field v 4 2 ≤ 2 && 7 ≤ field v 0 4 && field v 0 4 ≤ 14)

/-- The longest stored SWELL_PRE_LEN of the members of segment `g`; its default where it has none. -/
def State.storedPre (s : State) (g : Nat) : Nat :=
  ((List.range (s.rd (K.seg.MEMBER_COUNT g))).map fun j => s.rd (K.ch.SWELL_PRE_LEN (s.rd (K.seg.MEMBER g j)))).foldl max
    (if s.rd (K.seg.MEMBER_COUNT g) = 0 then 8 else 0)

/-- A write of SEG_PHASE_OFFSET (R160): it is in force with the next beacon period, on a disabled segment at once. -/
def State.offsetWrite (s : State) (g v : Nat) : WriteResult :=
  let s := s.wr (K.seg.SEG_PHASE_OFFSET g) v
  .accept (s.modSeg g fun x => if s.segEnabled g then { x with offsetDue := true } else { x with offset := sgn 16 v })

/-- A write of an entry of segment `g` that has rules of its own. -/
def State.segmentWrite (s : State) (g sub v : Nat) : Option WriteResult :=
  let noise := fun (k : Nat) => if sub = 0x23 + k then v else 
      s.rd ([K.seg.NOISE_1 g, K.seg.NOISE_2 g, K.seg.NOISE_3 g].getD k (K.seg.NOISE_1 g))
  let imp := fun (k : Nat) => if sub = 0x26 + k then v else 
      s.rd ([K.seg.IMP_1 g, K.seg.IMP_2 g, K.seg.IMP_3 g].getD k (K.seg.IMP_1 g))
  let cycles := if sub = 0x30 then v else s.rd (K.seg.BP_CYCLES g)
  let slots := if sub = 0x32 then v else s.rd (K.seg.BEACON_SLOTS g)
  let first := if sub = 0x33 then v else s.rd (K.seg.CR_FIRST g)
  let count := if sub = 0x34 then v else s.rd (K.seg.CR_COUNT g)
  let reach := if sub = 0x3D then v else s.rd (K.seg.REACH_BEACON g)
  let fits := regionsFit cycles slots first count && reachGood reach && reachFits reach cycles (s.storedPre g)
  match sub with
  | 0x01 => some (if v = 1 then s.segEnableWrite g else .accept (s.segDisableWrite g))
  | 0x22 => some (s.offsetWrite g v)
  | 0x23 => some (s.writeUnless (!ordered3 (noise 0) (noise 1) (noise 2)) .range (K.seg.NOISE_1 g) v)
  | 0x24 => some (s.writeUnless (!ordered3 (noise 0) (noise 1) (noise 2)) .range (K.seg.NOISE_2 g) v)
  | 0x25 => some (s.writeUnless (!ordered3 (noise 0) (noise 1) (noise 2)) .range (K.seg.NOISE_3 g) v)
  | 0x26 => some (s.writeUnless (!ordered3 (imp 0) (imp 1) (imp 2)) .range (K.seg.IMP_1 g) v)
  | 0x27 => some (s.writeUnless (!ordered3 (imp 0) (imp 1) (imp 2)) .range (K.seg.IMP_2 g) v)
  | 0x28 => some (s.writeUnless (!ordered3 (imp 0) (imp 1) (imp 2)) .range (K.seg.IMP_3 g) v)
  | 0x30 => some (s.writeUnless (!fits) .range (K.seg.BP_CYCLES g) v)
  | 0x32 => some (s.writeUnless (!fits) .range (K.seg.BEACON_SLOTS g) v)
  | 0x33 => some (s.writeUnless (!fits) .range (K.seg.CR_FIRST g) v)
  | 0x34 => some (s.writeUnless (!fits) .range (K.seg.CR_COUNT g) v)
  | 0x3D => some (s.writeUnless (!fits) .range (K.seg.REACH_BEACON g) v)
  | 0x40 => some (s.nextActivateWrite g v)
  | 0x42 => some (s.writeUnless (v ≠ 8 && v ≠ 16) .range (K.seg.TAG_LEN g) v)
  | _ => none

/-! Channels (R59, R60, R90, R119, R195). -/

/-- A mask range that is active is neither reversed nor outside carriers 36 to 1,720 (R90). -/
def maskGood (v : Nat) : Bool :=
  !bitOf v 31 || (36 ≤ field v 0 11 && field v 0 11 ≤ field v 16 11 && field v 16 11 ≤ 1720)

/-- A SWELL_PRE_LEN with which every reach beacon of a segment of channel `n` still fits (R195). -/
def State.preGood (s : State) (n v : Nat) : Bool :=
  (List.range 64).all fun g =>
    !((List.range (s.rd (K.seg.MEMBER_COUNT g))).any fun j => s.rd (K.seg.MEMBER g j) == n) ||
      reachFits (s.rd (K.seg.REACH_BEACON g)) (s.rd (K.seg.BP_CYCLES g)) v

/-- A write of an entry of channel `n` that has rules of its own. -/
def State.channelWrite (s : State) (n sub v : Nat) : Option WriteResult :=
  if sub = 1 then some (.accept (if v = 1 then s.channelOn n else s.channelOff n))
  else if 0x0B ≤ sub && sub ≤ 0x12 then some (s.writeUnless (!maskGood v) .range (K.ch.MASK n (sub - 0x0B)) v)
  else if sub = 0x16 then some (s.writeUnless (!s.preGood n v) .range (K.ch.SWELL_PRE_LEN n) v)
  else none

/-! Mains units (R374, R381, R384–R386, R392). -/

/-- TRIG_PARAM suits the source: a schedule period of at least 20 µs, every 1st to 255th cycle (R386). -/
def paramGood (source v : Nat) : Bool := !(source == 1 && v < 20) && !(source == 2 && field v 16 8 == 0)

/-- A write of an entry of unit `u` that has rules of its own. -/
def State.unitWrite (s : State) (u sub v : Nat) : Option WriteResult :=
  if 1 ≤ sub && sub ≤ 4 then some (s.mainsRestartWrite u sub v)
  else if sub = 0x0A && !paramGood (s.rd (K.mc.TRIG_SOURCE u)) v then some (.refuse .range s)
  else if sub = 0x0C then some (s.trigNow u v)
  else match s.mainsEntryRefused u sub v with
    | some a => some (.refuse a s)
    | none => none

/-- A write of USER_COEF: 32 or 20 values (R392). -/
def State.coefWrite (s : State) (u : Nat) (data : List Byte) : WriteResult :=
  if data.length ≠ 128 && data.length ≠ 80 then .refuse .range s else .accept (s.wrB (K.mc.USER_COEF u) data)

/-- A write of a group entry (R386, R388). -/
def State.groupWrite (s : State) (sub v : Nat) : Option WriteResult :=
  match sub with
  | 2 => if paramGood (s.rd K.grp.GROUP_SOURCE) v then none else some (.refuse .range s)
  | 4 => some (s.groupTrigNow v)
  | _ => none

/-! Check units and the scratch window (R356, R358, R361, R362). -/

/-- The word at `off` is one that the run of unit `u` reads (R357). -/
def State.scanned (s : State) (u off : Nat) : Bool :=
  let r := s.cuConfig u
  off / 8 * 8 < r.start + r.len && r.start < off / 8 * 8 + 8 && r.len ≠ 0

/-- A word that a run reads is faulty (R358): a word in the host scratch window costs the run alone, any other is also counted and
acted on (R23); the reader is core C5 for CU6 and C0 for CU7. -/
def State.scanWord (s : State) (u : Nat) (scan : Option (Nat × Ecc)) : State :=
  match scan with
  | none => s
  | some (off, ecc) =>
    if !s.scanned u off then s
    else if ecc = .uncorrectable && scratchBase ≤ off && off < scratchBase + scratchSize then s
    else s.wmEcc off ecc (if u = 6 then some 5 else if u = 7 then some 0 else none)

/-- The scan of a run meets an uncorrectable word. -/
def State.scanFails (s : State) (u : Nat) (scan : Option (Nat × Ecc)) : Bool :=
  match scan with
  | some (off, .uncorrectable) => s.scanned u off
  | _ => false

/-- A write of GO (R356) with the faulty word that the scan meets. -/
def State.goWrite (s : State) (via : Path) (u v : Nat) (scan : Option (Nat × Ecc)) : WriteResult :=
  let r := s.cuGo (pathHost via) u v (s.scanFails u scan)
  if !s.cuBusy u && r.state.cuBusy u then .accept (r.state.scanWord u scan) else r

/-! Transactions, backhaul, time, domain (R302, R425). -/

/-- A write of a group list: whole addresses of 4 bytes, at most 16,384 of them, at most 262,144 in all groups (R302). -/
def State.listWrite (s : State) (g : Nat) (data : List Byte) : WriteResult :=
  let others := ((List.range 64).filter (· ≠ g)).map fun h => (s.rdB (K.groups.GROUP h)).length
  if data.length % 4 ≠ 0 then .refuse .length s
  else if 4 * 16384 < data.length then .refuse .range s
  else if 4 * 262144 < others.sum + data.length then .refuse .resources s
  else .accept (s.wrB (K.groups.GROUP g) data)

/-- A session entry (R425): refusals of its own, then the value, and the session's replay window is empty. -/
def State.sessionWrite (s : State) (k sub v : Nat) (data : List Byte) : WriteResult :=
  match s.sessionRefused k sub v with
  | some a => .refuse a s
  | none =>
    let t := match sub with
      | 1 => s.wr (K.sess.SESS_ENABLE k) v
      | 2 => s.wr (K.sess.SESS_PORT k) v
      | 3 => s.wr (K.sess.KEY_SLOT k) v
      | 4 => s.wr (K.sess.SESSION_ID k) v
      | 5 => s.wrB (K.sess.PEER_ADDR k) data
      | 6 => s.wr (K.sess.PEER_UDP_PORT k) v
      | _ => s.wr (K.sess.REPORTS k) v
    .accept (t.sessionChanged k)

/-- A write of a port entry (R425): an address of its own replaces the fused one; PREFIX_LEN is at most 32 with IPv4. -/
def State.portWrite (s : State) (p sub v : Nat) (data : List Byte) : Option WriteResult :=
  match sub with
  | 1 => some (.accept (s.modDict fun d => Tbl.ins d (K.port.MAC_ADDR p).key v))
  | 2 => some (s.writeUnless (v ≠ 4 && v ≠ 6) .range (K.port.IP_VERSION p) v)
  | 3 => some (.accept (s.wrB (K.port.IP_ADDR p) data))
  | 4 => some (s.writeUnless (s.rd (K.port.IP_VERSION p) = 4 && 32 < v) .range (K.port.PREFIX_LEN p) v)
  | 5 => some (.accept (s.wrB (K.port.GATEWAY p) data))
  | _ => none

/-! The dispatcher. -/

/-- A refusal that comes before the stated range, because the chapter gives the rule first (R233, R356, R361, R381, R439). -/
def State.refusedFirst (s : State) (via : Path) (idx sub v : Nat) : Option Abort :=
  if 0x1E00 ≤ idx && idx < 0x1E08 then
    (if sub = 2 && s.mgmtSlotTaken v then some .unusable else none)
  else if 0x3400 ≤ idx && idx < 0x3440 then
    (if 2 ≤ sub && sub ≤ 0x0A && s.segEnabled (idx - 0x3400) then some .state else none)
  else if 0x4000 ≤ idx && idx < 0x4040 then
    (if sub ≠ 0x0C && s.partnerOf (idx - 0x4000) then some .state else none)
  else if 0x6000 ≤ idx && idx < 0x6008 then
    (if sub ≠ 0x0B && !s.cuConfigAllowed (pathHost via) (idx - 0x6000) then some .state else none)
  else none

/-- Writes of device-wide objects with rules of their own (R158, R335, R346–R348, R350, R448). -/
def State.deviceWrite (s : State) (via : Path) (env : WriteEnv) (idx sub v : Nat) (data : List Byte) : Option WriteResult :=
  if idx = 0x2001 then some (s.resetWrite via v)
  else if idx = 0x2100 && sub = 1 then some (s.refUnitWrite v)
  else if idx = 0x2100 && sub = 2 then some (s.writeUnless (v ≠ 50 && v ≠ 60) .range K.trk.NOMINAL_FREQ v)
  else if idx = 0x2200 && sub = 3 then some (s.vaultClear v)
  else if idx = 0x2201 then
    (match sub with
      | 5 => some (s.commitVersion v)
      | 6 => some (s.imageWrite data)
      | 7 => some (if s.running then s.imageVerify v env.vaultOk else .refuse .state s)
      | 9 => some (s.rootRevoke v)
      | _ => none)
  else if idx = 0x2203 then
    (match sub with
      | 1 => some (s.admitMode v)
      | 3 => some (s.writeUnless (v ≠ 128 && v ≠ 256) .range K.adm.ADMIT_JK_BITS v)
      | 4 => some (s.admitWrite data)
      | _ => none)
  else none

/-- Writes from 0x7000 to 0x71FF with rules of their own (R302, R425). -/
def State.backhaulWrite (s : State) (idx sub v : Nat) (data : List Byte) : Option WriteResult :=
  if 0x7010 ≤ idx && idx < 0x7014 && sub = 2 then
    some (s.writeUnless (s.rd (K.cls.MAX_TIMEOUT (idx - 0x7010)) < v) .range (K.cls.DEFAULT_TIMEOUT (idx - 0x7010)) v)
  else if 0x7080 ≤ idx && idx < 0x70C0 then some (s.listWrite (idx - 0x7080) data)
  else if idx = 0x7100 && sub = 0x0A then some (.accept (s.wrB K.bh.DOMAIN_GROUP data))
  else if 0x7101 ≤ idx && idx < 0x7105 then s.portWrite (idx - 0x7101) sub v data
  else if 0x7110 ≤ idx && idx < 0x7120 then some (s.sessionWrite (idx - 0x7110) sub v data)
  else if idx = 0x7130 && sub = 0x10 then some (s.timeSet v)
  else none

/-- Writes of counter, sampling and test objects with rules of their own (R362, R465, R475, R514). -/
def State.testWrite (s : State) (idx sub v : Nat) (data : List Byte) : Option WriteResult :=
  if idx = 0x9001 then
    (match sub with
      | 1 => some (s.sampleEnable v)
      | 2 => some (s.sampleConfig K.samp.SAMPLE_SOURCE v)
      | 3 => some (s.sampleConfig K.samp.SAMPLE_N v)
      | _ => none)
  else if 0x9010 ≤ idx && idx < 0x901C then
    some (if sub = 9 then s.bankClear (idx - 0x9010) v else s.selWrite (idx - 0x9010) (sub - 1) v)
  else if idx = 0xA020 && sub = 2 then some (s.scratchWrite data)
  else if idx = 0xA030 && sub = 1 then some (s.loopStart v)
  else none

/-- The write of an entry whose value has passed R428 and its stated range; none where the object has no rules of its own. -/
def State.writeSpecial (s : State) (via : Path) (env : WriteEnv) (idx sub v : Nat) (data : List Byte) : Option WriteResult :=
  if idx < 0x2000 then
    (if idx = 0x1010 then some (s.storeAll v env.flashFits)
     else if idx = 0x1011 then some (s.restoreAll v)
     else if 0x1E00 ≤ idx then some (s.mgmtWrite (idx - 0x1E00) sub v)
     else none)
  else if idx < 0x3000 then s.deviceWrite via env idx sub v data
  else if idx < 0x3100 then s.channelWrite (idx - 0x3000) sub v
  else if idx < 0x3440 then s.segmentWrite (idx - 0x3400) sub v
  else if 0x4000 ≤ idx && idx < 0x4040 then
    (if sub = 0x21 then some (s.coefWrite (idx - 0x4000) data) else s.unitWrite (idx - 0x4000) sub v)
  else if idx = 0x408F then s.groupWrite sub v
  else if 0x5000 ≤ idx && idx < 0x5400 then
    some (if sub = 1 then s.loadOrWait (idx - 0x5000) data env
      else .accept (if v = 1 then s.eraseKey (idx - 0x5000) else s))
  else if 0x5400 ≤ idx && idx < 0x5800 && sub = 9 then some (s.boundWrite (idx - 0x5400) v)
  else if 0x5800 ≤ idx && idx < 0x5840 then some (s.faultClear (idx - 0x5800) v)
  else if 0x6000 ≤ idx && idx < 0x6008 && sub = 0x0B then some (s.goWrite via (idx - 0x6000) v env.scan)
  else if 0x7000 ≤ idx && idx < 0x7200 then s.backhaulWrite idx sub v data
  else if 0x8000 ≤ idx && idx < 0x8100 && sub = 6 then some (s.cursorDisassociate (idx - 0x8000) v)
  else if 0x9000 ≤ idx then s.testWrite idx sub v data
  else none

/-- The length of the written value suits the type (R428); the lengths of KEY_LOAD and of DOMAIN objects are judged by their own
rules. -/
def ObjType.lengthGood (t : ObjType) (n : Nat) : Bool :=
  match t with
  | .octets2 _ _ => true
  | .visible => true
  | .domain => true
  | t => n == t.bytes

/-- The value lies in the stated range of its row (R428). -/
def ObjRow.inRange (r : ObjRow) (v : Nat) : Bool :=
  match r.ty with
  | .boolean => v ≤ 1
  | .unsigned _ => r.lo ≤ (v : Int) && (v : Int) ≤ r.hi
  | .integer n => r.lo ≤ sgn (8 * n) v && sgn (8 * n) v ≤ r.hi
  | _ => true

/-- The value that a write stores: reserved bits are ignored (R8). -/
def ObjRow.kept (r : ObjRow) (v : Nat) : Nat :=
  match r.ty with
  | .unsigned _ => v &&& r.mask
  | _ => v

/-- Store a value in the register of an entry. -/
def State.storeRaw (s : State) (idx sub v : Nat) : State :=
  s.modDict fun d => Tbl.store (objDefault (idx * 256 + sub)) d (idx * 256 + sub) v

/-- A write of entry `idx:sub`, whose row is `r`: checks 5 and 6 of R430, then its effect in one step (R431). -/
def State.objWrite (s : State) (via : Path) (env : WriteEnv) (idx sub : Nat) (r : ObjRow) (data : List Byte) : WriteResult :=
  if !r.ty.lengthGood data.length then .refuse .length s
  else
    let v := r.kept (ofLe data)
    match s.refusedFirst via idx sub v with
    | some a => .refuse a s
    | none =>
      if !r.inRange v then .refuse .range s
      else (s.writeSpecial via env idx sub v data).getD (.accept (s.storeRaw idx sub v))

/-- A write of the dictionary on path `via` (R430). -/
def State.writeObject (s : State) (via : Path) (env : WriteEnv) (idx sub : Nat) (data : List Byte) : WriteResult :=
  match s.writeRefused via idx sub with
  | .inl a => .refuse a s
  | .inr r => s.objWrite via env idx sub r data

/-- A write of the dictionary with its outcome left in the state. -/
def State.dictWrite (s : State) (via : Path) (env : WriteEnv) (idx sub : Nat) (data : List Byte) : State :=
  if s.answers via then (s.writeObject via env idx sub data).answered else s

end Sys2Proof.Machine
end

