-- ==== Sys2Proof/Machine/Dictionary.lean ====
section
/-! DEFINITION. The commands that are reads and writes of one dictionary object: each goes through the checks of R430 on its path
and leaves its outcome in the state. Numbers of objects are taken modulo the size of their family (assumption log, entry 1). -/

namespace Sys2Proof.Machine

/-- The index of channel `n`'s configuration (R59). -/
def chanIndex (n : Nat) : Nat := 0x3000 + n % 256

/-- RESET (R448): a write of 0x2001:01. -/
def execReset (via : Path) (value : Nat) (s : State) : Out :=
  keepQueue s (s.dictWrite via {} 0x2001 0x01 (leBytes 4 value))

/-- CHANNEL_ENABLE (R60): TRUE to ENABLE of the channel. -/
def execChannelEnable (via : Path) (channel : Nat) (s : State) : Out :=
  keepQueue s (s.dictWrite via {} (chanIndex channel) 0x01 [1])

/-- CHANNEL_DISABLE (R60): FALSE to ENABLE of the channel. -/
def execChannelDisable (via : Path) (channel : Nat) (s : State) : Out :=
  keepQueue s (s.dictWrite via {} (chanIndex channel) 0x01 [0])

/-- BW_PEAK_READ (R55, R61): the fill that the breakwater has now counts towards the peak that the read returns, and becomes the
new peak. -/
def execBwPeakRead (via : Path) (channel fill : Nat) (s : State) : Out :=
  let f := min 8192 fill
  let t := s.modChan (channel % 256) fun c => { c with fill := f, peak := max c.peak f }
  keepQueue s ((if s.running then t else s).dictRead via (0x3100 + channel % 256) 0x0C)

/-- STICKY_FLAG_READ (R61): a read of an entry; where the entry is a sticky flag, the read clears it. -/
def execStickyFlagRead (via : Path) (idx sub : Nat) (s : State) : Out :=
  keepQueue s (s.dictRead via idx sub)

/-- REF_UNIT (R158). -/
def execRefUnit (via : Path) (value : Nat) (s : State) : Out :=
  keepQueue s (s.dictWrite via {} 0x2100 0x01 (leBytes 1 value))

/-- CURSOR_SELECT (R231): a write of SEGMENT (sub 1) or SHORT_ADDR (sub 2) of a cursor. -/
def execCursorSelect (via : Path) (cursor sub value : Nat) (s : State) : Out :=
  keepQueue s (s.dictWrite via {} (0x8000 + cursor % 256) sub (leBytes (if sub = 1 then 1 else 2) value))

/-- CURSOR_DISASSOCIATE (R231). -/
def execCursorDisassociate (via : Path) (cursor value : Nat) (s : State) : Out :=
  keepQueue s (s.dictWrite via {} (0x8000 + cursor % 256) 0x06 (leBytes 1 value))

/-- SEG_ENABLE (R234): TRUE to SEG_ENABLE. -/
def execSegEnable (via : Path) (seg : Nat) (s : State) : Out :=
  keepQueue s (s.dictWrite via {} (0x3400 + seg % 64) 0x01 [1])

/-- SEG_DISABLE (R235): FALSE to SEG_ENABLE. -/
def execSegDisable (via : Path) (seg : Nat) (s : State) : Out :=
  keepQueue s (s.dictWrite via {} (0x3400 + seg % 64) 0x01 [0])

/-- A write of a key slot, or of a lock of the cipher engines: C7 carries out what the dictionary server of C0 has taken (R25). In recovery mode
no server has these objects, and the write is refused there (R345). -/
def onKeys (s t : State) : Out := keepQueue s (if (Tbl.at? s.sys.halted 7).isNone then t else s)

/-- KEY_LOAD (R305). -/
def execKeyLoad (via : Path) (slot : Nat) (data : List Byte) (env : WriteEnv) (s : State) : Out :=
  onKeys s (s.dictWrite via env (0x5000 + slot % 1024) 0x01 data)

/-- ERASE (R310). -/
def execErase (via : Path) (slot value : Nat) (s : State) : Out :=
  onKeys s (s.dictWrite via {} (0x5000 + slot % 1024) 0x02 (leBytes 1 value))

/-- BOUND_EUI (R314). -/
def execBoundEui (via : Path) (slot eui : Nat) (s : State) : Out :=
  onKeys s (s.dictWrite via {} (0x5400 + slot % 1024) 0x09 (leBytes 8 eui))

/-- NEXT_ACTIVATE (R321). -/
def execNextActivate (via : Path) (seg second : Nat) (s : State) : Out :=
  keepQueue s (s.dictWrite via {} (0x3400 + seg % 64) 0x40 (leBytes 4 second))

/-- ADMIT_MODE (R318). -/
def execAdmitMode (via : Path) (mode : Nat) (s : State) : Out :=
  keepQueue s (s.dictWrite via {} 0x2203 0x01 (leBytes 1 mode))

/-- ADMIT_WRITE (R319). -/
def execAdmitWrite (via : Path) (data : List Byte) (s : State) : Out :=
  keepQueue s (s.dictWrite via {} 0x2203 0x04 data)

/-- FAULT_CLEAR (R333). -/
def execFaultClear (via : Path) (engine value : Nat) (s : State) : Out :=
  onKeys s (s.dictWrite via {} (0x5800 + engine % 64) 0x08 (leBytes 1 value))

/-- VAULT_CLEAR (R335). -/
def execVaultClear (via : Path) (value : Nat) (s : State) : Out :=
  keepQueue s (s.dictWrite via {} 0x2200 0x03 (leBytes 1 value))

/-- COMMIT_SECURITY_VERSION (R346). -/
def execCommitSecurityVersion (via : Path) (value : Nat) (s : State) : Out :=
  keepQueue s (s.dictWrite via {} 0x2201 0x05 (leBytes 1 value))

/-- ROOT_REVOKE (R346). -/
def execRootRevoke (via : Path) (value : Nat) (s : State) : Out :=
  keepQueue s (s.dictWrite via {} 0x2201 0x09 (leBytes 1 value))

/-- IMAGE_DATA (R348). -/
def execImageData (via : Path) (data : List Byte) (s : State) : Out :=
  keepQueue s (s.dictWrite via {} 0x2201 0x06 data)

/-- IMAGE_VERIFY (R347). -/
def execImageVerify (via : Path) (value : Nat) (vaultOk : Bool) (s : State) : Out :=
  keepQueue s (s.dictWrite via { vaultOk := vaultOk } 0x2201 0x07 (leBytes 1 value))

/-- CU_GO (R356). -/
def execCuGo (via : Path) (unit value : Nat) (scan : Option (Nat × Ecc)) (s : State) : Out :=
  keepQueue s (s.dictWrite via { scan := scan } (0x6000 + unit % 8) 0x0B (leBytes 1 value))

/-- SCRATCH_DATA_WRITE (R362). -/
def execScratchDataWrite (via : Path) (data : List Byte) (s : State) : Out :=
  keepQueue s (s.dictWrite via {} 0xA020 0x02 data)

/-- MAINS_UNIT_RESTART (R384): a write of MODE (sub 1), PATH (2), ACQ (3) or INPUT_SEL (4). -/
def execMainsUnitRestart (via : Path) (unit sub value : Nat) (s : State) : Out :=
  keepQueue s (s.dictWrite via {} (0x4000 + unit % 64) sub (leBytes 1 value))

/-- TRIG_NOW (R386). -/
def execTrigNow (via : Path) (unit value : Nat) (s : State) : Out :=
  keepQueue s (s.dictWrite via {} (0x4000 + unit % 64) 0x0C (leBytes 1 value))

/-- GROUP_TRIG_NOW (R388). -/
def execGroupTrigNow (via : Path) (value : Nat) (s : State) : Out :=
  keepQueue s (s.dictWrite via {} 0x408F 0x04 (leBytes 1 value))

/-- EVENT_READ (R397). -/
def execEventRead (via : Path) (unit j : Nat) (s : State) : Out :=
  keepQueue s (s.dictRead via (0x4040 + unit % 64) (0x05 + j % 2))

/-- SESSION_WRITE (R425): an entry of session `session`. -/
def execSessionWrite (via : Path) (session sub : Nat) (data : List Byte) (s : State) : Out :=
  keepQueue s (s.dictWrite via {} (0x7110 + session % 16) sub data)

/-- TIME_SET (R416). -/
def execTimeSet (via : Path) (value : Nat) (s : State) : Out :=
  keepQueue s (s.dictWrite via {} 0x7130 0x10 (leBytes 8 value))

/-- STORE_ALL (R449). -/
def execStoreAll (via : Path) (value : Nat) (flashFits : Bool) (s : State) : Out :=
  keepQueue s (s.dictWrite via { flashFits := flashFits } 0x1010 0x01 (leBytes 4 value))

/-- RESTORE_ALL (R451). -/
def execRestoreAll (via : Path) (value : Nat) (s : State) : Out :=
  keepQueue s (s.dictWrite via {} 0x1011 0x01 (leBytes 4 value))

/-- OBJECT_WRITE (R430, R431): an entry without a row of its own. -/
def execObjectWrite (via : Path) (idx sub : Nat) (data : List Byte) (s : State) : Out :=
  keepQueue s (s.dictWrite via {} idx sub data)

/-- LOOP_TEST (R514). -/
def execLoopTest (via : Path) (channel : Nat) (s : State) : Out :=
  keepQueue s (s.dictWrite via {} 0xA030 0x01 (leBytes 1 channel))

/-- SEL_WRITE (R465). -/
def execSelWrite (via : Path) (bank k value : Nat) (s : State) : Out :=
  keepQueue s (s.dictWrite via {} (0x9010 + bank % 12) (0x01 + k % 8) (leBytes 2 value))

/-- BANK_CLEAR (R465). -/
def execBankClear (via : Path) (bank value : Nat) (s : State) : Out :=
  keepQueue s (s.dictWrite via {} (0x9010 + bank % 12) 0x09 (leBytes 1 value))

/-- SAMPLE_RING_READ (R475). -/
def execSampleRingRead (via : Path) (s : State) : Out :=
  keepQueue s (s.dictRead via 0x9001 0x06)

/-- SAMPLE_CONFIG_WRITE (R475): a write of SAMPLE_SOURCE (sub 2) or SAMPLE_N (sub 3). -/
def execSampleConfigWrite (via : Path) (sub value : Nat) (s : State) : Out :=
  keepQueue s (s.dictWrite via {} 0x9001 sub (leBytes (if sub = 3 then 2 else 1) value))

end Sys2Proof.Machine
end

