-- ==== Sys2Proof/Machine/Sdo.lean ====
section
/-! DEFINITION. The CAN FD port and its SDO server (R435–R438). -/

namespace Sys2Proof.Machine

/-- The CAN FD port takes part on the bus (R435, R436): it has a node ID and is not bus-off; the device is out of reset. -/
def State.canOn (s : State) : Bool := s.answers .can && s.sys.canId % 128 != 0 && !s.mgmt.busOff

/-- Change what the transports hold. -/
def State.setCanXfer (s : State) (x : Option Xfer) : State := s.modMgmt fun m => { m with canXfer := x }

/-- Send a frame: 64 bytes, unused bytes 0 (R436, R437). -/
def State.canSend (s : State) (bytes : List Byte) : State :=
  s.modMgmt fun m => { m with canTx := (bytes ++ List.replicate 64 0).take 64 }

/-- Bytes 0 to 3 of an initiate or abort frame (R437). -/
def sdoHead (cmd idx sub : Nat) : List Byte := leBytes 1 cmd ++ leBytes 2 idx ++ leBytes 1 sub

/-- An abort frame of the server (R437): the open transfer ends without effect. -/
def State.sdoFail (s : State) (idx sub : Nat) (a : Abort) : State :=
  ((s.setCanXfer none).answer a.code []).canSend (sdoHead 0x80 idx sub ++ leBytes 4 a.code)

/-- 1.0 s from now, when a transfer times out (R438). -/
def State.sdoDue (s : State) : Nat := s.now + secTicks 1

/-- A write has all its bytes: it is checked and applied, and answered with `ok` or with an abort frame (R431, R437). -/
def State.sdoApply (s : State) (env : WriteEnv) (idx sub : Nat) (data ok : List Byte) : State :=
  let w := (s.setCanXfer none).writeObject .can env idx sub data
  match w.later, w.abort with
  | some k, _ => w.state.owe k (.can idx sub ok)
  | none, some a => w.state.sdoFail idx sub a
  | none, none => (w.state.answer 0 []).canSend ok

/-- Initiate download, expedited (R437): 1 to 59 bytes. -/
def State.sdoExpedited (s : State) (f : List Byte) (env : WriteEnv) (idx sub : Nat) : State :=
  let n := ofLe ((f.drop 4).take 1)
  if n = 0 || 59 < n then s.sdoFail idx sub .command
  else s.sdoApply env idx sub ((f.drop 5).take n) (sdoHead 0x60 idx sub)

/-- Initiate download, segmented (R437): it opens a write of a stated total length. -/
def State.sdoDownload (s : State) (f : List Byte) (idx sub : Nat) : State :=
  (s.setCanXfer (some ⟨true, idx, sub, ofLe ((f.drop 4).take 4), [], 0, false, s.sdoDue⟩)).canSend (sdoHead 0x60 idx sub)

/-- A download segment (R437): toggle, count and total are checked; the last segment applies the write. -/
def State.sdoDownSegment (s : State) (f : List Byte) (env : WriteEnv) (toggle last : Bool) : State :=
  match s.mgmt.canXfer with
  | none => s.sdoFail 0 0 .command
  | some x =>
    let n := ofLe ((f.drop 1).take 1)
    let data := x.data ++ (f.drop 2).take n
    let ok := leBytes 1 (0x20 + boolNat toggle * 0x10)
    if !x.write || n = 0 || 62 < n then s.sdoFail x.idx x.sub .command
    else if toggle ≠ x.toggle then s.sdoFail x.idx x.sub .toggle
    else if x.total < data.length || (last && data.length ≠ x.total) then s.sdoFail x.idx x.sub .length
    else if last then s.sdoApply env x.idx x.sub data ok
    else (s.setCanXfer (some { x with data := data, toggle := !x.toggle, due := s.sdoDue })).canSend ok

/-- Initiate upload (R437): expedited for at most 59 bytes, else segmented from a snapshot (R432). -/
def State.sdoUpload (s : State) (idx sub : Nat) : State :=
  match (s.setCanXfer none).readObject .can idx sub with
  | (.inl a, t) => t.sdoFail idx sub a
  | (.inr b, t) =>
    let t := t.answer 0 b
    if b.length ≤ 59 then t.canSend (sdoHead 0x43 idx sub ++ leBytes 1 b.length ++ b)
    else (t.setCanXfer (some ⟨false, idx, sub, b.length, b, 0, false, t.sdoDue⟩)).canSend
      (sdoHead 0x41 idx sub ++ leBytes 4 b.length)

/-- An upload segment request (R437): the next part of the snapshot, at most 62 bytes, the last one marked. -/
def State.sdoUpSegment (s : State) (toggle : Bool) : State :=
  match s.mgmt.canXfer with
  | none => s.sdoFail 0 0 .command
  | some x =>
    if x.write then s.sdoFail x.idx x.sub .command
    else if toggle ≠ x.toggle then s.sdoFail x.idx x.sub .toggle
    else
      let part := (x.data.drop x.pos).take 62
      let last := x.total ≤ x.pos + part.length
      let s := s.setCanXfer (if last then none
        else some { x with pos := x.pos + part.length, toggle := !x.toggle, due := s.sdoDue })
      s.canSend (leBytes 1 (boolNat toggle * 0x10 + boolNat last) ++ leBytes 1 part.length ++ part)

/-- A frame from the client (R436–R438), judged by its command byte; frames on other identifiers are ignored. -/
def State.sdoFrame (s : State) (canId : Nat) (f : List Byte) (env : WriteEnv) : State :=
  if !s.canOn || canId ≠ 0x600 + s.sys.canId % 128 then s
  else
    let cmd := ofLe (f.take 1)
    let idx := ofLe ((f.drop 1).take 2)
    let sub := ofLe ((f.drop 3).take 1)
    if cmd = 0x23 then s.sdoExpedited f env idx sub
    else if cmd = 0x21 then s.sdoDownload f idx sub
    else if cmd &&& 0xEE = 0 then s.sdoDownSegment f env (bitOf cmd 4) (bitOf cmd 0)
    else if cmd = 0x40 then s.sdoUpload idx sub
    else if cmd = 0x60 || cmd = 0x70 then s.sdoUpSegment (bitOf cmd 4)
    else if cmd = 0x80 then s.setCanXfer none
    else s.sdoFail idx sub .command

/-- SDO_DOWNLOAD_EXPEDITED (R437). -/
def execSdoDownloadExpedited (canId : Nat) (frame : List Byte) (env : WriteEnv) (s : State) : Out :=
  keepQueue s (s.sdoFrame canId frame env)

/-- SDO_DOWNLOAD_INITIATE (R437). -/
def execSdoDownloadInitiate (canId : Nat) (frame : List Byte) (s : State) : Out := keepQueue s (s.sdoFrame canId frame {})

/-- SDO_DOWNLOAD_SEGMENT (R437). -/
def execSdoDownloadSegment (canId : Nat) (frame : List Byte) (env : WriteEnv) (s : State) : Out :=
  keepQueue s (s.sdoFrame canId frame env)

/-- SDO_UPLOAD_INITIATE (R437). -/
def execSdoUploadInitiate (canId : Nat) (frame : List Byte) (s : State) : Out := keepQueue s (s.sdoFrame canId frame {})

/-- SDO_UPLOAD_SEGMENT (R437). -/
def execSdoUploadSegment (canId : Nat) (frame : List Byte) (s : State) : Out := keepQueue s (s.sdoFrame canId frame {})

/-- SDO_ABORT (R438): an abort of the client ends the transfer without effect. -/
def execSdoAbort (canId : Nat) (frame : List Byte) (s : State) : Out := keepQueue s (s.sdoFrame canId frame {})

/-- SDO_TIMEOUT (R438): 1.0 s after the server's response without the client's next segment. -/
def State.sdoTimeout (s : State) : State :=
  match s.mgmt.canXfer with
  | none => s
  | some x => (s.atDeadline x.due).sdoFail x.idx x.sub .timeout

/-- SDO_TIMEOUT (R438). -/
def execSdoTimeout (s : State) : Out := keepQueue s (if s.canOn then s.sdoTimeout else s)

/-- CAN_BUS_OFF (R435): the event is counted, and the port holds CANTX recessive; the transmit error counter stands at its
limit (PRESUMED from ISO 11898-1, entry 29). -/
def execCanBusOff (s : State) : Out :=
  keepQueue s (if s.pathUp .can && s.sys.canId % 128 != 0 && !s.mgmt.busOff then
    (((s.bump K.cans.CAN_BUS_OFF).wr K.cans.CAN_ERR_COUNTS 0xFF).modMgmt fun m => { m with busOff := true }).modPins fun p =>
      { p with canTxRecessive := true }
    else s)

/-- CAN_BUS_OFF_RECOVERY (R435): after 128 occurrences of 11 recessive bits the port takes part again, its error counters at 0
(PRESUMED from ISO 11898-1, entry 29). -/
def execCanBusOffRecovery (s : State) : Out :=
  keepQueue s (if s.mgmt.busOff && s.pathUp .can then
    ((s.wr K.cans.CAN_ERR_COUNTS 0).modMgmt fun m => { m with busOff := false }).modPins fun p =>
      { p with canTxRecessive := s.sys.canId % 128 == 0 }
    else s)

end Sys2Proof.Machine
end

