-- ==== Sys2Proof/Machine/Access.lean ====
section
/-! DEFINITION. Access records over UDP and over the SPI mailbox (R439–R442, R446), and the SPI register window (R443–R445). -/

namespace Sys2Proof.Machine

/-- The head of an access record (R442). -/
structure AccHead where
  op : Nat
  first : Bool
  last : Bool
  sub : Nat
  idx : Nat
  len : Nat
  offset : Nat
  total : Nat
  deriving DecidableEq, Repr

/-- Read the 20-byte head of a record (R442). -/
def AccHead.read (b : List Byte) : AccHead :=
  let v := ofLe (b.take 20)
  ⟨field v 0 8, bitOf v 8, bitOf v 9, field v 16 8, field v 32 16, field v 48 16, field v 64 32, field v 96 32⟩

/-- The bytes of a response record: OP 3 or 4, the request's entry, and the outcome (R442). -/
def accBytes (op : Nat) (first last : Bool) (h : AccHead) (offset total abort : Nat) (data : List Byte) : List Byte :=
  leBytes 1 op ++ leBytes 1 (boolNat first + 2 * boolNat last) ++ leBytes 1 h.sub ++ leBytes 1 0 ++ leBytes 2 h.idx ++
    leBytes 2 data.length ++ leBytes 4 offset ++ leBytes 4 total ++ leBytes 4 abort ++ data

/-- What serving a record gives: the response, the transfer then open on the path, the state, and what the response waits for. -/
structure Served where
  reply : List Byte
  xfer : Option Xfer
  state : State
  later : Option Waiting := none

/-- The transfer ends with an abort code (R430, R432). -/
def State.accFail (s : State) (h : AccHead) (a : Abort) : Served :=
  ⟨accBytes (if h.op = 1 then 3 else 4) h.first h.last h h.offset 0 a.code [], none, s.answer a.code [], none⟩

/-- 10 s from now, when the snapshot of a read is released (R432). -/
def State.snapDue (s : State) : Nat := s.now + secTicks 10

/-- One part of a read from the snapshot `b` at OFFSET: min(LENGTH, TOTAL − OFFSET) bytes, and no more than `room`; LAST when it
reaches TOTAL (R442). -/
def State.accPart (s : State) (h : AccHead) (b : List Byte) (room : Nat) : Served :=
  let part := (b.drop h.offset).take (min h.len room)
  let last := b.length ≤ h.offset + part.length
  ⟨accBytes 3 h.first last h h.offset b.length 0 part,
    if last then none else some ⟨false, h.idx, h.sub, b.length, b, h.offset + part.length, false, s.snapDue⟩, s, none⟩

/-- A READ record (R432, R442): the first part takes the snapshot, later parts come from it. -/
def State.accRead (s : State) (via : Path) (x : Option Xfer) (h : AccHead) (room : Nat) : Served :=
  if h.first then
    (if h.offset ≠ 0 then s.accFail h .order
     else match s.readObject via h.idx h.sub with
      | (.inl a, t) => t.accFail h a
      | (.inr b, t) => (t.answer 0 b).accPart h b room)
  else match x with
    | some y =>
      if y.write || y.idx ≠ h.idx || y.sub ≠ h.sub || y.total < h.offset then s.accFail h .order
      else s.accPart h y.data room
    | none => s.accFail h .order

/-- All parts of a write have come: it is checked and applied in one step (R431). -/
def State.accApply (s : State) (via : Path) (env : WriteEnv) (h : AccHead) (data : List Byte) : Served :=
  let w := s.writeObject via env h.idx h.sub data
  let done := accBytes 4 h.first h.last h h.offset 0 0 []
  match w.later, w.abort with
  | some k, _ => ⟨done, none, w.state, some k⟩
  | none, some a => w.state.accFail h a
  | none, none => ⟨done, none, w.state.answer 0 [], none⟩

/-- A WRITE record (R432, R442): parts in ascending offset without gaps, the total length stated first. -/
def State.accWrite (s : State) (via : Path) (env : WriteEnv) (x : Option Xfer) (h : AccHead) (part : List Byte) : Served :=
  let held := if h.first then (if h.offset = 0 then some (h.total, []) else none)
    else match x with
      | some y =>
        if y.write && y.idx = h.idx && y.sub = h.sub && y.data.length = h.offset then some (y.total, y.data) else none
      | none => none
  match held with
  | none => s.accFail h .order
  | some (total, before) =>
    let data := before ++ part
    if total < data.length || (h.last && data.length ≠ total) then s.accFail h .length
    else if h.last then s.accApply via env h data
    else ⟨accBytes 4 h.first h.last h h.offset 0 0 [],
      some ⟨true, h.idx, h.sub, total, data, data.length, false, s.snapDue⟩, s, none⟩

/-- Serve one record on a path (R442); any other OP is no command (assumption log, entry 29). -/
def State.serveRecord (s : State) (via : Path) (env : WriteEnv) (x : Option Xfer) (rec' : List Byte) (room : Nat) : Served :=
  let h := AccHead.read rec'
  if h.op = 1 then s.accRead via x h room
  else if h.op = 2 then s.accWrite via env x h ((rec'.drop 20).take h.len)
  else s.accFail h .command

/-! The mailbox (R446). -/

/-- `n` bytes of the mailbox from offset `a` of it. -/
def State.mailBytes (s : State) (a n : Nat) : List Byte := (List.range n).map fun k => Tbl.atD s.mgmt.mailbox (a + k) 0

/-- Write bytes into the mailbox. -/
def mailPut (t : Tbl Byte) : Nat → List Byte → Tbl Byte
  | _, [] => t
  | a, b :: bs => mailPut (Tbl.store 0 t a b) (a + 1) bs

/-- A response record stands in the mailbox (R446). -/
def State.mailReply (s : State) (b : List Byte) : State :=
  s.modMgmt fun m =>
    { m with mailbox := mailPut m.mailbox 0 b, mbxResult := b.length, mbxBusy := false, mbxDone := true }

/-- The mailbox is owed the response of a delayed write. -/
def State.mailOwed (s : State) : Bool :=
  s.mgmt.owed.any fun o => match o.2 with
    | .mailbox _ => true
    | _ => false

/-- The mailbox record is served (R446): at SPI_LEVEL in normal operation, by the boot sequencer in recovery mode; a record of more
than 4,096 bytes, or of less than a head, is answered without effect. -/
def State.serveMailbox (s : State) (env : WriteEnv) : State :=
  if !s.mgmt.mbxBusy || s.mailOwed || !s.answers .spi then s
  else
    let n := s.mgmt.mbxLen
    let rec' := s.mailBytes 0 (min n 4096)
    let r := if 4096 < n then s.accFail (AccHead.read rec') .resources
      else if n < 20 || (AccHead.read rec').len + 20 ≠ n && (AccHead.read rec').op = 2 then
        s.accFail (AccHead.read rec') .command
      else s.serveRecord .spi env s.mgmt.mbxXfer rec' (4096 - 20)
    let t := r.state.modMgmt fun m => { m with mbxXfer := r.xfer }
    match r.later with
    | some k => t.owe k (.mailbox (rec'.take 20))
    | none => t.mailReply r.reply

/-! UDP management (R439–R441). -/

/-- The data bytes that fit a response datagram on port `p` (R413, R439, R442). -/
def State.mgmtRoom (s : State) (p : Nat) : Nat :=
  match (s.port p).cfg with
  | some c => c.maxFrame -
      ((if c.ipVersion = 6 then 66 else 46) + (if c.vlan = 0 then 0 else 4) + 52)
  | none => 0

/-- The record length suits its LENGTH field (R440 step 1): a WRITE carries LENGTH bytes, a READ none. -/
def recordFits (rec' : List Byte) : Bool :=
  let h := AccHead.read rec'
  rec'.length == 20 + (if h.op = 2 then h.len else 0) && h.len ≤ 8192

/-- Send a management response (R406, R440). -/
def State.mgmtReply (s : State) (d : MgmtDatagram) (m : Nat) (bytes : List Byte) : State :=
  s.portSend d.port ⟨4, .management m d.srcAddr d.srcUdp bytes⟩

/-- The response to a request of principal `m` (R440, R441): none to a request that has emptied its own slot; under the key that
verified the request, and kept among the last 8. -/
def State.mgmtRespond (s : State) (d : MgmtDatagram) (m seq slot : Nat) (key reply : List Byte) : State :=
  if s.slotState slot = slotEmpty then s
  else
    let plain := leBytes 1 1 ++ leBytes 1 1 ++ leBytes 1 m ++ leBytes 1 0 ++ leBytes 8 seq ++ leBytes 4 0 ++ reply
    let bytes := plain ++ cmacOf key plain
    let s := s.modMgmt fun g =>
      { g with kept := Tbl.ins g.kept m ((⟨seq, d.cmac, bytes⟩ :: Tbl.atD g.kept m []).take 8) }
    s.mgmtReply d m bytes

/-- An accepted request of principal `m` is executed at MGMT_LEVEL (R440 step 6, R441) and answered; the window advances. -/
def State.mgmtExecute (s : State) (d : MgmtDatagram) (env : WriteEnv) (m seq : Nat) : State :=
  let slot := s.rd (K.mgmt.MGMT_KEY_SLOT m)
  let key := (s.slot slot).key
  let w := (Tbl.atD s.mgmt.windows m SeqWindow.empty).advance seq
  let s := (s.bump (K.mgmts.MGMT_RX_OK m)).modMgmt fun g => { g with windows := Tbl.ins g.windows m w }
  let r := s.serveRecord (.udp m) env (Tbl.at? s.mgmt.udpXfer m) (d.body.drop 16) (s.mgmtRoom d.port)
  let s := r.state.modMgmt fun g =>
    { g with udpXfer := match r.xfer with
        | some x => Tbl.ins g.udpXfer m x
        | none => Tbl.del g.udpXfer m }
  match r.later with
  | some k => s.owe k (.udp d m seq slot key)
  | none => s.mgmtRespond d m seq slot key r.reply

/-- A datagram at MGMT_UDP_PORT (R433, R440): one that finds the buffer of 32 requests full is discarded and counted; else the checks
in order. -/
def State.mgmtDatagram (s : State) (d : MgmtDatagram) (env : WriteEnv) : State :=
  if (s.port d.port).cfg.isNone then s
  else if d.bufferFull then s.bump K.mgmtd.MGMT_DROP
  else
    let h := ofLe (d.body.take 16)
    let m := field h 16 8
    let seq := field h 32 64
    if field h 0 8 ≠ 1 || bitOf h 8 || d.body.length < 36 || !recordFits (d.body.drop 16) then
      s.bump (K.ports.RX_FILTERED d.port)
    else if 8 ≤ m then s
    else
      let slot := s.rd (K.mgmt.MGMT_KEY_SLOT m)
      if !s.flag (K.mgmt.MGMT_ENABLE m) || !s.slotUsable slot then s.bump (K.mgmts.MGMT_NO_KEY m)
      else
        let s := s.slotUse slot
        if cmacOf (s.slot slot).key d.body != d.cmac then s.bump (K.mgmts.MGMT_AUTH_FAIL m)
        else if (Tbl.atD s.mgmt.windows m SeqWindow.empty).accepts seq then s.mgmtExecute d env m seq
        else match (Tbl.atD s.mgmt.kept m []).find? fun k => k.seq == seq && k.cmac == d.cmac with
          | some k => (s.bump (K.mgmts.MGMT_RESENT m)).mgmtReply d m k.response
          | none => s.bump (K.mgmts.MGMT_REPLAY m)

/-- A record on its path. -/
def State.access (s : State) (src : AccessSrc) (env : WriteEnv) : State :=
  match src with
  | .mailbox => s.serveMailbox env
  | .udp d => if s.coreUp 0 then s.mgmtDatagram d env else s

/-- ACCESS_READ (R442). -/
def execAccessRead (src : AccessSrc) (s : State) : Out := keepQueue s (s.access src {})

/-- ACCESS_WRITE (R442). -/
def execAccessWrite (src : AccessSrc) (env : WriteEnv) (s : State) : Out := keepQueue s (s.access src env)

/-! Responses of delayed writes (R336, R449). -/

/-- The response owed to a path is sent with its outcome. -/
def State.respond (s : State) (r : Reply) (a : Option Abort) : State :=
  let code := match a with
    | some x => x.code
    | none => 0
  let record := fun (head : List Byte) => let h := AccHead.read head; accBytes 4 h.first h.last h h.offset 0 code []
  match r with
  | .bare => s.answer code []
  | .can idx sub ok => match a with
    | some x => s.sdoFail idx sub x
    | none => (s.answer 0 []).canSend ok
  | .mailbox head => (s.answer code []).mailReply (record head)
  | .udp d m seq slot key => (s.answer code []).mgmtRespond d m seq slot key (record ((d.body.drop 16).take 20))

/-- The oldest response that waits for `w` is sent. -/
def State.settle (s : State) (w : Waiting) (a : Option Abort) : State :=
  match s.mgmt.owed.find? fun o => o.1 == w with
  | some o => (s.modMgmt fun m => { m with owed := m.owed.eraseP fun x => x.1 == w }).respond o.2 a
  | none => s

/-- FLASH_WRITE_DONE (R312, R340, R348, R449): a store that has ended is answered, a failed one with 0x0800_0020 (entry 29). -/
def State.flashEnd (s : State) (ok : Bool) : State :=
  let t := s.flashWriteDone ok
  match s.flash.ops with
  | .store _ _ :: _ => t.settle .flash (if ok then none else some .unusable)
  | _ => t

/-- FLASH_WRITE_DONE (R312, R340, R348, R449). -/
def execFlashWriteDone (ok : Bool) (s : State) : Out :=
  keepQueue s (if s.running then (s.flashEnd ok).nbResume
    else if s.sys.phase == .recovery then s.flashWriteDone ok else s)

/-- One operation that waited for the vault runs; a key load is then answered. -/
def State.vaultJob (s : State) : VaultJob → State
  | .op o => s.vaultOp o
  | .load i data env => let w := s.loadKey i data env; w.state.settle .masks w.abort

/-- ENTROPY_RECOVERY (R336): output is unblocked and the waiting operations run in order. -/
def State.entropyRecovery (s : State) : State :=
  let jobs := s.keys.vaultWaiting
  jobs.foldl State.vaultJob (s.modKeys fun k => { k with entropyFail := false, vaultWaiting := [] })

/-- ENTROPY_RECOVERY (R336). -/
def execEntropyRecovery (s : State) : Out := whenRunning s s.entropyRecovery

/-- When the snapshot of an open read is released: 10 s after its last part (R432). The deadline of a CAN FD
transfer is that of R438, 1.0 s after its last part. -/
def Xfer.lapsed (can : Bool) (x : Option Xfer) : Option Nat :=
  match x with
  | some y => if y.write then none else some (y.due + if can then msTicks 9000 else 0)
  | none => none

/-- SNAPSHOT_TIMEOUT (R432): 10 s without a part. -/
def State.snapshotTimeout (s : State) (p : XferPath) : State :=
  let x := match p with
    | .can => s.mgmt.canXfer
    | .udp m => Tbl.at? s.mgmt.udpXfer m
    | .mailbox => s.mgmt.mbxXfer
  match Xfer.lapsed (p == .can) x with
  | none => s
  | some due => (s.atDeadline due).modMgmt fun g =>
      match p with
      | .can => { g with canXfer := none }
      | .udp m => { g with udpXfer := Tbl.del g.udpXfer m }
      | .mailbox => { g with mbxXfer := none }

/-- SNAPSHOT_TIMEOUT (R432). -/
def execSnapshotTimeout (path : XferPath) (s : State) : Out := 
  keepQueue s (if (Tbl.at? s.sys.halted 0).isNone then s.snapshotTimeout path else s)

/-! The SPI register window (R443–R446). -/

/-- The port is served by hardware from the release of RESET_N on (R443). -/
def State.spiOn (s : State) : Bool := s.pathUp .spi

/-- BOOT_STATE (R444). -/
def State.bootState (s : State) : Nat :=
  (if s.running then 1 else if s.sys.phase == .recovery then 2 else 0) + s.rd K.bootp.BOOT_SLOT * 2 ^ 8 +
    s.rd (K.bootp.SLOT_RESULT 0) * 2 ^ 16 + s.rd (K.bootp.SLOT_RESULT 1) * 2 ^ 24

/-- RESET_CAUSE (R444). -/
def State.causeWord (s : State) : Nat :=
  s.rd K.cause.CAUSE + s.rd K.cause.CORE * 2 ^ 8 + s.rd K.cause.MEMORY * 2 ^ 16

/-- WIN_STATUS (R444). -/
def State.winStatus (s : State) : Nat :=
  boolNat s.mgmt.torn + boolNat s.mgmt.mbxBusy * 2 + boolNat s.mgmt.mbxDone * 4

/-- The 64-bit value of the pair at `a` (R444, R445), where there is one. -/
def State.pair? (s : State) (a : Nat) : Option Nat :=
  match a with
  | 0x0010 => some s.now
  | 0x0018 => some (dtPair s.dt)
  | 0x0020 => some s.flash.eui64
  | _ => none

/-- A read of a low word: the hold takes the high half of the same instant (R445). -/
def State.pairLow (s : State) (a v : Nat) : Nat × State :=
  (v % 2 ^ 32, s.modMgmt fun m => { m with spiHold := some (a, v / 2 ^ 32 % 2 ^ 32) })

/-- A read of the high word of the pair at `a`: the held half, else the live half with TORN set (R445). -/
def State.pairHigh (s : State) (a v : Nat) : Nat × State :=
  match s.mgmt.spiHold with
  | some (b, h) =>
    if b = a then (h, s.modMgmt fun m => { m with spiHold := none })
    else (v / 2 ^ 32 % 2 ^ 32, s.modMgmt fun m => { m with torn := true })
  | none => (v / 2 ^ 32 % 2 ^ 32, s.modMgmt fun m => { m with torn := true })

/-- The registers of the window that are no pair (R444); unmapped addresses read 0 (R443). -/
def State.windowReg (s : State) (a : Nat) : Nat × State :=
  match a with
  | 0x0000 => (0x00A12560, s)
  | 0x0004 => (s.bootState, s)
  | 0x0008 => (s.causeWord, s)
  | 0x000C => (s.winStatus, s.modMgmt fun m => { m with torn := false })
  | 0x0034 => (s.mgmt.mbxResult, s)
  | _ => if 0x1000 ≤ a && a < 0x2000 then (ofLe (s.mailBytes (a - 0x1000) 4), s) else (0, s)

/-- A read of the word at `a` (R443–R445). -/
def State.spiWord (s : State) (a : Nat) : Nat × State :=
  match s.pair? a with
  | some v => s.pairLow a v
  | none =>
    match s.pair? (a - 4) with
    | some v => s.pairHigh (a - 4) v
    | none => s.windowReg a

/-- Read `n` words from address `a` (R443): the address advances by 4 for each. -/
def State.spiWords (s : State) : Nat → Nat → List Nat × State
  | _, 0 => ([], s)
  | a, n + 1 =>
    let (v, t) := s.spiWord (a % 65536)
    let (vs, u) := t.spiWords (a + 4) n
    (v :: vs, u)

/-- One SPI read transaction: what the device drives stands in the state. -/
def State.spiRead (s : State) (a n : Nat) : State :=
  if !s.spiOn then s
  else
    let (vs, t) := s.spiWords (a / 4 * 4) n
    t.modMgmt fun m => { m with spiOut := vs }

/-- A write of MBX_DOORBELL (R446): ignored while MBX_BUSY is set. -/
def State.doorbell (s : State) (n : Nat) : State :=
  if s.mgmt.mbxBusy then s
  else s.modMgmt fun m => { m with mbxBusy := true, mbxDone := false, mbxLen := n }

/-- A write of the word at `a`: read-only and unmapped addresses ignore it (R443). -/
def State.spiPut (s : State) (a v : Nat) : State :=
  if !s.spiOn then s
  else if a = 0x0028 then s.resetReq v
  else if a = 0x0030 then s.doorbell v
  else if 0x1000 ≤ a && a < 0x2000 then s.modMgmt fun m => { m with mailbox := mailPut m.mailbox (a - 0x1000) (leBytes 4 v) }
  else s

/-- One SPI write transaction (R443). -/
def State.spiWrite (s : State) : Nat → List Nat → State
  | _, [] => s
  | a, v :: vs => (s.spiPut (a % 65536) (v % 2 ^ 32)).spiWrite (a + 4) vs

/-- SPI_READ (R443). -/
def execSpiRead (addr words : Nat) (s : State) : Out := keepQueue s (s.spiRead addr words)

/-- SPI_WRITE (R443). -/
def execSpiWrite (addr : Nat) (words : List Nat) (s : State) : Out := keepQueue s (s.spiWrite (addr / 4 * 4) words)

/-- PAIR_LOW_READ (R445): a transaction of one word at the pair's low address. -/
def execPairLowRead (addr : Nat) (s : State) : Out := keepQueue s (s.spiRead addr 1)

/-- PAIR_HIGH_READ (R445): a transaction of one word at the pair's high address. -/
def execPairHighRead (addr : Nat) (s : State) : Out := keepQueue s (s.spiRead addr 1)

/-- WIN_STATUS_READ (R444). -/
def execWinStatusRead (s : State) : Out := keepQueue s (s.spiRead 0x000C 1)

/-- MBX_DOORBELL (R446). -/
def execMbxDoorbell (len : Nat) (s : State) : Out := keepQueue s (s.spiPut 0x0030 (len % 2 ^ 32))

end Sys2Proof.Machine
end

