-- ==== Sys2Proof/Machine/Ledger.lean ====
section
/-! DEFINITION. The ledger as firmware: the journal, snapshots, and the restore at boot (R218, R335, R340, R341). -/

namespace Sys2Proof.Machine

/-- The ledger record of an endpoint entry (R339). -/
def State.epRec (s : State) (i : Nat) : EpRec :=
  let e := s.ep i
  ⟨e.state != epFree, i, e.eui, e.addr, e.seg, e.state, e.lrMode, e.laneSf, e.lrSf, e.bMax, e.rateMax, e.driftBound, e.leaseEnd,
    e.sleep.period, e.sleep.phase, e.sleep.slots, e.sleep.check⟩

/-- Sectors that are not admission sectors, and those of them that are erased. -/
def State.erasedShare (s : State) : Nat × Nat :=
  let adm := Tbl.count s.flash.ledger fun _ x => match x.body with
    | .admission _ => true
    | _ => false
  (ledgerSectors - adm, ledgerSectors - s.flash.ledger.length)

/-- Fewer than a quarter of the sectors that are not admission sectors remain erased (R340). -/
def State.snapshotDue (s : State) : Bool := let (all, free) := s.erasedShare; free * 4 < all

/-- A snapshot is being written. -/
def State.snapshotting (s : State) : Bool :=
  s.flash.ops.any fun op => match op with
    | .journal _ snapshot => snapshot
    | _ => false

/-- LEDGER_JOURNAL_WRITE (R335, R340): the oldest changes, at most 126, go to flash in one sector, and a snapshot of every entry
that is not `FREE` when erased sectors run low; while the vault is locked out nothing is written and the attempt is counted. -/
def State.journalWrite (s : State) : State :=
  if !s.keys.ledgerOn then s
  else if s.keys.vaultLocked then s.bump K.ledger.LEDGER_WRITE_FAIL
  else
    let s := s.modFlash fun f => { f with ops := f.ops ++ [.journal (f.journal.take 126) false], journal := f.journal.drop 126 }
    if s.snapshotDue && !s.snapshotting then
      let recs := (s.epsWith fun e => e.state != epFree).map s.epRec
      s.modFlash fun f => { f with ops := f.ops ++ [.journal recs true] }
    else s

/-- LEDGER_JOURNAL_WRITE (R340). -/
def execLedgerJournalWrite (s : State) : Out := onCore 0 s s.journalWrite

/-! The restore (R341). -/

/-- Insert a sector by SECTOR_SEQ. -/
def insertSector (x : LedgerSector) : List LedgerSector → List LedgerSector
  | [] => [x]
  | y :: ys => if x.seq ≤ y.seq then x :: y :: ys else y :: insertSector x ys

/-- The sectors whose checks pass, by rising SECTOR_SEQ. -/
def Flash.goodSectors (f : Flash) : List LedgerSector := ((f.ledger.map (·.2)).filter (·.good)).foldr insertSector []

/-- The complete snapshots: SNAP_ID, SNAP_TOTAL and records in index order. -/
def snapshotOf (ss : List LedgerSector) (id : Nat) : Option (List EpRec) :=
  let parts := ss.filterMap fun x => match x.body with
    | .snapshot index total i recs => if i = id then some (index, total, recs) else none
    | _ => none
  match parts with
  | [] => none
  | (_, total, _) :: _ =>
    let got := (List.range total).filterMap fun k => parts.find? fun p => p.1 = k
    if got.length = total then some (got.flatMap (·.2.2)) else none

/-- The records to apply (R341 steps 1 and 2): the complete snapshot with the highest SNAP_ID, then the journal sectors above it in
SECTOR_SEQ order. -/
def restoreRecords (ss : List LedgerSector) : List EpRec :=
  let ids := ss.filterMap fun x => match x.body with
    | .snapshot _ _ i _ => some i
    | _ => none
  let best := ids.foldl (fun m i => if (snapshotOf ss i).isSome then max m (i + 1) else m) 0
  let base := if best = 0 then [] else (snapshotOf ss (best - 1)).getD []
  base ++ ss.flatMap fun x => match x.body with
    | .journal recs => if best ≤ x.seq then recs else []
    | _ => []

/-- The ledger fields of an entry from its record; every other field at its reset value (R218). -/
def EpRec.toEp (r : EpRec) : Ep :=
  { Ep.reset with
    eui := r.eui, addr := r.addr, seg := r.seg, state := r.state, lrMode := r.lrMode, laneSf := r.laneSf, lrSf := r.lrSf,
    bMax := r.bMax, rateMax := r.rateMax, driftBound := r.driftBound, leaseEnd := r.leaseEnd,
    sleep := ⟨r.wakePeriod, r.wakePhase, r.wakeSlots, r.checkInterval⟩ }

/-- Apply one record to the endpoint table. -/
def applyRec (t : Tbl Ep) (r : EpRec) : Tbl Ep := if r.isSet then Tbl.ins t r.entry r.toEp else Tbl.del t r.entry

/-- The admission records of the ledger in SECTOR_SEQ order (R341 step 3). -/
def restoreAdmission (ss : List LedgerSector) : Tbl (List Byte) :=
  (ss.flatMap fun x => match x.body with
    | .admission recs => recs
    | _ => []).foldl admApply []

/-- BOOT_ID (R192, R341 step 4): one more than that of the latest valid sector, else a free value. -/
def State.newBootId (s : State) (ss : List LedgerSector) : Nat × State :=
  match ss.getLast? with
  | some x => ((x.bootId + 1) % 16, s)
  | none =>
    let (v, t) := s.fresh
    (v % 16, t)

/-- BOOT_ID takes its value (R192, R493). -/
def State.setBootId (s : State) (b : Nat) : State := (s.modSys fun y => { y with bootId := b }).wr K.boot.BOOT_ID b

/-- An entry whose LEASE_END has passed enters `EXPIRED` (R218). -/
def State.restoreEp (s : State) (e : Ep) : Ep :=
  if (e.state = epAssociated || e.state = epAssociating) && e.leaseEnd < dtSec s.dt then { e with state := epExpired, expired := s.now } else e

/-- The restore of the ledger at boot (R341); without a ledger BOOT_ID is a free value (R192). -/
def State.ledgerRestore (s : State) : State :=
  if !s.keys.ledgerOn then
    let (b, s) := s.newBootId []
    s.setBootId b
  else
    let ss := s.flash.goodSectors
    let bad := Tbl.count s.flash.ledger fun _ x => !x.good
    let eps := (restoreRecords ss).foldl applyRec []
    let adm := restoreAdmission ss
    let (b, s) := s.newBootId ss
    let s := ((s.setBootId b).bumpBy K.ledger.LEDGER_BAD_SECTORS bad).wr K.boot.LEDGER_SECTORS s.flash.ledger.length
    let s := (s.wr K.ledger.LEDGER_RESTORED eps.length).modMac fun m => { m with eps := Tbl.mapVals eps fun _ e => s.restoreEp e }
    let s := (s.modKeys fun k => { k with admission := adm }).wr K.adm.ADMIT_COUNT adm.length
    let segs := (s.mac.eps.map fun e => e.2.seg).eraseDups
    segs.foldl (fun t g => t.countAssociated g) s

end Sys2Proof.Machine
end

