-- ==== Sys2Proof/Machine/Boot.lean ====
section
/-! DEFINITION. Boot: the choice of an image, the restore of the store and the ledger, and the start of the channels
(R344, R345, R449–R450, R488–R490). -/

namespace Sys2Proof.Machine

/-! The choice of an image (R344 steps 2 to 4). -/

/-- The header of the slot makes it a candidate (R344 step 2). -/
def State.candidate (s : State) (slot : Nat) : Bool := headGood (s.imageSector slot 0)

/-- The candidates, the higher IMAGE_SEQ first, slot A on a tie (R344 step 2). -/
def State.candidates (s : State) : List Nat :=
  let a := if s.candidate 0 then [0] else []
  let b := if s.candidate 1 then [1] else []
  if headSeq (s.imageSector 0 0) < headSeq (s.imageSector 1 0) then b ++ a else a ++ b

/-- The slot that boots, and how many candidates are tried. -/
def State.choose (s : State) : List Nat → Option Nat × Nat
  | [] => (none, 0)
  | k :: ks =>
    if s.slotResult k = .ok then (some k, 1)
    else
      let r := s.choose ks
      (r.1, r.2 + 1)

/-- The result of slot `k` once `tried` of the candidates have been tried (R344, R350). -/
def State.bootResult (s : State) (tried k : Nat) : SlotResult :=
  if s.candidate k && !(s.candidates.take tried).contains k then .notTried else s.slotResult k

/-! The store (R450). -/

/-- The copy that a boot applies: the valid one with the higher STORE_SEQ (R450). -/
def Flash.bestStore (f : Flash) : Option StoreCopy :=
  f.stores.foldl (fun b p =>
    if !p.2.valid then b
    else match b with
      | some y => if y.seq < p.2.seq then some p.2 else b
      | none => some p.2) none

/-- A SEG_ENABLE record, which a restore holds back (R450). -/
def StoreRec.enables (r : StoreRec) : Bool := 0x3400 ≤ r.idx && r.idx < 0x3440 && r.sub == 1

/-- Apply one record as a write at level 3; a refused one is counted and changes nothing else (R450). -/
def State.applyStore (s : State) (r : StoreRec) : State :=
  let w := s.writeObject .store {} r.idx r.sub r.value
  if w.abort.isSome then s.bump K.stores.STORE_SKIPPED else w.state

/-- The objects marked "read at reset" take their value (R184, R253, R267, R350, R401, R402, R435). -/
def State.readAtReset (s : State) : State :=
  let s := s.modMgmt fun m => { m with canRates := (s.rd K.can.CAN_NOMINAL, s.rd K.can.CAN_DATA) }
  let s := s.modBh fun b =>
    { b with
      laneMode := s.rd K.bh.LANE_MODE
      laneMap := s.rd K.bh.LANE_MAP
      polarity := (s.rd K.bh.TX_POLARITY, s.rd K.bh.RX_POLARITY)
      preset := s.rd K.bh.TX_PRESET
      domainPort := s.rd K.bh.DOMAIN_PORT_SEL }
  let s := s.modKeys fun k => { k with ledgerOn := s.flag K.ledger.LEDGER_ENABLE }
  let s := s.modDomain fun d => { d with number := s.rd K.dom.DEVICE_NUMBER, id := s.rd K.dom.DOMAIN_ID }
  let s := s.modTracker fun t => { t with nominal := s.rd K.trk.NOMINAL_FREQ }
  if s.rd K.trk.NOMINAL_FREQ = 50 then s else s.setPeriod (nominalPeriod (s.rd K.trk.NOMINAL_FREQ))

/-- The token buckets start full (R281, R490). -/
def State.fillBuckets (s : State) : State :=
  s.modTxn fun t => { t with tokens := [1, 2, 3].map fun c => (c, s.rd (K.cls.QUOTA c) * 409600000), tokensAt := s.now }

/-- A channel starts with its stored configuration and the state after reset (R489, R490); it is idle, so its IDLE_TRIM is written (R49). -/
def State.startChannel (s : State) (n : Nat) : State :=
  let cfg := s.chanConfig n
  let swell : SwellCfg :=
    ⟨s.flag (K.ch.LANE_ENABLE n), s.rdInt (K.ch.LANE_LEVEL n), s.rd (K.ch.LANE_PRE_LEN n), s.rd (K.ch.SWELL_PRE_LEN n)⟩
  if (s.chan n).cfg = cfg && (s.chan n).swell = swell && !s.enabled n then s
  else
    let s := s.modChan n fun _ => { Channel.reset with cfg := cfg, swell := swell }
    if s.enabled n && cfg.idleTrim ≠ 0 then s.writeTrim n cfg.idleTrim 0 else s

/-- A mains unit starts with its stored configuration, its outputs UNSETTLED until its chain settles (R384, R399, R490). -/
def State.startUnit (s : State) (u : Nat) : State :=
  if s.mainsCfg u = (s.unit u).cfg then s else s.restartUnit u

/-- The restore of the store (R450): the records in order but for SEG_ENABLE, then the objects read at reset, and the
configuration of channels and mains units. -/
def State.restoreStore (s : State) : State :=
  let s := match s.flash.bestStore with
    | some c =>
      (c.records.filter fun r => !StoreRec.enables r).foldl State.applyStore
        ((s.wr K.stores.STORE_STATE 1).wr K.stores.STORE_SEQ c.seq)
    | none => if s.flash.stores.isEmpty then s else s.wr K.stores.STORE_STATE 2
  let s := s.readAtReset.fillBuckets
  let s := (List.range 64).foldl State.startUnit s
  (List.range 256).foldl State.startChannel s

/-- The stored SEG_ENABLE records, in ascending segment order, as if written when the channels start (R450, R489). -/
def State.restoreSegments (s : State) : State :=
  match s.flash.bestStore with
  | some c => (c.records.filter StoreRec.enables).foldl State.applyStore s
  | none => s

/-! Boot as a whole. -/

/-- No image boots: recovery mode (R345), with the default CAN FD rates and levels (R434, R435). -/
def State.recover (s : State) (tried : Nat) : State :=
  ((s.modSys fun y => { y with phase := .recovery, bootLevels := true }).wr K.bootp.BOOT_SLOT 0xFF).wr K.boot.BOOT_CANDIDATES tried

/-- The image in slot `k` runs (R488 rows 6 to 9). -/
def State.run (s : State) (k tried us : Nat) : State :=
  let s := (s.loadSections k).modSys fun y => { y with phase := .running, wdDue := Sys.reset.wdDue }
  let s := ((s.wr K.bootp.BOOT_SLOT k).wr K.boot.BOOT_CANDIDATES tried).wr K.boot.BOOT_TIME us
  let s := s.restoreStore
  let s := s.modSys fun y => { y with bootLevels := false }
  s.ledgerRestore.restoreSegments

/-- Boot from the release of reset to row 9 of R488 or to recovery mode (R344, R488). T0 reads 0 at its end (assumption
log, entry 3). -/
def State.boot (s : State) (e : BootEnv) : State :=
  let s := s.cold .hold
  let id := e.canId % 128
  let s := (s.modSys fun y => { y with canId := id }).modPins fun p => { p with canTxRecessive := id == 0 }
  if !e.selfTestOk then
    ((s.wr (K.bootp.SLOT_RESULT 0) SlotResult.vaultFail.code).wr (K.bootp.SLOT_RESULT 1) SlotResult.vaultFail.code).recover 0
  else
    let pick := s.choose s.candidates
    let a := (s.bootResult pick.2 0).code
    let b := (s.bootResult pick.2 1).code
    let s := (s.wr (K.bootp.SLOT_RESULT 0) a).wr (K.bootp.SLOT_RESULT 1) b
    match pick.1 with
    | some k => s.run k pick.2 e.bootUs
    | none => s.recover pick.2

/-- RESET_N_RELEASE (R344, R483): RESET_N rises and the device boots. -/
def execResetNRelease (boot : BootEnv) (s : State) : Out :=
  keepQueue s (if s.sys.phase = .held then (s.modPins fun p => { p with resetN := true }).boot boot else s)

/-- RESET_HOLD_END (R485): 100 µs after an internal reset, boot begins. -/
def execResetHoldEnd (boot : BootEnv) (s : State) : Out :=
  keepQueue s (if s.sys.phase = .hold then s.boot boot else s)

end Sys2Proof.Machine
end

