-- ==== Sys2Proof/Machine/Jtag.lean ====
section
/-! DEFINITION. The JTAG TAP of IEEE 1149.1 (R484, R513; assumption log, entry 9). -/

namespace Sys2Proof.Machine

/-- The next state of the TAP controller at a rising edge of TCK. -/
def TapState.next (t : TapState) (tms : Bool) : TapState :=
  match t with
  | .testLogicReset => if tms then .testLogicReset else .runTestIdle
  | .runTestIdle => if tms then .selectDr else .runTestIdle
  | .selectDr => if tms then .selectIr else .captureDr
  | .captureDr => if tms then .exit1Dr else .shiftDr
  | .shiftDr => if tms then .exit1Dr else .shiftDr
  | .exit1Dr => if tms then .updateDr else .pauseDr
  | .pauseDr => if tms then .exit2Dr else .pauseDr
  | .exit2Dr => if tms then .updateDr else .shiftDr
  | .updateDr => if tms then .selectDr else .runTestIdle
  | .selectIr => if tms then .testLogicReset else .captureIr
  | .captureIr => if tms then .exit1Ir else .shiftIr
  | .shiftIr => if tms then .exit1Ir else .shiftIr
  | .exit1Ir => if tms then .updateIr else .pauseIr
  | .pauseIr => if tms then .exit2Ir else .pauseIr
  | .exit2Ir => if tms then .updateIr else .shiftIr
  | .updateIr => if tms then .selectDr else .runTestIdle

/-- The instruction that an instruction register content selects: all ones is BYPASS. -/
def tapDecode (ir : List Bool) : TapInstr :=
  if ir.all id then .bypass
  else match Config.tapOpcode ir with
    | 1 => .idcode
    | 2 => .samplePreload
    | 3 => .extest
    | 4 => .clamp
    | _ => .bypass

/-- What Capture-DR loads: the selected register; `cells` are the levels at the boundary-scan cells. -/
def Jtag.capture (j : Jtag) (cells : List Bool) : List Bool :=
  match j.instr with
  | .bypass => [false]
  | .clamp => [false]
  | .idcode => Config.idcode
  | .samplePreload => cells
  | .extest => cells

/-- Shift a register by one towards TDO, its first bit. -/
def shiftIn (r : List Bool) (tdi : Bool) : List Bool := r.drop 1 ++ [tdi]

/-- Free bits from a free value. -/
def freeBits (v n : Nat) : List Bool := (List.range n).map fun k => bitOf v k

/-- The instruction register that Capture-IR loads: 01 in its two lowest bits, the rest a free value. -/
def captureIr (v : Nat) : List Bool := [true, false] ++ freeBits v (Config.irLength - 2)

/-- The TAP is held in Test-Logic-Reset (R513). -/
def Jtag.toReset (j : Jtag) : Jtag := { j with tap := .testLogicReset, instr := .idcode, tdo := none }

/-- The registers of the TAP at a rising edge of TCK, in the state the edge finds. -/
def Jtag.onRise (j : Jtag) (tdi : Bool) (cells : List Bool) (free : Nat) : Jtag :=
  match j.tap with
  | .captureDr => { j with dr := j.capture cells }
  | .shiftDr => { j with dr := shiftIn j.dr tdi }
  | .captureIr => { j with ir := captureIr free }
  | .shiftIr => { j with ir := shiftIn j.ir tdi }
  | _ => j

/-- The update latches and TDO at a falling edge of TCK. -/
def Jtag.onFall (j : Jtag) : Jtag :=
  match j.tap with
  | .testLogicReset => { j with instr := .idcode, tdo := none }
  | .shiftDr => { j with tdo := j.dr.head? }
  | .shiftIr => { j with tdo := j.ir.head? }
  | .updateIr => { j with instr := tapDecode j.ir, tdo := none }
  | .updateDr =>
    match j.instr with
    | .samplePreload => { j with boundary := j.dr, tdo := none }
    | .extest => { j with boundary := j.dr, tdo := none }
    | _ => { j with tdo := none }
  | _ => { j with tdo := none }

/-- TCK_EDGE (R513): the TAP works whatever RESET_N does; TRST_N low holds it in Test-Logic-Reset. -/
def State.tckEdge (s : State) (rising tms tdi : Bool) (cells : List Bool) : State :=
  if s.jtag.tck == rising then s
  else
    let s := s.modJtag fun j => { j with tck := rising }
    if !s.pins.trstN then s
    else if !rising then s.modJtag Jtag.onFall
    else
      let (v, s) := if s.jtag.tap == .captureIr then s.fresh else (0, s)
      s.modJtag fun j => let k := j.onRise tdi cells v; { k with tap := k.tap.next tms }

/-- TCK_EDGE (R513). -/
def execTckEdge (rising tms tdi : Bool) (cells : List Bool) (s : State) : Out := keepQueue s (s.tckEdge rising tms tdi cells)

/-- TRST_N_ASSERT (R484, R513): a low level resets the TAP alone. -/
def State.trstN (s : State) (low : Bool) : State :=
  let s := s.modPins fun p => { p with trstN := !low }
  if low then s.modJtag Jtag.toReset else s

/-- TRST_N_ASSERT (R484). -/
def execTrstNAssert (low : Bool) (s : State) : Out := keepQueue s (s.trstN low)

end Sys2Proof.Machine
end

