-- ==== Sys2Proof/Machine/Dispatch.lean ====
section
/-! DEFINITION. The dispatch of a command to its meaning: one arm per constructor. -/

namespace Sys2Proof.Machine

/-- The effect of a command on everything but the queue of waiting commands. -/
def exec (i : Instr) (s : State) : Host.Outcome State Fault Refusal :=
  match i with
  | .resetNAssert lowNs => Sys2Proof.Machine.execResetNAssert lowNs s
  | .resetNRelease boot => Sys2Proof.Machine.execResetNRelease boot s
  | .resetHoldEnd boot => Sys2Proof.Machine.execResetHoldEnd boot s
  | .watchdogService core => Sys2Proof.Machine.execWatchdogService core s
  | .watchdogExpiry core => Sys2Proof.Machine.execWatchdogExpiry core s
  | .reset via value => Sys2Proof.Machine.execReset via value s
  | .resetDelayExpiry => Sys2Proof.Machine.execResetDelayExpiry s
  | .resetReq value => Sys2Proof.Machine.execResetReq value s
  | .scrub target ecc passEnd => Sys2Proof.Machine.execScrub target ecc passEnd s
  | .channelEnable via channel => Sys2Proof.Machine.execChannelEnable via channel s
  | .channelDisable via channel => Sys2Proof.Machine.execChannelDisable via channel s
  | .channelConfigApply channel => Sys2Proof.Machine.execChannelConfigApply channel s
  | .synthLock group => Sys2Proof.Machine.execSynthLock group s
  | .synthLockLoss group => Sys2Proof.Machine.execSynthLockLoss group s
  | .agcDecision channel first samples fill => Sys2Proof.Machine.execAgcDecision channel first samples fill s
  | .trimPreload seg entry opens => Sys2Proof.Machine.execTrimPreload seg entry opens s
  | .trimTakesEffect channel => Sys2Proof.Machine.execTrimTakesEffect channel s
  | .rxBreakwaterOverflow channel => Sys2Proof.Machine.execRxBreakwaterOverflow channel s
  | .txUnderrun channel => Sys2Proof.Machine.execTxUnderrun channel s
  | .mainsBwOverflow unit => Sys2Proof.Machine.execMainsBwOverflow unit s
  | .bwPeakRead via channel fill => Sys2Proof.Machine.execBwPeakRead via channel fill s
  | .stickyFlagRead via idx sub => Sys2Proof.Machine.execStickyFlagRead via idx sub s
  | .txReadinessCheck frame ready => Sys2Proof.Machine.execTxReadinessCheck frame ready s
  | .frameTxStart frame ready => Sys2Proof.Machine.execFrameTxStart frame ready s
  | .frameTxEnd frame => Sys2Proof.Machine.execFrameTxEnd frame s
  | .txBlankEnd channel => Sys2Proof.Machine.execTxBlankEnd channel s
  | .detection channel wave sf seen => Sys2Proof.Machine.execDetection channel wave sf seen s
  | .timingMark channel mark seen => Sys2Proof.Machine.execTimingMark channel mark seen s
  | .acqFail channel => Sys2Proof.Machine.execAcqFail channel s
  | .fineTrim rx seen => Sys2Proof.Machine.execFineTrim rx seen s
  | .groupClose rx => Sys2Proof.Machine.execGroupClose rx s
  | .frameControlCheck rx seen => Sys2Proof.Machine.execFrameControlCheck rx seen s
  | .pilotTrack rx symbol seen => Sys2Proof.Machine.execPilotTrack rx symbol seen s
  | .codewordDecoded rx index iterations bytes => Sys2Proof.Machine.execCodewordDecoded rx index iterations bytes s
  | .shed => Sys2Proof.Machine.execShed s
  | .mpduResolve rx index work => Sys2Proof.Machine.execMpduResolve rx index work s
  | .receptionEnd rx => Sys2Proof.Machine.execReceptionEnd rx s
  | .secondaryDetection channel wave sf seen offset => Sys2Proof.Machine.execSecondaryDetection channel wave sf seen offset s
  | .captureDecision rx => Sys2Proof.Machine.execCaptureDecision rx s
  | .ackSend rx ready => Sys2Proof.Machine.execAckSend rx ready s
  | .ackReceive frame seen => Sys2Proof.Machine.execAckReceive frame seen s
  | .ackWindowExpiry frame => Sys2Proof.Machine.execAckWindowExpiry frame s
  | .swellAckSend rx ready => Sys2Proof.Machine.execSwellAckSend rx ready s
  | .swellAckWindowExpiry frame => Sys2Proof.Machine.execSwellAckWindowExpiry frame s
  | .laneHeaderCheck channel sf bytes seen stamp => Sys2Proof.Machine.execLaneHeaderCheck channel sf bytes seen stamp s
  | .laneFramePlace mpdu => Sys2Proof.Machine.execLaneFramePlace mpdu s
  | .laneFrameStart frame ready => Sys2Proof.Machine.execLaneFrameStart frame ready s
  | .laneFrameEnd frame => Sys2Proof.Machine.execLaneFrameEnd frame s
  | .swellConfigApply channel => Sys2Proof.Machine.execSwellConfigApply channel s
  | .wakeFrame entry => Sys2Proof.Machine.execWakeFrame entry s
  | .mainsCycle => Sys2Proof.Machine.execMainsCycle s
  | .refUnit via value => Sys2Proof.Machine.execRefUnit via value s
  | .observationWindow channel first seen => Sys2Proof.Machine.execObservationWindow channel first seen s
  | .tideSlotEnd channel slot => Sys2Proof.Machine.execTideSlotEnd channel slot s
  | .downlinkPlan seg entry start stop ackReq => Sys2Proof.Machine.execDownlinkPlan seg entry start stop ackReq s
  | .soundRequest entry body => Sys2Proof.Machine.execSoundRequest entry body s
  | .soundTimeout entry => Sys2Proof.Machine.execSoundTimeout entry s
  | .soundingComplete entry heard => Sys2Proof.Machine.execSoundingComplete entry heard s
  | .toneMapResponse entry body => Sys2Proof.Machine.execToneMapResponse entry body s
  | .mapRefresh entry => Sys2Proof.Machine.execMapRefresh entry s
  | .tideReport entry body => Sys2Proof.Machine.execTideReport entry body s
  | .beacon seg => Sys2Proof.Machine.execBeacon seg s
  | .reachBeacon seg => Sys2Proof.Machine.execReachBeacon seg s
  | .associationRequest seg => Sys2Proof.Machine.execAssociationRequest seg s
  | .leaseRenew entry body => Sys2Proof.Machine.execLeaseRenew entry body s
  | .sleepSchedule entry body => Sys2Proof.Machine.execSleepSchedule entry body s
  | .present entry => Sys2Proof.Machine.execPresent entry s
  | .allocRequest entry body => Sys2Proof.Machine.execAllocRequest entry body s
  | .disassociate entry body => Sys2Proof.Machine.execDisassociate entry body s
  | .laneSfSet entry sf => Sys2Proof.Machine.execLaneSfSet entry sf s
  | .longReachSet entry mode sf => Sys2Proof.Machine.execLongReachSet entry mode sf s
  | .neighbourReport entry body => Sys2Proof.Machine.execNeighbourReport entry body s
  | .routeInterval seg => Sys2Proof.Machine.execRouteInterval seg s
  | .relayedAssocTimeout entry => Sys2Proof.Machine.execRelayedAssocTimeout entry s
  | .leaseExpiry entry => Sys2Proof.Machine.execLeaseExpiry entry s
  | .addressHoldExpiry entry => Sys2Proof.Machine.execAddressHoldExpiry entry s
  | .wakeWindowEnd entry => Sys2Proof.Machine.execWakeWindowEnd entry s
  | .adriftHoldExpiry entry => Sys2Proof.Machine.execAdriftHoldExpiry entry s
  | .cursorSelect via cursor sub value => Sys2Proof.Machine.execCursorSelect via cursor sub value s
  | .cursorDisassociate via cursor value => Sys2Proof.Machine.execCursorDisassociate via cursor value s
  | .segEnable via seg => Sys2Proof.Machine.execSegEnable via seg s
  | .segDisable via seg => Sys2Proof.Machine.execSegDisable via seg s
  | .helloSend => Sys2Proof.Machine.execHelloSend s
  | .hello addr header body cmac => Sys2Proof.Machine.execHello addr header body cmac s
  | .peerAbsent device => Sys2Proof.Machine.execPeerAbsent device s
  | .couplingSend => Sys2Proof.Machine.execCouplingSend s
  | .coupling header body cmac => Sys2Proof.Machine.execCoupling header body cmac s
  | .coupleAgeExpiry seg nid => Sys2Proof.Machine.execCoupleAgeExpiry seg nid s
  | .slotMapSend seg => Sys2Proof.Machine.execSlotMapSend seg s
  | .slotMap header body cmac => Sys2Proof.Machine.execSlotMap header body cmac s
  | .claimResolve seg => Sys2Proof.Machine.execClaimResolve seg s
  | .roamQuery header body cmac => Sys2Proof.Machine.execRoamQuery header body cmac s
  | .roamOffer header body cmac => Sys2Proof.Machine.execRoamOffer header body cmac s
  | .roamOfferWaitExpiry eui => Sys2Proof.Machine.execRoamOfferWaitExpiry eui s
  | .roamRequery eui => Sys2Proof.Machine.execRoamRequery eui s
  | .roamAccept header body cmac => Sys2Proof.Machine.execRoamAccept header body cmac s
  | .roamAcceptTimeout eui => Sys2Proof.Machine.execRoamAcceptTimeout eui s
  | .txnRelay header body cmac => Sys2Proof.Machine.execTxnRelay header body cmac s
  | .request session message => Sys2Proof.Machine.execRequest session message s
  | .abort session message => Sys2Proof.Machine.execAbort session message s
  | .abortTakeRecord txn leg => Sys2Proof.Machine.execAbortTakeRecord txn leg s
  | .legQuotaRelease cls => Sys2Proof.Machine.execLegQuotaRelease cls s
  | .respWaitExpiry txn leg => Sys2Proof.Machine.execRespWaitExpiry txn leg s
  | .legDeadline txn leg => Sys2Proof.Machine.execLegDeadline txn leg s
  | .aggTimeExpiry txn => Sys2Proof.Machine.execAggTimeExpiry txn s
  | .cacheTimeExpiry txn => Sys2Proof.Machine.execCacheTimeExpiry txn s
  | .reportRepeat txn => Sys2Proof.Machine.execReportRepeat txn s
  | .alarmReport => Sys2Proof.Machine.execAlarmReport s
  | .keyLoad via slot data env => Sys2Proof.Machine.execKeyLoad via slot data env s
  | .erase via slot value => Sys2Proof.Machine.execErase via slot value s
  | .boundEui via slot eui => Sys2Proof.Machine.execBoundEui via slot eui s
  | .fcReservation slot => Sys2Proof.Machine.execFcReservation slot s
  | .nextActivate via seg second => Sys2Proof.Machine.execNextActivate via seg second s
  | .overlapStart seg => Sys2Proof.Machine.execOverlapStart seg s
  | .promotion seg => Sys2Proof.Machine.execPromotion seg s
  | .nextKeyRetire seg => Sys2Proof.Machine.execNextKeyRetire seg s
  | .admitMode via mode => Sys2Proof.Machine.execAdmitMode via mode s
  | .admitWrite via data => Sys2Proof.Machine.execAdmitWrite via data s
  | .cipherEngineRequest req => Sys2Proof.Machine.execCipherEngineRequest req s
  | .engineOwnerWrite engine user value => Sys2Proof.Machine.execEngineOwnerWrite engine user value s
  | .cipherBlock engine matched dummyRounds released held => Sys2Proof.Machine.execCipherBlock engine matched dummyRounds released held s
  | .cipherMessageEnd engine => Sys2Proof.Machine.execCipherMessageEnd engine s
  | .faultClear via engine value => Sys2Proof.Machine.execFaultClear via engine value s
  | .vaultOperation op => Sys2Proof.Machine.execVaultOperation op s
  | .vaultClear via value => Sys2Proof.Machine.execVaultClear via value s
  | .entropyTestFail => Sys2Proof.Machine.execEntropyTestFail s
  | .ledgerJournalWrite => Sys2Proof.Machine.execLedgerJournalWrite s
  | .commitSecurityVersion via value => Sys2Proof.Machine.execCommitSecurityVersion via value s
  | .rootRevoke via value => Sys2Proof.Machine.execRootRevoke via value s
  | .imageData via data => Sys2Proof.Machine.execImageData via data s
  | .imageVerify via value vaultOk => Sys2Proof.Machine.execImageVerify via value vaultOk s
  | .cuGo via unit value scan => Sys2Proof.Machine.execCuGo via unit value scan s
  | .cuRunEnd unit => Sys2Proof.Machine.execCuRunEnd unit s
  | .scratchDataWrite via data => Sys2Proof.Machine.execScratchDataWrite via data s
  | .queueWrite queue word endMark packetWords user => Sys2Proof.Machine.execQueueWrite queue word endMark packetWords user s
  | .queueRead queue ecc index user => Sys2Proof.Machine.execQueueRead queue ecc index user s
  | .mainsUnitRestart via unit sub value => Sys2Proof.Machine.execMainsUnitRestart via unit sub value s
  | .mainsConfigApply unit => Sys2Proof.Machine.execMainsConfigApply unit s
  | .trigNow via unit value => Sys2Proof.Machine.execTrigNow via unit value s
  | .groupTrigNow via value => Sys2Proof.Machine.execGroupTrigNow via value s
  | .scheduleTrigger who m => Sys2Proof.Machine.execScheduleTrigger who m s
  | .mainsPhaseTrigger who cycle => Sys2Proof.Machine.execMainsPhaseTrigger who cycle s
  | .ppsTrigger => Sys2Proof.Machine.execPpsTrigger s
  | .mctrigEdge rising => Sys2Proof.Machine.execMctrigEdge rising s
  | .waveformSample dumps => Sys2Proof.Machine.execWaveformSample dumps s
  | .phasor unit cycle => Sys2Proof.Machine.execPhasor unit cycle s
  | .cycleIntegral unit cycle bits => Sys2Proof.Machine.execCycleIntegral unit cycle bits s
  | .sh240Result unit nanovolts => Sys2Proof.Machine.execSh240Result unit nanovolts s
  | .alarmHoldoffExpiry unit => Sys2Proof.Machine.execAlarmHoldoffExpiry unit s
  | .eventRead via unit j => Sys2Proof.Machine.execEventRead via unit j s
  | .linkUp port => Sys2Proof.Machine.execLinkUp port s
  | .linkDown port => Sys2Proof.Machine.execLinkDown port s
  | .ethFrameRx port frame => Sys2Proof.Machine.execEthFrameRx port frame s
  | .ethFrameTxEnd port => Sys2Proof.Machine.execEthFrameTxEnd port s
  | .addressResolution port kind target => Sys2Proof.Machine.execAddressResolution port kind target s
  | .icmpEcho port => Sys2Proof.Machine.execIcmpEcho port s
  | .nbDatagram d => Sys2Proof.Machine.execNbDatagram d s
  | .sessionWrite via session sub data => Sys2Proof.Machine.execSessionWrite via session sub data s
  | .ptpMessage m => Sys2Proof.Machine.execPtpMessage m s
  | .sourceLoss kind => Sys2Proof.Machine.execSourceLoss kind s
  | .coastLimitExpiry => Sys2Proof.Machine.execCoastLimitExpiry s
  | .timeSet via value => Sys2Proof.Machine.execTimeSet via value s
  | .ppsInEdge => Sys2Proof.Machine.execPpsInEdge s
  | .ppsInTimeout => Sys2Proof.Machine.execPpsInTimeout s
  | .ppsOutRise => Sys2Proof.Machine.execPpsOutRise s
  | .ppsOutFall => Sys2Proof.Machine.execPpsOutFall s
  | .sdoDownloadExpedited canId frame env => Sys2Proof.Machine.execSdoDownloadExpedited canId frame env s
  | .sdoDownloadInitiate canId frame => Sys2Proof.Machine.execSdoDownloadInitiate canId frame s
  | .sdoDownloadSegment canId frame env => Sys2Proof.Machine.execSdoDownloadSegment canId frame env s
  | .sdoUploadInitiate canId frame => Sys2Proof.Machine.execSdoUploadInitiate canId frame s
  | .sdoUploadSegment canId frame => Sys2Proof.Machine.execSdoUploadSegment canId frame s
  | .sdoAbort canId frame => Sys2Proof.Machine.execSdoAbort canId frame s
  | .sdoTimeout => Sys2Proof.Machine.execSdoTimeout s
  | .canBusOff => Sys2Proof.Machine.execCanBusOff s
  | .canBusOffRecovery => Sys2Proof.Machine.execCanBusOffRecovery s
  | .accessRead src => Sys2Proof.Machine.execAccessRead src s
  | .accessWrite src env => Sys2Proof.Machine.execAccessWrite src env s
  | .snapshotTimeout path => Sys2Proof.Machine.execSnapshotTimeout path s
  | .spiRead addr words => Sys2Proof.Machine.execSpiRead addr words s
  | .spiWrite addr words => Sys2Proof.Machine.execSpiWrite addr words s
  | .pairLowRead addr => Sys2Proof.Machine.execPairLowRead addr s
  | .pairHighRead addr => Sys2Proof.Machine.execPairHighRead addr s
  | .winStatusRead => Sys2Proof.Machine.execWinStatusRead s
  | .mbxDoorbell len => Sys2Proof.Machine.execMbxDoorbell len s
  | .storeAll via value flashFits => Sys2Proof.Machine.execStoreAll via value flashFits s
  | .restoreAll via value => Sys2Proof.Machine.execRestoreAll via value s
  | .objectWrite via idx sub data => Sys2Proof.Machine.execObjectWrite via idx sub data s
  | .loopTest via channel => Sys2Proof.Machine.execLoopTest via channel s
  | .loopTestDone samples => Sys2Proof.Machine.execLoopTestDone samples s
  | .selWrite via bank k value => Sys2Proof.Machine.execSelWrite via bank k value s
  | .bankClear via bank value => Sys2Proof.Machine.execBankClear via bank value s
  | .dumpLatch => Sys2Proof.Machine.execDumpLatch s
  | .dumpRecordWritten => Sys2Proof.Machine.execDumpRecordWritten s
  | .sampleRingRead via => Sys2Proof.Machine.execSampleRingRead via s
  | .sampleConfigWrite via sub value => Sys2Proof.Machine.execSampleConfigWrite via sub value s
  | .expectedWindowEnd channel => Sys2Proof.Machine.execExpectedWindowEnd channel s
  | .laneBlankEnd channel => Sys2Proof.Machine.execLaneBlankEnd channel s
  | .entropyRecovery => Sys2Proof.Machine.execEntropyRecovery s
  | .flashWriteDone ok => Sys2Proof.Machine.execFlashWriteDone ok s
  | .ptpMessageSend kind tx16 => Sys2Proof.Machine.execPtpMessageSend kind tx16 s
  | .tckEdge rising tms tdi cells => Sys2Proof.Machine.execTckEdge rising tms tdi cells s
  | .trstNAssert low => Sys2Proof.Machine.execTrstNAssert low s

end Sys2Proof.Machine
end

