-- ==== Sys2Proof/Machine/Step.lean ====
section
/-! DEFINITION. One step of the block: the command at the front of the queue has its effect; on an empty queue the block idles
for one T0 tick (assumption log, entry 3). -/

namespace Sys2Proof.Machine

/-- One step. -/
def step (s : State) : Host.Outcome State Fault Refusal :=
  match s.pending with
  | [] => .next (s.passTo (s.now + 1))
  | c :: rest => exec c (s.modPending fun _ => rest)

/-- The state with the command that a word spells at the front of its queue, or the state itself where the word spells none. -/
def State.withFetchWord (s : State) (nbits w : Nat) : State :=
  match decodeTableWord nbits w with
  | some c => s.modPending fun q => c :: q
  | none => s

end Sys2Proof.Machine
end

