-- ==== Sys2Proof/Safety.lean ====
section
/-! DEFINITION. What a safe run is, in the terms that statements use: which parts of the state a command may change, and the
invariant that every step keeps. -/

namespace Sys2Proof.Machine

/-- The parts of the state. -/
inductive Part where
  | pending | now | free | sys | pins | dict | blobs | mgmt | flash | keys | svc | wm | mains | bh | time | perf | jtag | loop
  | tracker | tides | mac | domain | txn | line
  deriving DecidableEq, Repr

/-- A part is the same in two states. -/
def Part.Same (p : Part) (s t : State) : Prop :=
  match p with
  | .pending => t.pending = s.pending
  | .now => t.now = s.now
  | .free => t.free = s.free
  | .sys => t.sys = s.sys
  | .pins => t.pins = s.pins
  | .dict => t.dict = s.dict
  | .blobs => t.blobs = s.blobs
  | .mgmt => t.mgmt = s.mgmt
  | .flash => t.flash = s.flash
  | .keys => t.keys = s.keys
  | .svc => t.svc = s.svc
  | .wm => t.wm = s.wm
  | .mains => t.mains = s.mains
  | .bh => t.bh = s.bh
  | .time => t.time = s.time
  | .perf => t.perf = s.perf
  | .jtag => t.jtag = s.jtag
  | .loop => t.loop = s.loop
  | .tracker => t.tracker = s.tracker
  | .tides => t.tides = s.tides
  | .mac => t.mac = s.mac
  | .domain => t.domain = s.domain
  | .txn => t.txn = s.txn
  | .line => t.line = s.line

/-- From `s` to `t` at most the parts `ps` have changed. -/
def OnlyChanges (ps : List Part) (s t : State) : Prop := ∀ p : Part, p ∉ ps → p.Same s t

/-- From `s` to `t` at most the registers `rs` of the object dictionary have changed. -/
def OnlyRegs (rs : List Reg) (s t : State) : Prop :=
  ∀ k : Nat, k ∉ rs.map Reg.key → Tbl.at? t.dict k = Tbl.at? s.dict k

/-- At most the numbers `ks` of a table have other entries. -/
def OnlyKeys {α : Type} (ks : List Nat) (a b : Tbl α) : Prop := ∀ k : Nat, k ∉ ks → Tbl.at? b k = Tbl.at? a k

/-- `t` is what a reset of `s` leaves (R484, R491): the device is in phase `p`, every part is as after reset but the flash, the
fuses, the TAP and the levels that the board drives, and no flash operation goes on. -/
def ResetTo (p : Phase) (s t : State) : Prop :=
  t.sys.phase = p ∧ t.sys.wdDue = [] ∧ t.sys.halted = [] ∧ t.sys.resetDue = none ∧ t.now = 0 ∧
    t.mgmt = State.reset.mgmt ∧ t.keys = State.reset.keys ∧ t.svc = State.reset.svc ∧ t.wm = [] ∧ t.mains = State.reset.mains ∧
    t.bh = State.reset.bh ∧ t.time = State.reset.time ∧ t.perf = State.reset.perf ∧ t.loop = State.reset.loop ∧
    t.tracker = State.reset.tracker ∧ t.tides = [] ∧ t.mac = State.reset.mac ∧ t.domain = State.reset.domain ∧
    t.txn = State.reset.txn ∧ t.line = State.reset.line ∧ t.blobs = [] ∧
    t.flash.ops = [] ∧ t.flash.eui64 = s.flash.eui64 ∧ t.flash.macBase = s.flash.macBase ∧
    t.flash.minVersion = s.flash.minVersion ∧ t.flash.rootRevoked = s.flash.rootRevoked ∧
    (s.flash.ops = [] → t.flash.image = s.flash.image ∧ t.flash.stores = s.flash.stores ∧ t.flash.ledger = s.flash.ledger) ∧
    t.jtag = s.jtag ∧ t.pins.trstN = s.pins.trstN ∧ t.pins.mctrig = s.pins.mctrig ∧ t.pins.ppsOut = false ∧
    t.pins.canTxRecessive = true

/-- The reset cause that `t` holds (R447). -/
def CauseIs (t : State) (cause core memory detail : Nat) : Prop :=
  t.rd K.cause.CAUSE = cause ∧ t.rd K.cause.CORE = core ∧ t.rd K.cause.MEMORY = memory ∧ t.rd K.cause.DETAIL = detail

/-- C0 runs its firmware and takes an access on path `via` to an object of level `level` (R25, R434). -/
def State.MayAccess (s : State) (via : Path) (level : Nat) : Prop := s.coreUp 0 = true ∧ level ≤ s.levelOf via

/-- The dictionary access between `s` and `t` was accepted and returned no bytes; the transports are as before. -/
def Accepted (s t : State) : Prop := t.mgmt = { s.mgmt with lastAbort := 0, lastData := [] }

/-- Counter `r` has advanced by one, unless it stood at its maximum (R453). -/
def Counted (r : Reg) (s t : State) : Prop := t.rd r = min (2 ^ r.bits - 1) (s.rd r + 1)

/-- The invariant of every step: working memory stands in its canonical form. -/
def State.Sound (s : State) : Prop := memWf s.wm = true

end Sys2Proof.Machine
end

