-- ==== Sys2Proof/Certificates/Slice0/Obligations.lean ====
section
/-! DEFINITION. The statements for the provers. Each docstring says what is stated and which rules of the spec it rests on. The
definitions before them name what several statements share. -/

set_option linter.unusedVariables false

open Sys2Proof Sys2Proof.Machine

namespace Sys2Proof.Machine

/-- The packet of output bytes `out` and their status word goes into the output queue of engine `e`. -/
def TakesPacket (e : Nat) (code : EndCode) (out : List Byte) (s t : State) : Prop :=
  (s.queue (16 + e)).words.length + (outWords out).length < 2048 → (s.queue (16 + e)).dropping = false →
    (s.queue (16 + e)).stalled = false → (s.queue (16 + e)).heldBack = [] →
    (t.queue (16 + e)).words =
      (s.queue (16 + e)).words ++ (outWords out).map (fun w => (w, false)) ++ [(statusWord code e out.length, true)]

/-- A conversion of a unit in state `m` begins at edge `e` and latches at `latch`. -/
def Converts (m : MainsUnit) (e latch : Nat) (n : MainsUnit) : Prop :=
  n = { m with
    busy := true, edge := e, trigTick := e, pended := false, pending := none, sum := 0, summed := 0, sumFlags := 0
    latchNext := some latch, winEnd := latch }

/-- A trigger of an ungrouped unit `u`, recognised at edge `e`, has its one effect between `s` and `t`. -/
def TriggerActs (u e : Nat) (s t : State) : Prop :=
  ((s.unit u).triggered = false → t.unit u = s.unit u) ∧
  ((s.unit u).triggered = true → (s.unit u).busy = false →
    Converts (s.unit u) e (e + (s.unit u).cfg.startUp + clocks (latchOffset u)) (t.unit u)) ∧
  ((s.unit u).triggered = true → (s.unit u).busy = true → (s.unit u).pending = none →
    (s.unit u).edge ≠ e ∨ (s.unit u).pended = true → t.unit u = { s.unit u with pending := some e }) ∧
  ((s.unit u).triggered = true → (s.unit u).busy = true →
    (s.unit u).pending.isSome = true ∨ (s.unit u).edge = e ∧ (s.unit u).pended = false →
    t.unit u = s.unit u ∧ t.flag (K.mcr.TRIGGER_LOST u) = true ∧ Counted (K.mcr.TRIGGER_LOST_COUNT u) s t) ∧
  (∀ v, v ≠ u → t.unit v = s.unit v)

/-- A result of unit `u` stands in its result objects. -/
def ResultIs (u : Nat) (v : Int) (flags latch : Nat) (s t : State) : Prop :=
  Counted (K.mcr.RESULTS u) s t ∧ (t.unit u).ring.getLast? = some ⟨latch, v, flags⟩ ∧ 
    ((s.unit u).ring.length ≤ 1024 → (t.unit u).ring.length ≤ 1024) ∧
    t.rdB (K.mcr.LAST_RESULT u) = leBytes 4 (twos 32 v) ++ leBytes 2 flags ++
      leBytes 2 (ofLe (((s.rdB (K.mcr.LAST_RESULT u)).drop 6).take 2) + 1) ++ leBytes 8 latch

/-- A result `v` of unit `u`, which stands as `m`, enters the averager (R382): it is summed, or the average goes out to C0. -/
def Averages (u : Nat) (m : MainsUnit) (v : Int) (flags latch : Nat) (s t : State) : Prop :=
  (m.summed + 1 < 2 ^ m.cfg.avg → t.unit u = { m with
    sum := m.sum + v, summed := m.summed + 1, firstLatch := if m.summed = 0 then latch else m.firstLatch, sumFlags := flags ||| m.sumFlags }) ∧
  (2 ^ m.cfg.avg ≤ m.summed + 1 → s.coreUp 0 = true → s.queueFull (112 + u) = false →
    ResultIs u ((m.sum + v) / 2 ^ m.cfg.avg) ((flags ||| m.sumFlags) + 8 * boolNat (m.cfg.acq == 1 && m.pended))
      (if m.summed = 0 then latch else m.firstLatch) s t ∧ (t.unit u).cfg = s.mainsCfg u ∧ (t.unit u).summed = 0 ∧
    (m.cfg.acq = 1 → m.trigTick ≠ 0 → t.rd (K.mcr.TRIG_TICK u) = m.trigTick % 2 ^ 64) ∧
    (m.cfg.acq = 1 → m.cfg.grouped = false → m.pending = none → m.cfg.thSources.1 ≠ 0 → m.cfg.thSources.2 ≠ 0 →
      (t.unit u).busy = false))

/-- Dump `k` of unit `u` with word `w` arrives while no other word waits, and stages 1 and 2 make of it `m` and the sample `x`. -/
def OneDump (u k w : Nat) (m : MainsUnit) (x : Option (Int × Nat)) (s : State) : Prop :=
  (s.unit u).cfg.mode = 1 ∧ (s.unit u).cfg.path = 0 ∧ (s.unit u).nextDump ≤ k ∧ (s.unit u).startAt ≤ dumpTick u k ∧
    (∀ p ∈ s.mains.units, p.2.words = []) ∧
    ({ s.unit u with nextDump := k + 1, words := [(k, w % 2 ^ 48)] } : MainsUnit).takeWord k (w % 2 ^ 48) (dumpTick u k) = (m, x)

/-- Frame `x` has been given to port `p`. -/
def Queued (p : Nat) (x : TxItem) (s t : State) : Prop :=
  (s.linkUp p = false → Counted (K.ports.TX_LINK_DOWN p) s t ∧ t.bh = s.bh) ∧
  (s.linkUp p = true → (s.port p).sending.isSome = true → t.port p = { s.port p with txq := insertTx x (s.port p).txq }) ∧
  (s.linkUp p = true → (s.port p).sending = none → (s.port p).txq = [] → t.port p = { s.port p with sending := some x }) ∧
  (∀ q, q ≠ p → t.port q = s.port q)

/-- The server's CAN FD frame: `bytes` and zeros up to 64. -/
def CanSends (bytes : List Byte) (t : State) : Prop := t.mgmt.canTx = (bytes ++ List.replicate 64 0).take 64

/-- The transfer on CAN FD ends with an abort frame. -/
def SdoAborts (idx sub : Nat) (a : Abort) (s t : State) : Prop :=
  CanSends (sdoHead 0x80 idx sub ++ leBytes 4 a.code) t ∧ t.mgmt.canXfer = none ∧ t.mgmt.lastAbort = a.code ∧ OnlyChanges [.mgmt] s t

/-- A new MPDU stands at the end of the queue for entry `i`; a sleeper is woken for P0 and P1 (R222). -/
def SendsTo (i type pri : Nat) (kind : DownKind) (body : List Byte) (s t : State) : Prop :=
  ∃ d : Down, t.mac.queue = s.mac.queue ++ [d] ∧ d.entry = some i ∧ d.type = type ∧ d.pri = pri ∧ d.kind = kind ∧ d.body = body ∧
    d.seq = none ∧ d.tries = 0 ∧ d.frame = none ∧
    (pri ≤ 1 →
      (s.asleep i = true → s.wakePossible i = true → (Tbl.at? t.line.wakes i).isSome = true) ∧
      (s.asleep i = false ∨ s.wakePossible i = false → t.line.wakes = s.line.wakes))

/-- Entry `i` has other fields and no other entry has. -/
def EpBecomes (i : Nat) (e : Ep) (s t : State) : Prop := t.ep i = e ∧ ∀ j, j ≠ i → t.ep j = s.ep j

/-- Entry `i` has entered `EXPIRED` by tick `at'` (R213). -/
def Expires (i at' : Nat) (s t : State) : Prop :=
  (t.ep i).state = 3 ∧ (t.ep i).expired = at' ∧ (t.ep i).eui = (s.ep i).eui ∧ (t.ep i).addr = (s.ep i).addr ∧
    (t.ep i).seg = (s.ep i).seg ∧ (t.ep i).mapUp = [0, 0, 0] ∧ (t.ep i).mapPend = [0, 0, 0] ∧
    (t.ep i).mapDn = [0, 0, 0] ∧ Counted (K.segs.LEASE_EXPIRED (s.ep i).seg) s t ∧
    (∀ d ∈ t.mac.queue, d.entry = some i → d.frame.isSome = true ∨ d.kind = .routeSet)

/-- Entry `i` has become free again (R213). -/
def Freed (i : Nat) (s t : State) : Prop :=
  t.ep i = { Ep.reset with unusable := (s.ep i).unusable } ∧ (∀ d ∈ t.mac.queue, d.entry = some i → d.frame.isSome = true)

/-- The reception `r` of channel `n` alone is gone, its receiver is free, and counter `c` has advanced (R143). -/
def Rinsed (r n : Nat) (c : Reg) (s t : State) : Prop :=
  t.rx? r = none ∧ (t.chan n).rx = none ∧ (t.chan n).frozen = false ∧ (t.chan n).written = some ((t.idleTrim n).1, (t.idleTrim n).2 % 64, t.now) ∧
    Counted c s t

/-- No cipher engine holds or awaits work of reception `r`. -/
def State.noOpenings (s : State) (r : Nat) : Prop :=
  (∀ q ∈ s.keys.waiting, q.mpdu.any (fun p => p.1 == r) = false) ∧
    ∀ e, e < 64 → ∀ m ∈ (s.engine e).msgs, m.req.mpdu.any (fun p => p.1 == r) = false

/-- No cipher engine holds or awaits work of MPDU `j` of reception `r`. -/
def State.noOpening (s : State) (r j : Nat) : Prop :=
  (∀ q ∈ s.keys.waiting, q.mpdu ≠ some (r, j)) ∧ ∀ e, e < 64 → ∀ m ∈ (s.engine e).msgs, m.req.mpdu ≠ some (r, j)

/-- The maps of the link do not watch reception `x` (R182). -/
def unwatched (x : Reception) : Prop := x.wave = .ofdm → onClassMap x.fc = false

/-- Channel `n`'s line receiver holds reception `r`, of that channel alone. -/
def Alone (n r : Nat) (x : Reception) (s : State) : Prop :=
  (s.chan n).rx = some r ∧ s.rx? r = some x ∧ (∃ m, x.members = [m] ∧ m.chan = n) ∧ isLane x.wave = false

/-- The line reception `r` is now held passively, and counter `c` has advanced (R141). -/
def HeldPassively (r : Nat) (c : Reg) (s t : State) : Prop := (∃ y, t.rx? r = some y ∧ y.stage = .passive) ∧ Counted c s t

/-- The device can send and check two Draivitar messages: C6 runs, the domain is enabled and its key is usable and not near its last
use. -/
def DrvReady (s : State) : Prop :=
  s.coreUp 6 = true ∧ s.flag K.dom.DOMAIN_ENABLE = true ∧ s.slotUsable (s.rd K.dom.DOMAIN_KEY_SLOT) = true ∧
    s.rd K.dom.DOMAIN_KEY_SLOT < 1024 ∧ s.bh.domainPort < 4 ∧ (s.portCfg s.bh.domainPort).group ≠ [] ∧
    s.rd (K.key.USE_COUNT (s.rd K.dom.DOMAIN_KEY_SLOT)) + 2 < (s.slot (s.rd K.dom.DOMAIN_KEY_SLOT)).limit ∧
    s.rd (K.key.TX_FC (s.rd K.dom.DOMAIN_KEY_SLOT)) ≠ 0xFFFFFFFF

/-- The key of the domain (R254). -/
def State.domainKey (s : State) : List Byte := (s.slot (s.rd K.dom.DOMAIN_KEY_SLOT)).key

/-- One Draivitar message has gone out to a peer of known address, or to the group where `peer` is none. -/
def DrvSends (type : Nat) (peer : Option Nat) (body : List Byte) (s t : State) : Prop :=
  (s.drvAddr peer ≠ [] →
    Queued s.bh.domainPort ⟨3, .domain peer (s.drvAddr peer)
      (s.drvHeader type body.length ++ body ++ cmacOf s.domainKey (s.drvHeader type body.length ++ body))⟩ s t ∧
    t.domain.seq = (s.domain.seq + 1) % 2 ^ 32) ∧
  (s.drvAddr peer = [] → t.bh = s.bh ∧ t.domain.seq = s.domain.seq)

/-- A message of a type from another device that passes the checks before its CMAC. -/
def DrvFrom (type : Nat) (header body : List Byte) (h : DrvHead) (s : State) : Prop :=
  drvRead header = some h ∧ h.type = type ∧ h.version = 1 ∧ h.len = body.length ∧ h.domain = s.domain.id ∧ h.src ≠ s.domain.number

/-- The messages that a peer sends, with their types (R256). -/
def drvCommands (addr header body cmac : List Byte) : List (Instr × Nat) :=
  [(.hello addr header body cmac, 1), (.coupling header body cmac, 2), (.slotMap header body cmac, 3), (.roamQuery header body cmac, 4),
    (.roamOffer header body cmac, 5), (.roamAccept header body cmac, 6), (.txnRelay header body cmac, 7)]

/-- The key under which a load of slot `i` is unwrapped (R305): that of slot 992, or the fused provisioning key for slot 992 itself. -/
def State.loadKek (s : State) (i : Nat) : List Byte := if i = 992 then s.flash.provisionKey else (s.slot 992).key

/-- A vault function whose result its operands and the slots fix and that uses no slot: all but an unwrap and random bytes (R308,
R334). -/
def fnPlain : VaultFn → Bool
  | .keyUnwrap _ _ => false
  | .random _ => false
  | _ => true

/-- The northbound sessions name key slots and ports that exist. -/
def SessionsSet (s : State) : Prop := ∀ k : Nat, k < 16 → s.rd (K.sess.KEY_SLOT k) < 1024 ∧ s.rd (K.sess.SESS_PORT k) < 4

/-- The datagram that carries message `msg` of class `pri` to session `k` under its slot's next frame counter (R409, R410). -/
def State.nbItem (s : State) (k pri : Nat) (msg : List Byte) : TxItem :=
  ⟨nbLevel pri, .northbound k pri (s.rd (K.key.TX_FC (s.rd (K.sess.KEY_SLOT k)))) msg
    (nbPayload (s.slot (s.rd (K.sess.KEY_SLOT k))).key (s.sessionHeader k true (s.rd (K.key.TX_FC (s.rd (K.sess.KEY_SLOT k))))) msg)⟩

/-- Message `msg` of class `pri` has gone to session `k`: counted as lost while the session or its key is not usable, else given
to its port under the slot's next frame counter. -/
def NbSends (k pri : Nat) (msg : List Byte) (s t : State) : Prop :=
  (s.flag (K.sess.SESS_ENABLE k) = false → Counted (K.sesss.NO_KEY k) s t ∧ t.bh.ports = s.bh.ports) ∧
  (s.flag (K.sess.SESS_ENABLE k) = true → s.linkUp (s.rd (K.sess.SESS_PORT k)) = true →
    (s.slotUsable (s.rd (K.sess.KEY_SLOT k)) = false → Counted (K.sesss.NO_KEY k) s t ∧ t.bh.ports = s.bh.ports) ∧
    (s.fcReady (s.rd (K.sess.KEY_SLOT k)) = true → (s.port (s.rd (K.sess.SESS_PORT k))).sending.isSome = true →
      t.port (s.rd (K.sess.SESS_PORT k)) =
        { s.port (s.rd (K.sess.SESS_PORT k)) with
          txq := insertTx (s.nbItem k pri msg) (s.port (s.rd (K.sess.SESS_PORT k))).txq }))

/-- Leg `j` of transaction `k` is the only one, is open and is held here, and none of its MPDUs waits. -/
def SoleLeg (k j : Nat) (x : Txn) (l : Leg) (s : State) : Prop :=
  s.txn? k = some x ∧ j = 0 ∧ x.legs = [l] ∧ x.many = false ∧ x.open_ = [] ∧ l.open' = true ∧ l.movedTo = none ∧ k < 2 ^ 32 ∧ x.pri < 4 ∧
    x.session < 16 ∧ ∀ d ∈ s.mac.queue, d.kind.ofLeg k j = false

/-- The transaction has ended: its one leg with this outcome and cause, its record in the cache from now. -/
def EndsWith (k : Nat) (l : Leg) (outcome cause : Nat) (t : State) : Prop :=
  ∃ y, t.txn? k = some y ∧ y.legs = [{ l with phase := .ended outcome cause, respDue := none, waits := false }] ∧ y.aborting = false ∧
    y.cachedTo = some (t.now + secTicks (t.rd K.txn.CACHE_TIME))

end Sys2Proof.Machine

/-- A step is exec of the front command on the state with the rest of the queue. Rests on 95_what_each_step_holds.md, INDEX.md. -/
def Obligations.StepRunsFrontCommandOnRestOfQueue : Prop :=
  ∀ (c : Instr) (rest : List Instr) (s : State), s.pending = c :: rest → step s = exec c (s.modPending fun _ => rest)

/-- On an empty queue a step lets one T0 tick pass (the model's choice, log entry 3). Rests on R15 (01_device_map.md), R420
(13_backhaul_port.md). -/
def Obligations.EmptyQueueIdlesOneTick : Prop :=
  ∀ s : State, s.pending = [] →
    ∃ t, step s = .next t ∧ t.now = s.now + 1 ∧ OnlyChanges [.now, .free, .dict, .perf, .tracker, .tides] s t

/-- Every step of every state answers a next state and takes exactly the front command from the queue. Rests on
95_what_each_step_holds.md, INDEX.md. -/
def Obligations.EveryStepAnswersAndConsumesTheFront : Prop :=
  ∀ s : State, ∃ t, step s = .next t ∧ t.pending = s.pending.tail

/-- State.reset holds the values that the spec gives for the end of boot. Rests on R490 (16_supply_reset_boot.md), R184
(06_tide_tables.md), R281 (09_transactions.md), R417 (13_backhaul_port.md). -/
def Obligations.ResetStateHoldsTheStatedValues : Prop :=
  State.reset.running = true ∧ State.reset.pending = [] ∧ State.reset.now = 0 ∧ State.reset.Sound ∧
    State.reset.trkState = 0 ∧ State.reset.flag K.trks.HOLDOVER_SEEN = true ∧ State.reset.tracker.period = nominalPeriod 50 ∧
    (∀ n i : Nat, (State.reset.tide n i).cls = 3 ∧ (State.reset.tide n i).obs = 0) ∧ State.reset.mac.pages = [] ∧
    (∀ n : Nat, (State.reset.chan n).gain = 84 ∧ (State.reset.chan n).rx = none) ∧
    (∀ i : Nat, (State.reset.ep i).state = 0 ∧ (State.reset.ep i).driftEmpty = true ∧ (State.reset.ep i).lineTag = 0) ∧
    (∀ i : Nat, i < 1024 → State.reset.slotState i = 0 ∧ State.reset.rd (K.key.USE_COUNT i) = 0 ∧ State.reset.flag (K.key.SHADOW_PENDING i) = false) ∧
    (∀ e : Nat, e < 64 → (State.reset.engine e).running = none ∧ State.reset.rd (K.eng.FAULT_COUNT e) = 0) ∧
    State.reset.rd K.vault.VAULT_FAULTS = 0 ∧ State.reset.txn.txns = [] ∧
    (∀ c : Nat, 1 ≤ c → c ≤ 3 → State.reset.tokensNow c = State.reset.rd (K.cls.QUOTA c) * 409600000) ∧
    State.reset.domain.heard = [] ∧ State.reset.domain.peers = [] ∧ State.reset.domain.seq = 0 ∧
    State.reset.flag K.doms.DEVICE_CLASH = false ∧ State.reset.dtState = 0 ∧ State.reset.dt = 0 ∧
    (∀ q : Nat, State.reset.queue q = HwQueue.empty) ∧ State.reset.mac.retiredPages = [] ∧ State.reset.bh.windows = [] ∧
    State.reset.mgmt.windows = [] ∧ State.reset.perf.ring = [] ∧ State.reset.perf.samples = [] ∧ State.reset.rd K.perf.DUMP_SEQ = 0

/-- Every step keeps working memory in its canonical form. Rests on R20 (01_device_map.md), R362 (11_check_units_and_queues.md). -/
def Obligations.EveryStepKeepsWorkingMemoryCanonical : Prop :=
  ∀ s t : State, s.Sound → step s = .next t → t.Sound

/-- A low level on RESET_N resets by its length, and boot begins when it rises. Rests on R483. -/
def Obligations.LowResetPinResetsByItsLength : Prop :=
  ∀ (lowNs : Nat) (s : State), ∃ t, exec (.resetNAssert lowNs) s = .next t ∧
    (lowNs < 1000 → t = s) ∧
    (10000 ≤ lowNs → ResetTo .held s t ∧ t.pins.resetN = false ∧ CauseIs t 0 255 0 0 ∧ t.rd K.cause.INTERNAL_RESETS = 0 ∧
      ∀ e : BootEnv, exec (.resetNRelease e) t = .next ((t.modPins fun p => { p with resetN := true }).boot e)) ∧
    (1000 ≤ lowNs → lowNs < 10000 →
      OnlyChanges [.free] s t ∨
        ResetTo .held s t ∧ t.pins.resetN = false ∧ CauseIs t 0 255 0 0 ∧ t.rd K.cause.INTERNAL_RESETS = 0)

/-- RESET resets 10 ms after its write, RESET_REQ at once; both as RESET_N does but for the cause. Rests on R448. -/
def Obligations.ResetWriteAndResetRequestResetTheDevice : Prop :=
  ∀ s : State,
    (∀ (via : Path) (value : Nat), value < 2 ^ 32 → value ≠ 0x74657372 → s.MayAccess via 2 →
      exec (.reset via value) s = .next (s.answer 0x06090030 [])) ∧
    (∀ via : Path, s.MayAccess via 2 → s.sys.resetDue = none →
      ∃ t, exec (.reset via 0x74657372) s = .next t ∧ Accepted s t ∧
        t.sys = { s.sys with resetDue := some (s.now + 4096000, match via with
          | .can => 0
          | .udp _ => 1
          | _ => 2) } ∧ OnlyChanges [.sys, .mgmt] s t) ∧
    (∀ (via : Path) (due : Nat × Nat), s.MayAccess via 2 → s.sys.resetDue = some due →
      ∃ t, exec (.reset via 0x74657372) s = .next t ∧ Accepted s t ∧ OnlyChanges [.mgmt] s t) ∧
    (∀ due detail : Nat, detail < 2 ^ 32 → s.sys.resetDue = some (due, detail) →
      ∃ t, exec .resetDelayExpiry s = .next t ∧ ResetTo .hold s t ∧ CauseIs t 3 255 0 detail ∧
        t.rd K.cause.INTERNAL_RESETS = min (2 ^ 32 - 1) (s.rd K.cause.INTERNAL_RESETS + 1)) ∧
    (s.running = true ∨ s.sys.phase = .recovery →
      ∃ t, exec (.resetReq 0xA5A55A5A) s = .next t ∧ ResetTo .hold s t ∧ CauseIs t 3 255 0 2 ∧
        t.rd K.cause.INTERNAL_RESETS = min (2 ^ 32 - 1) (s.rd K.cause.INTERNAL_RESETS + 1)) ∧
    (s.sys.resetDue = none → exec .resetDelayExpiry s = .next s) ∧
    (∀ value : Nat, value ≠ 0xA5A55A5A → exec (.resetReq value) s = .next s)

/-- A watchdog left unserviced for 100 ms resets the device and names its core; a service defers it. Rests on R26
(01_device_map.md), R23 (01_device_map.md), R447 (14_object_dictionary.md), R486 (16_supply_reset_boot.md). -/
def Obligations.UnservicedWatchdogResetsTheDevice : Prop :=
  ∀ (core : Nat) (s : State), s.running = true →
    (∀ due : Nat, core < 256 → Tbl.at? s.sys.wdDue core = some due → Tbl.at? s.sys.halted core = none →
      ∃ t, exec (.watchdogExpiry core) s = .next t ∧ ResetTo .hold s t ∧ CauseIs t 1 core 0 0 ∧
        t.rd K.cause.INTERNAL_RESETS = min (2 ^ 32 - 1) (s.rd K.cause.INTERNAL_RESETS + 1)) ∧
    (∀ (due : Nat) (e : MemErr), core < 256 → e.memory < 256 → e.detail < 2 ^ 32 → Tbl.at? s.sys.wdDue core = some due →
      Tbl.at? s.sys.halted core = some e →
      ∃ t, exec (.watchdogExpiry core) s = .next t ∧ ResetTo .hold s t ∧ CauseIs t 2 core e.memory e.detail ∧
        t.rd K.cause.INTERNAL_RESETS = min (2 ^ 32 - 1) (s.rd K.cause.INTERNAL_RESETS + 1)) ∧
    (core < 8 → Tbl.at? s.sys.halted core = none →
      ∃ t, exec (.watchdogService core) s = .next t ∧ Tbl.at? t.sys.wdDue core = some (s.now + 40960000) ∧
        OnlyKeys [core] s.sys.wdDue t.sys.wdDue ∧ OnlyChanges [.sys, .perf] s t ∧
        t.sys = { s.sys with wdDue := t.sys.wdDue }) ∧
    (core < 8 → (Tbl.at? s.sys.halted core).isSome = true → exec (.watchdogService core) s = .next s)

/-- Boot runs the first candidate that passes its checks, or enters recovery mode. Rests on R344
(10_keys_and_cipher_engines.md), R345 (10_keys_and_cipher_engines.md), R488 (16_supply_reset_boot.md), R490
(16_supply_reset_boot.md). -/
def Obligations.BootRunsTheFirstGoodImageOrEntersRecovery : Prop :=
  (∀ (c : Instr) (e : BootEnv) (s : State) (k : Nat) (failed rest : List Nat),
     c = .resetNRelease e ∧ s.sys.phase = .held ∨ c = .resetHoldEnd e ∧ s.sys.phase = .hold →
     s.flash.ops = [] → s.flash.stores = [] → e.selfTestOk = true → s.candidates = failed ++ k :: rest →
     (∀ j ∈ failed, s.slotResult j ≠ .ok) → s.slotResult k = .ok →
     ∃ t, exec c s = .next t ∧ t.sys.phase = .running ∧ t.now = 0 ∧ t.sys.canId = e.canId % 128 ∧
       (∀ core : Nat, core < 8 → Tbl.at? t.sys.wdDue core = some 40960000) ∧
       t.keys.slots = [] ∧ t.keys.engines = [] ∧ t.svc.queues = [] ∧ t.tides = [] ∧ t.tracker = State.reset.tracker ∧
       ((∀ j, j < headSections (s.imageSector k 0) → (s.imageSection k j).1 ≠ 8) → t.wm = []) ∧
       t.mac = State.reset.mac ∧ t.txn.txns = [] ∧ t.time = State.reset.time ∧ t.perf = State.reset.perf ∧
       t.flash.image = s.flash.image ∧ t.flash.minVersion = s.flash.minVersion ∧ t.flash.rootRevoked = s.flash.rootRevoked ∧
       t.rd K.bootp.BOOT_SLOT = k ∧ t.rd K.boot.BOOT_CANDIDATES = failed.length + 1 ∧
       t.rd (K.bootp.SLOT_RESULT k) = SlotResult.ok.code ∧
       (∀ j ∈ failed, t.rd (K.bootp.SLOT_RESULT j) = (s.slotResult j).code) ∧
       (∀ j ∈ rest, t.rd (K.bootp.SLOT_RESULT j) = SlotResult.notTried.code)) ∧
  (∀ (c : Instr) (e : BootEnv) (s : State),
     c = .resetNRelease e ∧ s.sys.phase = .held ∨ c = .resetHoldEnd e ∧ s.sys.phase = .hold →
     s.flash.ops = [] →
     e.selfTestOk = false ∨ (∀ k : Nat, k < 2 → s.slotResult k ≠ .ok) →
     ∃ t, exec c s = .next t ∧ t.sys.phase = .recovery ∧ t.rd K.bootp.BOOT_SLOT = 255 ∧
       t.rd (K.bootp.SLOT_RESULT 0) = (if e.selfTestOk then (s.slotResult 0).code else SlotResult.vaultFail.code) ∧
       t.rd (K.bootp.SLOT_RESULT 1) = (if e.selfTestOk then (s.slotResult 1).code else SlotResult.vaultFail.code) ∧
       t.flash.image = s.flash.image)

/-- Trim preloads, trim writes and the end of an expected window act on their channels alone. Rests on R48 (02_line_ports.md),
R50 (02_line_ports.md), R51 (02_line_ports.md), R52 (02_line_ports.md). -/
def Obligations.TrimsFollowPreloadsWritesAndWindows : Prop :=
  (∀ (n : Nat) (s : State), s.running = true →
     (∀ a p w, (s.chan n).written = some (a, p, w) → (s.chan n).trimTick ≤ w →
       ∃ t e, exec (.trimTakesEffect n) s = .next t ∧ e = max (s.chan n).trimTick (trimBoundary w s.now) ∧ e ≤ w + 32 ∧
         t.chan n = { s.chan n with
           trim := a, phase := p, written := none, trimTick := e
           acc := (s.chan n).acc + (s.chan n).trim * (((e - (s.chan n).trimTick) / 2 : Nat) : Int) } ∧
         (∀ m, m ≠ n → t.chan m = s.chan m) ∧ OnlyChanges [.line] s t) ∧
     ((s.chan n).written = none → exec (.trimTakesEffect n) s = .next s) ∧
     (∀ i upto, (s.chan n).window = some (i, upto) → (s.chan n).rx = none →
       ∃ t, exec (.expectedWindowEnd n) s = .next t ∧ t.now = max s.now upto ∧
         t.chan n = { s.chan n with window := none, written := some ((s.chan n).cfg.idleTrim, 0, t.now) } ∧
         (∀ m, m ≠ n → t.chan m = s.chan m) ∧ OnlyChanges [.now, .free, .dict, .perf, .tracker, .tides, .line] s t) ∧
     (∀ i upto r, (s.chan n).window = some (i, upto) → (s.chan n).rx = some r →
       ∃ t, exec (.expectedWindowEnd n) s = .next t ∧ t.chan n = { s.chan n with window := none }) ∧
     ((s.chan n).window = none → exec (.expectedWindowEnd n) s = .next s)) ∧
  (∀ (g i opens : Nat) (w : Window) (s : State), s.running = true →
     (s.line.windows.find? fun w => w.seg == g && w.entry == i && w.from_ == opens) = some w →
     ∃ t, exec (.trimPreload g i opens) s = .next t ∧ t.now = max s.now (opens - 820) ∧
       (∀ n, n ∈ s.members g → (t.chan n).window = some (i, w.upto) ∧
         ((s.chan n).rx = none →
           (t.chan n).written = some ((s.linkTrim i n).1, (s.linkTrim i n).2 % 64, t.now) ∧
           ((s.ep i).driftEmpty = true → (t.chan n).written = some ((s.chan n).cfg.idleTrim, 0, t.now))) ∧
         ((s.chan n).rx ≠ none → (t.chan n).written = (s.chan n).written)) ∧
       (∀ n, n ∉ s.members g → t.chan n = s.chan n) ∧ OnlyChanges [.now, .free, .dict, .perf, .tracker, .tides, .line] s t)

/-- AGC: clipping steps, rounded level steps, frozen and fixed gain, and the clip counter. Rests on R33. -/
def Obligations.AgcDecisionMovesOrHoldsTheGain : Prop :=
  ∀ (n first fill : Nat) (samples : List Int) (s : State), s.running = true → s.inService n = true →
    ∃ t, exec (.agcDecision n first samples fill) s = .next t ∧ t.now = max s.now (first + 128) ∧
      OnlyChanges [.now, .free, .dict, .perf, .tracker, .tides, .line] s t ∧
      OnlyRegs [K.chs.CLIP_COUNT n, K.times.UNSYNC_SECONDS, K.trks.PHASE_STEP_COUNT] s t ∧ (∀ m, m ≠ n → t.chan m = s.chan m) ∧
      (∃ w : SideWord, w.first = first ∧ w.clipped = samples.any clips ∧
        t.chan n = { s.chan n with
          gain := (t.chan n).gain, gainWas := (t.chan n).gainWas, gainFrom := (t.chan n).gainFrom
          fill := min 8192 fill, peak := max (s.chan n).peak (min 8192 fill)
          blocks := (w :: (s.chan n).blocks).take (ceilDiv (min 8192 fill) 64) }) ∧
      (∀ r, t.rx? r = s.rx? r) ∧ t.line.frames = s.line.frames ∧
      ((t.chan n).gain ≠ (s.chan n).gain → (t.chan n).gainFrom = first + 256 ∧ (t.chan n).gainWas = (s.chan n).gain) ∧
      ((s.chan n).frozen = true → (t.chan n).gain = (s.chan n).gain ∧
        t.rd (K.chs.CLIP_COUNT n) =
          if samples.any clips = true ∧ (s.passTo (first + 128)).blanked n = false then min (2 ^ 32 - 1) (s.rd (K.chs.CLIP_COUNT n) + 1)
          else s.rd (K.chs.CLIP_COUNT n)) ∧
      ((s.chan n).frozen = false → (s.chan n).cfg.fixed = false → (s.passTo (first + 128)).blanked n = false → s.loopOn n = false →
        (s.chan n).gainFrom ≤ first →
        (samples.any clips = true → (t.chan n).gain = clampInt (-12) (s.chan n).cfg.gainMax ((s.chan n).gain - 12)) ∧
        (samples.any clips = false → ∃ q : Int, -12 ≤ q ∧ q ≤ 12 ∧
          (q < 12 → levelReaches ((samples.map fun x => (x * x).toNat).sum) (4 * (s.chan n).cfg.target - 2 * q - 1) = true) ∧
          (-12 < q → levelReaches ((samples.map fun x => (x * x).toNat).sum) (4 * (s.chan n).cfg.target - 2 * q + 1) = false) ∧
          (t.chan n).gain = clampInt (-12) (s.chan n).cfg.gainMax ((s.chan n).gain + q))) ∧
      ((s.chan n).cfg.fixed = true → (t.chan n).gain = (s.chan n).gain)

/-- Loss of lock, relock, breakwater overflow and configuration act on their channels. Rests on R45 (02_line_ports.md), R44
(02_line_ports.md), R28 (01_device_map.md), R17 (01_device_map.md), R59 (02_line_ports.md), R119 (04_swell_mode.md). -/
def Obligations.ChannelLossesAndConfigurationAct : Prop :=
  (∀ (k : Nat) (s : State), s.running = true → k < 8 →
     ((s.group k).locked = true →
       exec (.synthLock k) s = .next s ∧
       ∃ t, exec (.synthLockLoss k) s = .next t ∧ (t.group k).locked = false ∧ (∀ j, j ≠ k → t.group j = s.group j) ∧
         (∀ n, 32 * k ≤ n → n < 32 * k + 32 → Counted (K.chs.SYNTH_LOCK_LOSS n) s t) ∧
         ((∀ n, 32 * k ≤ n → n < 32 * k + 32 → (s.chan n).rx = none ∧ (s.chan n).laneRx = none) →
           (∀ n, t.chan n = s.chan n) ∧ t.line.rxs = s.line.rxs ∧ OnlyChanges [.dict, .line] s t) ∧
         t.line.frames = s.line.frames ∧ t.mac.queue = s.mac.queue) ∧
     ((s.group k).locked = false → (s.group k).stopped = false →
       exec (.synthLockLoss k) s = .next s ∧
       ∃ t, exec (.synthLock k) s = .next t ∧ (t.group k).locked = true ∧ (∀ j, j ≠ k → t.group j = s.group j) ∧
         (∀ n, 32 * k ≤ n → n < 32 * k + 32 → s.enabled n = true → (t.chan n).trim = 0 ∧ (t.chan n).phase = 0 ∧ (t.chan n).acc = 0 ∧
           (t.chan n).written = some ((s.idleTrim n).1, (s.idleTrim n).2 % 64, s.now) ∧ (t.chan n).frozen = false ∧
           (t.chan n).gain = 84 ∧ (t.chan n).cfg = (s.chan n).cfg ∧ (t.chan n).swell = (s.chan n).swell) ∧
         (∀ j, j / 32 ≠ k ∨ s.enabled j = false → t.chan j = s.chan j) ∧ OnlyChanges [.line] s t) ∧
     ((s.group k).locked = false → (s.group k).stopped = true →
       exec (.synthLock k) s = .next s ∧ exec (.synthLockLoss k) s = .next s)) ∧
  (∀ (n : Nat) (s : State), s.running = true →
     (s.enabled n = false → exec (.rxBreakwaterOverflow n) s = .next s) ∧
     (s.enabled n = true → (s.chan n).rx = none → (s.chan n).laneRx = none →
       ∃ t, exec (.rxBreakwaterOverflow n) s = .next t ∧ t.flag (K.chs.RX_OVERFLOW n) = true ∧
         Counted (K.chs.RX_OVERFLOW_COUNT n) s t ∧ t.chan n = { s.chan n with fill := 8192, peak := 8192 } ∧
         (∀ m, m ≠ n → t.chan m = s.chan m) ∧ t.line.rxs = s.line.rxs ∧ OnlyChanges [.dict, .perf, .line] s t) ∧
     (∀ r x, s.enabled n = true → Alone n r x s → x.wave = .ofdm → (s.chan n).laneRx = none →
       ∃ t, exec (.rxBreakwaterOverflow n) s = .next t ∧ t.flag (K.chs.RX_OVERFLOW n) = true ∧
         Rinsed r n (K.chs.RX_OVERFLOW_COUNT n) s t ∧ (t.chan n).fill = 8192 ∧ (t.chan n).peak = 8192 ∧
         (∀ m, m ≠ n → t.chan m = s.chan m)) ∧
     (∀ r x y z, s.enabled n = true → (s.chan n).rx = some r → s.rx? r = some x → x.members = y :: z → z ≠ [] →
       (s.chan n).laneRx = none →
       ∃ t, exec (.rxBreakwaterOverflow n) s = .next t ∧ Counted (K.chs.RX_OVERFLOW_COUNT n) s t ∧ Counted (K.chs.GROUP_LEAVE n) s t ∧
         t.rx? r = some { x with members := x.members.filter fun m => m.chan ≠ n })) ∧
  (∀ (n : Nat) (s : State), s.running = true →
     (s.chanIdle n = false → exec (.channelConfigApply n) s = .next s ∧ exec (.swellConfigApply n) s = .next s) ∧
     (s.chanIdle n = true →
       ∃ t, exec (.channelConfigApply n) s = .next t ∧ (t.chan n).cfg = s.chanConfig n ∧ (t.chan n).gain = (s.chan n).gain ∧
         ((s.chanConfig n).idleTrim = (s.chan n).cfg.idleTrim ∨ (s.chan n).window.isSome = true →
           (t.chan n).written = (s.chan n).written) ∧
         ((s.chanConfig n).idleTrim ≠ (s.chan n).cfg.idleTrim → (s.chan n).window = none →
           (t.chan n).written = some ((s.chanConfig n).idleTrim, 0, s.now)) ∧
         (∀ m, m ≠ n → t.chan m = s.chan m) ∧ OnlyChanges [.mac, .line] s t ∧
         ((s.chanConfig n).masks = (s.chan n).cfg.masks → t.mac = s.mac)) ∧
     (s.chanIdle n = true → (s.chan n).laneRx = none → s.laneSending n = false →
       ∃ t, exec (.swellConfigApply n) s = .next t ∧
         t.chan n = { s.chan n with
           swell := ⟨s.flag (K.ch.LANE_ENABLE n), s.rdInt (K.ch.LANE_LEVEL n), s.rd (K.ch.LANE_PRE_LEN n), s.rd (K.ch.SWELL_PRE_LEN n)⟩ } ∧
         (∀ m, m ≠ n → t.chan m = s.chan m) ∧ OnlyChanges [.mac, .line] s t ∧
         ((s.chan n).swell.on = s.flag (K.ch.LANE_ENABLE n) → t.mac = s.mac)))

/-- A frame starts on all its channels or on none; its end starts blanking and the acknowledgement window. Rests on R40
(02_line_ports.md), R42 (02_line_ports.md), R13 (01_device_map.md), R17 (01_device_map.md), R107 (04_swell_mode.md), R166
(06_tide_tables.md), R202 (07_medium_access.md), R206 (07_medium_access.md). -/
def Obligations.FramesStartTogetherOrNotAtAllAndEndInBlanking : Prop :=
  (∀ (f : Nat) (ready : List Nat) (x : TxFrame) (s : State), s.running = true → s.frame? f = some x → x.started = false →
     x.ended = false →
     ((∀ n ∈ x.chans, n ∈ ready) →
       ∃ t, exec (.txReadinessCheck f ready) s = .next t ∧ t.frame? f = some { x with ready := true } ∧
         (∀ g, g ≠ f → t.frame? g = s.frame? g) ∧ (∀ n, t.chan n = s.chan n) ∧
         OnlyChanges [.now, .free, .dict, .perf, .tracker, .tides, .line] s t) ∧
     ((∃ n ∈ x.chans, n ∉ ready) →
       ∃ t, exec (.txReadinessCheck f ready) s = .next t ∧ t.frame? f = none ∧
         (x.chans.Nodup → ∀ n, n < 256 → t.rd (K.chs.LATE_FRAME_COUNT n) =
           if n ∈ x.chans ∧ n ∉ ready then min (2 ^ 32 - 1) (s.rd (K.chs.LATE_FRAME_COUNT n) + 1)
           else s.rd (K.chs.LATE_FRAME_COUNT n)) ∧
         t.mac.queue = s.mac.queue.map (fun d => if d.frame = some f then { d with frame := none } else d) ∧
         OnlyChanges [.now, .free, .dict, .perf, .tracker, .tides, .mac, .line] s t)) ∧
  (∀ (f : Nat) (ready : List Nat) (x : TxFrame) (s : State), s.running = true → s.frame? f = some x → x.started = false →
     x.ended = false → isLane x.wave = false → x.ready = true →
     (x.chans ≠ [] → (∀ n ∈ x.chans, s.inService n = true ∧ s.inGap x.seg [n] x.start x.stop = false) → s.lineTaken f x = false →
       ∃ t, exec (.frameTxStart f ready) s = .next t ∧ t.now = max s.now x.start ∧ t.frame? f = some { x with started := true } ∧
         (∀ g, g ≠ f → t.frame? g = s.frame? g) ∧
         (∀ d ∈ s.mac.queue, x.mpdus = [d.id] → (s.mac.queue.find? fun e => e.id == d.id) = some d →
           { d with tries := d.tries + 1 } ∈ t.mac.queue) ∧
         OnlyChanges [.now, .free, .dict, .perf, .tracker, .tides, .mac, .line] s t) ∧
     ((∃ n ∈ x.chans, s.inService n = false) → (∀ n ∈ x.chans, s.inGap x.seg [n] x.start x.stop = false) →
       ∃ t, exec (.frameTxStart f ready) s = .next t ∧ t.frame? f = none ∧
         OnlyChanges [.now, .free, .dict, .perf, .tracker, .tides, .mac, .line] s t) ∧
     ((∀ n ∈ x.chans, s.inGap x.seg [n] x.start x.stop = true) →
       ∃ t, exec (.frameTxStart f ready) s = .next t ∧ t.frame? f = none ∧ t.now = s.now ∧ OnlyChanges [.mac, .line] s t)) ∧
  ((∀ (f : Nat) (x : TxFrame) (s : State), s.running = true → s.frame? f = some x → x.started = true → x.ended = false →
     isLane x.wave = false →
     ∃ t, exec (.frameTxEnd f) s = .next t ∧ t.now = max s.now x.stop ∧
       (∀ n ∈ x.chans, t.chan n = { s.chan n with blankEnd := some (s.leftBy x n + 820) }) ∧
       (∀ n, n ∉ x.chans → t.chan n = s.chan n) ∧
       (x.ackReq = true → t.frame? f = some { x with ended := true } ∧ t.mac = s.mac ∧
         (∀ i, x.entry = some i → ⟨x.seg, i, (s.ackWindow x).1, (s.ackWindow x).2⟩ ∈ t.line.windows)) ∧
       (x.ackReq = false → (s.seg x.seg).winding = false → t.frame? f = none ∧
         (∀ d ∈ s.mac.queue, d.id ∈ x.mpdus → d.kind = .broadcast → d.tries < s.limit x.seg 8 → { d with frame := none } ∈ t.mac.queue) ∧
         ((∀ d ∈ s.mac.queue, d.kind ≠ .broadcast) → t.mac.queue = s.mac.queue.filter (fun d => !x.mpdus.contains d.id))) ∧
       ((s.seg x.seg).winding = false → OnlyChanges [.now, .free, .dict, .perf, .tracker, .tides, .mac, .line] s t)) ∧
   (∀ (n b : Nat) (s : State), s.running = true → (s.chan n).blankEnd = some b →
     ∃ t, exec (.txBlankEnd n) s = .next t ∧ t.now = max s.now b ∧
       t.chan n = { s.chan n with
         blankEnd := none, idleFrom := max (s.chan n).idleFrom b, gainWas := (s.chan n).cfg.listenGain
         gainFrom := max (s.chan n).gainFrom b } ∧
       (∀ m, m ≠ n → t.chan m = s.chan m) ∧ OnlyChanges [.now, .free, .dict, .perf, .tracker, .tides, .line] s t) ∧
   (∀ (n f : Nat) (x : TxFrame) (rest : List (Nat × TxFrame)) (s : State), s.running = true →
     (s.framesWith fun f => f.started && !f.ended && f.chans.contains n) = (f, x) :: rest → s.frame? f = some x →
     ∃ t, exec (.txUnderrun n) s = .next t ∧ t.frame? f = some { x with underrun := true } ∧
       t.flag (K.chs.TX_UNDERRUN n) = true ∧
       t.rd (K.chs.TX_UNDERRUN_COUNT n) = min (2 ^ 32 - 1) (s.rd (K.chs.TX_UNDERRUN_COUNT n) + 1) ∧
       OnlyRegs [K.chs.TX_UNDERRUN n, K.chs.TX_UNDERRUN_COUNT n] s t ∧ OnlyChanges [.dict, .perf, .line] s t))

/-- What the scrubber finds in working, core and queue memory has its stated effect. Rests on R21 (01_device_map.md), R22
(01_device_map.md), R23 (01_device_map.md), R371 (11_check_units_and_queues.md). -/
def Obligations.ScrubbedErrorsHaveTheirFixedEffects : Prop :=
  ∀ (s : State), s.running = true →
    (∀ (target : ScanTarget), exec (.scrub target .clean false) s = .next s) ∧
    (∀ off : Nat, off < 0x03000000 →
      ∃ t, exec (.scrub (.working off) .corrected false) s = .next t ∧
        t.rd K.wm.WM_CORRECTED = min (2 ^ 32 - 1) (s.rd K.wm.WM_CORRECTED + 1) ∧ t.rd K.wm.WM_LAST_ADDR = off / 8 * 8 ∧
        OnlyRegs [K.wm.WM_CORRECTED, K.wm.WM_LAST_ADDR] s t ∧ OnlyChanges [.dict] s t) ∧
    (∀ c off : Nat, c < 8 →
      (∃ t, exec (.scrub (.core c off) .corrected true) s = .next t ∧
        t.rd (K.cm.CM_CORRECTED c) = min (2 ^ 32 - 1) (s.rd (K.cm.CM_CORRECTED c) + 1) ∧
        t.rd K.scrub.SCRUB_PASS = min (2 ^ 32 - 1) (s.rd K.scrub.SCRUB_PASS + 1) ∧ OnlyChanges [.dict] s t) ∧
      (Tbl.at? s.sys.halted c = none →
        ∃ t, exec (.scrub (.core c off) .uncorrectable false) s = .next t ∧
          Tbl.at? t.sys.halted c = some ⟨3, off / 8⟩ ∧ OnlyChanges [.sys] s t)) ∧
    (∀ q word : Nat, q < 256 → word < 2 ^ 32 →
      ∃ t, exec (.scrub (.queue q true word) .corrected false) s = .next t ∧
        t.rd (K.q.MEND q) = min (2 ^ 32 - 1) (s.rd (K.q.MEND q) + 1) ∧ t.rd K.qm.QM_LAST_ADDR = word ∧
        t.svc = s.svc ∧ OnlyChanges [.dict] s t) ∧
    (∀ q word : Nat, q < 256 → (s.queue q).words ≠ [] →
      ∃ t, exec (.scrub (.queue q true word) .uncorrectable false) s = .next t ∧ ResetTo .hold s t ∧ CauseIs t 2 255 2 q) ∧
    (∀ k off : Nat, 2 ≤ k → k < 16384 → 0x00800000 + 1024 * k ≤ off → off < 0x00800000 + 1024 * k + 1024 →
      k ∉ s.mac.retiredPages →
      ∃ t, exec (.scrub (.working off) .uncorrectable false) s = .next t ∧ k ∈ t.mac.retiredPages ∧
        Tbl.at? t.mac.pages k = none ∧ OnlyChanges [.dict, .mac] s t) ∧
    (∀ i off : Nat, i < 131072 → 64 * i ≤ off → off < 64 * i + 64 → (s.ep i).unusable = false → (s.ep i).state = 0 →
      ∃ t, exec (.scrub (.working off) .uncorrectable false) s = .next t ∧ (t.ep i).unusable = true ∧
        (t.ep i).eui = 0 ∧ (t.ep i).addr = 0)

/-- A dictionary write ends with the abort code of its first failed check, in the order of R430. Rests on R430
(14_object_dictionary.md), R434 (14_object_dictionary.md). -/
def Obligations.ObjectWriteIsCheckedInOrder : Prop :=
  ∀ (via : Path) (idx sub : Nat) (data : List Byte) (s : State), s.coreUp 0 = true →
    (objIndex? idx = false → exec (.objectWrite via idx sub data) s = .next (s.answer 0x06020000 [])) ∧
    (objIndex? idx = true → objRow? idx sub = none → exec (.objectWrite via idx sub data) s = .next (s.answer 0x06090011 [])) ∧
    (∀ r : ObjRow, objRow? idx sub = some r →
      (r.access = .ro → exec (.objectWrite via idx sub data) s = .next (s.answer 0x06010002 [])) ∧
      (r.access ≠ .ro → s.levelOf via < r.level → exec (.objectWrite via idx sub data) s = .next (s.answer 0x06010000 [])) ∧
      (r.access ≠ .ro → r.level ≤ s.levelOf via → r.ty.lengthGood data.length = false →
        exec (.objectWrite via idx sub data) s = .next (s.answer 0x06070010 [])) ∧
      (r.access ≠ .ro → r.level ≤ s.levelOf via → r.ty.lengthGood data.length = true →
        ∀ a : Abort, (s.objWrite via {} idx sub r data).abort = some a →
          ∃ t, exec (.objectWrite via idx sub data) s = .next t ∧ t.mgmt.lastAbort = a.code))

/-- An accepted write of an object without an effect of its own stores its value and changes nothing else. Rests on R430
(14_object_dictionary.md), R431 (14_object_dictionary.md), R428 (14_object_dictionary.md). -/
def Obligations.PlainObjectWriteStoresItsValueAndNothingElse : Prop :=
  ∀ (via : Path) (idx sub : Nat) (data : List Byte) (r : ObjRow) (s : State), s.MayAccess via r.level → sub < 256 →
    objRow? idx sub = some r → r.access ≠ .ro → r.ty.lengthGood data.length = true →
    s.refusedFirst via idx sub (r.kept (ofLe data)) = none → s.writeSpecial via {} idx sub (r.kept (ofLe data)) data = none →
    (r.inRange (r.kept (ofLe data)) = true →
      ∃ t, exec (.objectWrite via idx sub data) s = .next t ∧ Accepted s t ∧ t.rawValue idx sub = r.kept (ofLe data) ∧
        (∀ k, k ≠ idx * 256 + sub → Tbl.at? t.dict k = Tbl.at? s.dict k) ∧ OnlyChanges [.dict, .mgmt] s t) ∧
    (r.inRange (r.kept (ofLe data)) = false → exec (.objectWrite via idx sub data) s = .next (s.answer 0x06090030 []))

/-- KEY_LOAD installs the key, waits for entropy with its response owed, or is refused and counted in LOAD_FAIL. Rests on R305
(10_keys_and_cipher_engines.md), R306 (10_keys_and_cipher_engines.md), R307 (10_keys_and_cipher_engines.md), R308
(10_keys_and_cipher_engines.md), R312 (10_keys_and_cipher_engines.md), R335 (10_keys_and_cipher_engines.md), R336
(10_keys_and_cipher_engines.md). -/
def Obligations.KeyLoadInstallsTheKeyOrCountsARefusal : Prop :=
  ∀ (via : Path) (slot : Nat) (data : List Byte) (env : WriteEnv) (s : State), slot < 1024 → s.MayAccess via 3 → s.coreUp 7 = true →
    (data.length = 32 ∨ data.length = 48 → s.keys.vaultLocked = false → s.keys.entropyFail = true →
      ∃ t, exec (.keyLoad via slot data env) s = .next t ∧ t.mgmt = { s.mgmt with owed := s.mgmt.owed ++ [(.masks, .bare)] } ∧
        t.keys = { s.keys with vaultWaiting := s.keys.vaultWaiting ++ [.load slot data env] } ∧ OnlyChanges [.keys, .mgmt] s t) ∧
    (data.length ≠ 32 ∧ data.length ≠ 48 ∨ s.keys.vaultLocked = true ∨
        s.keys.entropyFail = false ∧ slot ≠ 992 ∧ s.slotUsable 992 = false →
      ∃ t, exec (.keyLoad via slot data env) s = .next t ∧ t.mgmt.lastAbort = 0x08000020 ∧ t.keys = s.keys ∧
        Counted (K.key.LOAD_FAIL slot) s t ∧ OnlyRegs [K.key.LOAD_FAIL slot] s t ∧ OnlyChanges [.dict, .mgmt] s t) ∧
    (s.keys.vaultLocked = false → s.keys.entropyFail = false → data.length = 32 ∨ data.length = 48 →
      slot = 992 ∨ s.slotUsable 992 = true →
      (env.vaultOk = false →
        ∃ t, exec (.keyLoad via slot data env) s = .next t ∧ t.mgmt.lastAbort = 0x08000020 ∧ t.keys.slots = s.keys.slots ∧
          Counted (K.key.LOAD_FAIL slot) s t ∧ Counted K.vault.VAULT_FAULTS s t ∧
          t.keys.vaultLocked = decide (3 ≤ t.rd K.vault.VAULT_FAULTS)) ∧
      (env.vaultOk = true →
        (∀ b : List Byte, keyUnwrap (s.loadKek slot) data = some b → b.length + 8 ≠ data.length ∨ (LoadBlock.read b).slot ≠ slot ∨
          (LoadBlock.read b).long ≠ (data.length == 48)) →
        ∃ t, exec (.keyLoad via slot data env) s = .next t ∧ t.mgmt.lastAbort = 0x08000020 ∧ t.keys = s.keys ∧
          Counted (K.key.LOAD_FAIL slot) s t ∧ (slot ≠ 992 → Counted (K.key.USE_COUNT 992) s t) ∧
          OnlyRegs [K.key.LOAD_FAIL slot, K.key.USE_COUNT 992, K.key.STATE 992, K.key.NEAR_LIMIT_SEEN 992] s t ∧
          OnlyChanges [.dict, .mgmt] s t)) ∧
    (∀ b : List Byte, env.vaultOk = true → keyUnwrap (s.loadKek slot) data = some b → s.keys.vaultLocked = false →
      s.keys.entropyFail = false → data.length = 32 ∨ data.length = 48 → b.length + 8 = data.length →
      (slot = 992 ∨ s.slotUsable 992 = true) → (LoadBlock.read b).slot = slot → (LoadBlock.read b).long = (data.length == 48) →
      max (LoadBlock.read b).fcStart (s.reservedEnd (fingerprintOf (b.drop 8))) < 2 ^ 32 →
      s.slotInUse slot false = false → s.slotInUse slot true = false → slot < 64 ∨ 128 ≤ slot → s.keys.waiting = [] →
      ∃ t, exec (.keyLoad via slot data env) s = .next t ∧ Accepted s t ∧ (t.slot slot).key = b.drop 8 ∧
        (t.slot slot).limit = s.rd (K.key.USE_LIMIT slot) ∧
        t.rd (K.key.TX_FC slot) = max (LoadBlock.read b).fcStart (s.reservedEnd (fingerprintOf (b.drop 8))) ∧
        t.rd (K.key.STATE slot) = (if t.rd (K.key.TX_FC slot) = 0xFFFFFFFF then 3 else 1) ∧
        t.rd (K.key.KEY_BITS slot) = (if data.length = 48 then 256 else 128) ∧ t.rd (K.key.USE_COUNT slot) = 0 ∧
        t.rd (K.key.FINGERPRINT slot) = fingerprintOf (b.drop 8) ∧ t.flag (K.key.SHADOW_PENDING slot) = false ∧
        (slot ≠ 992 → Counted (K.key.USE_COUNT 992) s t) ∧ (∀ i, i ≠ slot → t.slot i = s.slot i) ∧
        OnlyRegs [K.key.STATE slot, K.key.KEY_BITS slot, K.key.USE_COUNT slot, K.key.TX_FC slot, K.key.FINGERPRINT slot,
          K.key.SHADOW_PENDING slot, K.key.USE_COUNT 992, K.key.STATE 992, K.key.NEAR_LIMIT_SEEN 992] s t ∧
        OnlyChanges [.dict, .mgmt, .keys] s t)

/-- ERASE empties a slot at once, BOUND_EUI binds one slot, and counter reservations stay ahead. Rests on R310
(10_keys_and_cipher_engines.md), R307 (10_keys_and_cipher_engines.md), R314 (10_keys_and_cipher_engines.md), R312
(10_keys_and_cipher_engines.md), R321 (10_keys_and_cipher_engines.md). -/
def Obligations.EraseBindingAndReservationActOnTheirSlot : Prop :=
  (∀ (via : Path) (slot : Nat) (s : State), slot < 1024 → s.MayAccess via 3 → s.coreUp 7 = true →
     exec (.erase via slot 0) s = .next (s.answer 0 []) ∧
     (s.slotInUse slot false = false → s.slotInUse slot true = false → slot < 64 ∨ 128 ≤ slot →
       ∃ t, exec (.erase via slot 1) s = .next t ∧ Accepted s t ∧
         (∀ r ∈ [K.key.STATE slot, K.key.KEY_BITS slot, K.key.USE_COUNT slot, K.key.TX_FC slot, K.key.SHADOW_PENDING slot,
           K.key.FINGERPRINT slot], t.rd r = 0) ∧ (t.slot slot).key = [] ∧ (∀ i, i ≠ slot → t.slot i = s.slot i) ∧
         t.rd (K.key.USE_LIMIT slot) = s.rd (K.key.USE_LIMIT slot) ∧ t.rd (K.key.BOUND_EUI slot) = s.rd (K.key.BOUND_EUI slot) ∧
         OnlyRegs [K.key.STATE slot, K.key.KEY_BITS slot, K.key.USE_COUNT slot, K.key.TX_FC slot, K.key.SHADOW_PENDING slot,
           K.key.FINGERPRINT slot] s t ∧ OnlyChanges [.dict, .mgmt, .keys] s t) ∧
     (∀ (e : Nat) (g : Engine) (m : CipherMsg), e < 64 → s.keys.engines = [(e, g)] → g.running = some m → g.seam = none →
       m.req.slot = slot → s.keys.waiting = [] → slot < 64 ∨ 128 ≤ slot →
       ∃ t, exec (.erase via slot 1) s = .next t ∧ Accepted s t ∧ (t.engine e).running = none ∧
         Counted (K.eng.KEY_ERASED_ENDS e) s t ∧ t.rd (K.key.STATE slot) = 0 ∧ (t.slot slot).key = []) ∧
     (∀ g, slot = 64 + g → g < 64 → s.slotInUse slot false = false → s.slotInUse slot true = false →
       ∃ t, exec (.erase via slot 1) s = .next t ∧ Accepted s t ∧ t.rd (K.seg.NEXT_ACTIVATE g) = 0 ∧ t.rd (K.segs.KEY_PHASE g) = 0 ∧
         (t.seg g).retire = none)) ∧
  ((∀ (via : Path) (slot eui : Nat) (s : State), slot < 1024 → eui < 2 ^ 64 → s.MayAccess via 3 → s.coreUp 7 = true →
     (slot < 128 ∨ 992 ≤ slot → exec (.boundEui via slot eui) s = .next (s.answer 0x08000020 [])) ∧
     (eui ≠ 0 → (∃ j, j < 1024 ∧ j ≠ slot ∧ s.rd (K.key.BOUND_EUI j) = eui) →
       exec (.boundEui via slot eui) s = .next (s.answer 0x08000020 [])) ∧
     (128 ≤ slot → slot < 992 → eui = 0 ∨ (∀ j, j < 1024 → j ≠ slot → s.rd (K.key.BOUND_EUI j) ≠ eui) →
       ∃ t, exec (.boundEui via slot eui) s = .next t ∧ Accepted s t ∧ t.rd (K.key.BOUND_EUI slot) = eui ∧
         OnlyRegs [K.key.BOUND_EUI slot] s t ∧ OnlyChanges [.dict, .mgmt] s t)) ∧
   (∀ (slot : Nat) (s : State), s.coreUp 7 = true →
     (s.keys.ledgerOn = false ∨ s.slotUsable slot = false ∨ s.reserving slot = true → exec (.fcReservation slot) s = .next s) ∧
     (s.keys.ledgerOn = true → s.slotUsable slot = true → s.reserving slot = false → (s.slot slot).resEnd < 0xFFFFFFFF →
       (s.rd (K.key.TX_FC slot) + 2 ^ 19 < (s.slot slot).resEnd → exec (.fcReservation slot) s = .next s) ∧
       ((s.slot slot).resEnd ≤ s.rd (K.key.TX_FC slot) + 2 ^ 19 → s.rd (K.key.TX_FC slot) ≤ (s.slot slot).resEnd →
         exec (.fcReservation slot) s = .next (s.modFlash fun f => { f with ops := f.ops ++ [.reservation
           ⟨slot, min 0xFFFFFFFF ((s.slot slot).resEnd + 2 ^ 20), s.rd (K.key.FINGERPRINT slot)⟩] })))))

/-- A key rollover runs from NEXT_ACTIVATE through overlap and promotion to the retired next key. Rests on R321
(10_keys_and_cipher_engines.md), R309 (10_keys_and_cipher_engines.md). -/
def Obligations.RolloverRunsFromScheduleToRetirement : Prop :=
  (∀ (via : Path) (g second : Nat) (s : State), g < 64 → second < 2 ^ 32 → s.MayAccess via 3 →
    (s.rd (K.segs.KEY_PHASE g) ≠ 0 ∨ second * dtSecond < s.dt + 60 * dtSecond →
      exec (.nextActivate via g second) s = .next (s.answer 0x06090030 [])) ∧
    (s.rd (K.segs.KEY_PHASE g) = 0 → s.dt + 60 * dtSecond ≤ second * dtSecond →
      ∃ t, exec (.nextActivate via g second) s = .next t ∧ Accepted s t ∧ t.rd (K.seg.NEXT_ACTIVATE g) = second ∧
        OnlyRegs [K.seg.NEXT_ACTIVATE g] s t ∧ OnlyChanges [.dict, .mgmt] s t)) ∧
  (∀ (g : Nat) (s : State), g < 64 → s.coreUp 7 = true →
    (s.rd (K.segs.KEY_PHASE g) ≠ 1 → exec (.overlapStart g) s = .next s) ∧
    (s.rd (K.segs.KEY_PHASE g) = 1 →
      ∃ t, exec (.overlapStart g) s = .next t ∧ t.rd (K.segs.KEY_PHASE g) = 2 ∧
        s.tickOf (s.rd (K.seg.NEXT_ACTIVATE g) * dtSecond) ≤ t.now ∧ OnlyChanges [.now, .free, .dict, .perf, .tracker, .tides] s t) ∧
    ((s.seg g).rollover = none ∨ s.rd (K.segs.KEY_PHASE g) ≠ 2 → exec (.promotion g) s = .next s) ∧
    (∀ at' over', (s.seg g).rollover = some (at', over') → s.rd (K.segs.KEY_PHASE g) = 2 → s.keys.waiting = [] →
      ∃ t, exec (.promotion g) s = .next t ∧ (t.slot g).key = (s.slot (64 + g)).key ∧
        t.rd (K.key.STATE g) = s.rd (K.key.STATE (64 + g)) % 2 ^ 8 ∧ t.rd (K.key.USE_COUNT g) = s.rd (K.key.USE_COUNT (64 + g)) % 2 ^ 32 ∧
        t.rd (K.key.TX_FC g) = s.rd (K.key.TX_FC (64 + g)) % 2 ^ 32 ∧
        t.rd (K.segs.KEY_PHASE g) = 0 ∧ t.rd (K.seg.NEXT_ACTIVATE g) = 0 ∧ Counted (K.segs.PROMOTIONS g) s t ∧
        (t.seg g).rollover = none ∧ (t.seg g).retire = some (t.now + 819200000)) ∧
    ((s.seg g).retire = none → exec (.nextKeyRetire g) s = .next s) ∧
    (∀ due, (s.seg g).retire = some due →
      ∃ t, exec (.nextKeyRetire g) s = .next t ∧ due ≤ t.now ∧ t.rd (K.key.STATE (64 + g)) = 0 ∧ (t.slot (64 + g)).key = [] ∧
        (t.seg g).retire = none ∧ (∀ i, i ≠ 64 + g → t.slot i = s.slot i) ∧
        OnlyChanges [.now, .free, .dict, .perf, .tracker, .tides, .keys, .mac] s t))

/-- Admission records are written in order; vault faults lock out and an entropy failure holds operations. Rests on R318
(10_keys_and_cipher_engines.md), R319 (10_keys_and_cipher_engines.md), R335 (10_keys_and_cipher_engines.md), R336
(10_keys_and_cipher_engines.md). -/
def Obligations.AdmissionRecordsAndVaultFollowTheirRules : Prop :=
  (∀ (via : Path) (s : State), s.MayAccess via 3 →
     (∀ mode : Nat, mode < 256 →
       (1 < mode → exec (.admitMode via mode) s = .next (s.answer 0x06090030 [])) ∧
       (mode = 1 → s.flag K.ledger.LEDGER_ENABLE = false → exec (.admitMode via mode) s = .next (s.answer 0x08000020 [])) ∧
       (mode = 0 ∨ mode = 1 ∧ s.flag K.ledger.LEDGER_ENABLE = true →
         ∃ t, exec (.admitMode via mode) s = .next t ∧ Accepted s t ∧ t.rd K.adm.ADMIT_MODE = mode ∧
           OnlyRegs [K.adm.ADMIT_MODE] s t ∧ OnlyChanges [.dict, .mgmt] s t)) ∧
     (∀ data : List Byte, data.length = 0 ∨ data.length % 48 ≠ 0 ∨ 3072 < data.length →
       exec (.admitWrite via data) s = .next (s.answer 0x06090030 [])) ∧
     (∀ data : List Byte, 0 < data.length → data.length % 48 = 0 → data.length ≤ 3072 →
       131072 < ((admRecords (data.length / 48) data).foldl admApply s.keys.admission).length →
       exec (.admitWrite via data) s = .next (s.answer 0x05040005 [])) ∧
     (∀ data : List Byte, 0 < data.length → data.length % 48 = 0 → data.length ≤ 3072 →
       ((admRecords (data.length / 48) data).foldl admApply s.keys.admission).length ≤ 131072 →
       ∃ t, exec (.admitWrite via data) s = .next t ∧ Accepted s t ∧
         t.keys = { s.keys with admission := (admRecords (data.length / 48) data).foldl admApply s.keys.admission } ∧
         t.rd K.adm.ADMIT_COUNT = t.keys.admission.length ∧
         t.flash = { s.flash with ops := s.flash.ops ++
           (if s.keys.ledgerOn then [.admission (admRecords (data.length / 48) data)] else []) } ∧
         (∀ eui wrapped, data.length = 48 → eui = ofLe (data.take 8) → wrapped = data.drop 8 →
           Tbl.at? t.keys.admission eui = if wrapped.all (· == 0) then none else some wrapped) ∧
         OnlyRegs [K.adm.ADMIT_COUNT] s t ∧ OnlyChanges [.dict, .mgmt, .keys, .flash] s t)) ∧
  (∀ s : State, s.running = true →
     (∃ t, exec .entropyTestFail s = .next t ∧ t.keys = { s.keys with entropyFail := true } ∧ Counted K.vault.ENTROPY_FAILS s t ∧
       OnlyRegs [K.vault.ENTROPY_FAILS] s t ∧ OnlyChanges [.dict, .keys] s t) ∧
     (s.keys.vaultWaiting = [] → exec .entropyRecovery s = .next (s.modKeys fun k => { k with entropyFail := false })) ∧
     (∀ op : VaultOp, s.keys.vaultWaiting = [.op op] → op.agree = true → s.keys.vaultLocked = false → fnPlain op.fn = true →
       ∃ t, exec .entropyRecovery s = .next t ∧
         t.keys = { s.keys with entropyFail := false, vaultWaiting := [], vaultResult := (s.vaultValue op.fn).1 } ∧
         OnlyChanges [.dict, .free, .perf, .keys] s t) ∧
     (∀ op : VaultOp, s.coreUp op.core = true →
       (s.keys.entropyFail = true →
         ∃ t, exec (.vaultOperation op) s = .next t ∧
           t.keys = { s.keys with vaultWaiting := s.keys.vaultWaiting ++ [.op op] } ∧ OnlyChanges [.perf, .keys] s t) ∧
       (s.keys.entropyFail = false → s.keys.vaultLocked = true →
         ∃ t, exec (.vaultOperation op) s = .next t ∧ OnlyChanges [.perf] s t) ∧
       (s.keys.entropyFail = false → s.keys.vaultLocked = false → op.agree = true → fnPlain op.fn = true →
         ∃ t, exec (.vaultOperation op) s = .next t ∧ t.keys = { s.keys with vaultResult := (s.vaultValue op.fn).1 } ∧
           OnlyRegs [K.samp.SAMPLE_COUNT, K.samp.SAMPLE_OVERFLOW] s t ∧ OnlyChanges [.dict, .free, .perf, .keys] s t) ∧
       (∀ n : Nat, s.keys.entropyFail = false → s.keys.vaultLocked = false → op.agree = true → op.fn = .random n →
         ∃ t, exec (.vaultOperation op) s = .next t ∧ t.keys = { s.keys with vaultResult := t.keys.vaultResult } ∧
           t.keys.vaultResult.length = n ∧ OnlyChanges [.dict, .free, .perf, .keys] s t) ∧
       (s.keys.entropyFail = false → s.keys.vaultLocked = false → op.agree = false → (∀ i d, op.fn ≠ .keyUnwrap i d) →
         ∃ t, exec (.vaultOperation op) s = .next t ∧ Counted K.vault.VAULT_FAULTS s t ∧ t.keys.vaultResult = s.keys.vaultResult ∧
           t.keys.vaultLocked = decide (3 ≤ t.rd K.vault.VAULT_FAULTS) ∧ OnlyRegs [K.vault.VAULT_FAULTS] s t ∧
           OnlyChanges [.dict, .perf, .keys] s t) ∧
       (∀ (i : Nat) (d : List Byte), s.keys.entropyFail = false → s.keys.vaultLocked = false → op.agree = true → op.fn = .keyUnwrap i d →
         ∃ t, exec (.vaultOperation op) s = .next t ∧ Counted (K.key.USE_COUNT i) s t ∧
           t.keys = { s.keys with vaultResult := (keyUnwrap (s.slot i).key d).getD [] } ∧
           OnlyRegs [K.key.USE_COUNT i, K.key.STATE i, K.key.NEAR_LIMIT_SEEN i, K.samp.SAMPLE_COUNT, K.samp.SAMPLE_OVERFLOW] s t ∧
           OnlyChanges [.dict, .free, .perf, .keys] s t)) ∧
     (∀ via : Path, s.coreUp 0 = true → 3 ≤ s.levelOf via →
       exec (.vaultClear via 0) s = .next (s.answer 0 []) ∧
       ∃ t, exec (.vaultClear via 1) s = .next t ∧ Accepted s t ∧ t.keys = { s.keys with vaultLocked := false } ∧
         t.rd K.vault.VAULT_FAULTS = 0 ∧ OnlyRegs [K.vault.VAULT_FAULTS] s t ∧ OnlyChanges [.dict, .keys, .mgmt] s t))

/-- A queue write appends its word, holds its packet back, serves a stalled read or drops the whole packet. Rests on R366. -/
def Obligations.QueueWriteAppendsOrDropsTheWholePacket : Prop :=
  ∀ (q word packetWords user : Nat) (endMark : Bool) (s : State), q < 256 → s.running = true →
    (s.userUp user = false → exec (.queueWrite q word endMark packetWords user) s = .next s) ∧
    (producerWaits q = true → (s.queue q).atStart = true → (s.queue q).stalled = false →
      queueDepth q < (s.queue q).words.length + packetWords → exec (.queueWrite q word endMark packetWords user) s = .next s) ∧
    (s.userUp user = true → (s.queue q).dropping = true →
      ∃ t, exec (.queueWrite q word endMark packetWords user) s = .next t ∧ t.queue q = { s.queue q with dropping := !endMark } ∧
        Counted (K.q.OVERRUN_COUNT q) s t ∧ (∀ p, p ≠ q → t.queue p = s.queue p) ∧ OnlyRegs [K.q.OVERRUN_COUNT q] s t ∧
        OnlyChanges [.dict, .svc, .perf] s t) ∧
    (s.userUp user = true → (s.queue q).dropping = false → (s.queue q).stalled = true →
      ∃ t, exec (.queueWrite q word endMark packetWords user) s = .next t ∧
        t.queue q = { s.queue q with stalled := false, lastRead := some (word, endMark) } ∧
        (∀ p, p ≠ q → t.queue p = s.queue p) ∧ OnlyChanges [.svc, .perf] s t) ∧
    (s.userUp user = true → (s.queue q).dropping = false → (s.queue q).stalled = false → (s.queue q).words.length = queueDepth q →
      producerWaits q = false ∨ (s.queue q).atStart = false →
      ∃ t, exec (.queueWrite q word endMark packetWords user) s = .next t ∧
        (∃ kept tail : List (Nat × Bool), (s.queue q).words = kept ++ tail ∧ (∀ w ∈ tail, w.2 = false) ∧
          (kept = [] ∨ ∃ w, kept.getLast? = some w ∧ w.2 = true) ∧ (t.queue q).words = kept) ∧
        (t.queue q).dropping = !endMark ∧ t.flag (K.q.OVERRUN q) = true ∧ Counted (K.q.OVERRUN_COUNT q) s t ∧
        Counted (K.q.PACKETS_DROPPED q) s t ∧ (∀ p, p ≠ q → t.queue p = s.queue p) ∧
        OnlyRegs [K.q.OVERRUN q, K.q.OVERRUN_COUNT q, K.q.PACKETS_DROPPED q] s t ∧ OnlyChanges [.dict, .svc, .perf] s t) ∧
    (s.userUp user = true → (s.queue q).dropping = false → (s.queue q).stalled = false → (s.queue q).words.length < queueDepth q →
      producerWaits q = false ∨ (s.queue q).atStart = false ∨ (s.queue q).words.length + packetWords ≤ queueDepth q →
      ∃ t, exec (.queueWrite q word endMark packetWords user) s = .next t ∧
        t.queue q = { s.queue q with words := (s.queue q).words ++ [(word, endMark)] } ∧ (∀ p, p ≠ q → t.queue p = s.queue p) ∧
        OnlyChanges [.svc, .perf] s t)

/-- A queue read takes the oldest word of a whole packet; errors found on the way have their effect. Rests on R364
(11_check_units_and_queues.md), R365 (11_check_units_and_queues.md), R367 (11_check_units_and_queues.md), R368
(11_check_units_and_queues.md), R371 (11_check_units_and_queues.md). -/
def Obligations.QueueReadTakesTheOldestWordOfAWholePacket : Prop :=
  ∀ (q index user : Nat) (ecc : Ecc) (s : State), q < 256 → s.running = true →
    (s.userUp user = false → exec (.queueRead q ecc index user) s = .next s) ∧
    ((s.queue q).words = [] → oneWordQueue q = false ∨ (s.queue q).stalled = true → exec (.queueRead q ecc index user) s = .next s) ∧
    (s.userUp user = true → (s.queue q).words = [] → oneWordQueue q = true → (s.queue q).stalled = false →
      ∃ t, exec (.queueRead q ecc index user) s = .next t ∧ t.queue q = { s.queue q with stalled := true } ∧
        Counted (K.q.STALLS q) s t ∧ OnlyRegs [K.q.STALLS q] s t ∧ OnlyChanges [.dict, .svc, .perf] s t) ∧
    (∀ w ws, s.userUp user = true → (s.queue q).words = w :: ws → oneWordQueue q = true ∨ (∃ x ∈ w :: ws, x.2 = true) →
      (s.queue q).heldBack = [] →
      (∃ t, exec (.queueRead q .clean index user) s = .next t ∧ t.queue q = { s.queue q with words := ws, lastRead := some w } ∧
        (∀ p, p ≠ q → t.queue p = s.queue p) ∧ OnlyChanges [.svc, .perf] s t) ∧
      ∃ t, exec (.queueRead q .corrected index user) s = .next t ∧ t.queue q = { s.queue q with words := ws, lastRead := some w } ∧
        Counted (K.q.MEND q) s t ∧ Counted K.qm.QM_CORRECTED s t ∧ (index < 2 ^ 32 → t.rd K.qm.QM_LAST_ADDR = index) ∧
        (∀ p, p ≠ q → t.queue p = s.queue p) ∧ OnlyRegs [K.q.MEND q, K.qm.QM_CORRECTED, K.qm.QM_LAST_ADDR] s t ∧
        OnlyChanges [.dict, .svc, .perf] s t) ∧
    ((s.queue q).words ≠ [] → oneWordQueue q = false → (∀ x ∈ (s.queue q).words, x.2 = false) →
      exec (.queueRead q .clean index user) s = .next s) ∧
    (∀ w ws p, s.userUp user = true → (s.queue q).words = w :: ws → (∃ x ∈ w :: ws, x.2 = true) → (s.queue q).heldBack = [p] →
      ws.length + p.length ≤ queueDepth q → (s.queue q).dropping = false → (s.queue q).stalled = false →
      ∃ t, exec (.queueRead q .clean index user) s = .next t ∧
        t.queue q = { s.queue q with words := ws ++ p, lastRead := some w, heldBack := [] } ∧ OnlyChanges [.svc, .perf] s t) ∧
    (s.userUp user = true → (s.queue q).words ≠ [] →
      ∃ t, exec (.queueRead q .uncorrectable index user) s = .next t ∧ ResetTo .hold s t ∧ CauseIs t 2 255 2 q)

/-- A cipher request takes a free engine, a seam or a place in the wait; its end closes the packet. Rests on R324
(10_keys_and_cipher_engines.md), R326 (10_keys_and_cipher_engines.md), R328 (10_keys_and_cipher_engines.md), R329
(10_keys_and_cipher_engines.md), R331 (10_keys_and_cipher_engines.md), R308 (10_keys_and_cipher_engines.md), R311
(10_keys_and_cipher_engines.md), R323 (10_keys_and_cipher_engines.md), R137 (05_receive_pipeline.md). -/
def Obligations.CipherMessagesStartWaitEndAndResume : Prop :=
  (∀ (r : CipherReq) (s : State), s.running = true →
     (takesFc r && s.slotUsable r.slot && !s.fcReady r.slot) = false → s.ownedEngine r = none →
     (∀ e, s.freeEngine none = some e → s.badDescriptor r = false → s.slotUsable r.slot = true →
       ∃ t m, exec (.cipherEngineRequest r) s = .next t ∧ (t.engine e).owner = r.user ∧ (t.engine e).running = some m ∧ m.req = r ∧
         m.key = (s.slot r.slot).key ∧ (takesFc r = true → m.fc = s.rd (K.key.TX_FC r.slot)) ∧
         (r.encrypt = true → Counted (K.key.USE_COUNT r.slot) s t) ∧
         (r.encrypt = false → t.rd (K.key.USE_COUNT r.slot) = s.rd (K.key.USE_COUNT r.slot)) ∧
         (takesFc r = true → t.rd (K.key.TX_FC r.slot) = (s.rd (K.key.TX_FC r.slot) + 1) % 2 ^ 32) ∧
         (∀ d, d ≠ e → t.engine d = s.engine d) ∧ t.keys.waiting = s.keys.waiting ∧
         OnlyRegs [K.key.USE_COUNT r.slot, K.key.TX_FC r.slot, K.key.STATE r.slot, K.key.NEAR_LIMIT_SEEN r.slot] s t ∧
         OnlyChanges [.dict, .keys, .perf] s t) ∧
     (∀ e, s.freeEngine none = some e → s.badDescriptor r = true ∨ s.slotUsable r.slot = false → (s.engine e).releasing = false →
       (s.engine e).running = none → (s.engine e).seam = none → r.mpdu = none →
       ∃ t, exec (.cipherEngineRequest r) s = .next t ∧ t.engine e = { s.engine e with owner := 255, pooled := false } ∧
         Counted (K.eng.MESSAGES e) s t ∧ TakesPacket e (if s.badDescriptor r then .badDescriptor else .noKey) [] s t ∧
         t.keys.slots = s.keys.slots) ∧
     (∀ e, s.freeEngine none = none → r.cls = 0 → s.victim r = some e → s.badDescriptor r = false → s.slotUsable r.slot = true →
       (s.engine e).running.isSome = true →
       ∃ t m, exec (.cipherEngineRequest r) s = .next t ∧ (t.engine e).owner = r.user ∧ (t.engine e).running = some m ∧ m.req = r ∧
         (t.engine e).seamOwner = (s.engine e).owner ∧
         (t.engine e).seam = (s.engine e).running.map (fun m => { m with pooled := (s.engine e).pooled }) ∧
         Counted (K.eng.SEAMS e) s t ∧ (∀ d, d ≠ e → t.engine d = s.engine d)) ∧
     (s.freeEngine none = none → r.cls ≠ 0 →
       exec (.cipherEngineRequest r) s = .next (s.modKeys fun k => { k with waiting := insertWait r k.waiting })) ∧
     (s.freeEngine none = none → r.cls = 0 → s.victim r = none →
       ∃ t, exec (.cipherEngineRequest r) s = .next t ∧ t.keys = { s.keys with waiting := insertWait r s.keys.waiting } ∧
         Counted K.vault.P0_CIPHER_WAITS s t ∧ OnlyRegs [K.vault.P0_CIPHER_WAITS] s t ∧ OnlyChanges [.dict, .keys, .perf] s t)) ∧
  (∀ (e : Nat) (s : State), e < 64 → s.running = true →
     ((s.engine e).running = none → exec (.cipherMessageEnd e) s = .next s) ∧
     (∀ m, (s.engine e).running = some m → m.req.mpdu = none → s.keys.waiting = [] →
       ∃ t, exec (.cipherMessageEnd e) s = .next t ∧ Counted (K.eng.MESSAGES e) s t ∧ t.line = s.line ∧
         (t.engine e).seam = none ∧
         (∀ n, (s.engine e).seam = some n → (t.engine e).running = some n ∧ (t.engine e).owner = (s.engine e).seamOwner ∧
           (t.engine e).seamOwner = 255) ∧
         ((s.engine e).seam = none → (t.engine e).running = none ∧
           (t.engine e).owner = if (s.engine e).releasing || (s.engine e).pooled then 255 else (s.engine e).owner) ∧
         (m.result.2 = true → TakesPacket e .ok (m.output .ok) s t ∧ t.rd (K.eng.TAG_FAILS e) = s.rd (K.eng.TAG_FAILS e)) ∧
         (m.req.encrypt = true → m.result.2 = true ∧ m.output .ok = m.result.1) ∧
         (m.result.2 = false → m.req.output = .hold ∨ m.req.output = .verifyOnly →
           TakesPacket e .tagFail [] s t ∧ t.rd (K.eng.TAG_FAILS e) = s.rd (K.eng.TAG_FAILS e)) ∧
         (m.result.2 = false → m.req.output = .releaseEarly →
           TakesPacket e .tagFail (m.result.1.take m.released) s t ∧ Counted (K.eng.TAG_FAILS e) s t) ∧
         (m.old = false → m.req.encrypt = false → m.req.mode = .gcm → m.result.2 = true →
           Counted (K.key.USE_COUNT m.req.slot) s t) ∧
         (m.old = false → m.req.encrypt = false → m.req.mode = .cmac → Counted (K.key.USE_COUNT m.req.slot) s t) ∧
         (∀ d, d ≠ e → t.engine d = s.engine d)) ∧
     (∀ m r j x, (s.engine e).running = some m → m.req.mpdu = some (r, j) → s.rx? r = some x → s.keys.waiting = [] →
       (x.mpduBytes x.payload j = none → exec (.cipherMessageEnd e) s = .next s) ∧
       (∀ raw p i, x.mpduBytes x.payload j = some raw → s.srcOf x = some (p, i) →
         ∃ t, exec (.cipherMessageEnd e) s = .next t ∧ Counted (K.eng.MESSAGES e) s t ∧ t.svc = s.svc ∧
           t.rx? r = some { x with
             openings := Tbl.ins x.openings j
               (if (ccmOpenMpdu m.key (s.ep i).eui x.pri raw).2 then .good m.req.slot m.key else .tagFail) })))

/-- Engine ownership, block results, faults and FAULT_CLEAR follow the rules. Rests on R324 (10_keys_and_cipher_engines.md),
R332 (10_keys_and_cipher_engines.md), R333 (10_keys_and_cipher_engines.md), R331 (10_keys_and_cipher_engines.md). -/
def Obligations.EngineLockBlocksAndFaultsFollowTheRules : Prop :=
  ∀ (e : Nat) (s : State), e < 64 → s.running = true →
    (∀ user : Nat, user < 255 → (s.engine e).owner = 255 → (s.engine e).lockedOut = false →
      exec (.engineOwnerWrite e user user) s = .next (s.modEngine e fun g => { g with owner := user, pooled := false })) ∧
    (∀ user : Nat, user ≠ 255 → (s.engine e).owner = user → (s.engine e).running.isSome = true →
      exec (.engineOwnerWrite e user 255) s = .next (s.modEngine e fun g => { g with releasing := true })) ∧
    (∀ user : Nat, user ≠ 255 → (s.engine e).owner = user → (s.engine e).running = none → s.keys.waiting = [] →
      exec (.engineOwnerWrite e user 255) s = .next (s.modEngine e fun g => { g with owner := 255, pooled := false })) ∧
    (∀ user value : Nat, (s.engine e).owner ≠ 255 ∧ ((s.engine e).owner ≠ user ∨ value ≠ 255) ∨
        (s.engine e).owner = 255 ∧ user < 255 ∧ (value ≠ user ∨ (s.engine e).lockedOut = true) →
      ∃ t, exec (.engineOwnerWrite e user value) s = .next t ∧ Counted (K.eng.LOCK_VIOLATION e) s t ∧
        OnlyRegs [K.eng.LOCK_VIOLATION e] s t ∧ OnlyChanges [.dict] s t) ∧
    (∀ dummy released held : Nat, (s.engine e).running = none → ∀ matched, exec (.cipherBlock e matched dummy released held) s = .next s) ∧
    (∀ (m : CipherMsg) (dummy released held : Nat), (s.engine e).running = some m →
      ∃ t, exec (.cipherBlock e true dummy released held) s = .next t ∧
        t.engine e = { s.engine e with running := some { m with blocks := m.blocks + 1, released := m.released + released, held := m.held + held } } ∧
        (∀ d, d ≠ e → t.engine d = s.engine d) ∧ OnlyChanges [.keys, .perf] s t) ∧
    (∀ (m : CipherMsg) (dummy released held : Nat), (s.engine e).running = some m → (s.engine e).seam = none → s.keys.waiting = [] →
      m.req.encrypt = false → m.req.mpdu = none → s.rd (K.eng.FAULT_COUNT e) < 2 →
      ∃ t, exec (.cipherBlock e false dummy released held) s = .next t ∧ Counted (K.eng.FAULT_COUNT e) s t ∧
        (t.engine e).running = none ∧ (t.engine e).lockedOut = (s.engine e).lockedOut ∧
        TakesPacket e .fault (m.output .fault) s t ∧ (m.req.output ≠ .releaseEarly → m.output .fault = [])) ∧
    (∀ (m : CipherMsg) (dummy released held : Nat), (s.engine e).running = some m → s.keys.waiting = [] → m.req.encrypt = false →
      2 ≤ s.rd (K.eng.FAULT_COUNT e) → s.rd (K.eng.FAULT_COUNT e) < 255 →
      ∃ t, exec (.cipherBlock e false dummy released held) s = .next t ∧ Counted (K.eng.FAULT_COUNT e) s t ∧
        t.engine e = { owner := 255, running := none, seam := none, seamOwner := 255, releasing := false, lockedOut := true, pooled := false }) ∧
    (∀ via : Path, s.MayAccess via 3 → s.coreUp 7 = true → exec (.faultClear via e 0) s = .next (s.answer 0 [])) ∧
    (∀ via : Path, s.MayAccess via 3 → s.coreUp 7 = true → s.keys.waiting = [] →
      ∃ t, exec (.faultClear via e 1) s = .next t ∧ Accepted s t ∧ t.engine e = { s.engine e with lockedOut := false } ∧
        t.rd (K.eng.FAULT_COUNT e) = 0 ∧ (∀ d, d ≠ e → t.engine d = s.engine d) ∧ OnlyRegs [K.eng.FAULT_COUNT e] s t ∧
        OnlyChanges [.dict, .mgmt, .keys] s t)

/-- A check unit runs from GO to its completion word, with the value of its CRC parameters. Rests on R360. -/
def Obligations.CheckUnitRunsFromGoToItsCompletionWord : Prop :=
  ∀ (u : Nat) (s : State), u < 8 → s.running = true →
    (∀ (via : Path) (value : Nat) (scan : Option (Nat × Ecc)), value < 2 → s.MayAccess via 2 →
      (pathHost via = true ∧ 6 ≤ u ∨ s.cuBusy u = true →
        exec (.cuGo via u value scan) s = .next (s.answer 0x08000022 [])) ∧
      ((pathHost via = false ∨ u < 6) → s.cuBusy u = false → value = 0 → exec (.cuGo via u value scan) s = .next (s.answer 0 [])) ∧
      ((pathHost via = false ∨ u < 6) → s.cuBusy u = false → value = 1 → (s.cuConfig u).outOfRange u = false →
        (scan = none →
          ∃ t, exec (.cuGo via u value scan) s = .next t ∧ Accepted s t ∧ t.rd (K.cu.STATUS u) = 1 ∧
            Tbl.at? t.svc.runs u = some (s.cuConfig u) ∧ OnlyRegs [K.cu.STATUS u] s t ∧
            OnlyChanges [.dict, .svc, .perf, .mgmt] s t) ∧
        (∀ off : Nat, scan = some (off, .uncorrectable) → s.scanned u off = true → 0x02FF0000 ≤ off → off < 0x03000000 →
          ∃ t, exec (.cuGo via u value scan) s = .next t ∧ Accepted s t ∧ t.rd (K.cu.STATUS u) = 1 ∧
            Tbl.at? t.svc.runs u = some { s.cuConfig u with memError := true } ∧ OnlyRegs [K.cu.STATUS u] s t ∧
            OnlyChanges [.dict, .svc, .perf, .mgmt] s t)) ∧
      ((pathHost via = false ∨ u < 6) → s.cuBusy u = false → value = 1 → (s.cuConfig u).outOfRange u = true → scan = none →
        ∃ t, exec (.cuGo via u value scan) s = .next t ∧ Accepted s t ∧ t.rd (K.cu.STATUS u) = 5 ∧ t.rd (K.cu.RESULT_LEN u) = 0 ∧
          Counted (K.cu.RUNS u) s t ∧ t.cuBusy u = false)) ∧
    (s.cuBusy u = false → exec (.cuRunEnd u) s = .next s) ∧
    (∀ r : CuRun, Tbl.at? s.svc.runs u = some r → s.queue (240 + u) = HwQueue.empty → r.width ≤ 64 →
      r.start + r.len + 8 < 2 ^ 32 →
      ∃ t, exec (.cuRunEnd u) s = .next t ∧ t.cuBusy u = false ∧ Counted (K.cu.RUNS u) s t ∧
        (t.queue (240 + u)).words = [(t.rd (K.cu.STATUS u) + t.rd (K.cu.RESULT_LEN u) * 2 ^ 32, true)] ∧
        (r.memError = true → t.rd (K.cu.STATUS u) = 6 ∧ t.rd (K.cu.RESULT_LEN u) = 0 ∧ t.wm = s.wm) ∧
        (r.memError = false → r.check = true →
          t.rd (K.cu.STATUS u) = (if s.viewBytes (r.start + r.len - crcLen r.params) (crcLen r.params) =
            crcPlace r.params (crcValue r.params (s.viewBytes r.start (r.len - crcLen r.params))) then 3 else 4) ∧
          t.rd (K.cu.RESULT_VALUE u) = crcValue r.params (s.viewBytes r.start (r.len - crcLen r.params)) % 2 ^ 64 ∧ t.wm = s.wm) ∧
        (r.memError = false → r.check = false → t.rd (K.cu.STATUS u) = 2 ∧ t.rd (K.cu.RESULT_LEN u) = r.len + crcLen r.params ∧
          t.rd (K.cu.RESULT_VALUE u) = crcValue r.params (s.viewBytes r.start r.len) % 2 ^ 64 ∧
          (∀ a, a < r.start + r.len ∨ r.start + r.len + (crcPlace r.params (crcValue r.params (s.viewBytes r.start r.len))).length ≤ a →
            t.memByte a = s.memByte a) ∧
          (∀ k, k < (crcPlace r.params (crcValue r.params (s.viewBytes r.start r.len))).length → t.memByte (r.start + r.len + k) =
            (crcPlace r.params (crcValue r.params (s.viewBytes r.start r.len))).getD k 0)) ∧
        OnlyRegs [K.cu.STATUS u, K.cu.RESULT_LEN u, K.cu.RESULT_VALUE u, K.cu.RUNS u, K.samp.SAMPLE_COUNT, K.samp.SAMPLE_OVERFLOW] s t ∧
        OnlyChanges [.free, .dict, .svc, .wm, .perf] s t)

/-- SCRATCH_DATA writes its bytes at SCRATCH_OFFSET and nowhere else, or is refused. Rests on R361
(11_check_units_and_queues.md), R362 (11_check_units_and_queues.md), R373 (11_check_units_and_queues.md). -/
def Obligations.ScratchDataIsWrittenWholeWithinTheWindow : Prop :=
  ∀ (via : Path) (data : List Byte) (s : State), s.MayAccess via 2 →
    (data = [] ∨ 4096 < data.length ∨ 65536 < s.rd K.scratch.SCRATCH_OFFSET + data.length →
      exec (.scratchDataWrite via data) s = .next (s.answer 0x06090030 [])) ∧
    (0 < data.length → data.length ≤ 4096 → s.rd K.scratch.SCRATCH_OFFSET + data.length ≤ 65536 →
      s.scratchBusy (0x02FF0000 + s.rd K.scratch.SCRATCH_OFFSET) (0x02FF0000 + s.rd K.scratch.SCRATCH_OFFSET + data.length) = true →
      exec (.scratchDataWrite via data) s = .next (s.answer 0x08000022 [])) ∧
    (0 < data.length → data.length ≤ 4096 → s.rd K.scratch.SCRATCH_OFFSET + data.length ≤ 65536 → s.svc.runs = [] →
      ∃ t, exec (.scratchDataWrite via data) s = .next t ∧ Accepted s t ∧
        (∀ k, k < data.length → t.memByte (0x02FF0000 + s.rd K.scratch.SCRATCH_OFFSET + k) = data.getD k 0) ∧
        (∀ a, a < 0x02FF0000 + s.rd K.scratch.SCRATCH_OFFSET ∨ 0x02FF0000 + s.rd K.scratch.SCRATCH_OFFSET + data.length ≤ a →
          t.memByte a = s.memByte a) ∧ OnlyChanges [.wm, .mgmt] s t)

/-- Flash operations complete or fail in order, and the journal writes its oldest changes. Rests on R339
(10_keys_and_cipher_engines.md), R340 (10_keys_and_cipher_engines.md), R335 (10_keys_and_cipher_engines.md), R348
(10_keys_and_cipher_engines.md), R449 (14_object_dictionary.md). -/
def Obligations.FlashAndJournalWritesCompleteOnTheirOwn : Prop :=
  (∀ (ok : Bool) (op : FlashOp) (rest : List FlashOp) (s : State), s.running = true ∨ s.sys.phase = .recovery →
     s.bh.unreserved = [] →
     (s.flash.ops = [] → exec (.flashWriteDone ok) s = .next s) ∧
     (s.flash.ops = op :: rest → op.isLedger = true → s.keys.vaultLocked = true →
       ∃ t, exec (.flashWriteDone ok) s = .next t ∧ Counted K.ledger.LEDGER_WRITE_FAIL s t ∧
         OnlyRegs [K.ledger.LEDGER_WRITE_FAIL] s t ∧ OnlyChanges [.dict] s t) ∧
     (∀ (first : Nat) (sectors : List (List Byte)), s.flash.ops = op :: rest → op = .image first sectors →
       exec (.flashWriteDone false) s = .next s ∧
       ∃ t, exec (.flashWriteDone true) s = .next t ∧
         t.flash = { s.flash with ops := rest, image := t.flash.image } ∧ OnlyChanges [.flash] s t ∧
         (∀ k, k < sectors.length → Tbl.atD t.flash.image (first + k) erasedSector = sectors.getD k []) ∧
         (∀ k, k < first ∨ first + sectors.length ≤ k →
           Tbl.atD t.flash.image k erasedSector = Tbl.atD s.flash.image k erasedSector)) ∧
     (∀ (copy : Nat) (c : StoreCopy), s.flash.ops = op :: rest → op = .store copy c → s.mgmt.owed = [] →
       (∃ t, exec (.flashWriteDone true) s = .next t ∧ t.flash = { s.flash with ops := rest, stores := Tbl.ins s.flash.stores copy c } ∧
         (c.seq < 2 ^ 32 → t.rd K.stores.STORE_SEQ = c.seq) ∧ OnlyRegs [K.stores.STORE_SEQ] s t ∧ OnlyChanges [.flash, .dict] s t) ∧
       (∃ t, exec (.flashWriteDone false) s = .next t ∧
         t.flash = { s.flash with ops := rest, stores := Tbl.ins s.flash.stores copy { c with valid := false } } ∧
         Counted K.stores.STORE_FAIL s t ∧ OnlyRegs [K.stores.STORE_FAIL] s t ∧ OnlyChanges [.flash, .dict] s t)) ∧
     (∀ (copy : Nat) (c : StoreCopy) (more : List (Waiting × Reply)), s.running = true → s.flash.ops = op :: rest → op = .store copy c →
       s.mgmt.owed = (.flash, .bare) :: more →
       ∃ t, exec (.flashWriteDone ok) s = .next t ∧
         t.mgmt = { s.mgmt with owed := more, lastAbort := if ok then 0 else 0x08000020, lastData := [] } ∧ t.flash.ops = rest) ∧
     (s.flash.ops = op :: rest → op = .restoreMark →
       ∃ t, exec (.flashWriteDone true) s = .next t ∧ t.flash.ops = rest ∧
         (∀ k c, Tbl.at? t.flash.stores k = some c → c.valid = false) ∧ OnlyChanges [.flash] s t) ∧
     (∀ (n : Nat), s.flash.ops = op :: rest → op.isLedger = true → s.keys.vaultLocked = false → s.erasedLedger = some n →
       ∃ t, exec (.flashWriteDone false) s = .next t ∧ Counted K.ledger.LEDGER_WRITE_FAIL s t ∧ t.flash.ops = s.flash.ops ∧
         Tbl.at? t.flash.ledger n = some ⟨false, s.nextSeq, s.sys.bootId, op.sector⟩ ∧
         OnlyKeys [n] s.flash.ledger t.flash.ledger ∧ OnlyChanges [.flash, .dict] s t) ∧
     (∀ (n : Nat) (recs : List EpRec), s.flash.ops = op :: rest → op = .journal recs false → s.keys.vaultLocked = false →
       s.erasedLedger = some n →
       exec (.flashWriteDone true) s = .next (s.modFlash fun f =>
         { f with ops := rest, ledger := Tbl.ins f.ledger n ⟨true, s.nextSeq, s.sys.bootId, .journal recs⟩ })) ∧
     (∀ (n : Nat) (recs : List AdmRec), s.flash.ops = op :: rest → op = .admission recs → recs ≠ [] → recs.length ≤ 84 →
       s.keys.vaultLocked = false → s.erasedLedger = some n →
       exec (.flashWriteDone true) s = .next (s.modFlash fun f =>
         { f with ops := rest, ledger := Tbl.ins f.ledger n ⟨true, s.nextSeq, s.sys.bootId, .admission recs⟩ })) ∧
     (∀ (n : Nat) (r : ResRec), s.flash.ops = op :: rest → op = .reservation r → s.keys.vaultLocked = false →
       s.erasedLedger = some n → s.rd (K.key.FINGERPRINT r.slot) = r.fingerprint → s.keys.waiting = [] →
       ∃ t, exec (.flashWriteDone true) s = .next t ∧ t.flash.ops = rest ∧
         Tbl.at? t.flash.ledger n = some ⟨true, s.nextSeq, s.sys.bootId, .reservation [r]⟩ ∧
         t.slot r.slot = { s.slot r.slot with resEnd := max (s.slot r.slot).resEnd r.fcEnd } ∧
         OnlyKeys [n] s.flash.ledger t.flash.ledger ∧ OnlyChanges [.flash, .keys] s t)) ∧
  (∀ s : State, s.running = true →
     (s.keys.ledgerOn = false → exec .ledgerJournalWrite s = .next s) ∧
     (s.keys.ledgerOn = true → s.keys.vaultLocked = true →
       ∃ t, exec .ledgerJournalWrite s = .next t ∧ Counted K.ledger.LEDGER_WRITE_FAIL s t ∧
         OnlyRegs [K.ledger.LEDGER_WRITE_FAIL] s t ∧ OnlyChanges [.dict] s t) ∧
     (s.keys.ledgerOn = true → s.keys.vaultLocked = false → s.snapshotDue = false →
       exec .ledgerJournalWrite s = .next (s.modFlash fun f =>
         { f with ops := f.ops ++ [.journal (f.journal.take 126) false], journal := f.journal.drop 126 })) ∧
     (s.keys.ledgerOn = true → s.keys.vaultLocked = false → s.snapshotDue = true → s.snapshotting = false →
       exec .ledgerJournalWrite s = .next (s.modFlash fun f =>
         { f with
           ops := f.ops ++ [.journal (f.journal.take 126) false,
             .journal ((s.epsWith fun e => e.state != epFree).map s.epRec) true]
           journal := f.journal.drop 126 })))

/-- Image writes spare the running slot, and version and root fuses are blown only as stated. Rests on R346
(10_keys_and_cipher_engines.md), R347 (10_keys_and_cipher_engines.md), R348 (10_keys_and_cipher_engines.md). -/
def Obligations.ImageWritesSpareTheRunningSlotAndFusesOnlyGrow : Prop :=
  ∀ (via : Path) (s : State), s.MayAccess via 3 →
    (∀ value : Nat, value < 256 → value ≠ headSecurity s.runningHead →
      exec (.commitSecurityVersion via value) s = .next (s.answer 0x06090030 [])) ∧
    (∀ value : Nat, value < 256 → value = headSecurity s.runningHead →
      ∃ t, exec (.commitSecurityVersion via value) s = .next t ∧ Accepted s t ∧
        t.flash = { s.flash with minVersion := min 64 (max s.flash.minVersion value) } ∧ OnlyChanges [.flash, .mgmt] s t) ∧
    (∀ k : Nat, 1 < k → k < 256 → exec (.rootRevoke via k) s = .next (s.answer 0x06090030 [])) ∧
    (∀ k : Nat, k ≤ 1 → headRoot s.runningHead ≠ 1 - k → exec (.rootRevoke via k) s = .next (s.answer 0x08000020 [])) ∧
    (∀ k : Nat, k ≤ 1 → headRoot s.runningHead = 1 - k →
      ∃ t, exec (.rootRevoke via k) s = .next t ∧ Accepted s t ∧ t.flash = { s.flash with rootRevoked := t.flash.rootRevoked } ∧
        (∀ j, t.revoked j = (s.revoked j || j == k)) ∧ OnlyChanges [.flash, .mgmt] s t) ∧
    (∀ (data : List Byte) (k : Nat), 1 ≤ k → k ≤ 256 → data.length = 8 + 4096 * k → headField data 0 1 ≤ 1 →
      headField data 4 4 % 4096 = 0 → headField data 4 4 + 4096 * k ≤ 0x1000000 →
      (headField data 0 1 = s.rd K.bootp.BOOT_SLOT → exec (.imageData via data) s = .next (s.answer 0x08000020 [])) ∧
      (headField data 0 1 ≠ s.rd K.bootp.BOOT_SLOT →
        ∃ t, exec (.imageData via data) s = .next t ∧ Accepted s t ∧ t.flash = { s.flash with ops := s.flash.ops ++
          [.image (headField data 0 1 * 4096 + headField data 4 4 / 4096) (sectorsOf k (data.drop 8))] } ∧
          OnlyChanges [.flash, .mgmt] s t)) ∧
    (∀ data : List Byte, data.length % 4096 ≠ 8 ∨ data.length < 4104 ∨ 8 + 4096 * 256 < data.length ∨ 1 < headField data 0 1 ∨
      headField data 4 4 % 4096 ≠ 0 ∨ 0x1000008 < headField data 4 4 + data.length →
      exec (.imageData via data) s = .next (s.answer 0x06090030 [])) ∧
    (∀ vaultOk : Bool, exec (.imageVerify via 0 vaultOk) s = .next (s.answer 0 [])) ∧
    (s.keys.vaultLocked = true → ∀ vaultOk : Bool,
      ∃ t, exec (.imageVerify via 1 vaultOk) s = .next t ∧ Accepted s t ∧ t.rd K.bootp.IMAGE_STATUS = SlotResult.vaultFail.code ∧
        OnlyRegs [K.bootp.IMAGE_STATUS] s t ∧ OnlyChanges [.dict, .mgmt] s t) ∧
    (s.keys.vaultLocked = false →
      ∃ t, exec (.imageVerify via 1 true) s = .next t ∧ Accepted s t ∧
        t.rd K.bootp.IMAGE_STATUS = (s.slotResult (1 - s.rd K.bootp.BOOT_SLOT)).code ∧
        OnlyRegs [K.bootp.IMAGE_STATUS] s t ∧ OnlyChanges [.dict, .mgmt] s t) ∧
    (s.keys.vaultLocked = false →
      ∃ t, exec (.imageVerify via 1 false) s = .next t ∧ Accepted s t ∧ t.rd K.bootp.IMAGE_STATUS = SlotResult.vaultFail.code ∧
        Counted K.vault.VAULT_FAULTS s t ∧ t.keys = { s.keys with vaultLocked := decide (3 ≤ t.rd K.vault.VAULT_FAULTS) } ∧
        OnlyRegs [K.bootp.IMAGE_STATUS, K.vault.VAULT_FAULTS] s t ∧ OnlyChanges [.dict, .keys, .mgmt] s t)

/-- Recovery mode serves only its objects on local paths; STORE_ALL and RESTORE_ALL need their key words. Rests on R345
(10_keys_and_cipher_engines.md), R449 (14_object_dictionary.md), R451 (14_object_dictionary.md), R448
(14_object_dictionary.md). -/
def Obligations.RecoveryServesItsObjectsAndStoreWorksByKeyWords : Prop :=
  (∀ (via : Path) (idx sub : Nat) (data : List Byte) (s : State), s.sys.phase = .recovery → Tbl.at? s.sys.halted 0 = none →
     (via ≠ .can → via ≠ .spi → exec (.objectWrite via idx sub data) s = .next s ∧ exec (.imageData via data) s = .next s) ∧
     (via = .can ∨ via = .spi → idx ≠ 0x1018 → idx ≠ 0x2201 → idx ≠ 0x2001 →
       exec (.objectWrite via idx sub data) s = .next (s.answer 0x06020000 [])) ∧
     (∀ k : Nat, via = .can ∨ via = .spi → 1 ≤ k → k ≤ 256 → data.length = 8 + 4096 * k → headField data 0 1 ≤ 1 →
       headField data 4 4 % 4096 = 0 → headField data 4 4 + 4096 * k ≤ 0x1000000 →
       ∃ t, exec (.imageData via data) s = .next t ∧ Accepted s t ∧ t.flash = { s.flash with ops := s.flash.ops ++
         [.image (headField data 0 1 * 4096 + headField data 4 4 / 4096) (sectorsOf k (data.drop 8))] } ∧
         OnlyChanges [.flash, .mgmt] s t) ∧
     (via = .can ∨ via = .spi → 2 ≤ s.levelOf via → s.sys.resetDue = none →
       ∃ t, exec (.reset via 0x74657372) s = .next t ∧ Accepted s t ∧
         t.sys = { s.sys with resetDue := some (s.now + 4096000, if via = .can then 0 else 2) } ∧ OnlyChanges [.sys, .mgmt] s t)) ∧
  (∀ (via : Path) (value : Nat) (s : State), value < 2 ^ 32 → s.MayAccess via 3 →
     (value ≠ 0x65766173 → ∀ fits, exec (.storeAll via value fits) s = .next (s.answer 0x06090030 [])) ∧
     (exec (.storeAll via 0x65766173 false) s = .next (s.answer 0x08000020 [])) ∧
     (∃ t c, exec (.storeAll via 0x65766173 true) s = .next t ∧ t.mgmt = { s.mgmt with owed := s.mgmt.owed ++ [(.flash, .bare)] } ∧
       t.flash = { s.flash with ops := s.flash.ops ++ [.store (olderCopy s.flash.storesAfter) c] } ∧ c.valid = true ∧
       c.records = s.capture ∧ c.fw = headFw s.runningHead ∧
       ((∀ p ∈ s.flash.storesAfter, p.2.seq < 2 ^ 32 - 1) → ∀ p ∈ s.flash.storesAfter, p.2.seq < c.seq) ∧
       OnlyRegs [K.stores.STORE_OMITTED] s t ∧ OnlyChanges [.flash, .dict, .mgmt] s t) ∧
     (value ≠ 0x64616F6C → exec (.restoreAll via value) s = .next (s.answer 0x06090030 [])) ∧
     (∃ t, exec (.restoreAll via 0x64616F6C) s = .next t ∧ Accepted s t ∧
       t.flash = { s.flash with ops := s.flash.ops ++ [.restoreMark] } ∧ OnlyChanges [.flash, .mgmt] s t))

/-- Mains unit configuration applies when not busy; mode, path, acquisition and input restart the unit. Rests on R384
(12_mains_measurement.md), R385 (12_mains_measurement.md), R376 (12_mains_measurement.md), R17 (01_device_map.md), R399
(12_mains_measurement.md), R383 (12_mains_measurement.md). -/
def Obligations.MainsConfigurationAppliesAndRestartsAsTheChapterSays : Prop :=
  ∀ (u : Nat) (s : State), u < 64 → s.running = true →
    ((s.unit u).busy = true → exec (.mainsConfigApply u) s = .next s) ∧
    ((s.unit u).busy = false →
      ∃ t, exec (.mainsConfigApply u) s = .next t ∧ (∀ v, v ≠ u → t.unit v = s.unit v) ∧
        ((s.mainsCfg u).userStage = (s.unit u).cfg.userStage → t.unit u = { s.unit u with cfg := s.mainsCfg u }) ∧
        ((s.mainsCfg u).userStage ≠ (s.unit u).cfg.userStage → t.unit u = { s.unit u with
          cfg := s.mainsCfg u, firHist := [], biquads := List.replicate 4 (0, 0, 0, 0), userWait := 32 }) ∧ OnlyChanges [.mains] s t) ∧
    (∃ t, exec (.mainsBwOverflow u) s = .next t ∧ t.flag (K.mcr.BW_OVERFLOW u) = true ∧ (t.unit u).busy = false ∧
      (t.unit u).pending = none ∧ (t.unit u).summed = 0 ∧ (t.unit u).firHist = [] ∧ (t.unit u).chain = 0 ∧
      (t.unit u).startAt = s.now + startTicks (s.mainsCfg u).mode (s.mainsCfg u).path ∧ (t.unit u).settledAt = none ∧
      (t.unit u).words = (s.unit u).words ∧ (t.unit u).cfg = s.mainsCfg u ∧
      (t.unit u).ths.1.valid = false ∧ (t.unit u).ths.2.valid = false ∧ (∀ v, v ≠ u → t.unit v = s.unit v) ∧
      OnlyRegs [K.mcr.BW_OVERFLOW u] s t ∧ OnlyChanges [.dict, .mains] s t) ∧
    (∀ (via : Path) (sub value : Nat), 1 ≤ sub → sub ≤ 4 → value < 256 → s.MayAccess via 2 → s.partnerOf u = true →
      exec (.mainsUnitRestart via u sub value) s = .next (s.answer 0x08000022 [])) ∧
    (∀ (via : Path) (sub value mode path acq : Nat) (r : Reg), value < 256 → s.MayAccess via 2 → s.partnerOf u = false →
      (sub, r) ∈ [(1, K.mc.MODE u), (2, K.mc.PATH u), (3, K.mc.ACQ u), (4, K.mc.INPUT_SEL u)] →
      mode = (if sub = 1 then value else s.rd (K.mc.MODE u)) → path = (if sub = 2 then value else s.rd (K.mc.PATH u)) →
      acq = (if sub = 3 then value else s.rd (K.mc.ACQ u)) → mode ≤ 2 → path ≤ 1 → acq ≤ 1 →
      (modeGood mode path acq = false ∨ sub = 1 ∧ value ≠ 2 ∧ s.flag (K.mc.PAIRED u) = true ∨
          sub = 4 ∧ (value = 6 ∨ value = 7 ∨ 15 < value) →
        exec (.mainsUnitRestart via u sub value) s = .next (s.answer 0x06090030 [])) ∧
      (modeGood mode path acq = true → ¬ (sub = 1 ∧ value ≠ 2 ∧ s.flag (K.mc.PAIRED u) = true) →
          ¬ (sub = 4 ∧ (value = 6 ∨ value = 7 ∨ 15 < value)) →
        ∃ t, exec (.mainsUnitRestart via u sub value) s = .next t ∧ Accepted s t ∧ t.rd r = value ∧ OnlyRegs [r] s t ∧
          OnlyChanges [.dict, .mains, .mgmt] s t ∧ (s.rd r = value → t.mains = s.mains) ∧
          (s.rd r ≠ value → (t.unit u).cfg = t.mainsCfg u ∧ (t.unit u).busy = false ∧ (t.unit u).summed = 0 ∧
            (t.unit u).words = [] ∧ (t.unit u).chain = 0 ∧ (t.unit u).settledAt = none ∧
            (t.unit u).startAt = s.now + startTicks (t.mainsCfg u).mode (t.mainsCfg u).path ∧ (∀ v, v ≠ u → t.unit v = s.unit v))))

/-- A trigger starts a conversion, waits or is lost; a group trigger acts on every member alike. Rests on R383
(12_mains_measurement.md), R386 (12_mains_measurement.md), R387 (12_mains_measurement.md), R388 (12_mains_measurement.md). -/
def Obligations.TriggersStartWaitOrAreLostAndGroupsStartTogether : Prop :=
  (∀ (u : Nat) (s : State), u < 64 → s.running = true →
     (∀ via : Path, s.MayAccess via 1 → exec (.trigNow via u 0) s = .next (s.answer 0 [])) ∧
     (∀ via : Path, s.MayAccess via 1 → (s.unit u).cfg.grouped = true → exec (.trigNow via u 1) s = .next (s.answer 0 [])) ∧
     (∀ via : Path, s.MayAccess via 1 → (s.unit u).cfg.grouped = false →
       ∃ t, exec (.trigNow via u 1) s = .next t ∧ Accepted s t ∧ TriggerActs u (nextEdge s.now) s t ∧
         OnlyRegs [K.mcr.TRIGGER_LOST u, K.mcr.TRIGGER_LOST_COUNT u] s t ∧ OnlyChanges [.dict, .mains, .mgmt] s t) ∧
     (∀ m : Nat, (s.unit u).cfg.source = 1 → (s.unit u).cfg.grouped = false → 20 ≤ (s.unit u).cfg.param →
       (∀ l, (s.unit u).lastSched = some l → l < m) →
       s.skipped (s.tickOf (dtOfPair (s.unit u).cfg.sched + m * (s.unit u).cfg.param * dtSecond / 1000000)) = false →
       ∃ t, exec (.scheduleTrigger (.unit u) m) s = .next t ∧ (t.unit u).lastSched = some m ∧
         t.now = max s.now (nextEdge (s.tickOf (dtOfPair (s.unit u).cfg.sched + m * (s.unit u).cfg.param * dtSecond / 1000000))) ∧
         TriggerActs u (nextEdge t.now) (s.modUnit u fun x => { x with lastSched := some m }) t ∧
         OnlyChanges [.now, .free, .dict, .perf, .tracker, .tides, .mains] s t) ∧
     (∀ m l : Nat, (s.unit u).lastSched = some l → m ≤ l → exec (.scheduleTrigger (.unit u) m) s = .next s) ∧
     (∀ cycle : Nat, (s.unit u).cfg.source = 2 → (s.unit u).cfg.grouped = false → field (s.unit u).cfg.param 16 8 ≠ 0 →
       (cycle % field (s.unit u).cfg.param 16 8 ≠ 0 → exec (.mainsPhaseTrigger (.unit u) cycle) s = .next s) ∧
       (cycle % field (s.unit u).cfg.param 16 8 = 0 →
         ∃ t, exec (.mainsPhaseTrigger (.unit u) cycle) s = .next t ∧
           t.now = max s.now (nextEdge (s.phaseTick cycle (field (s.unit u).cfg.param 0 16 * 2 ^ 16))) ∧
           TriggerActs u (nextEdge t.now) s t ∧ OnlyChanges [.now, .free, .dict, .perf, .tracker, .tides, .mains] s t)) ∧
     (s.subscribers 3 (fun _ => true) = [.unit u] → (s.unit u).cfg.grouped = false →
       ∃ t, exec .ppsTrigger s = .next t ∧ t.mains.lastPps = some (s.nextSecond s.mains.lastPps) ∧
         t.now = max s.now (nextEdge (s.tickOf (s.nextSecond s.mains.lastPps * dtSecond))) ∧
         TriggerActs u (nextEdge t.now) s t ∧ OnlyChanges [.now, .free, .dict, .perf, .tracker, .tides, .mains] s t) ∧
     (∀ rising : Bool, s.subscribers 5 (fun p => bitOf p 0 != rising) = [] →
       exec (.mctrigEdge rising) s = .next (s.modPins fun p => { p with mctrig := rising })) ∧
     (∀ rising : Bool, s.subscribers 5 (fun p => bitOf p 0 != rising) = [.unit u] → (s.unit u).cfg.grouped = false →
       ∃ t, exec (.mctrigEdge rising) s = .next t ∧ t.pins = { s.pins with mctrig := rising } ∧
         TriggerActs u (nextEdge (s.now + 1) + 64) s t ∧ OnlyChanges [.pins, .dict, .mains] s t)) ∧
  (∀ (via : Path) (s : State), s.MayAccess via 1 →
     exec (.groupTrigNow via 0) s = .next (s.answer 0 []) ∧
     (s.groupMembers = [] → exec (.groupTrigNow via 1) s = .next (s.answer 0 [])) ∧
     (s.groupMembers ≠ [] → (∀ u ∈ s.groupMembers, (s.unit u).busy = false) →
       ∃ t, exec (.groupTrigNow via 1) s = .next t ∧ Accepted s t ∧
         (∀ u ∈ s.groupMembers, Converts (s.unit u) (nextEdge s.now) (nextEdge s.now + s.groupDelay + clocks (latchOffset u)) (t.unit u)) ∧
         (∀ u, u ∉ s.groupMembers → t.unit u = s.unit u) ∧ OnlyChanges [.mains, .mgmt] s t) ∧
     ((∃ u ∈ s.groupMembers, (s.unit u).busy = true) → s.mains.groupPending = none →
       (∃ u ∈ s.groupMembers, (s.unit u).edge ≠ nextEdge s.now ∨ (s.unit u).pended = true) →
       ∃ t, exec (.groupTrigNow via 1) s = .next t ∧ Accepted s t ∧
         t.mains = { s.mains with groupPending := some (nextEdge s.now) } ∧ OnlyChanges [.mains, .mgmt] s t) ∧
     ((∃ u ∈ s.groupMembers, (s.unit u).busy = true) →
       s.mains.groupPending.isSome = true ∨ (∀ u ∈ s.groupMembers, (s.unit u).edge = nextEdge s.now ∧ (s.unit u).pended = false) →
       ∃ t, exec (.groupTrigNow via 1) s = .next t ∧ Accepted s t ∧ Counted K.grp.GROUP_LOST_COUNT s t ∧
         (∀ u ∈ s.groupMembers, t.flag (K.mcr.TRIGGER_LOST u) = true ∧ Counted (K.mcr.TRIGGER_LOST_COUNT u) s t) ∧
         t.mains = s.mains ∧ OnlyChanges [.dict, .mgmt] s t))

/-- Waveform samples, phasors, cycle integrals and SH-240 conversions reach their result objects. Rests on R378
(12_mains_measurement.md), R379 (12_mains_measurement.md), R380 (12_mains_measurement.md), R381 (12_mains_measurement.md), R382
(12_mains_measurement.md), R384 (12_mains_measurement.md), R389 (12_mains_measurement.md), R390 (12_mains_measurement.md), R393
(12_mains_measurement.md), R394 (12_mains_measurement.md), R395 (12_mains_measurement.md). -/
def Obligations.MainsResultsReachTheResultObjects : Prop :=
  ∀ (u : Nat) (s : State), u < 64 → s.running = true →
    ((∀ p ∈ s.mains.units, p.2.words = []) →
      exec (.waveformSample []) s = .next s ∧
      ∀ k w : Nat, (s.unit u).cfg.mode ≠ 1 ∨ (s.unit u).cfg.path ≠ 0 ∨ k < (s.unit u).nextDump ∨ dumpTick u k < (s.unit u).startAt →
        exec (.waveformSample [(u, k, w)]) s = .next s) ∧
    (∀ (k w : Nat) (m : MainsUnit), OneDump u k w m none s →
      ∃ t, exec (.waveformSample [(u, k, w)]) s = .next t ∧ t.now = max s.now (dumpTick u k) ∧ t.unit u = { m with words := [] } ∧
        (∀ v, v ≠ u → t.unit v = s.unit v) ∧ OnlyChanges [.now, .free, .dict, .perf, .tracker, .tides, .mains] s t) ∧
    (∀ (k w : Nat) (m : MainsUnit) (x : Int) (n : Nat), OneDump u k w m (some (x, n)) s →
      ∃ t, exec (.waveformSample [(u, k, w)]) s = .next t ∧ t.now = max s.now (dumpTick u k) ∧ (t.unit u).words = [] ∧
        (t.unit u).wave = ((dumpTick u k - 274368, x) :: m.wave).take 512 ∧ (t.unit u).cfg = s.mainsCfg u ∧
        t.rd (K.mcr.ACC_OVERFLOW u) = min (2 ^ 32 - 1) (s.rd (K.mcr.ACC_OVERFLOW u) + (n + (m.userStage x).2.2)) ∧
        (s.coreUp 0 = true → s.queueFull (112 + u) = false →
          ResultIs u (m.userStage x).1 ((if m.chain ≠ 68 ∨ m.cfg.userStage ≠ 0 ∧ m.userWait ≠ 0 then 1 else 0) +
            (if n + (m.userStage x).2.2 = 0 then 0 else 4)) (dumpTick u k - 274368) s t ∧
          (m.cfg.thSources.1 ≠ 0 → m.cfg.thSources.2 ≠ 0 → (∀ v, v ≠ u → t.unit v = s.unit v) ∧
            OnlyRegs [K.mcr.RESULTS u, K.mcr.ACC_OVERFLOW u, K.times.UNSYNC_SECONDS, K.trks.PHASE_STEP_COUNT] s t ∧
            OnlyChanges [.now, .free, .dict, .perf, .tracker, .tides, .blobs, .mains] s t)) ∧
        (s.coreUp 0 = false → (s.queue (112 + u)).words.length < 256 → (s.queue (112 + u)).dropping = false →
          (s.queue (112 + u)).stalled = false → t.rd (K.mcr.RESULTS u) = s.rd (K.mcr.RESULTS u) ∧ t.blobs = s.blobs ∧
          ∃ flags, (t.queue (112 + u)).words = (s.queue (112 + u)).words ++ [(twos 32 (m.userStage x).1 + 2 ^ 32 * flags, true)])) ∧
    (∀ (v j k w y : Nat) (a b : MainsUnit), s.mains.units = [(u, a), (v, b)] → u < v → a.words = [(j, w)] → b.words = [(k, y)] →
      (dumpTick u j ≤ dumpTick v k → (a.takeWord j w (dumpTick u j)).2.isSome = true →
        ∃ t, exec (.waveformSample []) s = .next t ∧ (t.unit u).words = [] ∧ (t.unit v).words = [(k, y)]) ∧
      (dumpTick v k < dumpTick u j → (b.takeWord k y (dumpTick v k)).2.isSome = true →
        ∃ t, exec (.waveformSample []) s = .next t ∧ (t.unit u).words = [(j, w)] ∧ (t.unit v).words = [])) ∧
    (∀ k : Nat, (s.unit u).cfg.mode ≠ 1 ∨ (s.unit u).cfg.path ≠ 0 → exec (.phasor u k) s = .next s) ∧
    (∀ (k mid magnitude x : Nat) (unsettled : Bool), (s.unit u).cfg.mode = 1 → (s.unit u).cfg.path = 0 →
      mid = ((s.zeroAt k + s.zeroAt (k + 1)) / 2).toNat → magnitude = phasorMagnitude s.tracker.period (s.phasorSums u k) →
      x = s.dtOf (mid / 2 ^ 16) →
      (unsettled = true ↔ ∀ a, (s.unit u).settledAt = some a → s.zeroAt k < ((a * 2 ^ 16 : Nat) : Int)) →
      ∃ t, exec (.phasor u k) s = .next t ∧ t.now = max s.now (ceilDiv (s.zeroAt (k + 1)).toNat (2 ^ 16)) ∧
        t.rdB (K.mcr.PHASOR u) = leBytes 4 magnitude ++
          leBytes 4 ((phasorAngle (s.phasorSums u k) - ((s.tracker.nominal * (x % dtSecond) * 2 ^ 32 / dtSecond : Nat) : Int)) % 2 ^ 32).toNat ++
          leBytes 4 (dtFrac x) ++ leBytes 4 (dtSec x) ++ leBytes 4 ((if unsettled then 1 else 0) +
            (if s.heldIn (s.zeroAt k / 2 ^ 16).toNat (ceilDiv (s.zeroAt (k + 1)).toNat (2 ^ 16)) then 2 else 0) +
            (if s.synchronised then 0 else 16)) ∧
        (u = s.rd K.trk.REF_UNIT → t.tracker.phasor = some ⟨magnitude, unsettled, phasorAngle (s.phasorSums u k), mid⟩) ∧
        (u ≠ s.rd K.trk.REF_UNIT → t.tracker.phasor = s.tracker.phasor) ∧
        ((s.unit u).cfg.thSources.1 ≠ 1 → (s.unit u).cfg.thSources.2 ≠ 1 →
          OnlyRegs [K.times.UNSYNC_SECONDS, K.trks.PHASE_STEP_COUNT] s t ∧
          OnlyChanges [.now, .free, .dict, .perf, .tracker, .tides, .blobs] s t)) ∧
    (∀ (k : Nat) (bits : Int), (s.unit u).cfg.mode ≠ 1 ∨ (s.unit u).cfg.path ≠ 1 ∨ (s.unit u).cfg.acq = 1 ∧ (s.unit u).busy = false ∨
        (s.unit u).cfg.acq ≠ 1 ∧ (∃ j, (s.unit u).lastWin = some j ∧ k ≤ j) →
      exec (.cycleIntegral u k bits) s = .next s) ∧
    (∀ (k start n : Nat) (bits : Int), (s.unit u).cfg.mode = 1 → (s.unit u).cfg.path = 1 → start = s.windowStart u k →
      n = windowClocks (s.periodAt start) →
      ((s.unit u).cfg.acq ≠ 1 → (∀ j, (s.unit u).lastWin = some j → j < k) →
        ∃ t, exec (.cycleIntegral u k bits) s = .next t ∧ t.now = max s.now (start + 32 * n) ∧
          (start < (s.unit u).startAt → t.unit u = { s.unit u with winEnd := start + 32 * n, lastWin := some k }) ∧
          ((s.unit u).startAt ≤ start → Averages u { s.unit u with winEnd := start + 32 * n, lastWin := some k }
            (sat24 (roundDiv (bits * 2 ^ 23) n)).1
            ((if s.heldIn start (start + 1) then 2 else 0) + (if (sat24 (roundDiv (bits * 2 ^ 23) n)).2 then 4 else 0)) start s t)) ∧
      ((s.unit u).cfg.acq = 1 → (s.unit u).busy = true →
        ∃ t, exec (.cycleIntegral u k bits) s = .next t ∧ t.now = max s.now (start + 32 * n) ∧ start = (s.unit u).winEnd ∧
          Averages u { s.unit u with winEnd := start + 32 * n } (sat24 (roundDiv (bits * 2 ^ 23) n)).1
            ((if s.heldIn start (start + 1) then 2 else 0) + (if (sat24 (roundDiv (bits * 2 ^ 23) n)).2 then 4 else 0)) start s t)) ∧
    (∀ nv : Int, u < 9 ∨ u % 2 = 0 ∨ (s.unit (u - 1)).cfg.paired = false →
      ((s.unit u).cfg.mode ≠ 2 ∨ (s.unit u).cfg.acq = 1 ∧ (s.unit u).busy = false → exec (.sh240Result u nv) s = .next s) ∧
      ((s.unit u).cfg.mode = 2 → (s.unit u).cfg.acq ≠ 1 ∨ (s.unit u).busy = true →
        ∃ t, exec (.sh240Result u nv) s = .next t ∧ t.now = max s.now ((s.unit u).nextLatch u) ∧
          Averages u { s.unit u with
              latchNext := some ((s.unit u).nextLatch u +
                32 * (if (s.unit u).cfg.paired then (s.unit u).cfg.period / 2 else (s.unit u).cfg.period)) }
            (clampInt 0 4095 (nv * 4096 / 2500000000)) 0 ((s.unit u).nextLatch u) s t)) ∧
    (∀ nv : Int, 9 ≤ u → u % 2 = 1 → (s.unit (u - 1)).cfg.paired = true → (s.unit (u - 1)).cfg.mode = 2 →
      exec (.sh240Result u nv) s = exec (.sh240Result (u - 1) nv) s)

/-- Thresholds cross with hysteresis, send held-off alarms, and clear on an event read. Rests on R396 (12_mains_measurement.md), R397
(12_mains_measurement.md), R398 (12_mains_measurement.md), R399 (12_mains_measurement.md). -/
def Obligations.ThresholdsCrossAlarmAndClearOnRead : Prop :=
  ∀ (u : Nat) (s : State), u < 64 → s.running = true →
    (∀ (k w : Nat) (m : MainsUnit) (x v : Int), OneDump u k w m (some (x, 0)) s → m.chain = 68 → (s.unit u).cfg.userStage = 0 → v = x →
      (s.unit u).cfg.thSources = (0, 1) →
      ((s.unit u).ths.1.valid = false →
        ∃ t, exec (.waveformSample [(u, k, w)]) s = .next t ∧ (t.unit u).ths.1 =
          { (s.unit u).ths.1 with valid := true, above := decide ((s.unit u).cfg.levels.1 ≤ v), max := v, min := v, latest := v } ∧
          (t.unit u).ths.2 = (s.unit u).ths.2 ∧ t.mains.alarms = s.mains.alarms) ∧
      ((s.unit u).ths.1.valid = true → (s.unit u).ths.1.above = false → (s.unit u).cfg.levels.1 ≤ v →
        s.subscribers 4 (crossingNamed u 0 false) = [] →
        ∃ t, exec (.waveformSample [(u, k, w)]) s = .next t ∧ (t.unit u).ths.1.above = true ∧
          (t.unit u).ths.1.aboveSeen = true ∧ (t.unit u).ths.1.count = min ((s.unit u).ths.1.count + 1) 65535 ∧
          (bitOf (s.unit u).cfg.thAlarms.1 0 = false → t.mains.alarms = s.mains.alarms) ∧
          (bitOf (s.unit u).cfg.thAlarms.1 0 = true → (s.unit u).holdUntil = none → s.queueFull 254 = false →
            (s.queue 254).dropping = false →
            Counted (K.mcr.ALARMS_SENT u) s t ∧ ∃ a, t.mains.alarms = s.mains.alarms ++ [a] ∧ a.unit = u ∧ a.th = 0 ∧
              a.down = false ∧ a.value = v ∧ a.level = (s.unit u).cfg.levels.1)) ∧
      ((s.unit u).ths.1.valid = true → (s.unit u).ths.1.above = true → v < (s.unit u).cfg.levels.1 - (s.unit u).cfg.hysts.1 →
        s.subscribers 4 (crossingNamed u 0 true) = [] →
        ∃ t, exec (.waveformSample [(u, k, w)]) s = .next t ∧ (t.unit u).ths.1.above = false ∧
          (t.unit u).ths.1.belowSeen = true ∧ (t.unit u).ths.1.count = min ((s.unit u).ths.1.count + 1) 65535) ∧
      ((s.unit u).ths.1.valid = true → (s.unit u).ths.1.above = true →
        (s.unit u).cfg.levels.1 - (s.unit u).cfg.hysts.1 ≤ v →
        ∃ t, exec (.waveformSample [(u, k, w)]) s = .next t ∧ (t.unit u).ths.1 =
          { (s.unit u).ths.1 with max := Max.max (s.unit u).ths.1.max v, min := Min.min (s.unit u).ths.1.min v, latest := v })) ∧
    (∀ (k : Nat) (v : Int), (s.unit u).cfg.mode = 1 → (s.unit u).cfg.path = 0 → (s.unit u).cfg.thSources = (0, 1) →
      (s.unit u).ths.2.valid = false → (∃ a, (s.unit u).settledAt = some a ∧ ((a * 2 ^ 16 : Nat) : Int) ≤ s.zeroAt k) →
      v = phasorMagnitude s.tracker.period (s.phasorSums u k) →
      ∃ t, exec (.phasor u k) s = .next t ∧ (t.unit u).ths.1 = (s.unit u).ths.1 ∧ (t.unit u).ths.2 =
        { (s.unit u).ths.2 with valid := true, above := decide ((s.unit u).cfg.levels.2 ≤ v), max := v, min := v, latest := v }) ∧
    ((s.unit u).holdUntil = none → exec (.alarmHoldoffExpiry u) s = .next s) ∧
    (∀ h, (s.unit u).holdUntil = some h → (s.unit u).heldAlarm = none →
      ∃ t, exec (.alarmHoldoffExpiry u) s = .next t ∧ t.now = max s.now h ∧ t.unit u = { s.unit u with holdUntil := none } ∧
        OnlyChanges [.now, .free, .dict, .perf, .tracker, .tides, .mains] s t) ∧
    (∀ h a, (s.unit u).holdUntil = some h → (s.unit u).heldAlarm = some a →
      ∃ t, exec (.alarmHoldoffExpiry u) s = .next t ∧ t.now = max s.now h ∧ Counted (K.mcr.ALARMS_SENT u) s t ∧
        (t.unit u).heldAlarm = none ∧ (t.unit u).holdUntil =
          (if (s.unit u).cfg.holdoff = 0 then none else some (t.now + 409600 * (s.unit u).cfg.holdoff)) ∧
        (s.queueFull 254 = false → t.mains.alarms = s.mains.alarms ++ [a])) ∧
    (∀ (via : Path) (j : Nat), j < 2 → s.MayAccess via 1 →
      ∃ t, exec (.eventRead via u j) s = .next t ∧ t.mgmt = { s.mgmt with lastAbort := 0, lastData := ((s.unit u).th j).bytes } ∧
        (t.unit u).th j = { (s.unit u).th j with
          aboveSeen := false, belowSeen := false, count := 0, max := ((s.unit u).th j).latest, min := ((s.unit u).th j).latest } ∧
        (t.unit u).th (1 - j) = (s.unit u).th (1 - j) ∧ (∀ v, v ≠ u → t.unit v = s.unit v) ∧ OnlyChanges [.mains, .mgmt] s t)

/-- The tracker locks after eight close cycles and loses on invalid ones; tide slots average and go stale. Rests on R153
(06_tide_tables.md), R154 (06_tide_tables.md), R155 (06_tide_tables.md), R156 (06_tide_tables.md), R157 (06_tide_tables.md), R158
(06_tide_tables.md), R163 (06_tide_tables.md), R164 (06_tide_tables.md), R165 (06_tide_tables.md), R166 (06_tide_tables.md). -/
def Obligations.TrackerAndTidesFollowTheMains : Prop :=
  (∀ (s : State) (kept : Option RefPhasor), s.running = true →
     kept = (match s.tracker.phasor with
       | some f => some f
       | none => s.tracker.prior) →
     ((∀ p c, s.cycleMeasured = some (p, c) → s.cycleValid p = false) →
       (s.trkState = 0 → exec .mainsCycle s = .next (s.modTracker fun t => { t with phasor := none, prior := kept })) ∧
       (s.trkState = 1 ∨ s.trkState = 2 ∧ 1 ≤ s.tracker.invalid →
         ∃ t, exec .mainsCycle s = .next t ∧ t.trkState = 0 ∧ t.flag K.trks.HOLDOVER_SEEN = true ∧
           Counted K.trks.LOCK_LOSS_COUNT s t ∧ t.tracker.period = s.tracker.period ∧ t.tides = s.tides ∧
           OnlyRegs [K.trks.TRACKER_STATE, K.trks.HOLDOVER_SEEN, K.trks.LOCK_LOSS_COUNT] s t ∧ OnlyChanges [.dict, .tracker] s t) ∧
       (s.trkState = 2 → s.tracker.invalid = 0 →
         exec .mainsCycle s =
           .next (s.modTracker fun t => { t with phasor := none, prior := kept, invalid := 1, residual := 0 }))) ∧
     (∀ p c, s.cycleMeasured = some (p, c) → s.cycleValid p = true → s.trkState ≠ 2 →
       (s.trkState = 0 ∨ periodsClose p s.tracker.lastPeriod = false ∨ s.tracker.valid < 7 →
         ∃ t, exec .mainsCycle s = .next t ∧ t.trkState = 1 ∧ t.tracker.lastPeriod = p ∧
           t.tracker.valid = (if s.trkState = 1 ∧ periodsClose p s.tracker.lastPeriod = true then s.tracker.valid + 1 else 1) ∧
           t.tracker.period = s.tracker.period ∧ OnlyRegs [K.trks.TRACKER_STATE] s t ∧ OnlyChanges [.dict, .tracker] s t) ∧
       (s.trkState = 1 → periodsClose p s.tracker.lastPeriod = true → 7 ≤ s.tracker.valid →
         ∃ t, exec .mainsCycle s = .next t ∧ t.trkState = 2 ∧ t.tracker.period = p ∧ t.tides = s.tides ∧
           (t.tracker.step = none ∧ |t.tracker.slew| ≤ tenthDeg 75 ∨
             t.tracker.slew = 0 ∧ ∃ e k, t.tracker.step = some (e, k) ∧ tenthDeg 75 < |e|) ∧
           OnlyRegs [K.trks.TRACKER_STATE, K.trks.FREQUENCY] s t ∧ OnlyChanges [.dict, .tracker] s t)) ∧
     (∀ (p c : Nat) (e : Int), s.cycleMeasured = some (p, c) → s.cycleValid p = true → s.trkState = 2 →
       e = (s.reanchor c).phaseError c →
       (s.tracker.step.isSome = true →
         ∃ t, exec .mainsCycle s = .next t ∧ t.trkState = 2 ∧ t.tracker.period = p ∧ t.tracker.step = s.tracker.step ∧
           OnlyRegs [K.trks.FREQUENCY] s t ∧ OnlyChanges [.dict, .tracker] s t) ∧
       (s.tracker.step = none → s.tracker.slew ≠ 0 →
         ∃ t, exec .mainsCycle s = .next t ∧ t.trkState = 2 ∧ t.tracker.period = p ∧
           t.tracker.slew = s.tracker.slew - clampInt (-(tenthDeg 5)) (tenthDeg 5) s.tracker.slew ∧
           OnlyRegs [K.trks.FREQUENCY] s t ∧ OnlyChanges [.dict, .tracker] s t) ∧
       (s.tracker.step = none → s.tracker.slew = 0 → |e| ≤ tenthDeg 50 →
         ∃ t, exec .mainsCycle s = .next t ∧ t.trkState = 2 ∧ t.tracker.period = p ∧ t.tracker.zero = c ∧ t.tracker.residual = 0 ∧
           OnlyRegs [K.trks.FREQUENCY] s t ∧ OnlyChanges [.dict, .tracker] s t) ∧
       (s.tracker.step = none → s.tracker.slew = 0 → tenthDeg 50 < |e| → s.tracker.residual < 3 →
         ∃ t, exec .mainsCycle s = .next t ∧ t.trkState = 2 ∧ t.tracker.period = p ∧
           t.tracker.residual = s.tracker.residual + 1 ∧ OnlyRegs [K.trks.FREQUENCY] s t ∧ OnlyChanges [.dict, .tracker] s t) ∧
       (s.tracker.step = none → s.tracker.slew = 0 → tenthDeg 50 < |e| → 3 ≤ s.tracker.residual →
         ∃ t, exec .mainsCycle s = .next t ∧ t.trkState = 0 ∧ Counted K.trks.LOCK_LOSS_COUNT s t ∧ OnlyChanges [.dict, .tracker] s t)) ∧
     (∀ (e : Int) (k : Nat), s.pending = [] → s.tracker.step = some (e, k) →
       (s.phaseTick k 0 ≤ s.now + 1 →
         ∃ t, step s = .next t ∧ Counted K.trks.PHASE_STEP_COUNT s t ∧ t.tides = [] ∧ t.tracker.step = none) ∧
       (s.now + 1 < s.phaseTick k 0 → ∃ t, step s = .next t ∧ t.tides = s.tides ∧ t.tracker = s.tracker)) ∧
     (∀ (via : Path) (unit : Nat), unit ≤ 7 → s.MayAccess via 2 →
       ∃ t, exec (.refUnit via unit) s = .next t ∧ Accepted s t ∧ t.rd K.trk.REF_UNIT = unit ∧ t.trkState = 0 ∧
         (s.trkState ≠ 0 → t.flag K.trks.HOLDOVER_SEEN = true ∧ Counted K.trks.LOCK_LOSS_COUNT s t) ∧
         t.tracker.period = s.tracker.period ∧ t.tracker.phasor = none ∧ t.tracker.prior = none ∧
         OnlyRegs [K.trk.REF_UNIT, K.trks.TRACKER_STATE, K.trks.HOLDOVER_SEEN, K.trks.LOCK_LOSS_COUNT] s t ∧
         OnlyChanges [.dict, .tracker, .mgmt] s t) ∧
     (∀ (via : Path) (unit : Nat), 8 ≤ unit → unit < 256 → s.MayAccess via 2 →
       exec (.refUnit via unit) s = .next (s.answer 0x06090030 []))) ∧
  (∀ (n first : Nat) (p s : State), s.running = true → s.tracker.step = none → p = s.passTo (first + 8192) →
     (s.windowPlace n first = false ∨ p.observes n first = false ∨ first < (s.chan n).gainFrom + 128 →
       ∀ seen, exec (.observationWindow n first seen) s = .next (p.modPending fun _ => s.pending)) ∧
     (s.windowPlace n first = true → p.observes n first = true → (s.chan n).gainFrom + 128 ≤ first →
       (∀ w ∈ (s.tideTable n).windows, w.1 ≠ first) →
       (∀ seen, (∃ x ∈ bandCarriers.zip seen, s.masked n x.1 = false) →
         ∃ t, exec (.observationWindow n first (some seen)) s = .next t ∧ t.now = max s.now (first + 8192) ∧
           t.tideTable n = { s.tideTable n with windows := (s.tideTable n).windows ++ [(first, (p.windowPower n seen).1)] } ∧
           (∀ m, m ≠ n → t.tideTable m = s.tideTable m) ∧ OnlyChanges [.now, .free, .dict, .perf, .tides] s t) ∧
       (∃ t, exec (.observationWindow n first none) s = .next t ∧ Counted (K.tide.WINDOWS_DROPPED n) s t ∧
         OnlyRegs [K.tide.WINDOWS_DROPPED n, K.times.UNSYNC_SECONDS] s t ∧ OnlyChanges [.now, .free, .dict, .perf] s t))) ∧
  (∀ (n i due lo : Nat) (powers : List Nat) (blocks : List IdleBlock) (s : State), s.tracker.step = none → due = s.slotEnd n i →
     lo = s.slotTick (s.tideOffset n) (s.slotCount (s.tideOffset n) due - 1) →
     powers = (((s.tideTable n).windows.filter fun w => lo ≤ w.1 && w.1 < due).map (·.2)) →
     blocks = (((s.tideTable n).blocks.filter fun b => lo ≤ b.first && b.first < due).reverse) →
     (s.coreUp 7 = false ∨ 23 < i ∨ s.enabled n = false → exec (.tideSlotEnd n i) s = .next s) ∧
     (s.coreUp 7 = true → i < 24 → s.enabled n = true → 4 ≤ powers.length →
       ∃ t power rate, exec (.tideSlotEnd n i) s = .next t ∧ t.now = max s.now due ∧
         power = powers.sum / powers.length ∧ rate = impulseRate (s.impulseLevel n) blocks ∧
         (t.tide n i).missed = 0 ∧ (t.tide n i).stale = false ∧
         ((s.tide n i).obs = 0 → (t.tide n i).power = power ∧ (t.tide n i).rate = rate ∧ (t.tide n i).obs = 1 ∧
           (t.tide n i).cls = 3) ∧
         ((s.tide n i).obs ≠ 0 → (t.tide n i).obs = min ((s.tide n i).obs + 1) 15 ∧
           (t.tide n i).power = (((s.tide n i).power : Int) + ((power : Int) - (s.tide n i).power) / 8).toNat ∧
           (t.tide n i).rate = (((s.tide n i).rate : Int) + ((rate : Int) - (s.tide n i).rate) / 8).toNat) ∧
         ((t.tide n i).cls ≠ (s.tide n i).cls → Counted (K.tide.CLASS_CHANGES n) s t) ∧
         (∀ m j, m ≠ n ∨ j ≠ i → t.tide m j = s.tide m j) ∧ OnlyRegs [K.tide.CLASS_CHANGES n, K.times.UNSYNC_SECONDS] s t ∧
         OnlyChanges [.now, .free, .dict, .perf, .tides] s t) ∧
     (s.coreUp 7 = true → i < 24 → s.enabled n = true → powers.length < 4 →
       ∃ t, exec (.tideSlotEnd n i) s = .next t ∧ t.now = max s.now due ∧
         t.tide n i = { s.tide n i with
           missed := (s.tide n i).missed + 1
           stale := (s.tide n i).stale || decide (s.staleCycles n ≤ (s.tide n i).missed + 1) } ∧
         (∀ g, (s.tide n i).stale = false → s.staleCycles n ≤ (s.tide n i).missed + 1 → s.segOf n = some g →
           t.seg g = { s.seg g with gaps := (s.seg g).gaps ++ [(n, i)] }) ∧
         (∀ m j, m ≠ n ∨ j ≠ i → t.tide m j = s.tide m j) ∧ OnlyChanges [.now, .free, .dict, .perf, .tides, .mac] s t))

/-- TIME_SET, PPS_IN, the loss of a source, coasting and PPS_OUT act on domain time as stated. Rests on R416
(13_backhaul_port.md), R417 (13_backhaul_port.md), R418 (13_backhaul_port.md), R419 (13_backhaul_port.md), R422
(13_backhaul_port.md), R423 (13_backhaul_port.md), R424 (13_backhaul_port.md). -/
def Obligations.DomainTimeFollowsItsSelectedSource : Prop :=
  (∀ (via : Path) (value : Nat) (s : State), value < 2 ^ 64 → s.MayAccess via 2 →
     (s.rd K.time.TIME_SOURCE = 3 →
       ∃ t, exec (.timeSet via value) s = .next t ∧ Accepted s t ∧ t.dt = dtOfPair value ∧ t.dtState = 2 ∧
         t.time.coastStart = some s.now ∧ t.time.coastOver = false ∧ Counted K.times.TIME_STEPS s t ∧
         OnlyRegs [K.times.TIME_STEPS, K.times.LAST_STEP, K.times.DT_STATE] s t ∧ OnlyChanges [.dict, .time, .mgmt] s t) ∧
     (s.rd K.time.TIME_SOURCE = 2 →
       ∃ t, exec (.timeSet via value) s = .next t ∧ Accepted s t ∧ t.time = { s.time with nextPps := some (value / 2 ^ 32) } ∧
         OnlyChanges [.time, .mgmt] s t) ∧
     (s.rd K.time.TIME_SOURCE ≠ 2 → s.rd K.time.TIME_SOURCE ≠ 3 → exec (.timeSet via value) s = .next (s.answer 0 []))) ∧
  (∀ s : State, s.running = true →
     (∀ last : Nat, s.rd K.time.TIME_SOURCE = 3 → s.time.ppsLast = some last →
       (409600000 ≤ s.now - last + 409600 → s.now - last ≤ 409600000 + 409600 →
         ∃ t, exec .ppsInEdge s = .next t ∧ t.time = { s.time with ppsRun := min 4 (s.time.ppsRun + 1), ppsLast := some s.now } ∧
           t.flag K.times.PPS_VALID = (s.flag K.times.PPS_VALID || decide (3 ≤ s.time.ppsRun)) ∧
           OnlyRegs [K.times.PPS_VALID] s t ∧ OnlyChanges [.dict, .time] s t) ∧
       (s.now - last + 409600 < 409600000 ∨ 409600000 + 409600 < s.now - last → s.flag K.times.PPS_VALID = true →
         ∃ t, exec .ppsInEdge s = .next t ∧ t.time = { s.time with ppsRun := 1, ppsLast := some s.now } ∧
           t.flag K.times.PPS_VALID = false ∧ Counted K.times.PPS_MISSED s t ∧
           OnlyRegs [K.times.PPS_VALID, K.times.PPS_MISSED] s t ∧ OnlyChanges [.dict, .time] s t)) ∧
     (∀ sec : Nat, s.rd K.time.TIME_SOURCE = 2 → s.time.nextPps = some sec → s.time.ppsLast = none →
       ∃ t, exec .ppsInEdge s = .next t ∧ t.dt = sec * dtSecond + (tenthNsToUnits (s.rd K.time.PPS_IN_DELAY)).toNat ∧ t.dtState = 1 ∧
         t.time.nextPps = none ∧ Counted K.times.TIME_STEPS s t ∧ t.time.coastStart = none ∧
         OnlyRegs [K.times.TIME_STEPS, K.times.LAST_STEP, K.times.DT_STATE] s t ∧ OnlyChanges [.dict, .time] s t) ∧
     (∀ off : Int, s.rd K.time.TIME_SOURCE = 2 → s.time.nextPps = none → s.dtState = 1 → s.flag K.times.PPS_VALID = true →
       s.time.ppsLast = some (s.now - 409600000) → 409600000 ≤ s.now →
       off = (s.dt : Int) - tenthNsToUnits (s.rd K.time.PPS_IN_DELAY) -
         ((nearestSecond ((s.dt : Int) - tenthNsToUnits (s.rd K.time.PPS_IN_DELAY)).toNat * dtSecond : Nat) : Int) →
       |off| ≤ tenthNsToUnits (10000 * s.rd K.time.STEP_LIMIT) →
       ∃ t, exec .ppsInEdge s = .next t ∧ t.dt = s.dt ∧ t.dtState = 1 ∧ -219902325 ≤ t.time.c ∧ t.time.c ≤ 219902325 ∧
         t.rdInt K.times.OFFSET = clampInt (-(2 ^ 31)) (2 ^ 31 - 1) (unitsToNs off) ∧ t.time.bigRun = 0 ∧
         OnlyChanges [.free, .dict, .time] s t) ∧
     (s.time.ppsLast = none → exec .ppsInTimeout s = .next s) ∧
     (∀ last : Nat, s.time.ppsLast = some last → s.flag K.times.PPS_VALID = false →
       ∃ t, exec .ppsInTimeout s = .next t ∧ t.now = max s.now (last + 819200000) ∧
         t.time = { s.time with ppsRun := 0, ppsLast := none } ∧ OnlyChanges [.now, .free, .dict, .perf, .tracker, .tides, .time] s t) ∧
     (∀ last : Nat, s.time.ppsLast = some last → s.flag K.times.PPS_VALID = true → s.rd K.time.TIME_SOURCE = 2 → s.dtState = 1 →
       ∃ t, exec .ppsInTimeout s = .next t ∧ t.flag K.times.PPS_VALID = false ∧ Counted K.times.PPS_MISSED s t ∧ t.dtState = 2 ∧
         t.time.coastStart = some t.now ∧ t.time.ppsLast = none ∧ OnlyChanges [.now, .free, .dict, .perf, .tracker, .tides, .time] s t)) ∧
  (∀ s : State, s.running = true →
     (s.time.lastSync = none → exec (.sourceLoss .sync) s = .next s) ∧
     (s.time.lastAnnounce = none → exec (.sourceLoss .announce) s = .next s) ∧
     (∀ last : Nat, s.time.lastSync = some last → s.rd K.time.TIME_SOURCE = 0 → s.dtState = 1 →
       ∃ t, exec (.sourceLoss .sync) s = .next t ∧ t.now = max s.now (last + threeIntervals s.time.intervals.1) ∧ t.dtState = 2 ∧
         t.time.ptpLost = true ∧ t.time.lastSync = none ∧ t.time.coastStart = some t.now ∧ t.time.coastOver = false ∧
         OnlyChanges [.now, .free, .dict, .perf, .tracker, .tides, .time] s t) ∧
     (∀ last : Nat, s.time.lastAnnounce = some last → s.rd K.time.TIME_SOURCE ≠ 0 → s.rd K.time.TIME_SOURCE ≠ 1 →
       s.rd K.time.TIME_SOURCE ≠ 2 →
       ∃ t, exec (.sourceLoss .announce) s = .next t ∧ t.now = max s.now (last + threeIntervals s.time.intervals.2) ∧
         t.time = { s.time with ptpLost := true, lastAnnounce := none } ∧ OnlyChanges [.now, .free, .dict, .perf, .tracker, .tides, .time] s t) ∧
     (s.sourceGone = false ∨ s.dtState ≠ 1 → exec (.sourceLoss .ppsIn) s = .next s) ∧
     (s.sourceGone = true → s.dtState = 1 →
       ∃ t, exec (.sourceLoss .ppsIn) s = .next t ∧ t.dtState = 2 ∧ t.dt = s.dt ∧ t.time.coastStart = some s.now ∧
         t.time.history = [] ∧ OnlyRegs [K.times.DT_STATE, K.times.RATE_CORR] s t ∧ OnlyChanges [.dict, .time] s t) ∧
     (s.time.coastStart = none → exec .coastLimitExpiry s = .next s) ∧
     (∀ start : Nat, s.time.coastStart = some start →
       ∃ t, exec .coastLimitExpiry s = .next t ∧ t.now = max s.now (start + 409600000 * s.rd K.time.COAST_LIMIT) ∧
         t.time = { s.time with coastOver := true } ∧ (s.dtState = 2 → t.synchronised = false) ∧
         OnlyChanges [.now, .free, .dict, .perf, .tracker, .tides, .time] s t)) ∧
  (∀ (s : State) (sec : Nat), s.running = true →
     sec = s.nextSecond (match s.time.ppsOutSec with
       | some k => if k = s.dt / dtSecond then some k else none
       | none => none) →
     (s.pins.ppsOut = false → s.rd K.time.PPS_OUT_MODE = 2 ∨ s.rd K.time.PPS_OUT_MODE = 1 ∧ s.synchronised = true →
       ∃ t, exec .ppsOutRise s = .next t ∧ t.now = max s.now (s.tickOf (sec * dtSecond)) ∧ t.pins = { s.pins with ppsOut := true } ∧
         t.time = { s.time with ppsOutSec := some sec, ppsOutFall := some (t.now + 40960000) } ∧
         OnlyChanges [.now, .free, .dict, .perf, .tracker, .tides, .time, .pins] s t) ∧
     (s.pins.ppsOut = true ∨ s.rd K.time.PPS_OUT_MODE = 0 ∨ s.rd K.time.PPS_OUT_MODE = 1 ∧ s.synchronised = false →
       ∃ t, exec .ppsOutRise s = .next t ∧ t.now = max s.now (s.tickOf (sec * dtSecond)) ∧
         t.time = { s.time with ppsOutSec := some sec } ∧ OnlyChanges [.now, .free, .dict, .perf, .tracker, .tides, .time] s t) ∧
     (s.time.ppsOutFall = none → exec .ppsOutFall s = .next s) ∧
     (∀ fall : Nat, s.time.ppsOutFall = some fall →
       ∃ t, exec .ppsOutFall s = .next t ∧ t.now = max s.now fall ∧ t.pins = { s.pins with ppsOut := false } ∧
         t.time = { s.time with ppsOutFall := none } ∧ OnlyChanges [.now, .free, .dict, .perf, .tracker, .tides, .time, .pins] s t))

/-- Event counters, dumps, the sample ring, the loop test, BW_PEAK and sticky flags act on their own objects. Rests on R464
(15_timing_and_contention.md), R466 (15_timing_and_contention.md), R467 (15_timing_and_contention.md), R469
(15_timing_and_contention.md), R474 (15_timing_and_contention.md), R55 (02_line_ports.md), R514 (17_pins_and_package.md). -/
def Obligations.CountersDumpsSamplesAndStatusReadsAct : Prop :=
  (∀ s : State, s.running = true →
     (∀ (via : Path) (b k value : Nat), b < 12 → k < 8 → value < 2 ^ 16 → s.MayAccess via 2 →
       (lastCode b < value % 256 → exec (.selWrite via b k value) s = .next (s.answer 0x06090030 [])) ∧
       (value % 256 ≤ lastCode b →
         ∃ t, exec (.selWrite via b k value) s = .next t ∧ Accepted s t ∧ t.rd (K.bank.SEL b k) = value % 2 ^ 13 ∧
           Tbl.atD (t.bank b).ctrs k 0 = 0 ∧ Tbl.atD (t.bank b).ovf k 0 = 0 ∧
           (∀ j, j ≠ k → Tbl.at? (t.bank b).ctrs j = Tbl.at? (s.bank b).ctrs j) ∧ (t.bank b).ticksBase = (s.bank b).ticksBase ∧
           (∀ c, c ≠ b → t.bank c = s.bank c) ∧ OnlyRegs [K.bank.SEL b k] s t ∧ OnlyChanges [.dict, .perf, .mgmt] s t)) ∧
     (∀ (via : Path) (b : Nat), b < 12 → s.MayAccess via 2 →
       exec (.bankClear via b 0) s = .next (s.answer 0 []) ∧
       ∃ t, exec (.bankClear via b 1) s = .next t ∧ Accepted s t ∧ t.bank b = ⟨s.now, [], []⟩ ∧ t.bankTicks b = 0 ∧
         (∀ c, c ≠ b → t.bank c = s.bank c) ∧ OnlyChanges [.perf, .mgmt] s t) ∧
     (s.flag K.perf.DUMP_ENABLE = false → exec .dumpLatch s = .next s) ∧
     (s.flag K.perf.DUMP_ENABLE = true → 0 < s.rd K.perf.DUMP_PERIOD →
       ∃ t, exec .dumpLatch s = .next t ∧ t.rd K.perf.DUMP_SEQ = (s.rd K.perf.DUMP_SEQ + 1) % 2 ^ 32 ∧
         (∀ due p : Nat, p = s.rd K.perf.DUMP_PERIOD * 4096 → due % p = 0 → s.now ≤ due → due < s.now + p →
           t.now = if s.perf.latchedAt = some due then due + p else due) ∧ t.perf.latchedAt = some t.now ∧
         (s.perf.writing = none → t.perf.writing = some (t.dumpRecord (t.rd K.perf.DUMP_SEQ)) ∧
           t.rd K.perf.DUMP_SKIPPED = s.rd K.perf.DUMP_SKIPPED) ∧
         (∀ r, s.perf.writing = some r → t.perf.writing = some r ∧ Counted K.perf.DUMP_SKIPPED s t) ∧ t.perf.ring = s.perf.ring ∧
         OnlyChanges [.now, .free, .dict, .perf, .tracker, .tides] s t) ∧
     (s.perf.writing = none → exec .dumpRecordWritten s = .next s) ∧
     (∀ r, s.perf.writing = some r →
       ∃ t, exec .dumpRecordWritten s = .next t ∧ t.perf.writing = none ∧ t.dumpLatest = r ∧
         (s.perf.ring.length ≤ 256 → t.perf.ring.length ≤ 256) ∧
         (s.queue 250 = HwQueue.empty → ∃ w, (t.queue 250).words = [(w, true)]) ∧ OnlyChanges [.free, .dict, .svc, .perf] s t)) ∧
  (∀ (via : Path) (s : State), s.coreUp 0 = true →
     (2 ≤ s.levelOf via ∨ s.flag K.perf.USER_READ = true →
       ∃ t, exec (.sampleRingRead via) s = .next t ∧
         t.mgmt = { s.mgmt with lastAbort := 0, lastData := s.perf.samples.flatten } ∧ t.perf = { s.perf with samples := [] } ∧
         t.flag K.samp.SAMPLE_OVERFLOW = false ∧ OnlyRegs [K.samp.SAMPLE_OVERFLOW] s t ∧ OnlyChanges [.dict, .perf, .mgmt] s t) ∧
     (∀ (sub value : Nat) (r : Reg), 2 ≤ s.levelOf via → (sub, r) ∈ [(2, K.samp.SAMPLE_SOURCE), (3, K.samp.SAMPLE_N)] →
       (sub = 2 → value ≤ 11) → (sub = 3 → 1 ≤ value ∧ value < 65536) →
       (s.rd r = value → exec (.sampleConfigWrite via sub value) s = .next (s.answer 0 [])) ∧
       (s.rd r ≠ value →
         ∃ t, exec (.sampleConfigWrite via sub value) s = .next t ∧ Accepted s t ∧ t.rd r = value ∧
           t.perf = { s.perf with samples := [], descriptors := 0 } ∧ OnlyRegs [r] s t ∧ OnlyChanges [.dict, .perf, .mgmt] s t)) ∧
     (∀ n : Nat, n < 256 → 2 ≤ s.levelOf via →
       (s.enabled n = false ∨ (s.segOf n).isSome = true → exec (.loopTest via n) s = .next (s.answer 0x08000022 [])) ∧
       (s.enabled n = true → s.segOf n = none →
         ∃ t, exec (.loopTest via n) s = .next t ∧ Accepted s t ∧ t.loop = ⟨some (n, (s.chan n).gain), s.now⟩ ∧
           OnlyChanges [.loop, .mgmt] s t)) ∧
     (∀ samples : List Int, s.loop.running = none → exec (.loopTestDone samples) s = .next s) ∧
     (∀ (samples : List Int) (n : Nat) (gain : Int), s.loop.running = some (n, gain) → n < 256 →
       ∃ t, exec (.loopTestDone samples) s = .next t ∧ t.loop.running = none ∧
         t.rdInt K.loop.LOOP_RESULT = toneLevel samples ∧ t.rd K.loop.LOOP_CHANNEL = n ∧
         t.chan n = { s.chan n with gain := gain } ∧ (∀ m, m ≠ n → t.chan m = s.chan m) ∧
         OnlyRegs [K.loop.LOOP_RESULT, K.loop.LOOP_CHANNEL] s t ∧ OnlyChanges [.dict, .line, .loop] s t) ∧
     (∀ n fill : Nat, n < 256 →
       ∃ t, exec (.bwPeakRead via n fill) s = .next t ∧
         t.mgmt = { s.mgmt with lastAbort := 0, lastData := leBytes 2 (max (s.chan n).peak (min 8192 fill)) } ∧
         t.chan n = { s.chan n with fill := min 8192 fill, peak := min 8192 fill } ∧ (∀ m, m ≠ n → t.chan m = s.chan m) ∧
         OnlyChanges [.line, .mgmt] s t) ∧
     (∀ (n sub : Nat) (r : Reg), n < 256 → (sub, r) ∈ [(5, K.chs.RX_OVERFLOW n), (7, K.chs.TX_UNDERRUN n)] →
       ∃ t, exec (.stickyFlagRead via (0x3100 + n) sub) s = .next t ∧
         t.mgmt = { s.mgmt with lastAbort := 0, lastData := leBytes 1 (s.rd r) } ∧ t.rd r = 0 ∧ OnlyRegs [r] s t ∧
         OnlyChanges [.dict, .mgmt] s t))

/-- The JTAG TAP follows TCK, TMS and TRST_N in every state of the device. Rests on R513 (17_pins_and_package.md), R484
(16_supply_reset_boot.md). -/
def Obligations.TapWorksWhateverTheResetPinDoes : Prop :=
  ∀ s : State,
    (∀ (rising tms tdi : Bool) (cells : List Bool),
      (s.jtag.tck = rising → exec (.tckEdge rising tms tdi cells) s = .next s) ∧
      (s.jtag.tck ≠ rising → s.pins.trstN = false →
        exec (.tckEdge rising tms tdi cells) s = .next (s.modJtag fun j => { j with tck := rising }))) ∧
    (∀ (tms tdi : Bool) (cells : List Bool), s.jtag.tck = false → s.pins.trstN = true →
      ∃ t, exec (.tckEdge true tms tdi cells) s = .next t ∧ t.jtag.tap = s.jtag.tap.next tms ∧ t.jtag.tck = true ∧
        t.jtag.instr = s.jtag.instr ∧ t.jtag.boundary = s.jtag.boundary ∧ t.jtag.tdo = s.jtag.tdo ∧
        (s.jtag.tap = .shiftDr → t.jtag.dr = s.jtag.dr.drop 1 ++ [tdi]) ∧
        (s.jtag.tap = .shiftIr → t.jtag.ir = s.jtag.ir.drop 1 ++ [tdi]) ∧
        (s.jtag.tap = .captureDr → s.jtag.instr = .bypass → t.jtag.dr = [false]) ∧
        (s.jtag.tap = .captureDr → s.jtag.instr = .samplePreload ∨ s.jtag.instr = .extest → t.jtag.dr = cells) ∧
        (s.jtag.tap = .captureIr → t.jtag.ir.take 2 = [true, false]) ∧
        (s.jtag.tap ≠ .captureDr → s.jtag.tap ≠ .shiftDr → t.jtag.dr = s.jtag.dr) ∧ OnlyChanges [.free, .jtag] s t) ∧
    (∀ (tms tdi : Bool) (cells : List Bool), s.jtag.tck = true → s.pins.trstN = true →
      ∃ t, exec (.tckEdge false tms tdi cells) s = .next t ∧ t.jtag.tap = s.jtag.tap ∧ t.jtag.tck = false ∧
        t.jtag.dr = s.jtag.dr ∧ t.jtag.ir = s.jtag.ir ∧
        (s.jtag.tap = .shiftDr → t.jtag.tdo = s.jtag.dr.head?) ∧ (s.jtag.tap = .shiftIr → t.jtag.tdo = s.jtag.ir.head?) ∧
        (s.jtag.tap ≠ .shiftDr → s.jtag.tap ≠ .shiftIr → t.jtag.tdo = none) ∧
        (s.jtag.tap = .testLogicReset → t.jtag.instr = .idcode) ∧
        (s.jtag.tap = .updateIr → s.jtag.ir.all id = true → t.jtag.instr = .bypass) ∧
        (s.jtag.tap = .updateDr → s.jtag.instr = .samplePreload ∨ s.jtag.instr = .extest → t.jtag.boundary = s.jtag.dr) ∧
        OnlyChanges [.jtag] s t) ∧
    (∃ t, exec (.trstNAssert true) s = .next t ∧ t.pins = { s.pins with trstN := false } ∧ t.jtag.tap = .testLogicReset ∧
      t.jtag.instr = .idcode ∧ OnlyChanges [.pins, .jtag] s t) ∧
    exec (.trstNAssert false) s = .next (s.modPins fun p => { p with trstN := true })

/-- Backhaul links, sent frames and received frames change their port and its counters as stated. Rests on R404
(13_backhaul_port.md), R405 (13_backhaul_port.md), R406 (13_backhaul_port.md), R407 (13_backhaul_port.md), R426
(13_backhaul_port.md). -/
def Obligations.BackhaulLinksFramesAndReceptionAreCounted : Prop :=
  (∀ (p : Nat) (s : State), p < 4 → s.running = true →
     (s.portCount ≤ p ∨ s.linkUp p = true → exec (.linkUp p) s = .next s) ∧
     (p < s.portCount → s.linkUp p = false →
       ∃ t, exec (.linkUp p) s = .next t ∧ t.linkUp p = true ∧ t.port p = { s.port p with cfg := some (s.portConfig p) } ∧
         (∀ q, q ≠ p → t.port q = s.port q) ∧ OnlyRegs [K.ports.LINK_UP p] s t ∧ OnlyChanges [.dict, .bh] s t) ∧
     (s.linkUp p = false → exec (.linkDown p) s = .next s) ∧
     (s.linkUp p = true →
       ∃ t, exec (.linkDown p) s = .next t ∧ t.linkUp p = false ∧ Counted (K.ports.LINK_DOWNS p) s t ∧
         t.rd (K.ports.TX_LINK_DOWN p) = min (2 ^ 32 - 1)
           (s.rd (K.ports.TX_LINK_DOWN p) + ((s.port p).txq.length + (s.port p).sending.toList.length)) ∧
         t.port p = { s.port p with txq := [], sending := none, cfg := none } ∧ (∀ q, q ≠ p → t.port q = s.port q) ∧
         OnlyRegs [K.ports.LINK_UP p, K.ports.LINK_DOWNS p, K.ports.TX_LINK_DOWN p] s t ∧ OnlyChanges [.dict, .bh] s t) ∧
     ((s.port p).sending = none → exec (.ethFrameTxEnd p) s = .next s) ∧
     (∀ x, (s.port p).sending = some x → (s.port p).txq = [] →
       ∃ t, exec (.ethFrameTxEnd p) s = .next t ∧ Counted (K.ports.TX_FRAMES p) s t ∧
         t.port p = { s.port p with sending := none, lastSent := some x } ∧ OnlyRegs [K.ports.TX_FRAMES p] s t ∧
         OnlyChanges [.dict, .bh] s t) ∧
     (∀ x y ys, (s.port p).sending = some x → (s.port p).txq = y :: ys → (∀ k pri seq m b, y.msg ≠ .northbound k pri seq m b) →
       ∃ t, exec (.ethFrameTxEnd p) s = .next t ∧ Counted (K.ports.TX_FRAMES p) s t ∧
         t.port p = { s.port p with sending := some y, txq := ys, lastSent := some x } ∧ OnlyRegs [K.ports.TX_FRAMES p] s t ∧
         OnlyChanges [.dict, .bh] s t) ∧
     (∀ x y ys k pri seq m b, (s.port p).sending = some x → (s.port p).txq = y :: ys → y.msg = .northbound k pri seq m b → k < 16 →
       s.flag (K.sess.SESS_ENABLE k) = true →
       ∃ t, exec (.ethFrameTxEnd p) s = .next t ∧ Counted (K.ports.TX_FRAMES p) s t ∧ Counted (K.sesss.TX_MSGS k) s t ∧
         t.port p = { s.port p with sending := some y, txq := ys, lastSent := some x } ∧ OnlyChanges [.dict, .bh] s t)) ∧
  (∀ (p : Nat) (f : EthFrame) (s : State), p < 4 → s.running = true →
     ((s.port p).cfg = none → exec (.ethFrameRx p f) s = .next s) ∧
     (∀ c, (s.port p).cfg = some c →
       (∀ r, r = (if f.fcsOk = false then some (K.ports.RX_FCS_ERR p)
           else if c.maxFrame < f.len then some (K.ports.RX_OVERSIZE p)
           else if s.frameForUs p c f = false then some (K.ports.RX_FILTERED p)
           else if f.bufferFull = true then some (K.ports.RX_DROP p) else none) →
         (∀ k, r = some k → ∃ t, exec (.ethFrameRx p f) s = .next t ∧ Counted k s t ∧ OnlyRegs [k] s t ∧ OnlyChanges [.dict] s t) ∧
         (r = none → s.ipFiltered c f = true →
           ∃ t, exec (.ethFrameRx p f) s = .next t ∧ Counted (K.ports.RX_FRAMES p) s t ∧ Counted (K.ports.RX_FILTERED p) s t ∧
             OnlyRegs [K.ports.RX_FRAMES p, K.ports.RX_FILTERED p] s t ∧ OnlyChanges [.dict] s t) ∧
         (r = none → s.ipFiltered c f = false → s.queue (108 + p) = HwQueue.empty →
           ∃ t a b d, exec (.ethFrameRx p f) s = .next t ∧ Counted (K.ports.RX_FRAMES p) s t ∧
             (t.queue (108 + p)).words = [(a, false), (b, false), (d, true)] ∧ OnlyRegs [K.ports.RX_FRAMES p] s t ∧
             OnlyChanges [.free, .dict, .svc] s t))))

/-- A port answers resolution and echo for itself, judges northbound datagrams, and session writes act. Rests on R407
(13_backhaul_port.md), R408 (13_backhaul_port.md), R409 (13_backhaul_port.md), R411 (13_backhaul_port.md), R425
(13_backhaul_port.md). -/
def Obligations.PortsAnswerJudgeDatagramsAndTakeSessionWrites : Prop :=
  ((∀ (p : Nat) (s : State) (kind : ResolveKind) (target : List Byte), p < 4 → s.running = true →
     ((s.port p).cfg = none → exec (.addressResolution p kind target) s = .next s) ∧
     (∀ c, (s.port p).cfg = some c → kind = .arp ∧ c.ipVersion = 4 ∧ target = c.addr.take 4 ∨
       kind = .neighbourSolicitation ∧ c.ipVersion = 6 ∧ (target = c.addr ∨ target = linkLocal c.mac) →
       ∃ t, exec (.addressResolution p kind target) s = .next t ∧ Queued p ⟨8, .resolution kind⟩ s t ∧ OnlyChanges [.dict, .bh] s t) ∧
     (∀ c, (s.port p).cfg = some c → kind = .arp ∧ (c.ipVersion ≠ 4 ∨ target ≠ c.addr.take 4) →
       exec (.addressResolution p kind target) s = .next s)) ∧
   (∀ (p : Nat) (s : State), p < 4 → s.running = true →
     ((s.port p).cfg = none ∨ 100 ≤ (s.echoWindow p).2 → exec (.icmpEcho p) s = .next s) ∧
     ((s.port p).cfg.isSome = true → (s.echoWindow p).2 < 100 →
       ∃ t, exec (.icmpEcho p) s = .next t ∧
         Queued p ⟨8, .echoReply⟩ (s.modPort p fun q => { q with echo := ((s.echoWindow p).1, (s.echoWindow p).2 + 1) }) t ∧
         OnlyChanges [.dict, .bh] s t)) ∧
   (∀ (d : NbDatagram) (s : State) (k h slot : Nat), d.port < 4 → s.running = true → (s.port d.port).cfg.isSome = true →
     h = ofBe (d.payload.take 16) → slot = s.rd (K.sess.KEY_SLOT k) →
     (field h 120 8 ≠ 1 ∨ bitOf h 119 = true ∨ d.payload.length < 44 ∨ s.sessionOf d.port (field h 96 16) = none →
       ∃ t, exec (.nbDatagram d) s = .next t ∧ Counted (K.ports.RX_FILTERED d.port) s t ∧ OnlyRegs [K.ports.RX_FILTERED d.port] s t ∧
         OnlyChanges [.dict] s t) ∧
     (field h 120 8 = 1 → bitOf h 119 = false → 44 ≤ d.payload.length → s.sessionOf d.port (field h 96 16) = some k →
       (s.peerMatches d.port k d.srcAddr d.srcUdp = false →
         ∃ t, exec (.nbDatagram d) s = .next t ∧ Counted (K.sesss.PEER_MISMATCH k) s t ∧ OnlyRegs [K.sesss.PEER_MISMATCH k] s t ∧
           OnlyChanges [.dict] s t) ∧
       (s.peerMatches d.port k d.srcAddr d.srcUdp = true → s.slotUsable slot = false ∨ (nbOpened d (s.slot slot).key).2 = false →
         ∃ t, exec (.nbDatagram d) s = .next t ∧ Counted (K.sesss.AUTH_FAIL k) s t ∧ OnlyRegs [K.sesss.AUTH_FAIL k] s t ∧
           OnlyChanges [.dict] s t) ∧
       (s.peerMatches d.port k d.srcAddr d.srcUdp = true → s.slotUsable slot = true → (nbOpened d (s.slot slot).key).2 = true →
         slot < 1024 →
         ∃ t, exec (.nbDatagram d) s = .next t ∧ Counted (K.key.USE_COUNT slot) s t ∧
           ((Tbl.atD s.bh.windows k SeqWindow.empty).accepts (field h 0 64) = true →
             Counted (K.sesss.RX_MSGS k) s t ∧ t.bh.inbox = s.bh.inbox ++ [(k, (nbOpened d (s.slot slot).key).1)] ∧
             Tbl.at? t.bh.windows k = some ((Tbl.atD s.bh.windows k SeqWindow.empty).advance (field h 0 64))) ∧
           ((Tbl.atD s.bh.windows k SeqWindow.empty).accepts (field h 0 64) = false →
             Counted (K.sesss.REPLAY k) s t ∧ t.bh = s.bh) ∧ OnlyChanges [.dict, .bh] s t)))) ∧
  (∀ (via : Path) (k : Nat) (s : State), k < 16 → s.MayAccess via 3 →
     (∀ sub value : Nat, (sub, value) ∈ [(3, s.rd K.dom.DOMAIN_KEY_SLOT), (3, s.rd K.adm.ADMIT_KEK_SLOT)] → 993 ≤ value → value < 1024 →
       exec (.sessionWrite via k sub (leBytes 2 value)) s = .next (s.answer 0x08000020 [])) ∧
     (∀ j, j < 16 → j ≠ k → s.flag (K.sess.SESS_ENABLE j) = true → s.rd (K.sess.SESSION_ID j) = s.rd (K.sess.SESSION_ID k) →
       exec (.sessionWrite via k 1 [1]) s = .next (s.answer 0x06090030 [])) ∧
     (∀ value : Nat, value < 65536 → s.flag (K.sess.SESS_ENABLE k) = false →
       ∃ t, exec (.sessionWrite via k 4 (leBytes 2 value)) s = .next t ∧ Accepted s t ∧ t.rd (K.sess.SESSION_ID k) = value ∧
         t.bh = { s.bh with windows := Tbl.del s.bh.windows k } ∧ OnlyRegs [K.sess.SESSION_ID k] s t ∧
         OnlyChanges [.dict, .bh, .mgmt] s t) ∧
     (∀ addr : List Byte, addr.length = 16 →
       ∃ t, exec (.sessionWrite via k 5 addr) s = .next t ∧ Accepted s t ∧ t.rdB (K.sess.PEER_ADDR k) = addr ∧
         t.bh = { s.bh with windows := Tbl.del s.bh.windows k } ∧ OnlyChanges [.blobs, .bh, .mgmt] s t) ∧
     (∀ (sub value : Nat) (r : Reg), (sub, r) ∈ [(2, K.sess.SESS_PORT k), (7, K.sess.REPORTS k)] → (sub = 2 → value < 4) →
       (sub = 7 → value < 2) →
       ∃ t, exec (.sessionWrite via k sub (leBytes 1 value)) s = .next t ∧ Accepted s t ∧ t.rd r = value ∧
         t.bh = { s.bh with windows := Tbl.del s.bh.windows k } ∧ OnlyRegs [r] s t ∧ OnlyChanges [.dict, .bh, .mgmt] s t))

/-- PTP messages of the own domain follow the selected master and are sent by role. Rests on R421 (13_backhaul_port.md), R422
(13_backhaul_port.md), R416 (13_backhaul_port.md). -/
def Obligations.PtpFollowsTheSelectedMasterAndSendsByRole : Prop :=
  ∀ (s : State), s.running = true → s.rd K.time.PTP_PORT_SEL < 4 →
    (∀ m : PtpMsg, m.domainNumber ≠ s.rd K.time.PTP_DOMAIN_NUMBER ∨ m.kind = .management → exec (.ptpMessage m) s = .next s) ∧
    (∀ m : PtpMsg, m.domainNumber = s.rd K.time.PTP_DOMAIN_NUMBER → m.kind = .announce →
      (m.best = true → m.masterId < 2 ^ 64 →
        ∃ t, exec (.ptpMessage m) s = .next t ∧ t.rd K.times.MASTER_ID = m.masterId ∧ t.time = { s.time with
          master := false, lastAnnounce := some s.now, intervals := (s.time.intervals.1, m.logInterval), ptpLost := s.time.lastSync.isNone } ∧
          OnlyRegs [K.times.MASTER_ID] s t ∧ OnlyChanges [.dict, .time] s t) ∧
      (m.best = false → s.flag K.time.PTP_SLAVE_ONLY = true → exec (.ptpMessage m) s = .next s) ∧
      (m.best = false → s.flag K.time.PTP_SLAVE_ONLY = false →
        exec (.ptpMessage m) s = .next (s.modTime fun t => { t with master := true }))) ∧
    (∀ (m : PtpMsg) (t2 : Int) (u : TimeState), m.domainNumber = s.rd K.time.PTP_DOMAIN_NUMBER → m.kind = .sync → m.best = true →
      s.time.master = false → t2 = rxStamp m.rx16 (s.rd K.time.EXT_DELAY_RX) →
      u = { s.time with
        lastSync := some s.now, intervals := (m.logInterval, s.time.intervals.2), ptpLost := s.time.lastAnnounce.isNone } →
      (m.twoStep = true →
        exec (.ptpMessage m) s =
          .next (s.modTime fun _ => { u with ptp := { u.ptp with sync := some (m.seq, t2, m.correction) } })) ∧
      (m.twoStep = false → s.time.ptp.delay = none ∨ s.rd K.time.TIME_SOURCE = 3 →
        exec (.ptpMessage m) s =
          .next (s.modTime fun _ => { u with ptp := { u.ptp with down := some (t2, m.time + m.correction) } })) ∧
      (∀ d off : Int, m.twoStep = false → s.time.ptp.delay = some d →
        off = s.dtOf16 t2 - ptpUnits (m.time + m.correction) - tenthNsToUnits (s.rdInt K.time.ASYMMETRY) - d →
        s.rd K.time.TIME_SOURCE = 0 → s.dtState = 0 → off ≤ s.dt →
        ∃ t, exec (.ptpMessage m) s = .next t ∧ t.dtState = 1 ∧ (t.dt : Int) = s.dt - off ∧ Counted K.times.TIME_STEPS s t ∧
          t.time.lastSync = some s.now ∧ OnlyRegs [K.times.OFFSET, K.times.TIME_STEPS, K.times.LAST_STEP, K.times.DT_STATE] s t ∧
          OnlyChanges [.dict, .time] s t)) ∧
    (∀ (m : PtpMsg) (q : Nat) (t2 corr : Int), m.domainNumber = s.rd K.time.PTP_DOMAIN_NUMBER → m.kind = .followUp → m.best = true →
      s.time.master = false → s.time.ptp.sync = some (q, t2, corr) →
      (q ≠ m.seq → exec (.ptpMessage m) s = .next s) ∧
      (q = m.seq → s.time.ptp.delay = none →
        exec (.ptpMessage m) s = .next (s.modTime fun t =>
          { t with ptp := { t.ptp with sync := none, down := some (t2, m.time + corr + m.correction) } }))) ∧
    (∀ m : PtpMsg, m.domainNumber = s.rd K.time.PTP_DOMAIN_NUMBER → m.kind = .delayReq →
      (s.time.master = false ∨ s.rd K.time.PTP_DELAY_MECH = 1 → exec (.ptpMessage m) s = .next s) ∧
      (s.time.master = true → s.rd K.time.PTP_DELAY_MECH ≠ 1 → ∃ t, exec (.ptpMessage m) s = .next t ∧
        Queued (s.rd K.time.PTP_PORT_SEL) ⟨8, .ptp .delayResp⟩ s t ∧ OnlyChanges [.dict, .bh] s t)) ∧
    (∀ (m : PtpMsg) (q : Nat) (t1 t2 t3 : Int), m.domainNumber = s.rd K.time.PTP_DOMAIN_NUMBER → m.kind = .delayResp → m.best = true →
      s.time.master = false → s.rd K.time.PTP_DELAY_MECH ≠ 1 → s.time.ptp.req = some (q, t3) → s.time.ptp.down = some (t2, t1) →
      (q ≠ m.seq ∨ m.requester ≠ s.flash.eui64 → exec (.ptpMessage m) s = .next s) ∧
      (q = m.seq → m.requester = s.flash.eui64 →
        exec (.ptpMessage m) s = .next (s.modTime fun t => { t with ptp := { t.ptp with
          req := none
          delay := some ((s.dtOf16 t2 - ptpUnits t1 + ptpUnits (m.time - m.correction) - s.dtOf16 t3) / 2) } }))) ∧
    (∀ m : PtpMsg, m.domainNumber = s.rd K.time.PTP_DOMAIN_NUMBER → m.kind = .pdelayReq →
      (s.rd K.time.PTP_DELAY_MECH ≠ 1 → exec (.ptpMessage m) s = .next s) ∧
      (s.rd K.time.PTP_DELAY_MECH = 1 → s.flag K.time.PTP_TWO_STEP = false → ∃ t, exec (.ptpMessage m) s = .next t ∧
        Queued (s.rd K.time.PTP_PORT_SEL) ⟨1, .ptp .pdelayResp⟩ s t ∧ OnlyChanges [.dict, .bh] s t)) ∧
    (∀ (m : PtpMsg) (q : Nat) (t1 : Int), m.domainNumber = s.rd K.time.PTP_DOMAIN_NUMBER → s.rd K.time.PTP_DELAY_MECH = 1 →
      s.time.ptp.req = some (q, t1) → q = m.seq → m.requester = s.flash.eui64 →
      (m.kind = .pdelayResp → m.twoStep = false →
        exec (.ptpMessage m) s = .next (s.modTime fun t => { t with ptp := { t.ptp with
          req := none, resp := none
          delay := some ((s.dtOf16 (rxStamp m.rx16 (s.rd K.time.EXT_DELAY_RX)) - s.dtOf16 t1 - ptpUnits m.correction) / 2) } })) ∧
      (m.kind = .pdelayResp → m.twoStep = true →
        exec (.ptpMessage m) s = .next (s.modTime fun t => { t with ptp := { t.ptp with
          resp := some (rxStamp m.rx16 (s.rd K.time.EXT_DELAY_RX), m.time - m.correction) } })) ∧
      (∀ t4 t2 : Int, m.kind = .pdelayFollowUp → s.time.ptp.resp = some (t4, t2) →
        exec (.ptpMessage m) s = .next (s.modTime fun t => { t with ptp := { t.ptp with
          req := none, resp := none
          delay := some ((s.dtOf16 t4 - s.dtOf16 t1 - ptpUnits (m.time + m.correction - t2)) / 2) } }))) ∧
    (∀ (tx16 : Nat) (u : TimeState), u = { s.time with ptp := { s.time.ptp with
        req := some (s.time.ptp.reqSeq, txStamp tx16 (s.rd K.time.EXT_DELAY_TX)), resp := none
        reqSeq := (s.time.ptp.reqSeq + 1) % 65536 } } →
      (s.time.master = false → s.rd K.time.PTP_DELAY_MECH ≠ 1 →
        exec (.ptpMessageSend .sync tx16) s = .next s ∧ exec (.ptpMessageSend .announce tx16) s = .next s ∧
        exec (.ptpMessageSend .pdelayReq tx16) s = .next s ∧
        ∃ t, exec (.ptpMessageSend .delayReq tx16) s = .next t ∧ Queued (s.rd K.time.PTP_PORT_SEL) ⟨1, .ptp .delayReq⟩ s t ∧
          t.time = u ∧ OnlyChanges [.dict, .bh, .time] s t) ∧
      (s.rd K.time.PTP_DELAY_MECH = 1 → exec (.ptpMessageSend .delayReq tx16) s = .next s ∧
        ∃ t, exec (.ptpMessageSend .pdelayReq tx16) s = .next t ∧ Queued (s.rd K.time.PTP_PORT_SEL) ⟨1, .ptp .pdelayReq⟩ s t ∧
          t.time = u ∧ OnlyChanges [.dict, .bh, .time] s t) ∧
      (s.time.master = true → s.flag K.time.PTP_TWO_STEP = false →
        ∃ t, exec (.ptpMessageSend .sync tx16) s = .next t ∧ Queued (s.rd K.time.PTP_PORT_SEL) ⟨1, .ptp .sync⟩ s t ∧
          OnlyChanges [.dict, .bh] s t) ∧
      (s.time.master = true →
        ∃ t, exec (.ptpMessageSend .announce tx16) s = .next t ∧ Queued (s.rd K.time.PTP_PORT_SEL) ⟨8, .ptp .announce⟩ s t ∧
          OnlyChanges [.dict, .bh] s t))

/-- SDO downloads, uploads, segments, aborts and timeouts follow the command bytes; bus-off silences them. Rests on R435
(14_object_dictionary.md), R436 (14_object_dictionary.md), R437 (14_object_dictionary.md), R438 (14_object_dictionary.md). -/
def Obligations.SdoTransfersFollowTheCommandBytesUntilBusOff : Prop :=
  (∀ (s : State) (id idx sub : Nat), s.canOn = true → id = 0x600 + s.sys.canId % 128 → idx < 65536 → sub < 256 →
     (∀ (f : List Byte) (env : WriteEnv) (k : Nat), k ≠ id → exec (.sdoDownloadExpedited k f env) s = .next s ∧
       exec (.sdoDownloadInitiate k f) s = .next s ∧ exec (.sdoDownloadSegment k f env) s = .next s ∧
       exec (.sdoUploadInitiate k f) s = .next s ∧ exec (.sdoUploadSegment k f) s = .next s ∧ exec (.sdoAbort k f) s = .next s) ∧
     (∀ (data : List Byte) (env : WriteEnv) (w : WriteResult), 1 ≤ data.length → data.length ≤ 59 →
       w = (s.modMgmt fun m => { m with canXfer := none }).writeObject .can env idx sub data →
       (w.abort = none → w.later = none →
         ∃ t, exec (.sdoDownloadExpedited id (sdoHead 0x23 idx sub ++ leBytes 1 data.length ++ data) env) s = .next t ∧
           CanSends (sdoHead 0x60 idx sub) t ∧ t.mgmt.lastAbort = 0 ∧ OnlyChanges [.mgmt] w.state t) ∧
       (∀ k, w.later = some k →
         ∃ t, exec (.sdoDownloadExpedited id (sdoHead 0x23 idx sub ++ leBytes 1 data.length ++ data) env) s = .next t ∧
           t.mgmt = { w.state.mgmt with owed := w.state.mgmt.owed ++ [(k, .can idx sub (sdoHead 0x60 idx sub))] } ∧
           OnlyChanges [.mgmt] w.state t) ∧
       (∀ a, w.abort = some a → w.later = none →
         ∃ t, exec (.sdoDownloadExpedited id (sdoHead 0x23 idx sub ++ leBytes 1 data.length ++ data) env) s = .next t ∧
           SdoAborts idx sub a w.state t)) ∧
     (∀ total : Nat, total < 2 ^ 32 →
       ∃ t, exec (.sdoDownloadInitiate id (sdoHead 0x21 idx sub ++ leBytes 4 total)) s = .next t ∧
         CanSends (sdoHead 0x60 idx sub) t ∧ t.mgmt.canXfer = some ⟨true, idx, sub, total, [], 0, false, s.now + 409600000⟩ ∧
         OnlyChanges [.mgmt] s t) ∧
     (∀ (x : Xfer) (data : List Byte) (env : WriteEnv) (toggle last : Bool), s.mgmt.canXfer = some x → x.write = true →
       1 ≤ data.length → data.length ≤ 62 →
       (toggle ≠ x.toggle →
         ∃ t, exec (.sdoDownloadSegment id (leBytes 1 (boolNat last + 16 * boolNat toggle) ++ leBytes 1 data.length ++ data) env) s = .next t ∧
           SdoAborts x.idx x.sub .toggle s t) ∧
       (toggle = x.toggle → x.total < x.data.length + data.length ∨ last = true ∧ x.data.length + data.length ≠ x.total →
         ∃ t, exec (.sdoDownloadSegment id (leBytes 1 (boolNat last + 16 * boolNat toggle) ++ leBytes 1 data.length ++ data) env) s = .next t ∧
           SdoAborts x.idx x.sub .length s t) ∧
       (toggle = x.toggle → last = false → x.data.length + data.length ≤ x.total →
         ∃ t, exec (.sdoDownloadSegment id (leBytes 1 (16 * boolNat toggle) ++ leBytes 1 data.length ++ data) env) s = .next t ∧
           CanSends (leBytes 1 (0x20 + 16 * boolNat toggle)) t ∧
           t.mgmt.canXfer = some { x with data := x.data ++ data, toggle := !x.toggle, due := s.now + 409600000 } ∧ OnlyChanges [.mgmt] s t) ∧
       (∀ w : WriteResult, toggle = x.toggle → last = true → x.data.length + data.length = x.total →
         w = (s.modMgmt fun m => { m with canXfer := none }).writeObject .can env x.idx x.sub (x.data ++ data) → w.abort = none → w.later = none →
         ∃ t, exec (.sdoDownloadSegment id (leBytes 1 (1 + 16 * boolNat toggle) ++ leBytes 1 data.length ++ data) env) s = .next t ∧
           CanSends (leBytes 1 (0x20 + 16 * boolNat toggle)) t ∧ t.mgmt.lastAbort = 0 ∧ OnlyChanges [.mgmt] w.state t)) ∧
     (∀ (b : List Byte) (w : State), (s.modMgmt fun m => { m with canXfer := none }).readObject .can idx sub = (.inr b, w) →
       (b.length ≤ 59 →
         ∃ t, exec (.sdoUploadInitiate id (sdoHead 0x40 idx sub)) s = .next t ∧
           CanSends (sdoHead 0x43 idx sub ++ leBytes 1 b.length ++ b) t ∧ OnlyChanges [.mgmt] w t) ∧
       (59 < b.length →
         ∃ t, exec (.sdoUploadInitiate id (sdoHead 0x40 idx sub)) s = .next t ∧
           CanSends (sdoHead 0x41 idx sub ++ leBytes 4 b.length) t ∧
           t.mgmt.canXfer = some ⟨false, idx, sub, b.length, b, 0, false, w.now + 409600000⟩ ∧ OnlyChanges [.mgmt] w t)) ∧
     (∀ (a : Abort) (w : State), (s.modMgmt fun m => { m with canXfer := none }).readObject .can idx sub = (.inl a, w) →
       ∃ t, exec (.sdoUploadInitiate id (sdoHead 0x40 idx sub)) s = .next t ∧ SdoAborts idx sub a w t) ∧
     (∀ (x : Xfer) (toggle : Bool), s.mgmt.canXfer = some x → x.write = false →
       (toggle ≠ x.toggle →
         ∃ t, exec (.sdoUploadSegment id (leBytes 1 (0x60 + 16 * boolNat toggle))) s = .next t ∧ SdoAborts x.idx x.sub .toggle s t) ∧
       (toggle = x.toggle → x.total = x.data.length →
         ∃ t, exec (.sdoUploadSegment id (leBytes 1 (0x60 + 16 * boolNat toggle))) s = .next t ∧
           CanSends (leBytes 1 (16 * boolNat toggle + boolNat (decide (x.total ≤ x.pos + 62))) ++
             leBytes 1 ((x.data.drop x.pos).take 62).length ++ (x.data.drop x.pos).take 62) t ∧
           t.mgmt.canXfer = (if x.total ≤ x.pos + 62 then none
             else some { x with pos := x.pos + 62, toggle := !x.toggle, due := s.now + 409600000 }) ∧ OnlyChanges [.mgmt] s t)) ∧
     (∀ code : List Byte, exec (.sdoAbort id (sdoHead 0x80 idx sub ++ code)) s = .next (s.modMgmt fun m => { m with canXfer := none })) ∧
     (s.mgmt.canXfer = none → exec .sdoTimeout s = .next s) ∧
     (∀ x, s.mgmt.canXfer = some x →
       ∃ t, exec .sdoTimeout s = .next t ∧ t.now = max s.now x.due ∧
         CanSends (sdoHead 0x80 x.idx x.sub ++ leBytes 4 0x05040000) t ∧ t.mgmt.canXfer = none ∧
         OnlyChanges [.now, .free, .dict, .perf, .tracker, .tides, .mgmt] s t)) ∧
  (∀ s : State,
     (s.pathUp .can = true → s.sys.canId % 128 ≠ 0 → s.mgmt.busOff = false →
       ∃ t, exec .canBusOff s = .next t ∧ t.mgmt = { s.mgmt with busOff := true } ∧ t.pins = { s.pins with canTxRecessive := true } ∧
         Counted K.cans.CAN_BUS_OFF s t ∧ t.canOn = false ∧ OnlyRegs [K.cans.CAN_BUS_OFF, K.cans.CAN_ERR_COUNTS] s t ∧
         OnlyChanges [.dict, .mgmt, .pins] s t) ∧
     (s.pathUp .can = false ∨ s.sys.canId % 128 = 0 ∨ s.mgmt.busOff = true → exec .canBusOff s = .next s) ∧
     (s.canOn = false → exec .sdoTimeout s = .next s ∧
       ∀ (id : Nat) (f : List Byte) (env : WriteEnv), exec (.sdoDownloadExpedited id f env) s = .next s ∧
         exec (.sdoUploadInitiate id f) s = .next s) ∧
     (s.mgmt.busOff = true → s.answers .can = true → s.sys.canId % 128 ≠ 0 →
       ∃ t, exec .canBusOffRecovery s = .next t ∧ t.mgmt = { s.mgmt with busOff := false } ∧ t.canOn = true ∧
         t.pins = { s.pins with canTxRecessive := false } ∧ t.rd K.cans.CAN_ERR_COUNTS = 0 ∧
         OnlyRegs [K.cans.CAN_ERR_COUNTS] s t ∧ OnlyChanges [.dict, .mgmt, .pins] s t) ∧
     (s.mgmt.busOff = false → exec .canBusOffRecovery s = .next s))

/-- SPI: mailbox records are served once from doorbell to done; register pairs are read at one instant. Rests on R442
(14_object_dictionary.md), R443 (14_object_dictionary.md), R444 (14_object_dictionary.md), R445 (14_object_dictionary.md),
R446 (14_object_dictionary.md), R432 (14_object_dictionary.md). -/
def Obligations.MailboxRecordsAndRegisterWindowAreServed : Prop :=
  (∀ (s : State) (n : Nat), s.answers .spi = true → n < 2 ^ 32 →
     (s.mgmt.mbxBusy = true → exec (.mbxDoorbell n) s = .next s) ∧
     (s.mgmt.mbxBusy = false →
       exec (.mbxDoorbell n) s = .next (s.modMgmt fun m => { m with mbxBusy := true, mbxDone := false, mbxLen := n })) ∧
     (s.mgmt.mbxBusy = false ∨ s.mailOwed = true → ∀ env, exec (.accessRead .mailbox) s = .next s ∧ exec (.accessWrite .mailbox env) s = .next s) ∧
     (∀ (h : AccHead) (b part : List Byte) (w : State), s.mgmt.mbxBusy = true → s.mailOwed = false → s.mgmt.mbxLen = 20 → h = AccHead.read (s.mailBytes 0 20) →
       h.op = 1 → h.first = true → h.offset = 0 → s.readObject .spi h.idx h.sub = (.inr b, w) →
       part = b.take (min h.len 4076) →
       ∃ t, exec (.accessRead .mailbox) s = .next t ∧ t.mgmt.mbxBusy = false ∧ t.mgmt.mbxDone = true ∧
         t.mgmt.mbxResult = 20 + part.length ∧
         t.mailBytes 0 (20 + part.length) = accBytes 3 true (decide (b.length ≤ part.length)) h 0 b.length 0 part ∧
         (b.length ≤ part.length → t.mgmt.mbxXfer = none) ∧
         (part.length < b.length → t.mgmt.mbxXfer = some ⟨false, h.idx, h.sub, b.length, b, part.length, false, w.now + 4096000000⟩) ∧
         OnlyChanges [.mgmt] w t) ∧
     (∀ (h : AccHead) (data : List Byte) (env : WriteEnv) (w : WriteResult), s.mgmt.mbxBusy = true → s.mailOwed = false → s.mgmt.mbxLen = 20 + data.length →
       data.length ≤ 4076 → s.mailBytes 20 data.length = data → h = AccHead.read (s.mailBytes 0 20) → h.op = 2 → h.first = true →
       h.last = true → h.offset = 0 → h.len = data.length → h.total = data.length → w = s.writeObject .spi env h.idx h.sub data →
       (w.later = none →
         ∃ t, exec (.accessWrite .mailbox env) s = .next t ∧ t.mgmt.mbxBusy = false ∧ t.mgmt.mbxDone = true ∧ t.mgmt.mbxResult = 20 ∧
           t.mgmt.mbxXfer = none ∧ t.mgmt.lastAbort = (match w.abort with
             | some a => a.code
             | none => 0) ∧
           t.mailBytes 0 20 = accBytes 4 true true h 0 0 t.mgmt.lastAbort [] ∧ OnlyChanges [.mgmt] w.state t) ∧
       (∀ k, w.later = some k →
         ∃ t, exec (.accessWrite .mailbox env) s = .next t ∧ t.mgmt = { w.state.mgmt with
           mbxXfer := none, owed := w.state.mgmt.owed ++ [(k, .mailbox (s.mailBytes 0 20))] } ∧ OnlyChanges [.mgmt] w.state t)) ∧
     (∀ x, s.mgmt.mbxXfer = some x →
       (x.write = true → exec (.snapshotTimeout .mailbox) s = .next s) ∧
       (x.write = false →
         ∃ t, exec (.snapshotTimeout .mailbox) s = .next t ∧ t.now = max s.now x.due ∧ t.mgmt = { s.mgmt with mbxXfer := none } ∧
           OnlyChanges [.now, .free, .dict, .perf, .tracker, .tides, .mgmt] s t)) ∧
     (∀ x, s.mgmt.canXfer = some x → x.write = false →
       ∃ t, exec (.snapshotTimeout .can) s = .next t ∧ t.now = max s.now (x.due + 3686400000) ∧ t.mgmt = { s.mgmt with canXfer := none } ∧
         OnlyChanges [.now, .free, .dict, .perf, .tracker, .tides, .mgmt] s t) ∧
     (∀ m, Tbl.at? s.mgmt.udpXfer m = none → exec (.snapshotTimeout (.udp m)) s = .next s)) ∧
  (∀ (s : State), s.answers .spi = true →
     (∀ a v : Nat, (a, v) ∈ [(0x0010, s.now), (0x0018, dtPair s.dt), (0x0020, s.flash.eui64)] →
       (exec (.pairLowRead a) s = .next (s.modMgmt fun m =>
         { m with spiHold := some (a, v / 2 ^ 32 % 2 ^ 32), spiOut := [v % 2 ^ 32] })) ∧
       (∀ h, s.mgmt.spiHold = some (a, h) →
         exec (.pairHighRead (a + 4)) s = .next (s.modMgmt fun m => { m with spiHold := none, spiOut := [h] })) ∧
       ((∀ h, s.mgmt.spiHold ≠ some (a, h)) →
         exec (.pairHighRead (a + 4)) s = .next (s.modMgmt fun m => { m with torn := true, spiOut := [v / 2 ^ 32 % 2 ^ 32] }))) ∧
     (exec .winStatusRead s = .next (s.modMgmt fun m =>
       { m with torn := false, spiOut := [boolNat m.torn + boolNat m.mbxBusy * 2 + boolNat m.mbxDone * 4] })) ∧
     (exec (.spiRead 0x0000 1) s = .next (s.modMgmt fun m => { m with spiOut := [0x00A12560] })) ∧
     (exec (.spiRead 0x0010 2) s = .next (s.modMgmt fun m =>
       { m with spiHold := none, spiOut := [s.now % 2 ^ 32, s.now / 2 ^ 32 % 2 ^ 32] })) ∧
     (∀ a : Nat, 0x0038 ≤ a → a < 0x1000 → a % 4 = 0 → exec (.spiRead a 1) s = .next (s.modMgmt fun m => { m with spiOut := [0] }) ∧
       ∀ v, exec (.spiWrite a [v]) s = .next s) ∧
     (∀ v : Nat, v < 2 ^ 32 → exec (.spiWrite 0x0028 [v]) s = exec (.resetReq v) s ∧
       exec (.spiWrite 0x0030 [v]) s = exec (.mbxDoorbell v) s) ∧
     (∀ a v : Nat, 0x1000 ≤ a → a < 0x2000 → a % 4 = 0 → v < 2 ^ 32 →
       ∃ t, exec (.spiWrite a [v]) s = .next t ∧ t.mailBytes (a - 0x1000) 4 = leBytes 4 v ∧
         (∀ k, k < a - 0x1000 ∨ a - 0x1000 + 4 ≤ k → t.mailBytes k 1 = s.mailBytes k 1) ∧ OnlyChanges [.mgmt] s t))

/-- Management datagrams are filtered, authenticated, checked for replay, resent or served, in that order. Rests on R439
(14_object_dictionary.md), R440 (14_object_dictionary.md), R441 (14_object_dictionary.md), R442 (14_object_dictionary.md). -/
def Obligations.ManagementDatagramsAreCheckedInOrder : Prop :=
  ∀ (d : MgmtDatagram) (env : WriteEnv) (s : State) (m slot seq : Nat), s.coreUp 0 = true → d.port < 4 →
    (s.port d.port).cfg.isSome = true → m = field (ofLe (d.body.take 16)) 16 8 → seq = field (ofLe (d.body.take 16)) 32 64 →
    slot = s.rd (K.mgmt.MGMT_KEY_SLOT m) → slot < 1024 →
    (d.bufferFull = true →
      ∃ t, exec (.accessWrite (.udp d) env) s = .next t ∧ Counted K.mgmtd.MGMT_DROP s t ∧ OnlyRegs [K.mgmtd.MGMT_DROP] s t ∧
        OnlyChanges [.dict] s t) ∧
    (d.bufferFull = false →
    (field (ofLe (d.body.take 16)) 0 8 ≠ 1 ∨ bitOf (ofLe (d.body.take 16)) 8 = true ∨ d.body.length < 36 ∨
        recordFits (d.body.drop 16) = false →
      ∃ t, exec (.accessWrite (.udp d) env) s = .next t ∧ Counted (K.ports.RX_FILTERED d.port) s t ∧
        OnlyRegs [K.ports.RX_FILTERED d.port] s t ∧ OnlyChanges [.dict] s t) ∧
    (field (ofLe (d.body.take 16)) 0 8 = 1 → bitOf (ofLe (d.body.take 16)) 8 = false → 36 ≤ d.body.length →
      recordFits (d.body.drop 16) = true → m < 8 →
      (s.flag (K.mgmt.MGMT_ENABLE m) = false ∨ s.slotUsable slot = false →
        ∃ t, exec (.accessWrite (.udp d) env) s = .next t ∧ Counted (K.mgmts.MGMT_NO_KEY m) s t ∧
          OnlyRegs [K.mgmts.MGMT_NO_KEY m] s t ∧ OnlyChanges [.dict] s t) ∧
      (s.flag (K.mgmt.MGMT_ENABLE m) = true → s.slotUsable slot = true → cmacOf (s.slot slot).key d.body ≠ d.cmac →
        ∃ t, exec (.accessWrite (.udp d) env) s = .next t ∧ Counted (K.mgmts.MGMT_AUTH_FAIL m) s t ∧
          Counted (K.key.USE_COUNT slot) s t ∧
          OnlyRegs [K.mgmts.MGMT_AUTH_FAIL m, K.key.USE_COUNT slot, K.key.STATE slot, K.key.NEAR_LIMIT_SEEN slot] s t ∧
          OnlyChanges [.dict] s t) ∧
      (s.flag (K.mgmt.MGMT_ENABLE m) = true → s.slotUsable slot = true → cmacOf (s.slot slot).key d.body = d.cmac →
        (Tbl.atD s.mgmt.windows m SeqWindow.empty).accepts seq = false →
        (∀ k ∈ Tbl.atD s.mgmt.kept m [], ¬ (k.seq = seq ∧ k.cmac = d.cmac)) →
        ∃ t, exec (.accessRead (.udp d)) s = .next t ∧ Counted (K.mgmts.MGMT_REPLAY m) s t ∧ t.mgmt = s.mgmt ∧ OnlyChanges [.dict] s t) ∧
      (∀ (k : Kept) (rest : List Kept), s.flag (K.mgmt.MGMT_ENABLE m) = true → s.slotUsable slot = true → cmacOf (s.slot slot).key d.body = d.cmac →
        (Tbl.atD s.mgmt.windows m SeqWindow.empty).accepts seq = false → Tbl.atD s.mgmt.kept m [] = k :: rest → k.seq = seq →
        k.cmac = d.cmac →
        ∃ t, exec (.accessRead (.udp d)) s = .next t ∧ Counted (K.mgmts.MGMT_RESENT m) s t ∧ t.mgmt = s.mgmt ∧
          Queued d.port ⟨4, .management m d.srcAddr d.srcUdp k.response⟩ s t ∧ OnlyChanges [.dict, .bh] s t) ∧
      (∀ b : List Byte, s.flag (K.mgmt.MGMT_ENABLE m) = true → s.slotUsable slot = true → cmacOf (s.slot slot).key d.body = d.cmac →
        (Tbl.atD s.mgmt.windows m SeqWindow.empty).accepts seq = true → (AccHead.read (d.body.drop 16)).op = 1 →
        (AccHead.read (d.body.drop 16)).first = true → (AccHead.read (d.body.drop 16)).offset = 0 →
        (AccHead.read (d.body.drop 16)).idx = 0x1018 → (AccHead.read (d.body.drop 16)).sub = 1 →
        (s.readObject (.udp m) 0x1018 1).1 = .inr b →
        ∃ t, exec (.accessRead (.udp d)) s = .next t ∧ Counted (K.mgmts.MGMT_RX_OK m) s t ∧ t.mgmt.lastAbort = 0 ∧ t.mgmt.lastData = b ∧
          Tbl.at? t.mgmt.windows m = some ((Tbl.atD s.mgmt.windows m SeqWindow.empty).advance seq) ∧
          (∃ k, (Tbl.atD t.mgmt.kept m []).head? = some k ∧ k.seq = seq ∧ k.cmac = d.cmac) ∧ (Tbl.atD t.mgmt.kept m []).length ≤ 8 ∧
          OnlyChanges [.dict, .mgmt, .bh] s t)))

/-- Channels switch on afresh and off with their work, and with the last of its group a synthesiser stops; segments are enabled, wound
down and read by cursors. Rests on R60 (02_line_ports.md), R28 (01_device_map.md), R233 (08_segments_and_repeating.md), R234 (08_segments_and_repeating.md), R229 (07_medium_access.md),
R231 (07_medium_access.md). -/
def Obligations.ChannelsAndSegmentsSwitchAndCursorsSelect : Prop :=
  (∀ (via : Path) (n : Nat) (s : State), n < 256 → s.MayAccess via 2 →
     (s.enabled n = true → exec (.channelEnable via n) s = .next (s.answer 0 [])) ∧
     (s.enabled n = false → exec (.channelDisable via n) s = .next (s.answer 0 []) ∧
       ∃ t, exec (.channelEnable via n) s = .next t ∧ Accepted s t ∧ t.enabled n = true ∧
         t.chan n = { Channel.reset with
           cfg := (s.chan n).cfg, swell := (s.chan n).swell, blankEnd := (s.chan n).blankEnd, laneBlank := (s.chan n).laneBlank
           window := (s.chan n).window, trimTick := s.now
           written := some ((s.idleTrim n).1, (s.idleTrim n).2 % 64, s.now) } ∧ (t.chan n).gain = 84 ∧
         ((s.group (n / 32)).stopped = true → t.group (n / 32) = ⟨false, false⟩ ∧ t.inService n = false) ∧
         ((s.group (n / 32)).stopped = false → t.group (n / 32) = s.group (n / 32)) ∧
         (∀ k, k ≠ n / 32 → t.group k = s.group k) ∧
         (∀ m, m ≠ n → t.chan m = s.chan m) ∧ OnlyRegs [K.ch.ENABLE n] s t ∧ OnlyChanges [.dict, .line, .mgmt] s t) ∧
     (s.enabled n = true → (s.chan n).rx = none → (s.chan n).laneRx = none → s.framesWith (fun f => f.chans.contains n) = [] →
       ∃ t, exec (.channelDisable via n) s = .next t ∧ Accepted s t ∧ t.enabled n = false ∧
         t.chan n = { s.chan n with window := none, written := none } ∧ (∀ m, m ≠ n → t.chan m = s.chan m) ∧
         ((∃ m, m < 256 ∧ m ≠ n ∧ m / 32 = n / 32 ∧ s.enabled m = true) → t.line.groups = s.line.groups) ∧
         ((∀ m, m < 256 → m ≠ n → m / 32 = n / 32 → s.enabled m = false) → t.group (n / 32) = ⟨false, true⟩) ∧
         (∀ k, k ≠ n / 32 → t.group k = s.group k) ∧
         OnlyRegs [K.ch.ENABLE n] s t ∧ OnlyChanges [.dict, .line, .mgmt] s t) ∧
     (∀ (r : Nat) (x : Reception), s.enabled n = true → Alone n r x s → (s.chan n).laneRx = none → s.framesWith (fun f => f.chans.contains n) = [] →
       ∃ t, exec (.channelDisable via n) s = .next t ∧ Accepted s t ∧ t.enabled n = false ∧ t.rx? r = none ∧ (t.chan n).rx = none ∧
         Counted (K.chs.RINSE_DISABLED n) s t ∧ OnlyChanges [.dict, .perf, .line, .mgmt] s t) ∧
     (∀ (f : Nat) (x : TxFrame), s.enabled n = true → (s.chan n).rx = none → (s.chan n).laneRx = none → s.frame? f = some x →
       s.framesWith (fun f => f.chans.contains n) = [(f, x)] → x.started = false → x.ended = false →
       ∃ t, exec (.channelDisable via n) s = .next t ∧ Accepted s t ∧ t.enabled n = false ∧ t.frame? f = none ∧
         t.mac.queue = s.mac.queue.map (fun d => if d.frame = some f then { d with frame := none } else d) ∧
         OnlyRegs [K.ch.ENABLE n] s t ∧ OnlyChanges [.dict, .mac, .line, .mgmt] s t)) ∧
  ((∀ (via : Path) (g : Nat) (s : State), g < 64 → s.MayAccess via 2 →
     (s.segEnabled g = true → exec (.segEnable via g) s = .next (s.answer 0 [])) ∧
     (s.segEnabled g = false → s.rd (K.seg.MEMBER_COUNT g) = 0 → exec (.segEnable via g) s = .next (s.answer 0x08000022 [])) ∧
     (∀ n : Nat, n < 256 → s.segEnabled g = false → s.members g = [n] → (∀ h, h < 64 → h ≠ g → s.segEnabled h = true → n ∉ s.members h) →
       ∃ t, exec (.segEnable via g) s = .next t ∧ Accepted s t ∧ t.segEnabled g = true ∧ t.rd (K.segs.SEG_STATE g) = 1 ∧
         (∃ b, (t.seg g).firstBeacon = some b ∧ s.now ≤ b) ∧ (t.seg g).period = none ∧ (t.seg g).allocs = [] ∧
         (t.seg g).winding = false) ∧
     (s.segEnabled g = false → exec (.segDisable via g) s = .next (s.answer 0 [])) ∧
     (s.segEnabled g = true → s.framesWith (fun f => f.seg == g) = [] → (s.epsWith fun e => e.seg == g) = [] →
       ∃ t, exec (.segDisable via g) s = .next t ∧ Accepted s t ∧ t.segEnabled g = false ∧ t.rd (K.segs.SEG_STATE g) = 0 ∧
         (t.seg g).firstBeacon = none ∧ (t.seg g).period = none ∧ (t.seg g).allocs = [] ∧ (t.seg g).responses = [] ∧
         (t.seg g).winding = false ∧ t.mac.queue = s.mac.queue.filter (fun d => d.frame.isSome || d.seg != g) ∧
         OnlyChanges [.dict, .mac, .line, .mgmt] s t)) ∧
   (∀ (via : Path) (u : Nat) (s : State), u < 256 → s.MayAccess via 1 →
     (∀ value : Nat, value < 64 →
       ∃ t, exec (.cursorSelect via u 1 value) s = .next t ∧ Accepted s t ∧ t.rd (K.cur.SEGMENT u) = value ∧
         OnlyRegs [K.cur.SEGMENT u] s t ∧ OnlyChanges [.dict, .mgmt] s t) ∧
     (∀ value : Nat, value < 65536 →
       ∃ t, exec (.cursorSelect via u 2 value) s = .next t ∧ Accepted s t ∧ t.rd (K.cur.SHORT_ADDR u) = value ∧
         OnlyRegs [K.cur.SHORT_ADDR u] s t ∧ OnlyChanges [.dict, .mgmt] s t)) ∧
   (∀ (via : Path) (u : Nat) (s : State), u < 256 → s.MayAccess via 2 →
     (s.epAt (s.rd (K.cur.SEGMENT u)) (s.rd (K.cur.SHORT_ADDR u)) = none →
       exec (.cursorDisassociate via u 1) s = .next (s.answer 0x08000022 [])) ∧
     (exec (.cursorDisassociate via u 0) s = .next (s.answer 0 [])) ∧
     (∀ i, s.epAt (s.rd (K.cur.SEGMENT u)) (s.rd (K.cur.SHORT_ADDR u)) = some i → (s.ep i).state = 2 →
       ∃ t, exec (.cursorDisassociate via u 1) s = .next t ∧ Accepted s t ∧ SendsTo i 8 1 .disassociate [10, 2] s t ∧
         OnlyChanges [.mac, .line, .mgmt] s t)))

/-- MAC commands from an endpoint have their effects on its entry; lane and reach commands are sent to it. Rests on R209
(07_medium_access.md), R214 (07_medium_access.md), R215 (07_medium_access.md), R219 (07_medium_access.md), R221
(07_medium_access.md), R196 (07_medium_access.md), R107 (04_swell_mode.md), R116 (04_swell_mode.md). -/
def Obligations.EndpointCommandsHaveTheirEffects : Prop :=
  (∀ (i : Nat) (body : List Byte) (s : State), s.coreUp (s.entryCore i) = true →
     (∀ (c : Instr) (n : Nat), (c, n) ∈ [(Instr.leaseRenew i body, 4), (Instr.allocRequest i body, 4), (Instr.sleepSchedule i body, 6),
         (Instr.disassociate i body, 1), (Instr.soundRequest i body, 5), (Instr.tideReport i body, 6)] → body.length ≠ n →
       ∃ t, exec c s = .next t ∧ Counted (K.segs.MAC_CMD_BAD (s.ep i).seg) s t ∧
         t.mac = { s.mac with committed := s.mac.committed.erase (i, body) } ∧
         OnlyRegs [K.segs.MAC_CMD_BAD (s.ep i).seg] s t ∧ OnlyChanges [.dict, .mac] s t) ∧
     (∀ lease stop : Nat, body.length = 4 →
       lease = min 2592000 (max 3600 (if ofLe body = 0 then s.limit (s.ep i).seg 3 else ofLe body)) →
       stop = (s.dt / dtSecond + lease) % 2 ^ 32 →
       ∃ t, exec (.leaseRenew i body) s = .next t ∧ EpBecomes i { s.ep i with leaseEnd := stop, lease := lease } s t ∧
         SendsTo i 8 1 .command (leBytes 1 4 ++ leBytes 4 lease ++ leBytes 4 stop) s t ∧
         t.mac.committed = s.mac.committed.erase (i, body) ∧ OnlyChanges [.mac, .flash, .line] s t ∧
         (s.keys.ledgerOn = false → t.flash = s.flash)) ∧
     (∀ slots cls : Nat, slots < 65536 → cls < 4 → body = leBytes 2 slots ++ leBytes 2 cls →
       ∃ t, exec (.allocRequest i body) s = .next t ∧
         EpBecomes i { s.ep i with allocReq := if slots = 0 then none else some (slots, cls) } s t ∧
         t.mac.queue = s.mac.queue ∧ t.mac.committed = s.mac.committed.erase (i, body) ∧ OnlyChanges [.mac] s t) ∧
     (∀ (p q : Nat) (slots check : Nat) (x : Sleep), p < 65536 → q < 65536 → slots < 256 → check < 256 →
       body = leBytes 2 p ++ leBytes 2 q ++ leBytes 1 slots ++ leBytes 1 check →
       (∀ d ∈ s.mac.queue, ¬ (d.kind = .sleepEcho ∧ d.entry = some i)) →
       x = ⟨if p ≠ 0 ∧ ((s.ep i).lease < 2 * p ∨ bitOf (s.ep i).features 2 = false ∨ p ≤ q ∨ slots = 0) then 0 else p, q, slots, check⟩ →
       ∃ t, exec (.sleepSchedule i body) s = .next t ∧ EpBecomes i { s.ep i with echo := some x } s t ∧
         SendsTo i 8 1 .sleepEcho (leBytes 1 5 ++ x.bytes) s t ∧ t.mac.committed = s.mac.committed.erase (i, body) ∧
         OnlyChanges [.mac, .line] s t) ∧
     (s.legsOf i = [] →
       ((s.ep i).adrift = true ∨ s.asleep i = false →
         ∃ t, exec (.present i) s = .next t ∧
           EpBecomes i { s.ep i with window := (s.ep i).window.map fun w => (w.1, w.2.1, true) } s t ∧
           t.mac.committed = s.mac.committed.erase (i, []) ∧ OnlyChanges [.mac] s t) ∧
       (∀ from_ : Nat, (s.ep i).adrift = false → s.asleep i = true → (s.seg (s.ep i).seg).period = some from_ →
         ∃ t, exec (.present i) s = .next t ∧
           EpBecomes i { s.ep i with window := some (from_, from_ + s.slotTicks (s.sleepNow (s.ep i)).slots, true) } s t ∧
           t.mac.committed = s.mac.committed.erase (i, []) ∧ OnlyChanges [.mac] s t)) ∧
     (body.length = 6 →
       ∃ t, exec (.tideReport i body) s = .next t ∧ EpBecomes i { s.ep i with vector := ofLe body } s t ∧
         t.mac.committed = s.mac.committed.erase (i, body) ∧ OnlyChanges [.mac] s t) ∧
     ((s.ep i).state ≠ 1 → (s.ep i).state ≠ 2 → body.length = 1 →
       exec (.disassociate i body) s = .next (s.modMac fun m => { m with committed := m.committed.erase (i, body) }))) ∧
  (∀ (i sf : Nat) (s : State), s.coreUp (s.entryCore i) = true →
     ((s.ep i).state ≠ 2 ∨ sf < 7 ∨ 11 < sf → exec (.laneSfSet i sf) s = .next s) ∧
     ((s.ep i).state = 2 → 7 ≤ sf → sf ≤ 11 →
       ∃ t, exec (.laneSfSet i sf) s = .next t ∧ SendsTo i 8 1 .command (leBytes 1 7 ++ leBytes 1 sf) s t ∧ OnlyChanges [.mac, .line] s t ∧
         ∀ j, t.ep j = s.ep j) ∧
     (∀ mode : Nat, (s.ep i).state ≠ 2 ∨ 2 < mode ∨ sf < 7 ∨ 14 < sf → exec (.longReachSet i mode sf) s = .next s) ∧
     (∀ mode : Nat, (s.ep i).state = 2 → mode ≤ 2 → 7 ≤ sf → sf ≤ 14 →
       ∃ t, exec (.longReachSet i mode sf) s = .next t ∧ SendsTo i 8 1 .command (leBytes 1 8 ++ leBytes 1 (sf + 16 * mode)) s t ∧
         OnlyChanges [.mac, .line] s t ∧ ∀ j, t.ep j = s.ep j))

/-- An endpoint entry expires and is freed at its deadlines, which act only on entries in their state. Rests on R213
(07_medium_access.md), R214 (07_medium_access.md), R221 (07_medium_access.md), R227 (07_medium_access.md), R211
(07_medium_access.md). -/
def Obligations.AnEntryExpiresAndIsFreedAtItsDeadlines : Prop :=
  ∀ (i : Nat) (s : State), s.coreUp (s.entryCore i) = true → (s.ep i).seg < 64 → s.legsOf i = [] →
    ((s.ep i).state ≠ 2 → exec (.leaseExpiry i) s = .next s) ∧
    ((s.ep i).state ≠ 3 → exec (.addressHoldExpiry i) s = .next s) ∧
    ((s.ep i).state ≠ 1 ∨ (s.ep i).via = none → exec (.relayedAssocTimeout i) s = .next s) ∧
    ((s.ep i).state = 2 →
      ∃ t, exec (.leaseExpiry i) s = .next t ∧ t.now = max s.now (s.tickOf ((s.ep i).leaseEnd * dtSecond)) ∧ Expires i t.now s t ∧
        OnlyChanges [.now, .free, .dict, .perf, .tracker, .tides, .mac, .flash, .line] s t) ∧
    (∀ body : List Byte, body.length = 1 → (s.ep i).state = 1 ∨ (s.ep i).state = 2 →
      ∃ t, exec (.disassociate i body) s = .next t ∧ Expires i s.now s t ∧ OnlyChanges [.dict, .mac, .flash, .line] s t) ∧
    ((s.ep i).state = 3 →
      ∃ t, exec (.addressHoldExpiry i) s = .next t ∧ Freed i s t ∧
        t.now = max s.now ((s.ep i).expired + 409600000 * s.limit (s.ep i).seg 4) ∧
        OnlyChanges [.now, .free, .dict, .perf, .tracker, .tides, .mac, .flash, .line] s t) ∧
    ((s.ep i).state = 1 → (s.ep i).via.isSome = true →
      ∃ t, exec (.relayedAssocTimeout i) s = .next t ∧ Freed i s t ∧ (s.ep i).granted ≤ t.now ∧
        OnlyChanges [.now, .free, .dict, .perf, .tracker, .tides, .mac, .flash, .line] s t) ∧
    ((s.ep i).window = none → exec (.wakeWindowEnd i) s = .next s) ∧
    (∀ a b seen, (s.ep i).window = some (a, b, seen) →
      ∃ t, exec (.wakeWindowEnd i) s = .next t ∧ t.now = max s.now b ∧ EpBecomes i { s.ep i with window := none } s t ∧
        (seen = false → Counted (K.segs.WAKE_MISSED (s.ep i).seg) s t) ∧
        (seen = true → t.rd (K.segs.WAKE_MISSED (s.ep i).seg) = s.rd (K.segs.WAKE_MISSED (s.ep i).seg)) ∧
        OnlyChanges [.now, .free, .dict, .perf, .tracker, .tides, .mac] s t) ∧
    ((s.ep i).holdEnd = none → exec (.adriftHoldExpiry i) s = .next s) ∧
    (∀ h, (s.ep i).holdEnd = some h →
      ∃ t, exec (.adriftHoldExpiry i) s = .next t ∧ t.now = max s.now h ∧ EpBecomes i { s.ep i with holdEnd := none } s t ∧
        t.mac.queue = s.mac.queue.filter (fun d => d.frame.isSome || !(d.kind == .bridged && d.entry == some i)) ∧
        OnlyChanges [.now, .free, .dict, .perf, .tracker, .tides, .mac] s t)

/-- Association requests are granted or refused by the table, and answered in their beacon period. Rests on R210
(07_medium_access.md), R211 (07_medium_access.md), R212 (07_medium_access.md), R318 (10_keys_and_cipher_engines.md), R336
(10_keys_and_cipher_engines.md). -/
def Obligations.AssociationRequestsAreDecidedAndAnswered : Prop :=
  ∀ (g : Nat) (s : State), g < 64 → s.coreUp (segCore g) = true →
    (s.segEnabled g = false → exec (.associationRequest g) s = .next s) ∧
    (s.keys.entropyFail = true → s.rd K.adm.ADMIT_MODE = 1 → exec (.associationRequest g) s = .next s) ∧
    ((∀ q ∈ s.mac.requests, q.seg ≠ g) → exec (.associationRequest g) s = .next s) ∧
    (∀ q : Request, s.segEnabled g = true → s.mac.requests.find? (fun q => q.seg == g) = some q →
      s.rd K.adm.ADMIT_MODE = 0 ∨ s.keys.entropyFail = false →
      (q.body.length < 18 →
        ∃ t, exec (.associationRequest g) s = .next t ∧ Counted (K.segs.ASSOC_MALFORMED g) s t ∧
          t.mac = { s.mac with requests := s.mac.requests.erase q } ∧ OnlyRegs [K.segs.ASSOC_MALFORMED g] s t ∧
          OnlyChanges [.dict, .mac] s t) ∧
      (∀ r : AssocReq, assocRead q.body = some r →
        (∀ result : Nat,
          (s.limit g 5 = 0 ∨ s.rd K.adm.ADMIT_MODE = 1 ∧ Tbl.at? s.keys.admission r.eui = none) ∧ result = 2 ∨
            s.limit g 5 ≠ 0 ∧ s.rd K.adm.ADMIT_MODE = 0 ∧ (r.bMax < 2 ∨ 12 < r.bMax ∨ 4 < r.rateMax) ∧ result = 3 →
          ∃ t d, exec (.associationRequest g) s = .next t ∧ Counted (K.segs.ASSOC_REFUSED g) s t ∧
            t.mac.queue = s.mac.queue ++ [d] ∧ d.kind = .assocResponse ∧ d.type = 5 ∧ d.entry = none ∧ d.seg = g ∧
            d.body = assocBody r.eui result 0xFFFE 0 0 (lrModeOf q.wave) (if q.wave = .s1 ∨ q.wave = .s2 then q.sf else 0) ∧
            t.mac.requests = s.mac.requests.erase q ∧
            (q.via = none → d.route = [] ∧ (t.seg g).responses = (s.seg g).responses ++ [(d.id, 0)]) ∧
            (∀ v : Nat, q.via = some v → d.route = (s.ep v).route.getD [(s.ep v).addr] ∧ (t.seg g).responses = (s.seg g).responses) ∧
            (∀ j, t.ep j = s.ep j) ∧ OnlyRegs [K.segs.ASSOC_REFUSED g] s t ∧ OnlyChanges [.dict, .mac] s t) ∧
        (∀ i a lease : Nat, s.rd K.adm.ADMIT_MODE = 0 → s.limit g 5 ≠ 0 → 2 ≤ r.bMax → r.bMax ≤ 12 → r.rateMax ≤ 4 →
          s.epOfEui r.eui = none → s.epOfEuiOn g r.eui = none → s.freeIndex = some i → s.pickAddr g r i = some (i, a) →
          (∀ d ∈ s.mac.queue, d.entry ≠ some i) → (s.ep i).state = 0 →
          s.flag K.dom.ROAM_ENABLE = false ∨ s.flag K.dom.DOMAIN_ENABLE = false →
          lease = min 2592000 (max 3600 (if r.lease = 0 then s.limit g 3 else r.lease)) →
          ∃ t d, exec (.associationRequest g) s = .next t ∧ Counted (K.segs.ASSOC_GRANTED g) s t ∧
            (t.ep i).state = 1 ∧ (t.ep i).eui = r.eui ∧ (t.ep i).addr = a ∧ (t.ep i).seg = g ∧ (t.ep i).lease = lease ∧
            (t.ep i).leaseEnd = (s.dt / dtSecond + lease) % 2 ^ 32 ∧ (t.ep i).driftEmpty = true ∧ (t.ep i).windowEmpty = true ∧
            (t.ep i).via = q.via ∧ (t.ep i).lrMode = lrModeOf q.wave ∧
            d ∈ t.mac.queue ∧ d.kind = .assocResponse ∧ d.type = 5 ∧ d.entry = some i ∧
            d.body = assocBody r.eui 0 a lease (if 7 ≤ r.laneSf ∧ r.laneSf ≤ 11 then r.laneSf else 0) (lrModeOf q.wave)
              (if q.wave = .s1 ∨ q.wave = .s2 then q.sf else 0) ∧
            OnlyChanges [.dict, .mac, .flash, .line, .domain] s t)))

/-- Sounding, its timeout and completion, tone map responses and refreshes change maps as stated. Rests on R174
(06_tide_tables.md), R175 (06_tide_tables.md), R176 (06_tide_tables.md), R177 (06_tide_tables.md), R178 (06_tide_tables.md),
R180 (06_tide_tables.md), R182 (06_tide_tables.md). -/
def Obligations.NegotiationsSoundComputeAndInstallMaps : Prop :=
  ∀ (i : Nat) (s : State), s.coreUp (s.entryCore i) = true → (s.ep i).seg < 64 →
    (∀ body : List Byte, body.length = 5 → field (ofLe body) 24 6 ≠ 0 → s.soundingDown i = false →
      ∃ t ds, exec (.soundRequest i body) s = .next t ∧ t.mac.queue = s.mac.queue ++ ds ∧
        ds.map (·.kind) = ((List.range 24).filter fun k => bitOf (ofLe body) k).map DownKind.sounding ∧
        (∀ d ∈ ds, d.entry = some i ∧ d.type = 6 ∧ d.pri = 2 ∧ d.body = body ∧ d.frame = none) ∧
        t.mac.committed = s.mac.committed.erase (i, body) ∧ OnlyChanges [.mac] s t) ∧
    (∀ body : List Byte, body.length = 5 → field (ofLe body) 24 6 = 0 ∨ s.soundingDown i = true →
      exec (.soundRequest i body) s = .next (s.modMac fun m => { m with committed := m.committed.erase (i, body) })) ∧
    ((s.ep i).sounding = none →
      exec (.soundTimeout i) s = .next s ∧ ∀ heard, exec (.soundingComplete i heard) s = .next s) ∧
    (∀ x, (s.ep i).sounding = some x →
      (x.left ≠ 0 → exec (.soundTimeout i) s = .next s) ∧
      (x.left = 0 →
        ∃ t, exec (.soundTimeout i) s = .next t ∧ EpBecomes i { s.ep i with sounding := none } s t ∧
          Counted (K.segs.SOUND_TIMEOUTS (s.ep i).seg) s t ∧ OnlyRegs [K.segs.SOUND_TIMEOUTS (s.ep i).seg] s t ∧
          OnlyChanges [.dict, .mac] s t) ∧
      ((∃ k, k < 24 ∧ bitOf x.mask k = true ∧ k ∉ x.got) → ∀ heard, exec (.soundingComplete i heard) s = .next s) ∧
      ((∀ k, k < 24 → bitOf x.mask k = true → k ∈ x.got) → ∀ heard : List SoundSeen,
        ∃ t body, exec (.soundingComplete i heard) s = .next t ∧ (t.ep i).sounding = none ∧ (t.ep i).pendSet = true ∧
          (t.ep i).mapUp = (s.ep i).mapUp ∧ (t.ep i).mapDn = (s.ep i).mapDn ∧ SendsTo i 7 1 .mapResponse body s t ∧
          ((∀ y ∈ heard, y.slot ∉ x.got) → s.rd (K.seg.MEMBER_COUNT (s.ep i).seg) ≤ 8 → (t.ep i).mapPend = [0, 0, 0] ∧ body = leBytes 12 (packBits [(3, 0), (5, 0), (48, s.upVector i),
            (8, (s.ep i).subset), (24, if (s.ep i).tauKnown then (s.ep i).tau else 0), (8, 0)])) ∧
          (∀ c : Nat, c < 3 → (∀ y ∈ heard, y.slot ∈ x.got → vectorClass (s.upVector i) y.slot ≠ c) →
            (t.ep i).ceBase.getD c none = none ∧ (t.ep i).mapPend.getD c 0 = 0) ∧
          (∀ j, j ≠ i → t.ep j = s.ep j) ∧ OnlyChanges [.dict, .mac, .line] s t)) ∧
    (∀ body : List Byte, mapResponseRead body = none →
      ∃ t, exec (.toneMapResponse i body) s = .next t ∧ Counted (K.segs.TMAP_MALFORMED (s.ep i).seg) s t ∧
        (∀ j, t.ep j = s.ep j) ∧ OnlyRegs [K.segs.TMAP_MALFORMED (s.ep i).seg] s t ∧ OnlyChanges [.dict, .mac] s t) ∧
    (∀ (body : List Byte) (v : Nat), mapResponseRead body = some (v, []) →
      ∃ t, exec (.toneMapResponse i body) s = .next t ∧ (t.ep i).vector = v ∧ (t.ep i).mapDn = [0, 0, 0] ∧
        (t.ep i).mapUp = (s.ep i).mapUp ∧ Counted (K.segs.TMAP_NEGOTIATED (s.ep i).seg) s t ∧ (∀ j, j ≠ i → t.ep j = s.ep j) ∧
        OnlyChanges [.dict, .mac] s t) ∧
    (∀ (body : List Byte) (v : Nat) (r : MapRecord), mapResponseRead body = some (v, [r]) → r.cls < 3 →
      (s.mapRejected i [r] r = true →
        ∃ t, exec (.toneMapResponse i body) s = .next t ∧ Counted (K.segs.TMAP_REJECTED (s.ep i).seg) s t ∧
          (t.ep i).mapDn = [0, 0, 0] ∧ OnlyChanges [.dict, .mac] s t) ∧
      (s.mapRejected i [r] r = false → r.tmi = 1 →
        ∃ t, exec (.toneMapResponse i body) s = .next t ∧ (t.ep i).vector = v ∧
          (t.ep i).mapDn = [0, 0, 0].set r.cls (1 + r.gi * 2 ^ 14) ∧ Counted (K.segs.TMAP_NEGOTIATED (s.ep i).seg) s t ∧
          OnlyChanges [.dict, .mac] s t) ∧
      (∀ p, s.mapRejected i [r] r = false → 2 ≤ r.tmi → (s.ep i).mapDn = [0, 0, 0] → s.freePage = some p →
        ∃ t, exec (.toneMapResponse i body) s = .next t ∧ (t.ep i).vector = v ∧ (t.ep i).mapDn = [0, 0, 0].set r.cls p ∧
          Tbl.at? t.mac.pages p = some ⟨r.tmi, r.rate, r.gi, i, true, r.cls, r.loading⟩ ∧ OnlyChanges [.dict, .mac] s t)) ∧
    ((s.ep i).mapsAt = none ∨ s.rd (K.seg.MAP_REFRESH (s.ep i).seg) = 0 → exec (.mapRefresh i) s = .next s) ∧
    (∀ (at' mask : Nat) (u : State), (s.ep i).mapsAt = some at' → s.rd (K.seg.MAP_REFRESH (s.ep i).seg) ≠ 0 →
      u = s.atDeadline (at' + 409600000 * (60 * s.rd (K.seg.MAP_REFRESH (s.ep i).seg))) →
      mask = (((List.range 24).filter fun k => vectorClass (u.upVector i) k != 3).map fun k => 2 ^ k).sum → mask ≠ 0 →
      (s.ep i).sounding = none → (s.ep i).state = 2 →
      ∃ t, exec (.mapRefresh i) s = .next t ∧ t.now = u.now ∧
        EpBecomes i { s.ep i with mapsAt := none, sounding := some ⟨mask, u.rd (K.seg.SOUND_TIMEOUT (s.ep i).seg), []⟩ } s t ∧
        SendsTo i 8 1 .command (soundRequestBody mask (u.rd (K.seg.SOUND_PSC (s.ep i).seg)) 3 (u.rd (K.seg.SOUND_TIMEOUT (s.ep i).seg))) u t ∧
        OnlyChanges [.mac, .line] u t)

/-- Neighbour reports and intervals recompute routes; beacons open the period on every enabled member. Rests on R235
(08_segments_and_repeating.md), R238 (08_segments_and_repeating.md), R239 (08_segments_and_repeating.md), R240
(08_segments_and_repeating.md), R191 (07_medium_access.md), R192 (07_medium_access.md), R193 (07_medium_access.md), R195
(07_medium_access.md). -/
def Obligations.RoutesAndBeaconsFollowTheirIntervals : Prop :=
  ((∀ (i : Nat) (body : List Byte) (s : State), s.coreUp (s.entryCore i) = true → (s.ep i).seg < 64 →
     (reportRead body = none →
       ∃ t, exec (.neighbourReport i body) s = .next t ∧ Counted (K.segs.MAC_CMD_BAD (s.ep i).seg) s t ∧ (∀ j, t.ep j = s.ep j) ∧
         OnlyRegs [K.segs.MAC_CMD_BAD (s.ep i).seg] s t ∧ OnlyChanges [.dict, .mac] s t) ∧
     (∀ r, reportRead body = some r →
       ∃ t, exec (.neighbourReport i body) s = .next t ∧ (t.ep i).report = r ∧ t.mac.committed = s.mac.committed.erase (i, body) ∧
         (∀ j, j ≠ i → t.ep j = { s.ep j with
           route := (t.ep j).route, routeSent := (t.ep j).routeSent, viaSeen := (t.ep j).viaSeen }) ∧
         (((s.modEp i fun e => { e with report := r }).hopsGiven i r).hopsAt i = s.hopsAt i → t.mac.queue = s.mac.queue ∧ OnlyChanges [.mac] s t) ∧
         (((s.modEp i fun e => { e with report := r }).hopsGiven i r).hopsAt i ≠ s.hopsAt i → (t.seg (s.ep i).seg).routesAt = s.now) ∧
         OnlyChanges [.dict, .mac, .line] s t)) ∧
   (∀ (g : Nat) (s : State), s.coreUp 6 = true → g < 64 →
     (s.segEnabled g = false → exec (.routeInterval g) s = .next s) ∧
     (s.segEnabled g = true →
       ∃ t, exec (.routeInterval g) s = .next t ∧
         t.now = max s.now ((s.seg g).routesAt + 409600000 * (60 * s.rd (K.seg.ROUTE_INTERVAL g))) ∧ (t.seg g).routesAt = t.now ∧
         (∀ j, t.ep j = { s.ep j with route := (t.ep j).route, routeSent := (t.ep j).routeSent }) ∧
         (s.stations g = [] → t.rd (K.segs.ROUTED_ENDPOINTS g) = 0 ∧ t.mac.queue = s.mac.queue) ∧
         (∀ i c, s.stations g = [i] → s.flag (K.seg.REPEAT_ENABLE g) = false → s.hopCost g (s.firstHop i) = some c →
           (t.ep i).route = some [(s.ep i).addr] ∧ t.rd (K.segs.ROUTED_ENDPOINTS g) = 0) ∧
         (∀ i, s.stations g = [i] → s.flag (K.seg.REPEAT_ENABLE g) = false → s.hopCost g (s.firstHop i) = none →
           (t.ep i).route = none) ∧
         OnlyChanges [.now, .free, .dict, .perf, .tracker, .tides, .mac, .line] s t))) ∧
  (∀ (g : Nat) (s : State), s.coreUp (segCore g) = true → g < 64 → s.rd (K.seg.MEMBER_COUNT g) ≤ 8 → (∀ n ∈ s.members g, n < 256) →
     (s.segEnabled g = false ∨ (s.seg g).winding = true → exec (.beacon g) s = .next s) ∧
     (s.segEnabled g = true → (s.seg g).winding = false → (s.seg g).gaps = [] → (s.seg g).responses = [] →
       ∃ t, exec (.beacon g) s = .next t ∧ t.now = max s.now (s.nextBeacon g) ∧ (t.seg g).period = some (s.nextBeacon g) ∧
         (t.seg g).firstBeacon = none ∧ t.rd (K.segs.SEG_STATE g) = 2 ∧
         (t.seg g).region = [s.rd (K.seg.BP_CYCLES g), s.rd (K.seg.BEACON_SLOT g), s.rd (K.seg.BEACON_SLOTS g),
           s.rd (K.seg.CR_FIRST g), s.rd (K.seg.CR_COUNT g)] ∧
         (t.seg g).limits = [s.rd (K.seg.MAX_FRAME g), s.rd (K.seg.MAX_DELAY g), s.rd (K.seg.ROBUST_GI g), s.rd (K.seg.LEASE_TIME g),
           s.rd (K.seg.ADDRESS_HOLD g), s.rd (K.seg.ASSOC_PERMIT g), s.rd (K.seg.ADRIFT_HOLD g), s.rd (K.seg.DEFAULT_DRIFT g),
           s.rd (K.seg.BCAST_REPEAT g), s.rd (K.seg.REACH_BEACON g)] ∧
         t.rd (K.segs.BP_COUNT g) =
           (if (s.seg g).beacon = [] then s.rd (K.segs.BP_COUNT g) else (s.rd (K.segs.BP_COUNT g) + 1) % 65536) ∧
         (t.seg g).beacon.length = 36 + 6 * (s.members g).length + 8 * (t.seg g).allocs.length ∧
         (t.seg g).beacon.take 2 = leBytes 2 (t.rd (K.segs.BP_COUNT g)) ∧
         ((∃ n ∈ s.members g, s.enabled n = true) →
           ∃ x, t.frame? s.line.nextFrame = some x ∧ x.seg = g ∧ x.wave = .ofdm ∧ x.type = 0 ∧ x.dst = 0xFFFF ∧ x.tmi = 0 ∧
             x.ackReq = false ∧ x.start = s.nextBeacon g ∧ x.body = (t.seg g).beacon ∧
             x.wire = [plainMpdu (t.rd (K.segs.BP_COUNT g) % 4096) x.body] ∧ x.chans = (s.members g).filter s.enabled) ∧
         ((∀ n ∈ s.members g, s.enabled n = false) → t.line.nextFrame = s.line.nextFrame) ∧
         OnlyChanges [.now, .free, .dict, .perf, .tracker, .tides, .mac, .flash, .line] s t) ∧
     ((s.seg g).period = none ∨ field (s.limit g 9) 4 2 = 0 ∨ s.segEnabled g = false → exec (.reachBeacon g) s = .next s) ∧
     (∀ p start : Nat, (s.seg g).period = some p → field (s.limit g 9) 4 2 ≠ 0 → s.segEnabled g = true →
       (∃ n ∈ s.members g, s.enabled n = true) → start = s.slotStart g p ((s.seg g).region.getD 2 1) →
       ((s.atDeadline start).coupledTo g = [] →
         ∃ t x, exec (.reachBeacon g) s = .next t ∧ t.now = max s.now start ∧ t.frame? s.line.nextFrame = some x ∧ x.seg = g ∧
           x.wave = (if field (s.limit g 9) 4 2 = 2 then .s2 else .s1) ∧ x.sf = field (s.limit g 9) 0 4 ∧
           x.type = 0 ∧ x.dst = 0xFFFF ∧ x.start = start ∧ x.body = (t.seg g).reach ∧
           x.body.length = 36 + 6 * (s.members g).length + 8 * ((s.seg g).allocs.filter fun a => a.kind == 2).length ∧
           x.wire = [plainMpdu (s.rd (K.segs.BP_COUNT g) % 4096) x.body] ∧ x.len = mpduLen x.body.length 0 ∧
           x.chans = (s.members g).filter s.enabled ∧ (t.seg g).period = some p ∧
           OnlyRegs [K.times.UNSYNC_SECONDS, K.trks.PHASE_STEP_COUNT] s t ∧
           OnlyChanges [.now, .free, .dict, .perf, .tracker, .tides, .mac, .line] s t) ∧
       ((s.atDeadline start).coupledTo g ≠ [] → (s.atDeadline start).claimTime = true →
         (∀ c, (s.atDeadline start).ownClaim g ((s.atDeadline start).dtOf start / dtSecond) = some c → c = []) →
         ∃ t, exec (.reachBeacon g) s = .next t ∧ t.now = max s.now start ∧ t.line.frames = s.line.frames ∧ t.mac = s.mac)))

/-- Downlink frames are planned with the best trial; lane and wake frames take a free sub-lane and end in blanking. Rests on
R171 (06_tide_tables.md), R190 (07_medium_access.md), R203 (07_medium_access.md), R110 (04_swell_mode.md), R111
(04_swell_mode.md), R112 (04_swell_mode.md), R117 (04_swell_mode.md), R222 (07_medium_access.md). -/
def Obligations.PlannedAndLaneFramesCarryTheirMpdus : Prop :=
  (∀ (g i start stop : Nat) (ack : Bool) (s : State), s.coreUp (segCore g) = true →
     (s.segEnabled g = false → exec (.downlinkPlan g i start stop ack) s = .next s) ∧
     (∀ u, s.segEnabled g = true → i < 131072 → u = s.dropLanes i →
       (u.standAt g (u.ep i).addr none start = none ∨ u.planGroup g i = [] → exec (.downlinkPlan g i start stop ack) s = .next u) ∧
       (∀ (at_ : Stand) (d : Down) (ds : List Down), u.standAt g (u.ep i).addr none start = some at_ → (u.ep i).seg = g →
         u.reachable i = true → u.linkReady i = true → u.planGroup g i = d :: ds →
         (∀ (r : Trial) (x : TxFrame), d.type ≠ 6 → (u.ep i).lrMode = 0 →
           u.planTrial i start (min stop at_.upto) ack = some r → x = u.ofdmTx g i start ack (u.fill r.info [] (d :: ds)) r →
           u.fill r.info [] (d :: ds) ≠ [] → u.canStand x at_ = true →
           ∃ t w, exec (.downlinkPlan g i start stop ack) s = .next t ∧ t.frame? s.line.nextFrame = some { x with wire := w } ∧
             x.dst = (s.ep i).addr ∧ x.ackReq = ack ∧ x.start = start ∧ x.tmi = r.choice.desc.tmi ∧ x.tide = r.choice.cls ∧
             x.psc ≤ r.psc ∧ x.stop ≤ stop ∧ (∀ c ∈ t.mac.queue, c.id ∈ x.mpdus → c.frame = some s.line.nextFrame) ∧ t.now = s.now ∧
             OnlyChanges [.dict, .mac, .line] s t) ∧
         (∀ x : TxFrame, d.type ≠ 6 → (u.ep i).lrMode ≠ 0 → d.route = [] → u.downLen d ≤ 255 → d.frameType ≠ 7 →
           at_.suits .ofdm = false → x = u.swellTx g i start ack d → x.stop + u.roomOf x ≤ min stop at_.upto → u.canStand x at_ = true →
           ∃ t w, exec (.downlinkPlan g i start stop ack) s = .next t ∧ t.frame? s.line.nextFrame = some { x with wire := w } ∧
             x.wave = (if (s.ep i).lrMode = 2 then .s2 else .s1) ∧ x.sf = (s.ep i).lrSf + 7 ∧ x.len = u.downLen d ∧
             (∀ c ∈ t.mac.queue, c.id = d.id → c.frame = some s.line.nextFrame) ∧ t.now = s.now ∧
             OnlyChanges [.dict, .mac, .line] s t) ∧
         (∀ (k b psc : Nat) (x : TxFrame), d.type = 6 → d.kind = .sounding k → b = u.nextSlotStart g (start + ofdmHead - 1) k →
           psc = min (min 32 (field (ofLe d.body) 24 6))
             (min (u.slotEdge g b 1 - b) (u.maxFrame g - ofdmHead) / ofdmSymbol (field (ofLe d.body) 30 2)) → psc ≠ 0 →
           x = { u.ofdmTx g i (b - ofdmHead) false [d] ⟨⟨3, ⟨0, 0, field (ofLe d.body) 30 2, 0⟩⟩, psc, 0⟩ with
             type := 6, psc := psc, stop := b + psc * ofdmSymbol (field (ofLe d.body) 30 2), tide := 0 } →
           x.stop ≤ min stop at_.upto → u.canStand x at_ = true →
           ∃ t, exec (.downlinkPlan g i start stop ack) s = .next t ∧ t.frame? s.line.nextFrame = some x ∧ x.start = b - ofdmHead ∧
             x.dst = (s.ep i).addr ∧ (∀ c ∈ t.mac.queue, c.id = d.id → c.frame = some s.line.nextFrame) ∧ t.now = s.now ∧
             OnlyChanges [.mac, .line] s t))) ∧
     (s.nextResponse g = none → exec (.downlinkPlan g 131072 start stop ack) s = .next s) ∧
     (∀ (d : Down) (at_ : Stand) (q : Nat) (x : TxFrame), s.segEnabled g = true → s.nextResponse g = some d → d.seq = some q →
       s.standAt g 0xFFFE (some d.id) start = some at_ → field (ofLe d.body) 124 2 = 0 →
       x = { s.robustFrame g 5 0xFFFE 1 start [] (plainMpdu q d.body) with ackReq := d.entry.isSome, mpdus := [d.id], entry := d.entry } →
       x.stop + s.roomOf x ≤ min stop at_.upto → s.canStand x at_ = true →
       ∃ t, exec (.downlinkPlan g 131072 start stop ack) s = .next t ∧ t.frame? s.line.nextFrame = some x ∧
         (∀ c ∈ t.mac.queue, c.id = d.id → c.frame = some s.line.nextFrame) ∧ t.now = s.now ∧ OnlyChanges [.mac, .line] s t) ∧
     (s.nextBroadcast g = none → exec (.downlinkPlan g 131073 start stop ack) s = .next s) ∧
     (∀ (d : Down) (at_ : Stand) (q : Nat) (m : List Byte) (x : TxFrame), s.segEnabled g = true → s.nextBroadcast g = some d →
       q = d.seq.getD (s.seg g).bcastSeq → s.standAt g 0xFFFF none start = some at_ → s.fcReady g = true →
       m = sealMpdu (some (s.slot g).key) s.flash.eui64 d.pri (s.tagLen g)
         ⟨q, keyClass g, s.tagLen g == 16, s.rd (K.key.TX_FC g)⟩ d.body →
       x = { s.robustFrame g d.type 0xFFFF d.pri start [] m with mpdus := [d.id] } → x.stop ≤ min stop at_.upto →
       s.canStand x at_ = true →
       ∃ t, exec (.downlinkPlan g 131073 start stop ack) s = .next t ∧ t.frame? s.line.nextFrame = some x ∧ x.tmi = 0 ∧ x.tide = 3 ∧
         (∀ c ∈ t.mac.queue, c.id = d.id → c.frame = some s.line.nextFrame ∧ c.seq = some q) ∧
         t.rd (K.key.TX_FC g) = s.rd (K.key.TX_FC g) + 1 ∧ t.now = s.now ∧ OnlyChanges [.dict, .mac, .line] s t)) ∧
  ((∀ (id i : Nat) (d : Down) (ns : List Nat) (a b : TxFrame) (s : State), s.running = true →
     (s.mac.queue.find? fun d => d.id == id) = some d → d.entry = some i → s.segEnabled d.seg = true → d.lane = true → d.frame = none →
     d.held = none → s.laneChans i = ns → ns ≠ [] → s.hasLane i = true → s.reachable i = true → s.linkReady i = true →
     s.seqRoom i d = true → a = s.laneFrame d i false ns (laneGrid s.now) → b = s.laneFrame d i true ns (laneGrid s.now) →
     (s.laneHolds false ns (laneGrid s.now) a.stop = [] → s.ackDueBefore ns a.stop = false →
       ∃ t w, exec (.laneFramePlace id) s = .next t ∧ t.frame? s.line.nextFrame = some { a with wire := [w] } ∧
         (∀ n, t.chan n = s.chan n) ∧ (∀ c ∈ t.mac.queue, c.id = id → c.frame = some s.line.nextFrame) ∧ id ∉ t.line.laneWait ∧
         t.now = s.now ∧ OnlyChanges [.dict, .mac, .line] s t) ∧
     (s.laneHolds false ns (laneGrid s.now) a.stop ≠ [] ∨ s.ackDueBefore ns a.stop = true → (∀ f ∈ s.onLane true ns, f.2.type ≠ 9) →
       (s.laneHolds true ns (laneGrid s.now) b.stop = [] →
         ∃ t w, exec (.laneFramePlace id) s = .next t ∧ t.frame? s.line.nextFrame = some { b with wire := [w] } ∧
           (∀ c ∈ t.mac.queue, c.id = id → c.frame = some s.line.nextFrame) ∧ id ∉ t.line.laneWait ∧ t.now = s.now ∧
           OnlyChanges [.dict, .mac, .line] s t) ∧
       (∀ n, s.laneHolds true ns (laneGrid s.now) b.stop ≠ [] → ns = [n] → n < 256 → id ∉ s.line.laneWait →
         ∃ t, exec (.laneFramePlace id) s = .next t ∧ t.line = { s.line with laneWait := s.line.laneWait ++ [id] } ∧
           Counted (K.chs.LANE_P0_DEFERRED n) s t ∧ OnlyRegs [K.chs.LANE_P0_DEFERRED n] s t ∧ OnlyChanges [.dict, .perf, .line] s t)) ∧
     (∀ (n f j : Nat) (y c : TxFrame), s.laneHolds false ns (laneGrid s.now) a.stop ≠ [] → s.frame? f = some y → s.onLane true ns = [(f, y)] →
       f < s.line.nextFrame → y.type = 9 → y.started = true → y.entry = some j → y.chans = [n] → n < 256 → laneGrid s.now < y.stop →
       c = s.laneFrame d i true ns (max (laneGrid s.now) (y.stopAt s.now)) → y.start < c.stop →
       ∃ t w, exec (.laneFramePlace id) s = .next t ∧ t.frame? s.line.nextFrame = some { c with wire := [w] } ∧
         t.frame? f = some { y with cut := true, stop := y.stopAt s.now } ∧ Counted (K.chs.LANE_WAKE_CUT n) s t ∧
         Tbl.at? t.line.wakes j = some (ofLe (y.body.drop 1), 0) ∧ t.now = s.now ∧ OnlyChanges [.dict, .perf, .mac, .line] s t)) ∧
   (∀ (id : Nat) (s : State), s.running = true → (s.mac.queue.find? fun d => d.id == id) = none →
     exec (.laneFramePlace id) s = .next (s.modLine fun l => { l with laneWait := l.laneWait.filter (· ≠ id) })) ∧
   (∀ (f : Nat) (ready : List Nat) (x : TxFrame) (s : State), s.running = true → s.frame? f = some x → isLane x.wave = true →
     (x.started = false → x.ended = false → x.ready = true → x.chans ≠ [] →
       (∀ n ∈ x.chans, s.inGap x.seg [n] x.start x.stop = false) →
       ((∀ n ∈ x.chans, s.inService n = true ∧ (s.chan n).swell.on = true ∧ (s.chan n).laneRx = none) →
         ∃ t, exec (.laneFrameStart f ready) s = .next t ∧ t.now = max s.now x.start ∧ t.frame? f = some { x with started := true } ∧
           (∀ n, t.chan n = s.chan n) ∧ OnlyChanges [.now, .free, .dict, .perf, .tracker, .tides, .svc, .mac, .line] s t) ∧
       (∀ (n r : Nat) (y : Reception), x.chans = [n] → s.inService n = true → (s.chan n).swell.on = true → (s.chan n).laneRx = some r →
         s.rx? r = some y →
         ∃ t, exec (.laneFrameStart f ready) s = .next t ∧ t.frame? f = some { x with started := true } ∧ t.rx? r = none ∧
           (t.chan n).laneRx = none) ∧
       (x.type ≠ 9 → (∃ n ∈ x.chans, s.inService n = false ∨ (s.chan n).swell.on = false) →
         ∃ t, exec (.laneFrameStart f ready) s = .next t ∧ t.frame? f = none ∧
           OnlyChanges [.now, .free, .dict, .perf, .tracker, .tides, .mac, .line] s t) ∧
       (∀ j : Nat, x.type = 9 → x.entry = some j → (∃ n ∈ x.chans, s.inService n = false ∨ (s.chan n).swell.on = false) →
         ∃ t, exec (.laneFrameStart f ready) s = .next t ∧ t.frame? f = none ∧
           Tbl.at? t.line.wakes j = some (ofLe (x.body.drop 1), 0))) ∧
     (x.started = true → x.ended = false → x.chans.Nodup → (∀ n ∈ x.chans, n < 256) → s.line.laneWait = [] → s.line.wakes = [] →
       (x.type ≠ 9 → x.ackReq = true →
         ∃ t, exec (.laneFrameEnd f) s = .next t ∧ t.now = max s.now x.stop ∧ t.frame? f = some { x with ended := true } ∧
           (∀ n ∈ x.chans, t.chan n = { s.chan n with laneBlank := some (x.stop + swellSymbol true x.sf) } ∧
             (x.cut = false → Counted (K.chs.LANE_TX_FRAMES n) s t) ∧
             (x.cut = true → t.rd (K.chs.LANE_TX_FRAMES n) = s.rd (K.chs.LANE_TX_FRAMES n))) ∧
           (∀ n, n ∉ x.chans → t.chan n = s.chan n) ∧ OnlyChanges [.now, .free, .dict, .perf, .tracker, .tides, .line] s t) ∧
       (∀ j : Nat, x.type = 9 → x.entry = some j → x.cut = false → (s.ep j).adrift = true → (s.seg x.seg).winding = false →
         ∃ t, exec (.laneFrameEnd f) s = .next t ∧ t.now = max s.now x.stop ∧ t.frame? f = none ∧ Counted (K.segs.WAKES_SENT x.seg) s t ∧
           EpBecomes j { s.ep j with listen := some (x.stop, x.stop + t.slotTicks (ofLe (x.body.take 1))) } s t ∧
           OnlyChanges [.now, .free, .dict, .perf, .tracker, .tides, .mac, .line] s t))) ∧
   (∀ (n : Nat) (s : State), s.running = true →
     ((s.chan n).laneBlank = none → exec (.laneBlankEnd n) s = .next s) ∧
     (∀ b, (s.chan n).laneBlank = some b →
       ∃ t, exec (.laneBlankEnd n) s = .next t ∧ t.now = max s.now b ∧ t.chan n = { s.chan n with laneBlank := none } ∧
         (∀ m, m ≠ n → t.chan m = s.chan m) ∧ OnlyChanges [.now, .free, .dict, .perf, .tracker, .tides, .line] s t)) ∧
   (∀ (i : Nat) (s : State), s.running = true →
     (Tbl.at? s.line.wakes i = none → exec (.wakeFrame i) s = .next s) ∧
     (∀ (reason from_ start : Nat) (ns : List Nat), Tbl.at? s.line.wakes i = some (reason, from_) → ns = s.laneChans i →
       start = max from_ s.now →
       ((s.ep i).adrift = false → s.asleep i = false → s.legsOf i = [] →
         exec (.wakeFrame i) s = .next (s.modLine fun l => { l with wakes := Tbl.del l.wakes i })) ∧
       ((s.ep i).adrift = true ∨ s.asleep i = true → s.segEnabled (s.ep i).seg = false ∨ s.wakePossible i = false →
         exec (.wakeFrame i) s = .next (s.modLine fun l => { l with wakes := Tbl.del l.wakes i })) ∧
       ((s.ep i).adrift = true ∨ s.asleep i = true → s.segEnabled (s.ep i).seg = true → s.wakePossible i = true →
         s.fcReady (s.wakeSlot i) = false → exec (.wakeFrame i) s = .next s) ∧
       (∀ pre first timed, (s.ep i).adrift = true ∨ s.asleep i = true → s.segEnabled (s.ep i).seg = true → s.wakePossible i = true →
         s.fcReady (s.wakeSlot i) = true → ns ≠ [] → (∀ f ∈ s.onLane true ns, f.2.type ≠ 9) →
         s.wakeForm i start (s.laneBFree ns start) (fun a p => (s.laneHolds true ns a
           (a + swellTicks true 9 (mpduLen 2 (s.tagLen (s.ep i).seg)) ((s.ep i).laneSf + 7) p)).isEmpty) = some (pre, first, timed) →
         ∃ t w, exec (.wakeFrame i) s = .next t ∧ Tbl.at? t.line.wakes i = none ∧
           t.frame? s.line.nextFrame = some { s.wakeTx i reason pre first ns with wire := [w] } ∧
           EpBecomes i { s.ep i with txSeq := ((s.ep i).txSeq + 1) % 4096 } s t ∧ (∀ n, t.chan n = s.chan n) ∧ t.now = s.now ∧
           OnlyChanges [.dict, .mac, .line] s t))))

/-- Acquisition runs from detection through timing mark, coarse and fine trim, or gives the channel up. Rests on R121
(05_receive_pipeline.md), R122 (05_receive_pipeline.md), R124 (05_receive_pipeline.md), R125 (05_receive_pipeline.md), R126
(05_receive_pipeline.md), R130 (05_receive_pipeline.md), R53 (02_line_ports.md), R32 (02_line_ports.md). -/
def Obligations.AcquisitionRunsFromDetectionToTheFineTrim : Prop :=
  (∀ (n sf gamma : Nat) (wave : Wave) (seen : Preamble) (s : State), s.running = true → gamma = gammaOf (preambleRho seen wave) →
    (s.inService n = false ∨ preambleDetects seen wave (s.chan n).cfg.detectLevel = false →
      exec (.detection n wave sf seen) s = .next s) ∧
    (isLane wave = false → s.blanked n = true → exec (.detection n wave sf seen) s = .next s) ∧
    (isLane wave = true → (s.chan n).swell.on = false ∨ s.laneBlanked n = true ∨ (s.chan n).laneRx.isSome = true →
      exec (.detection n wave sf seen) s = .next s) ∧
    (∀ (r : Nat) (x : Reception), isLane wave = false → (s.chan n).rx = some r → s.rx? r = some x →
      (∀ m, x.member? n = some m → m.declared = true) → exec (.detection n wave sf seen) s = .next s) ∧
    (isLane wave = false → s.inService n = true → s.blanked n = false → (s.chan n).rx = none →
      preambleDetects seen wave (s.chan n).cfg.detectLevel = true →
      ∃ t, exec (.detection n wave sf seen) s = .next t ∧ t.rx? s.line.nextRx = some (s.newRx n wave sf [newMember n gamma]) ∧
        t.chan n = { s.chan n with
          rx := some s.line.nextRx, frozen := true, gain := (s.chan n).gainAt s.now, gainFrom := min (s.chan n).gainFrom s.now } ∧
        (∀ m, m ≠ n → t.chan m = s.chan m) ∧ Counted (K.chs.DETECT_COUNT n) s t ∧ OnlyRegs [K.chs.DETECT_COUNT n] s t ∧
        OnlyChanges [.dict, .perf, .line] s t) ∧
    (∀ (r : Nat) (x : Reception) (m : RxMember), isLane wave = false → s.inService n = true → s.blanked n = false → (s.chan n).rx = some r →
      s.rx? r = some x → x.wave = wave → x.sf = sf → x.members = [m] → m.chan = n → m.declared = false → (s.chan n).gainFrom ≤ s.now →
      preambleDetects seen wave (s.chan n).cfg.detectLevel = true →
      ∃ t, exec (.detection n wave sf seen) s = .next t ∧
        t.rx? r = some { x with members := [{ m with declared := true, snr := gamma }], detected := s.now } ∧
        (t.chan n).frozen = true ∧ (t.chan n).rx = some r ∧ Counted (K.chs.DETECT_COUNT n) s t ∧ OnlyChanges [.dict, .perf, .line] s t) ∧
    (isLane wave = true → s.inService n = true → (s.chan n).swell.on = true → s.laneBlanked n = false → (s.chan n).laneRx = none →
      ∃ t, exec (.detection n wave sf seen) s = .next t ∧ t.chan n = { s.chan n with laneRx := some s.line.nextRx } ∧
        t.rx? s.line.nextRx = some (s.newRx n wave sf [newMember n gamma]) ∧ Counted (K.chs.DETECT_COUNT n) s t ∧
        OnlyChanges [.dict, .perf, .line] s t)) ∧
  (∀ (n r : Nat) (x : Reception) (m : RxMember) (s : State), s.running = true → n < 256 → (s.chan n).rx = some r → s.rx? r = some x →
    x.members = [m] → m.chan = n → isLane x.wave = false → x.stage = .detected →
    (m.declared = false ∨ m.marked = true → ∀ mark seen, exec (.timingMark n mark seen) s = .next s) ∧
    (∀ (mark : Nat) (seen : MarkSeen) (off a : Int) (p : Nat), m.declared = true → m.marked = false → off = markOffset seen x.wave x.sf →
      s.trimLast n = (a, p) →
      (2 ≤ markPeriods seen x.wave → (x.wave = .ofdm → max s.now mark ≤ x.detected + 20480) → |a + off| ≤ 24000 →
        ∃ t, exec (.timingMark n mark seen) s = .next t ∧ t.now = max s.now mark ∧
          t.rx? r = some { x with
            members := [{ m with marked := true }], stage := .marked, mark := mark
            stamp := (s.chan n).stampOf mark (markAfter x.wave x.sf (markPeriods seen x.wave)) } ∧
          t.chan n = { s.chan n with written := some (a + off, p % 64, t.now) } ∧
          OnlyChanges [.now, .free, .dict, .perf, .tracker, .tides, .line] s t) ∧
      (markPeriods seen x.wave < 2 ∨ x.wave = .ofdm ∧ x.detected + 20480 < max s.now mark →
        ∃ t, exec (.timingMark n mark seen) s = .next t ∧ Rinsed r n (K.chs.ACQ_FAIL_COUNT n) s t ∧
          (s.noOpenings r → OnlyChanges [.now, .free, .dict, .perf, .tracker, .tides, .line] s t)) ∧
      (2 ≤ markPeriods seen x.wave → (x.wave = .ofdm → max s.now mark ≤ x.detected + 20480) → 24000 < |a + off| →
        ∃ t, exec (.timingMark n mark seen) s = .next t ∧ Rinsed r n (K.chs.TRIM_RANGE_COUNT n) s t ∧
          (s.noOpenings r → OnlyChanges [.now, .free, .dict, .perf, .tracker, .tides, .line] s t))) ∧
    (∃ t, exec (.acqFail n) s = .next t ∧ t.now = max s.now (x.detected + 20480) ∧ Rinsed r n (K.chs.ACQ_FAIL_COUNT n) s t ∧
      (s.noOpenings r → OnlyChanges [.now, .free, .dict, .perf, .tracker, .tides, .line] s t))) ∧
  (∀ (n : Nat) (s : State), s.running = true → (s.chan n).rx = none → exec (.acqFail n) s = .next s ∧
    ∀ mark seen, exec (.timingMark n mark seen) s = .next s) ∧
  (∀ (r : Nat) (x : Reception) (s : State), s.running = true → s.rx? r = some x → isLane x.wave = false → x.stage = .marked →
    (∀ m, x.closed = false → s.joiners r x = [] → x.members = [m] →
      ∃ t, exec (.groupClose r) s = .next t ∧ t.now = max s.now (x.mark + 205) ∧ t.rx? r = some { x with closed := true } ∧
        (t.chan m.chan).rx = some r ∧ OnlyChanges [.now, .free, .dict, .perf, .tracker, .tides, .line] s t) ∧
    (∀ (q : Nat) (a b : RxMember) (y : Reception), x.closed = false → s.joiners r x = [(q, y)] → x.members = [a] →
      y.members = [b] → a.chan < b.chan → b.chan < 256 →
      ∃ t, exec (.groupClose r) s = .next t ∧ t.rx? q = none ∧ (t.chan a.chan).rx = some r ∧ (t.chan b.chan).rx = some r ∧
        t.rx? r = some { x with
          members := [a, b], closed := true, stamp := min x.stamp y.stamp, detected := min x.detected y.detected } ∧
        Counted (K.chs.GROUP_JOIN b.chan) s t ∧
        OnlyRegs [K.chs.GROUP_JOIN b.chan, K.times.UNSYNC_SECONDS, K.trks.PHASE_STEP_COUNT] s t ∧
        OnlyChanges [.now, .free, .dict, .perf, .tracker, .tides, .line] s t) ∧
    (∀ (seen : List CeSeen) (ms : List RxMember) (trim : Int), x.wave = .ofdm → x.closed = true → (x.members.map (·.chan)).Nodup →
      ms = x.members.map (s.trainMember seen) → trim = s.groupTrim seen x.lead ms →
      (|trim| ≤ 24000 →
        ∃ t, exec (.fineTrim r seen) s = .next t ∧ t.now = max s.now (x.begin_ + 45056) ∧
          (∀ m ∈ x.members, (t.chan m.chan).written = some (trim, (s.trimLast m.chan).2 % 64, t.now)) ∧
          t.rx? r = some { x with stage := .trained, members := ms } ∧
          OnlyChanges [.now, .free, .dict, .perf, .tracker, .tides, .line] s t) ∧
      (∀ m y1 y2, x.members = [m] → seen = [⟨m.chan, y1, y2⟩] →
        0 < snrOf (tapsOf (s.masked m.chan) y1 y2) y1 y2 → trim = (s.trimLast m.chan).1 + fineOffset (s.masked m.chan) y1 y2) ∧
      (∀ m, 24000 < |trim| → x.members = [m] → m.chan < 256 → (s.chan m.chan).rx = some r →
        ∃ t, exec (.fineTrim r seen) s = .next t ∧ Rinsed r m.chan (K.chs.TRIM_RANGE_COUNT m.chan) s t ∧
          (s.noOpenings r → OnlyChanges [.now, .free, .dict, .perf, .tracker, .tides, .line] s t))))

/-- Frame controls and lane headers are judged by their check, then by network and address. Rests on R72
(03_ofdm_line_format.md), R102 (04_swell_mode.md), R131 (05_receive_pipeline.md), R136 (05_receive_pipeline.md), R134
(05_receive_pipeline.md), R53 (02_line_ports.md). -/
def Obligations.HeadersAreJudgedByCheckThenByAddress : Prop :=
  (∀ (n r : Nat) (x : Reception) (m : RxMember) (h : HeadSeen) (bytes : List Byte) (s : State), s.running = true → n < 256 →
    (s.chan n).rx = some r → s.rx? r = some x → x.members = [m] → m.chan = n → h.chan = n → x.closed = true →
    (x.wave = .ofdm → x.stage = .trained ∧ bytes = fcDecode [(m.taps, h.carriers)]) →
    (x.wave ≠ .ofdm → x.stage = .marked ∧ bytes = swellDecode x.sf [(m.snr, h.symbols)]) → isLane x.wave = false →
    (x.wave = .ofdm → fcRead bytes = none →
      ∃ t, exec (.frameControlCheck r [h]) s = .next t ∧ t.now = max s.now x.headEnd ∧ Rinsed r n (K.chs.FC_FAIL_COUNT n) s t ∧
        (s.noOpenings r → OnlyChanges [.now, .free, .dict, .perf, .tracker, .tides, .line] s t)) ∧
    (x.wave ≠ .ofdm → swellRead false bytes = none →
      ∃ t, exec (.frameControlCheck r [h]) s = .next t ∧ t.now = max s.now x.headEnd ∧ Rinsed r n (K.chs.SWELL_HDR_FAIL n) s t ∧
        (s.noOpenings r → OnlyChanges [.now, .free, .dict, .perf, .tracker, .tides, .line] s t)) ∧
    (∀ f : FrameControl, x.wave = .ofdm → fcRead bytes = some f →
      (x.seg = none →
        ∃ t, exec (.frameControlCheck r [h]) s = .next t ∧ HeldPassively r (K.chs.FOREIGN_COUNT n) s t ∧
          OnlyChanges [.now, .free, .dict, .perf, .tracker, .tides, .line] s t) ∧
      (∀ g, x.seg = some g → f.nid ≠ s.nid g →
        ∃ t, exec (.frameControlCheck r [h]) s = .next t ∧ HeldPassively r (K.chs.FOREIGN_COUNT n) s t ∧
          (∃ y, Tbl.at? t.domain.heard (g * 65536 + f.nid) = some y ∧ y.last = t.now) ∧
          OnlyChanges [.now, .free, .dict, .perf, .tracker, .tides, .domain, .line] s t) ∧
      (∀ g, x.seg = some g → f.nid = s.nid g → f.dst ≠ 0 → f.dst ≠ 0xFFFF →
        ∃ t, exec (.frameControlCheck r [h]) s = .next t ∧ HeldPassively r (K.chs.NOT_ADDRESSED_COUNT n) s t ∧
          OnlyChanges [.now, .free, .dict, .perf, .tracker, .tides, .line] s t) ∧
      (∀ g, x.seg = some g → f.nid = s.nid g → f.dst = 0 ∨ f.dst = 0xFFFF → f.tmi ≤ 1 →
        ∃ t, exec (.frameControlCheck r [h]) s = .next t ∧ t.now = max s.now x.headEnd ∧ t.line.nextAdmit = s.line.nextAdmit + 1 ∧
          t.rx? r = some { x with
            head := ofLe bytes, stop := x.begin_ + ppduTicks f.psc f.gi, stage := .payload, admitted := s.line.nextAdmit } ∧
          Tbl.atD t.line.lastGi g 3 = f.gi ∧
          OnlyRegs [K.chs.GI_MISS n, K.times.UNSYNC_SECONDS, K.trks.PHASE_STEP_COUNT] s t ∧
          OnlyChanges [.now, .free, .dict, .perf, .tracker, .tides, .line] s t)) ∧
    (∀ (w : SwellHead) (g : Nat), x.wave ≠ .ofdm → swellRead false bytes = some w → x.seg = some g → w.nid = s.nid g →
      w.dst = 0 ∨ w.dst = 0xFFFF →
      ∃ t, exec (.frameControlCheck r [h]) s = .next t ∧
        t.rx? r = some { x with
          head := ofLe bytes, stop := x.mark + (2 + swellData w.type w.len x.sf) * swellSymbol false x.sf, stage := .payload
          admitted := s.line.nextAdmit } ∧
        OnlyChanges [.now, .free, .dict, .perf, .tracker, .tides, .line] s t)) ∧
  (∀ (n r sf : Nat) (x : Reception) (m : RxMember) (bytes : List Byte) (seen : MarkSeen) (offset : Int) (stamp : Nat) (s : State),
    s.running = true → n < 256 → (s.chan n).laneRx = some r → s.rx? r = some x → x.stage = .detected → isLane x.wave = true →
    x.members = [m] → m.chan = n → offset = swellOffset .laneA sf seen.preamble seen.pivot →
    (24000 < |offset| →
      ∃ t, exec (.laneHeaderCheck n sf bytes seen stamp) s = .next t ∧ t.rx? r = none ∧ (t.chan n).laneRx = none ∧
        Counted (K.chs.TRIM_RANGE_COUNT n) s t ∧ (s.noOpenings r → OnlyChanges [.dict, .perf, .line] s t)) ∧
    (|offset| ≤ 24000 → swellRead true bytes = none →
      ∃ t, exec (.laneHeaderCheck n sf bytes seen stamp) s = .next t ∧ t.rx? r = none ∧ (t.chan n).laneRx = none ∧
        Counted (K.chs.LANE_HDR_FAIL n) s t ∧ (s.noOpenings r → OnlyChanges [.dict, .perf, .line] s t)) ∧
    (∀ (g : Nat) (h : SwellHead), |offset| ≤ 24000 → swellRead true bytes = some h → x.seg = some g →
      (h.nid ≠ s.nid g →
        ∃ t, exec (.laneHeaderCheck n sf bytes seen stamp) s = .next t ∧ HeldPassively r (K.chs.FOREIGN_COUNT n) s t ∧
          OnlyChanges [.dict, .line] s t) ∧
      (h.nid = s.nid g → h.dst = 0 ∨ h.dst = 0xFFFF →
        ∃ t y, exec (.laneHeaderCheck n sf bytes seen stamp) s = .next t ∧ t.rx? r = some y ∧ y.stage = .payload ∧ y.sf = sf ∧
          y.offset = offset ∧ y.stamp = stamp ∧ y.head = ofLe bytes ∧
          y.stop = s.now + (swellData h.type h.len sf - ceilDiv 80 sf) * swellSymbol true sf ∧ OnlyChanges [.line] s t)))

/-- Payload is tracked, decoded, shed by class, or lost to a second preamble by the capture margin. Rests on R49
(02_line_ports.md), R137 (05_receive_pipeline.md), R138 (05_receive_pipeline.md), R149 (05_receive_pipeline.md), R145
(05_receive_pipeline.md), R146 (05_receive_pipeline.md), R147 (05_receive_pipeline.md), R148 (05_receive_pipeline.md). -/
def Obligations.PayloadIsTrackedDecodedShedOrTakenOver : Prop :=
  (∀ (r : Nat) (x : Reception) (s : State), s.running = true → s.rx? r = some x → x.wave = .ofdm →
     (x.stage ≠ .payload → (∀ symbol seen, exec (.pilotTrack r symbol seen) s = .next s) ∧
       ∀ k it bytes, exec (.codewordDecoded r k it bytes) s = .next s) ∧
     (∀ (symbol : Nat) (seen : List SymbolSeen) (fix : Int), x.stage = .payload → x.finished = false → 1 ≤ symbol → symbol ≤ x.fc.psc →
       (x.members.map (·.chan)).Nodup →
       fix = (if symbol % 8 = 0 then rateFix (meanError seen symbol x.members) (symbolAt x.fc.gi symbol - 36864) else 0) →
       ∃ t, exec (.pilotTrack r symbol seen) s = .next t ∧ t.now = max s.now (x.begin_ + symbolAt x.fc.gi (symbol + 1)) ∧
         (∀ m ∈ x.members, ∀ (a : Int) (p : Nat), s.trimLast m.chan = (a, p) →
           (fix = 0 → phaseStep p (memberError seen symbol m) = p → t.chan m.chan = s.chan m.chan) ∧
           (fix ≠ 0 ∨ phaseStep p (memberError seen symbol m) ≠ p → t.chan m.chan = { s.chan m.chan with
             written := some (clampInt (-24000) 24000 (a - fix), phaseStep p (memberError seen symbol m) % 64, t.now) })) ∧
         (∀ n, n ∉ x.chans → t.chan n = s.chan n) ∧
         t.rx? r = some { x with
           soft := x.soft ++ symbolSoft (x.fc.tmi == 0) (s.rxLoading x) symbol (combinedAt seen x.members) } ∧
         OnlyChanges [.now, .free, .dict, .perf, .tracker, .tides, .line] s t) ∧
     (∀ (k it : Nat) (bytes : List Byte) (l : Layout) (y : Reception) (u : State), x.stage = .payload → x.shed = false →
       l = s.rxLayout x → x.fc.type ≠ 6 → k < l.long + l.short →
       Tbl.at? x.words k = none → bytes.length = s.wordBytes x k → y = { x with words := Tbl.ins x.words k bytes } →
       u = (s.passTo (s.wordTick x k)).feedDecoders false →
       ((r, k) ∉ u.line.decoders → exec (.codewordDecoded r k it bytes) s = .next u) ∧
       ((r, k) ∈ u.line.decoders →
         (x.dir = none → y.payload.length < 2 * (x.fc.countM1 + 1) + 2 →
           ∃ t, exec (.codewordDecoded r k it bytes) s = .next t ∧ t.rx? r = some y ∧ (r, k) ∉ t.line.decoders ∧
             OnlyChanges [.now, .free, .dict, .perf, .tracker, .tides, .line] s t) ∧
         (∀ d z, x.dir = none → 2 * (x.fc.countM1 + 1) + 2 ≤ y.payload.length → dirRead (x.fc.countM1 + 1) l.info y.payload = some d →
           z = { y with dir := some d, claims := List.range (x.fc.countM1 + 1) } →
           (∀ j < x.mpdus, ∀ b ∈ (z.mpduSoFar z.payload j).toList, b.1.length ≤ 7) →
           ∃ t, exec (.codewordDecoded r k it bytes) s = .next t ∧ t.rx? r = some z ∧
             OnlyChanges [.now, .free, .dict, .perf, .tracker, .tides, .line] s t) ∧
         (∀ n : Nat, x.dir = none → x.chans = [n] → n < 256 → (s.chan n).rx = some r → 2 * (x.fc.countM1 + 1) + 2 ≤ y.payload.length →
           dirRead (x.fc.countM1 + 1) l.info y.payload = none →
           ∃ t, exec (.codewordDecoded r k it bytes) s = .next t ∧ Rinsed r n (K.chs.DIR_FAIL_COUNT n) s t ∧
             (s.noOpenings r → OnlyChanges [.now, .free, .dict, .perf, .tracker, .tides, .line] s t)) ∧
         (∀ (g i n : Nat) (b : List Byte), x.dir.isSome = true → x.mpdus = 1 → y.mpduSoFar y.payload 0 = some (b, n) → 7 < b.length → 11 ≤ n →
           s.srcOf x = some (g, i) → (MpduHead.read b).cls ≠ 0 → Tbl.at? x.openings 0 = none →
           s.openSlot g i (MpduHead.read b).cls = none →
           ∃ t, exec (.codewordDecoded r k it bytes) s = .next t ∧
             t.rx? r = some { y with openings := Tbl.ins x.openings 0 .noKey } ∧
             OnlyChanges [.now, .free, .dict, .perf, .tracker, .tides, .line] s t)))) ∧
  (∀ (r n : Nat) (x : Reception) (s : State), s.running = true →
     (s.shedChoice = none → exec .shed s = .next s) ∧
     (s.shedChoice = some (r, x) → s.rx? r = some x → x.chans = [n] → n < 256 →
       ∃ t, exec .shed s = .next t ∧ x.pri ≠ 0 ∧
         Counted (if x.pri = 1 then K.chs.SHED_P1 n else if x.pri = 2 then K.chs.SHED_P2 n else K.chs.SHED_P3 n) s t ∧
         t.rd (K.chs.CODEWORDS_DISCARDED n) = min (2 ^ 32 - 1) (s.rd (K.chs.CODEWORDS_DISCARDED n) + s.backlog x) ∧
         (∀ q y, s.rx? q = some y → y.stage = .payload → y.pri ≠ 0 → y.shed = false → 0 < s.backlog y → y.pri ≤ x.pri) ∧
         (s.noOpenings r → t.rx? r = some { x with shed := true, next := x.mpdus, claims := [] } ∧
           OnlyChanges [.dict, .perf, .line] s t))) ∧
  (∀ (n sf r : Nat) (wave : Wave) (seen : Preamble) (offset : Int) (x : Reception) (s : State), s.running = true →
     (s.rxOn n (isLane wave) = none → exec (.secondaryDetection n wave sf seen offset) s = .next s) ∧
     (s.rxOn n (isLane wave) = some r → s.rx? r = some x →
       (s.inService n = false ∨ s.deaf n (isLane wave) = true ∨ s.newPreamble x offset = false ∨
         preambleDetects seen wave (s.chan n).cfg.detectLevel = false ∨ ((s.chan n).found (isLane wave)).isSome = true →
         exec (.secondaryDetection n wave sf seen offset) s = .next s) ∧
       (s.inService n = true → s.deaf n (isLane wave) = false → s.newPreamble x offset = true →
         preambleDetects seen wave (s.chan n).cfg.detectLevel = true → (s.chan n).found (isLane wave) = none →
         ∃ t, exec (.secondaryDetection n wave sf seen offset) s = .next t ∧
           (isLane wave = false →
             t.chan n = { s.chan n with second := some ⟨s.now, gammaOf (preambleRho seen wave), wave, sf⟩ }) ∧
           (isLane wave = true →
             t.chan n = { s.chan n with laneSecond := some ⟨s.now, gammaOf (preambleRho seen wave), wave, sf⟩ }) ∧
           (∀ m, m ≠ n → t.chan m = s.chan m) ∧ OnlyChanges [.line] s t))) ∧
  (∀ (n r : Nat) (x : Reception) (s : State), s.running = true → n < 256 → Alone n r x s → r ≠ s.line.nextRx →
     (s.seconds x = [] → exec (.captureDecision r) s = .next s) ∧
     (∀ y : Second, s.seconds x = [(n, y)] → isLane y.wave = false →
       ((x.stage ≠ .payload ∧ x.stage ≠ .passive) ∨ 10 ^ x.margin * x.metric ^ 10 ≤ y.metric ^ 10 →
         (∀ p ∈ s.line.rxs, p.1 ≠ r → p.2.stage ≠ .detected) →
         ∃ t z, exec (.captureDecision r) s = .next t ∧ t.now = max s.now (y.tick + 205) ∧ t.rx? r = none ∧
           Counted (if x.stage ≠ .payload ∧ x.stage ≠ .passive then K.chs.RINSE_TAKEOVER n else K.chs.LOST_TO_CAPTURE n) s t ∧
           (t.chan n).rx = some s.line.nextRx ∧ (t.chan n).frozen = false ∧ (t.chan n).second = none ∧
           t.rx? s.line.nextRx = some z ∧ z.members = [⟨n, y.metric, false, false, []⟩] ∧ z.wave = y.wave ∧ z.sf = y.sf ∧
           z.stage = .detected ∧ z.formed = some y.tick ∧ z.detected = t.now ∧
           (s.noOpenings r → OnlyChanges [.now, .free, .dict, .perf, .tracker, .tides, .line] s t)) ∧
       (x.stage = .payload ∨ x.stage = .passive → y.metric ^ 10 < 10 ^ x.margin * x.metric ^ 10 →
         ∃ t, exec (.captureDecision r) s = .next t ∧ t.rx? r = some x ∧ Counted (K.chs.CAPTURE_IGNORED n) s t ∧
           t.chan n = { s.chan n with second := none } ∧ OnlyChanges [.now, .free, .dict, .perf, .tracker, .tides, .line] s t)))

/-- A reception ends and is acknowledged as it asked; a received or missed acknowledgement settles its MPDUs. Rests on R141
(05_receive_pipeline.md), R142 (05_receive_pipeline.md), R202 (07_medium_access.md), R203 (07_medium_access.md), R109
(04_swell_mode.md), R200 (07_medium_access.md). -/
def Obligations.ReceptionsEndAndAcknowledgementsResolve : Prop :=
  (∀ (n r : Nat) (x : Reception) (m : RxMember) (s : State), s.running = true → n < 256 → s.rx? r = some x → x.members = [m] → m.chan = n →
     (x.finished = true ∨ x.stage ≠ .payload ∧ x.stage ≠ .passive → exec (.receptionEnd r) s = .next s) ∧
     (x.finished = false → isLane x.wave = false → (s.chan n).rx = some r →
       (x.stage = .passive ∨ x.stage = .payload ∧ x.type ≠ 6 ∧ x.resolved = true ∧ (x.wantsAck = false ∨ x.acked = 0) →
         ∃ t, exec (.receptionEnd r) s = .next t ∧ t.now = max s.now x.stop ∧ t.rx? r = none ∧ (t.chan n).rx = none ∧
           (t.chan n).frozen = false ∧ (t.chan n).written = some ((t.idleTrim n).1, (t.idleTrim n).2 % 64, t.now) ∧
           OnlyChanges [.now, .free, .dict, .perf, .tracker, .tides, .line] s t) ∧
       (x.stage = .payload → x.type ≠ 6 → x.resolved = false ∨ x.wantsAck = true ∧ x.acked ≠ 0 →
         ∃ t, exec (.receptionEnd r) s = .next t ∧ t.now = max s.now x.stop ∧
           t.rx? r = some { x with finished := true, final := some (s.finalOf x) } ∧ (t.chan n).rx = none ∧ (t.chan n).frozen = false ∧
           (t.chan n).written = some ((t.idleTrim n).1, (t.idleTrim n).2 % 64, t.now) ∧
           OnlyChanges [.now, .free, .dict, .perf, .tracker, .tides, .line] s t) ∧
       (∀ (g i slot : Nat) (y : Sounding), x.wave = .ofdm → x.stage = .payload → x.type = 6 → s.srcOf x = some (g, i) →
         (s.ep i).sounding = some y → slot = (s.atDeadline x.stop).slotAtTick g (x.begin_ + ofdmHead) → bitOf y.mask slot = true →
         slot ∉ y.got →
         ∃ t, exec (.receptionEnd r) s = .next t ∧ EpBecomes i { s.ep i with sounding := some { y with got := y.got ++ [slot] } } s t ∧
           (t.chan n).rx = none ∧ OnlyChanges [.now, .free, .dict, .perf, .tracker, .tides, .mac, .line] s t)) ∧
     (x.finished = false → isLane x.wave = true → (s.chan n).laneRx = some r → x.stage = .payload →
       x.resolved = false ∨ x.acked ≠ 0 → x.wantsAck = true →
       ∃ t, exec (.receptionEnd r) s = .next t ∧ (t.chan n).laneRx = none ∧ (t.chan n).ackDue = some x.ackAt ∧
         OnlyChanges [.now, .free, .dict, .perf, .tracker, .tides, .line] s t) ∧
     (∀ (c : Instr) (ready : List Nat), c = (if x.wave = .ofdm then .ackSend r ready else .swellAckSend r ready) →
       (x.finished = false ∨ x.wantsAck = false → exec c s = .next s) ∧
       (x.finished = true → x.wantsAck = true → x.resolved = false →
         ∃ t, exec c s = .next t ∧ t.now = max s.now x.ackAt ∧ t.rx? r = some x.unasked ∧ (isLane x.wave = true → (t.chan n).ackDue ≠ some x.ackAt) ∧
           (x.pri = 0 → Counted (K.chs.ACK_LATE n) s t) ∧
           (x.pri ≠ 0 → OnlyRegs [K.times.UNSYNC_SECONDS, K.trks.PHASE_STEP_COUNT] s t) ∧
           OnlyChanges [.now, .free, .dict, .perf, .tracker, .tides, .line] s t) ∧
       (x.finished = true → x.wantsAck = true → x.resolved = true → x.acked = 0 →
         ∃ t, exec c s = .next t ∧ t.rx? r = none ∧ t.line.frames = s.line.frames ∧
           OnlyChanges [.now, .free, .dict, .perf, .tracker, .tides, .line] s t) ∧
       (x.finished = true → x.wantsAck = true → x.resolved = true → x.acked ≠ 0 → s.inService n = true →
         (s.atDeadline x.ackAt).inGap (x.seg.getD 0) [n] x.ackAt (s.ackFrame x x.ackAt).stop = false →
         (n ∈ ready → (isLane x.wave = true → s.onLane false [n] = [] ∧ (s.chan n).laneRx = none) →
           ∃ t f, exec c s = .next t ∧ t.now = max s.now x.ackAt ∧ t.rx? r = none ∧ t.frame? s.line.nextFrame = some f ∧ f.chans = [n] ∧
             f.start = x.stop + (if x.wave = .ofdm then 24576 else swellTurn (isLane x.wave) x.sf) ∧ f.dst = x.src ∧ f.ackReq = false ∧
             f.started = true ∧ f.type = (if x.wave = .ofdm ∧ x.acked ≠ 2 ^ (x.fc.countM1 + 1) - 1 then 3 else 2) ∧
             (f.type = 3 → f.tmi = x.acked) ∧ OnlyChanges [.now, .free, .dict, .perf, .tracker, .tides, .line] s t) ∧
         (n ∉ ready →
           ∃ t, exec c s = .next t ∧ t.rx? r = none ∧ t.line.frames = s.line.frames ∧ Counted (K.chs.LATE_FRAME_COUNT n) s t ∧
             OnlyChanges [.now, .free, .dict, .perf, .tracker, .tides, .line] s t)))) ∧
  (∀ (f i : Nat) (x : TxFrame) (d : Down) (a : AckSeen) (s : State), s.running = true → s.frame? f = some x → x.ackReq = true →
     x.ended = true → x.entry = some i → x.cls = none → x.mpdus = [d.id] → (s.mac.queue.find? fun e => e.id == d.id) = some d →
     d.kind = .command → d.entry = some i → d.route = [] → d.lane = false → ofLe (d.body.take 1) ≠ 7 → ofLe (d.body.take 1) ≠ 8 →
     (s.seg x.seg).winding = false → (s.seg d.seg).winding = false →
     (s.ackMeets x a (s.ep i).addr ((d.seq.getD 0) % 256) = false → exec (.ackReceive f a) s = .next s) ∧
     (s.ackMeets x a (s.ep i).addr ((d.seq.getD 0) % 256) = true →
       (a.type = 2 ∨ bitOf a.info 0 = true →
         ∃ t, exec (.ackReceive f a) s = .next t ∧ t.now = max s.now a.start ∧ t.frame? f = none ∧
           t.mac.queue = s.mac.queue.filter (fun e => e.id ≠ d.id) ∧
           (isLane x.wave = false → (t.ep i).tauKnown = true) ∧ (∀ j, j ≠ i → t.ep j = s.ep j) ∧
           OnlyChanges [.now, .free, .dict, .perf, .tracker, .tides, .mac, .line] s t) ∧
       (a.type ≠ 2 → bitOf a.info 0 = false → d.tries < 8 →
         ∃ t, exec (.ackReceive f a) s = .next t ∧ t.frame? f = none ∧
           t.mac.queue = s.mac.queue.map (fun e => if e.id = d.id then { e with frame := none } else e) ∧
           OnlyChanges [.now, .free, .dict, .perf, .tracker, .tides, .mac, .line] s t)) ∧
     (∀ c : Instr, c = (if x.wave = .ofdm then .ackWindowExpiry f else .swellAckWindowExpiry f) →
       (d.tries < 8 →
         ∃ t, exec c s = .next t ∧ t.now = max s.now (s.ackWindow x).2 ∧ t.frame? f = none ∧
           t.mac.queue = s.mac.queue.map (fun e => if e.id = d.id then { e with frame := none } else e) ∧
           (x.wave ≠ .ofdm → x.chans.headD 0 < 256 → Counted (K.chs.LANE_ACK_MISSED (x.chans.headD 0)) s t) ∧ (∀ j, t.ep j = s.ep j) ∧
           OnlyChanges [.now, .free, .dict, .perf, .tracker, .tides, .mac, .line] s t) ∧
       (8 ≤ d.tries → d.seg < 64 → x.chans.headD 0 < 256 →
         ∃ t, exec c s = .next t ∧ t.frame? f = none ∧ t.mac.queue = s.mac.queue.filter (fun e => e.id ≠ d.id) ∧
           Counted (K.segs.MPDU_ABANDONED d.seg) s t ∧ OnlyChanges [.now, .free, .dict, .perf, .tracker, .tides, .mac, .line] s t)) ∧
     (x.wave = .ofdm → exec (.swellAckWindowExpiry f) s = .next s) ∧ (x.wave ≠ .ofdm → exec (.ackWindowExpiry f) s = .next s))

/-- MPDUs of a reception are resolved in index order, each by the first rule that applies. Rests on R138
(05_receive_pipeline.md), R139 (05_receive_pipeline.md), R140 (05_receive_pipeline.md), R143 (05_receive_pipeline.md), R205
(07_medium_access.md), R207 (07_medium_access.md), R208 (07_medium_access.md), R315 (10_keys_and_cipher_engines.md). -/
def Obligations.MpdusAreResolvedInOrderByTheFirstRuleThatApplies : Prop :=
  ∀ (r g n j : Nat) (x y : Reception) (m : RxMember) (work : MpduWork) (raw : List Byte) (s : State), s.running = true →
    s.rx? r = some x → x.seg = some g → g < 64 → n < 256 → x.members = [m] → m.chan = n →
    (x.stage ≠ .payload ∨ x.next ≠ j ∨ x.mpdus ≤ j → exec (.mpduResolve r j work) s = .next s) ∧
    (x.stage = .payload → x.next = j → j < x.mpdus → x.wave = .ofdm → x.mpduBytes x.payload j = none →
      exec (.mpduResolve r j work) s = .next s) ∧
    (x.stage = .payload → x.next = j → j < x.mpdus → x.finished = false → s.noOpening r j →
      (x.wave = .ofdm → x.mpduBytes x.payload j = some raw ∧ y = x) →
      (x.wave ≠ .ofdm → x.raw = some raw ∧ y = x ∨
        x.raw = none ∧ work.raw = raw ∧ raw.length = field x.head 52 8 ∧ y = { x with raw := some raw, claims := [0] }) →
      (s.knownSrc g x.src = none → x.type ≠ 4 →
        ∃ t, exec (.mpduResolve r j work) s = .next t ∧ Counted (K.segs.UNKNOWN_SRC g) s t ∧
          t.rx? r = some { y with next := j + 1, claims := y.claims.filter (· ≠ j) } ∧
          OnlyRegs [K.segs.UNKNOWN_SRC g] s t ∧ OnlyChanges [.dict, .perf, .line] s t) ∧
      (s.knownSrc g x.src = none → x.type = 4 → x.src = 0xFFFE → work.noBuffer = false → mpduCrcOk raw = true →
        (MpduHead.read raw).cls = 0 →
        ∃ t, exec (.mpduResolve r j work) s = .next t ∧ Counted (K.chs.MPDU_COMMIT n) s t ∧
          t.mac = { s.mac with requests := s.mac.requests ++ [⟨g, none, mpduBody raw, x.metric, x.wave, x.sf⟩] } ∧
          (∃ z, t.rx? r = some z ∧ z.next = j + 1 ∧ z.acked = x.acked + 2 ^ j) ∧ OnlyChanges [.dict, .perf, .mac, .line] s t) ∧
      (∀ i : Nat, s.knownSrc g x.src = some i →
        (work.noBuffer = true → mpduCrcOk raw = false ∨ (MpduHead.read raw).cls = 0 ∨ (Tbl.at? x.openings j).isSome = true →
          ∃ t, exec (.mpduResolve r j work) s = .next t ∧ Counted (K.chs.MPDU_NO_BUFFER n) s t ∧
            t.rx? r = some { y with next := j + 1, claims := y.claims.filter (· ≠ j) } ∧
            OnlyRegs [K.chs.MPDU_NO_BUFFER n] s t ∧ OnlyChanges [.dict, .perf, .line] s t) ∧
        (work.noBuffer = false → mpduCrcOk raw = false →
          ∃ t, exec (.mpduResolve r j work) s = .next t ∧ Counted (K.chs.MPDU_CRC_FAIL n) s t ∧
            t.rx? r = some { y with next := j + 1, claims := y.claims.filter (· ≠ j) } ∧
            (unwatched x → OnlyRegs [K.chs.MPDU_CRC_FAIL n] s t ∧ OnlyChanges [.dict, .perf, .line] s t)) ∧
        (work.noBuffer = false → mpduCrcOk raw = true → (MpduHead.read raw).cls = 0 → x.type ≠ 0 → x.type ≠ 4 → x.type ≠ 5 →
          ∃ t, exec (.mpduResolve r j work) s = .next t ∧ Counted (K.chs.MPDU_NO_KEY n) s t ∧
            t.rx? r = some { y with next := j + 1, claims := y.claims.filter (· ≠ j) } ∧
            (unwatched x → OnlyRegs [K.chs.MPDU_NO_KEY n] s t ∧ OnlyChanges [.dict, .perf, .line] s t)) ∧
        (work.noBuffer = false → mpduCrcOk raw = true → (MpduHead.read raw).cls ≠ 0 →
          (∀ c : Reg,
            (Tbl.at? x.openings j = some .noKey ∨
              Tbl.at? x.openings j = none ∧ s.openSlot g i (MpduHead.read raw).cls = none) ∧ c = K.chs.MPDU_NO_KEY n ∨
              Tbl.at? x.openings j = some .tagFail ∧ c = K.chs.MPDU_TAG_FAIL n ∨
              Tbl.at? x.openings j = some .keyErased ∧ c = K.chs.MPDU_KEY_ERASED n →
            ∃ t, exec (.mpduResolve r j work) s = .next t ∧ Counted c s t ∧ (∃ z, t.rx? r = some z ∧ z.next = j + 1 ∧ z.acked = x.acked) ∧
              (unwatched x → OnlyRegs [c] s t ∧ OnlyChanges [.dict, .perf, .line] s t)) ∧
          (Tbl.at? x.openings j = some .waits → exec (.mpduResolve r j work) s = .next (s.modRx r fun _ => y)) ∧
          (∀ (slot : Nat) (key : List Byte), Tbl.at? x.openings j = some (.good slot key) →
            (windowJudge (s.ep i).windowEmpty (s.ep i).rxTop (s.ep i).rxWindow (MpduHead.read raw).seq = none → x.wave = .ofdm →
              ∃ t, exec (.mpduResolve r j work) s = .next t ∧ Counted (K.chs.MPDU_DUPLICATE n) s t ∧
                (∃ z, t.rx? r = some z ∧ z.next = j + 1 ∧ z.acked = x.acked + 2 ^ j) ∧
                (unwatched x → t.mac = s.mac ∧ OnlyRegs [K.chs.MPDU_DUPLICATE n] s t ∧ OnlyChanges [.dict, .perf, .line] s t)) ∧
            (∀ top win, windowJudge (s.ep i).windowEmpty (s.ep i).rxTop (s.ep i).rxWindow (MpduHead.read raw).seq = some (top, win) →
              ((s.ep i).replays (MpduHead.read raw).fc = true →
                ∃ t, exec (.mpduResolve r j work) s = .next t ∧ Counted (K.chs.MPDU_REPLAY n) s t ∧
                  (∃ z, t.rx? r = some z ∧ z.next = j + 1 ∧ z.acked = x.acked) ∧ (unwatched x → t.mac = s.mac)) ∧
              (∀ (code : Byte) (body : List Byte), (s.ep i).replays (MpduHead.read raw).fc = false → unwatched x → x.firstDone = true →
                x.wave = .ofdm → x.type = 8 → slot < 1024 → (s.slot slot).key = key →
                (ccmOpenMpdu key (s.ep i).eui x.pri raw).1 = code :: body → code.toNat ∈ [1, 2, 3, 5, 9, 10, 11] →
                ∃ t, exec (.mpduResolve r j work) s = .next t ∧ Counted (K.chs.MPDU_COMMIT n) s t ∧ Counted (K.key.USE_COUNT slot) s t ∧
                  t.mac.committed = s.mac.committed ++ [(i, body)] ∧
                  EpBecomes i { s.ep i with
                    rxTop := top, rxWindow := win, windowEmpty := false
                    rxFc := if (s.ep i).windowEmpty then (MpduHead.read raw).fc else max (s.ep i).rxFc (MpduHead.read raw).fc
                    trim := (s.rxFinal x).1
                    phases := (s.ep i).phases.set (s.position (s.ep i).seg n) (Tbl.atD (s.rxFinal x).2 n 0) } s t ∧
                  (∃ z, t.rx? r = some z ∧ z.next = j + 1 ∧ z.acked = x.acked + 2 ^ j) ∧ OnlyChanges [.dict, .perf, .mac, .line] s t))))))

/-- Draivitar messages are checked in order; peers, couplings and claims follow their messages and deadlines. Rests on R253
(08_segments_and_repeating.md), R254 (08_segments_and_repeating.md), R255 (08_segments_and_repeating.md), R256
(08_segments_and_repeating.md), R257 (08_segments_and_repeating.md), R258 (08_segments_and_repeating.md), R259
(08_segments_and_repeating.md), R260 (08_segments_and_repeating.md), R261 (08_segments_and_repeating.md). -/
def Obligations.DraivitarMessagesPeersCouplingsAndClaimsAct : Prop :=
  (∀ (addr header body cmac good : List Byte) (h : DrvHead) (c : Instr) (type slot : Nat) (s : State), s.coreUp 6 = true →
     slot = s.rd K.dom.DOMAIN_KEY_SLOT → slot < 1024 → good = cmacOf s.domainKey (header ++ body) →
     ((c, type) ∈ drvCommands addr header body cmac → drvRead header = none ∨ s.flag K.dom.DOMAIN_ENABLE = false ∨
       drvRead header = some h ∧ (h.type ≠ type ∨ h.version ≠ 1 ∨ h.len ≠ body.length ∨ h.domain ≠ s.domain.id) → exec c s = .next s) ∧
     ((c, type) ∈ drvCommands addr header body cmac → s.flag K.dom.DOMAIN_ENABLE = true → DrvFrom type header body h s →
       (s.slotUsable slot = false →
         ∃ t, exec c s = .next t ∧ Counted K.doms.DRV_AUTH_FAIL s t ∧ OnlyRegs [K.doms.DRV_AUTH_FAIL] s t ∧ OnlyChanges [.dict] s t) ∧
       (s.slotUsable slot = true → cmac ≠ good →
         ∃ t, exec c s = .next t ∧ Counted K.doms.DRV_AUTH_FAIL s t ∧ Counted (K.key.USE_COUNT slot) s t ∧
           OnlyRegs [K.doms.DRV_AUTH_FAIL, K.key.USE_COUNT slot, K.key.STATE slot, K.key.NEAR_LIMIT_SEEN slot] s t ∧ OnlyChanges [.dict] s t) ∧
       (s.slotUsable slot = true → cmac = good → s.drvStale h = true →
         ∃ t, exec c s = .next t ∧ Counted K.doms.DRV_STALE s t ∧ Counted (K.key.USE_COUNT slot) s t ∧
           OnlyRegs [K.doms.DRV_STALE, K.key.USE_COUNT slot, K.key.STATE slot, K.key.NEAR_LIMIT_SEEN slot] s t ∧ OnlyChanges [.dict] s t)) ∧
     (∀ eui : Nat, s.flag K.dom.DOMAIN_ENABLE = true → drvRead header = some h → h.type = 1 → h.version = 1 → h.len = 17 → body.length = 17 →
       h.domain = s.domain.id → h.src = s.domain.number → eui = ofBe ((body.drop 8).take 8) →
       (s.slotUsable slot = true →
         ∃ t, exec (.hello addr header body good) s = .next t ∧
           t.flag K.doms.DEVICE_CLASH = (s.flag K.doms.DEVICE_CLASH || decide (eui ≠ s.flash.eui64)) ∧ Counted (K.key.USE_COUNT slot) s t ∧
           OnlyChanges [.dict] s t) ∧
       (cmac ≠ good ∨ s.slotUsable slot = false → exec (.hello addr header body cmac) s = .next s))) ∧
  ((∀ (addr header body cmac : List Byte) (h : DrvHead) (s : State), DrvReady s → cmac = cmacOf s.domainKey (header ++ body) → s.drvStale h = false →
     (DrvFrom 1 header body h s → body.length = 17 →
       ∃ t, exec (.hello addr header body cmac) s = .next t ∧
         t.peer h.src = { s.peer h.src with last := some (h.seq, h.sent), hello := some s.now, addr := addr, segments := ofBe (body.take 8), eui := ofBe ((body.drop 8).take 8) } ∧
         (∀ d, d ≠ h.src → t.peer d = s.peer d) ∧ t.rd K.doms.PEERS_PRESENT = (Tbl.count t.domain.peers fun _ p => p.hello.isSome) % 2 ^ 16 ∧
         OnlyChanges [.dict, .domain] s t) ∧
     (DrvFrom 2 header body h s → body.length % 6 = 0 → (s.peer h.src).hello.isSome = true →
       ∃ t, exec (.coupling header body cmac) s = .next t ∧
         t.peer h.src = { s.peer h.src with last := some (h.seq, h.sent), couplings := couplingRead (body.length / 6) body } ∧
         (∀ d, d ≠ h.src → t.peer d = s.peer d) ∧ OnlyChanges [.dict, .domain] s t) ∧
     (DrvFrom 2 header body h s → (s.peer h.src).hello = none →
       ∃ t, exec (.coupling header body cmac) s = .next t ∧ t.peer h.src = { s.peer h.src with last := some (h.seq, h.sent) } ∧
         OnlyChanges [.dict, .domain] s t)) ∧
   (∀ (d : Nat) (s : State), s.coreUp 6 = true →
     ((s.peer d).hello = none → exec (.peerAbsent d) s = .next s) ∧
     (∀ at' : Nat, (s.peer d).hello = some at' →
       ∃ t, exec (.peerAbsent d) s = .next t ∧ t.now = max s.now (at' + 2048000000) ∧
         t.peer d = { s.peer d with hello := none, couplings := [], claims := [] } ∧ (∀ e, e ≠ d → t.peer e = s.peer e) ∧
         t.rd K.doms.PEERS_PRESENT = (Tbl.count t.domain.peers fun _ p => p.hello.isSome) % 2 ^ 16 ∧
         OnlyChanges [.now, .free, .dict, .perf, .tracker, .tides, .domain] s t)) ∧
   (∀ s : State, s.coreUp 6 = true →
     (s.flag K.dom.DOMAIN_ENABLE = false → exec .helloSend s = .next s ∧ exec .couplingSend s = .next s) ∧
     (∀ u : State, DrvReady s → u = (match s.domain.helloAt with
         | some at' => s.atDeadline (at' + 409600000)
         | none => s) →
       ∃ t, exec .helloSend s = .next t ∧ t.now = u.now ∧ t.domain.helloAt = some u.now ∧
         DrvSends 1 none (beBytes 8 (((List.range 64).filter s.segEnabled).map fun g => 2 ^ g).sum ++ beBytes 8 s.flash.eui64 ++
           beBytes 1 (boolNat u.claimTime)) u t ∧ OnlyChanges [.dict, .bh, .domain] u t) ∧
     (DrvReady s →
       ∃ t body, exec .couplingSend s = .next t ∧ t.domain.couplingAt = some s.now ∧ DrvSends 2 none body s t ∧
         body.length = 6 * min 1486 (s.domain.heard.filter fun h => reachesDb h.2.level (s.rd K.dom.COUPLE_LEVEL)).length ∧
         OnlyChanges [.dict, .bh, .domain] s t)) ∧
   (∀ (g nid : Nat) (s : State), s.coreUp 6 = true →
     (Tbl.at? s.domain.heard (g * 65536 + nid) = none → exec (.coupleAgeExpiry g nid) s = .next s) ∧
     (∀ x : Heard, Tbl.at? s.domain.heard (g * 65536 + nid) = some x →
       ∃ t, exec (.coupleAgeExpiry g nid) s = .next t ∧ t.now = max s.now (x.last + 409600000 * s.rd K.dom.COUPLE_AGE) ∧
         Tbl.at? t.domain.heard (g * 65536 + nid) = none ∧ OnlyKeys [g * 65536 + nid] s.domain.heard t.domain.heard ∧
         OnlyChanges [.now, .free, .dict, .perf, .tracker, .tides, .domain] s t))) ∧
  ((∀ (g n : Nat) (s : State), s.coreUp 6 = true → n = s.dt / dtSecond + 2 →
     (s.segEnabled g = false ∨ s.claimTime = false ∨ s.coupledTo g = [] ∨ (Tbl.at? (s.seg g).claims (2 * n)).isSome = true ∨
       (Tbl.at? (s.seg g).claims (2 * n + 1)).isSome = true → exec (.slotMapSend g) s = .next s) ∧
     (∀ cs : List Claim, s.segEnabled g = true → s.claimTime = true → s.coupledTo g ≠ [] → Tbl.at? (s.seg g).claims (2 * n) = none →
       Tbl.at? (s.seg g).claims (2 * n + 1) = none → cs = (s.makeClaim g n).take 1024 →
       ∃ t, exec (.slotMapSend g) s = .next t ∧ Tbl.at? (t.seg g).claims (2 * n) = some cs ∧ (∀ k, k ≠ g → t.seg k = s.seg k) ∧
         (s.coupledDevices g = [] → OnlyChanges [.mac] s t) ∧
         (∀ d, s.coupledDevices g = [d] → DrvReady s → DrvSends 3 (some d) (s.slotMapBody g n cs) s t ∧
           OnlyChanges [.dict, .mac, .bh, .domain] s t))) ∧
   (∀ (header body cmac : List Byte) (h : DrvHead) (n sec g : Nat) (s : State), DrvReady s → cmac = cmacOf s.domainKey (header ++ body) → s.drvStale h = false →
     DrvFrom 3 header body h s → 12 ≤ body.length → g = ofBe (body.take 1) → n = ofBe ((body.drop 2).take 2) →
     sec = ofBe ((body.drop 4).take 4) → n ≤ 1024 → body.length = 12 + 6 * n → s.claimTime = true → (s.peer h.src).hello.isSome = true →
     (s.secondTick sec < s.now + 204800000 →
       ∃ t, exec (.slotMap header body cmac) s = .next t ∧ Counted K.doms.CLAIMS_LATE s t ∧
         t.peer h.src = { s.peer h.src with last := some (h.seq, h.sent) } ∧ OnlyChanges [.dict, .domain] s t) ∧
     (s.now + 204800000 ≤ s.secondTick sec →
       ∃ t, exec (.slotMap header body cmac) s = .next t ∧
         (g, sec, s.now, claimsRead (ofBe ((body.drop 8).take 4)) n (body.drop 12)) ∈ (t.peer h.src).claims ∧
         (∀ c ∈ (t.peer h.src).claims, c.1 = g → c.2.1 = sec → c.2.2.1 = s.now) ∧ t.rd K.doms.CLAIMS_LATE = s.rd K.doms.CLAIMS_LATE ∧
         OnlyChanges [.dict, .domain] s t)) ∧
   (∀ (g : Nat) (s : State), s.coreUp 6 = true → g < 64 →
     (s.openClaim g = none → exec (.claimResolve g) s = .next s) ∧
     (∀ n : Nat, s.openClaim g = some n →
       ∃ t cs, exec (.claimResolve g) s = .next t ∧ t.now = max s.now (s.secondTick n - 204800000) ∧
         Tbl.at? (t.seg g).claims (2 * n) = Tbl.at? (s.seg g).claims (2 * n) ∧ Tbl.at? (t.seg g).claims (2 * n + 1) = some cs ∧
         (∀ c ∈ Tbl.atD (s.seg g).claims (2 * n) [], c.beacon = true → c ∈ cs) ∧ (∀ k, k ≠ g → t.seg k = s.seg k) ∧
         OnlyRegs [K.segs.YIELDED_SLOTS g, K.segs.BEACON_CLASH g, K.segs.CR_CLASH g, K.times.UNSYNC_SECONDS, K.trks.PHASE_STEP_COUNT] s t ∧
         OnlyChanges [.now, .free, .dict, .perf, .tracker, .tides, .mac] s t)))

/-- Roaming moves an entry by query, offer and accept, each with its own deadline. Rests on R262 (08_segments_and_repeating.md),
R263 (08_segments_and_repeating.md), R264 (08_segments_and_repeating.md), R414 (13_backhaul_port.md). -/
def Obligations.RoamingMovesTheEntryByQueryOfferAndAccept : Prop :=
  (∀ (header body cmac : List Byte) (h : DrvHead) (eui : Nat) (s : State), DrvReady s → cmac = cmacOf s.domainKey (header ++ body) → s.drvStale h = false →
    eui = ofBe (body.take 8) →
    (∀ i, DrvFrom 4 header body h s → body.length = 16 → s.epOfEui eui = some i → (s.ep i).state ≠ 1 → (s.ep i).eui = eui →
      (s.handOver? eui = none → s.legsOf i = [] →
        ∃ t, exec (.roamQuery header body cmac) s = .next t ∧ t.handOver? eui = some ⟨h.src, some s.now, []⟩ ∧
          DrvSends 5 (some h.src) (offerHead eui 0 0 (s.ep i).leaseEnd (s.ep i).driftBound (s.sleepNow (s.ep i)) 0) s t ∧
          OnlyChanges [.dict, .bh, .domain] s t) ∧
      (∀ x : HandOver, s.handOver? eui = some x →
        ∃ t, exec (.roamQuery header body cmac) s = .next t ∧ t.handOver? eui = some x ∧
          DrvSends 5 (some h.src) (offerHead eui (if x.offered.isSome then 3 else 1) x.querier 0 0 Sleep.none 0) s t ∧
          OnlyChanges [.dict, .bh, .domain] s t)) ∧
    (DrvFrom 4 header body h s → s.epOfEui eui = none →
      ∃ t, exec (.roamQuery header body cmac) s = .next t ∧ t.bh = s.bh ∧ t.domain.handOvers = s.domain.handOvers ∧
        OnlyChanges [.dict, .domain] s t) ∧
    (∀ q : Query, DrvFrom 5 header body h s → 24 ≤ body.length → s.query? eui = some q →
      (ofBe ((body.drop 8).take 1) = 1 ∨ ofBe ((body.drop 8).take 1) = 3 ∧ q.repeated = true →
        ∃ t, exec (.roamOffer header body cmac) s = .next t ∧ t.query? eui = none ∧ Counted K.doms.ROAM_NO_OFFER s t ∧
          OnlyChanges [.dict, .domain] s t) ∧
      (ofBe ((body.drop 8).take 1) = 3 → q.repeated = false →
        ∃ t, exec (.roamOffer header body cmac) s = .next t ∧ t.query? eui = some { q with again := some (s.now + 1024000000) } ∧
          OnlyChanges [.dict, .domain] s t) ∧
      (ofBe ((body.drop 8).take 1) = 0 → q.legs = [] → ofBe ((body.drop 22).take 2) = 0 → (s.ep q.entry).eui = eui →
        (∀ d ∈ s.mac.queue, ¬ (d.kind = .sleepEcho ∧ d.entry = some q.entry)) →
        ∃ t, exec (.roamOffer header body cmac) s = .next t ∧ t.query? eui = none ∧ Counted K.doms.ROAMED_IN s t ∧
          EpBecomes q.entry { s.ep q.entry with leaseEnd := laterLease (s.ep q.entry).leaseEnd (ofBe ((body.drop 11).take 4)), driftBound := ofBe ((body.drop 15).take 1), echo := some ⟨ofBe ((body.drop 16).take 2), ofBe ((body.drop 18).take 2), ofBe ((body.drop 20).take 1), ofBe ((body.drop 21).take 1)⟩ } s t ∧
          DrvSends 6 (some h.src) (beBytes 8 eui ++ beBytes 2 0) s t ∧ OnlyChanges [.dict, .mac, .flash, .bh, .line, .domain] s t)) ∧
    (∀ (x : HandOver) (i at' : Nat), DrvFrom 6 header body h s → body.length = 10 → s.handOver? eui = some x → s.epOfEui eui = some i →
      x.offered = some at' → (s.ep i).seg < 64 → s.legsOf i = [] →
      (x.querier = h.src → (s.ep i).state = 2 →
        ∃ t, exec (.roamAccept header body cmac) s = .next t ∧ t.handOver? eui = some { x with offered := none } ∧
          Counted K.doms.ROAMED_OUT s t ∧ Expires i s.now s t ∧ (t.ep i).movedTo = some h.src ∧
          OnlyChanges [.dict, .mac, .flash, .line, .domain] s t) ∧
      (x.querier ≠ h.src →
        ∃ t, exec (.roamAccept header body cmac) s = .next t ∧ t.handOver? eui = some x ∧ t.mac = s.mac ∧ OnlyChanges [.dict, .domain] s t))) ∧
  (∀ (eui : Nat) (s : State), s.coreUp 6 = true →
    (s.query? eui = none → exec (.roamOfferWaitExpiry eui) s = .next s ∧ exec (.roamRequery eui) s = .next s) ∧
    (s.handOver? eui = none → exec (.roamAcceptTimeout eui) s = .next s) ∧
    (∀ q : Query, s.query? eui = some q →
      (q.again = none → exec (.roamRequery eui) s = .next s ∧
        ∃ t, exec (.roamOfferWaitExpiry eui) s = .next t ∧ t.now = max s.now (q.sent + 819200000) ∧ t.query? eui = none ∧
          Counted K.doms.ROAM_NO_OFFER s t ∧ OnlyChanges [.now, .free, .dict, .perf, .tracker, .tides, .domain] s t) ∧
      (∀ (at' : Nat) (u : State), q.again = some at' → u = s.atDeadline at' → DrvReady s → (s.ep q.entry).eui = eui →
        exec (.roamOfferWaitExpiry eui) s = .next s ∧
        ∃ t, exec (.roamRequery eui) s = .next t ∧ t.query? eui = some ⟨q.entry, u.now, none, true, []⟩ ∧
          DrvSends 4 none (beBytes 8 eui ++ beBytes 4 (s.globalAddr (s.ep q.entry).seg (s.ep q.entry).addr) ++
            beBytes 4 (s.ep q.entry).leaseEnd) u t ∧ OnlyChanges [.dict, .bh, .domain] u t)) ∧
    (∀ (x : HandOver) (at' : Nat), s.handOver? eui = some x → x.offered = some at' → x.legs = [] →
      ∃ t, exec (.roamAcceptTimeout eui) s = .next t ∧ t.now = max s.now (at' + 819200000) ∧ t.handOver? eui = none ∧
        OnlyChanges [.now, .free, .dict, .perf, .tracker, .tides, .domain] s t)) ∧
  (∀ (header body cmac msg : List Byte) (h : DrvHead) (m : NbMsg) (x : Txn) (s : State), DrvReady s → cmac = cmacOf s.domainKey (header ++ body) → s.drvStale h = false →
    DrvFrom 7 header body h s →
    (nbRead body = none → ∃ t, exec (.txnRelay header body cmac) s = .next t ∧ t.txn = s.txn ∧ t.bh = s.bh ∧ OnlyChanges [.dict, .domain] s t) ∧
    (nbRead body = some m → m.type = 1 → s.txn? ((h.src + 1) * 2 ^ 32 + m.id) = some x → x.sent = [msg] → m.id < 2 ^ 32 →
      ∃ t, exec (.txnRelay header body cmac) s = .next t ∧ Counted K.doms.TXN_RELAYED s t ∧ DrvSends 7 (some h.src) msg s t ∧
        t.txn = s.txn ∧ OnlyChanges [.dict, .bh, .domain] s t))

/-- Northbound requests are refused, repeated from the cache, or opened and answered. Rests on R268 (09_transactions.md), R274
(09_transactions.md), R275 (09_transactions.md), R279 (09_transactions.md), R280 (09_transactions.md), R282
(09_transactions.md), R283 (09_transactions.md), R284 (09_transactions.md), R291 (09_transactions.md), R292
(09_transactions.md), R412 (13_backhaul_port.md). -/
def Obligations.RequestsAreJudgedAnsweredAndNeverRunTwice : Prop :=
  ∀ (k : Nat) (msg : List Byte) (s : State), s.coreUp 5 = true → SessionsSet s → k < 16 →
    (nbRead msg = none ∨ (∃ m, nbRead msg = some m ∧ m.type ≠ 1) →
      ∃ t, exec (.request k msg) s = .next t ∧ t.bh = { s.bh with inbox := s.bh.inbox.erase (k, msg) } ∧ OnlyChanges [.bh] s t) ∧
    (∀ m : NbMsg, nbRead msg = some m → m.type = 1 →
      (requestRead m = none ∨ (∃ r, requestRead m = some r ∧ s.txn? m.id = none ∧
          (r.kind = 3 ∧ s.resolveTargets r = [] ∨ m.pri = 0 ∧ s.rd K.txn.P0_MAX_TARGETS < (s.resolveTargets r).length)) →
        ∃ t, exec (.request k msg) s = .next t ∧ Counted K.txns.BAD_REQUESTS s t ∧ Counted (K.caus.CAUSE m.pri 7) s t ∧
          NbSends k m.pri (nbHeader 3 m.pri true m.id 0 24 ++ answerBody 2 8 0 0 0 0 0) s t ∧ t.txn = s.txn ∧
          OnlyChanges [.dict, .bh, .perf] s t) ∧
      (∀ (r : NbRequest) (x : Txn), requestRead m = some r → s.txn? m.id = some x →
        (x.mark ≠ m.pri * 2 ^ 32 + crcValue crcMpdu m.body →
          ∃ t, exec (.request k msg) s = .next t ∧ Counted (K.caus.CAUSE m.pri 8) s t ∧
            NbSends k m.pri (nbHeader 3 m.pri true m.id 0 24 ++ answerBody 2 9 0 0 0 0 0) s t ∧ t.txn = s.txn ∧
            OnlyChanges [.dict, .bh, .perf] s t) ∧
        (x.mark = m.pri * 2 ^ 32 + crcValue crcMpdu m.body →
          (∀ one, x.cachedTo = none → x.sent = [one] → (∀ l ∈ x.legs, l.movedTo = none) →
            ∃ t, exec (.request k msg) s = .next t ∧ Counted K.txns.DUP_OPEN s t ∧ NbSends k x.pri one s t ∧
              t.txn? m.id = some { x with session := k } ∧ OnlyKeys [m.id] s.txn.txns t.txn.txns ∧
              OnlyChanges [.dict, .bh, .perf, .txn] s t) ∧
          (∀ one, x.cachedTo.isSome = true → x.evicted = false → x.sent = [one] →
            ∃ t, exec (.request k msg) s = .next t ∧ Counted K.txns.CACHE_HITS s t ∧ NbSends k x.pri one s t ∧
              t.txn? m.id = some { x with session := k } ∧ OnlyKeys [m.id] s.txn.txns t.txn.txns ∧
              OnlyChanges [.dict, .bh, .perf, .txn] s t) ∧
          (x.cachedTo.isSome = true → x.evicted = true →
            ∃ t, exec (.request k msg) s = .next t ∧ Counted K.txns.CACHE_HITS s t ∧
              NbSends k m.pri (nbHeader 3 m.pri true m.id 0 24 ++ answerBody 2 10 0 0 0 0 0) s t ∧
              t.txn? m.id = some { x with session := k } ∧ OnlyChanges [.dict, .bh, .perf, .txn] s t))) ∧
      (∀ (r : NbRequest) (target : Nat), requestRead m = some r → r.kind = 0 → r.targets = [target] → s.txn? m.id = none →
        (s.legEntry target = none → s.recordsAllow m.pri 1 = true → 1 ≤ s.rd K.txn.P0_MAX_TARGETS →
          ∃ t, exec (.request k msg) s = .next t ∧ Counted (K.outc.OUTCOME m.pri 2) s t ∧ Counted (K.caus.CAUSE m.pri 2) s t ∧
            NbSends k m.pri (nbHeader 3 m.pri true m.id 0 24 ++ answerBody 2 3 0 1 0 0 1) s t ∧
            (∃ y, t.txn? m.id = some y ∧ y.legs.map Leg.phase = [.ended 2 3] ∧ y.cachedTo = some (s.now + secTicks (s.rd K.txn.CACHE_TIME))) ∧
            t.mac = s.mac ∧ OnlyChanges [.dict, .bh, .perf, .txn] s t) ∧
        (s.recordsAllow m.pri 1 = false → m.pri ≠ 0 → s.legEntry target = none →
          ∃ t, exec (.request k msg) s = .next t ∧ Counted (K.outc.OUTCOME m.pri 2) s t ∧ Counted (K.caus.CAUSE m.pri 0) s t ∧
            NbSends k m.pri (nbHeader 3 m.pri true m.id 0 24 ++ answerBody 2 1 0 1 0 0 1) s t ∧ t.txn? m.id = none ∧
            OnlyChanges [.dict, .bh, .perf, .txn] s t) ∧
        (∀ i : Nat, m.pri = 0 → 1 ≤ s.rd K.txn.P0_MAX_TARGETS → s.legEntry target = some i → s.entryVerdict i 0 = none →
          s.recordsAllow 0 1 = true → r.payload.length ≤ s.fragMax 0 i → s.asleep i = false →
          ∃ t d y, exec (.request k msg) s = .next t ∧ Counted (K.outc.OUTCOME 0 0) s t ∧
            NbSends k 0 (nbHeader 3 0 false m.id 0 24 ++ answerBody 0 0 0 1 1 0 0) s t ∧
            t.mac.queue = s.mac.queue ++ [d] ∧ d.kind = .fragment m.id 0 0 true ∧ d.entry = some i ∧ d.pri = 0 ∧ d.lane = s.hasLane i ∧
            (t.ep i).lineTag = ((s.ep i).lineTag + 1) % 2 ^ 16 ∧ t.txn? m.id = some y ∧ y.cachedTo = none ∧
            y.legs.map Leg.phase = [.active] ∧ y.legs.map Leg.tag = [(s.ep i).lineTag] ∧
            OnlyChanges [.dict, .bh, .perf, .txn, .mac] s t)))

/-- An abort ends the open leg once it may, is answered once, and executes nothing on an ended transaction. Rests on R274
(09_transactions.md), R294 (09_transactions.md), R295 (09_transactions.md), R296 (09_transactions.md), R298
(09_transactions.md), R303 (09_transactions.md). -/
def Obligations.AbortsEndOpenLegsOnceAndExecuteNothingElse : Prop :=
  (∀ (k : Nat) (msg : List Byte) (s : State), s.coreUp 5 = true → SessionsSet s → k < 16 →
    (nbRead msg = none ∨ (∃ m, nbRead msg = some m ∧ m.type ≠ 2) →
      ∃ t, exec (.abort k msg) s = .next t ∧ t.bh = { s.bh with inbox := s.bh.inbox.erase (k, msg) } ∧ OnlyChanges [.bh] s t) ∧
    (∀ m : NbMsg, nbRead msg = some m → m.type = 2 → m.version ≠ 1 ∨ m.len ≠ 0 ∨ m.body ≠ [] →
      ∃ t, exec (.abort k msg) s = .next t ∧ Counted K.txns.BAD_REQUESTS s t ∧ OnlyRegs [K.txns.BAD_REQUESTS] s t ∧
        t.bh = { s.bh with inbox := s.bh.inbox.erase (k, msg) } ∧ OnlyChanges [.dict, .bh] s t) ∧
    (∀ m : NbMsg, nbRead msg = some m → m.type = 2 → m.version = 1 → m.len = 0 → m.body = [] →
      (2 ^ 31 ≤ m.id ∨ s.txn? m.id = none →
        ∃ t, exec (.abort k msg) s = .next t ∧ Counted K.txns.ABORTS s t ∧
          NbSends k m.pri (nbHeader 5 m.pri true m.id 0 12 ++ (beBytes 1 9 ++ beBytes 11 0)) s t ∧ t.txn = s.txn ∧
          OnlyChanges [.dict, .bh, .perf] s t) ∧
      (∀ x : Txn, m.id < 2 ^ 31 → s.txn? m.id = some x → x.cachedTo.isSome = true → x.many = false → x.pri < 4 →
        ∃ t, exec (.abort k msg) s = .next t ∧ Counted K.txns.ABORTS s t ∧
          NbSends k x.pri (nbHeader 5 x.pri true m.id x.nSent (x.abortBody 0).length ++ x.abortBody 0) s t ∧
          t.txn? m.id = some { x with session := k } ∧ t.mac = s.mac ∧ OnlyChanges [.dict, .bh, .perf, .txn] s t) ∧
      (∀ (x : Txn) (l : Leg), m.id < 2 ^ 31 → x.cachedTo = none → x.session = k → SoleLeg m.id 0 x l s →
        ∃ t, exec (.abort k msg) s = .next t ∧ Counted K.txns.ABORTS s t ∧ Counted (K.outc.OUTCOME x.pri 6) s t ∧
          Counted (K.caus.CAUSE x.pri (if l.delivered then 12 else 11)) s t ∧ EndsWith m.id l 6 (if l.delivered then 13 else 12) t ∧
          t.mac.queue = s.mac.queue ∧ OnlyChanges [.dict, .bh, .perf, .txn, .mac, .line] s t))) ∧
  (∀ (k j : Nat) (x : Txn) (s : State), s.coreUp 5 = true → SessionsSet s →
    (s.txn? k = none → exec (.abortTakeRecord k j) s = .next s) ∧
    (s.txn? k = some x → x.aborting = false → exec (.abortTakeRecord k j) s = .next s) ∧
    (s.legBeyond k j = true → exec (.abortTakeRecord k j) s = .next s) ∧
    (∀ l : Leg, x.aborting = true → SoleLeg k j x l s →
      ∃ t, exec (.abortTakeRecord k j) s = .next t ∧ Counted (K.outc.OUTCOME x.pri 6) s t ∧
        Counted (K.caus.CAUSE x.pri (if l.delivered then 12 else 11)) s t ∧ EndsWith k l 6 (if l.delivered then 13 else 12) t ∧
        t.mac.queue = s.mac.queue ∧ OnlyChanges [.dict, .bh, .perf, .txn, .mac, .line] s t))

/-- Legs, open messages, cached records and reports act at their deadlines and only then. Rests on R269 (09_transactions.md),
R277 (09_transactions.md), R281 (09_transactions.md), R288 (09_transactions.md), R290 (09_transactions.md), R291
(09_transactions.md), R398 (12_mains_measurement.md), R412 (13_backhaul_port.md). -/
def Obligations.LegsMessagesRecordsAndReportsKeepTheirTimes : Prop :=
  ((∀ (k j : Nat) (s : State), s.coreUp 5 = true → SessionsSet s →
     (s.leg? k j = none → exec (.legDeadline k j) s = .next s ∧ exec (.respWaitExpiry k j) s = .next s) ∧
     (∀ l, s.leg? k j = some l → l.open' = false ∨ l.movedTo.isSome = true → exec (.legDeadline k j) s = .next s) ∧
     (∀ l, s.leg? k j = some l → l.respDue = none ∨ l.open' = false → exec (.respWaitExpiry k j) s = .next s) ∧
     (∀ (x : Txn) (l : Leg), x.aborting = false → SoleLeg k j x l s →
       (∃ t, exec (.legDeadline k j) s = .next t ∧ t.now = max s.now x.deadline ∧ Counted (K.outc.OUTCOME x.pri 4) s t ∧
         Counted (K.caus.CAUSE x.pri (if l.delivered then 12 else 11)) s t ∧ EndsWith k l 4 (if l.delivered then 13 else 12) t ∧
         t.mac.queue = s.mac.queue ∧ OnlyChanges [.now, .free, .dict, .bh, .perf, .tracker, .tides, .txn, .mac, .line] s t) ∧
       (∀ at' : Nat, l.respDue = some at' → l.attempts = l.retries →
         ∃ t, exec (.respWaitExpiry k j) s = .next t ∧ t.now = max s.now at' ∧ Counted (K.outc.OUTCOME x.pri 5) s t ∧
           Counted (K.caus.CAUSE x.pri 12) s t ∧ EndsWith k l 5 13 t ∧
           OnlyChanges [.now, .free, .dict, .bh, .perf, .tracker, .tides, .txn, .mac, .line] s t) ∧
       (∀ (at' i : Nat) (u : State), l.respDue = some at' → l.attempts ≠ l.retries → l.entry = some i → u = s.atDeadline at' →
         u.entryVerdict i x.pri = none →
         ∃ t, exec (.respWaitExpiry k j) s = .next t ∧
           t.leg? k j = some { l with phase := .active, attempts := l.attempts + 1, respDue := none, acked := [] } ∧
           t.mac.queue.length = s.mac.queue.length + l.frags ∧
           OnlyChanges [.now, .free, .dict, .perf, .tracker, .tides, .txn, .mac, .line] s t))) ∧
   (∀ (c : Nat) (s : State), s.coreUp 5 = true →
     (c = 0 ∨ 4 ≤ c ∨ s.bridgedWaiting c = [] ∧ (∀ w ∈ s.txn.waiting, (s.txn? w.1).map Txn.pri ≠ some c) →
       exec (.legQuotaRelease c) s = .next s) ∧
     (∀ (d : Down) (rest : List Down) (i : Nat) (u : State), 1 ≤ c → c ≤ 3 → (∀ w ∈ s.txn.waiting, (s.txn? w.1).map Txn.pri ≠ some c) →
       s.bridgedWaiting c = d :: rest → d.entry = some i → u = s.atDeadline (s.tokensDue c 1) → u.entryVerdict i c = none →
       ∃ t, exec (.legQuotaRelease c) s = .next t ∧ t.now = u.now ∧ t.mac.queue.length = s.mac.queue.length ∧
         (∀ x ∈ t.mac.queue, x.id = d.id → x.held = none) ∧ (∀ x ∈ s.mac.queue, x.id ≠ d.id → x ∈ t.mac.queue) ∧
         Tbl.atD t.txn.tokens c 0 = u.tokensNow c - 409600000 ∧
         OnlyChanges [.now, .free, .dict, .perf, .tracker, .tides, .txn, .mac, .line] s t) ∧
     (∀ (k j i due : Nat) (x : Txn) (l : Leg) (rest : List (Nat × Nat)), 1 ≤ c → c ≤ 3 → s.txn.waiting = (k, j) :: rest → s.txn? k = some x →
       x.pri = c → s.leg? k j = some l → l.entry = some i → l.left ≤ s.rd (K.cls.QUOTA c) → (k, j) ∉ rest → l.phase = .delayed 2 →
       due = s.txn.tokensAt + ceilDiv (l.left * 409600000 - Tbl.atD s.txn.tokens c 0) (s.rd (K.cls.QUOTA c)) →
       (s.atDeadline due).entryVerdict i c = none →
       ∃ t, exec (.legQuotaRelease c) s = .next t ∧ t.now = max s.now due ∧ t.txn.waiting = rest ∧
         (t.leg? k j).map (·.phase) = some .active ∧ t.txn.tokensAt = t.now ∧
         Tbl.atD t.txn.tokens c 0 = min (s.rd (K.cls.QUOTA c) * 409600000) (Tbl.atD s.txn.tokens c 0 + s.rd (K.cls.QUOTA c) * (t.now - s.txn.tokensAt)) - l.left * 409600000 ∧
         OnlyChanges [.now, .free, .dict, .perf, .tracker, .tides, .txn, .mac, .line] s t))) ∧
  (∀ s : State, s.coreUp 5 = true → SessionsSet s →
     (∀ k : Nat, ((s.txn? k).bind Txn.openSince = none → exec (.aggTimeExpiry k) s = .next s) ∧
       (∀ (x : Txn) (at' : Nat) (u : State), k < 2 ^ 32 → x.session < 16 → x.pri < 4 → s.txn? k = some x → x.openSince = some at' → x.open_ ≠ [] →
         u = s.atDeadline (at' + msTicks x.aggTime) →
         ∃ t msg, exec (.aggTimeExpiry k) s = .next t ∧ t.now = u.now ∧
           msg = nbHeader 4 x.pri false k x.nSent x.open_.flatten.length ++ x.open_.flatten ∧
           t.txn? k = some { x with open_ := [], openSince := none, sent := x.sent ++ [msg], nSent := x.nSent + 1 } ∧
           OnlyKeys [k] s.txn.txns t.txn.txns ∧ NbSends x.session x.pri msg u t ∧
           OnlyChanges [.now, .free, .dict, .bh, .perf, .tracker, .tides, .txn] s t) ∧
       ((s.txn? k).bind Txn.cachedTo = none → exec (.cacheTimeExpiry k) s = .next s) ∧
       (∀ at' : Nat, (s.txn? k).bind Txn.cachedTo = some at' →
         ∃ t, exec (.cacheTimeExpiry k) s = .next t ∧ t.now = max s.now at' ∧ t.txn? k = none ∧ OnlyKeys [k] s.txn.txns t.txn.txns ∧
           t.txn = { s.txn with txns := t.txn.txns } ∧ OnlyChanges [.now, .free, .dict, .perf, .tracker, .tides, .txn] s t)) ∧
     (∀ id : Nat, (Tbl.at? s.txn.reports id = none → exec (.reportRepeat id) s = .next s) ∧
       (∀ (r : ReportSend) (u : State), Tbl.at? s.txn.reports id = some r → u = s.atDeadline (r.last + msTicks 10) →
         ∃ t, exec (.reportRepeat id) s = .next t ∧ t.now = u.now ∧ Counted K.txns.REPORTS_SENT s t ∧
           (s.rd K.txn.REPORT_REPEAT ≤ r.made + 1 → Tbl.at? t.txn.reports id = none) ∧
           (r.made + 1 < s.rd K.txn.REPORT_REPEAT → Tbl.at? t.txn.reports id = some ⟨r.made + 1, u.now, r.msg⟩) ∧
           ((∀ k : Nat, k < 16 → s.flag (K.sess.SESS_ENABLE k) = false) → Counted K.times.REPORTS_UNSENT s t ∧ t.bh = s.bh) ∧
           (∀ k : Nat, k < 16 → (∀ j : Nat, j < 16 → (s.flag (K.sess.SESS_ENABLE j) = true ∧ s.flag (K.sess.REPORTS j) = true ↔ j = k)) →
             NbSends k 0 r.msg u t) ∧
           OnlyChanges [.now, .free, .dict, .bh, .perf, .tracker, .tides, .txn] s t)) ∧
     (s.mains.alarms = [] → exec .alarmReport s = .next s) ∧
     (∀ (a : Alarm) (rest : List Alarm), s.mains.alarms = a :: rest → a.unit < 2 ^ 32 →
       ∃ t msg, exec .alarmReport s = .next t ∧ t.mains = { s.mains with alarms := rest } ∧ Counted K.txns.REPORTS_SENT s t ∧
         t.txn.nextReport = (if s.txn.nextReport + 1 = 2 ^ 32 then 2 ^ 31 else s.txn.nextReport + 1) ∧
         msg = nbHeader 6 0 true s.txn.nextReport 0 (8 + a.payload.length) ++
           (beBytes 1 1 ++ beBytes 1 0 ++ beBytes 2 a.payload.length ++ beBytes 4 a.unit ++ a.payload) ∧
         (1 < s.rd K.txn.REPORT_REPEAT → Tbl.at? t.txn.reports s.txn.nextReport = some ⟨1, s.now, msg⟩) ∧
         ((∀ k : Nat, k < 16 → s.flag (K.sess.SESS_ENABLE k) = false) → Counted K.times.REPORTS_UNSENT s t ∧ t.bh = s.bh) ∧
         (∀ k : Nat, k < 16 → (∀ j : Nat, j < 16 → (s.flag (K.sess.SESS_ENABLE j) = true ∧ s.flag (K.sess.REPORTS j) = true ↔ j = k)) →
           NbSends k 0 msg s t) ∧
         OnlyChanges [.dict, .svc, .bh, .perf, .txn, .mains] s t))
end

