-- ==== Sys2Proof/Laws/Dict.lean ====
section
/-! SUPPORT. The rows of the object dictionary do not overlap, so a row that holds an entry is the row of that entry; what a
dictionary write does once it has passed the checks before the object's own (R430). -/

namespace Sys2Proof.Machine

/-- Two rows share no entry. -/
def ObjRow.apart (r q : ObjRow) : Bool :=
  Nat.ble (r.base + r.count) q.base || Nat.ble (q.base + q.count) r.base || Nat.ble (r.sub + r.subs) q.sub ||
    Nat.ble (q.sub + q.subs) r.sub

/-- No two rows of a list share an entry. -/
def rowsApart : List ObjRow → Bool
  | [] => true
  | r :: rs => rs.all (r.apart ·) && rowsApart rs

theorem objRows_apart : rowsApart objRows = true := by decide +kernel

theorem ObjRow.apart_has {r q : ObjRow} (h : r.apart q = true) {i k : Nat} (hr : r.has i k = true) : q.has i k = false := by
  simp only [ObjRow.apart, ObjRow.has, ObjRow.hasIndex, Bool.or_eq_true, Nat.ble_eq, Bool.and_eq_true, decide_eq_true_eq] at *
  rw [Bool.eq_false_iff]
  simp only [ne_eq, Bool.and_eq_true, decide_eq_true_eq]
  omega

theorem rowsApart_find : ∀ (l : List ObjRow) {r : ObjRow} {i k : Nat}, rowsApart l = true → r ∈ l → r.has i k = true →
    l.find? (fun q => q.has i k) = some r
  | [], _, _, _, _, hm, _ => by cases hm
  | q :: qs, r, i, k, ha, hm, hr => by
    simp only [rowsApart, Bool.and_eq_true] at ha
    rcases List.mem_cons.1 hm with rfl | hm
    · simp [hr]
    · have hq : q.has i k = false := by
        cases h : q.has i k with
        | false => rfl
        | true =>
          have := ObjRow.apart_has (List.all_eq_true.1 ha.1 r hm) h
          rw [hr] at this
          cases this
      simp only [List.find?_cons, hq]
      exact rowsApart_find qs ha.2 hm hr

/-- A row that holds an entry is the row of that entry. -/
theorem objRow?_of_mem {r : ObjRow} {i k : Nat} (hm : r ∈ objRows) (hr : r.has i k = true) : objRow? i k = some r :=
  rowsApart_find objRows objRows_apart hm hr

theorem objIndex?_of_mem {r : ObjRow} {i k : Nat} (hm : r ∈ objRows) (hr : r.has i k = true) : objIndex? i = true :=
  List.any_eq_true.2 ⟨r, hm, by simp only [ObjRow.has, Bool.and_eq_true] at hr; exact hr.1.1⟩

/-- While C0 runs its firmware, every path is answered. -/
theorem State.answers_of_coreUp {s : State} (h : s.coreUp 0 = true) (via : Path) : s.running = true ∧ s.answers via = true := by
  simp only [State.coreUp, Bool.and_eq_true] at h
  simp [State.answers, State.pathUp, h.1, h.2]

/-- While C0 runs its firmware, a write that passes checks 2 to 4 of R430 is judged by its length and the object's own rules. -/
theorem State.dictWrite_running {s : State} {via : Path} {env : WriteEnv} {i k : Nat} {data : List Byte} {r : ObjRow}
    (hup : s.coreUp 0 = true) (hm : r ∈ objRows) (hr : r.has i k = true) (ha : r.access ≠ .ro)
    (hl : r.level ≤ s.levelOf via) :
    s.dictWrite via env i k data = (s.objWrite via env i k r data).answered := by
  obtain ⟨hrun, hans⟩ := State.answers_of_coreUp hup via
  have hd : s.definesIndex i = true := by simp [State.definesIndex, objIndex?_of_mem hm hr, hrun]
  have hw : s.writeLevel i k r = r.level := by simp [State.writeLevel, hrun]
  have hw' : s.writeRefused via i k = .inr r := by
    simp [State.writeRefused, hd, objRow?_of_mem hm hr, ha, hw, hl]
  simp [State.dictWrite, hans, State.writeObject, hw']

/-- While C0 runs its firmware, a read that passes checks 2 to 4 of R430 returns the object. -/
theorem State.dictRead_running {s : State} {via : Path} {i k : Nat} {r : ObjRow} (hup : s.coreUp 0 = true)
    (hm : r ∈ objRows) (hr : r.has i k = true) (ha : r.access ≠ .wo) (hl : s.readLevel r ≤ s.levelOf via) :
    s.dictRead via i k = (s.objRead i k r).2.answer 0 (s.objRead i k r).1 := by
  obtain ⟨hrun, hans⟩ := State.answers_of_coreUp hup via
  have hd : s.definesIndex i = true := by simp [State.definesIndex, objIndex?_of_mem hm hr, hrun]
  have hw' : s.readRefused via i k = .inr r := by
    simp [State.readRefused, hd, objRow?_of_mem hm hr, ha, hl]
  simp [State.dictRead, hans, State.readObject, hw']

end Sys2Proof.Machine
end

