-- ==== Sys2Proof/Laws/State.lean ====
section
/-! SUPPORT. What each update changes, and that it changes nothing else: one lemma per field per update. -/

namespace Sys2Proof.Machine

variable (s : State)

@[simp] theorem State.modPending_pending (f : List Instr → List Instr) : (s.modPending f).pending = f s.pending := rfl
@[simp] theorem State.modPending_now (f : List Instr → List Instr) : (s.modPending f).now = s.now := rfl
@[simp] theorem State.modPending_free (f : List Instr → List Instr) : (s.modPending f).free = s.free := rfl
@[simp] theorem State.modPending_sys (f : List Instr → List Instr) : (s.modPending f).sys = s.sys := rfl
@[simp] theorem State.modPending_pins (f : List Instr → List Instr) : (s.modPending f).pins = s.pins := rfl
@[simp] theorem State.modPending_dict (f : List Instr → List Instr) : (s.modPending f).dict = s.dict := rfl
@[simp] theorem State.modPending_blobs (f : List Instr → List Instr) : (s.modPending f).blobs = s.blobs := rfl
@[simp] theorem State.modPending_mgmt (f : List Instr → List Instr) : (s.modPending f).mgmt = s.mgmt := rfl
@[simp] theorem State.modPending_flash (f : List Instr → List Instr) : (s.modPending f).flash = s.flash := rfl
@[simp] theorem State.modPending_keys (f : List Instr → List Instr) : (s.modPending f).keys = s.keys := rfl
@[simp] theorem State.modPending_svc (f : List Instr → List Instr) : (s.modPending f).svc = s.svc := rfl
@[simp] theorem State.modPending_wm (f : List Instr → List Instr) : (s.modPending f).wm = s.wm := rfl
@[simp] theorem State.modPending_mains (f : List Instr → List Instr) : (s.modPending f).mains = s.mains := rfl
@[simp] theorem State.modPending_bh (f : List Instr → List Instr) : (s.modPending f).bh = s.bh := rfl
@[simp] theorem State.modPending_time (f : List Instr → List Instr) : (s.modPending f).time = s.time := rfl
@[simp] theorem State.modPending_perf (f : List Instr → List Instr) : (s.modPending f).perf = s.perf := rfl
@[simp] theorem State.modPending_jtag (f : List Instr → List Instr) : (s.modPending f).jtag = s.jtag := rfl
@[simp] theorem State.modPending_loop (f : List Instr → List Instr) : (s.modPending f).loop = s.loop := rfl
@[simp] theorem State.modPending_tracker (f : List Instr → List Instr) : (s.modPending f).tracker = s.tracker := rfl
@[simp] theorem State.modPending_tides (f : List Instr → List Instr) : (s.modPending f).tides = s.tides := rfl
@[simp] theorem State.modPending_mac (f : List Instr → List Instr) : (s.modPending f).mac = s.mac := rfl
@[simp] theorem State.modPending_domain (f : List Instr → List Instr) : (s.modPending f).domain = s.domain := rfl
@[simp] theorem State.modPending_txn (f : List Instr → List Instr) : (s.modPending f).txn = s.txn := rfl
@[simp] theorem State.modPending_line (f : List Instr → List Instr) : (s.modPending f).line = s.line := rfl

@[simp] theorem State.modNow_pending (f : Nat → Nat) : (s.modNow f).pending = s.pending := rfl
@[simp] theorem State.modNow_now (f : Nat → Nat) : (s.modNow f).now = f s.now := rfl
@[simp] theorem State.modNow_free (f : Nat → Nat) : (s.modNow f).free = s.free := rfl
@[simp] theorem State.modNow_sys (f : Nat → Nat) : (s.modNow f).sys = s.sys := rfl
@[simp] theorem State.modNow_pins (f : Nat → Nat) : (s.modNow f).pins = s.pins := rfl
@[simp] theorem State.modNow_dict (f : Nat → Nat) : (s.modNow f).dict = s.dict := rfl
@[simp] theorem State.modNow_blobs (f : Nat → Nat) : (s.modNow f).blobs = s.blobs := rfl
@[simp] theorem State.modNow_mgmt (f : Nat → Nat) : (s.modNow f).mgmt = s.mgmt := rfl
@[simp] theorem State.modNow_flash (f : Nat → Nat) : (s.modNow f).flash = s.flash := rfl
@[simp] theorem State.modNow_keys (f : Nat → Nat) : (s.modNow f).keys = s.keys := rfl
@[simp] theorem State.modNow_svc (f : Nat → Nat) : (s.modNow f).svc = s.svc := rfl
@[simp] theorem State.modNow_wm (f : Nat → Nat) : (s.modNow f).wm = s.wm := rfl
@[simp] theorem State.modNow_mains (f : Nat → Nat) : (s.modNow f).mains = s.mains := rfl
@[simp] theorem State.modNow_bh (f : Nat → Nat) : (s.modNow f).bh = s.bh := rfl
@[simp] theorem State.modNow_time (f : Nat → Nat) : (s.modNow f).time = s.time := rfl
@[simp] theorem State.modNow_perf (f : Nat → Nat) : (s.modNow f).perf = s.perf := rfl
@[simp] theorem State.modNow_jtag (f : Nat → Nat) : (s.modNow f).jtag = s.jtag := rfl
@[simp] theorem State.modNow_loop (f : Nat → Nat) : (s.modNow f).loop = s.loop := rfl
@[simp] theorem State.modNow_tracker (f : Nat → Nat) : (s.modNow f).tracker = s.tracker := rfl
@[simp] theorem State.modNow_tides (f : Nat → Nat) : (s.modNow f).tides = s.tides := rfl
@[simp] theorem State.modNow_mac (f : Nat → Nat) : (s.modNow f).mac = s.mac := rfl
@[simp] theorem State.modNow_domain (f : Nat → Nat) : (s.modNow f).domain = s.domain := rfl
@[simp] theorem State.modNow_txn (f : Nat → Nat) : (s.modNow f).txn = s.txn := rfl
@[simp] theorem State.modNow_line (f : Nat → Nat) : (s.modNow f).line = s.line := rfl

@[simp] theorem State.modFree_pending (f : Nat → Nat) : (s.modFree f).pending = s.pending := rfl
@[simp] theorem State.modFree_now (f : Nat → Nat) : (s.modFree f).now = s.now := rfl
@[simp] theorem State.modFree_free (f : Nat → Nat) : (s.modFree f).free = f s.free := rfl
@[simp] theorem State.modFree_sys (f : Nat → Nat) : (s.modFree f).sys = s.sys := rfl
@[simp] theorem State.modFree_pins (f : Nat → Nat) : (s.modFree f).pins = s.pins := rfl
@[simp] theorem State.modFree_dict (f : Nat → Nat) : (s.modFree f).dict = s.dict := rfl
@[simp] theorem State.modFree_blobs (f : Nat → Nat) : (s.modFree f).blobs = s.blobs := rfl
@[simp] theorem State.modFree_mgmt (f : Nat → Nat) : (s.modFree f).mgmt = s.mgmt := rfl
@[simp] theorem State.modFree_flash (f : Nat → Nat) : (s.modFree f).flash = s.flash := rfl
@[simp] theorem State.modFree_keys (f : Nat → Nat) : (s.modFree f).keys = s.keys := rfl
@[simp] theorem State.modFree_svc (f : Nat → Nat) : (s.modFree f).svc = s.svc := rfl
@[simp] theorem State.modFree_wm (f : Nat → Nat) : (s.modFree f).wm = s.wm := rfl
@[simp] theorem State.modFree_mains (f : Nat → Nat) : (s.modFree f).mains = s.mains := rfl
@[simp] theorem State.modFree_bh (f : Nat → Nat) : (s.modFree f).bh = s.bh := rfl
@[simp] theorem State.modFree_time (f : Nat → Nat) : (s.modFree f).time = s.time := rfl
@[simp] theorem State.modFree_perf (f : Nat → Nat) : (s.modFree f).perf = s.perf := rfl
@[simp] theorem State.modFree_jtag (f : Nat → Nat) : (s.modFree f).jtag = s.jtag := rfl
@[simp] theorem State.modFree_loop (f : Nat → Nat) : (s.modFree f).loop = s.loop := rfl
@[simp] theorem State.modFree_tracker (f : Nat → Nat) : (s.modFree f).tracker = s.tracker := rfl
@[simp] theorem State.modFree_tides (f : Nat → Nat) : (s.modFree f).tides = s.tides := rfl
@[simp] theorem State.modFree_mac (f : Nat → Nat) : (s.modFree f).mac = s.mac := rfl
@[simp] theorem State.modFree_domain (f : Nat → Nat) : (s.modFree f).domain = s.domain := rfl
@[simp] theorem State.modFree_txn (f : Nat → Nat) : (s.modFree f).txn = s.txn := rfl
@[simp] theorem State.modFree_line (f : Nat → Nat) : (s.modFree f).line = s.line := rfl

@[simp] theorem State.modSys_pending (f : Sys → Sys) : (s.modSys f).pending = s.pending := rfl
@[simp] theorem State.modSys_now (f : Sys → Sys) : (s.modSys f).now = s.now := rfl
@[simp] theorem State.modSys_free (f : Sys → Sys) : (s.modSys f).free = s.free := rfl
@[simp] theorem State.modSys_sys (f : Sys → Sys) : (s.modSys f).sys = f s.sys := rfl
@[simp] theorem State.modSys_pins (f : Sys → Sys) : (s.modSys f).pins = s.pins := rfl
@[simp] theorem State.modSys_dict (f : Sys → Sys) : (s.modSys f).dict = s.dict := rfl
@[simp] theorem State.modSys_blobs (f : Sys → Sys) : (s.modSys f).blobs = s.blobs := rfl
@[simp] theorem State.modSys_mgmt (f : Sys → Sys) : (s.modSys f).mgmt = s.mgmt := rfl
@[simp] theorem State.modSys_flash (f : Sys → Sys) : (s.modSys f).flash = s.flash := rfl
@[simp] theorem State.modSys_keys (f : Sys → Sys) : (s.modSys f).keys = s.keys := rfl
@[simp] theorem State.modSys_svc (f : Sys → Sys) : (s.modSys f).svc = s.svc := rfl
@[simp] theorem State.modSys_wm (f : Sys → Sys) : (s.modSys f).wm = s.wm := rfl
@[simp] theorem State.modSys_mains (f : Sys → Sys) : (s.modSys f).mains = s.mains := rfl
@[simp] theorem State.modSys_bh (f : Sys → Sys) : (s.modSys f).bh = s.bh := rfl
@[simp] theorem State.modSys_time (f : Sys → Sys) : (s.modSys f).time = s.time := rfl
@[simp] theorem State.modSys_perf (f : Sys → Sys) : (s.modSys f).perf = s.perf := rfl
@[simp] theorem State.modSys_jtag (f : Sys → Sys) : (s.modSys f).jtag = s.jtag := rfl
@[simp] theorem State.modSys_loop (f : Sys → Sys) : (s.modSys f).loop = s.loop := rfl
@[simp] theorem State.modSys_tracker (f : Sys → Sys) : (s.modSys f).tracker = s.tracker := rfl
@[simp] theorem State.modSys_tides (f : Sys → Sys) : (s.modSys f).tides = s.tides := rfl
@[simp] theorem State.modSys_mac (f : Sys → Sys) : (s.modSys f).mac = s.mac := rfl
@[simp] theorem State.modSys_domain (f : Sys → Sys) : (s.modSys f).domain = s.domain := rfl
@[simp] theorem State.modSys_txn (f : Sys → Sys) : (s.modSys f).txn = s.txn := rfl
@[simp] theorem State.modSys_line (f : Sys → Sys) : (s.modSys f).line = s.line := rfl

@[simp] theorem State.modPins_pending (f : Pins → Pins) : (s.modPins f).pending = s.pending := rfl
@[simp] theorem State.modPins_now (f : Pins → Pins) : (s.modPins f).now = s.now := rfl
@[simp] theorem State.modPins_free (f : Pins → Pins) : (s.modPins f).free = s.free := rfl
@[simp] theorem State.modPins_sys (f : Pins → Pins) : (s.modPins f).sys = s.sys := rfl
@[simp] theorem State.modPins_pins (f : Pins → Pins) : (s.modPins f).pins = f s.pins := rfl
@[simp] theorem State.modPins_dict (f : Pins → Pins) : (s.modPins f).dict = s.dict := rfl
@[simp] theorem State.modPins_blobs (f : Pins → Pins) : (s.modPins f).blobs = s.blobs := rfl
@[simp] theorem State.modPins_mgmt (f : Pins → Pins) : (s.modPins f).mgmt = s.mgmt := rfl
@[simp] theorem State.modPins_flash (f : Pins → Pins) : (s.modPins f).flash = s.flash := rfl
@[simp] theorem State.modPins_keys (f : Pins → Pins) : (s.modPins f).keys = s.keys := rfl
@[simp] theorem State.modPins_svc (f : Pins → Pins) : (s.modPins f).svc = s.svc := rfl
@[simp] theorem State.modPins_wm (f : Pins → Pins) : (s.modPins f).wm = s.wm := rfl
@[simp] theorem State.modPins_mains (f : Pins → Pins) : (s.modPins f).mains = s.mains := rfl
@[simp] theorem State.modPins_bh (f : Pins → Pins) : (s.modPins f).bh = s.bh := rfl
@[simp] theorem State.modPins_time (f : Pins → Pins) : (s.modPins f).time = s.time := rfl
@[simp] theorem State.modPins_perf (f : Pins → Pins) : (s.modPins f).perf = s.perf := rfl
@[simp] theorem State.modPins_jtag (f : Pins → Pins) : (s.modPins f).jtag = s.jtag := rfl
@[simp] theorem State.modPins_loop (f : Pins → Pins) : (s.modPins f).loop = s.loop := rfl
@[simp] theorem State.modPins_tracker (f : Pins → Pins) : (s.modPins f).tracker = s.tracker := rfl
@[simp] theorem State.modPins_tides (f : Pins → Pins) : (s.modPins f).tides = s.tides := rfl
@[simp] theorem State.modPins_mac (f : Pins → Pins) : (s.modPins f).mac = s.mac := rfl
@[simp] theorem State.modPins_domain (f : Pins → Pins) : (s.modPins f).domain = s.domain := rfl
@[simp] theorem State.modPins_txn (f : Pins → Pins) : (s.modPins f).txn = s.txn := rfl
@[simp] theorem State.modPins_line (f : Pins → Pins) : (s.modPins f).line = s.line := rfl

@[simp] theorem State.modDict_pending (f : Tbl Nat → Tbl Nat) : (s.modDict f).pending = s.pending := rfl
@[simp] theorem State.modDict_now (f : Tbl Nat → Tbl Nat) : (s.modDict f).now = s.now := rfl
@[simp] theorem State.modDict_free (f : Tbl Nat → Tbl Nat) : (s.modDict f).free = s.free := rfl
@[simp] theorem State.modDict_sys (f : Tbl Nat → Tbl Nat) : (s.modDict f).sys = s.sys := rfl
@[simp] theorem State.modDict_pins (f : Tbl Nat → Tbl Nat) : (s.modDict f).pins = s.pins := rfl
@[simp] theorem State.modDict_dict (f : Tbl Nat → Tbl Nat) : (s.modDict f).dict = f s.dict := rfl
@[simp] theorem State.modDict_blobs (f : Tbl Nat → Tbl Nat) : (s.modDict f).blobs = s.blobs := rfl
@[simp] theorem State.modDict_mgmt (f : Tbl Nat → Tbl Nat) : (s.modDict f).mgmt = s.mgmt := rfl
@[simp] theorem State.modDict_flash (f : Tbl Nat → Tbl Nat) : (s.modDict f).flash = s.flash := rfl
@[simp] theorem State.modDict_keys (f : Tbl Nat → Tbl Nat) : (s.modDict f).keys = s.keys := rfl
@[simp] theorem State.modDict_svc (f : Tbl Nat → Tbl Nat) : (s.modDict f).svc = s.svc := rfl
@[simp] theorem State.modDict_wm (f : Tbl Nat → Tbl Nat) : (s.modDict f).wm = s.wm := rfl
@[simp] theorem State.modDict_mains (f : Tbl Nat → Tbl Nat) : (s.modDict f).mains = s.mains := rfl
@[simp] theorem State.modDict_bh (f : Tbl Nat → Tbl Nat) : (s.modDict f).bh = s.bh := rfl
@[simp] theorem State.modDict_time (f : Tbl Nat → Tbl Nat) : (s.modDict f).time = s.time := rfl
@[simp] theorem State.modDict_perf (f : Tbl Nat → Tbl Nat) : (s.modDict f).perf = s.perf := rfl
@[simp] theorem State.modDict_jtag (f : Tbl Nat → Tbl Nat) : (s.modDict f).jtag = s.jtag := rfl
@[simp] theorem State.modDict_loop (f : Tbl Nat → Tbl Nat) : (s.modDict f).loop = s.loop := rfl
@[simp] theorem State.modDict_tracker (f : Tbl Nat → Tbl Nat) : (s.modDict f).tracker = s.tracker := rfl
@[simp] theorem State.modDict_tides (f : Tbl Nat → Tbl Nat) : (s.modDict f).tides = s.tides := rfl
@[simp] theorem State.modDict_mac (f : Tbl Nat → Tbl Nat) : (s.modDict f).mac = s.mac := rfl
@[simp] theorem State.modDict_domain (f : Tbl Nat → Tbl Nat) : (s.modDict f).domain = s.domain := rfl
@[simp] theorem State.modDict_txn (f : Tbl Nat → Tbl Nat) : (s.modDict f).txn = s.txn := rfl
@[simp] theorem State.modDict_line (f : Tbl Nat → Tbl Nat) : (s.modDict f).line = s.line := rfl

@[simp] theorem State.modBlobs_pending (f : Tbl (List Byte) → Tbl (List Byte)) : (s.modBlobs f).pending = s.pending := rfl
@[simp] theorem State.modBlobs_now (f : Tbl (List Byte) → Tbl (List Byte)) : (s.modBlobs f).now = s.now := rfl
@[simp] theorem State.modBlobs_free (f : Tbl (List Byte) → Tbl (List Byte)) : (s.modBlobs f).free = s.free := rfl
@[simp] theorem State.modBlobs_sys (f : Tbl (List Byte) → Tbl (List Byte)) : (s.modBlobs f).sys = s.sys := rfl
@[simp] theorem State.modBlobs_pins (f : Tbl (List Byte) → Tbl (List Byte)) : (s.modBlobs f).pins = s.pins := rfl
@[simp] theorem State.modBlobs_dict (f : Tbl (List Byte) → Tbl (List Byte)) : (s.modBlobs f).dict = s.dict := rfl
@[simp] theorem State.modBlobs_blobs (f : Tbl (List Byte) → Tbl (List Byte)) : (s.modBlobs f).blobs = f s.blobs := rfl
@[simp] theorem State.modBlobs_mgmt (f : Tbl (List Byte) → Tbl (List Byte)) : (s.modBlobs f).mgmt = s.mgmt := rfl
@[simp] theorem State.modBlobs_flash (f : Tbl (List Byte) → Tbl (List Byte)) : (s.modBlobs f).flash = s.flash := rfl
@[simp] theorem State.modBlobs_keys (f : Tbl (List Byte) → Tbl (List Byte)) : (s.modBlobs f).keys = s.keys := rfl
@[simp] theorem State.modBlobs_svc (f : Tbl (List Byte) → Tbl (List Byte)) : (s.modBlobs f).svc = s.svc := rfl
@[simp] theorem State.modBlobs_wm (f : Tbl (List Byte) → Tbl (List Byte)) : (s.modBlobs f).wm = s.wm := rfl
@[simp] theorem State.modBlobs_mains (f : Tbl (List Byte) → Tbl (List Byte)) : (s.modBlobs f).mains = s.mains := rfl
@[simp] theorem State.modBlobs_bh (f : Tbl (List Byte) → Tbl (List Byte)) : (s.modBlobs f).bh = s.bh := rfl
@[simp] theorem State.modBlobs_time (f : Tbl (List Byte) → Tbl (List Byte)) : (s.modBlobs f).time = s.time := rfl
@[simp] theorem State.modBlobs_perf (f : Tbl (List Byte) → Tbl (List Byte)) : (s.modBlobs f).perf = s.perf := rfl
@[simp] theorem State.modBlobs_jtag (f : Tbl (List Byte) → Tbl (List Byte)) : (s.modBlobs f).jtag = s.jtag := rfl
@[simp] theorem State.modBlobs_loop (f : Tbl (List Byte) → Tbl (List Byte)) : (s.modBlobs f).loop = s.loop := rfl
@[simp] theorem State.modBlobs_tracker (f : Tbl (List Byte) → Tbl (List Byte)) : (s.modBlobs f).tracker = s.tracker := rfl
@[simp] theorem State.modBlobs_tides (f : Tbl (List Byte) → Tbl (List Byte)) : (s.modBlobs f).tides = s.tides := rfl
@[simp] theorem State.modBlobs_mac (f : Tbl (List Byte) → Tbl (List Byte)) : (s.modBlobs f).mac = s.mac := rfl
@[simp] theorem State.modBlobs_domain (f : Tbl (List Byte) → Tbl (List Byte)) : (s.modBlobs f).domain = s.domain := rfl
@[simp] theorem State.modBlobs_txn (f : Tbl (List Byte) → Tbl (List Byte)) : (s.modBlobs f).txn = s.txn := rfl
@[simp] theorem State.modBlobs_line (f : Tbl (List Byte) → Tbl (List Byte)) : (s.modBlobs f).line = s.line := rfl

@[simp] theorem State.modMgmt_pending (f : Mgmt → Mgmt) : (s.modMgmt f).pending = s.pending := rfl
@[simp] theorem State.modMgmt_now (f : Mgmt → Mgmt) : (s.modMgmt f).now = s.now := rfl
@[simp] theorem State.modMgmt_free (f : Mgmt → Mgmt) : (s.modMgmt f).free = s.free := rfl
@[simp] theorem State.modMgmt_sys (f : Mgmt → Mgmt) : (s.modMgmt f).sys = s.sys := rfl
@[simp] theorem State.modMgmt_pins (f : Mgmt → Mgmt) : (s.modMgmt f).pins = s.pins := rfl
@[simp] theorem State.modMgmt_dict (f : Mgmt → Mgmt) : (s.modMgmt f).dict = s.dict := rfl
@[simp] theorem State.modMgmt_blobs (f : Mgmt → Mgmt) : (s.modMgmt f).blobs = s.blobs := rfl
@[simp] theorem State.modMgmt_mgmt (f : Mgmt → Mgmt) : (s.modMgmt f).mgmt = f s.mgmt := rfl
@[simp] theorem State.modMgmt_flash (f : Mgmt → Mgmt) : (s.modMgmt f).flash = s.flash := rfl
@[simp] theorem State.modMgmt_keys (f : Mgmt → Mgmt) : (s.modMgmt f).keys = s.keys := rfl
@[simp] theorem State.modMgmt_svc (f : Mgmt → Mgmt) : (s.modMgmt f).svc = s.svc := rfl
@[simp] theorem State.modMgmt_wm (f : Mgmt → Mgmt) : (s.modMgmt f).wm = s.wm := rfl
@[simp] theorem State.modMgmt_mains (f : Mgmt → Mgmt) : (s.modMgmt f).mains = s.mains := rfl
@[simp] theorem State.modMgmt_bh (f : Mgmt → Mgmt) : (s.modMgmt f).bh = s.bh := rfl
@[simp] theorem State.modMgmt_time (f : Mgmt → Mgmt) : (s.modMgmt f).time = s.time := rfl
@[simp] theorem State.modMgmt_perf (f : Mgmt → Mgmt) : (s.modMgmt f).perf = s.perf := rfl
@[simp] theorem State.modMgmt_jtag (f : Mgmt → Mgmt) : (s.modMgmt f).jtag = s.jtag := rfl
@[simp] theorem State.modMgmt_loop (f : Mgmt → Mgmt) : (s.modMgmt f).loop = s.loop := rfl
@[simp] theorem State.modMgmt_tracker (f : Mgmt → Mgmt) : (s.modMgmt f).tracker = s.tracker := rfl
@[simp] theorem State.modMgmt_tides (f : Mgmt → Mgmt) : (s.modMgmt f).tides = s.tides := rfl
@[simp] theorem State.modMgmt_mac (f : Mgmt → Mgmt) : (s.modMgmt f).mac = s.mac := rfl
@[simp] theorem State.modMgmt_domain (f : Mgmt → Mgmt) : (s.modMgmt f).domain = s.domain := rfl
@[simp] theorem State.modMgmt_txn (f : Mgmt → Mgmt) : (s.modMgmt f).txn = s.txn := rfl
@[simp] theorem State.modMgmt_line (f : Mgmt → Mgmt) : (s.modMgmt f).line = s.line := rfl

@[simp] theorem State.modFlash_pending (f : Flash → Flash) : (s.modFlash f).pending = s.pending := rfl
@[simp] theorem State.modFlash_now (f : Flash → Flash) : (s.modFlash f).now = s.now := rfl
@[simp] theorem State.modFlash_free (f : Flash → Flash) : (s.modFlash f).free = s.free := rfl
@[simp] theorem State.modFlash_sys (f : Flash → Flash) : (s.modFlash f).sys = s.sys := rfl
@[simp] theorem State.modFlash_pins (f : Flash → Flash) : (s.modFlash f).pins = s.pins := rfl
@[simp] theorem State.modFlash_dict (f : Flash → Flash) : (s.modFlash f).dict = s.dict := rfl
@[simp] theorem State.modFlash_blobs (f : Flash → Flash) : (s.modFlash f).blobs = s.blobs := rfl
@[simp] theorem State.modFlash_mgmt (f : Flash → Flash) : (s.modFlash f).mgmt = s.mgmt := rfl
@[simp] theorem State.modFlash_flash (f : Flash → Flash) : (s.modFlash f).flash = f s.flash := rfl
@[simp] theorem State.modFlash_keys (f : Flash → Flash) : (s.modFlash f).keys = s.keys := rfl
@[simp] theorem State.modFlash_svc (f : Flash → Flash) : (s.modFlash f).svc = s.svc := rfl
@[simp] theorem State.modFlash_wm (f : Flash → Flash) : (s.modFlash f).wm = s.wm := rfl
@[simp] theorem State.modFlash_mains (f : Flash → Flash) : (s.modFlash f).mains = s.mains := rfl
@[simp] theorem State.modFlash_bh (f : Flash → Flash) : (s.modFlash f).bh = s.bh := rfl
@[simp] theorem State.modFlash_time (f : Flash → Flash) : (s.modFlash f).time = s.time := rfl
@[simp] theorem State.modFlash_perf (f : Flash → Flash) : (s.modFlash f).perf = s.perf := rfl
@[simp] theorem State.modFlash_jtag (f : Flash → Flash) : (s.modFlash f).jtag = s.jtag := rfl
@[simp] theorem State.modFlash_loop (f : Flash → Flash) : (s.modFlash f).loop = s.loop := rfl
@[simp] theorem State.modFlash_tracker (f : Flash → Flash) : (s.modFlash f).tracker = s.tracker := rfl
@[simp] theorem State.modFlash_tides (f : Flash → Flash) : (s.modFlash f).tides = s.tides := rfl
@[simp] theorem State.modFlash_mac (f : Flash → Flash) : (s.modFlash f).mac = s.mac := rfl
@[simp] theorem State.modFlash_domain (f : Flash → Flash) : (s.modFlash f).domain = s.domain := rfl
@[simp] theorem State.modFlash_txn (f : Flash → Flash) : (s.modFlash f).txn = s.txn := rfl
@[simp] theorem State.modFlash_line (f : Flash → Flash) : (s.modFlash f).line = s.line := rfl

@[simp] theorem State.modKeys_pending (f : Keys → Keys) : (s.modKeys f).pending = s.pending := rfl
@[simp] theorem State.modKeys_now (f : Keys → Keys) : (s.modKeys f).now = s.now := rfl
@[simp] theorem State.modKeys_free (f : Keys → Keys) : (s.modKeys f).free = s.free := rfl
@[simp] theorem State.modKeys_sys (f : Keys → Keys) : (s.modKeys f).sys = s.sys := rfl
@[simp] theorem State.modKeys_pins (f : Keys → Keys) : (s.modKeys f).pins = s.pins := rfl
@[simp] theorem State.modKeys_dict (f : Keys → Keys) : (s.modKeys f).dict = s.dict := rfl
@[simp] theorem State.modKeys_blobs (f : Keys → Keys) : (s.modKeys f).blobs = s.blobs := rfl
@[simp] theorem State.modKeys_mgmt (f : Keys → Keys) : (s.modKeys f).mgmt = s.mgmt := rfl
@[simp] theorem State.modKeys_flash (f : Keys → Keys) : (s.modKeys f).flash = s.flash := rfl
@[simp] theorem State.modKeys_keys (f : Keys → Keys) : (s.modKeys f).keys = f s.keys := rfl
@[simp] theorem State.modKeys_svc (f : Keys → Keys) : (s.modKeys f).svc = s.svc := rfl
@[simp] theorem State.modKeys_wm (f : Keys → Keys) : (s.modKeys f).wm = s.wm := rfl
@[simp] theorem State.modKeys_mains (f : Keys → Keys) : (s.modKeys f).mains = s.mains := rfl
@[simp] theorem State.modKeys_bh (f : Keys → Keys) : (s.modKeys f).bh = s.bh := rfl
@[simp] theorem State.modKeys_time (f : Keys → Keys) : (s.modKeys f).time = s.time := rfl
@[simp] theorem State.modKeys_perf (f : Keys → Keys) : (s.modKeys f).perf = s.perf := rfl
@[simp] theorem State.modKeys_jtag (f : Keys → Keys) : (s.modKeys f).jtag = s.jtag := rfl
@[simp] theorem State.modKeys_loop (f : Keys → Keys) : (s.modKeys f).loop = s.loop := rfl
@[simp] theorem State.modKeys_tracker (f : Keys → Keys) : (s.modKeys f).tracker = s.tracker := rfl
@[simp] theorem State.modKeys_tides (f : Keys → Keys) : (s.modKeys f).tides = s.tides := rfl
@[simp] theorem State.modKeys_mac (f : Keys → Keys) : (s.modKeys f).mac = s.mac := rfl
@[simp] theorem State.modKeys_domain (f : Keys → Keys) : (s.modKeys f).domain = s.domain := rfl
@[simp] theorem State.modKeys_txn (f : Keys → Keys) : (s.modKeys f).txn = s.txn := rfl
@[simp] theorem State.modKeys_line (f : Keys → Keys) : (s.modKeys f).line = s.line := rfl

@[simp] theorem State.modSvc_pending (f : Svc → Svc) : (s.modSvc f).pending = s.pending := rfl
@[simp] theorem State.modSvc_now (f : Svc → Svc) : (s.modSvc f).now = s.now := rfl
@[simp] theorem State.modSvc_free (f : Svc → Svc) : (s.modSvc f).free = s.free := rfl
@[simp] theorem State.modSvc_sys (f : Svc → Svc) : (s.modSvc f).sys = s.sys := rfl
@[simp] theorem State.modSvc_pins (f : Svc → Svc) : (s.modSvc f).pins = s.pins := rfl
@[simp] theorem State.modSvc_dict (f : Svc → Svc) : (s.modSvc f).dict = s.dict := rfl
@[simp] theorem State.modSvc_blobs (f : Svc → Svc) : (s.modSvc f).blobs = s.blobs := rfl
@[simp] theorem State.modSvc_mgmt (f : Svc → Svc) : (s.modSvc f).mgmt = s.mgmt := rfl
@[simp] theorem State.modSvc_flash (f : Svc → Svc) : (s.modSvc f).flash = s.flash := rfl
@[simp] theorem State.modSvc_keys (f : Svc → Svc) : (s.modSvc f).keys = s.keys := rfl
@[simp] theorem State.modSvc_svc (f : Svc → Svc) : (s.modSvc f).svc = f s.svc := rfl
@[simp] theorem State.modSvc_wm (f : Svc → Svc) : (s.modSvc f).wm = s.wm := rfl
@[simp] theorem State.modSvc_mains (f : Svc → Svc) : (s.modSvc f).mains = s.mains := rfl
@[simp] theorem State.modSvc_bh (f : Svc → Svc) : (s.modSvc f).bh = s.bh := rfl
@[simp] theorem State.modSvc_time (f : Svc → Svc) : (s.modSvc f).time = s.time := rfl
@[simp] theorem State.modSvc_perf (f : Svc → Svc) : (s.modSvc f).perf = s.perf := rfl
@[simp] theorem State.modSvc_jtag (f : Svc → Svc) : (s.modSvc f).jtag = s.jtag := rfl
@[simp] theorem State.modSvc_loop (f : Svc → Svc) : (s.modSvc f).loop = s.loop := rfl
@[simp] theorem State.modSvc_tracker (f : Svc → Svc) : (s.modSvc f).tracker = s.tracker := rfl
@[simp] theorem State.modSvc_tides (f : Svc → Svc) : (s.modSvc f).tides = s.tides := rfl
@[simp] theorem State.modSvc_mac (f : Svc → Svc) : (s.modSvc f).mac = s.mac := rfl
@[simp] theorem State.modSvc_domain (f : Svc → Svc) : (s.modSvc f).domain = s.domain := rfl
@[simp] theorem State.modSvc_txn (f : Svc → Svc) : (s.modSvc f).txn = s.txn := rfl
@[simp] theorem State.modSvc_line (f : Svc → Svc) : (s.modSvc f).line = s.line := rfl

@[simp] theorem State.modWm_pending (f : List Host.Cell → List Host.Cell) : (s.modWm f).pending = s.pending := rfl
@[simp] theorem State.modWm_now (f : List Host.Cell → List Host.Cell) : (s.modWm f).now = s.now := rfl
@[simp] theorem State.modWm_free (f : List Host.Cell → List Host.Cell) : (s.modWm f).free = s.free := rfl
@[simp] theorem State.modWm_sys (f : List Host.Cell → List Host.Cell) : (s.modWm f).sys = s.sys := rfl
@[simp] theorem State.modWm_pins (f : List Host.Cell → List Host.Cell) : (s.modWm f).pins = s.pins := rfl
@[simp] theorem State.modWm_dict (f : List Host.Cell → List Host.Cell) : (s.modWm f).dict = s.dict := rfl
@[simp] theorem State.modWm_blobs (f : List Host.Cell → List Host.Cell) : (s.modWm f).blobs = s.blobs := rfl
@[simp] theorem State.modWm_mgmt (f : List Host.Cell → List Host.Cell) : (s.modWm f).mgmt = s.mgmt := rfl
@[simp] theorem State.modWm_flash (f : List Host.Cell → List Host.Cell) : (s.modWm f).flash = s.flash := rfl
@[simp] theorem State.modWm_keys (f : List Host.Cell → List Host.Cell) : (s.modWm f).keys = s.keys := rfl
@[simp] theorem State.modWm_svc (f : List Host.Cell → List Host.Cell) : (s.modWm f).svc = s.svc := rfl
@[simp] theorem State.modWm_wm (f : List Host.Cell → List Host.Cell) : (s.modWm f).wm = f s.wm := rfl
@[simp] theorem State.modWm_mains (f : List Host.Cell → List Host.Cell) : (s.modWm f).mains = s.mains := rfl
@[simp] theorem State.modWm_bh (f : List Host.Cell → List Host.Cell) : (s.modWm f).bh = s.bh := rfl
@[simp] theorem State.modWm_time (f : List Host.Cell → List Host.Cell) : (s.modWm f).time = s.time := rfl
@[simp] theorem State.modWm_perf (f : List Host.Cell → List Host.Cell) : (s.modWm f).perf = s.perf := rfl
@[simp] theorem State.modWm_jtag (f : List Host.Cell → List Host.Cell) : (s.modWm f).jtag = s.jtag := rfl
@[simp] theorem State.modWm_loop (f : List Host.Cell → List Host.Cell) : (s.modWm f).loop = s.loop := rfl
@[simp] theorem State.modWm_tracker (f : List Host.Cell → List Host.Cell) : (s.modWm f).tracker = s.tracker := rfl
@[simp] theorem State.modWm_tides (f : List Host.Cell → List Host.Cell) : (s.modWm f).tides = s.tides := rfl
@[simp] theorem State.modWm_mac (f : List Host.Cell → List Host.Cell) : (s.modWm f).mac = s.mac := rfl
@[simp] theorem State.modWm_domain (f : List Host.Cell → List Host.Cell) : (s.modWm f).domain = s.domain := rfl
@[simp] theorem State.modWm_txn (f : List Host.Cell → List Host.Cell) : (s.modWm f).txn = s.txn := rfl
@[simp] theorem State.modWm_line (f : List Host.Cell → List Host.Cell) : (s.modWm f).line = s.line := rfl

@[simp] theorem State.modMains_pending (f : Mains → Mains) : (s.modMains f).pending = s.pending := rfl
@[simp] theorem State.modMains_now (f : Mains → Mains) : (s.modMains f).now = s.now := rfl
@[simp] theorem State.modMains_free (f : Mains → Mains) : (s.modMains f).free = s.free := rfl
@[simp] theorem State.modMains_sys (f : Mains → Mains) : (s.modMains f).sys = s.sys := rfl
@[simp] theorem State.modMains_pins (f : Mains → Mains) : (s.modMains f).pins = s.pins := rfl
@[simp] theorem State.modMains_dict (f : Mains → Mains) : (s.modMains f).dict = s.dict := rfl
@[simp] theorem State.modMains_blobs (f : Mains → Mains) : (s.modMains f).blobs = s.blobs := rfl
@[simp] theorem State.modMains_mgmt (f : Mains → Mains) : (s.modMains f).mgmt = s.mgmt := rfl
@[simp] theorem State.modMains_flash (f : Mains → Mains) : (s.modMains f).flash = s.flash := rfl
@[simp] theorem State.modMains_keys (f : Mains → Mains) : (s.modMains f).keys = s.keys := rfl
@[simp] theorem State.modMains_svc (f : Mains → Mains) : (s.modMains f).svc = s.svc := rfl
@[simp] theorem State.modMains_wm (f : Mains → Mains) : (s.modMains f).wm = s.wm := rfl
@[simp] theorem State.modMains_mains (f : Mains → Mains) : (s.modMains f).mains = f s.mains := rfl
@[simp] theorem State.modMains_bh (f : Mains → Mains) : (s.modMains f).bh = s.bh := rfl
@[simp] theorem State.modMains_time (f : Mains → Mains) : (s.modMains f).time = s.time := rfl
@[simp] theorem State.modMains_perf (f : Mains → Mains) : (s.modMains f).perf = s.perf := rfl
@[simp] theorem State.modMains_jtag (f : Mains → Mains) : (s.modMains f).jtag = s.jtag := rfl
@[simp] theorem State.modMains_loop (f : Mains → Mains) : (s.modMains f).loop = s.loop := rfl
@[simp] theorem State.modMains_tracker (f : Mains → Mains) : (s.modMains f).tracker = s.tracker := rfl
@[simp] theorem State.modMains_tides (f : Mains → Mains) : (s.modMains f).tides = s.tides := rfl
@[simp] theorem State.modMains_mac (f : Mains → Mains) : (s.modMains f).mac = s.mac := rfl
@[simp] theorem State.modMains_domain (f : Mains → Mains) : (s.modMains f).domain = s.domain := rfl
@[simp] theorem State.modMains_txn (f : Mains → Mains) : (s.modMains f).txn = s.txn := rfl
@[simp] theorem State.modMains_line (f : Mains → Mains) : (s.modMains f).line = s.line := rfl

@[simp] theorem State.modBh_pending (f : Backhaul → Backhaul) : (s.modBh f).pending = s.pending := rfl
@[simp] theorem State.modBh_now (f : Backhaul → Backhaul) : (s.modBh f).now = s.now := rfl
@[simp] theorem State.modBh_free (f : Backhaul → Backhaul) : (s.modBh f).free = s.free := rfl
@[simp] theorem State.modBh_sys (f : Backhaul → Backhaul) : (s.modBh f).sys = s.sys := rfl
@[simp] theorem State.modBh_pins (f : Backhaul → Backhaul) : (s.modBh f).pins = s.pins := rfl
@[simp] theorem State.modBh_dict (f : Backhaul → Backhaul) : (s.modBh f).dict = s.dict := rfl
@[simp] theorem State.modBh_blobs (f : Backhaul → Backhaul) : (s.modBh f).blobs = s.blobs := rfl
@[simp] theorem State.modBh_mgmt (f : Backhaul → Backhaul) : (s.modBh f).mgmt = s.mgmt := rfl
@[simp] theorem State.modBh_flash (f : Backhaul → Backhaul) : (s.modBh f).flash = s.flash := rfl
@[simp] theorem State.modBh_keys (f : Backhaul → Backhaul) : (s.modBh f).keys = s.keys := rfl
@[simp] theorem State.modBh_svc (f : Backhaul → Backhaul) : (s.modBh f).svc = s.svc := rfl
@[simp] theorem State.modBh_wm (f : Backhaul → Backhaul) : (s.modBh f).wm = s.wm := rfl
@[simp] theorem State.modBh_mains (f : Backhaul → Backhaul) : (s.modBh f).mains = s.mains := rfl
@[simp] theorem State.modBh_bh (f : Backhaul → Backhaul) : (s.modBh f).bh = f s.bh := rfl
@[simp] theorem State.modBh_time (f : Backhaul → Backhaul) : (s.modBh f).time = s.time := rfl
@[simp] theorem State.modBh_perf (f : Backhaul → Backhaul) : (s.modBh f).perf = s.perf := rfl
@[simp] theorem State.modBh_jtag (f : Backhaul → Backhaul) : (s.modBh f).jtag = s.jtag := rfl
@[simp] theorem State.modBh_loop (f : Backhaul → Backhaul) : (s.modBh f).loop = s.loop := rfl
@[simp] theorem State.modBh_tracker (f : Backhaul → Backhaul) : (s.modBh f).tracker = s.tracker := rfl
@[simp] theorem State.modBh_tides (f : Backhaul → Backhaul) : (s.modBh f).tides = s.tides := rfl
@[simp] theorem State.modBh_mac (f : Backhaul → Backhaul) : (s.modBh f).mac = s.mac := rfl
@[simp] theorem State.modBh_domain (f : Backhaul → Backhaul) : (s.modBh f).domain = s.domain := rfl
@[simp] theorem State.modBh_txn (f : Backhaul → Backhaul) : (s.modBh f).txn = s.txn := rfl
@[simp] theorem State.modBh_line (f : Backhaul → Backhaul) : (s.modBh f).line = s.line := rfl

@[simp] theorem State.modTime_pending (f : TimeState → TimeState) : (s.modTime f).pending = s.pending := rfl
@[simp] theorem State.modTime_now (f : TimeState → TimeState) : (s.modTime f).now = s.now := rfl
@[simp] theorem State.modTime_free (f : TimeState → TimeState) : (s.modTime f).free = s.free := rfl
@[simp] theorem State.modTime_sys (f : TimeState → TimeState) : (s.modTime f).sys = s.sys := rfl
@[simp] theorem State.modTime_pins (f : TimeState → TimeState) : (s.modTime f).pins = s.pins := rfl
@[simp] theorem State.modTime_dict (f : TimeState → TimeState) : (s.modTime f).dict = s.dict := rfl
@[simp] theorem State.modTime_blobs (f : TimeState → TimeState) : (s.modTime f).blobs = s.blobs := rfl
@[simp] theorem State.modTime_mgmt (f : TimeState → TimeState) : (s.modTime f).mgmt = s.mgmt := rfl
@[simp] theorem State.modTime_flash (f : TimeState → TimeState) : (s.modTime f).flash = s.flash := rfl
@[simp] theorem State.modTime_keys (f : TimeState → TimeState) : (s.modTime f).keys = s.keys := rfl
@[simp] theorem State.modTime_svc (f : TimeState → TimeState) : (s.modTime f).svc = s.svc := rfl
@[simp] theorem State.modTime_wm (f : TimeState → TimeState) : (s.modTime f).wm = s.wm := rfl
@[simp] theorem State.modTime_mains (f : TimeState → TimeState) : (s.modTime f).mains = s.mains := rfl
@[simp] theorem State.modTime_bh (f : TimeState → TimeState) : (s.modTime f).bh = s.bh := rfl
@[simp] theorem State.modTime_time (f : TimeState → TimeState) : (s.modTime f).time = f s.time := rfl
@[simp] theorem State.modTime_perf (f : TimeState → TimeState) : (s.modTime f).perf = s.perf := rfl
@[simp] theorem State.modTime_jtag (f : TimeState → TimeState) : (s.modTime f).jtag = s.jtag := rfl
@[simp] theorem State.modTime_loop (f : TimeState → TimeState) : (s.modTime f).loop = s.loop := rfl
@[simp] theorem State.modTime_tracker (f : TimeState → TimeState) : (s.modTime f).tracker = s.tracker := rfl
@[simp] theorem State.modTime_tides (f : TimeState → TimeState) : (s.modTime f).tides = s.tides := rfl
@[simp] theorem State.modTime_mac (f : TimeState → TimeState) : (s.modTime f).mac = s.mac := rfl
@[simp] theorem State.modTime_domain (f : TimeState → TimeState) : (s.modTime f).domain = s.domain := rfl
@[simp] theorem State.modTime_txn (f : TimeState → TimeState) : (s.modTime f).txn = s.txn := rfl
@[simp] theorem State.modTime_line (f : TimeState → TimeState) : (s.modTime f).line = s.line := rfl

@[simp] theorem State.modPerf_pending (f : Perf → Perf) : (s.modPerf f).pending = s.pending := rfl
@[simp] theorem State.modPerf_now (f : Perf → Perf) : (s.modPerf f).now = s.now := rfl
@[simp] theorem State.modPerf_free (f : Perf → Perf) : (s.modPerf f).free = s.free := rfl
@[simp] theorem State.modPerf_sys (f : Perf → Perf) : (s.modPerf f).sys = s.sys := rfl
@[simp] theorem State.modPerf_pins (f : Perf → Perf) : (s.modPerf f).pins = s.pins := rfl
@[simp] theorem State.modPerf_dict (f : Perf → Perf) : (s.modPerf f).dict = s.dict := rfl
@[simp] theorem State.modPerf_blobs (f : Perf → Perf) : (s.modPerf f).blobs = s.blobs := rfl
@[simp] theorem State.modPerf_mgmt (f : Perf → Perf) : (s.modPerf f).mgmt = s.mgmt := rfl
@[simp] theorem State.modPerf_flash (f : Perf → Perf) : (s.modPerf f).flash = s.flash := rfl
@[simp] theorem State.modPerf_keys (f : Perf → Perf) : (s.modPerf f).keys = s.keys := rfl
@[simp] theorem State.modPerf_svc (f : Perf → Perf) : (s.modPerf f).svc = s.svc := rfl
@[simp] theorem State.modPerf_wm (f : Perf → Perf) : (s.modPerf f).wm = s.wm := rfl
@[simp] theorem State.modPerf_mains (f : Perf → Perf) : (s.modPerf f).mains = s.mains := rfl
@[simp] theorem State.modPerf_bh (f : Perf → Perf) : (s.modPerf f).bh = s.bh := rfl
@[simp] theorem State.modPerf_time (f : Perf → Perf) : (s.modPerf f).time = s.time := rfl
@[simp] theorem State.modPerf_perf (f : Perf → Perf) : (s.modPerf f).perf = f s.perf := rfl
@[simp] theorem State.modPerf_jtag (f : Perf → Perf) : (s.modPerf f).jtag = s.jtag := rfl
@[simp] theorem State.modPerf_loop (f : Perf → Perf) : (s.modPerf f).loop = s.loop := rfl
@[simp] theorem State.modPerf_tracker (f : Perf → Perf) : (s.modPerf f).tracker = s.tracker := rfl
@[simp] theorem State.modPerf_tides (f : Perf → Perf) : (s.modPerf f).tides = s.tides := rfl
@[simp] theorem State.modPerf_mac (f : Perf → Perf) : (s.modPerf f).mac = s.mac := rfl
@[simp] theorem State.modPerf_domain (f : Perf → Perf) : (s.modPerf f).domain = s.domain := rfl
@[simp] theorem State.modPerf_txn (f : Perf → Perf) : (s.modPerf f).txn = s.txn := rfl
@[simp] theorem State.modPerf_line (f : Perf → Perf) : (s.modPerf f).line = s.line := rfl

@[simp] theorem State.modJtag_pending (f : Jtag → Jtag) : (s.modJtag f).pending = s.pending := rfl
@[simp] theorem State.modJtag_now (f : Jtag → Jtag) : (s.modJtag f).now = s.now := rfl
@[simp] theorem State.modJtag_free (f : Jtag → Jtag) : (s.modJtag f).free = s.free := rfl
@[simp] theorem State.modJtag_sys (f : Jtag → Jtag) : (s.modJtag f).sys = s.sys := rfl
@[simp] theorem State.modJtag_pins (f : Jtag → Jtag) : (s.modJtag f).pins = s.pins := rfl
@[simp] theorem State.modJtag_dict (f : Jtag → Jtag) : (s.modJtag f).dict = s.dict := rfl
@[simp] theorem State.modJtag_blobs (f : Jtag → Jtag) : (s.modJtag f).blobs = s.blobs := rfl
@[simp] theorem State.modJtag_mgmt (f : Jtag → Jtag) : (s.modJtag f).mgmt = s.mgmt := rfl
@[simp] theorem State.modJtag_flash (f : Jtag → Jtag) : (s.modJtag f).flash = s.flash := rfl
@[simp] theorem State.modJtag_keys (f : Jtag → Jtag) : (s.modJtag f).keys = s.keys := rfl
@[simp] theorem State.modJtag_svc (f : Jtag → Jtag) : (s.modJtag f).svc = s.svc := rfl
@[simp] theorem State.modJtag_wm (f : Jtag → Jtag) : (s.modJtag f).wm = s.wm := rfl
@[simp] theorem State.modJtag_mains (f : Jtag → Jtag) : (s.modJtag f).mains = s.mains := rfl
@[simp] theorem State.modJtag_bh (f : Jtag → Jtag) : (s.modJtag f).bh = s.bh := rfl
@[simp] theorem State.modJtag_time (f : Jtag → Jtag) : (s.modJtag f).time = s.time := rfl
@[simp] theorem State.modJtag_perf (f : Jtag → Jtag) : (s.modJtag f).perf = s.perf := rfl
@[simp] theorem State.modJtag_jtag (f : Jtag → Jtag) : (s.modJtag f).jtag = f s.jtag := rfl
@[simp] theorem State.modJtag_loop (f : Jtag → Jtag) : (s.modJtag f).loop = s.loop := rfl
@[simp] theorem State.modJtag_tracker (f : Jtag → Jtag) : (s.modJtag f).tracker = s.tracker := rfl
@[simp] theorem State.modJtag_tides (f : Jtag → Jtag) : (s.modJtag f).tides = s.tides := rfl
@[simp] theorem State.modJtag_mac (f : Jtag → Jtag) : (s.modJtag f).mac = s.mac := rfl
@[simp] theorem State.modJtag_domain (f : Jtag → Jtag) : (s.modJtag f).domain = s.domain := rfl
@[simp] theorem State.modJtag_txn (f : Jtag → Jtag) : (s.modJtag f).txn = s.txn := rfl
@[simp] theorem State.modJtag_line (f : Jtag → Jtag) : (s.modJtag f).line = s.line := rfl

@[simp] theorem State.modLoop_pending (f : LoopTest → LoopTest) : (s.modLoop f).pending = s.pending := rfl
@[simp] theorem State.modLoop_now (f : LoopTest → LoopTest) : (s.modLoop f).now = s.now := rfl
@[simp] theorem State.modLoop_free (f : LoopTest → LoopTest) : (s.modLoop f).free = s.free := rfl
@[simp] theorem State.modLoop_sys (f : LoopTest → LoopTest) : (s.modLoop f).sys = s.sys := rfl
@[simp] theorem State.modLoop_pins (f : LoopTest → LoopTest) : (s.modLoop f).pins = s.pins := rfl
@[simp] theorem State.modLoop_dict (f : LoopTest → LoopTest) : (s.modLoop f).dict = s.dict := rfl
@[simp] theorem State.modLoop_blobs (f : LoopTest → LoopTest) : (s.modLoop f).blobs = s.blobs := rfl
@[simp] theorem State.modLoop_mgmt (f : LoopTest → LoopTest) : (s.modLoop f).mgmt = s.mgmt := rfl
@[simp] theorem State.modLoop_flash (f : LoopTest → LoopTest) : (s.modLoop f).flash = s.flash := rfl
@[simp] theorem State.modLoop_keys (f : LoopTest → LoopTest) : (s.modLoop f).keys = s.keys := rfl
@[simp] theorem State.modLoop_svc (f : LoopTest → LoopTest) : (s.modLoop f).svc = s.svc := rfl
@[simp] theorem State.modLoop_wm (f : LoopTest → LoopTest) : (s.modLoop f).wm = s.wm := rfl
@[simp] theorem State.modLoop_mains (f : LoopTest → LoopTest) : (s.modLoop f).mains = s.mains := rfl
@[simp] theorem State.modLoop_bh (f : LoopTest → LoopTest) : (s.modLoop f).bh = s.bh := rfl
@[simp] theorem State.modLoop_time (f : LoopTest → LoopTest) : (s.modLoop f).time = s.time := rfl
@[simp] theorem State.modLoop_perf (f : LoopTest → LoopTest) : (s.modLoop f).perf = s.perf := rfl
@[simp] theorem State.modLoop_jtag (f : LoopTest → LoopTest) : (s.modLoop f).jtag = s.jtag := rfl
@[simp] theorem State.modLoop_loop (f : LoopTest → LoopTest) : (s.modLoop f).loop = f s.loop := rfl
@[simp] theorem State.modLoop_tracker (f : LoopTest → LoopTest) : (s.modLoop f).tracker = s.tracker := rfl
@[simp] theorem State.modLoop_tides (f : LoopTest → LoopTest) : (s.modLoop f).tides = s.tides := rfl
@[simp] theorem State.modLoop_mac (f : LoopTest → LoopTest) : (s.modLoop f).mac = s.mac := rfl
@[simp] theorem State.modLoop_domain (f : LoopTest → LoopTest) : (s.modLoop f).domain = s.domain := rfl
@[simp] theorem State.modLoop_txn (f : LoopTest → LoopTest) : (s.modLoop f).txn = s.txn := rfl
@[simp] theorem State.modLoop_line (f : LoopTest → LoopTest) : (s.modLoop f).line = s.line := rfl

@[simp] theorem State.modTracker_pending (f : Tracker → Tracker) : (s.modTracker f).pending = s.pending := rfl
@[simp] theorem State.modTracker_now (f : Tracker → Tracker) : (s.modTracker f).now = s.now := rfl
@[simp] theorem State.modTracker_free (f : Tracker → Tracker) : (s.modTracker f).free = s.free := rfl
@[simp] theorem State.modTracker_sys (f : Tracker → Tracker) : (s.modTracker f).sys = s.sys := rfl
@[simp] theorem State.modTracker_pins (f : Tracker → Tracker) : (s.modTracker f).pins = s.pins := rfl
@[simp] theorem State.modTracker_dict (f : Tracker → Tracker) : (s.modTracker f).dict = s.dict := rfl
@[simp] theorem State.modTracker_blobs (f : Tracker → Tracker) : (s.modTracker f).blobs = s.blobs := rfl
@[simp] theorem State.modTracker_mgmt (f : Tracker → Tracker) : (s.modTracker f).mgmt = s.mgmt := rfl
@[simp] theorem State.modTracker_flash (f : Tracker → Tracker) : (s.modTracker f).flash = s.flash := rfl
@[simp] theorem State.modTracker_keys (f : Tracker → Tracker) : (s.modTracker f).keys = s.keys := rfl
@[simp] theorem State.modTracker_svc (f : Tracker → Tracker) : (s.modTracker f).svc = s.svc := rfl
@[simp] theorem State.modTracker_wm (f : Tracker → Tracker) : (s.modTracker f).wm = s.wm := rfl
@[simp] theorem State.modTracker_mains (f : Tracker → Tracker) : (s.modTracker f).mains = s.mains := rfl
@[simp] theorem State.modTracker_bh (f : Tracker → Tracker) : (s.modTracker f).bh = s.bh := rfl
@[simp] theorem State.modTracker_time (f : Tracker → Tracker) : (s.modTracker f).time = s.time := rfl
@[simp] theorem State.modTracker_perf (f : Tracker → Tracker) : (s.modTracker f).perf = s.perf := rfl
@[simp] theorem State.modTracker_jtag (f : Tracker → Tracker) : (s.modTracker f).jtag = s.jtag := rfl
@[simp] theorem State.modTracker_loop (f : Tracker → Tracker) : (s.modTracker f).loop = s.loop := rfl
@[simp] theorem State.modTracker_tracker (f : Tracker → Tracker) : (s.modTracker f).tracker = f s.tracker := rfl
@[simp] theorem State.modTracker_tides (f : Tracker → Tracker) : (s.modTracker f).tides = s.tides := rfl
@[simp] theorem State.modTracker_mac (f : Tracker → Tracker) : (s.modTracker f).mac = s.mac := rfl
@[simp] theorem State.modTracker_domain (f : Tracker → Tracker) : (s.modTracker f).domain = s.domain := rfl
@[simp] theorem State.modTracker_txn (f : Tracker → Tracker) : (s.modTracker f).txn = s.txn := rfl
@[simp] theorem State.modTracker_line (f : Tracker → Tracker) : (s.modTracker f).line = s.line := rfl

@[simp] theorem State.modTides_pending (f : Tbl TideTable → Tbl TideTable) : (s.modTides f).pending = s.pending := rfl
@[simp] theorem State.modTides_now (f : Tbl TideTable → Tbl TideTable) : (s.modTides f).now = s.now := rfl
@[simp] theorem State.modTides_free (f : Tbl TideTable → Tbl TideTable) : (s.modTides f).free = s.free := rfl
@[simp] theorem State.modTides_sys (f : Tbl TideTable → Tbl TideTable) : (s.modTides f).sys = s.sys := rfl
@[simp] theorem State.modTides_pins (f : Tbl TideTable → Tbl TideTable) : (s.modTides f).pins = s.pins := rfl
@[simp] theorem State.modTides_dict (f : Tbl TideTable → Tbl TideTable) : (s.modTides f).dict = s.dict := rfl
@[simp] theorem State.modTides_blobs (f : Tbl TideTable → Tbl TideTable) : (s.modTides f).blobs = s.blobs := rfl
@[simp] theorem State.modTides_mgmt (f : Tbl TideTable → Tbl TideTable) : (s.modTides f).mgmt = s.mgmt := rfl
@[simp] theorem State.modTides_flash (f : Tbl TideTable → Tbl TideTable) : (s.modTides f).flash = s.flash := rfl
@[simp] theorem State.modTides_keys (f : Tbl TideTable → Tbl TideTable) : (s.modTides f).keys = s.keys := rfl
@[simp] theorem State.modTides_svc (f : Tbl TideTable → Tbl TideTable) : (s.modTides f).svc = s.svc := rfl
@[simp] theorem State.modTides_wm (f : Tbl TideTable → Tbl TideTable) : (s.modTides f).wm = s.wm := rfl
@[simp] theorem State.modTides_mains (f : Tbl TideTable → Tbl TideTable) : (s.modTides f).mains = s.mains := rfl
@[simp] theorem State.modTides_bh (f : Tbl TideTable → Tbl TideTable) : (s.modTides f).bh = s.bh := rfl
@[simp] theorem State.modTides_time (f : Tbl TideTable → Tbl TideTable) : (s.modTides f).time = s.time := rfl
@[simp] theorem State.modTides_perf (f : Tbl TideTable → Tbl TideTable) : (s.modTides f).perf = s.perf := rfl
@[simp] theorem State.modTides_jtag (f : Tbl TideTable → Tbl TideTable) : (s.modTides f).jtag = s.jtag := rfl
@[simp] theorem State.modTides_loop (f : Tbl TideTable → Tbl TideTable) : (s.modTides f).loop = s.loop := rfl
@[simp] theorem State.modTides_tracker (f : Tbl TideTable → Tbl TideTable) : (s.modTides f).tracker = s.tracker := rfl
@[simp] theorem State.modTides_tides (f : Tbl TideTable → Tbl TideTable) : (s.modTides f).tides = f s.tides := rfl
@[simp] theorem State.modTides_mac (f : Tbl TideTable → Tbl TideTable) : (s.modTides f).mac = s.mac := rfl
@[simp] theorem State.modTides_domain (f : Tbl TideTable → Tbl TideTable) : (s.modTides f).domain = s.domain := rfl
@[simp] theorem State.modTides_txn (f : Tbl TideTable → Tbl TideTable) : (s.modTides f).txn = s.txn := rfl
@[simp] theorem State.modTides_line (f : Tbl TideTable → Tbl TideTable) : (s.modTides f).line = s.line := rfl

@[simp] theorem State.modMac_pending (f : Mac → Mac) : (s.modMac f).pending = s.pending := rfl
@[simp] theorem State.modMac_now (f : Mac → Mac) : (s.modMac f).now = s.now := rfl
@[simp] theorem State.modMac_free (f : Mac → Mac) : (s.modMac f).free = s.free := rfl
@[simp] theorem State.modMac_sys (f : Mac → Mac) : (s.modMac f).sys = s.sys := rfl
@[simp] theorem State.modMac_pins (f : Mac → Mac) : (s.modMac f).pins = s.pins := rfl
@[simp] theorem State.modMac_dict (f : Mac → Mac) : (s.modMac f).dict = s.dict := rfl
@[simp] theorem State.modMac_blobs (f : Mac → Mac) : (s.modMac f).blobs = s.blobs := rfl
@[simp] theorem State.modMac_mgmt (f : Mac → Mac) : (s.modMac f).mgmt = s.mgmt := rfl
@[simp] theorem State.modMac_flash (f : Mac → Mac) : (s.modMac f).flash = s.flash := rfl
@[simp] theorem State.modMac_keys (f : Mac → Mac) : (s.modMac f).keys = s.keys := rfl
@[simp] theorem State.modMac_svc (f : Mac → Mac) : (s.modMac f).svc = s.svc := rfl
@[simp] theorem State.modMac_wm (f : Mac → Mac) : (s.modMac f).wm = s.wm := rfl
@[simp] theorem State.modMac_mains (f : Mac → Mac) : (s.modMac f).mains = s.mains := rfl
@[simp] theorem State.modMac_bh (f : Mac → Mac) : (s.modMac f).bh = s.bh := rfl
@[simp] theorem State.modMac_time (f : Mac → Mac) : (s.modMac f).time = s.time := rfl
@[simp] theorem State.modMac_perf (f : Mac → Mac) : (s.modMac f).perf = s.perf := rfl
@[simp] theorem State.modMac_jtag (f : Mac → Mac) : (s.modMac f).jtag = s.jtag := rfl
@[simp] theorem State.modMac_loop (f : Mac → Mac) : (s.modMac f).loop = s.loop := rfl
@[simp] theorem State.modMac_tracker (f : Mac → Mac) : (s.modMac f).tracker = s.tracker := rfl
@[simp] theorem State.modMac_tides (f : Mac → Mac) : (s.modMac f).tides = s.tides := rfl
@[simp] theorem State.modMac_mac (f : Mac → Mac) : (s.modMac f).mac = f s.mac := rfl
@[simp] theorem State.modMac_domain (f : Mac → Mac) : (s.modMac f).domain = s.domain := rfl
@[simp] theorem State.modMac_txn (f : Mac → Mac) : (s.modMac f).txn = s.txn := rfl
@[simp] theorem State.modMac_line (f : Mac → Mac) : (s.modMac f).line = s.line := rfl

@[simp] theorem State.modDomain_pending (f : Domain → Domain) : (s.modDomain f).pending = s.pending := rfl
@[simp] theorem State.modDomain_now (f : Domain → Domain) : (s.modDomain f).now = s.now := rfl
@[simp] theorem State.modDomain_free (f : Domain → Domain) : (s.modDomain f).free = s.free := rfl
@[simp] theorem State.modDomain_sys (f : Domain → Domain) : (s.modDomain f).sys = s.sys := rfl
@[simp] theorem State.modDomain_pins (f : Domain → Domain) : (s.modDomain f).pins = s.pins := rfl
@[simp] theorem State.modDomain_dict (f : Domain → Domain) : (s.modDomain f).dict = s.dict := rfl
@[simp] theorem State.modDomain_blobs (f : Domain → Domain) : (s.modDomain f).blobs = s.blobs := rfl
@[simp] theorem State.modDomain_mgmt (f : Domain → Domain) : (s.modDomain f).mgmt = s.mgmt := rfl
@[simp] theorem State.modDomain_flash (f : Domain → Domain) : (s.modDomain f).flash = s.flash := rfl
@[simp] theorem State.modDomain_keys (f : Domain → Domain) : (s.modDomain f).keys = s.keys := rfl
@[simp] theorem State.modDomain_svc (f : Domain → Domain) : (s.modDomain f).svc = s.svc := rfl
@[simp] theorem State.modDomain_wm (f : Domain → Domain) : (s.modDomain f).wm = s.wm := rfl
@[simp] theorem State.modDomain_mains (f : Domain → Domain) : (s.modDomain f).mains = s.mains := rfl
@[simp] theorem State.modDomain_bh (f : Domain → Domain) : (s.modDomain f).bh = s.bh := rfl
@[simp] theorem State.modDomain_time (f : Domain → Domain) : (s.modDomain f).time = s.time := rfl
@[simp] theorem State.modDomain_perf (f : Domain → Domain) : (s.modDomain f).perf = s.perf := rfl
@[simp] theorem State.modDomain_jtag (f : Domain → Domain) : (s.modDomain f).jtag = s.jtag := rfl
@[simp] theorem State.modDomain_loop (f : Domain → Domain) : (s.modDomain f).loop = s.loop := rfl
@[simp] theorem State.modDomain_tracker (f : Domain → Domain) : (s.modDomain f).tracker = s.tracker := rfl
@[simp] theorem State.modDomain_tides (f : Domain → Domain) : (s.modDomain f).tides = s.tides := rfl
@[simp] theorem State.modDomain_mac (f : Domain → Domain) : (s.modDomain f).mac = s.mac := rfl
@[simp] theorem State.modDomain_domain (f : Domain → Domain) : (s.modDomain f).domain = f s.domain := rfl
@[simp] theorem State.modDomain_txn (f : Domain → Domain) : (s.modDomain f).txn = s.txn := rfl
@[simp] theorem State.modDomain_line (f : Domain → Domain) : (s.modDomain f).line = s.line := rfl

@[simp] theorem State.modTxn_pending (f : TxnEngine → TxnEngine) : (s.modTxn f).pending = s.pending := rfl
@[simp] theorem State.modTxn_now (f : TxnEngine → TxnEngine) : (s.modTxn f).now = s.now := rfl
@[simp] theorem State.modTxn_free (f : TxnEngine → TxnEngine) : (s.modTxn f).free = s.free := rfl
@[simp] theorem State.modTxn_sys (f : TxnEngine → TxnEngine) : (s.modTxn f).sys = s.sys := rfl
@[simp] theorem State.modTxn_pins (f : TxnEngine → TxnEngine) : (s.modTxn f).pins = s.pins := rfl
@[simp] theorem State.modTxn_dict (f : TxnEngine → TxnEngine) : (s.modTxn f).dict = s.dict := rfl
@[simp] theorem State.modTxn_blobs (f : TxnEngine → TxnEngine) : (s.modTxn f).blobs = s.blobs := rfl
@[simp] theorem State.modTxn_mgmt (f : TxnEngine → TxnEngine) : (s.modTxn f).mgmt = s.mgmt := rfl
@[simp] theorem State.modTxn_flash (f : TxnEngine → TxnEngine) : (s.modTxn f).flash = s.flash := rfl
@[simp] theorem State.modTxn_keys (f : TxnEngine → TxnEngine) : (s.modTxn f).keys = s.keys := rfl
@[simp] theorem State.modTxn_svc (f : TxnEngine → TxnEngine) : (s.modTxn f).svc = s.svc := rfl
@[simp] theorem State.modTxn_wm (f : TxnEngine → TxnEngine) : (s.modTxn f).wm = s.wm := rfl
@[simp] theorem State.modTxn_mains (f : TxnEngine → TxnEngine) : (s.modTxn f).mains = s.mains := rfl
@[simp] theorem State.modTxn_bh (f : TxnEngine → TxnEngine) : (s.modTxn f).bh = s.bh := rfl
@[simp] theorem State.modTxn_time (f : TxnEngine → TxnEngine) : (s.modTxn f).time = s.time := rfl
@[simp] theorem State.modTxn_perf (f : TxnEngine → TxnEngine) : (s.modTxn f).perf = s.perf := rfl
@[simp] theorem State.modTxn_jtag (f : TxnEngine → TxnEngine) : (s.modTxn f).jtag = s.jtag := rfl
@[simp] theorem State.modTxn_loop (f : TxnEngine → TxnEngine) : (s.modTxn f).loop = s.loop := rfl
@[simp] theorem State.modTxn_tracker (f : TxnEngine → TxnEngine) : (s.modTxn f).tracker = s.tracker := rfl
@[simp] theorem State.modTxn_tides (f : TxnEngine → TxnEngine) : (s.modTxn f).tides = s.tides := rfl
@[simp] theorem State.modTxn_mac (f : TxnEngine → TxnEngine) : (s.modTxn f).mac = s.mac := rfl
@[simp] theorem State.modTxn_domain (f : TxnEngine → TxnEngine) : (s.modTxn f).domain = s.domain := rfl
@[simp] theorem State.modTxn_txn (f : TxnEngine → TxnEngine) : (s.modTxn f).txn = f s.txn := rfl
@[simp] theorem State.modTxn_line (f : TxnEngine → TxnEngine) : (s.modTxn f).line = s.line := rfl

@[simp] theorem State.modLine_pending (f : Line → Line) : (s.modLine f).pending = s.pending := rfl
@[simp] theorem State.modLine_now (f : Line → Line) : (s.modLine f).now = s.now := rfl
@[simp] theorem State.modLine_free (f : Line → Line) : (s.modLine f).free = s.free := rfl
@[simp] theorem State.modLine_sys (f : Line → Line) : (s.modLine f).sys = s.sys := rfl
@[simp] theorem State.modLine_pins (f : Line → Line) : (s.modLine f).pins = s.pins := rfl
@[simp] theorem State.modLine_dict (f : Line → Line) : (s.modLine f).dict = s.dict := rfl
@[simp] theorem State.modLine_blobs (f : Line → Line) : (s.modLine f).blobs = s.blobs := rfl
@[simp] theorem State.modLine_mgmt (f : Line → Line) : (s.modLine f).mgmt = s.mgmt := rfl
@[simp] theorem State.modLine_flash (f : Line → Line) : (s.modLine f).flash = s.flash := rfl
@[simp] theorem State.modLine_keys (f : Line → Line) : (s.modLine f).keys = s.keys := rfl
@[simp] theorem State.modLine_svc (f : Line → Line) : (s.modLine f).svc = s.svc := rfl
@[simp] theorem State.modLine_wm (f : Line → Line) : (s.modLine f).wm = s.wm := rfl
@[simp] theorem State.modLine_mains (f : Line → Line) : (s.modLine f).mains = s.mains := rfl
@[simp] theorem State.modLine_bh (f : Line → Line) : (s.modLine f).bh = s.bh := rfl
@[simp] theorem State.modLine_time (f : Line → Line) : (s.modLine f).time = s.time := rfl
@[simp] theorem State.modLine_perf (f : Line → Line) : (s.modLine f).perf = s.perf := rfl
@[simp] theorem State.modLine_jtag (f : Line → Line) : (s.modLine f).jtag = s.jtag := rfl
@[simp] theorem State.modLine_loop (f : Line → Line) : (s.modLine f).loop = s.loop := rfl
@[simp] theorem State.modLine_tracker (f : Line → Line) : (s.modLine f).tracker = s.tracker := rfl
@[simp] theorem State.modLine_tides (f : Line → Line) : (s.modLine f).tides = s.tides := rfl
@[simp] theorem State.modLine_mac (f : Line → Line) : (s.modLine f).mac = s.mac := rfl
@[simp] theorem State.modLine_domain (f : Line → Line) : (s.modLine f).domain = s.domain := rfl
@[simp] theorem State.modLine_txn (f : Line → Line) : (s.modLine f).txn = s.txn := rfl
@[simp] theorem State.modLine_line (f : Line → Line) : (s.modLine f).line = f s.line := rfl

end Sys2Proof.Machine
end

