-- ==== Sys2Proof/Laws/Table.lean ====
section
/-! SUPPORT. Sparse tables: reading after writing, and the canonical form. -/

namespace Sys2Proof.Machine

variable {α : Type}

@[simp] theorem Tbl.at?_ins_self (t : Tbl α) (k : Nat) (v : α) : Tbl.at? (Tbl.ins t k v) k = some v := by
  induction t with
  | nil => simp [Tbl.ins, Tbl.at?]
  | cons p t ih =>
    simp only [Tbl.ins]
    split
    · simp [Tbl.at?]
    · split
      · simp [Tbl.at?]
      · rename_i h
        simp [Tbl.at?, Ne.symm h, ih]

theorem Tbl.at?_ins_ne (t : Tbl α) {j k : Nat} (v : α) (h : j ≠ k) : Tbl.at? (Tbl.ins t k v) j = Tbl.at? t j := by
  induction t with
  | nil => simp [Tbl.ins, Tbl.at?, Ne.symm h]
  | cons p t ih =>
    simp only [Tbl.ins]
    split
    · simp [Tbl.at?, Ne.symm h]
    · split
      · rename_i hk
        simp [Tbl.at?, Ne.symm h, ← hk]
      · simp [Tbl.at?, ih]

@[simp] theorem Tbl.at?_del_self (t : Tbl α) (k : Nat) : Tbl.at? (Tbl.del t k) k = none := by
  induction t with
  | nil => rfl
  | cons p t ih =>
    simp only [Tbl.del, List.filter_cons] at ih ⊢
    split
    · rename_i h
      simp only [bne_iff_ne, ne_eq] at h
      simp [Tbl.at?, h, ih]
    · exact ih

theorem Tbl.at?_del_ne (t : Tbl α) {j k : Nat} (h : j ≠ k) : Tbl.at? (Tbl.del t k) j = Tbl.at? t j := by
  induction t with
  | nil => rfl
  | cons p t ih =>
    simp only [Tbl.del, List.filter_cons] at ih ⊢
    split
    · simp [Tbl.at?, ih]
    · rename_i hk
      simp only [bne_iff_ne, ne_eq, not_not] at hk
      simp [Tbl.at?, hk, Ne.symm h, ih]

@[simp] theorem Tbl.atD_ins_self (t : Tbl α) (k : Nat) (v d : α) : Tbl.atD (Tbl.ins t k v) k d = v := by simp [Tbl.atD]

theorem Tbl.atD_ins_ne (t : Tbl α) {j k : Nat} (v d : α) (h : j ≠ k) : Tbl.atD (Tbl.ins t k v) j d = Tbl.atD t j d := by
  simp [Tbl.atD, Tbl.at?_ins_ne t v h]

@[simp] theorem Tbl.atD_store_self [DecidableEq α] (t : Tbl α) (k : Nat) (v d : α) : Tbl.atD (Tbl.store d t k v) k d = v := by
  unfold Tbl.store
  split <;> simp_all [Tbl.atD]

theorem Tbl.atD_store_ne [DecidableEq α] (t : Tbl α) {j k : Nat} (v d e : α) (h : j ≠ k) :
    Tbl.atD (Tbl.store d t k v) j e = Tbl.atD t j e := by
  unfold Tbl.store
  split <;> simp [Tbl.atD, Tbl.at?_del_ne t h, Tbl.at?_ins_ne t v h]

@[simp] theorem Tbl.atD_modD_self (d : α) (t : Tbl α) (k : Nat) (f : α → α) :
    Tbl.atD (Tbl.modD d t k f) k d = f (Tbl.atD t k d) := by simp [Tbl.modD]

theorem Tbl.atD_modD_ne (d : α) (t : Tbl α) {j k : Nat} (f : α → α) (h : j ≠ k) :
    Tbl.atD (Tbl.modD d t k f) j d = Tbl.atD t j d := Tbl.atD_ins_ne t _ d h

/-- The keys are strictly rising, in the form that inductions use. -/
theorem Tbl.wf_iff (t : Tbl α) : Tbl.wf t = true ↔ t.Pairwise fun p q => p.1 < q.1 := by
  induction t with
  | nil => simp [Tbl.wf]
  | cons p t ih =>
    cases t with
    | nil => simp [Tbl.wf]
    | cons q t =>
      simp only [Tbl.wf, Bool.and_eq_true, decide_eq_true_eq, ih, List.pairwise_cons]
      constructor
      · rintro ⟨h, hq, ht⟩
        refine ⟨fun r hr => ?_, hq, ht⟩
        rcases List.mem_cons.1 hr with rfl | hr
        · exact h
        · exact lt_trans h (hq r hr)
      · rintro ⟨hp, hq, ht⟩
        exact ⟨hp q (by simp), hq, ht⟩

theorem Tbl.mem_ins (t : Tbl α) (k : Nat) (v : α) (p : Nat × α) (h : p ∈ Tbl.ins t k v) : p = (k, v) ∨ p ∈ t := by
  induction t with
  | nil => simpa [Tbl.ins] using h
  | cons q t ih =>
    simp only [Tbl.ins] at h
    split at h
    · simpa using h
    · split at h
      · rcases List.mem_cons.1 h with h | h
        · exact .inl h
        · exact .inr (List.mem_cons_of_mem _ h)
      · rcases List.mem_cons.1 h with h | h
        · exact .inr (by simp [h])
        · exact (ih h).imp id (List.mem_cons_of_mem _)

/-- A write keeps the keys strictly rising. -/
theorem Tbl.wf_ins (t : Tbl α) (k : Nat) (v : α) (h : Tbl.wf t = true) : Tbl.wf (Tbl.ins t k v) = true := by
  rw [Tbl.wf_iff] at h ⊢
  induction t with
  | nil => simp [Tbl.ins]
  | cons q t ih =>
    obtain ⟨hq, ht⟩ := List.pairwise_cons.1 h
    simp only [Tbl.ins]
    split
    · rename_i hk
      refine List.pairwise_cons.2 ⟨fun r hr => ?_, h⟩
      rcases List.mem_cons.1 hr with rfl | hr
      · exact hk
      · exact lt_trans hk (hq r hr)
    · split
      · rename_i hk
        exact List.pairwise_cons.2 ⟨fun r hr => by simpa [hk] using hq r hr, ht⟩
      · refine List.pairwise_cons.2 ⟨fun r hr => ?_, ih ht⟩
        rcases Tbl.mem_ins t k v r hr with rfl | hr
        · simp only
          omega
        · exact hq r hr

/-- Removing an entry keeps the keys strictly rising. -/
theorem Tbl.wf_del (t : Tbl α) (k : Nat) (h : Tbl.wf t = true) : Tbl.wf (Tbl.del t k) = true := by
  rw [Tbl.wf_iff] at h ⊢
  exact h.filter _

theorem Tbl.wf_store [DecidableEq α] (t : Tbl α) (k : Nat) (v d : α) (h : Tbl.wf t = true) :
    Tbl.wf (Tbl.store d t k v) = true := by
  unfold Tbl.store
  split
  · exact Tbl.wf_del t k h
  · exact Tbl.wf_ins t k v h

end Sys2Proof.Machine
end

