-- ==== Sys2Proof/Laws/Ops.lean ====
section
/-! SUPPORT. The shared operations: what each writes, and that it changes no other part of the state. -/

namespace Sys2Proof.Machine

/-- A fold whose every step keeps a part of the state keeps it. -/
theorem State.foldl_keeps {α β : Type} (p : State → β) (f : State → α → State) (h : ∀ t x, p (f t x) = p t) (l : List α)
    (s : State) : p (l.foldl f s) = p s := by
  induction l generalizing s with
  | nil => rfl
  | cons x l ih => rw [List.foldl_cons, ih, h]

@[simp] theorem State.wr_pending (s : State) (r : Reg) (v : Nat) : (s.wr r v).pending = s.pending := rfl
@[simp] theorem State.wr_now (s : State) (r : Reg) (v : Nat) : (s.wr r v).now = s.now := rfl
@[simp] theorem State.wr_free (s : State) (r : Reg) (v : Nat) : (s.wr r v).free = s.free := rfl
@[simp] theorem State.wr_sys (s : State) (r : Reg) (v : Nat) : (s.wr r v).sys = s.sys := rfl
@[simp] theorem State.wr_pins (s : State) (r : Reg) (v : Nat) : (s.wr r v).pins = s.pins := rfl
@[simp] theorem State.wr_blobs (s : State) (r : Reg) (v : Nat) : (s.wr r v).blobs = s.blobs := rfl
@[simp] theorem State.wr_mgmt (s : State) (r : Reg) (v : Nat) : (s.wr r v).mgmt = s.mgmt := rfl
@[simp] theorem State.wr_flash (s : State) (r : Reg) (v : Nat) : (s.wr r v).flash = s.flash := rfl
@[simp] theorem State.wr_keys (s : State) (r : Reg) (v : Nat) : (s.wr r v).keys = s.keys := rfl
@[simp] theorem State.wr_svc (s : State) (r : Reg) (v : Nat) : (s.wr r v).svc = s.svc := rfl
@[simp] theorem State.wr_wm (s : State) (r : Reg) (v : Nat) : (s.wr r v).wm = s.wm := rfl
@[simp] theorem State.wr_mains (s : State) (r : Reg) (v : Nat) : (s.wr r v).mains = s.mains := rfl
@[simp] theorem State.wr_bh (s : State) (r : Reg) (v : Nat) : (s.wr r v).bh = s.bh := rfl
@[simp] theorem State.wr_time (s : State) (r : Reg) (v : Nat) : (s.wr r v).time = s.time := rfl
@[simp] theorem State.wr_perf (s : State) (r : Reg) (v : Nat) : (s.wr r v).perf = s.perf := rfl
@[simp] theorem State.wr_jtag (s : State) (r : Reg) (v : Nat) : (s.wr r v).jtag = s.jtag := rfl
@[simp] theorem State.wr_loop (s : State) (r : Reg) (v : Nat) : (s.wr r v).loop = s.loop := rfl
@[simp] theorem State.wr_tracker (s : State) (r : Reg) (v : Nat) : (s.wr r v).tracker = s.tracker := rfl
@[simp] theorem State.wr_tides (s : State) (r : Reg) (v : Nat) : (s.wr r v).tides = s.tides := rfl
@[simp] theorem State.wr_mac (s : State) (r : Reg) (v : Nat) : (s.wr r v).mac = s.mac := rfl
@[simp] theorem State.wr_domain (s : State) (r : Reg) (v : Nat) : (s.wr r v).domain = s.domain := rfl
@[simp] theorem State.wr_txn (s : State) (r : Reg) (v : Nat) : (s.wr r v).txn = s.txn := rfl
@[simp] theorem State.wr_line (s : State) (r : Reg) (v : Nat) : (s.wr r v).line = s.line := rfl

@[simp] theorem State.setFlag_pending (s : State) (r : Reg) (b : Bool) : (s.setFlag r b).pending = s.pending := rfl
@[simp] theorem State.setFlag_now (s : State) (r : Reg) (b : Bool) : (s.setFlag r b).now = s.now := rfl
@[simp] theorem State.setFlag_free (s : State) (r : Reg) (b : Bool) : (s.setFlag r b).free = s.free := rfl
@[simp] theorem State.setFlag_sys (s : State) (r : Reg) (b : Bool) : (s.setFlag r b).sys = s.sys := rfl
@[simp] theorem State.setFlag_pins (s : State) (r : Reg) (b : Bool) : (s.setFlag r b).pins = s.pins := rfl
@[simp] theorem State.setFlag_blobs (s : State) (r : Reg) (b : Bool) : (s.setFlag r b).blobs = s.blobs := rfl
@[simp] theorem State.setFlag_mgmt (s : State) (r : Reg) (b : Bool) : (s.setFlag r b).mgmt = s.mgmt := rfl
@[simp] theorem State.setFlag_flash (s : State) (r : Reg) (b : Bool) : (s.setFlag r b).flash = s.flash := rfl
@[simp] theorem State.setFlag_keys (s : State) (r : Reg) (b : Bool) : (s.setFlag r b).keys = s.keys := rfl
@[simp] theorem State.setFlag_svc (s : State) (r : Reg) (b : Bool) : (s.setFlag r b).svc = s.svc := rfl
@[simp] theorem State.setFlag_wm (s : State) (r : Reg) (b : Bool) : (s.setFlag r b).wm = s.wm := rfl
@[simp] theorem State.setFlag_mains (s : State) (r : Reg) (b : Bool) : (s.setFlag r b).mains = s.mains := rfl
@[simp] theorem State.setFlag_bh (s : State) (r : Reg) (b : Bool) : (s.setFlag r b).bh = s.bh := rfl
@[simp] theorem State.setFlag_time (s : State) (r : Reg) (b : Bool) : (s.setFlag r b).time = s.time := rfl
@[simp] theorem State.setFlag_perf (s : State) (r : Reg) (b : Bool) : (s.setFlag r b).perf = s.perf := rfl
@[simp] theorem State.setFlag_jtag (s : State) (r : Reg) (b : Bool) : (s.setFlag r b).jtag = s.jtag := rfl
@[simp] theorem State.setFlag_loop (s : State) (r : Reg) (b : Bool) : (s.setFlag r b).loop = s.loop := rfl
@[simp] theorem State.setFlag_tracker (s : State) (r : Reg) (b : Bool) : (s.setFlag r b).tracker = s.tracker := rfl
@[simp] theorem State.setFlag_tides (s : State) (r : Reg) (b : Bool) : (s.setFlag r b).tides = s.tides := rfl
@[simp] theorem State.setFlag_mac (s : State) (r : Reg) (b : Bool) : (s.setFlag r b).mac = s.mac := rfl
@[simp] theorem State.setFlag_domain (s : State) (r : Reg) (b : Bool) : (s.setFlag r b).domain = s.domain := rfl
@[simp] theorem State.setFlag_txn (s : State) (r : Reg) (b : Bool) : (s.setFlag r b).txn = s.txn := rfl
@[simp] theorem State.setFlag_line (s : State) (r : Reg) (b : Bool) : (s.setFlag r b).line = s.line := rfl

@[simp] theorem State.wrInt_pending (s : State) (r : Reg) (z : Int) : (s.wrInt r z).pending = s.pending := rfl
@[simp] theorem State.wrInt_now (s : State) (r : Reg) (z : Int) : (s.wrInt r z).now = s.now := rfl
@[simp] theorem State.wrInt_free (s : State) (r : Reg) (z : Int) : (s.wrInt r z).free = s.free := rfl
@[simp] theorem State.wrInt_sys (s : State) (r : Reg) (z : Int) : (s.wrInt r z).sys = s.sys := rfl
@[simp] theorem State.wrInt_pins (s : State) (r : Reg) (z : Int) : (s.wrInt r z).pins = s.pins := rfl
@[simp] theorem State.wrInt_blobs (s : State) (r : Reg) (z : Int) : (s.wrInt r z).blobs = s.blobs := rfl
@[simp] theorem State.wrInt_mgmt (s : State) (r : Reg) (z : Int) : (s.wrInt r z).mgmt = s.mgmt := rfl
@[simp] theorem State.wrInt_flash (s : State) (r : Reg) (z : Int) : (s.wrInt r z).flash = s.flash := rfl
@[simp] theorem State.wrInt_keys (s : State) (r : Reg) (z : Int) : (s.wrInt r z).keys = s.keys := rfl
@[simp] theorem State.wrInt_svc (s : State) (r : Reg) (z : Int) : (s.wrInt r z).svc = s.svc := rfl
@[simp] theorem State.wrInt_wm (s : State) (r : Reg) (z : Int) : (s.wrInt r z).wm = s.wm := rfl
@[simp] theorem State.wrInt_mains (s : State) (r : Reg) (z : Int) : (s.wrInt r z).mains = s.mains := rfl
@[simp] theorem State.wrInt_bh (s : State) (r : Reg) (z : Int) : (s.wrInt r z).bh = s.bh := rfl
@[simp] theorem State.wrInt_time (s : State) (r : Reg) (z : Int) : (s.wrInt r z).time = s.time := rfl
@[simp] theorem State.wrInt_perf (s : State) (r : Reg) (z : Int) : (s.wrInt r z).perf = s.perf := rfl
@[simp] theorem State.wrInt_jtag (s : State) (r : Reg) (z : Int) : (s.wrInt r z).jtag = s.jtag := rfl
@[simp] theorem State.wrInt_loop (s : State) (r : Reg) (z : Int) : (s.wrInt r z).loop = s.loop := rfl
@[simp] theorem State.wrInt_tracker (s : State) (r : Reg) (z : Int) : (s.wrInt r z).tracker = s.tracker := rfl
@[simp] theorem State.wrInt_tides (s : State) (r : Reg) (z : Int) : (s.wrInt r z).tides = s.tides := rfl
@[simp] theorem State.wrInt_mac (s : State) (r : Reg) (z : Int) : (s.wrInt r z).mac = s.mac := rfl
@[simp] theorem State.wrInt_domain (s : State) (r : Reg) (z : Int) : (s.wrInt r z).domain = s.domain := rfl
@[simp] theorem State.wrInt_txn (s : State) (r : Reg) (z : Int) : (s.wrInt r z).txn = s.txn := rfl
@[simp] theorem State.wrInt_line (s : State) (r : Reg) (z : Int) : (s.wrInt r z).line = s.line := rfl

@[simp] theorem State.bumpBy_pending (s : State) (r : Reg) (n : Nat) : (s.bumpBy r n).pending = s.pending := rfl
@[simp] theorem State.bumpBy_now (s : State) (r : Reg) (n : Nat) : (s.bumpBy r n).now = s.now := rfl
@[simp] theorem State.bumpBy_free (s : State) (r : Reg) (n : Nat) : (s.bumpBy r n).free = s.free := rfl
@[simp] theorem State.bumpBy_sys (s : State) (r : Reg) (n : Nat) : (s.bumpBy r n).sys = s.sys := rfl
@[simp] theorem State.bumpBy_pins (s : State) (r : Reg) (n : Nat) : (s.bumpBy r n).pins = s.pins := rfl
@[simp] theorem State.bumpBy_blobs (s : State) (r : Reg) (n : Nat) : (s.bumpBy r n).blobs = s.blobs := rfl
@[simp] theorem State.bumpBy_mgmt (s : State) (r : Reg) (n : Nat) : (s.bumpBy r n).mgmt = s.mgmt := rfl
@[simp] theorem State.bumpBy_flash (s : State) (r : Reg) (n : Nat) : (s.bumpBy r n).flash = s.flash := rfl
@[simp] theorem State.bumpBy_keys (s : State) (r : Reg) (n : Nat) : (s.bumpBy r n).keys = s.keys := rfl
@[simp] theorem State.bumpBy_svc (s : State) (r : Reg) (n : Nat) : (s.bumpBy r n).svc = s.svc := rfl
@[simp] theorem State.bumpBy_wm (s : State) (r : Reg) (n : Nat) : (s.bumpBy r n).wm = s.wm := rfl
@[simp] theorem State.bumpBy_mains (s : State) (r : Reg) (n : Nat) : (s.bumpBy r n).mains = s.mains := rfl
@[simp] theorem State.bumpBy_bh (s : State) (r : Reg) (n : Nat) : (s.bumpBy r n).bh = s.bh := rfl
@[simp] theorem State.bumpBy_time (s : State) (r : Reg) (n : Nat) : (s.bumpBy r n).time = s.time := rfl
@[simp] theorem State.bumpBy_perf (s : State) (r : Reg) (n : Nat) : (s.bumpBy r n).perf = s.perf := rfl
@[simp] theorem State.bumpBy_jtag (s : State) (r : Reg) (n : Nat) : (s.bumpBy r n).jtag = s.jtag := rfl
@[simp] theorem State.bumpBy_loop (s : State) (r : Reg) (n : Nat) : (s.bumpBy r n).loop = s.loop := rfl
@[simp] theorem State.bumpBy_tracker (s : State) (r : Reg) (n : Nat) : (s.bumpBy r n).tracker = s.tracker := rfl
@[simp] theorem State.bumpBy_tides (s : State) (r : Reg) (n : Nat) : (s.bumpBy r n).tides = s.tides := rfl
@[simp] theorem State.bumpBy_mac (s : State) (r : Reg) (n : Nat) : (s.bumpBy r n).mac = s.mac := rfl
@[simp] theorem State.bumpBy_domain (s : State) (r : Reg) (n : Nat) : (s.bumpBy r n).domain = s.domain := rfl
@[simp] theorem State.bumpBy_txn (s : State) (r : Reg) (n : Nat) : (s.bumpBy r n).txn = s.txn := rfl
@[simp] theorem State.bumpBy_line (s : State) (r : Reg) (n : Nat) : (s.bumpBy r n).line = s.line := rfl

@[simp] theorem State.bump_pending (s : State) (r : Reg) : (s.bump r).pending = s.pending := rfl
@[simp] theorem State.bump_now (s : State) (r : Reg) : (s.bump r).now = s.now := rfl
@[simp] theorem State.bump_free (s : State) (r : Reg) : (s.bump r).free = s.free := rfl
@[simp] theorem State.bump_sys (s : State) (r : Reg) : (s.bump r).sys = s.sys := rfl
@[simp] theorem State.bump_pins (s : State) (r : Reg) : (s.bump r).pins = s.pins := rfl
@[simp] theorem State.bump_blobs (s : State) (r : Reg) : (s.bump r).blobs = s.blobs := rfl
@[simp] theorem State.bump_mgmt (s : State) (r : Reg) : (s.bump r).mgmt = s.mgmt := rfl
@[simp] theorem State.bump_flash (s : State) (r : Reg) : (s.bump r).flash = s.flash := rfl
@[simp] theorem State.bump_keys (s : State) (r : Reg) : (s.bump r).keys = s.keys := rfl
@[simp] theorem State.bump_svc (s : State) (r : Reg) : (s.bump r).svc = s.svc := rfl
@[simp] theorem State.bump_wm (s : State) (r : Reg) : (s.bump r).wm = s.wm := rfl
@[simp] theorem State.bump_mains (s : State) (r : Reg) : (s.bump r).mains = s.mains := rfl
@[simp] theorem State.bump_bh (s : State) (r : Reg) : (s.bump r).bh = s.bh := rfl
@[simp] theorem State.bump_time (s : State) (r : Reg) : (s.bump r).time = s.time := rfl
@[simp] theorem State.bump_perf (s : State) (r : Reg) : (s.bump r).perf = s.perf := rfl
@[simp] theorem State.bump_jtag (s : State) (r : Reg) : (s.bump r).jtag = s.jtag := rfl
@[simp] theorem State.bump_loop (s : State) (r : Reg) : (s.bump r).loop = s.loop := rfl
@[simp] theorem State.bump_tracker (s : State) (r : Reg) : (s.bump r).tracker = s.tracker := rfl
@[simp] theorem State.bump_tides (s : State) (r : Reg) : (s.bump r).tides = s.tides := rfl
@[simp] theorem State.bump_mac (s : State) (r : Reg) : (s.bump r).mac = s.mac := rfl
@[simp] theorem State.bump_domain (s : State) (r : Reg) : (s.bump r).domain = s.domain := rfl
@[simp] theorem State.bump_txn (s : State) (r : Reg) : (s.bump r).txn = s.txn := rfl
@[simp] theorem State.bump_line (s : State) (r : Reg) : (s.bump r).line = s.line := rfl

@[simp] theorem State.wrB_pending (s : State) (b : Blob) (v : List Byte) : (s.wrB b v).pending = s.pending := rfl
@[simp] theorem State.wrB_now (s : State) (b : Blob) (v : List Byte) : (s.wrB b v).now = s.now := rfl
@[simp] theorem State.wrB_free (s : State) (b : Blob) (v : List Byte) : (s.wrB b v).free = s.free := rfl
@[simp] theorem State.wrB_sys (s : State) (b : Blob) (v : List Byte) : (s.wrB b v).sys = s.sys := rfl
@[simp] theorem State.wrB_pins (s : State) (b : Blob) (v : List Byte) : (s.wrB b v).pins = s.pins := rfl
@[simp] theorem State.wrB_dict (s : State) (b : Blob) (v : List Byte) : (s.wrB b v).dict = s.dict := rfl
@[simp] theorem State.wrB_mgmt (s : State) (b : Blob) (v : List Byte) : (s.wrB b v).mgmt = s.mgmt := rfl
@[simp] theorem State.wrB_flash (s : State) (b : Blob) (v : List Byte) : (s.wrB b v).flash = s.flash := rfl
@[simp] theorem State.wrB_keys (s : State) (b : Blob) (v : List Byte) : (s.wrB b v).keys = s.keys := rfl
@[simp] theorem State.wrB_svc (s : State) (b : Blob) (v : List Byte) : (s.wrB b v).svc = s.svc := rfl
@[simp] theorem State.wrB_wm (s : State) (b : Blob) (v : List Byte) : (s.wrB b v).wm = s.wm := rfl
@[simp] theorem State.wrB_mains (s : State) (b : Blob) (v : List Byte) : (s.wrB b v).mains = s.mains := rfl
@[simp] theorem State.wrB_bh (s : State) (b : Blob) (v : List Byte) : (s.wrB b v).bh = s.bh := rfl
@[simp] theorem State.wrB_time (s : State) (b : Blob) (v : List Byte) : (s.wrB b v).time = s.time := rfl
@[simp] theorem State.wrB_perf (s : State) (b : Blob) (v : List Byte) : (s.wrB b v).perf = s.perf := rfl
@[simp] theorem State.wrB_jtag (s : State) (b : Blob) (v : List Byte) : (s.wrB b v).jtag = s.jtag := rfl
@[simp] theorem State.wrB_loop (s : State) (b : Blob) (v : List Byte) : (s.wrB b v).loop = s.loop := rfl
@[simp] theorem State.wrB_tracker (s : State) (b : Blob) (v : List Byte) : (s.wrB b v).tracker = s.tracker := rfl
@[simp] theorem State.wrB_tides (s : State) (b : Blob) (v : List Byte) : (s.wrB b v).tides = s.tides := rfl
@[simp] theorem State.wrB_mac (s : State) (b : Blob) (v : List Byte) : (s.wrB b v).mac = s.mac := rfl
@[simp] theorem State.wrB_domain (s : State) (b : Blob) (v : List Byte) : (s.wrB b v).domain = s.domain := rfl
@[simp] theorem State.wrB_txn (s : State) (b : Blob) (v : List Byte) : (s.wrB b v).txn = s.txn := rfl
@[simp] theorem State.wrB_line (s : State) (b : Blob) (v : List Byte) : (s.wrB b v).line = s.line := rfl

@[simp] theorem State.fresh_pending (s : State) : (s.fresh.2).pending = s.pending := rfl
@[simp] theorem State.fresh_now (s : State) : (s.fresh.2).now = s.now := rfl
@[simp] theorem State.fresh_sys (s : State) : (s.fresh.2).sys = s.sys := rfl
@[simp] theorem State.fresh_pins (s : State) : (s.fresh.2).pins = s.pins := rfl
@[simp] theorem State.fresh_dict (s : State) : (s.fresh.2).dict = s.dict := rfl
@[simp] theorem State.fresh_blobs (s : State) : (s.fresh.2).blobs = s.blobs := rfl
@[simp] theorem State.fresh_mgmt (s : State) : (s.fresh.2).mgmt = s.mgmt := rfl
@[simp] theorem State.fresh_flash (s : State) : (s.fresh.2).flash = s.flash := rfl
@[simp] theorem State.fresh_keys (s : State) : (s.fresh.2).keys = s.keys := rfl
@[simp] theorem State.fresh_svc (s : State) : (s.fresh.2).svc = s.svc := rfl
@[simp] theorem State.fresh_wm (s : State) : (s.fresh.2).wm = s.wm := rfl
@[simp] theorem State.fresh_mains (s : State) : (s.fresh.2).mains = s.mains := rfl
@[simp] theorem State.fresh_bh (s : State) : (s.fresh.2).bh = s.bh := rfl
@[simp] theorem State.fresh_time (s : State) : (s.fresh.2).time = s.time := rfl
@[simp] theorem State.fresh_perf (s : State) : (s.fresh.2).perf = s.perf := rfl
@[simp] theorem State.fresh_jtag (s : State) : (s.fresh.2).jtag = s.jtag := rfl
@[simp] theorem State.fresh_loop (s : State) : (s.fresh.2).loop = s.loop := rfl
@[simp] theorem State.fresh_tracker (s : State) : (s.fresh.2).tracker = s.tracker := rfl
@[simp] theorem State.fresh_tides (s : State) : (s.fresh.2).tides = s.tides := rfl
@[simp] theorem State.fresh_mac (s : State) : (s.fresh.2).mac = s.mac := rfl
@[simp] theorem State.fresh_domain (s : State) : (s.fresh.2).domain = s.domain := rfl
@[simp] theorem State.fresh_txn (s : State) : (s.fresh.2).txn = s.txn := rfl
@[simp] theorem State.fresh_line (s : State) : (s.fresh.2).line = s.line := rfl

@[simp] theorem State.setByte_pending (s : State) (a : Nat) (b : Byte) : (s.setByte a b).pending = s.pending := rfl
@[simp] theorem State.setByte_now (s : State) (a : Nat) (b : Byte) : (s.setByte a b).now = s.now := rfl
@[simp] theorem State.setByte_free (s : State) (a : Nat) (b : Byte) : (s.setByte a b).free = s.free := rfl
@[simp] theorem State.setByte_sys (s : State) (a : Nat) (b : Byte) : (s.setByte a b).sys = s.sys := rfl
@[simp] theorem State.setByte_pins (s : State) (a : Nat) (b : Byte) : (s.setByte a b).pins = s.pins := rfl
@[simp] theorem State.setByte_dict (s : State) (a : Nat) (b : Byte) : (s.setByte a b).dict = s.dict := rfl
@[simp] theorem State.setByte_blobs (s : State) (a : Nat) (b : Byte) : (s.setByte a b).blobs = s.blobs := rfl
@[simp] theorem State.setByte_mgmt (s : State) (a : Nat) (b : Byte) : (s.setByte a b).mgmt = s.mgmt := rfl
@[simp] theorem State.setByte_flash (s : State) (a : Nat) (b : Byte) : (s.setByte a b).flash = s.flash := rfl
@[simp] theorem State.setByte_keys (s : State) (a : Nat) (b : Byte) : (s.setByte a b).keys = s.keys := rfl
@[simp] theorem State.setByte_svc (s : State) (a : Nat) (b : Byte) : (s.setByte a b).svc = s.svc := rfl
@[simp] theorem State.setByte_mains (s : State) (a : Nat) (b : Byte) : (s.setByte a b).mains = s.mains := rfl
@[simp] theorem State.setByte_bh (s : State) (a : Nat) (b : Byte) : (s.setByte a b).bh = s.bh := rfl
@[simp] theorem State.setByte_time (s : State) (a : Nat) (b : Byte) : (s.setByte a b).time = s.time := rfl
@[simp] theorem State.setByte_perf (s : State) (a : Nat) (b : Byte) : (s.setByte a b).perf = s.perf := rfl
@[simp] theorem State.setByte_jtag (s : State) (a : Nat) (b : Byte) : (s.setByte a b).jtag = s.jtag := rfl
@[simp] theorem State.setByte_loop (s : State) (a : Nat) (b : Byte) : (s.setByte a b).loop = s.loop := rfl
@[simp] theorem State.setByte_tracker (s : State) (a : Nat) (b : Byte) : (s.setByte a b).tracker = s.tracker := rfl
@[simp] theorem State.setByte_tides (s : State) (a : Nat) (b : Byte) : (s.setByte a b).tides = s.tides := rfl
@[simp] theorem State.setByte_mac (s : State) (a : Nat) (b : Byte) : (s.setByte a b).mac = s.mac := rfl
@[simp] theorem State.setByte_domain (s : State) (a : Nat) (b : Byte) : (s.setByte a b).domain = s.domain := rfl
@[simp] theorem State.setByte_txn (s : State) (a : Nat) (b : Byte) : (s.setByte a b).txn = s.txn := rfl
@[simp] theorem State.setByte_line (s : State) (a : Nat) (b : Byte) : (s.setByte a b).line = s.line := rfl

@[simp] theorem State.setBytes_pending (s : State) (a : Nat) (bs : List Byte) : (s.setBytes a bs).pending = s.pending := by
  induction bs generalizing s a with
  | nil => rfl
  | cons b bs ih => simp [State.setBytes, ih]
@[simp] theorem State.setBytes_now (s : State) (a : Nat) (bs : List Byte) : (s.setBytes a bs).now = s.now := by
  induction bs generalizing s a with
  | nil => rfl
  | cons b bs ih => simp [State.setBytes, ih]
@[simp] theorem State.setBytes_free (s : State) (a : Nat) (bs : List Byte) : (s.setBytes a bs).free = s.free := by
  induction bs generalizing s a with
  | nil => rfl
  | cons b bs ih => simp [State.setBytes, ih]
@[simp] theorem State.setBytes_sys (s : State) (a : Nat) (bs : List Byte) : (s.setBytes a bs).sys = s.sys := by
  induction bs generalizing s a with
  | nil => rfl
  | cons b bs ih => simp [State.setBytes, ih]
@[simp] theorem State.setBytes_pins (s : State) (a : Nat) (bs : List Byte) : (s.setBytes a bs).pins = s.pins := by
  induction bs generalizing s a with
  | nil => rfl
  | cons b bs ih => simp [State.setBytes, ih]
@[simp] theorem State.setBytes_dict (s : State) (a : Nat) (bs : List Byte) : (s.setBytes a bs).dict = s.dict := by
  induction bs generalizing s a with
  | nil => rfl
  | cons b bs ih => simp [State.setBytes, ih]
@[simp] theorem State.setBytes_blobs (s : State) (a : Nat) (bs : List Byte) : (s.setBytes a bs).blobs = s.blobs := by
  induction bs generalizing s a with
  | nil => rfl
  | cons b bs ih => simp [State.setBytes, ih]
@[simp] theorem State.setBytes_mgmt (s : State) (a : Nat) (bs : List Byte) : (s.setBytes a bs).mgmt = s.mgmt := by
  induction bs generalizing s a with
  | nil => rfl
  | cons b bs ih => simp [State.setBytes, ih]
@[simp] theorem State.setBytes_flash (s : State) (a : Nat) (bs : List Byte) : (s.setBytes a bs).flash = s.flash := by
  induction bs generalizing s a with
  | nil => rfl
  | cons b bs ih => simp [State.setBytes, ih]
@[simp] theorem State.setBytes_keys (s : State) (a : Nat) (bs : List Byte) : (s.setBytes a bs).keys = s.keys := by
  induction bs generalizing s a with
  | nil => rfl
  | cons b bs ih => simp [State.setBytes, ih]
@[simp] theorem State.setBytes_svc (s : State) (a : Nat) (bs : List Byte) : (s.setBytes a bs).svc = s.svc := by
  induction bs generalizing s a with
  | nil => rfl
  | cons b bs ih => simp [State.setBytes, ih]
@[simp] theorem State.setBytes_mains (s : State) (a : Nat) (bs : List Byte) : (s.setBytes a bs).mains = s.mains := by
  induction bs generalizing s a with
  | nil => rfl
  | cons b bs ih => simp [State.setBytes, ih]
@[simp] theorem State.setBytes_bh (s : State) (a : Nat) (bs : List Byte) : (s.setBytes a bs).bh = s.bh := by
  induction bs generalizing s a with
  | nil => rfl
  | cons b bs ih => simp [State.setBytes, ih]
@[simp] theorem State.setBytes_time (s : State) (a : Nat) (bs : List Byte) : (s.setBytes a bs).time = s.time := by
  induction bs generalizing s a with
  | nil => rfl
  | cons b bs ih => simp [State.setBytes, ih]
@[simp] theorem State.setBytes_perf (s : State) (a : Nat) (bs : List Byte) : (s.setBytes a bs).perf = s.perf := by
  induction bs generalizing s a with
  | nil => rfl
  | cons b bs ih => simp [State.setBytes, ih]
@[simp] theorem State.setBytes_jtag (s : State) (a : Nat) (bs : List Byte) : (s.setBytes a bs).jtag = s.jtag := by
  induction bs generalizing s a with
  | nil => rfl
  | cons b bs ih => simp [State.setBytes, ih]
@[simp] theorem State.setBytes_loop (s : State) (a : Nat) (bs : List Byte) : (s.setBytes a bs).loop = s.loop := by
  induction bs generalizing s a with
  | nil => rfl
  | cons b bs ih => simp [State.setBytes, ih]
@[simp] theorem State.setBytes_tracker (s : State) (a : Nat) (bs : List Byte) : (s.setBytes a bs).tracker = s.tracker := by
  induction bs generalizing s a with
  | nil => rfl
  | cons b bs ih => simp [State.setBytes, ih]
@[simp] theorem State.setBytes_tides (s : State) (a : Nat) (bs : List Byte) : (s.setBytes a bs).tides = s.tides := by
  induction bs generalizing s a with
  | nil => rfl
  | cons b bs ih => simp [State.setBytes, ih]
@[simp] theorem State.setBytes_mac (s : State) (a : Nat) (bs : List Byte) : (s.setBytes a bs).mac = s.mac := by
  induction bs generalizing s a with
  | nil => rfl
  | cons b bs ih => simp [State.setBytes, ih]
@[simp] theorem State.setBytes_domain (s : State) (a : Nat) (bs : List Byte) : (s.setBytes a bs).domain = s.domain := by
  induction bs generalizing s a with
  | nil => rfl
  | cons b bs ih => simp [State.setBytes, ih]
@[simp] theorem State.setBytes_txn (s : State) (a : Nat) (bs : List Byte) : (s.setBytes a bs).txn = s.txn := by
  induction bs generalizing s a with
  | nil => rfl
  | cons b bs ih => simp [State.setBytes, ih]
@[simp] theorem State.setBytes_line (s : State) (a : Nat) (bs : List Byte) : (s.setBytes a bs).line = s.line := by
  induction bs generalizing s a with
  | nil => rfl
  | cons b bs ih => simp [State.setBytes, ih]

@[simp] theorem State.modBank_pending (s : State) (b : Nat) (f : Bank → Bank) : (s.modBank b f).pending = s.pending := rfl
@[simp] theorem State.modBank_now (s : State) (b : Nat) (f : Bank → Bank) : (s.modBank b f).now = s.now := rfl
@[simp] theorem State.modBank_free (s : State) (b : Nat) (f : Bank → Bank) : (s.modBank b f).free = s.free := rfl
@[simp] theorem State.modBank_sys (s : State) (b : Nat) (f : Bank → Bank) : (s.modBank b f).sys = s.sys := rfl
@[simp] theorem State.modBank_pins (s : State) (b : Nat) (f : Bank → Bank) : (s.modBank b f).pins = s.pins := rfl
@[simp] theorem State.modBank_dict (s : State) (b : Nat) (f : Bank → Bank) : (s.modBank b f).dict = s.dict := rfl
@[simp] theorem State.modBank_blobs (s : State) (b : Nat) (f : Bank → Bank) : (s.modBank b f).blobs = s.blobs := rfl
@[simp] theorem State.modBank_mgmt (s : State) (b : Nat) (f : Bank → Bank) : (s.modBank b f).mgmt = s.mgmt := rfl
@[simp] theorem State.modBank_flash (s : State) (b : Nat) (f : Bank → Bank) : (s.modBank b f).flash = s.flash := rfl
@[simp] theorem State.modBank_keys (s : State) (b : Nat) (f : Bank → Bank) : (s.modBank b f).keys = s.keys := rfl
@[simp] theorem State.modBank_svc (s : State) (b : Nat) (f : Bank → Bank) : (s.modBank b f).svc = s.svc := rfl
@[simp] theorem State.modBank_wm (s : State) (b : Nat) (f : Bank → Bank) : (s.modBank b f).wm = s.wm := rfl
@[simp] theorem State.modBank_mains (s : State) (b : Nat) (f : Bank → Bank) : (s.modBank b f).mains = s.mains := rfl
@[simp] theorem State.modBank_bh (s : State) (b : Nat) (f : Bank → Bank) : (s.modBank b f).bh = s.bh := rfl
@[simp] theorem State.modBank_time (s : State) (b : Nat) (f : Bank → Bank) : (s.modBank b f).time = s.time := rfl
@[simp] theorem State.modBank_jtag (s : State) (b : Nat) (f : Bank → Bank) : (s.modBank b f).jtag = s.jtag := rfl
@[simp] theorem State.modBank_loop (s : State) (b : Nat) (f : Bank → Bank) : (s.modBank b f).loop = s.loop := rfl
@[simp] theorem State.modBank_tracker (s : State) (b : Nat) (f : Bank → Bank) : (s.modBank b f).tracker = s.tracker := rfl
@[simp] theorem State.modBank_tides (s : State) (b : Nat) (f : Bank → Bank) : (s.modBank b f).tides = s.tides := rfl
@[simp] theorem State.modBank_mac (s : State) (b : Nat) (f : Bank → Bank) : (s.modBank b f).mac = s.mac := rfl
@[simp] theorem State.modBank_domain (s : State) (b : Nat) (f : Bank → Bank) : (s.modBank b f).domain = s.domain := rfl
@[simp] theorem State.modBank_txn (s : State) (b : Nat) (f : Bank → Bank) : (s.modBank b f).txn = s.txn := rfl
@[simp] theorem State.modBank_line (s : State) (b : Nat) (f : Bank → Bank) : (s.modBank b f).line = s.line := rfl

@[simp] theorem State.events_pending (s : State) (b code : Nat) (c : Option Nat) (n : Nat) : (s.events b code c n).pending = s.pending := by
  unfold State.events
  exact State.foldl_keeps (·.pending) _ (fun t k => by split <;> rfl) _ _
@[simp] theorem State.events_now (s : State) (b code : Nat) (c : Option Nat) (n : Nat) : (s.events b code c n).now = s.now := by
  unfold State.events
  exact State.foldl_keeps (·.now) _ (fun t k => by split <;> rfl) _ _
@[simp] theorem State.events_free (s : State) (b code : Nat) (c : Option Nat) (n : Nat) : (s.events b code c n).free = s.free := by
  unfold State.events
  exact State.foldl_keeps (·.free) _ (fun t k => by split <;> rfl) _ _
@[simp] theorem State.events_sys (s : State) (b code : Nat) (c : Option Nat) (n : Nat) : (s.events b code c n).sys = s.sys := by
  unfold State.events
  exact State.foldl_keeps (·.sys) _ (fun t k => by split <;> rfl) _ _
@[simp] theorem State.events_pins (s : State) (b code : Nat) (c : Option Nat) (n : Nat) : (s.events b code c n).pins = s.pins := by
  unfold State.events
  exact State.foldl_keeps (·.pins) _ (fun t k => by split <;> rfl) _ _
@[simp] theorem State.events_dict (s : State) (b code : Nat) (c : Option Nat) (n : Nat) : (s.events b code c n).dict = s.dict := by
  unfold State.events
  exact State.foldl_keeps (·.dict) _ (fun t k => by split <;> rfl) _ _
@[simp] theorem State.events_blobs (s : State) (b code : Nat) (c : Option Nat) (n : Nat) : (s.events b code c n).blobs = s.blobs := by
  unfold State.events
  exact State.foldl_keeps (·.blobs) _ (fun t k => by split <;> rfl) _ _
@[simp] theorem State.events_mgmt (s : State) (b code : Nat) (c : Option Nat) (n : Nat) : (s.events b code c n).mgmt = s.mgmt := by
  unfold State.events
  exact State.foldl_keeps (·.mgmt) _ (fun t k => by split <;> rfl) _ _
@[simp] theorem State.events_flash (s : State) (b code : Nat) (c : Option Nat) (n : Nat) : (s.events b code c n).flash = s.flash := by
  unfold State.events
  exact State.foldl_keeps (·.flash) _ (fun t k => by split <;> rfl) _ _
@[simp] theorem State.events_keys (s : State) (b code : Nat) (c : Option Nat) (n : Nat) : (s.events b code c n).keys = s.keys := by
  unfold State.events
  exact State.foldl_keeps (·.keys) _ (fun t k => by split <;> rfl) _ _
@[simp] theorem State.events_svc (s : State) (b code : Nat) (c : Option Nat) (n : Nat) : (s.events b code c n).svc = s.svc := by
  unfold State.events
  exact State.foldl_keeps (·.svc) _ (fun t k => by split <;> rfl) _ _
@[simp] theorem State.events_wm (s : State) (b code : Nat) (c : Option Nat) (n : Nat) : (s.events b code c n).wm = s.wm := by
  unfold State.events
  exact State.foldl_keeps (·.wm) _ (fun t k => by split <;> rfl) _ _
@[simp] theorem State.events_mains (s : State) (b code : Nat) (c : Option Nat) (n : Nat) : (s.events b code c n).mains = s.mains := by
  unfold State.events
  exact State.foldl_keeps (·.mains) _ (fun t k => by split <;> rfl) _ _
@[simp] theorem State.events_bh (s : State) (b code : Nat) (c : Option Nat) (n : Nat) : (s.events b code c n).bh = s.bh := by
  unfold State.events
  exact State.foldl_keeps (·.bh) _ (fun t k => by split <;> rfl) _ _
@[simp] theorem State.events_time (s : State) (b code : Nat) (c : Option Nat) (n : Nat) : (s.events b code c n).time = s.time := by
  unfold State.events
  exact State.foldl_keeps (·.time) _ (fun t k => by split <;> rfl) _ _
@[simp] theorem State.events_jtag (s : State) (b code : Nat) (c : Option Nat) (n : Nat) : (s.events b code c n).jtag = s.jtag := by
  unfold State.events
  exact State.foldl_keeps (·.jtag) _ (fun t k => by split <;> rfl) _ _
@[simp] theorem State.events_loop (s : State) (b code : Nat) (c : Option Nat) (n : Nat) : (s.events b code c n).loop = s.loop := by
  unfold State.events
  exact State.foldl_keeps (·.loop) _ (fun t k => by split <;> rfl) _ _
@[simp] theorem State.events_tracker (s : State) (b code : Nat) (c : Option Nat) (n : Nat) : (s.events b code c n).tracker = s.tracker := by
  unfold State.events
  exact State.foldl_keeps (·.tracker) _ (fun t k => by split <;> rfl) _ _
@[simp] theorem State.events_tides (s : State) (b code : Nat) (c : Option Nat) (n : Nat) : (s.events b code c n).tides = s.tides := by
  unfold State.events
  exact State.foldl_keeps (·.tides) _ (fun t k => by split <;> rfl) _ _
@[simp] theorem State.events_mac (s : State) (b code : Nat) (c : Option Nat) (n : Nat) : (s.events b code c n).mac = s.mac := by
  unfold State.events
  exact State.foldl_keeps (·.mac) _ (fun t k => by split <;> rfl) _ _
@[simp] theorem State.events_domain (s : State) (b code : Nat) (c : Option Nat) (n : Nat) : (s.events b code c n).domain = s.domain := by
  unfold State.events
  exact State.foldl_keeps (·.domain) _ (fun t k => by split <;> rfl) _ _
@[simp] theorem State.events_txn (s : State) (b code : Nat) (c : Option Nat) (n : Nat) : (s.events b code c n).txn = s.txn := by
  unfold State.events
  exact State.foldl_keeps (·.txn) _ (fun t k => by split <;> rfl) _ _
@[simp] theorem State.events_line (s : State) (b code : Nat) (c : Option Nat) (n : Nat) : (s.events b code c n).line = s.line := by
  unfold State.events
  exact State.foldl_keeps (·.line) _ (fun t k => by split <;> rfl) _ _

@[simp] theorem State.event_pending (s : State) (b code : Nat) : (s.event b code).pending = s.pending := by simp [State.event]
@[simp] theorem State.event_now (s : State) (b code : Nat) : (s.event b code).now = s.now := by simp [State.event]
@[simp] theorem State.event_free (s : State) (b code : Nat) : (s.event b code).free = s.free := by simp [State.event]
@[simp] theorem State.event_sys (s : State) (b code : Nat) : (s.event b code).sys = s.sys := by simp [State.event]
@[simp] theorem State.event_pins (s : State) (b code : Nat) : (s.event b code).pins = s.pins := by simp [State.event]
@[simp] theorem State.event_dict (s : State) (b code : Nat) : (s.event b code).dict = s.dict := by simp [State.event]
@[simp] theorem State.event_blobs (s : State) (b code : Nat) : (s.event b code).blobs = s.blobs := by simp [State.event]
@[simp] theorem State.event_mgmt (s : State) (b code : Nat) : (s.event b code).mgmt = s.mgmt := by simp [State.event]
@[simp] theorem State.event_flash (s : State) (b code : Nat) : (s.event b code).flash = s.flash := by simp [State.event]
@[simp] theorem State.event_keys (s : State) (b code : Nat) : (s.event b code).keys = s.keys := by simp [State.event]
@[simp] theorem State.event_svc (s : State) (b code : Nat) : (s.event b code).svc = s.svc := by simp [State.event]
@[simp] theorem State.event_wm (s : State) (b code : Nat) : (s.event b code).wm = s.wm := by simp [State.event]
@[simp] theorem State.event_mains (s : State) (b code : Nat) : (s.event b code).mains = s.mains := by simp [State.event]
@[simp] theorem State.event_bh (s : State) (b code : Nat) : (s.event b code).bh = s.bh := by simp [State.event]
@[simp] theorem State.event_time (s : State) (b code : Nat) : (s.event b code).time = s.time := by simp [State.event]
@[simp] theorem State.event_jtag (s : State) (b code : Nat) : (s.event b code).jtag = s.jtag := by simp [State.event]
@[simp] theorem State.event_loop (s : State) (b code : Nat) : (s.event b code).loop = s.loop := by simp [State.event]
@[simp] theorem State.event_tracker (s : State) (b code : Nat) : (s.event b code).tracker = s.tracker := by simp [State.event]
@[simp] theorem State.event_tides (s : State) (b code : Nat) : (s.event b code).tides = s.tides := by simp [State.event]
@[simp] theorem State.event_mac (s : State) (b code : Nat) : (s.event b code).mac = s.mac := by simp [State.event]
@[simp] theorem State.event_domain (s : State) (b code : Nat) : (s.event b code).domain = s.domain := by simp [State.event]
@[simp] theorem State.event_txn (s : State) (b code : Nat) : (s.event b code).txn = s.txn := by simp [State.event]
@[simp] theorem State.event_line (s : State) (b code : Nat) : (s.event b code).line = s.line := by simp [State.event]

@[simp] theorem State.eventC_pending (s : State) (b code c : Nat) : (s.eventC b code c).pending = s.pending := by simp [State.eventC]
@[simp] theorem State.eventC_now (s : State) (b code c : Nat) : (s.eventC b code c).now = s.now := by simp [State.eventC]
@[simp] theorem State.eventC_free (s : State) (b code c : Nat) : (s.eventC b code c).free = s.free := by simp [State.eventC]
@[simp] theorem State.eventC_sys (s : State) (b code c : Nat) : (s.eventC b code c).sys = s.sys := by simp [State.eventC]
@[simp] theorem State.eventC_pins (s : State) (b code c : Nat) : (s.eventC b code c).pins = s.pins := by simp [State.eventC]
@[simp] theorem State.eventC_dict (s : State) (b code c : Nat) : (s.eventC b code c).dict = s.dict := by simp [State.eventC]
@[simp] theorem State.eventC_blobs (s : State) (b code c : Nat) : (s.eventC b code c).blobs = s.blobs := by simp [State.eventC]
@[simp] theorem State.eventC_mgmt (s : State) (b code c : Nat) : (s.eventC b code c).mgmt = s.mgmt := by simp [State.eventC]
@[simp] theorem State.eventC_flash (s : State) (b code c : Nat) : (s.eventC b code c).flash = s.flash := by simp [State.eventC]
@[simp] theorem State.eventC_keys (s : State) (b code c : Nat) : (s.eventC b code c).keys = s.keys := by simp [State.eventC]
@[simp] theorem State.eventC_svc (s : State) (b code c : Nat) : (s.eventC b code c).svc = s.svc := by simp [State.eventC]
@[simp] theorem State.eventC_wm (s : State) (b code c : Nat) : (s.eventC b code c).wm = s.wm := by simp [State.eventC]
@[simp] theorem State.eventC_mains (s : State) (b code c : Nat) : (s.eventC b code c).mains = s.mains := by simp [State.eventC]
@[simp] theorem State.eventC_bh (s : State) (b code c : Nat) : (s.eventC b code c).bh = s.bh := by simp [State.eventC]
@[simp] theorem State.eventC_time (s : State) (b code c : Nat) : (s.eventC b code c).time = s.time := by simp [State.eventC]
@[simp] theorem State.eventC_jtag (s : State) (b code c : Nat) : (s.eventC b code c).jtag = s.jtag := by simp [State.eventC]
@[simp] theorem State.eventC_loop (s : State) (b code c : Nat) : (s.eventC b code c).loop = s.loop := by simp [State.eventC]
@[simp] theorem State.eventC_tracker (s : State) (b code c : Nat) : (s.eventC b code c).tracker = s.tracker := by simp [State.eventC]
@[simp] theorem State.eventC_tides (s : State) (b code c : Nat) : (s.eventC b code c).tides = s.tides := by simp [State.eventC]
@[simp] theorem State.eventC_mac (s : State) (b code c : Nat) : (s.eventC b code c).mac = s.mac := by simp [State.eventC]
@[simp] theorem State.eventC_domain (s : State) (b code c : Nat) : (s.eventC b code c).domain = s.domain := by simp [State.eventC]
@[simp] theorem State.eventC_txn (s : State) (b code c : Nat) : (s.eventC b code c).txn = s.txn := by simp [State.eventC]
@[simp] theorem State.eventC_line (s : State) (b code c : Nat) : (s.eventC b code c).line = s.line := by simp [State.eventC]

@[simp] theorem State.answer_pending (s : State) (a : Nat) (d : List Byte) : (s.answer a d).pending = s.pending := rfl
@[simp] theorem State.answer_now (s : State) (a : Nat) (d : List Byte) : (s.answer a d).now = s.now := rfl
@[simp] theorem State.answer_free (s : State) (a : Nat) (d : List Byte) : (s.answer a d).free = s.free := rfl
@[simp] theorem State.answer_sys (s : State) (a : Nat) (d : List Byte) : (s.answer a d).sys = s.sys := rfl
@[simp] theorem State.answer_pins (s : State) (a : Nat) (d : List Byte) : (s.answer a d).pins = s.pins := rfl
@[simp] theorem State.answer_dict (s : State) (a : Nat) (d : List Byte) : (s.answer a d).dict = s.dict := rfl
@[simp] theorem State.answer_blobs (s : State) (a : Nat) (d : List Byte) : (s.answer a d).blobs = s.blobs := rfl
@[simp] theorem State.answer_flash (s : State) (a : Nat) (d : List Byte) : (s.answer a d).flash = s.flash := rfl
@[simp] theorem State.answer_keys (s : State) (a : Nat) (d : List Byte) : (s.answer a d).keys = s.keys := rfl
@[simp] theorem State.answer_svc (s : State) (a : Nat) (d : List Byte) : (s.answer a d).svc = s.svc := rfl
@[simp] theorem State.answer_wm (s : State) (a : Nat) (d : List Byte) : (s.answer a d).wm = s.wm := rfl
@[simp] theorem State.answer_mains (s : State) (a : Nat) (d : List Byte) : (s.answer a d).mains = s.mains := rfl
@[simp] theorem State.answer_bh (s : State) (a : Nat) (d : List Byte) : (s.answer a d).bh = s.bh := rfl
@[simp] theorem State.answer_time (s : State) (a : Nat) (d : List Byte) : (s.answer a d).time = s.time := rfl
@[simp] theorem State.answer_perf (s : State) (a : Nat) (d : List Byte) : (s.answer a d).perf = s.perf := rfl
@[simp] theorem State.answer_jtag (s : State) (a : Nat) (d : List Byte) : (s.answer a d).jtag = s.jtag := rfl
@[simp] theorem State.answer_loop (s : State) (a : Nat) (d : List Byte) : (s.answer a d).loop = s.loop := rfl
@[simp] theorem State.answer_tracker (s : State) (a : Nat) (d : List Byte) : (s.answer a d).tracker = s.tracker := rfl
@[simp] theorem State.answer_tides (s : State) (a : Nat) (d : List Byte) : (s.answer a d).tides = s.tides := rfl
@[simp] theorem State.answer_mac (s : State) (a : Nat) (d : List Byte) : (s.answer a d).mac = s.mac := rfl
@[simp] theorem State.answer_domain (s : State) (a : Nat) (d : List Byte) : (s.answer a d).domain = s.domain := rfl
@[simp] theorem State.answer_txn (s : State) (a : Nat) (d : List Byte) : (s.answer a d).txn = s.txn := rfl
@[simp] theorem State.answer_line (s : State) (a : Nat) (d : List Byte) : (s.answer a d).line = s.line := rfl

@[simp] theorem State.modQueue_pending (s : State) (q : Nat) (f : HwQueue → HwQueue) : (s.modQueue q f).pending = s.pending := rfl
@[simp] theorem State.modQueue_now (s : State) (q : Nat) (f : HwQueue → HwQueue) : (s.modQueue q f).now = s.now := rfl
@[simp] theorem State.modQueue_free (s : State) (q : Nat) (f : HwQueue → HwQueue) : (s.modQueue q f).free = s.free := rfl
@[simp] theorem State.modQueue_sys (s : State) (q : Nat) (f : HwQueue → HwQueue) : (s.modQueue q f).sys = s.sys := rfl
@[simp] theorem State.modQueue_pins (s : State) (q : Nat) (f : HwQueue → HwQueue) : (s.modQueue q f).pins = s.pins := rfl
@[simp] theorem State.modQueue_dict (s : State) (q : Nat) (f : HwQueue → HwQueue) : (s.modQueue q f).dict = s.dict := rfl
@[simp] theorem State.modQueue_blobs (s : State) (q : Nat) (f : HwQueue → HwQueue) : (s.modQueue q f).blobs = s.blobs := rfl
@[simp] theorem State.modQueue_mgmt (s : State) (q : Nat) (f : HwQueue → HwQueue) : (s.modQueue q f).mgmt = s.mgmt := rfl
@[simp] theorem State.modQueue_flash (s : State) (q : Nat) (f : HwQueue → HwQueue) : (s.modQueue q f).flash = s.flash := rfl
@[simp] theorem State.modQueue_keys (s : State) (q : Nat) (f : HwQueue → HwQueue) : (s.modQueue q f).keys = s.keys := rfl
@[simp] theorem State.modQueue_wm (s : State) (q : Nat) (f : HwQueue → HwQueue) : (s.modQueue q f).wm = s.wm := rfl
@[simp] theorem State.modQueue_mains (s : State) (q : Nat) (f : HwQueue → HwQueue) : (s.modQueue q f).mains = s.mains := rfl
@[simp] theorem State.modQueue_bh (s : State) (q : Nat) (f : HwQueue → HwQueue) : (s.modQueue q f).bh = s.bh := rfl
@[simp] theorem State.modQueue_time (s : State) (q : Nat) (f : HwQueue → HwQueue) : (s.modQueue q f).time = s.time := rfl
@[simp] theorem State.modQueue_perf (s : State) (q : Nat) (f : HwQueue → HwQueue) : (s.modQueue q f).perf = s.perf := rfl
@[simp] theorem State.modQueue_jtag (s : State) (q : Nat) (f : HwQueue → HwQueue) : (s.modQueue q f).jtag = s.jtag := rfl
@[simp] theorem State.modQueue_loop (s : State) (q : Nat) (f : HwQueue → HwQueue) : (s.modQueue q f).loop = s.loop := rfl
@[simp] theorem State.modQueue_tracker (s : State) (q : Nat) (f : HwQueue → HwQueue) : (s.modQueue q f).tracker = s.tracker := rfl
@[simp] theorem State.modQueue_tides (s : State) (q : Nat) (f : HwQueue → HwQueue) : (s.modQueue q f).tides = s.tides := rfl
@[simp] theorem State.modQueue_mac (s : State) (q : Nat) (f : HwQueue → HwQueue) : (s.modQueue q f).mac = s.mac := rfl
@[simp] theorem State.modQueue_domain (s : State) (q : Nat) (f : HwQueue → HwQueue) : (s.modQueue q f).domain = s.domain := rfl
@[simp] theorem State.modQueue_txn (s : State) (q : Nat) (f : HwQueue → HwQueue) : (s.modQueue q f).txn = s.txn := rfl
@[simp] theorem State.modQueue_line (s : State) (q : Nat) (f : HwQueue → HwQueue) : (s.modQueue q f).line = s.line := rfl

@[simp] theorem State.freeEvents_pending (s : State) (b code d : Nat) : (s.freeEvents b code d).pending = s.pending := by
  unfold State.freeEvents
  split <;> simp
@[simp] theorem State.freeEvents_now (s : State) (b code d : Nat) : (s.freeEvents b code d).now = s.now := by
  unfold State.freeEvents
  split <;> simp
@[simp] theorem State.freeEvents_sys (s : State) (b code d : Nat) : (s.freeEvents b code d).sys = s.sys := by
  unfold State.freeEvents
  split <;> simp
@[simp] theorem State.freeEvents_pins (s : State) (b code d : Nat) : (s.freeEvents b code d).pins = s.pins := by
  unfold State.freeEvents
  split <;> simp
@[simp] theorem State.freeEvents_dict (s : State) (b code d : Nat) : (s.freeEvents b code d).dict = s.dict := by
  unfold State.freeEvents
  split <;> simp
@[simp] theorem State.freeEvents_blobs (s : State) (b code d : Nat) : (s.freeEvents b code d).blobs = s.blobs := by
  unfold State.freeEvents
  split <;> simp
@[simp] theorem State.freeEvents_mgmt (s : State) (b code d : Nat) : (s.freeEvents b code d).mgmt = s.mgmt := by
  unfold State.freeEvents
  split <;> simp
@[simp] theorem State.freeEvents_flash (s : State) (b code d : Nat) : (s.freeEvents b code d).flash = s.flash := by
  unfold State.freeEvents
  split <;> simp
@[simp] theorem State.freeEvents_keys (s : State) (b code d : Nat) : (s.freeEvents b code d).keys = s.keys := by
  unfold State.freeEvents
  split <;> simp
@[simp] theorem State.freeEvents_svc (s : State) (b code d : Nat) : (s.freeEvents b code d).svc = s.svc := by
  unfold State.freeEvents
  split <;> simp
@[simp] theorem State.freeEvents_wm (s : State) (b code d : Nat) : (s.freeEvents b code d).wm = s.wm := by
  unfold State.freeEvents
  split <;> simp
@[simp] theorem State.freeEvents_mains (s : State) (b code d : Nat) : (s.freeEvents b code d).mains = s.mains := by
  unfold State.freeEvents
  split <;> simp
@[simp] theorem State.freeEvents_bh (s : State) (b code d : Nat) : (s.freeEvents b code d).bh = s.bh := by
  unfold State.freeEvents
  split <;> simp
@[simp] theorem State.freeEvents_time (s : State) (b code d : Nat) : (s.freeEvents b code d).time = s.time := by
  unfold State.freeEvents
  split <;> simp
@[simp] theorem State.freeEvents_jtag (s : State) (b code d : Nat) : (s.freeEvents b code d).jtag = s.jtag := by
  unfold State.freeEvents
  split <;> simp
@[simp] theorem State.freeEvents_loop (s : State) (b code d : Nat) : (s.freeEvents b code d).loop = s.loop := by
  unfold State.freeEvents
  split <;> simp
@[simp] theorem State.freeEvents_tracker (s : State) (b code d : Nat) : (s.freeEvents b code d).tracker = s.tracker := by
  unfold State.freeEvents
  split <;> simp
@[simp] theorem State.freeEvents_tides (s : State) (b code d : Nat) : (s.freeEvents b code d).tides = s.tides := by
  unfold State.freeEvents
  split <;> simp
@[simp] theorem State.freeEvents_mac (s : State) (b code d : Nat) : (s.freeEvents b code d).mac = s.mac := by
  unfold State.freeEvents
  split <;> simp
@[simp] theorem State.freeEvents_domain (s : State) (b code d : Nat) : (s.freeEvents b code d).domain = s.domain := by
  unfold State.freeEvents
  split <;> simp
@[simp] theorem State.freeEvents_txn (s : State) (b code d : Nat) : (s.freeEvents b code d).txn = s.txn := by
  unfold State.freeEvents
  split <;> simp
@[simp] theorem State.freeEvents_line (s : State) (b code d : Nat) : (s.freeEvents b code d).line = s.line := by
  unfold State.freeEvents
  split <;> simp

@[simp] theorem State.userEvent_pending (s : State) (u code : Nat) : (s.userEvent u code).pending = s.pending := by
  unfold State.userEvent
  split <;> simp
@[simp] theorem State.userEvent_now (s : State) (u code : Nat) : (s.userEvent u code).now = s.now := by
  unfold State.userEvent
  split <;> simp
@[simp] theorem State.userEvent_free (s : State) (u code : Nat) : (s.userEvent u code).free = s.free := by
  unfold State.userEvent
  split <;> simp
@[simp] theorem State.userEvent_sys (s : State) (u code : Nat) : (s.userEvent u code).sys = s.sys := by
  unfold State.userEvent
  split <;> simp
@[simp] theorem State.userEvent_pins (s : State) (u code : Nat) : (s.userEvent u code).pins = s.pins := by
  unfold State.userEvent
  split <;> simp
@[simp] theorem State.userEvent_dict (s : State) (u code : Nat) : (s.userEvent u code).dict = s.dict := by
  unfold State.userEvent
  split <;> simp
@[simp] theorem State.userEvent_blobs (s : State) (u code : Nat) : (s.userEvent u code).blobs = s.blobs := by
  unfold State.userEvent
  split <;> simp
@[simp] theorem State.userEvent_mgmt (s : State) (u code : Nat) : (s.userEvent u code).mgmt = s.mgmt := by
  unfold State.userEvent
  split <;> simp
@[simp] theorem State.userEvent_flash (s : State) (u code : Nat) : (s.userEvent u code).flash = s.flash := by
  unfold State.userEvent
  split <;> simp
@[simp] theorem State.userEvent_keys (s : State) (u code : Nat) : (s.userEvent u code).keys = s.keys := by
  unfold State.userEvent
  split <;> simp
@[simp] theorem State.userEvent_svc (s : State) (u code : Nat) : (s.userEvent u code).svc = s.svc := by
  unfold State.userEvent
  split <;> simp
@[simp] theorem State.userEvent_wm (s : State) (u code : Nat) : (s.userEvent u code).wm = s.wm := by
  unfold State.userEvent
  split <;> simp
@[simp] theorem State.userEvent_mains (s : State) (u code : Nat) : (s.userEvent u code).mains = s.mains := by
  unfold State.userEvent
  split <;> simp
@[simp] theorem State.userEvent_bh (s : State) (u code : Nat) : (s.userEvent u code).bh = s.bh := by
  unfold State.userEvent
  split <;> simp
@[simp] theorem State.userEvent_time (s : State) (u code : Nat) : (s.userEvent u code).time = s.time := by
  unfold State.userEvent
  split <;> simp
@[simp] theorem State.userEvent_jtag (s : State) (u code : Nat) : (s.userEvent u code).jtag = s.jtag := by
  unfold State.userEvent
  split <;> simp
@[simp] theorem State.userEvent_loop (s : State) (u code : Nat) : (s.userEvent u code).loop = s.loop := by
  unfold State.userEvent
  split <;> simp
@[simp] theorem State.userEvent_tracker (s : State) (u code : Nat) : (s.userEvent u code).tracker = s.tracker := by
  unfold State.userEvent
  split <;> simp
@[simp] theorem State.userEvent_tides (s : State) (u code : Nat) : (s.userEvent u code).tides = s.tides := by
  unfold State.userEvent
  split <;> simp
@[simp] theorem State.userEvent_mac (s : State) (u code : Nat) : (s.userEvent u code).mac = s.mac := by
  unfold State.userEvent
  split <;> simp
@[simp] theorem State.userEvent_domain (s : State) (u code : Nat) : (s.userEvent u code).domain = s.domain := by
  unfold State.userEvent
  split <;> simp
@[simp] theorem State.userEvent_txn (s : State) (u code : Nat) : (s.userEvent u code).txn = s.txn := by
  unfold State.userEvent
  split <;> simp
@[simp] theorem State.userEvent_line (s : State) (u code : Nat) : (s.userEvent u code).line = s.line := by
  unfold State.userEvent
  split <;> simp

@[simp] theorem State.wordRead_pending (s : State) (q u : Nat) (e : Bool) : (s.wordRead q u e).pending = s.pending := by
  unfold State.wordRead
  split <;> [skip; split] <;> simp
@[simp] theorem State.wordRead_now (s : State) (q u : Nat) (e : Bool) : (s.wordRead q u e).now = s.now := by
  unfold State.wordRead
  split <;> [skip; split] <;> simp
@[simp] theorem State.wordRead_free (s : State) (q u : Nat) (e : Bool) : (s.wordRead q u e).free = s.free := by
  unfold State.wordRead
  split <;> [skip; split] <;> simp
@[simp] theorem State.wordRead_sys (s : State) (q u : Nat) (e : Bool) : (s.wordRead q u e).sys = s.sys := by
  unfold State.wordRead
  split <;> [skip; split] <;> simp
@[simp] theorem State.wordRead_pins (s : State) (q u : Nat) (e : Bool) : (s.wordRead q u e).pins = s.pins := by
  unfold State.wordRead
  split <;> [skip; split] <;> simp
@[simp] theorem State.wordRead_dict (s : State) (q u : Nat) (e : Bool) : (s.wordRead q u e).dict = s.dict := by
  unfold State.wordRead
  split <;> [skip; split] <;> simp
@[simp] theorem State.wordRead_blobs (s : State) (q u : Nat) (e : Bool) : (s.wordRead q u e).blobs = s.blobs := by
  unfold State.wordRead
  split <;> [skip; split] <;> simp
@[simp] theorem State.wordRead_mgmt (s : State) (q u : Nat) (e : Bool) : (s.wordRead q u e).mgmt = s.mgmt := by
  unfold State.wordRead
  split <;> [skip; split] <;> simp
@[simp] theorem State.wordRead_flash (s : State) (q u : Nat) (e : Bool) : (s.wordRead q u e).flash = s.flash := by
  unfold State.wordRead
  split <;> [skip; split] <;> simp
@[simp] theorem State.wordRead_keys (s : State) (q u : Nat) (e : Bool) : (s.wordRead q u e).keys = s.keys := by
  unfold State.wordRead
  split <;> [skip; split] <;> simp
@[simp] theorem State.wordRead_svc (s : State) (q u : Nat) (e : Bool) : (s.wordRead q u e).svc = s.svc := by
  unfold State.wordRead
  split <;> [skip; split] <;> simp
@[simp] theorem State.wordRead_wm (s : State) (q u : Nat) (e : Bool) : (s.wordRead q u e).wm = s.wm := by
  unfold State.wordRead
  split <;> [skip; split] <;> simp
@[simp] theorem State.wordRead_mains (s : State) (q u : Nat) (e : Bool) : (s.wordRead q u e).mains = s.mains := by
  unfold State.wordRead
  split <;> [skip; split] <;> simp
@[simp] theorem State.wordRead_bh (s : State) (q u : Nat) (e : Bool) : (s.wordRead q u e).bh = s.bh := by
  unfold State.wordRead
  split <;> [skip; split] <;> simp
@[simp] theorem State.wordRead_time (s : State) (q u : Nat) (e : Bool) : (s.wordRead q u e).time = s.time := by
  unfold State.wordRead
  split <;> [skip; split] <;> simp
@[simp] theorem State.wordRead_jtag (s : State) (q u : Nat) (e : Bool) : (s.wordRead q u e).jtag = s.jtag := by
  unfold State.wordRead
  split <;> [skip; split] <;> simp
@[simp] theorem State.wordRead_loop (s : State) (q u : Nat) (e : Bool) : (s.wordRead q u e).loop = s.loop := by
  unfold State.wordRead
  split <;> [skip; split] <;> simp
@[simp] theorem State.wordRead_tracker (s : State) (q u : Nat) (e : Bool) : (s.wordRead q u e).tracker = s.tracker := by
  unfold State.wordRead
  split <;> [skip; split] <;> simp
@[simp] theorem State.wordRead_tides (s : State) (q u : Nat) (e : Bool) : (s.wordRead q u e).tides = s.tides := by
  unfold State.wordRead
  split <;> [skip; split] <;> simp
@[simp] theorem State.wordRead_mac (s : State) (q u : Nat) (e : Bool) : (s.wordRead q u e).mac = s.mac := by
  unfold State.wordRead
  split <;> [skip; split] <;> simp
@[simp] theorem State.wordRead_domain (s : State) (q u : Nat) (e : Bool) : (s.wordRead q u e).domain = s.domain := by
  unfold State.wordRead
  split <;> [skip; split] <;> simp
@[simp] theorem State.wordRead_txn (s : State) (q u : Nat) (e : Bool) : (s.wordRead q u e).txn = s.txn := by
  unfold State.wordRead
  split <;> [skip; split] <;> simp
@[simp] theorem State.wordRead_line (s : State) (q u : Nat) (e : Bool) : (s.wordRead q u e).line = s.line := by
  unfold State.wordRead
  split <;> [skip; split] <;> simp

@[simp] theorem State.queuePut_pending (s : State) (q w : Nat) (e : Bool) : (s.queuePut q w e).pending = s.pending := by
  unfold State.queuePut
  simp only
  split <;> [skip; split <;> [skip; split]] <;> simp
@[simp] theorem State.queuePut_now (s : State) (q w : Nat) (e : Bool) : (s.queuePut q w e).now = s.now := by
  unfold State.queuePut
  simp only
  split <;> [skip; split <;> [skip; split]] <;> simp
@[simp] theorem State.queuePut_free (s : State) (q w : Nat) (e : Bool) : (s.queuePut q w e).free = s.free := by
  unfold State.queuePut
  simp only
  split <;> [skip; split <;> [skip; split]] <;> simp
@[simp] theorem State.queuePut_sys (s : State) (q w : Nat) (e : Bool) : (s.queuePut q w e).sys = s.sys := by
  unfold State.queuePut
  simp only
  split <;> [skip; split <;> [skip; split]] <;> simp
@[simp] theorem State.queuePut_pins (s : State) (q w : Nat) (e : Bool) : (s.queuePut q w e).pins = s.pins := by
  unfold State.queuePut
  simp only
  split <;> [skip; split <;> [skip; split]] <;> simp
@[simp] theorem State.queuePut_blobs (s : State) (q w : Nat) (e : Bool) : (s.queuePut q w e).blobs = s.blobs := by
  unfold State.queuePut
  simp only
  split <;> [skip; split <;> [skip; split]] <;> simp
@[simp] theorem State.queuePut_mgmt (s : State) (q w : Nat) (e : Bool) : (s.queuePut q w e).mgmt = s.mgmt := by
  unfold State.queuePut
  simp only
  split <;> [skip; split <;> [skip; split]] <;> simp
@[simp] theorem State.queuePut_flash (s : State) (q w : Nat) (e : Bool) : (s.queuePut q w e).flash = s.flash := by
  unfold State.queuePut
  simp only
  split <;> [skip; split <;> [skip; split]] <;> simp
@[simp] theorem State.queuePut_keys (s : State) (q w : Nat) (e : Bool) : (s.queuePut q w e).keys = s.keys := by
  unfold State.queuePut
  simp only
  split <;> [skip; split <;> [skip; split]] <;> simp
@[simp] theorem State.queuePut_wm (s : State) (q w : Nat) (e : Bool) : (s.queuePut q w e).wm = s.wm := by
  unfold State.queuePut
  simp only
  split <;> [skip; split <;> [skip; split]] <;> simp
@[simp] theorem State.queuePut_mains (s : State) (q w : Nat) (e : Bool) : (s.queuePut q w e).mains = s.mains := by
  unfold State.queuePut
  simp only
  split <;> [skip; split <;> [skip; split]] <;> simp
@[simp] theorem State.queuePut_bh (s : State) (q w : Nat) (e : Bool) : (s.queuePut q w e).bh = s.bh := by
  unfold State.queuePut
  simp only
  split <;> [skip; split <;> [skip; split]] <;> simp
@[simp] theorem State.queuePut_time (s : State) (q w : Nat) (e : Bool) : (s.queuePut q w e).time = s.time := by
  unfold State.queuePut
  simp only
  split <;> [skip; split <;> [skip; split]] <;> simp
@[simp] theorem State.queuePut_jtag (s : State) (q w : Nat) (e : Bool) : (s.queuePut q w e).jtag = s.jtag := by
  unfold State.queuePut
  simp only
  split <;> [skip; split <;> [skip; split]] <;> simp
@[simp] theorem State.queuePut_loop (s : State) (q w : Nat) (e : Bool) : (s.queuePut q w e).loop = s.loop := by
  unfold State.queuePut
  simp only
  split <;> [skip; split <;> [skip; split]] <;> simp
@[simp] theorem State.queuePut_tracker (s : State) (q w : Nat) (e : Bool) : (s.queuePut q w e).tracker = s.tracker := by
  unfold State.queuePut
  simp only
  split <;> [skip; split <;> [skip; split]] <;> simp
@[simp] theorem State.queuePut_tides (s : State) (q w : Nat) (e : Bool) : (s.queuePut q w e).tides = s.tides := by
  unfold State.queuePut
  simp only
  split <;> [skip; split <;> [skip; split]] <;> simp
@[simp] theorem State.queuePut_mac (s : State) (q w : Nat) (e : Bool) : (s.queuePut q w e).mac = s.mac := by
  unfold State.queuePut
  simp only
  split <;> [skip; split <;> [skip; split]] <;> simp
@[simp] theorem State.queuePut_domain (s : State) (q w : Nat) (e : Bool) : (s.queuePut q w e).domain = s.domain := by
  unfold State.queuePut
  simp only
  split <;> [skip; split <;> [skip; split]] <;> simp
@[simp] theorem State.queuePut_txn (s : State) (q w : Nat) (e : Bool) : (s.queuePut q w e).txn = s.txn := by
  unfold State.queuePut
  simp only
  split <;> [skip; split <;> [skip; split]] <;> simp
@[simp] theorem State.queuePut_line (s : State) (q w : Nat) (e : Bool) : (s.queuePut q w e).line = s.line := by
  unfold State.queuePut
  simp only
  split <;> [skip; split <;> [skip; split]] <;> simp

@[simp] theorem State.putWords_pending (s : State) (q : Nat) (ws : List Nat) : (s.putWords q ws).pending = s.pending := by
  induction ws generalizing s with
  | nil => rfl
  | cons w ws ih => cases ws <;> simp [State.putWords, ih]
@[simp] theorem State.putWords_now (s : State) (q : Nat) (ws : List Nat) : (s.putWords q ws).now = s.now := by
  induction ws generalizing s with
  | nil => rfl
  | cons w ws ih => cases ws <;> simp [State.putWords, ih]
@[simp] theorem State.putWords_free (s : State) (q : Nat) (ws : List Nat) : (s.putWords q ws).free = s.free := by
  induction ws generalizing s with
  | nil => rfl
  | cons w ws ih => cases ws <;> simp [State.putWords, ih]
@[simp] theorem State.putWords_sys (s : State) (q : Nat) (ws : List Nat) : (s.putWords q ws).sys = s.sys := by
  induction ws generalizing s with
  | nil => rfl
  | cons w ws ih => cases ws <;> simp [State.putWords, ih]
@[simp] theorem State.putWords_pins (s : State) (q : Nat) (ws : List Nat) : (s.putWords q ws).pins = s.pins := by
  induction ws generalizing s with
  | nil => rfl
  | cons w ws ih => cases ws <;> simp [State.putWords, ih]
@[simp] theorem State.putWords_blobs (s : State) (q : Nat) (ws : List Nat) : (s.putWords q ws).blobs = s.blobs := by
  induction ws generalizing s with
  | nil => rfl
  | cons w ws ih => cases ws <;> simp [State.putWords, ih]
@[simp] theorem State.putWords_mgmt (s : State) (q : Nat) (ws : List Nat) : (s.putWords q ws).mgmt = s.mgmt := by
  induction ws generalizing s with
  | nil => rfl
  | cons w ws ih => cases ws <;> simp [State.putWords, ih]
@[simp] theorem State.putWords_flash (s : State) (q : Nat) (ws : List Nat) : (s.putWords q ws).flash = s.flash := by
  induction ws generalizing s with
  | nil => rfl
  | cons w ws ih => cases ws <;> simp [State.putWords, ih]
@[simp] theorem State.putWords_keys (s : State) (q : Nat) (ws : List Nat) : (s.putWords q ws).keys = s.keys := by
  induction ws generalizing s with
  | nil => rfl
  | cons w ws ih => cases ws <;> simp [State.putWords, ih]
@[simp] theorem State.putWords_wm (s : State) (q : Nat) (ws : List Nat) : (s.putWords q ws).wm = s.wm := by
  induction ws generalizing s with
  | nil => rfl
  | cons w ws ih => cases ws <;> simp [State.putWords, ih]
@[simp] theorem State.putWords_mains (s : State) (q : Nat) (ws : List Nat) : (s.putWords q ws).mains = s.mains := by
  induction ws generalizing s with
  | nil => rfl
  | cons w ws ih => cases ws <;> simp [State.putWords, ih]
@[simp] theorem State.putWords_bh (s : State) (q : Nat) (ws : List Nat) : (s.putWords q ws).bh = s.bh := by
  induction ws generalizing s with
  | nil => rfl
  | cons w ws ih => cases ws <;> simp [State.putWords, ih]
@[simp] theorem State.putWords_time (s : State) (q : Nat) (ws : List Nat) : (s.putWords q ws).time = s.time := by
  induction ws generalizing s with
  | nil => rfl
  | cons w ws ih => cases ws <;> simp [State.putWords, ih]
@[simp] theorem State.putWords_jtag (s : State) (q : Nat) (ws : List Nat) : (s.putWords q ws).jtag = s.jtag := by
  induction ws generalizing s with
  | nil => rfl
  | cons w ws ih => cases ws <;> simp [State.putWords, ih]
@[simp] theorem State.putWords_loop (s : State) (q : Nat) (ws : List Nat) : (s.putWords q ws).loop = s.loop := by
  induction ws generalizing s with
  | nil => rfl
  | cons w ws ih => cases ws <;> simp [State.putWords, ih]
@[simp] theorem State.putWords_tracker (s : State) (q : Nat) (ws : List Nat) : (s.putWords q ws).tracker = s.tracker := by
  induction ws generalizing s with
  | nil => rfl
  | cons w ws ih => cases ws <;> simp [State.putWords, ih]
@[simp] theorem State.putWords_tides (s : State) (q : Nat) (ws : List Nat) : (s.putWords q ws).tides = s.tides := by
  induction ws generalizing s with
  | nil => rfl
  | cons w ws ih => cases ws <;> simp [State.putWords, ih]
@[simp] theorem State.putWords_mac (s : State) (q : Nat) (ws : List Nat) : (s.putWords q ws).mac = s.mac := by
  induction ws generalizing s with
  | nil => rfl
  | cons w ws ih => cases ws <;> simp [State.putWords, ih]
@[simp] theorem State.putWords_domain (s : State) (q : Nat) (ws : List Nat) : (s.putWords q ws).domain = s.domain := by
  induction ws generalizing s with
  | nil => rfl
  | cons w ws ih => cases ws <;> simp [State.putWords, ih]
@[simp] theorem State.putWords_txn (s : State) (q : Nat) (ws : List Nat) : (s.putWords q ws).txn = s.txn := by
  induction ws generalizing s with
  | nil => rfl
  | cons w ws ih => cases ws <;> simp [State.putWords, ih]
@[simp] theorem State.putWords_line (s : State) (q : Nat) (ws : List Nat) : (s.putWords q ws).line = s.line := by
  induction ws generalizing s with
  | nil => rfl
  | cons w ws ih => cases ws <;> simp [State.putWords, ih]

@[simp] theorem State.sendPacket_pending (s : State) (q : Nat) (ws : List Nat) : (s.sendPacket q ws).pending = s.pending := by
  unfold State.sendPacket
  simp only
  split <;> simp
@[simp] theorem State.sendPacket_now (s : State) (q : Nat) (ws : List Nat) : (s.sendPacket q ws).now = s.now := by
  unfold State.sendPacket
  simp only
  split <;> simp
@[simp] theorem State.sendPacket_free (s : State) (q : Nat) (ws : List Nat) : (s.sendPacket q ws).free = s.free := by
  unfold State.sendPacket
  simp only
  split <;> simp
@[simp] theorem State.sendPacket_sys (s : State) (q : Nat) (ws : List Nat) : (s.sendPacket q ws).sys = s.sys := by
  unfold State.sendPacket
  simp only
  split <;> simp
@[simp] theorem State.sendPacket_pins (s : State) (q : Nat) (ws : List Nat) : (s.sendPacket q ws).pins = s.pins := by
  unfold State.sendPacket
  simp only
  split <;> simp
@[simp] theorem State.sendPacket_blobs (s : State) (q : Nat) (ws : List Nat) : (s.sendPacket q ws).blobs = s.blobs := by
  unfold State.sendPacket
  simp only
  split <;> simp
@[simp] theorem State.sendPacket_mgmt (s : State) (q : Nat) (ws : List Nat) : (s.sendPacket q ws).mgmt = s.mgmt := by
  unfold State.sendPacket
  simp only
  split <;> simp
@[simp] theorem State.sendPacket_flash (s : State) (q : Nat) (ws : List Nat) : (s.sendPacket q ws).flash = s.flash := by
  unfold State.sendPacket
  simp only
  split <;> simp
@[simp] theorem State.sendPacket_keys (s : State) (q : Nat) (ws : List Nat) : (s.sendPacket q ws).keys = s.keys := by
  unfold State.sendPacket
  simp only
  split <;> simp
@[simp] theorem State.sendPacket_wm (s : State) (q : Nat) (ws : List Nat) : (s.sendPacket q ws).wm = s.wm := by
  unfold State.sendPacket
  simp only
  split <;> simp
@[simp] theorem State.sendPacket_mains (s : State) (q : Nat) (ws : List Nat) : (s.sendPacket q ws).mains = s.mains := by
  unfold State.sendPacket
  simp only
  split <;> simp
@[simp] theorem State.sendPacket_bh (s : State) (q : Nat) (ws : List Nat) : (s.sendPacket q ws).bh = s.bh := by
  unfold State.sendPacket
  simp only
  split <;> simp
@[simp] theorem State.sendPacket_time (s : State) (q : Nat) (ws : List Nat) : (s.sendPacket q ws).time = s.time := by
  unfold State.sendPacket
  simp only
  split <;> simp
@[simp] theorem State.sendPacket_jtag (s : State) (q : Nat) (ws : List Nat) : (s.sendPacket q ws).jtag = s.jtag := by
  unfold State.sendPacket
  simp only
  split <;> simp
@[simp] theorem State.sendPacket_loop (s : State) (q : Nat) (ws : List Nat) : (s.sendPacket q ws).loop = s.loop := by
  unfold State.sendPacket
  simp only
  split <;> simp
@[simp] theorem State.sendPacket_tracker (s : State) (q : Nat) (ws : List Nat) : (s.sendPacket q ws).tracker = s.tracker := by
  unfold State.sendPacket
  simp only
  split <;> simp
@[simp] theorem State.sendPacket_tides (s : State) (q : Nat) (ws : List Nat) : (s.sendPacket q ws).tides = s.tides := by
  unfold State.sendPacket
  simp only
  split <;> simp
@[simp] theorem State.sendPacket_mac (s : State) (q : Nat) (ws : List Nat) : (s.sendPacket q ws).mac = s.mac := by
  unfold State.sendPacket
  simp only
  split <;> simp
@[simp] theorem State.sendPacket_domain (s : State) (q : Nat) (ws : List Nat) : (s.sendPacket q ws).domain = s.domain := by
  unfold State.sendPacket
  simp only
  split <;> simp
@[simp] theorem State.sendPacket_txn (s : State) (q : Nat) (ws : List Nat) : (s.sendPacket q ws).txn = s.txn := by
  unfold State.sendPacket
  simp only
  split <;> simp
@[simp] theorem State.sendPacket_line (s : State) (q : Nat) (ws : List Nat) : (s.sendPacket q ws).line = s.line := by
  unfold State.sendPacket
  simp only
  split <;> simp

@[simp] theorem State.unsyncPass_pending (s : State) (t : Nat) : (s.unsyncPass t).pending = s.pending := by
  unfold State.unsyncPass
  split <;> rfl
@[simp] theorem State.unsyncPass_now (s : State) (t : Nat) : (s.unsyncPass t).now = s.now := by
  unfold State.unsyncPass
  split <;> rfl
@[simp] theorem State.unsyncPass_free (s : State) (t : Nat) : (s.unsyncPass t).free = s.free := by
  unfold State.unsyncPass
  split <;> rfl
@[simp] theorem State.unsyncPass_sys (s : State) (t : Nat) : (s.unsyncPass t).sys = s.sys := by
  unfold State.unsyncPass
  split <;> rfl
@[simp] theorem State.unsyncPass_pins (s : State) (t : Nat) : (s.unsyncPass t).pins = s.pins := by
  unfold State.unsyncPass
  split <;> rfl
@[simp] theorem State.unsyncPass_blobs (s : State) (t : Nat) : (s.unsyncPass t).blobs = s.blobs := by
  unfold State.unsyncPass
  split <;> rfl
@[simp] theorem State.unsyncPass_mgmt (s : State) (t : Nat) : (s.unsyncPass t).mgmt = s.mgmt := by
  unfold State.unsyncPass
  split <;> rfl
@[simp] theorem State.unsyncPass_flash (s : State) (t : Nat) : (s.unsyncPass t).flash = s.flash := by
  unfold State.unsyncPass
  split <;> rfl
@[simp] theorem State.unsyncPass_keys (s : State) (t : Nat) : (s.unsyncPass t).keys = s.keys := by
  unfold State.unsyncPass
  split <;> rfl
@[simp] theorem State.unsyncPass_svc (s : State) (t : Nat) : (s.unsyncPass t).svc = s.svc := by
  unfold State.unsyncPass
  split <;> rfl
@[simp] theorem State.unsyncPass_wm (s : State) (t : Nat) : (s.unsyncPass t).wm = s.wm := by
  unfold State.unsyncPass
  split <;> rfl
@[simp] theorem State.unsyncPass_mains (s : State) (t : Nat) : (s.unsyncPass t).mains = s.mains := by
  unfold State.unsyncPass
  split <;> rfl
@[simp] theorem State.unsyncPass_bh (s : State) (t : Nat) : (s.unsyncPass t).bh = s.bh := by
  unfold State.unsyncPass
  split <;> rfl
@[simp] theorem State.unsyncPass_time (s : State) (t : Nat) : (s.unsyncPass t).time = s.time := by
  unfold State.unsyncPass
  split <;> rfl
@[simp] theorem State.unsyncPass_perf (s : State) (t : Nat) : (s.unsyncPass t).perf = s.perf := by
  unfold State.unsyncPass
  split <;> rfl
@[simp] theorem State.unsyncPass_jtag (s : State) (t : Nat) : (s.unsyncPass t).jtag = s.jtag := by
  unfold State.unsyncPass
  split <;> rfl
@[simp] theorem State.unsyncPass_loop (s : State) (t : Nat) : (s.unsyncPass t).loop = s.loop := by
  unfold State.unsyncPass
  split <;> rfl
@[simp] theorem State.unsyncPass_tracker (s : State) (t : Nat) : (s.unsyncPass t).tracker = s.tracker := by
  unfold State.unsyncPass
  split <;> rfl
@[simp] theorem State.unsyncPass_tides (s : State) (t : Nat) : (s.unsyncPass t).tides = s.tides := by
  unfold State.unsyncPass
  split <;> rfl
@[simp] theorem State.unsyncPass_mac (s : State) (t : Nat) : (s.unsyncPass t).mac = s.mac := by
  unfold State.unsyncPass
  split <;> rfl
@[simp] theorem State.unsyncPass_domain (s : State) (t : Nat) : (s.unsyncPass t).domain = s.domain := by
  unfold State.unsyncPass
  split <;> rfl
@[simp] theorem State.unsyncPass_txn (s : State) (t : Nat) : (s.unsyncPass t).txn = s.txn := by
  unfold State.unsyncPass
  split <;> rfl
@[simp] theorem State.unsyncPass_line (s : State) (t : Nat) : (s.unsyncPass t).line = s.line := by
  unfold State.unsyncPass
  split <;> rfl

@[simp] theorem State.tickEvents_pending (s : State) (d : Nat) : (s.tickEvents d).pending = s.pending := by
  unfold State.tickEvents
  simp only
  rw [State.foldl_keeps (·.pending) _ (fun t c => by split <;> simp) _ _]
  split <;> split <;> split <;> simp
@[simp] theorem State.tickEvents_now (s : State) (d : Nat) : (s.tickEvents d).now = s.now := by
  unfold State.tickEvents
  simp only
  rw [State.foldl_keeps (·.now) _ (fun t c => by split <;> simp) _ _]
  split <;> split <;> split <;> simp
@[simp] theorem State.tickEvents_sys (s : State) (d : Nat) : (s.tickEvents d).sys = s.sys := by
  unfold State.tickEvents
  simp only
  rw [State.foldl_keeps (·.sys) _ (fun t c => by split <;> simp) _ _]
  split <;> split <;> split <;> simp
@[simp] theorem State.tickEvents_pins (s : State) (d : Nat) : (s.tickEvents d).pins = s.pins := by
  unfold State.tickEvents
  simp only
  rw [State.foldl_keeps (·.pins) _ (fun t c => by split <;> simp) _ _]
  split <;> split <;> split <;> simp
@[simp] theorem State.tickEvents_dict (s : State) (d : Nat) : (s.tickEvents d).dict = s.dict := by
  unfold State.tickEvents
  simp only
  rw [State.foldl_keeps (·.dict) _ (fun t c => by split <;> simp) _ _]
  split <;> split <;> split <;> simp
@[simp] theorem State.tickEvents_blobs (s : State) (d : Nat) : (s.tickEvents d).blobs = s.blobs := by
  unfold State.tickEvents
  simp only
  rw [State.foldl_keeps (·.blobs) _ (fun t c => by split <;> simp) _ _]
  split <;> split <;> split <;> simp
@[simp] theorem State.tickEvents_mgmt (s : State) (d : Nat) : (s.tickEvents d).mgmt = s.mgmt := by
  unfold State.tickEvents
  simp only
  rw [State.foldl_keeps (·.mgmt) _ (fun t c => by split <;> simp) _ _]
  split <;> split <;> split <;> simp
@[simp] theorem State.tickEvents_flash (s : State) (d : Nat) : (s.tickEvents d).flash = s.flash := by
  unfold State.tickEvents
  simp only
  rw [State.foldl_keeps (·.flash) _ (fun t c => by split <;> simp) _ _]
  split <;> split <;> split <;> simp
@[simp] theorem State.tickEvents_keys (s : State) (d : Nat) : (s.tickEvents d).keys = s.keys := by
  unfold State.tickEvents
  simp only
  rw [State.foldl_keeps (·.keys) _ (fun t c => by split <;> simp) _ _]
  split <;> split <;> split <;> simp
@[simp] theorem State.tickEvents_svc (s : State) (d : Nat) : (s.tickEvents d).svc = s.svc := by
  unfold State.tickEvents
  simp only
  rw [State.foldl_keeps (·.svc) _ (fun t c => by split <;> simp) _ _]
  split <;> split <;> split <;> simp
@[simp] theorem State.tickEvents_wm (s : State) (d : Nat) : (s.tickEvents d).wm = s.wm := by
  unfold State.tickEvents
  simp only
  rw [State.foldl_keeps (·.wm) _ (fun t c => by split <;> simp) _ _]
  split <;> split <;> split <;> simp
@[simp] theorem State.tickEvents_mains (s : State) (d : Nat) : (s.tickEvents d).mains = s.mains := by
  unfold State.tickEvents
  simp only
  rw [State.foldl_keeps (·.mains) _ (fun t c => by split <;> simp) _ _]
  split <;> split <;> split <;> simp
@[simp] theorem State.tickEvents_bh (s : State) (d : Nat) : (s.tickEvents d).bh = s.bh := by
  unfold State.tickEvents
  simp only
  rw [State.foldl_keeps (·.bh) _ (fun t c => by split <;> simp) _ _]
  split <;> split <;> split <;> simp
@[simp] theorem State.tickEvents_time (s : State) (d : Nat) : (s.tickEvents d).time = s.time := by
  unfold State.tickEvents
  simp only
  rw [State.foldl_keeps (·.time) _ (fun t c => by split <;> simp) _ _]
  split <;> split <;> split <;> simp
@[simp] theorem State.tickEvents_jtag (s : State) (d : Nat) : (s.tickEvents d).jtag = s.jtag := by
  unfold State.tickEvents
  simp only
  rw [State.foldl_keeps (·.jtag) _ (fun t c => by split <;> simp) _ _]
  split <;> split <;> split <;> simp
@[simp] theorem State.tickEvents_loop (s : State) (d : Nat) : (s.tickEvents d).loop = s.loop := by
  unfold State.tickEvents
  simp only
  rw [State.foldl_keeps (·.loop) _ (fun t c => by split <;> simp) _ _]
  split <;> split <;> split <;> simp
@[simp] theorem State.tickEvents_tracker (s : State) (d : Nat) : (s.tickEvents d).tracker = s.tracker := by
  unfold State.tickEvents
  simp only
  rw [State.foldl_keeps (·.tracker) _ (fun t c => by split <;> simp) _ _]
  split <;> split <;> split <;> simp
@[simp] theorem State.tickEvents_tides (s : State) (d : Nat) : (s.tickEvents d).tides = s.tides := by
  unfold State.tickEvents
  simp only
  rw [State.foldl_keeps (·.tides) _ (fun t c => by split <;> simp) _ _]
  split <;> split <;> split <;> simp
@[simp] theorem State.tickEvents_mac (s : State) (d : Nat) : (s.tickEvents d).mac = s.mac := by
  unfold State.tickEvents
  simp only
  rw [State.foldl_keeps (·.mac) _ (fun t c => by split <;> simp) _ _]
  split <;> split <;> split <;> simp
@[simp] theorem State.tickEvents_domain (s : State) (d : Nat) : (s.tickEvents d).domain = s.domain := by
  unfold State.tickEvents
  simp only
  rw [State.foldl_keeps (·.domain) _ (fun t c => by split <;> simp) _ _]
  split <;> split <;> split <;> simp
@[simp] theorem State.tickEvents_txn (s : State) (d : Nat) : (s.tickEvents d).txn = s.txn := by
  unfold State.tickEvents
  simp only
  rw [State.foldl_keeps (·.txn) _ (fun t c => by split <;> simp) _ _]
  split <;> split <;> split <;> simp
@[simp] theorem State.tickEvents_line (s : State) (d : Nat) : (s.tickEvents d).line = s.line := by
  unfold State.tickEvents
  simp only
  rw [State.foldl_keeps (·.line) _ (fun t c => by split <;> simp) _ _]
  split <;> split <;> split <;> simp

@[simp] theorem State.takeStep_pending (s : State) (t : Nat) : (s.takeStep t).pending = s.pending := by
  unfold State.takeStep
  split <;> [rfl; split <;> rfl]
@[simp] theorem State.takeStep_now (s : State) (t : Nat) : (s.takeStep t).now = s.now := by
  unfold State.takeStep
  split <;> [rfl; split <;> rfl]
@[simp] theorem State.takeStep_free (s : State) (t : Nat) : (s.takeStep t).free = s.free := by
  unfold State.takeStep
  split <;> [rfl; split <;> rfl]
@[simp] theorem State.takeStep_sys (s : State) (t : Nat) : (s.takeStep t).sys = s.sys := by
  unfold State.takeStep
  split <;> [rfl; split <;> rfl]
@[simp] theorem State.takeStep_pins (s : State) (t : Nat) : (s.takeStep t).pins = s.pins := by
  unfold State.takeStep
  split <;> [rfl; split <;> rfl]
@[simp] theorem State.takeStep_blobs (s : State) (t : Nat) : (s.takeStep t).blobs = s.blobs := by
  unfold State.takeStep
  split <;> [rfl; split <;> rfl]
@[simp] theorem State.takeStep_mgmt (s : State) (t : Nat) : (s.takeStep t).mgmt = s.mgmt := by
  unfold State.takeStep
  split <;> [rfl; split <;> rfl]
@[simp] theorem State.takeStep_flash (s : State) (t : Nat) : (s.takeStep t).flash = s.flash := by
  unfold State.takeStep
  split <;> [rfl; split <;> rfl]
@[simp] theorem State.takeStep_keys (s : State) (t : Nat) : (s.takeStep t).keys = s.keys := by
  unfold State.takeStep
  split <;> [rfl; split <;> rfl]
@[simp] theorem State.takeStep_svc (s : State) (t : Nat) : (s.takeStep t).svc = s.svc := by
  unfold State.takeStep
  split <;> [rfl; split <;> rfl]
@[simp] theorem State.takeStep_wm (s : State) (t : Nat) : (s.takeStep t).wm = s.wm := by
  unfold State.takeStep
  split <;> [rfl; split <;> rfl]
@[simp] theorem State.takeStep_mains (s : State) (t : Nat) : (s.takeStep t).mains = s.mains := by
  unfold State.takeStep
  split <;> [rfl; split <;> rfl]
@[simp] theorem State.takeStep_bh (s : State) (t : Nat) : (s.takeStep t).bh = s.bh := by
  unfold State.takeStep
  split <;> [rfl; split <;> rfl]
@[simp] theorem State.takeStep_time (s : State) (t : Nat) : (s.takeStep t).time = s.time := by
  unfold State.takeStep
  split <;> [rfl; split <;> rfl]
@[simp] theorem State.takeStep_perf (s : State) (t : Nat) : (s.takeStep t).perf = s.perf := by
  unfold State.takeStep
  split <;> [rfl; split <;> rfl]
@[simp] theorem State.takeStep_jtag (s : State) (t : Nat) : (s.takeStep t).jtag = s.jtag := by
  unfold State.takeStep
  split <;> [rfl; split <;> rfl]
@[simp] theorem State.takeStep_loop (s : State) (t : Nat) : (s.takeStep t).loop = s.loop := by
  unfold State.takeStep
  split <;> [rfl; split <;> rfl]
@[simp] theorem State.takeStep_mac (s : State) (t : Nat) : (s.takeStep t).mac = s.mac := by
  unfold State.takeStep
  split <;> [rfl; split <;> rfl]
@[simp] theorem State.takeStep_domain (s : State) (t : Nat) : (s.takeStep t).domain = s.domain := by
  unfold State.takeStep
  split <;> [rfl; split <;> rfl]
@[simp] theorem State.takeStep_txn (s : State) (t : Nat) : (s.takeStep t).txn = s.txn := by
  unfold State.takeStep
  split <;> [rfl; split <;> rfl]
@[simp] theorem State.takeStep_line (s : State) (t : Nat) : (s.takeStep t).line = s.line := by
  unfold State.takeStep
  split <;> [rfl; split <;> rfl]

@[simp] theorem State.passTo_pending (s : State) (t : Nat) : (s.passTo t).pending = s.pending := by
  unfold State.passTo
  split <;> simp
@[simp] theorem State.passTo_sys (s : State) (t : Nat) : (s.passTo t).sys = s.sys := by
  unfold State.passTo
  split <;> simp
@[simp] theorem State.passTo_pins (s : State) (t : Nat) : (s.passTo t).pins = s.pins := by
  unfold State.passTo
  split <;> simp
@[simp] theorem State.passTo_blobs (s : State) (t : Nat) : (s.passTo t).blobs = s.blobs := by
  unfold State.passTo
  split <;> simp
@[simp] theorem State.passTo_mgmt (s : State) (t : Nat) : (s.passTo t).mgmt = s.mgmt := by
  unfold State.passTo
  split <;> simp
@[simp] theorem State.passTo_flash (s : State) (t : Nat) : (s.passTo t).flash = s.flash := by
  unfold State.passTo
  split <;> simp
@[simp] theorem State.passTo_keys (s : State) (t : Nat) : (s.passTo t).keys = s.keys := by
  unfold State.passTo
  split <;> simp
@[simp] theorem State.passTo_svc (s : State) (t : Nat) : (s.passTo t).svc = s.svc := by
  unfold State.passTo
  split <;> simp
@[simp] theorem State.passTo_wm (s : State) (t : Nat) : (s.passTo t).wm = s.wm := by
  unfold State.passTo
  split <;> simp
@[simp] theorem State.passTo_mains (s : State) (t : Nat) : (s.passTo t).mains = s.mains := by
  unfold State.passTo
  split <;> simp
@[simp] theorem State.passTo_bh (s : State) (t : Nat) : (s.passTo t).bh = s.bh := by
  unfold State.passTo
  split <;> simp
@[simp] theorem State.passTo_time (s : State) (t : Nat) : (s.passTo t).time = s.time := by
  unfold State.passTo
  split <;> simp
@[simp] theorem State.passTo_jtag (s : State) (t : Nat) : (s.passTo t).jtag = s.jtag := by
  unfold State.passTo
  split <;> simp
@[simp] theorem State.passTo_loop (s : State) (t : Nat) : (s.passTo t).loop = s.loop := by
  unfold State.passTo
  split <;> simp
@[simp] theorem State.passTo_mac (s : State) (t : Nat) : (s.passTo t).mac = s.mac := by
  unfold State.passTo
  split <;> simp
@[simp] theorem State.passTo_domain (s : State) (t : Nat) : (s.passTo t).domain = s.domain := by
  unfold State.passTo
  split <;> simp
@[simp] theorem State.passTo_txn (s : State) (t : Nat) : (s.passTo t).txn = s.txn := by
  unfold State.passTo
  split <;> simp
@[simp] theorem State.passTo_line (s : State) (t : Nat) : (s.passTo t).line = s.line := by
  unfold State.passTo
  split <;> simp

@[simp] theorem State.atDeadline_pending (s : State) (t : Nat) : (s.atDeadline t).pending = s.pending := by simp [State.atDeadline]
@[simp] theorem State.atDeadline_sys (s : State) (t : Nat) : (s.atDeadline t).sys = s.sys := by simp [State.atDeadline]
@[simp] theorem State.atDeadline_pins (s : State) (t : Nat) : (s.atDeadline t).pins = s.pins := by simp [State.atDeadline]
@[simp] theorem State.atDeadline_blobs (s : State) (t : Nat) : (s.atDeadline t).blobs = s.blobs := by simp [State.atDeadline]
@[simp] theorem State.atDeadline_mgmt (s : State) (t : Nat) : (s.atDeadline t).mgmt = s.mgmt := by simp [State.atDeadline]
@[simp] theorem State.atDeadline_flash (s : State) (t : Nat) : (s.atDeadline t).flash = s.flash := by simp [State.atDeadline]
@[simp] theorem State.atDeadline_keys (s : State) (t : Nat) : (s.atDeadline t).keys = s.keys := by simp [State.atDeadline]
@[simp] theorem State.atDeadline_svc (s : State) (t : Nat) : (s.atDeadline t).svc = s.svc := by simp [State.atDeadline]
@[simp] theorem State.atDeadline_wm (s : State) (t : Nat) : (s.atDeadline t).wm = s.wm := by simp [State.atDeadline]
@[simp] theorem State.atDeadline_mains (s : State) (t : Nat) : (s.atDeadline t).mains = s.mains := by simp [State.atDeadline]
@[simp] theorem State.atDeadline_bh (s : State) (t : Nat) : (s.atDeadline t).bh = s.bh := by simp [State.atDeadline]
@[simp] theorem State.atDeadline_time (s : State) (t : Nat) : (s.atDeadline t).time = s.time := by simp [State.atDeadline]
@[simp] theorem State.atDeadline_jtag (s : State) (t : Nat) : (s.atDeadline t).jtag = s.jtag := by simp [State.atDeadline]
@[simp] theorem State.atDeadline_loop (s : State) (t : Nat) : (s.atDeadline t).loop = s.loop := by simp [State.atDeadline]
@[simp] theorem State.atDeadline_mac (s : State) (t : Nat) : (s.atDeadline t).mac = s.mac := by simp [State.atDeadline]
@[simp] theorem State.atDeadline_domain (s : State) (t : Nat) : (s.atDeadline t).domain = s.domain := by simp [State.atDeadline]
@[simp] theorem State.atDeadline_txn (s : State) (t : Nat) : (s.atDeadline t).txn = s.txn := by simp [State.atDeadline]
@[simp] theorem State.atDeadline_line (s : State) (t : Nat) : (s.atDeadline t).line = s.line := by simp [State.atDeadline]

/-! Registers and byte strings: reading after writing. -/

@[simp] theorem State.rd_wr_self (s : State) (r : Reg) (v : Nat) : (s.wr r v).rd r = v % 2 ^ r.bits := by
  simp [State.rd, State.wr]

theorem State.rd_wr_ne (s : State) {r q : Reg} (v : Nat) (h : r.key ≠ q.key) : (s.wr q v).rd r = s.rd r := by
  simp [State.rd, State.wr, Tbl.atD_store_ne _ _ _ _ h]

@[simp] theorem State.flag_setFlag_self (s : State) (r : Reg) (b : Bool) (h : 0 < r.bits) : (s.setFlag r b).flag r = b := by
  have h2 : 1 % 2 ^ r.bits = 1 := Nat.mod_eq_of_lt (Nat.one_lt_two_pow (by omega))
  cases b <;> simp [State.flag, State.setFlag, boolNat, h2]

theorem State.flag_setFlag_ne (s : State) {r q : Reg} (b : Bool) (h : r.key ≠ q.key) : (s.setFlag q b).flag r = s.flag r := by
  simp [State.flag, State.setFlag, State.rd_wr_ne s _ h]

/-- A counter saturates at its greatest value (R61, R426, R453). -/
theorem State.rd_bumpBy_self (s : State) (r : Reg) (n : Nat) : (s.bumpBy r n).rd r = min (2 ^ r.bits - 1) (s.rd r + n) := by
  have h : 0 < 2 ^ r.bits := Nat.two_pow_pos _
  simp only [State.bumpBy, State.rd_wr_self]
  exact Nat.mod_eq_of_lt (by omega)

theorem State.rd_bumpBy_ne (s : State) {r q : Reg} (n : Nat) (h : r.key ≠ q.key) : (s.bumpBy q n).rd r = s.rd r :=
  State.rd_wr_ne s _ h

theorem State.rd_bump_self (s : State) (r : Reg) : (s.bump r).rd r = min (2 ^ r.bits - 1) (s.rd r + 1) :=
  State.rd_bumpBy_self s r 1

theorem State.rd_bump_ne (s : State) {r q : Reg} (h : r.key ≠ q.key) : (s.bump q).rd r = s.rd r := State.rd_wr_ne s _ h

@[simp] theorem State.rdB_wrB_self (s : State) (b : Blob) (v : List Byte) : (s.wrB b v).rdB b = v := by
  simp [State.rdB, State.wrB]

theorem State.rdB_wrB_ne (s : State) {b c : Blob} (v : List Byte) (h : b.key ≠ c.key) : (s.wrB c v).rdB b = s.rdB b := by
  simp [State.rdB, State.wrB, Tbl.atD_store_ne _ _ _ _ h]

/-! Working memory. -/

@[simp] theorem State.memByte_setByte_self (s : State) (a : Nat) (b : Byte) : (s.setByte a b).memByte a = b := by
  simp [State.memByte, State.setByte]

theorem State.memByte_setByte_ne (s : State) {a c : Nat} (b : Byte) (h : c ≠ a) : (s.setByte a b).memByte c = s.memByte c := by
  simp [State.memByte, State.setByte, Tbl.atD_store_ne _ _ _ _ h]

/-- A run of bytes written from `a` leaves every byte outside it. -/
theorem State.memByte_setBytes_out (s : State) (a c : Nat) (bs : List Byte) (h : c < a ∨ a + bs.length ≤ c) :
    (s.setBytes a bs).memByte c = s.memByte c := by
  induction bs generalizing s a with
  | nil => rfl
  | cons b bs ih =>
    simp only [List.length_cons] at h
    rw [State.setBytes, ih _ _ (by omega), State.memByte_setByte_ne _ _ (by omega)]

/-- A run of bytes written from `a` reads back. -/
theorem State.memByte_setBytes_in (s : State) (a : Nat) (bs : List Byte) (i : Nat) (h : i < bs.length) :
    (s.setBytes a bs).memByte (a + i) = bs[i] := by
  induction bs generalizing s a i with
  | nil => simp at h
  | cons b bs ih =>
    cases i with
    | zero =>
      rw [State.setBytes, State.memByte_setBytes_out _ _ _ _ (by omega)]
      simp
    | succ i =>
      simp only [List.length_cons] at h
      have := ih (s.setByte a b) (a + 1) i (by omega)
      simpa [State.setBytes, Nat.add_comm 1 i, Nat.add_assoc] using this

/-- A byte write keeps the canonical form of working memory. -/
theorem memWf_setByte (s : State) (a : Nat) (b : Byte) (h : memWf s.wm = true) : memWf (s.setByte a b).wm = true := by
  simp only [memWf, Bool.and_eq_true, State.setByte, State.modWm_wm, List.all_eq_true, bne_iff_ne, ne_eq] at h ⊢
  refine ⟨Tbl.wf_store _ _ _ _ h.1, fun c hc => ?_⟩
  unfold Tbl.store at hc
  split at hc
  · exact h.2 c (List.mem_of_mem_filter hc)
  · rename_i hb
    rcases Tbl.mem_ins _ _ _ _ hc with rfl | hc
    · exact hb
    · exact h.2 c hc

/-- A run of bytes keeps the canonical form of working memory. -/
theorem memWf_setBytes (s : State) (a : Nat) (bs : List Byte) (h : memWf s.wm = true) : memWf (s.setBytes a bs).wm = true := by
  induction bs generalizing s a with
  | nil => exact h
  | cons b bs ih => exact ih _ _ (memWf_setByte s a b h)

/-! Time. -/

/-- Time never goes back, and reaches the instant it is passed to. -/
theorem State.passTo_now (s : State) (t : Nat) : (s.passTo t).now = max s.now t := by
  unfold State.passTo
  split
  · omega
  · simp only [State.modNow_now]
    omega

/-- A deadline is reached, or already past. -/
theorem State.atDeadline_now (s : State) (t : Nat) : (s.atDeadline t).now = max s.now t := State.passTo_now s t

end Sys2Proof.Machine
end

