-- ==== Sys2Proof/Laws/Queue.lean ====
section
/-! SUPPORT. No meaning touches the queue of waiting commands. -/

namespace Sys2Proof.Machine

/-- What a meaning answers is a next state. -/
theorem keepQueue_next (s t : State) : keepQueue s t = .next (t.modPending fun _ => s.pending) := rfl

/-- A meaning leaves the queue of waiting commands as it was. -/
theorem keepQueue_pending {s t u : State} (h : keepQueue s t = .next u) : u.pending = s.pending := by
  cases h
  rfl

/-- A meaning changes the queue of waiting commands in nothing. -/
theorem exec_pending {i : Instr} {s u : State} (h : exec i s = .next u) : u.pending = s.pending := by
  cases i <;> exact keepQueue_pending h

end Sys2Proof.Machine
end

