-- ==== Sys2Proof/Machine/Balls.lean ====
section
/-! DEFINITION. The balls of the package and what each carries (R494–R502, R513). -/

namespace Sys2Proof.Machine

/-- What a ball carries (R496–R502). -/
inductive Ball where
  /-- LRXP (true) or LRXN of a channel. -/
  | lineRx (channel : Nat) (p : Bool)
  /-- LTXP (true) or LTXN of a channel. -/
  | lineTx (channel : Nat) (p : Bool)
  /-- SERTXP (true) or SERTXN of a physical lane. -/
  | serTx (lane : Nat) (p : Bool)
  /-- SERRXP (true) or SERRXN of a physical lane. -/
  | serRx (lane : Nat) (p : Bool)
  /-- SERREF_P (true) or SERREF_N. -/
  | serRef (p : Bool)
  /-- MSP (true) or MSN of a mains unit. -/
  | mains (unit : Nat) (p : Bool)
  /-- MCREF of a group of eight units. -/
  | mcRef (group : Nat)
  | canId (bit : Nat)
  | xspiDq (bit : Nat)
  | refClk | ppsIn | ppsOut | mcTrig | resetN | canTx | canRx | trstN | tdo | spiSck | spiCsN | spiMosi | spiMiso | tck | tms | tdi
  | xspiSck | xspiDqs | xspiCsN | xspiResetN
  | vcore | vafe | vtx | vser | vserh | vmc | vio | vss | reserved
  deriving DecidableEq, Repr

/-- A pair of balls of a group of 32 channels, from the distance `q` of its line from the package's edge, and the distance `a`
along the edge from the group's first ball (R496). -/
def lineBall (group q a : Nat) : Ball :=
  let i := 9 * (q % 5) + a / 2
  let n := 32 * group + i
  if 17 < a || 31 < i || q = 4 then .vss
  else if q < 4 then .lineRx n (a % 2 = 0) else .lineTx n (a % 2 = 0)

/-- A band of two groups: `along` counts clockwise from 0 to 38, `q` from the edge inwards; the line between the groups and at
their ends is VSS (R496). -/
def bandBall (first q along : Nat) : Ball :=
  if along < 20 then lineBall first q along else lineBall (first + 1) q (along - 20)

/-- The top-left corner (R497). -/
def topLeft (r c : Nat) : Ball :=
  if r = 1 then .vss
  else if c = 9 || 8 ≤ r then .vser
  else match r with
    | 2 => .serTx ((c - 1) / 2) (c % 2 = 1)
    | 3 => if c ≤ 2 then .vss else .vserh
    | 4 => if c ≤ 3 || 6 ≤ c then .vserh else .serRef (c = 4)
    | 6 => .serRx ((c - 1) / 2) (c % 2 = 1)
    | _ => .vss

/-- The top-right corner (R498). -/
def topRight (r c : Nat) : Ball :=
  match r, c with
  | 2, 50 => .refClk
  | 2, 53 => .ppsIn
  | 2, 55 => .ppsOut
  | 2, 57 => .mcTrig
  | 4, 49 => .resetN
  | 4, 51 => .canTx
  | 4, 52 => .canRx
  | 4, 56 => .trstN
  | 6, 49 => .spiSck
  | 6, 50 => .spiCsN
  | 6, 51 => .spiMosi
  | 6, 52 => .spiMiso
  | 6, 54 => .tck
  | 6, 55 => .tms
  | 6, 56 => .tdi
  | 6, 57 => .tdo
  | 8, 49 => .xspiSck
  | 9, 49 => .xspiDqs
  | 9, 50 => .xspiCsN
  | 9, 51 => .xspiResetN
  | _, _ =>
    if r = 3 || (r = 7 && c ≤ 55) then .vio
    else if r = 5 && 51 ≤ c then .canId (c - 51)
    else if r = 8 && 50 ≤ c then .xspiDq (c - 50)
    else .vss

/-- The two bottom corners: row and column counted from the corner's first, and the first unit (R499). -/
def mainsBall (unit r c : Nat) : Ball :=
  if r < 8 then .mains (unit + 4 * r + c / 2) (c % 2 = 0) else .vmc

/-- The interior (R500, R501). -/
def interior (r c : Nat) : Ball :=
  let d := min (min (r - 10) (48 - r)) (min (c - 10) (48 - c))
  if (r = 29 || r = 30) && 23 ≤ c && c ≤ 36 then .reserved
  else if (r + c) % 2 = 0 then .vss
  else match d with
    | 0 => .vss
    | 1 => .vafe
    | 2 => .vtx
    | _ => .vcore

/-- The ball at row `r` and column `c`, both from 1 to 57 (R494, R495). -/
def ballAt (r c : Nat) : Ball :=
  let inside := fun (x : Nat) => 10 ≤ x && x ≤ 48
  if inside r && inside c then interior r c
  else if inside c then (if r ≤ 9 then bandBall 0 (r - 1) (c - 10) else bandBall 4 (57 - r) (48 - c))
  else if inside r then (if 49 ≤ c then bandBall 2 (57 - c) (r - 10) else bandBall 6 (c - 1) (48 - r))
  else if r ≤ 9 then (if c ≤ 9 then topLeft r c else topRight r c)
  else if c ≤ 9 then
    (if c = 9 then (if r % 2 = 1 && r ≤ 55 then .mcRef ((r - 49) / 2) else .vss) else mainsBall 0 (r - 49) (c - 1))
  else if c = 49 then (if r % 2 = 1 && r ≤ 55 then .mcRef (4 + (r - 49) / 2) else .vss)
  else mainsBall 32 (r - 49) (c - 50)

/-- The functions that R502 counts, numbered in the order of its table, down its left half and then its right one. -/
def Ball.function : Ball → Nat
  | .lineRx _ _ | .lineTx _ _ => 0
  | .mains _ _ | .mcRef _ | .mcTrig => 1
  | .serTx _ _ | .serRx _ _ | .serRef _ => 2
  | .refClk | .ppsIn | .ppsOut => 3
  | .canId _ | .canTx | .canRx => 4
  | .spiSck | .spiCsN | .spiMosi | .spiMiso => 5
  | .xspiDq _ | .xspiSck | .xspiDqs | .xspiCsN | .xspiResetN => 6
  | .resetN | .trstN | .tck | .tms | .tdi | .tdo => 7
  | .vcore => 8
  | .vafe => 9
  | .vtx => 10
  | .vser => 11
  | .vserh => 12
  | .vmc => 13
  | .vio => 14
  | .reserved => 15
  | .vss => 16

/-- The balls of row `r` that carry a function. -/
def ballsIn (f r : Nat) : Nat := ((List.range 57).filter fun c => (ballAt r (c + 1)).function == f).length

/-- The balls that carry a function. -/
def ballCount (f : Nat) : Nat := ((List.range 57).map fun r => ballsIn f (r + 1)).sum

/-- The internal pull of a ball: up (true), down (false) or none (R508). -/
def Ball.pull : Ball → Option Bool
  | .canId _ | .trstN | .mcTrig | .ppsIn => some false
  | .spiCsN | .tms | .tdi | .canRx => some true
  | _ => none

end Sys2Proof.Machine
end

