-- ==== Sys2Proof/Machine/Waveform.lean ====
section
/-! DEFINITION. What each part of a frame sends: carrier values, symbol layout, chirp phase (R63, R64, R66–R69, R73–R75, R83–R86, R89, R94–R96, R99, R103). -/

namespace Sys2Proof.Machine

/-! Carrier values. -/

/-- What one carrier of a symbol sends. -/
inductive Tone where
  /-- X = 0. -/
  | none
  /-- X = amp × exp(2πj × num / den). -/
  | rotor (amp : Int) (num den : Nat)
  /-- X = (i + jq) / √energy. -/
  | point (i q : Int) (energy : Nat)
  deriving DecidableEq, Repr

/-- Carrier `k` in the SYNC symbol: 2 exp(jπm²/422) on 36 + 4m (R67). -/
def syncTone (k : Nat) : Tone :=
  let m := (k - 36) / 4
  if 36 ≤ k && k ≤ 1720 && (k - 36) % 4 == 0 then .rotor 2 (m * m % 844) 844 else .none

/-- Carrier `k` in the CE symbol: exp(jπi²/1685) with i = k − 36 (R68). -/
def ceTone (k : Nat) : Tone :=
  let i := k - 36
  if 36 ≤ k && k ≤ 1720 then .rotor 1 (i * i % 3370) 3370 else .none

/-- Pilot carrier `k` in symbol `t`, the frame control symbol being symbol 0 (R75). -/
def pilotTone (t k : Nat) : Tone := .point (pilotValue t ((k - 48) / 16)) 0 1

/-- Carrier `k` in payload symbol `t` of a sounding frame (R89). -/
def soundingTone (t k : Nat) : Tone :=
  let i := k - 36
  if k < 36 || 1720 < k then .none
  else if k % 16 = 0 then pilotTone t k
  else .rotor (soundingSign t i) (i * i % 3370) 3370

/-- The slot of a data carrier in ascending carrier order (R74, R83). -/
def dataSlot (k : Nat) : Nat := k - 36 - (k / 16 - 36 / 16)

/-- Carrier `k` in the frame control symbol, from its 256 coded bits (R74). -/
def fcTone (coded : List Bool) (k : Nat) : Tone :=
  if k < 36 || 1720 < k then .none
  else if k % 16 = 0 then pilotTone 0 k
  else .point (if coded.getD (fcSlotBit (dataSlot k)) false then 1 else -1) 0 1

/-- A masked carrier is sent as 0 in every part of the frame (R69). -/
def State.maskTone (s : State) (n k : Nat) (x : Tone) : Tone := if s.masked n k then .none else x

/-! Payload symbols (R83–R86). -/

/-- The runs of the stream taken by slots visited in the given order, `b j` bits each, with the rest of the stream (R83). -/
def takeRuns (b : Nat → Nat) : List Nat → List Bool → List (Nat × List Bool) × List Bool
  | [], rest => ([], rest)
  | j :: js, stream =>
    let r := takeRuns b js (stream.drop (b j))
    ((j, stream.take (b j)) :: r.1, r.2)

/-- The slots of payload symbol `t` with their bits, and the rest of the stream (R83). -/
def symbolRuns (bits : List Nat) (t : Nat) (stream : List Bool) : List (Nat × List Bool) × List Bool :=
  let d := bits.length
  takeRuns (fun j => bits.getD j 0) ((List.range d).map (slotAt d t)) stream

/-- The point of a carrier's bits (R85). -/
def qamTone (bs : List Bool) : Tone :=
  let a := qam bs
  .point a.1 a.2 (qamEnergy bs.length)

/-- The tone of slot `j` among a symbol's runs. -/
def runTone (runs : List (Nat × List Bool)) (j : Nat) : Tone :=
  match runs.find? fun r => r.1 = j with
  | some r => qamTone r.2
  | none => .none

/-- The tones of the slots of payload symbol `t`, and the rest of the stream; map 0 sends each of its first H slots again
at j + H, the highest slot of an odd count carrying 0 (R83, R84). -/
def slotTones (mapZero : Bool) (bits : List Nat) (t : Nat) (stream : List Bool) : List Tone × List Bool :=
  let d := bits.length
  let h := d / 2
  let r := symbolRuns (if mapZero then bits.take h else bits) t stream
  ((List.range d).map fun j =>
    if mapZero then (if j < h then runTone r.1 j else if j < 2 * h then runTone r.1 (j - h) else .none) else runTone r.1 j, r.2)

/-- The payload symbols from symbol `t` on, as tones of the loaded slots (R83). -/
def payloadTones (mapZero : Bool) (bits : List Nat) : Nat → Nat → List Bool → List (List Tone)
  | 0, _, _ => []
  | n + 1, t, stream =>
    let r := slotTones mapZero bits t stream
    r.1 :: payloadTones mapZero bits n (t + 1) r.2

/-! Symbols in time (R64, R66). -/

/-- The guard of a GI code in samples (R64). -/
def guardSamples (gi : Nat) : Nat := 256 * 2 ^ gi

/-- The samples of each part of a PPDU: SYNC, SYNC−, CE guard, CE, frame control, payload (R66). -/
def ppduParts (psc gi : Nat) : List Nat := [10 * 1024, 2 * 1024, 2048, 2 * 4096, 2048 + 4096, psc * (4096 + guardSamples gi)]

/-- The sample of the transform that sample `n` of a payload symbol repeats (R64). -/
def guardIndex (gi n : Nat) : Nat := if n < guardSamples gi then 4096 - guardSamples gi + n else n - guardSamples gi

/-- The sample of the 1,024-sample SYNC symbol or of the 4,096-sample CE symbol at sample `n` of the preamble, with its sign
(R66–R68). -/
def preambleIndex (n : Nat) : Bool × Int × Nat :=
  if n < 10240 then (true, 1, n % 1024)
  else if n < 12288 then (true, -1, n % 1024)
  else (false, 1, (n - 12288 + 2048) % 4096)

/-! Chirps (R94–R96, R99, R103; chapter 18, Chirp phase). -/

/-- The lower edge of a sub-band as 64 f_L / B (R94). -/
def subBandLow (w : Nat) : Nat := ([8, 9, 73] : List Nat).getD w 0

/-- The samples of a chip of a sub-band at 204.8 MS/s (R94). -/
def chipSamples (w : Nat) : Nat := if w = 0 then 128 else 16

/-- The spreading factors of a sub-band (R94). -/
def sfAllowed (w sf : Nat) : Bool := 7 ≤ sf && sf ≤ (if w = 0 then 11 else 14)

/-- The units of phase in a turn: 128 N M² (R94). -/
def turnUnits (w sf : Nat) : Nat := 128 * 2 ^ sf * chipSamples w ^ 2

/-- The phase of a data symbol with sweep start `p` chips and `q` quarter turns at its start (R95, R96), at `u` parts of a sample, `r` parts to the
sample, in units of which a turn has `r`² times as many. -/
def dataPhaseAt (r w sf : Nat) (falling : Bool) (p q u : Nat) : Int :=
  let nn : Int := 2 ^ sf
  let m : Int := chipSamples w
  let past := max 0 ((u : Int) - (nn - p) * m * r) * (128 * nn * m * r)
  let start := (q : Int) * (32 * nn * m ^ 2 * r ^ 2)
  let low : Int := subBandLow w
  if falling then start + (low + 64) * (2 * nn * m * r) * u - 128 * m * p * r * u - 64 * (u : Int) ^ 2 + past
  else start + low * (2 * nn * m * r) * u + 128 * m * p * r * u + 64 * (u : Int) ^ 2 - past

/-- The phase of sample `n` of a data symbol, in units (R95, R96). -/
def dataPhase (w sf : Nat) (falling : Bool) (p q n : Nat) : Int := dataPhaseAt 1 w sf falling p q n

/-- The phase of a pivot symbol at `u` parts of a sample, `r` to the sample (R95, R96). -/
def pivotPhaseAt (r w sf : Nat) (falling : Bool) (u : Nat) : Int :=
  let nn : Int := 2 ^ sf
  let m : Int := chipSamples w
  let past := max 0 (2 * (u : Int) - nn * m * r) * (64 * nn * m * r)
  let low : Int := subBandLow w
  if falling then (low + 64) * (2 * nn * m * r) * u - 128 * (u : Int) ^ 2 + past
  else low * (2 * nn * m * r) * u + 128 * (u : Int) ^ 2 - past

/-- The phase of sample `n` of a pivot symbol, in units (R95, R96). -/
def pivotPhase (w sf : Nat) (falling : Bool) (n : Nat) : Int := pivotPhaseAt 1 w sf falling n

/-- One symbol of a swell frame. -/
inductive Chirp where
  /-- A data-form symbol: position index and quarter turns of its starting phase. -/
  | data (c q : Nat)
  /-- A pivot symbol. -/
  | pivot
  deriving DecidableEq, Repr

/-- `n` data symbols of a stream, each starting from the phase of the symbol before it (R103). -/
def dataChirps (sf : Nat) : Nat → Nat → List Bool → List Chirp
  | 0, _, _ => []
  | n + 1, q, stream =>
    let bits := stream.take sf
    let x := swellSymbolOf (bits ++ List.replicate (sf - bits.length) false)
    .data x.1 ((q + x.2) % 4) :: dataChirps sf n ((q + x.2) % 4) (stream.drop sf)

/-- The symbols of a swell frame: preamble, two pivots, stream (R99, R103). -/
def swellSymbols (sf npre : Nat) (head payload : List Byte) : List Chirp :=
  let stream := swellStream head payload
  List.replicate npre (.data 0 0) ++ [.pivot, .pivot] ++ dataChirps sf (ceilDiv stream.length sf) 0 stream

/-- The phase of a symbol of a frame at `u` parts of a sample, `r` to the sample, the sweep start being 4c chips (R94, R95). -/
def Chirp.phaseAt (x : Chirp) (r w sf : Nat) (falling : Bool) (u : Nat) : Int :=
  match x with
  | .data c q => dataPhaseAt r w sf falling (4 * c) q u
  | .pivot => pivotPhaseAt r w sf falling u

end Sys2Proof.Machine
end

