-- ==== Sys2Proof/Machine/Dac.lean ====
section
/-! DEFINITION. The samples that the transmit DACs put out: the transform of each symbol, ramps and overlaps, levels and clipping (R38–R41,
R63–R69, R91, R95–R97, R111). Values are fixed-point numbers (DESIGN CHOICE, assumption log, entries 47 and 60). -/

namespace Sys2Proof.Machine

/-! Carrier values of a frame on a channel (R67–R69, R74, R83–R89). -/

/-- The value that a tone sends, in 2^-30. -/
def Tone.value : Tone → Gauss
  | .none => (0, 0)
  | .rotor amp num den => let p := unitAt num den; (amp * p.1, amp * p.2)
  | .point i q energy => (i * 2 ^ 60 / (isqrt (energy * 2 ^ 60) : Int), q * 2 ^ 60 / (isqrt (energy * 2 ^ 60) : Int))

/-- The same tone negated. -/
def Tone.negate : Tone → Tone
  | .none => .none
  | .rotor amp num den => .rotor (-amp) num den
  | .point i q energy => .point (-i) (-q) energy

/-- The header of an OFDM frame of the device (R70); MORE is 0, each of its exchanges having one frame (DESIGN CHOICE, assumption log,
entry 60). -/
def State.frameControl (s : State) (x : TxFrame) : FrameControl :=
  ⟨x.type, s.nid x.seg, x.dst, 0, x.tmi, x.psc, x.gi, x.pri, x.ackReq, false, x.tide, x.wire.length - 1⟩

/-- The header of a swell frame of the device (R101). -/
def State.swellHead (s : State) (x : TxFrame) : SwellHead := ⟨x.type, s.nid x.seg, x.dst, 0, x.len, x.pri, x.ackReq⟩

/-- The loading of the map that an OFDM frame of the device uses: bits of carriers 36 to 1,720 (R86, R171). -/
def State.txLoading (s : State) (x : TxFrame) : List Nat :=
  if x.tmi ≤ 1 then fixedLoading
  else match x.entry with
    | some i => ((Tbl.at? s.mac.pages (handlePage ((s.ep i).mapDn.getD x.tide 0))).map (·.loading)).getD []
    | none => []

/-- The tones of the payload symbols of an OFDM frame, by symbol over the band carriers (R75, R83–R86, R89): pilots, and the slots of the loaded
carriers. -/
def State.payloadBand (s : State) (x : TxFrame) : List (List Tone) :=
  if x.type = 6 then (List.range x.psc).map fun t => bandCarriers.map (soundingTone (t + 1))
  else
    let loading := s.txLoading x
    let slots := slotCarriers loading
    let m := s.mapOf x
    let stream := codedStream x.psc m.1 m.2 (dirBytes (x.wire.map (·.length)) ++ x.wire.flatten)
    (payloadTones (x.tmi == 0) (slots.map fun k => loading.getD (k - 36) 0) x.psc 1 stream).zipIdx.map fun y =>
      let at_ := slots.zip y.1
      bandCarriers.map fun k =>
        if k % 16 = 0 then pilotTone (y.2 + 1) k else ((at_.find? fun z => z.1 == k).map (·.2)).getD .none

/-! Symbols in time. -/

/-- A unit of an OFDM frame (R65): its first sample, its samples, the period of its cyclic continuation, the sample of the period at which it
begins, and its band carriers. -/
structure LineUnit where
  first : Nat
  len : Nat
  period : Nat
  shift : Nat
  tones : List Tone
  deriving DecidableEq, Repr

/-- The units of an OFDM frame before masks (R65–R68): the SYNC and SYNC− runs, the CE part, the frame control symbol, the payload symbols. -/
def State.ofdmUnits (s : State) (x : TxFrame) : List LineUnit :=
  let sync := bandCarriers.map syncTone
  let g := guardSamples x.gi
  let coded := convEncode (bitsOf (s.frameControl x).encode)
  [⟨0, 10240, 1024, 0, sync⟩, ⟨10240, 2048, 1024, 0, sync.map Tone.negate⟩, ⟨12288, 10240, 4096, 2048, bandCarriers.map ceTone⟩,
    ⟨22528, 6144, 4096, 2048, bandCarriers.map (fcTone coded)⟩] ++
    (s.payloadBand x).zipIdx.map fun y => ⟨28672 + y.2 * (4096 + g), 4096 + g, 4096, 4096 - g, y.1⟩

/-- The units that channel `n` sends of an OFDM frame: its masks apply in every part (R69), and a cancelled frame has lost its later units
(R295). -/
def State.channelUnits (s : State) (x : TxFrame) (n : Nat) : List LineUnit :=
  ((s.ofdmUnits x).filter fun u => x.start + 2 * u.first < x.stop).map fun u =>
    { u with tones := (u.tones.zip bandCarriers).map fun y => s.maskTone n y.2 y.1 }

/-- Σ X[k] exp(j2πkn / 4,096) over all carriers, X[4,096 − k] being the conjugate of X[k] (R63), at `u` sixty-fourths of a sample from a unit's
start and in 2^-60: twice the real part of the sum over the band. -/
def LineUnit.sample (x : LineUnit) (u : Nat) : Int :=
  let pos := (64 * x.shift + u) % (64 * x.period)
  2 * ((x.tones.zip bandCarriers).map fun y => (turned (((y.2 * pos) % 2 ^ 18 * 2 ^ 14 : Nat) : Int) y.1.value).1).sum

/-- Σ |X[k]|² over all carriers of a unit, in 2^-60. -/
def LineUnit.power (x : LineUnit) : Nat := 2 * (x.tones.map fun t => t.value.power).sum

/-! Ramps and overlaps (R65, R97). -/

/-- W, the samples of a ramp (R65). -/
def rampLen : Nat := 128

/-- r_up at `u` sixty-fourths of a sample, in 2^-30: sin² of π (m + 1/2) ÷ 2W (R65). -/
def rampUp (u : Nat) : Int := (2 ^ 30 - (unitAt (u + 32) (128 * rampLen)).1) / 2

/-- r_down, in 2^-30 (R65). -/
def rampDown (u : Nat) : Int := 2 ^ 30 - rampUp u

/-- A frame of parts that begin at the given samples and end at sample `stop`, at `u` sixty-fourths of a sample from its first (R65, R97): each part
rises over its first W samples, onto which the part before it falls in cyclic continuation; `tail` tells whether the last one falls into silence.
`value` gives a part's waveform from its own start on; the result is 2^-30 of its unit. -/
def overlapped (starts : List Nat) (stop : Nat) (tail : Bool) (value : Nat → Nat → Int) (u : Nat) : Int :=
  let w := 64 * rampLen
  let j := (starts.filter fun a => 64 * a ≤ u).length - 1
  let at_ := fun (i : Nat) => u - 64 * starts.getD i 0
  if starts.isEmpty || 64 * stop + w ≤ u then 0
  else if 64 * stop ≤ u then (if tail then value j (at_ j) * rampDown (u - 64 * stop) else 0)
  else if w ≤ at_ j then value j (at_ j) * 2 ^ 30
  else value j (at_ j) * rampUp (at_ j) + (if j = 0 then 0 else value (j - 1) (at_ (j - 1)) * rampDown (at_ j))

/-! Levels (R91, R97, R111). -/

/-- 10^(−n/10) in 2^-64. -/
def powerOf (db : Int) : Nat := linearOf (4 * db)

/-- The mean power of the OFDM frames of channel `n` relative to a full-scale sine: 13 dB below, 14 dB while its lane is enabled (R91, R111). -/
def State.ofdmLevel (s : State) (n : Nat) : Int := if (s.chan n).swell.on then -14 else -13

/-- The power of a swell frame on channel `n` relative to a full-scale sine: 3 dB below in S1 and S2, LANE_LEVEL less 3 dB on the lane (R97,
R111). -/
def State.swellLevel (s : State) (n : Nat) (wave : Wave) : Int := if isLane wave then (s.chan n).swell.level - 3 else -3

/-- The steps of the DAC to one side of zero: 14 bits (R38). -/
def dacFull : Int := 8192

/-- A sample in 2^-16 DAC step is clipped at full scale (R91). -/
def clipSample (x : Int) : Int := clampInt (-dacFull * 2 ^ 16) (dacFull * 2 ^ 16) x

/-- Sample of an OFDM frame on channel `n`, in 2^-16 DAC step, at `u` sixty-fourths of a sample from the frame's first (R63–R69, R91, R111): its mean
power, the guards counted with their symbols, is scaled to the channel's level, and it is clipped. -/
def State.ofdmSample (s : State) (x : TxFrame) (n u : Nat) : Int :=
  let us := s.channelUnits x n
  let stop := (x.stop - x.start) / 2
  let total := (us.map fun y => y.len * y.power).sum
  let samples := (us.map (·.len)).sum
  -- amplitude of full scale over the root mean square, in 2^30: the squares are in 2^-64 and 2^-60
  let gain := isqrt (powerOf (s.ofdmLevel n) * samples * 2 ^ 55 / max 1 total)
  let v := overlapped (us.map (·.first)) stop true (fun j w => match us[j]? with
    | some y => y.sample w
    | none => 0) u
  clipSample (v * gain * (dacFull * 2 ^ 16) / 2 ^ 120)

/-- The sub-band of a swell waveform: S0, S1, S2 (R94). -/
def subBandOf : Wave → Nat
  | .s1 => 1
  | .s2 => 2
  | _ => 0

/-- cos of a symbol's phase, in 2^-30, at `u` sixty-fourths of a sample from its start; it continues with period T (R95, R97). -/
def Chirp.sample (x : Chirp) (w sf : Nat) (falling : Bool) (u : Nat) : Int :=
  let turn : Int := (turnUnits w sf : Int) * 4096
  let period := 64 * 2 ^ sf * chipSamples w
  (turned (x.phaseAt 64 w sf falling (u % period) % turn * 2 ^ 32 / turn) (1, 0)).1

/-- The symbols of a swell frame of the device (R99, R103); a cut frame has lost its later ones (R112, R295). -/
def State.frameChirps (s : State) (x : TxFrame) : List Chirp :=
  (swellSymbols x.sf x.npre (s.swellHead x).encode x.wire.flatten).take ((x.stop - x.start) / swellSymbol (isLane x.wave) x.sf)

/-- Sample of a swell frame on channel `n`, in 2^-16 DAC step, at `u` sixty-fourths of a sample from its first (R95–R97, R111); a frame that was cut
ends without a ramp (R295). -/
def State.swellSample (s : State) (x : TxFrame) (n u : Nat) : Int :=
  let cs := s.frameChirps x
  let len := swellSymbol (isLane x.wave) x.sf / 2
  let v := overlapped ((List.range cs.length).map (· * len)) (cs.length * len) (!x.cut) (fun j w => match cs[j]? with
    | some c => c.sample (subBandOf x.wave) x.sf (x.wave == .laneB) w
    | none => 0) u
  clipSample (v * isqrt (powerOf (s.swellLevel n x.wave)) * (dacFull * 2 ^ 16) / 2 ^ 92)

/-- Sample of a frame on channel `n`. -/
def State.frameSample (s : State) (x : TxFrame) (n u : Nat) : Int := if x.wave == .ofdm then s.ofdmSample x n u else s.swellSample x n u

/-- The tone of a loop test at `u` sixty-fourths of a sample from its first, in 2^-16 DAC step (R514): carrier 200 for 8,192 samples with the ramps of
R65, 13 dB below full scale. -/
def toneSample (u : Nat) : Int :=
  overlapped [0] 8192 true (fun _ w => (unitAt (200 * w) (64 * 4096)).1) u * isqrt (powerOf (-13)) * (dacFull * 2 ^ 16) / 2 ^ 92

/-- The DAC code of channel `n` at T0 tick `t` (R17, R39–R41): the frames on air, each delayed by TX_DELAY and at zero trim, added and clipped at
full scale; 0 between frames, after an underrun, and while the outputs are off. -/
def State.dacCode (s : State) (n t : Nat) : Int :=
  match s.dac n with
  | .frames fs =>
    let sum := (fs.map fun f => match s.frame? f with
      | some x => if 32 * t < s.leaves x n then 0 else s.frameSample x n (32 * t - s.leaves x n)
      | none => 0).sum
    clampInt (-dacFull) (dacFull - 1) ((sum + 2 ^ 15) / 2 ^ 16)
  | .tone start => if t < start then 0 else (toneSample (32 * (t - start)) + 2 ^ 15) / 2 ^ 16
  | _ => 0

/-- The current that LTXP (`p`) or LTXN of channel `n` sinks at tick `t`, in 2^-14 of 0.1 mA (R38, R39): half of I_FS each, moved apart by the DAC
code; none while it is less than 10 µA. -/
def State.lineCurrent (s : State) (n t : Nat) (p : Bool) : Option Int :=
  match s.dac n with
  | .off => none
  | _ => some (((s.chan n).cfg.fsCurrent : Int) * (dacFull + (if p then s.dacCode n t else -s.dacCode n t)))

end Sys2Proof.Machine
end

