-- ==== Sys2Proof/Machine/Levels.lean ====
section
/-! DEFINITION. What the balls show when nothing is signalled on them: in reset, recovery mode and idle (R29, R39, R436, R484). -/

namespace Sys2Proof.Machine

/-- A level that a ball or a pair holds (R484). -/
inductive BallLevel where
  /-- sinks less than 10 µA. -/
  | unloaded
  /-- more than 2 kΩ differential. -/
  | unterminated
  /-- electrical idle. -/
  | idle
  | recessive
  | highImpedance
  | low
  | high
  deriving DecidableEq, Repr

/-- The receive termination of channel `n` is on (R29, R484): off until the channels have started, then as TERM_ENABLE says. -/
def State.terminated (s : State) (n : Nat) : Bool := s.running && (s.chan n).cfg.term

/-- The device is in reset: held by RESET_N, or on T16 by an internal reset (R484, R485). -/
def State.inReset (s : State) : Bool :=
  match s.sys.phase with
  | .held => true
  | .hold => true
  | _ => false

/-- The level that a ball holds while its function puts nothing on it; none where the ball carries its function (R39, R424, R436, R484). -/
def State.ballLevel (s : State) : Ball → Option BallLevel
  | .lineTx n _ => if s.dac n = .off then some .unloaded else none
  | .lineRx n _ => if s.terminated n then none else some .unterminated
  | .serTx _ _ => if s.running then none else some .idle
  | .canTx => if s.pins.canTxRecessive then some .recessive else none
  | .spiMiso => if s.inReset then some .highImpedance else none
  | .xspiResetN => if s.inReset then some .low else some .high
  | .xspiCsN => if s.inReset then some .high else none
  | .ppsOut => some (if s.pins.ppsOut then .high else .low)
  | .tdo => match s.jtag.tdo with
    | none => some .highImpedance
    | some b => some (if b then .high else .low)
  | _ => none

end Sys2Proof.Machine
end

