-- ==== Sys2Proof/Machine/Wire.lean ====
section
/-! DEFINITION. Datagrams as a backhaul port puts them on the wire: Ethernet, IP and UDP headers (R405, R407, R408, R413, R414). The
layouts of the headers are those of the standards (PRESUMED, entry 15). -/

namespace Sys2Proof.Machine

/-- Ones' complement sum of 16-bit words, most significant byte first. -/
def onesSum : List Byte → Nat
  | [] => 0
  | [a] => a.toNat * 256
  | a :: b :: bs => a.toNat * 256 + b.toNat + onesSum bs

/-- The Internet checksum of some bytes. -/
def inetSum (bs : List Byte) : Nat :=
  let s := onesSum bs
  let s := s % 65536 + s / 65536
  65535 - (s % 65536 + s / 65536)

/-- PCP and DSCP of a message (R408). -/
def OutMsg.marking : OutMsg → Nat × Nat
  | .northbound _ 0 _ _ _ => (6, 46)
  | .northbound _ 1 _ _ _ => (5, 34)
  | .northbound _ 2 _ _ _ => (3, 18)
  | .northbound _ _ _ _ _ => (1, 10)
  | .domain _ _ _ => (5, 34)
  | .management _ _ _ _ => (4, 26)
  | .ptp _ => (7, 56)
  | _ => (0, 0)

/-- UDP source port, destination port, destination address and payload of a message that is a UDP datagram with a content the spec
gives (R408, R409, R414, R439). -/
def State.datagramOf (s : State) (c : PortCfg) : OutMsg → Option (Nat × Nat × List Byte × List Byte)
  | .northbound k _ _ _ payload => some (c.nbUdp, s.rd (K.sess.PEER_UDP_PORT k), s.rdB (K.sess.PEER_ADDR k), payload)
  | .domain _ addr bytes => some (c.drvUdp, c.drvUdp, addr, bytes)
  | .management _ addr udp bytes => some (c.mgmtUdp, udp, addr, bytes)
  | _ => none

/-- An IP address in the length of the port's IP version (R425). -/
def PortCfg.cut (c : PortCfg) (a : List Byte) : List Byte := a.take (if c.ipVersion = 6 then 16 else 4)

/-- The address is one of a group. -/
def PortCfg.multicast (c : PortCfg) (a : List Byte) : Bool :=
  match a with
  | x :: _ => if c.ipVersion = 6 then x == 0xFF else 224 ≤ x.toNat && x.toNat < 240
  | [] => false

/-- Two addresses share the port's prefix. -/
def PortCfg.onLink (c : PortCfg) (a : List Byte) : Bool :=
  let n := if c.ipVersion = 6 then 128 else 32
  let top := fun (x : List Byte) => ofBe (c.cut x) / 2 ^ (n - min n c.prefixLen)
  top a == top c.addr

/-- The neighbour to which a datagram goes: its destination, or the gateway for one outside the prefix (R407). -/
def PortCfg.nextHop (c : PortCfg) (dst : List Byte) : List Byte :=
  if c.multicast dst || c.onLink dst || c.gateway.all (· == 0) then c.cut dst else c.cut c.gateway

/-- The UDP datagram with its checksum over the pseudo-header (R408); a computed sum of 0 is sent as all ones. -/
def PortCfg.udp (c : PortCfg) (src dst : Nat) (dest : List Byte) (payload : List Byte) : List Byte :=
  let n := payload.length + 8
  let pseudo := c.cut c.addr ++ c.cut dest ++
    (if c.ipVersion = 6 then beBytes 4 n ++ [0, 0, 0, 17] else [0, 17] ++ beBytes 2 n)
  let head := beBytes 2 src ++ beBytes 2 dst ++ beBytes 2 n
  let sum := inetSum (pseudo ++ head ++ [0, 0] ++ payload)
  head ++ beBytes 2 (if sum = 0 then 65535 else sum) ++ payload

/-- The IP header (R407): DF on IPv4, HOP_LIMIT as hop limit or TTL. -/
def PortCfg.ipHead (c : PortCfg) (dscp len : Nat) (dest : List Byte) : List Byte :=
  if c.ipVersion = 6 then
    beBytes 4 (6 * 2 ^ 28 + dscp * 2 ^ 22) ++ beBytes 2 len ++ [17, BitVec.ofNat 8 c.hopLimit] ++ c.cut c.addr ++ c.cut dest
  else
    let a := [0x45, BitVec.ofNat 8 (4 * dscp)] ++ beBytes 2 (len + 20) ++ [0, 0, 0x40, 0, BitVec.ofNat 8 c.hopLimit, 17]
    let b := c.cut c.addr ++ c.cut dest
    a ++ beBytes 2 (inetSum (a ++ [0, 0] ++ b)) ++ b

/-- The Ethernet header with the 802.1Q tag when VLAN_ID is not 0 (R405, R408). -/
def PortCfg.ethHead (c : PortCfg) (mac pcp : Nat) : List Byte :=
  beBytes 6 mac ++ beBytes 6 c.mac ++ (if c.vlan = 0 then [] else [0x81, 0] ++ beBytes 2 (pcp * 8192 + c.vlan)) ++
    (if c.ipVersion = 6 then [0x86, 0xDD] else [0x08, 0])

/-- The frame of a message on a port, without its FCS; `mac` is the Ethernet address of the next hop, which address resolution gives;
a group has its own (R407, R408, R414). -/
def State.wireFrame (s : State) (p mac : Nat) (x : TxItem) : Option (List Byte) :=
  let c := s.portCfg p
  match s.datagramOf c x.msg with
  | none => none
  | some (src, dst, dest, payload) =>
    let dest := c.cut dest
    let hop := if c.multicast dest then groupMac (c.ipVersion == 6) dest else mac
    some (c.ethHead hop x.msg.marking.1 ++ c.ipHead x.msg.marking.2 (payload.length + 8) dest ++ c.udp src dst dest payload)

end Sys2Proof.Machine
end

