-- ==== Sys2Proof/WellFormed.lean ====
section
/-! DEFINITION. Well-formed commands: their operands name parts that the device has (R19, R20, R401, R439, R464). -/

namespace Sys2Proof

/-- Line channels (R1, R28). -/
abbrev chanCount : Nat := 256
/-- Segments (R232). -/
abbrev segCount : Nat := 64
/-- Entries of the endpoint table (R20). -/
abbrev entryCount : Nat := 131072
/-- Northbound sessions (R409). -/
abbrev sessionCount : Nat := 16
/-- Counter banks (R464). -/
abbrev bankCount : Nat := 12
/-- Endpoint access cursors (R231). -/
abbrev cursorCount : Nat := 256
/-- Control cores (R24). -/
abbrev coreCount : Nat := 8
/-- Line cipher engines (R323). -/
abbrev engineCount : Nat := 64
/-- Ports of the largest lane mode (R401). -/
abbrev portMax : Nat := 4
/-- Hardware queues (R363). -/
abbrev queueCount : Nat := 256
/-- LC groups (R44). -/
abbrev groupCount : Nat := 8
/-- Key slots (R304). -/
abbrev slotCount : Nat := 1024
/-- Mains units (R374). -/
abbrev unitCount : Nat := 64
/-- Check units (R351). -/
abbrev cuCount : Nat := 8

/-- A path exists: the principals are 0 to 7 (R439). -/
def Path.wf : Path → Bool
  | .udp m => decide (m < 8)
  | _ => true

/-- The spreading factors of a swell waveform (R94, R112); an OFDM detection has none. -/
def sfGood (wave : Wave) (sf : Nat) : Bool :=
  match wave with
  | .ofdm => true
  | .s1 => decide (7 ≤ sf) && decide (sf ≤ 14)
  | .s2 => decide (7 ≤ sf) && decide (sf ≤ 14)
  | .laneA => decide (7 ≤ sf) && decide (sf ≤ 11)
  | .laneB => decide (7 ≤ sf) && decide (sf ≤ 11)

/-- The command is well formed. An ill-formed one still has a meaning: it finds nothing to act on. -/
def Instr.wf : Instr → Bool
  | .resetNAssert _ => true
  | .resetNRelease boot => decide (boot.canId < 128)
  | .resetHoldEnd boot => decide (boot.canId < 128)
  | .watchdogService core => decide (core < coreCount)
  | .watchdogExpiry core => decide (core < coreCount)
  | .reset via _ => via.wf
  | .resetDelayExpiry => true
  | .resetReq _ => true
  | .scrub _ _ _ => true
  | .channelEnable via channel => via.wf && decide (channel < chanCount)
  | .channelDisable via channel => via.wf && decide (channel < chanCount)
  | .channelConfigApply channel => decide (channel < chanCount)
  | .synthLock group => decide (group < groupCount)
  | .synthLockLoss group => decide (group < groupCount)
  | .agcDecision channel _ _ _ => decide (channel < chanCount)
  | .trimPreload seg entry _ => decide (seg < segCount) && decide (entry < entryCount)
  | .trimTakesEffect channel => decide (channel < chanCount)
  | .rxBreakwaterOverflow channel => decide (channel < chanCount)
  | .txUnderrun channel => decide (channel < chanCount)
  | .mainsBwOverflow unit => decide (unit < unitCount)
  | .bwPeakRead via channel _ => via.wf && decide (channel < chanCount)
  | .stickyFlagRead via idx sub => via.wf && decide (idx < 65536) && decide (sub < 256)
  | .txReadinessCheck _ _ => true
  | .frameTxStart _ _ => true
  | .frameTxEnd _ => true
  | .txBlankEnd channel => decide (channel < chanCount)
  | .detection channel wave sf _ => sfGood wave sf && decide (channel < chanCount)
  | .timingMark channel _ _ => decide (channel < chanCount)
  | .acqFail channel => decide (channel < chanCount)
  | .fineTrim _ _ => true
  | .groupClose _ => true
  | .frameControlCheck _ _ => true
  | .pilotTrack _ _ _ => true
  | .codewordDecoded _ _ _ _ => true
  | .shed => true
  | .mpduResolve _ _ _ => true
  | .receptionEnd _ => true
  | .secondaryDetection channel _ _ _ _ => decide (channel < chanCount)
  | .captureDecision _ => true
  | .ackSend _ _ => true
  | .ackReceive _ _ => true
  | .ackWindowExpiry _ => true
  | .swellAckSend _ _ => true
  | .swellAckWindowExpiry _ => true
  | .laneHeaderCheck channel sf _ _ _ => decide (7 ≤ sf && sf ≤ 11) && decide (channel < chanCount)
  | .laneFramePlace _ => true
  | .laneFrameStart _ _ => true
  | .laneFrameEnd _ => true
  | .swellConfigApply channel => decide (channel < chanCount)
  | .wakeFrame entry => decide (entry < entryCount)
  | .mainsCycle => true
  | .refUnit via _ => via.wf
  | .observationWindow channel _ _ => decide (channel < chanCount)
  | .tideSlotEnd channel slot => decide (slot < 24) && decide (channel < chanCount)
  | .downlinkPlan seg entry start stop _ => decide (entry ≤ 131072) && decide (start < stop) && decide (seg < segCount)
  | .soundRequest entry _ => decide (entry < entryCount)
  | .soundTimeout entry => decide (entry < entryCount)
  | .soundingComplete entry _ => decide (entry < entryCount)
  | .toneMapResponse entry _ => decide (entry < entryCount)
  | .mapRefresh entry => decide (entry < entryCount)
  | .tideReport entry _ => decide (entry < entryCount)
  | .beacon seg => decide (seg < segCount)
  | .reachBeacon seg => decide (seg < segCount)
  | .associationRequest seg => decide (seg < segCount)
  | .leaseRenew entry _ => decide (entry < entryCount)
  | .sleepSchedule entry _ => decide (entry < entryCount)
  | .present entry => decide (entry < entryCount)
  | .allocRequest entry _ => decide (entry < entryCount)
  | .disassociate entry _ => decide (entry < entryCount)
  | .laneSfSet entry sf => decide (sf = 0 ∨ (7 ≤ sf ∧ sf ≤ 11)) && decide (entry < entryCount)
  | .longReachSet entry mode _ => decide (entry < entryCount) && decide (mode < 3)
  | .neighbourReport entry _ => decide (entry < entryCount)
  | .routeInterval seg => decide (seg < segCount)
  | .relayedAssocTimeout entry => decide (entry < entryCount)
  | .leaseExpiry entry => decide (entry < entryCount)
  | .addressHoldExpiry entry => decide (entry < entryCount)
  | .wakeWindowEnd entry => decide (entry < entryCount)
  | .adriftHoldExpiry entry => decide (entry < entryCount)
  | .cursorSelect via cursor sub _ => via.wf && decide (cursor < cursorCount) && decide (sub < 256)
  | .cursorDisassociate via cursor _ => via.wf && decide (cursor < cursorCount)
  | .segEnable via seg => via.wf && decide (seg < segCount)
  | .segDisable via seg => via.wf && decide (seg < segCount)
  | .helloSend => true
  | .hello _ _ _ _ => true
  | .peerAbsent device => decide (device < 1024)
  | .couplingSend => true
  | .coupling _ _ _ => true
  | .coupleAgeExpiry seg nid => decide (seg < segCount) && decide (nid < 65536)
  | .slotMapSend seg => decide (seg < segCount)
  | .slotMap _ _ _ => true
  | .claimResolve seg => decide (seg < segCount)
  | .roamQuery _ _ _ => true
  | .roamOffer _ _ _ => true
  | .roamOfferWaitExpiry _ => true
  | .roamRequery _ => true
  | .roamAccept _ _ _ => true
  | .roamAcceptTimeout _ => true
  | .txnRelay _ _ _ => true
  | .request session _ => decide (session < sessionCount)
  | .abort session _ => decide (session < sessionCount)
  | .abortTakeRecord _ _ => true
  | .legQuotaRelease cls => decide (cls < 4)
  | .respWaitExpiry _ _ => true
  | .legDeadline _ _ => true
  | .aggTimeExpiry _ => true
  | .cacheTimeExpiry _ => true
  | .reportRepeat _ => true
  | .alarmReport => true
  | .keyLoad via slot _ _ => via.wf && decide (slot < slotCount)
  | .erase via slot _ => via.wf && decide (slot < slotCount)
  | .boundEui via slot _ => via.wf && decide (slot < slotCount)
  | .fcReservation slot => decide (slot < slotCount)
  | .nextActivate via seg _ => via.wf && decide (seg < segCount)
  | .overlapStart seg => decide (seg < segCount)
  | .promotion seg => decide (seg < segCount)
  | .nextKeyRetire seg => decide (seg < segCount)
  | .admitMode via mode => via.wf && decide (mode < 3)
  | .admitWrite via _ => via.wf
  | .cipherEngineRequest _ => true
  | .engineOwnerWrite engine user _ => decide (engine < engineCount) && decide (user < 256)
  | .cipherBlock engine _ _ _ _ => decide (engine < engineCount)
  | .cipherMessageEnd engine => decide (engine < engineCount)
  | .faultClear via engine _ => via.wf && decide (engine < engineCount)
  | .vaultOperation _ => true
  | .vaultClear via _ => via.wf
  | .entropyTestFail => true
  | .ledgerJournalWrite => true
  | .commitSecurityVersion via _ => via.wf
  | .rootRevoke via _ => via.wf
  | .imageData via _ => via.wf
  | .imageVerify via _ _ => via.wf
  | .cuGo via unit _ _ => via.wf && decide (unit < cuCount)
  | .cuRunEnd unit => decide (unit < cuCount)
  | .scratchDataWrite via _ => via.wf
  | .queueWrite queue _ _ _ user => decide (queue < queueCount) && decide (user < 256)
  | .queueRead queue _ _ user => decide (queue < queueCount) && decide (user < 256)
  | .mainsUnitRestart via unit sub _ => via.wf && decide (unit < unitCount) && decide (sub < 256)
  | .mainsConfigApply unit => decide (unit < unitCount)
  | .trigNow via unit _ => via.wf && decide (unit < unitCount)
  | .groupTrigNow via _ => via.wf
  | .scheduleTrigger _ _ => true
  | .mainsPhaseTrigger _ _ => true
  | .ppsTrigger => true
  | .mctrigEdge _ => true
  | .waveformSample dumps => dumps.all fun d => decide (d.1 < unitCount ∧ d.2.2 < 2 ^ 48)
  | .phasor unit _ => decide (unit < unitCount)
  | .cycleIntegral unit _ _ => decide (unit < unitCount)
  | .sh240Result unit _ => decide (unit < unitCount)
  | .alarmHoldoffExpiry unit => decide (unit < unitCount)
  | .eventRead via unit j => via.wf && decide (unit < unitCount) && decide (j < 2)
  | .linkUp port => decide (port < portMax)
  | .linkDown port => decide (port < portMax)
  | .ethFrameRx port _ => decide (port < portMax)
  | .ethFrameTxEnd port => decide (port < portMax)
  | .addressResolution port _ _ => decide (port < portMax)
  | .icmpEcho port => decide (port < portMax)
  | .nbDatagram _ => true
  | .sessionWrite via session sub _ => via.wf && decide (session < sessionCount) && decide (sub < 256)
  | .ptpMessage _ => true
  | .sourceLoss _ => true
  | .coastLimitExpiry => true
  | .timeSet via _ => via.wf
  | .ppsInEdge => true
  | .ppsInTimeout => true
  | .ppsOutRise => true
  | .ppsOutFall => true
  | .sdoDownloadExpedited canId _ _ => decide (canId < 2048)
  | .sdoDownloadInitiate canId _ => decide (canId < 2048)
  | .sdoDownloadSegment canId _ _ => decide (canId < 2048)
  | .sdoUploadInitiate canId _ => decide (canId < 2048)
  | .sdoUploadSegment canId _ => decide (canId < 2048)
  | .sdoAbort canId _ => decide (canId < 2048)
  | .sdoTimeout => true
  | .canBusOff => true
  | .canBusOffRecovery => true
  | .accessRead _ => true
  | .accessWrite _ _ => true
  | .snapshotTimeout _ => true
  | .spiRead addr _ => decide (addr < 65536)
  | .spiWrite addr _ => decide (addr < 65536)
  | .pairLowRead addr => decide (addr < 65536)
  | .pairHighRead addr => decide (addr < 65536)
  | .winStatusRead => true
  | .mbxDoorbell _ => true
  | .storeAll via _ _ => via.wf
  | .restoreAll via _ => via.wf
  | .objectWrite via idx sub _ => via.wf && decide (idx < 65536) && decide (sub < 256)
  | .loopTest via channel => via.wf && decide (channel < chanCount)
  | .loopTestDone samples => samples.length == 4096 && samples.all fun x => decide (-8192 ≤ x) && decide (x < 8192)
  | .selWrite via bank k _ => via.wf && decide (bank < bankCount) && decide (k < 8)
  | .bankClear via bank _ => via.wf && decide (bank < bankCount)
  | .dumpLatch => true
  | .dumpRecordWritten => true
  | .sampleRingRead via => via.wf
  | .sampleConfigWrite via sub _ => via.wf && decide (sub < 256)
  | .expectedWindowEnd channel => decide (channel < chanCount)
  | .laneBlankEnd channel => decide (channel < chanCount)
  | .entropyRecovery => true
  | .flashWriteDone _ => true
  | .ptpMessageSend _ _ => true
  | .tckEdge _ _ _ _ => true
  | .trstNAssert _ => true

end Sys2Proof
end

