-- ==== Sys2Proof/Tests/Slice0.lean ====
section
/-! SUPPORT. Witnesses for the obligations' hypotheses, ill-formed commands, the spec's worked values. -/

set_option Elab.async false

open Sys2Proof Sys2Proof.Machine

namespace Sys2Proof.Tests

/-- The state after reset. -/
abbrev r0 : State := State.reset

/-- A state with registers set. -/
def sets : List (Reg × Nat) → State → State
  | [], s => s
  | (r, v) :: rs, s => sets rs (s.wr r v)

/-- The device in another phase. -/
def inPhase (p : Phase) : State := r0.modSys fun x => { x with phase := p }

/-- A key slot that is usable. -/
def keyed (i : Nat) (s : State) : State :=
  (sets [(K.key.STATE i, 1), (K.key.USE_LIMIT i, 1000)] s).modKeys fun k => { k with slots := Tbl.ins k.slots i ⟨List.replicate 16 1, 1000, 0, []⟩ }

/-- Segment 63 with member channel 255. -/
def segmented (enabled : Nat) (s : State) : State :=
  sets [(K.seg.SEG_ENABLE 63, enabled), (K.seg.MEMBER_COUNT 63, 1), (K.seg.MEMBER 63 0, 255)] s

/-- A queued MPDU for entry 3. -/
def someDown (kind : DownKind) (lane : Bool) : Down := ⟨9, 63, some 3, 1, 0, kind, [1, 2], none, 0, none, lane, [], [], none⟩

theorem witness_front_and_empty_queue :
    (r0.modPending fun _ => [.shed, .dumpLatch]).pending = .shed :: [.dumpLatch] ∧ r0.pending = [] := by decide

theorem witness_working_memory :
    State.reset.Sound ∧ ∃ t, step (r0.modPending fun _ => [.scratchDataWrite .can [1]]) = .next t := ⟨by unfold State.Sound; decide +kernel, _, rfl⟩

theorem witness_reset_pin : 999 < 1000 ∧ 10000 ≤ 10000 ∧ 1000 ≤ 9999 ∧ 9999 < 10000 := by decide

theorem witness_reset_write :
    (0x74657371 < 2 ^ 32 ∧ 0x74657371 ≠ 0x74657372) ∧ r0.MayAccess .can 2 ∧ r0.sys.resetDue = none ∧
    (r0.modSys fun x => { x with resetDue := some (7, 0) }).sys.resetDue = some (7, 0) ∧
    (r0.modSys fun x => { x with resetDue := some (7, 0) }).MayAccess .spi 2 ∧
    ((inPhase .recovery).running = true ∨ (inPhase .recovery).sys.phase = .recovery) := by
  unfold State.MayAccess; constructorm* _ ∧ _ <;> decide +kernel

theorem witness_watchdog :
    r0.running = true ∧ Tbl.at? r0.sys.wdDue 7 = some 40960000 ∧ Tbl.at? r0.sys.halted 7 = none ∧
    Tbl.at? (r0.modSys fun x => { x with halted := [(7, ⟨3, 5⟩)] }).sys.halted 7 = some ⟨3, 5⟩ ∧
    Tbl.at? (r0.modSys fun x => { x with halted := [(7, ⟨3, 5⟩)] }).sys.wdDue 7 = some 40960000 := by constructorm* _ ∧ _ <;> decide +kernel

theorem witness_boot :
    (inPhase .held).sys.phase = .held ∧ (inPhase .hold).sys.phase = .hold ∧ (inPhase .hold).flash.ops = [] ∧
    (inPhase .hold).flash.stores = [] ∧ (inPhase .hold).candidates = [] ++ 0 :: [] ∧ (inPhase .hold).slotResult 0 = .ok ∧
    (∀ k, k < 2 → ((inPhase .hold).modFlash fun f => { f with image := [(0, []), (4096, [])] }).slotResult k ≠ .ok) := by
  constructorm* _ ∧ _ <;> decide +kernel

theorem witness_trims :
    (let s := r0.modChan 255 fun c => { c with written := some (-24000, 63, 5) }
     (s.chan 255).written = some (-24000, 63, 5) ∧ (s.chan 255).trimTick ≤ 5) ∧
    ((r0.modChan 255 fun c => { c with window := some (3, 900) }).chan 255).window = some (3, 900) ∧
    ((r0.modChan 255 fun c => { c with window := some (3, 900), rx := some 2 }).chan 255).rx = some 2 ∧
    ((r0.modLine fun l => { l with windows := [⟨63, 3, 820, 900⟩] }).line.windows.find? fun w => w.seg == 63 && w.entry == 3 && w.from_ == 820) =
      some ⟨63, 3, 820, 900⟩ ∧
    ((segmented 1 r0).modLine fun l => { l with windows := [⟨63, 3, 820, 900⟩] }).members 63 = [255] ∧
    (((segmented 1 r0).modLine fun l => { l with windows := [⟨63, 3, 820, 900⟩] }).ep 3).driftEmpty = true ∧
    (r0.chan 255).window = none ∧ (r0.chan 255).rx = none ∧ (r0.chan 255).written = none := by constructorm* _ ∧ _ <;> decide +kernel

/-- A running device with channel `n` disabled. -/
def off (n : Nat) : State := sets [(K.ch.ENABLE n, 0)] r0

theorem witness_agc :
    r0.running = true ∧ r0.inService 255 = true ∧ (r0.chan 255).frozen = false ∧ (r0.chan 255).cfg.fixed = false ∧
    (r0.passTo (1000 + 128)).blanked 255 = false ∧ r0.loopOn 255 = false ∧ (r0.chan 255).gainFrom ≤ 1000 ∧
    List.any (List.replicate 63 0 ++ [8100]) clips = true ∧ List.any (List.replicate 64 (-100 : Int)) clips = false ∧
    ((r0.modChan 255 fun c => { c with frozen := true, cfg := { c.cfg with fixed := true } }).chan 255).frozen = true ∧
    ((r0.modChan 255 fun c => { c with cfg := { c.cfg with fixed := true } }).chan 255).cfg.fixed = true := by constructorm* _ ∧ _ <;> decide +kernel

/-- A reception without anything decoded. -/
def someRx (seg : Option Nat) (wave : Wave) (n : Nat) (stage : RxStage) : Reception :=
  { r0.newRx n wave 7 [⟨n, 4, true, false, []⟩] with seg := seg, stage := stage, detected := 0 }

/-- Channel `n`, its line receiver holding reception 0. -/
def receiving (x : Reception) (n : Nat) : State :=
  (r0.modLine fun l => { l with rxs := [(0, x)], nextRx := 1 }).modChan n fun c => { c with rx := some 0, frozen := true }

theorem witness_channel_losses :
    ((r0.group 7).locked = true ∧ r0.enabled 255 = true ∧ (r0.chan 255).rx = none ∧ (r0.chan 255).laneRx = none) ∧
    (let s := r0.modLine fun l => { l with groups := [(7, ⟨false, false⟩)] }
     (s.group 7).locked = false ∧ (s.group 7).stopped = false) ∧
    (let s := r0.modLine fun l => { l with groups := [(7, ⟨false, true⟩)] }
     (s.group 7).locked = false ∧ (s.group 7).stopped = true) ∧
    (off 255).enabled 255 = false ∧
    (let x := someRx none .ofdm 255 .payload
     let s := receiving x 255
     s.enabled 255 = true ∧ Alone 255 0 x s ∧ x.wave = .ofdm ∧ (s.chan 255).laneRx = none ∧ s.chanIdle 255 = false) ∧
    (let x := { someRx none .ofdm 255 .payload with members := [⟨254, 4, true, false, []⟩, ⟨255, 4, true, false, []⟩] }
     let s := receiving x 255
     s.rx? 0 = some x ∧ x.members = ⟨254, 4, true, false, []⟩ :: [⟨255, 4, true, false, []⟩]) ∧
    r0.chanIdle 255 = true ∧ (r0.chanConfig 255).masks = (r0.chan 255).cfg.masks ∧
    (r0.chanConfig 255).idleTrim = (r0.chan 255).cfg.idleTrim ∧
    (let s := sets [(K.ch.IDLE_TRIM 255, 65530)] r0
     (s.chanConfig 255).idleTrim ≠ (s.chan 255).cfg.idleTrim ∧ (s.chan 255).window = none) ∧
    r0.laneSending 255 = false ∧ (r0.chan 255).swell.on = r0.flag (K.ch.LANE_ENABLE 255) := by
  refine ⟨by decide +kernel, by decide +kernel, by decide +kernel, by decide +kernel, ?_, by decide +kernel, by decide +kernel,
    by decide +kernel, by decide +kernel, by decide +kernel, by decide +kernel, by decide +kernel⟩
  exact ⟨by decide +kernel, ⟨by decide +kernel, by decide +kernel, ⟨_, rfl, rfl⟩, by decide +kernel⟩, by decide +kernel, by decide +kernel, by decide +kernel⟩

/-- A frame for transmission. -/
def someFrame (wave : Wave) (chans : List Nat) (started ended ack : Bool) : TxFrame where
  seg := 0
  wave := wave
  type := 1
  dst := 5
  pri := 1
  ackReq := ack
  tmi := 0
  tide := 0
  gi := 0
  psc := 1
  sf := 7
  chans := chans
  start := 1000
  data := 1100
  stop := 2000
  mpdus := [9]
  body := []
  entry := some 3
  cls := none
  started := started
  ended := ended
  underrun := false
  ready := true
  cut := false
  len := 1
  npre := 8
  wire := []

/-- A state with frame 0 open. -/
def framed (x : TxFrame) (s : State) : State := s.modLine fun l => { l with frames := [(0, x)], nextFrame := 1 }

theorem witness_frames :
    (let x := someFrame .ofdm [255] false false false
     let s := framed x r0
     s.frame? 0 = some x ∧ (∀ n ∈ x.chans, n ∈ [255]) ∧ (∃ n ∈ x.chans, n ∉ []) ∧ x.chans.Nodup ∧ x.chans ≠ [] ∧ x.ready = true ∧
       (∀ n ∈ x.chans, s.inService n = true ∧ s.inGap x.seg [n] x.start x.stop = false) ∧ s.lineTaken 0 x = false) ∧
    (let x := { someFrame .ofdm [255] false false false with ready := false }
     (framed x r0).frame? 0 = some x ∧ x.started = false ∧ x.ended = false) ∧
    (let x := someFrame .ofdm [254] false false false
     let s := framed x (off 254)
     s.frame? 0 = some x ∧ (∃ n ∈ x.chans, s.inService n = false) ∧ (∀ n ∈ x.chans, s.inGap x.seg [n] x.start x.stop = false)) ∧
    (let x := { someFrame .ofdm [255] false false false with seg := 63, start := 57400000, stop := 57410000 }
     let s := framed x ((segmented 1 r0).modSeg 63 fun g => { g with gaps := [(255, 24)], period := some 0 })
     s.frame? 0 = some x ∧ (∀ n ∈ x.chans, s.inGap x.seg [n] x.start x.stop = true)) ∧
    (let x := someFrame .ofdm [255] true false true
     let s := framed x r0
     s.frame? 0 = some x ∧ x.entry = some 3) ∧
    (let x := someFrame .ofdm [255] true false false
     let d := { someDown .broadcast false with frame := some 0 }
     let s := framed x (r0.modMac fun m => { m with queue := [d] })
     (s.seg x.seg).winding = false ∧ d ∈ s.mac.queue ∧ d.id ∈ x.mpdus ∧ d.kind = .broadcast ∧ d.tries < s.limit x.seg 8 ∧
       (s.framesWith fun f => f.started && !f.ended && f.chans.contains 255) = (0, x) :: []) ∧
    ((r0.modChan 255 fun c => { c with blankEnd := some 5 }).chan 255).blankEnd = some 5 := by constructorm* _ ∧ _ <;> decide +kernel

theorem witness_scrub :
    r0.running = true ∧ 0x02FFFFFF < 0x03000000 ∧ Tbl.at? r0.sys.halted 7 = none ∧
    ((r0.modQueue 255 fun q => { q with words := [(1, true)] }).queue 255).words ≠ [] ∧ 16383 ∉ r0.mac.retiredPages ∧
    0x00800000 + 1024 * 16383 ≤ 0x017FFFFF ∧ 0x017FFFFF < 0x00800000 + 1024 * 16383 + 1024 ∧
    (r0.ep 131071).unusable = false ∧ (r0.ep 131071).state = 0 ∧ 64 * 131071 ≤ 0x7FFFC0 ∧ 0x7FFFC0 < 64 * 131071 + 64 := by constructorm* _ ∧ _ <;> decide +kernel

theorem witness_object_writes :
    r0.running = true ∧ objIndex? 0xFFFF = false ∧ (objIndex? 0x1018 = true ∧ objRow? 0x1018 200 = none) ∧
    (objRow? 0x1018 1).map ObjRow.access = some .ro ∧ (objRow? 0x3000 2).map ObjRow.access = some .rw := by constructorm* _ ∧ _ <;> decide +kernel

/-- Paths whose level is `ADMIN`. -/
def admin : State := sets [(K.can.CAN_LEVEL, 3)] r0

theorem witness_key_load :
    admin.MayAccess .can 3 ∧ (List.replicate 32 (0 : Byte)).length = 32 ∧ admin.keys.vaultLocked = false ∧
    (admin.modKeys fun k => { k with entropyFail := true }).keys.entropyFail = true ∧ (List.replicate 31 (0 : Byte)).length ≠ 32 ∧
    admin.slotUsable 992 = false ∧ (keyed 992 admin).slotUsable 992 = true ∧ (keyed 992 admin).MayAccess .can 3 ∧
    ({ vaultOk := false } : WriteEnv).vaultOk = false ∧
    (keyed 992 admin).slotInUse 1023 false = false ∧ (keyed 992 admin).slotInUse 1023 true = false ∧
    (keyed 992 admin).keys.waiting = [] := by
  unfold State.MayAccess; constructorm* _ ∧ _ <;> decide +kernel

/-- A wrapped load of slot 1023 under a key of sixteen ones. -/
def wrappedLoad : List Byte :=
  [65, 114, 248, 105, 63, 241, 252, 64, 102, 64, 71, 251, 201, 66, 56, 199, 85, 17, 135, 255, 71, 177, 124, 33, 85, 24, 104, 129, 139, 196, 149, 207]

/-- The key block of that load. -/
def loadBlock : List Byte := leBytes 2 1023 ++ leBytes 6 0 ++ List.replicate 16 7

theorem unwrapped : keyUnwrap (List.replicate 16 1) wrappedLoad = some loadBlock := by decide +kernel

theorem witness_key_unwrap :
    keyUnwrap ((keyed 992 admin).loadKek 1023) wrappedLoad = some loadBlock ∧
    (∀ b, keyUnwrap ((keyed 992 admin).loadKek 5) wrappedLoad = some b → (LoadBlock.read b).slot ≠ 5) := by
  have h (i : Nat) (hi : i ≠ 992) : (keyed 992 admin).loadKek i = List.replicate 16 1 := by
    rw [State.loadKek, if_neg hi]; decide +kernel
  refine ⟨by rw [h 1023 (by decide)]; exact unwrapped, fun b hb => ?_⟩
  rw [h 5 (by decide), unwrapped] at hb
  cases hb
  decide +kernel

theorem witness_load_block :
    (let b := loadBlock
     wrappedLoad.length = 32 ∧ b.length + 8 = wrappedLoad.length ∧ (LoadBlock.read b).slot = 1023 ∧
       (LoadBlock.read b).long = (wrappedLoad.length == 48)) := by
  decide +kernel

theorem witness_load_counter :
    max (LoadBlock.read loadBlock).fcStart ((keyed 992 admin).reservedEnd (fingerprintOf (loadBlock.drop 8))) < 2 ^ 32 := by
  decide +kernel

/-- A cipher request. -/
def someReq (slot cls : Nat) (encrypt : Bool) (output : OutputMode) : CipherReq := ⟨4, cls, slot, .ccm, encrypt, output, 8, true, 0, none, List.replicate 13 1, [], List.replicate 8 3, List.replicate 8 0⟩

/-- A cipher message. -/
def someMsg (r : CipherReq) : CipherMsg := ⟨r, List.replicate 16 1, false, 0, 0, 0, 0, 0, 0, false⟩

/-- Engine `e` runs message `m` for user 4. -/
def engaged (e : Nat) (m : CipherMsg) (s : State) : State :=
  s.modKeys fun k => { k with engines := Tbl.ins k.engines e ⟨4, some m, none, 255, false, false, false⟩ }

theorem witness_erase_bind_reserve :
    admin.MayAccess .can 3 ∧ admin.slotInUse 1023 false = false ∧
    (let m := someMsg (someReq 1023 1 false .hold)
     (engaged 63 m admin).keys.engines = [(63, ⟨4, some m, none, 255, false, false, false⟩)] ∧ m.req.slot = 1023 ∧
       (engaged 63 m admin).keys.waiting = [] ∧ (engaged 63 m admin).MayAccess .can 3) ∧ 127 = 64 + 63 ∧
    (∃ j, j < 1024 ∧ j ≠ 991 ∧ (sets [(K.key.BOUND_EUI 128, 5)] admin).rd (K.key.BOUND_EUI j) = 5) ∧
    (∀ j, j < 1024 → j ≠ 991 → admin.rd (K.key.BOUND_EUI j) ≠ 5) ∧ admin.keys.ledgerOn = false ∧
    (let s := (keyed 1023 r0).modKeys fun k => { k with ledgerOn := true, slots := [(1023, ⟨List.replicate 16 1, 1000, 2 ^ 20, []⟩)] }
     s.keys.ledgerOn = true ∧ s.slotUsable 1023 = true ∧ s.reserving 1023 = false ∧ (s.slot 1023).resEnd < 0xFFFFFFFF ∧
       s.rd (K.key.TX_FC 1023) + 2 ^ 19 < (s.slot 1023).resEnd ∧
       (s.wr (K.key.TX_FC 1023) (2 ^ 19)).rd (K.key.TX_FC 1023) + 2 ^ 19 = 2 ^ 20) := by
  unfold State.MayAccess; constructorm* _ ∧ _ <;> decide +kernel

theorem witness_rollover :
    admin.MayAccess .can 3 ∧ (sets [(K.segs.KEY_PHASE 63, 1)] admin).rd (K.segs.KEY_PHASE 63) = 1 ∧ admin.rd (K.segs.KEY_PHASE 63) = 0 ∧
    59 * dtSecond < admin.dt + 60 * dtSecond ∧ admin.dt + 60 * dtSecond ≤ 60 * dtSecond ∧ (admin.seg 63).rollover = none ∧
    (let s := (sets [(K.segs.KEY_PHASE 63, 2)] r0).modSeg 63 fun x => { x with rollover := some (1, 2), retire := some 3 }
     (s.seg 63).rollover = some (1, 2) ∧ s.rd (K.segs.KEY_PHASE 63) = 2 ∧ s.keys.waiting = [] ∧ (s.seg 63).retire = some 3) ∧
    (r0.seg 63).retire = none := by
  unfold State.MayAccess; constructorm* _ ∧ _ <;> decide +kernel

/-- A vault operation. -/
def someOp (agree : Bool) (fn : VaultFn) : VaultOp := ⟨fn, agree, 7⟩

theorem witness_admission_and_vault :
    admin.MayAccess .can 3 ∧ admin.flag K.ledger.LEDGER_ENABLE = false ∧
    (sets [(K.ledger.LEDGER_ENABLE, 1)] admin).flag K.ledger.LEDGER_ENABLE = true ∧
    (List.replicate 47 (0 : Byte)).length % 48 ≠ 0 ∧ (0 < (List.replicate 48 (1 : Byte)).length ∧ (List.replicate 48 (1 : Byte)).length ≤ 3072) ∧
    ((admRecords 1 (List.replicate 48 1)).foldl admApply admin.keys.admission).length ≤ 131072 ∧ r0.keys.vaultWaiting = [] ∧
    (let s := r0.modKeys fun k => { k with entropyFail := true, vaultWaiting := [.op (someOp true (.sha384 [1]))] }
     s.keys.vaultWaiting = [.op (someOp true (.sha384 [1]))] ∧ s.keys.vaultLocked = false ∧ fnPlain (someOp true (.sha384 [1])).fn = true) ∧
    (r0.modKeys fun k => { k with vaultLocked := true }).keys.vaultLocked = true ∧ r0.keys.entropyFail = false ∧ r0.coreUp 7 = true ∧
    (someOp false (.derive [1] [2] 1)).agree = false ∧ (someOp true (.keyUnwrap 1023 (List.replicate 24 2))).fn = .keyUnwrap 1023 (List.replicate 24 2) ∧
    (someOp true (.random 5)).fn = .random 5 ∧ (someOp true (.keyWrap 1023 (List.replicate 16 2))).core = 7 ∧
    (keyed 1023 admin).keys.vaultLocked = false ∧ 3 ≤ admin.levelOf .can := by
  unfold State.MayAccess; constructorm* _ ∧ _ <;> decide +kernel

theorem admission_grows (n : Nat) :
    ((admRecords 1 (leBytes 8 0 ++ List.replicate 40 1)).foldl admApply
      ((1, ([] : List Byte)) :: (List.range' 2 n).map fun k => (k, []))).length = n + 2 := by
  have h : admRecords 1 (leBytes 8 0 ++ List.replicate 40 1) = [⟨0, List.replicate 40 1⟩] := by decide +kernel
  rw [h]
  simp [admApply, Tbl.ins]

theorem witness_admission_full :
    131072 < ((admRecords 1 (leBytes 8 0 ++ List.replicate 40 1)).foldl admApply
      ((1, ([] : List Byte)) :: (List.range' 2 131071).map fun k => (k, []))).length := by
  rw [admission_grows]; decide

/-- Queue `q` in a given condition. -/
def queued (q : Nat) (x : HwQueue) : State := r0.modQueue q fun _ => x

theorem witness_queue_writes :
    (let s := queued 239 ⟨List.replicate 128 (1, true), false, false, none, []⟩
     producerWaits 239 = true ∧ (s.queue 239).atStart = true ∧ (s.queue 239).stalled = false ∧
       queueDepth 239 < (s.queue 239).words.length + 1 ∧ (s.queue 239).words.length = queueDepth 239) ∧
    ((queued 255 ⟨[], true, false, none, []⟩).queue 255).dropping = true ∧ r0.userUp 16 = true ∧
    (r0.modSys fun x => { x with halted := [(7, ⟨3, 5⟩)] }).userUp 15 = false ∧
    ((queued 80 ⟨[], false, true, none, []⟩).queue 80).stalled = true ∧
    (let s := queued 255 ⟨List.replicate 512 (1, false), false, false, none, []⟩
     (s.queue 255).words.length = queueDepth 255 ∧ producerWaits 255 = false ∧ (s.queue 255).atStart = false) ∧
    ((r0.queue 255).words.length < queueDepth 255 ∧ (r0.queue 0).words.length + 2048 ≤ queueDepth 0) := by
  constructorm* _ ∧ _ <;> decide +kernel

theorem witness_queue_reads :
    (r0.queue 255).words = [] ∧ oneWordQueue 255 = false ∧ oneWordQueue 99 = true ∧ (r0.queue 99).stalled = false ∧
    (let s := queued 255 ⟨[(1, false), (2, true)], false, false, none, []⟩
     (s.queue 255).words = (1, false) :: [(2, true)] ∧ (s.queue 255).heldBack = []) ∧
    (∀ x ∈ ((queued 255 ⟨[(1, false)], false, false, none, []⟩).queue 255).words, x.2 = false) ∧
    (let s := queued 0 ⟨(1, true) :: List.replicate 2047 (1, true), false, false, none, [[(3, true)]]⟩
     (s.queue 0).heldBack = [[(3, true)]] ∧ (s.queue 0).words = (1, true) :: List.replicate 2047 (1, true) ∧ 2047 + 1 ≤ queueDepth 0) := by
  constructorm* _ ∧ _ <;> decide +kernel

/-- All engines run message `m` for user 4. -/
def allEngaged (m : CipherMsg) : State :=
  r0.modKeys fun k => { k with engines := (List.range 64).map fun e => (e, ⟨4, some m, none, 255, false, false, false⟩) }

theorem witness_cipher_messages :
    (let r := someReq 200 0 true .hold
     let s := keyed 200 r0
     (takesFc r && s.slotUsable r.slot && !s.fcReady r.slot) = false ∧ s.ownedEngine r = none ∧ s.freeEngine none = some 0 ∧
       s.badDescriptor r = false ∧ s.slotUsable r.slot = true ∧ r0.badDescriptor (someReq 992 0 true .hold) = true ∧
       (r0.engine 0).releasing = false ∧ (r0.engine 0).running = none ∧ (r0.engine 0).seam = none) ∧
    (let r := someReq 200 0 true .hold
     let m := someMsg (someReq 200 2 false .hold)
     let s := keyed 200 (allEngaged m)
     s.freeEngine none = none ∧ s.ownedEngine r = none ∧ (s.victim r).isSome = true ∧ s.badDescriptor r = false ∧
       (s.engine 63).running = some m ∧ (allEngaged (someMsg r)).victim r = none ∧ (allEngaged (someMsg r)).freeEngine none = none ∧
       (someReq 200 3 true .hold).cls ≠ 0) ∧
    (let s := (engaged 63 (someMsg (someReq 200 2 false .hold)) r0)
     (s.engine 63).running = some (someMsg (someReq 200 2 false .hold)) ∧ s.keys.waiting = [] ∧ (s.engine 63).seam = none) ∧
    ((r0.modKeys fun k => { k with engines := [(63, ⟨4, some (someMsg (someReq 200 0 false .hold)),
        some (someMsg (someReq 200 2 false .releaseEarly)), 5, false, false, false⟩)] }).engine 63).seam =
      some (someMsg (someReq 200 2 false .releaseEarly)) := by
  constructorm* _ ∧ _ <;> decide +kernel

theorem witness_engine_lock :
    (r0.engine 63).owner = 255 ∧ (r0.engine 63).lockedOut = false ∧ (r0.engine 63).running = none ∧
    (let s := engaged 63 (someMsg (someReq 200 2 false .hold)) r0
     (s.engine 63).owner = 4 ∧ (s.engine 63).running.isSome = true ∧ (s.engine 63).seam = none ∧ s.keys.waiting = [] ∧
       s.rd (K.eng.FAULT_COUNT 63) < 2 ∧ 2 ≤ (s.wr (K.eng.FAULT_COUNT 63) 254).rd (K.eng.FAULT_COUNT 63) ∧
       (s.wr (K.eng.FAULT_COUNT 63) 254).rd (K.eng.FAULT_COUNT 63) < 255) ∧
    ((r0.modEngine 63 fun g => { g with owner := 4 }).engine 63).owner = 4 ∧
    ((r0.modEngine 63 fun g => { g with owner := 4 }).engine 63).running = none ∧ 3 ≤ admin.levelOf .can := by
  constructorm* _ ∧ _ <;> decide +kernel

/-- Unit `u` is set for a CRC of 4 bytes from the scratch window. -/
def crcUnit (u mode : Nat) : State :=
  sets [(K.cu.MODE u, mode), (K.cu.WIDTH u, 16), (K.cu.POLY u, 0x1021), (K.cu.INIT u, 0), (K.cu.XOR_OUT u, 0), (K.cu.START u, 0x02FF0000), (K.cu.LENGTH u, 4)] r0

theorem witness_check_units :
    (pathHost .can = true ∧ 6 ≤ 7) ∧ r0.MayAccess .can 2 ∧ (crcUnit 5 0).cuBusy 5 = false ∧
    ((crcUnit 5 0).cuConfig 5).outOfRange 5 = false ∧ ((sets [(K.cu.POLY 5, 0x10000)] (crcUnit 5 0)).cuConfig 5).outOfRange 5 = true ∧
    (let r : CuRun := ⟨true, 64, 1, 0, 0, false, false, true, 0, 0xFFFFFFF7, false, 0⟩
     let s := r0.modSvc fun v => { v with runs := [(7, r)] }
     Tbl.at? s.svc.runs 7 = some r ∧ s.queue (240 + 7) = HwQueue.empty ∧ r.width ≤ 64 ∧ r.start + r.len + 8 < 2 ^ 32 ∧ s.cuBusy 7 = true) ∧
    (crcUnit 5 0).scanned 5 0x02FF0000 = true ∧ some (0x02FF0000, Ecc.uncorrectable) = some (0x02FF0000, .uncorrectable) ∧
    (let r : CuRun := ⟨false, 16, 0x1021, 0, 0, false, false, true, 0x02FF0000, 4, false, 0⟩
     Tbl.at? (r0.modSvc fun v => { v with runs := [(7, r)] }).svc.runs 7 = some r) := by
  unfold State.MayAccess
  constructorm* _ ∧ _ <;> decide +kernel

theorem witness_scratch :
    r0.MayAccess .can 2 ∧ (65536 < (sets [(K.scratch.SCRATCH_OFFSET, 65535)] r0).rd K.scratch.SCRATCH_OFFSET + 2) ∧
    (sets [(K.scratch.SCRATCH_OFFSET, 65535)] r0).rd K.scratch.SCRATCH_OFFSET + 1 ≤ 65536 ∧ r0.svc.runs = [] ∧
    (r0.modSvc fun v => { v with runs := [(0, ⟨true, 16, 0, 0, 0, false, false, false, 0x02FF0000, 4, false, 0⟩)] }).scratchBusy
      (0x02FF0000 + 3) (0x02FF0000 + 4) = true := by
  unfold State.MayAccess; constructorm* _ ∧ _ <;> decide +kernel

/-- One flash operation waits. -/
def flashing (op : FlashOp) (s : State) : State := s.modFlash fun f => { f with ops := [op] }

theorem witness_flash_writes :
    r0.bh.unreserved = [] ∧ r0.flash.ops = [] ∧ (flashing (.image 8191 [[1]]) r0).flash.ops = .image 8191 [[1]] :: [] ∧
    (flashing (.admission [⟨1, [1]⟩]) (r0.modKeys fun k => { k with vaultLocked := true })).keys.vaultLocked = true ∧
    (FlashOp.admission [⟨1, [1]⟩]).isLedger = true ∧
    (let s := flashing (.store 1 ⟨true, 1, 0, []⟩) r0
     s.flash.ops = [.store 1 ⟨true, 1, 0, []⟩] ∧ s.mgmt.owed = []) ∧
    (let s := (flashing (.store 1 ⟨true, 1, 0, []⟩) r0).modMgmt fun m => { m with owed := [(.flash, .bare)] }
     s.flash.ops = [.store 1 ⟨true, 1, 0, []⟩] ∧ s.mgmt.owed = (.flash, .bare) :: []) ∧
    (flashing .restoreMark r0).flash.ops = [.restoreMark] ∧ (flashing (.journal [] false) r0).erasedLedger = some 0 ∧
    (flashing (.reservation ⟨1023, 1048576, 0⟩) r0).rd (K.key.FINGERPRINT 1023) = 0 ∧ r0.keys.waiting = [] ∧
    r0.keys.vaultLocked = false ∧ r0.keys.ledgerOn = false ∧ r0.snapshotDue = false ∧ r0.snapshotting = false ∧
    (r0.modKeys fun k => { k with ledgerOn := true }).keys.ledgerOn = true := by
  constructorm* _ ∧ _ <;> decide +kernel

theorem witness_images :
    admin.MayAccess .can 3 ∧ headSecurity admin.runningHead = 0 ∧ headRoot admin.runningHead = 0 ∧
    (let d := leBytes 1 1 ++ leBytes 3 0 ++ leBytes 4 0xFFF000 ++ List.replicate 4096 (0 : Byte)
     headField d 0 1 = 1 ∧ headField d 4 4 % 4096 = 0 ∧ headField d 4 4 + 4096 * 1 ≤ 0x1000000) ∧ admin.rd K.bootp.BOOT_SLOT = 0 := by
  unfold State.MayAccess; constructorm* _ ∧ _ <;> decide +kernel

theorem witness_recovery_and_store :
    (inPhase .recovery).sys.phase = .recovery ∧ 2 ≤ (inPhase .recovery).levelOf .can ∧ 2 ≤ (inPhase .recovery).levelOf .spi ∧
    (inPhase .recovery).sys.resetDue = none ∧ admin.MayAccess .can 3 ∧ Path.udp 1 ≠ .can ∧ Path.udp 1 ≠ .spi ∧
    (0x65766172 ≠ 0x65766173 ∧ 0x64616F6D ≠ 0x64616F6C) ∧ (∀ p ∈ admin.flash.storesAfter, p.2.seq < 2 ^ 32 - 1) := by
  unfold State.MayAccess; constructorm* _ ∧ _ <;> decide +kernel

/-- Mains unit `u` with another condition. -/
def unit (u : Nat) (f : MainsUnit → MainsUnit) : State := r0.modUnit u f

theorem witness_mains_configuration :
    ((unit 63 fun m => { m with busy := true }).unit 63).busy = true ∧ (r0.unit 63).busy = false ∧ 2 ≤ r0.levelOf .can ∧
    (sets [(K.mc.PAIRED 62, 1)] r0).partnerOf 63 = true ∧ r0.partnerOf 63 = false ∧
    (4, K.mc.INPUT_SEL 63) ∈ [(1, K.mc.MODE 63), (2, K.mc.PATH 63), (3, K.mc.ACQ 63), (4, K.mc.INPUT_SEL 63)] ∧
    (r0.rd (K.mc.MODE 63) ≤ 2 ∧ r0.rd (K.mc.PATH 63) ≤ 1 ∧ r0.rd (K.mc.ACQ 63) ≤ 1) ∧ modeGood 1 0 1 = false ∧ modeGood 2 0 0 = true ∧
    (sets [(K.mc.PAIRED 62, 1)] r0).flag (K.mc.PAIRED 62) = true ∧ r0.rd (K.mc.INPUT_SEL 63) ≠ 15 ∧
    (r0.mainsCfg 63).userStage = (r0.unit 63).cfg.userStage ∧
    ((sets [(K.mc.USER_STAGE 7, 1)] r0).mainsCfg 7).userStage ≠ ((sets [(K.mc.USER_STAGE 7, 1)] r0).unit 7).cfg.userStage := by
  constructorm* _ ∧ _ <;> decide +kernel

theorem witness_triggers :
    1 ≤ r0.levelOf .can ∧ (r0.unit 63).cfg.grouped = false ∧ (r0.unit 63).triggered = false ∧
    (let s := unit 63 fun m => { m with cfg := { m.cfg with mode := 2, acq := 1 } }
     (s.unit 63).triggered = true ∧ (s.unit 63).busy = false) ∧
    (let s := unit 63 fun m => { m with cfg := { m.cfg with mode := 2, acq := 1 }, busy := true }
     (s.unit 63).triggered = true ∧ (s.unit 63).busy = true ∧ (s.unit 63).pending = none ∧ (s.unit 63).edge = nextEdge s.now ∧
       (s.unit 63).edge ≠ nextEdge 1) ∧
    ((unit 7 fun m => { m with cfg := { m.cfg with grouped := true } }).unit 7).cfg.grouped = true ∧
    (let s := unit 63 fun m => { m with cfg := { m.cfg with source := 1, param := 20 } }
     (s.unit 63).cfg.source = 1 ∧ 20 ≤ (s.unit 63).cfg.param ∧ (s.unit 63).lastSched = none ∧
       s.skipped (s.tickOf (dtOfPair (s.unit 63).cfg.sched + 1 * (s.unit 63).cfg.param * dtSecond / 1000000)) = false) ∧
    ((unit 63 fun m => { m with lastSched := some 4 }).unit 63).lastSched = some 4 ∧
    (let s := unit 63 fun m => { m with cfg := { m.cfg with source := 2, param := 2 * 65536 } }
     (s.unit 63).cfg.source = 2 ∧ field (s.unit 63).cfg.param 16 8 = 2) ∧
    ((unit 63 fun m => { m with cfg := { m.cfg with source := 3 } }).subscribers 3 (fun _ => true) = [.unit 63]) ∧
    ((unit 63 fun m => { m with cfg := { m.cfg with source := 5 } }).subscribers 5 (fun p => bitOf p 0 != true) = [.unit 63]) ∧
    r0.subscribers 5 (fun p => bitOf p 0 != true) = [] := by
  constructorm* _ ∧ _ <;> decide +kernel

/-- Two grouped units, `u` busy since `edge`. -/
def grouped (busy : Bool) (pend : Option Nat) : State :=
  ((r0.modUnit 0 fun m => { m with cfg := { m.cfg with grouped := true, path := 1, acq := 1 }, busy := busy, edge := 32 }).modUnit 7 fun m =>
    { m with cfg := { m.cfg with grouped := true, path := 1, acq := 1 } }).modMains fun m => { m with groupPending := pend }

theorem witness_group_trigger :
    r0.MayAccess .can 1 ∧ r0.groupMembers = [] ∧ (grouped false none).groupMembers = [0, 7] ∧
    (∀ u ∈ (grouped false none).groupMembers, ((grouped false none).unit u).busy = false) ∧
    (∃ u ∈ (grouped true none).groupMembers, ((grouped true none).unit u).busy = true) ∧ (grouped true none).mains.groupPending = none ∧
    (∃ u ∈ (grouped true none).groupMembers, ((grouped true none).unit u).edge ≠ nextEdge (grouped true none).now ∨
      ((grouped true none).unit u).pended = true) ∧ (grouped true (some 3)).mains.groupPending.isSome = true := by
  unfold State.MayAccess; constructorm* _ ∧ _ <;> decide +kernel

/-- Unit `u` in its waveform path, its filters full and settled. -/
def settled (u : Nat) (f : MainsUnit → MainsUnit) : State :=
  unit u fun m => f { m with
    cfg := { m.cfg with mode := 1, path := 0, thSources := (2, 2) }
    chain := 68, combs := [1000, 2000, 3000, 4000], compHist := List.replicate 64 70000, userWait := 0, settledAt := some 0 }

theorem witness_mains_results :
    (∀ p ∈ r0.mains.units, p.2.words = []) ∧ ((r0.unit 63).cfg.mode ≠ 1 ∨ (r0.unit 63).cfg.path ≠ 0) ∧
    (let s := unit 62 fun m => { m with cfg := { m.cfg with mode := 2, avg := 1 } }
     62 % 2 = 0 ∧ (s.unit 62).cfg.mode = 2 ∧ (s.unit 62).cfg.acq ≠ 1 ∧ (s.unit 62).summed + 1 < 2 ^ (s.unit 62).cfg.avg) ∧
    (let s := unit 62 fun m => { m with cfg := { m.cfg with mode := 2, acq := 1, thSources := (2, 2) }, busy := true, trigTick := 7 }
     (s.unit 62).busy = true ∧ 2 ^ (s.unit 62).cfg.avg ≤ (s.unit 62).summed + 1 ∧ (s.unit 62).cfg.grouped = false ∧
       (s.unit 62).pending = none ∧ s.coreUp 0 = true ∧ s.queueFull (112 + 62) = false) ∧
    (let s := unit 62 fun m => { m with cfg := { m.cfg with mode := 2, paired := true } }
     9 ≤ 63 ∧ 63 % 2 = 1 ∧ (s.unit (63 - 1)).cfg.paired = true ∧ (s.unit (63 - 1)).cfg.mode = 2) ∧
    (let s := unit 7 fun m => { m with cfg := { m.cfg with path := 1, thSources := (2, 2) } }
     (s.unit 7).cfg.mode = 1 ∧ (s.unit 7).cfg.path = 1 ∧ (s.unit 7).cfg.acq ≠ 1 ∧ (s.unit 7).lastWin = none ∧ (s.unit 7).startAt ≤ s.windowStart 7 3) ∧
    (let s := unit 7 fun m => { m with cfg := { m.cfg with path := 1, thSources := (2, 2) }, startAt := 10 ^ 9, lastWin := some 2 }
     (s.unit 7).lastWin = some 2 ∧ s.windowStart 7 3 < (s.unit 7).startAt) ∧
    (let s := unit 7 fun m => { m with cfg := { m.cfg with path := 1, acq := 1, thSources := (2, 2) }, busy := true, winEnd := 64 }
     (s.unit 7).cfg.acq = 1 ∧ (s.unit 7).busy = true) ∧
    ((unit 62 fun m => { m with cfg := { m.cfg with acq := 1 } }).unit 62).cfg.acq = 1 := by
  constructorm* _ ∧ _ <;> decide +kernel

theorem witness_dumps :
    (∃ m, OneDump 7 41 3000 m none (settled 7 id)) ∧ (∃ m x, OneDump 7 40 3000 m (some x) (settled 7 id)) ∧
    ((settled 7 id).unit 7).cfg.thSources.1 ≠ 0 ∧ ((settled 7 id).unit 7).cfg.thSources.2 ≠ 0 ∧
    (settled 7 id).coreUp 0 = true ∧ (settled 7 id).queueFull (112 + 7) = false ∧
    (let s := (settled 7 id).modSys fun x => { x with halted := [(0, ⟨3, 5⟩)] }
     s.coreUp 0 = false ∧ (s.queue (112 + 7)).words.length < 256 ∧ (s.queue (112 + 7)).dropping = false ∧ (s.queue (112 + 7)).stalled = false) ∧
    ((settled 7 fun m => { m with wave := [(400000, 5), (300000, 900)] }).unit 7).cfg.mode = 1 := by
  refine ⟨⟨_, by decide +kernel, by decide +kernel, by decide +kernel, by decide +kernel, by decide +kernel, rfl⟩,
    ⟨_, _, by decide +kernel, by decide +kernel, by decide +kernel, by decide +kernel, by decide +kernel, rfl⟩, ?_⟩
  constructorm* _ ∧ _ <;> decide +kernel

/-- A unit in its waveform path that takes words of its breakwater. -/
def waitingUnit (k w : Nat) : MainsUnit :=
  { MainsUnit.reset 7 with chain := 68, combs := [1, 2, 3, 4], nextDump := k + 1, words := [(k, w)] }

theorem witness_latch_order :
    (let s := r0.modMains fun m => { m with units := [(6, waitingUnit 40 5), (7, waitingUnit 40 9)] }
     s.mains.units = [(6, waitingUnit 40 5), (7, waitingUnit 40 9)] ∧ dumpTick 6 40 ≤ dumpTick 7 40) ∧
    ((waitingUnit 40 5).takeWord 40 5 (dumpTick 6 40)).2.isSome = true ∧
    (let s := r0.modMains fun m => { m with units := [(6, waitingUnit 44 5), (7, waitingUnit 40 9)] }
     s.mains.units = [(6, waitingUnit 44 5), (7, waitingUnit 40 9)] ∧ dumpTick 7 40 < dumpTick 6 44) := by
  refine ⟨by decide +kernel, rfl, by decide +kernel⟩

/-- Unit 7, settled, with thresholds on its waveform samples and on its phasor. -/
def crossingUnit (valid above : Bool) (alarms : Nat) (level : Int) : State :=
  settled 7 fun m => { m with
    cfg := { m.cfg with thSources := (0, 1), levels := (level, level), thAlarms := (alarms, 0) }
    ths := ({ m.ths.1 with valid := valid, above := above }, m.ths.2) }

theorem witness_thresholds :
    (let s := crossingUnit false false 1 100
     (s.unit 7).cfg.mode = 1 ∧ (s.unit 7).cfg.path = 0 ∧ (s.unit 7).cfg.thSources = (0, 1) ∧ (s.unit 7).ths.1.valid = false ∧
       (s.unit 7).ths.2.valid = false ∧ (s.unit 7).settledAt = some 0 ∧ (((0 * 2 ^ 16 : Nat) : Int)) ≤ s.zeroAt 3 ∧ (s.unit 7).cfg.userStage = 0) ∧
    (let s := crossingUnit true false 1 (-100)
     (s.unit 7).ths.1.valid = true ∧ (s.unit 7).ths.1.above = false ∧ s.subscribers 4 (crossingNamed 7 0 false) = [] ∧
       bitOf (s.unit 7).cfg.thAlarms.1 0 = true ∧ (s.unit 7).holdUntil = none ∧ s.queueFull 254 = false ∧ (s.queue 254).dropping = false) ∧
    bitOf ((crossingUnit true false 0 (-100)).unit 7).cfg.thAlarms.1 0 = false ∧
    ((crossingUnit true true 1 (-100)).unit 7).ths.1.above = true ∧ ((crossingUnit true true 1 10000000).unit 7).ths.1.above = true ∧
    ((unit 7 fun m => { m with holdUntil := some 5 }).unit 7).holdUntil = some 5 ∧
    ((unit 7 fun m => { m with holdUntil := some 5, heldAlarm := some ⟨7, 0, false, 0, 1, 1, 1, 1⟩ }).unit 7).heldAlarm =
      some ⟨7, 0, false, 0, 1, 1, 1, 1⟩ ∧ r0.MayAccess .can 1 := by
  unfold State.MayAccess; constructorm* _ ∧ _ <;> decide +kernel

/-- Unit 7, settled on words that stand still, with an empty history and threshold 0 on its waveform samples. -/
def dumped : State :=
  settled 7 fun m => { m with combs := List.replicate 4 3000, compHist := [], cfg := { m.cfg with thSources := (0, 1) } }

/-- Its word 40 taken. -/
def dumpTaken : MainsUnit × Option (Int × Nat) :=
  ({ dumped.unit 7 with nextDump := 41, words := [(40, 3000)] } : MainsUnit).takeWord 40 3000 327680

/-- A word equal to the four before it gives a sample of zero whatever the coefficients. -/
theorem quiet_word (m : MainsUnit) (k w tick : Nat) (hc : combOut w m.combs = (0, false)) (hh : m.compHist = []) (hs : m.satNew = 0)
    (hn : m.chain = 68) (hk : k % 4 = 0) (ht : ¬ tick < m.startAt) : (m.takeWord k w tick).2 = some (0, 0) := by
  have h : compCoefs = compCoef 0 :: compCoefs.tail := rfl
  have hf : finish 22 (0, 0) = (0, 0) := by decide
  simp only [MainsUnit.takeWord, hc, hh, hs, hn, hk, ht]
  rw [h]
  simpa [mac, sat48, clampInt, boolNat] using hf

theorem witness_crossing_dump : OneDump 7 40 3000 dumpTaken.1 (some (0, 0)) dumped ∧ dumpTaken.1.chain = 68 :=
  ⟨⟨by decide +kernel, by decide +kernel, by decide +kernel, by decide +kernel, by decide +kernel,
    Prod.ext rfl (quiet_word _ 40 3000 327680 (by decide +kernel) rfl rfl rfl rfl (by decide +kernel))⟩, by decide +kernel⟩

/-- The tracker in state `n` with two phasors of one period between, the crossing `a` parts of 2^-32 from the phase held. -/
def tracking (n valid invalid residual : Nat) (mag : Nat) (a slew : Int) (step : Option (Int × Nat)) : State :=
  (sets [(K.trks.TRACKER_STATE, n)] r0).modTracker fun t =>
    { t with
      valid := valid, lastPeriod := nominalPeriod 50, invalid := invalid, residual := residual, slew := slew, step := step
      phasor := some ⟨mag, false, a - 2 ^ 30, nominalPeriod 50⟩, prior := some ⟨mag, false, a - 2 ^ 30, 0⟩ }

theorem witness_tracker :
    (r0.cycleMeasured = none ∧ r0.trkState = 0) ∧
    (let s := tracking 1 7 0 0 0 0 0 none
     s.cycleMeasured = some (nominalPeriod 50, nominalPeriod 50) ∧ s.cycleValid (nominalPeriod 50) = false ∧ s.trkState = 1) ∧
    (let s := tracking 2 0 1 0 0 0 0 none
     s.cycleValid (nominalPeriod 50) = false ∧ s.trkState = 2 ∧ 1 ≤ s.tracker.invalid) ∧
    (tracking 2 0 0 0 0 0 0 none).tracker.invalid = 0 ∧
    (let s := tracking 1 7 0 0 0xFFFFFFFF 0 0 none
     s.cycleValid (nominalPeriod 50) = true ∧ periodsClose (nominalPeriod 50) s.tracker.lastPeriod = true ∧ 7 ≤ s.tracker.valid) ∧
    (tracking 1 7 0 0 0xFFFFFFFF (2 ^ 29) 0 none).trkState = 1 ∧ (tracking 1 6 0 0 0xFFFFFFFF 0 0 none).tracker.valid < 7 ∧
    (let s := tracking 2 0 0 0 0xFFFFFFFF 0 0 (some (9, 1))
     s.tracker.step = some (9, 1) ∧ s.trkState = 2 ∧ s.pending = []) ∧
    (let s := { tracking 2 0 0 0 0xFFFFFFFF 0 0 (some (2 ^ 28, 1)) with now := 8192000 }
     s.phaseTick ((1 : Nat) : Int) 0 ≤ s.now + 1) ∧
    ((tracking 2 0 0 0 0xFFFFFFFF 0 (2 ^ 20) none).tracker.slew ≠ 0) ∧
    (let s := tracking 2 0 0 2 0xFFFFFFFF 0 0 none
     |(s.reanchor (nominalPeriod 50)).phaseError (nominalPeriod 50)| ≤ tenthDeg 50) ∧
    (let s := tracking 2 0 0 2 0xFFFFFFFF (2 ^ 29) 0 none
     s.tracker.residual < 3 ∧ s.trkState = 2 ∧
       (match s.cycleMeasured with
        | some (_, c) => decide (tenthDeg 50 < |(s.reanchor c).phaseError c|)
        | none => false) = true) ∧
    3 ≤ (tracking 2 0 0 3 0xFFFFFFFF (2 ^ 29) 0 none).tracker.residual ∧ r0.MayAccess .can 2 := by
  unfold State.MayAccess; constructorm* _ ∧ _ <;> decide +kernel

/-- Slot 23 of channel 255 with windows in the running cycle. -/
def tided (n : Nat) (obs missed : Nat) : State :=
  (r0.modTide 255 23 fun t => { t with obs := obs, missed := missed, power := 800, rate := 9, cls := 0 }).modTideTable 255 fun t =>
    { t with
      windows := ((List.range n).map fun k => (7900000 + 50000 * k, 1000 * (k + 1)))
      blocks := [⟨7900128, 24, 4000, 900000⟩, ⟨7900000, 24, 10, 3000⟩] }

theorem witness_tide_slots :
    r0.windowPlace 255 42666 = true ∧ r0.windowPlace 255 42667 = false ∧ (r0.passTo (42666 + 8192)).observes 255 42666 = true ∧
    ((off 255).passTo (42666 + 8192)).observes 255 42666 = false ∧ (r0.chan 255).gainFrom + 128 ≤ 42666 ∧
    (∀ w ∈ (r0.tideTable 255).windows, w.1 ≠ 42666) ∧ r0.tracker.step = none ∧
    r0.masked 255 44 = false ∧ (44, ((3, 4) : Int × Int)) ∈ bandCarriers.zip (List.replicate 9 (3, 4)) ∧
    (let s := tided 4 1 0
     s.slotEnd 255 23 = 8192000 ∧ s.slotTick (s.tideOffset 255) (s.slotCount (s.tideOffset 255) 8192000 - 1) = 7850667 ∧
       4 ≤ (((s.tideTable 255).windows.filter fun w => 7850667 ≤ w.1 && w.1 < 8192000).map (·.2)).length ∧ (s.tide 255 23).obs ≠ 0) ∧
    ((tided 4 0 0).tide 255 23).obs = 0 ∧ ((tided 3 3 255).tide 255 23).missed + 1 = 256 ∧ (tided 3 3 255).staleCycles 255 = 256 ∧
    ((tided 3 3 255).modTide 255 23 fun t => { t with stale := true }).enabled 255 = true ∧ r0.coreUp 7 = true := by
  constructorm* _ ∧ _ <;> decide +kernel

/-- A time source is selected. -/
def source (n : Nat) (f : TimeState → TimeState) : State := (sets [(K.time.TIME_SOURCE, n)] r0).modTime f

theorem witness_time_sources :
    (source 3 id).MayAccess .can 2 ∧ (source 3 id).rd K.time.TIME_SOURCE = 3 ∧ (source 2 id).rd K.time.TIME_SOURCE = 2 ∧
    (source 2 id).MayAccess .can 2 ∧ (source 0 id).rd K.time.TIME_SOURCE ≠ 2 ∧
    (let s := { source 3 (fun t => { t with ppsLast := some 0 }) with now := 409190400 }
     s.time.ppsLast = some 0 ∧ 409600000 ≤ s.now - 0 + 409600 ∧ s.now - 0 ≤ 409600000 + 409600) ∧
    (let s := { sets [(K.times.PPS_VALID, 1)] (source 3 (fun t => { t with ppsLast := some 0 })) with now := 410009601 }
     409600000 + 409600 < s.now - 0 ∧ s.flag K.times.PPS_VALID = true) ∧
    (let s := source 2 (fun t => { t with nextPps := some 7 })
     s.time.nextPps = some 7 ∧ s.time.ppsLast = none) ∧
    (let s := { sets [(K.times.PPS_VALID, 1), (K.times.DT_STATE, 1)] (source 2 (fun t => { t with ppsLast := some 0 })) with now := 409600000 }
     s.dtState = 1 ∧ s.time.ppsLast = some (s.now - 409600000) ∧ 409600000 ≤ s.now ∧
       |(s.dt : Int) - tenthNsToUnits (s.rd K.time.PPS_IN_DELAY) -
         ((nearestSecond ((s.dt : Int) - tenthNsToUnits (s.rd K.time.PPS_IN_DELAY)).toNat * dtSecond : Nat) : Int)| ≤
       tenthNsToUnits (10000 * s.rd K.time.STEP_LIMIT)) := by
  unfold State.MayAccess; constructorm* _ ∧ _ <;> decide +kernel

theorem witness_time_losses :
    r0.time.ppsLast = none ∧ (source 2 (fun t => { t with ppsLast := some 5 })).flag K.times.PPS_VALID = false ∧ r0.time.lastSync = none ∧
    (let s := sets [(K.times.PPS_VALID, 1), (K.times.DT_STATE, 1)] (source 2 (fun t => { t with ppsLast := some 5, lastSync := some 3 }))
     s.flag K.times.PPS_VALID = true ∧ s.rd K.time.TIME_SOURCE = 2 ∧ s.dtState = 1 ∧ s.sourceGone = false) ∧
    (let s := sets [(K.times.DT_STATE, 1)] (source 0 (fun t => { t with lastSync := some 3 }))
     s.time.lastSync = some 3 ∧ s.rd K.time.TIME_SOURCE = 0 ∧ s.dtState = 1 ∧ s.sourceGone = true) ∧
    (source 3 (fun t => { t with lastAnnounce := some 3 })).time.lastAnnounce = some 3 ∧
    (source 3 (fun t => { t with coastStart := some 3 })).time.coastStart = some 3 ∧ r0.time.coastStart = none := by
  constructorm* _ ∧ _ <;> decide +kernel

theorem witness_pps_out :
    r0.pins.ppsOut = false ∧ (sets [(K.time.PPS_OUT_MODE, 2)] r0).rd K.time.PPS_OUT_MODE = 2 ∧
    ((sets [(K.time.PPS_OUT_MODE, 1)] r0).rd K.time.PPS_OUT_MODE = 1 ∧ (sets [(K.time.PPS_OUT_MODE, 1)] r0).synchronised = false) ∧
    (let s := sets [(K.time.PPS_OUT_MODE, 1), (K.times.DT_STATE, 1)] r0
     s.rd K.time.PPS_OUT_MODE = 1 ∧ s.synchronised = true) ∧
    (r0.modPins fun p => { p with ppsOut := true }).pins.ppsOut = true ∧
    (r0.modTime fun t => { t with ppsOutFall := some 9 }).time.ppsOutFall = some 9 := by
  constructorm* _ ∧ _ <;> decide +kernel

theorem witness_counters_and_dumps :
    2 ≤ r0.levelOf .can ∧ lastCode 11 < 255 % 256 ∧ 0 % 256 ≤ lastCode 11 ∧ (sets [(K.perf.DUMP_ENABLE, 0)] r0).flag K.perf.DUMP_ENABLE = false ∧
    (sets [(K.perf.DUMP_ENABLE, 1)] r0).flag K.perf.DUMP_ENABLE = true ∧ 0 < r0.rd K.perf.DUMP_PERIOD ∧ r0.perf.writing = none ∧
    (r0.modPerf fun p => { p with writing := some [1] }).perf.writing = some [1] ∧ r0.queue 250 = HwQueue.empty ∧
    (3, K.samp.SAMPLE_N) ∈ [(2, K.samp.SAMPLE_SOURCE), (3, K.samp.SAMPLE_N)] ∧ r0.rd K.samp.SAMPLE_N ≠ 65535 ∧
    r0.rd K.samp.SAMPLE_SOURCE ≠ 0 ∧ (r0.segOf 255 = none ∧ (off 255).enabled 255 = false ∧ r0.enabled 255 = true) ∧
    (r0.modLoop fun l => { l with running := some (255, -24) }).loop.running = some (255, -24) ∧ r0.loop.running = none ∧
    (7, K.chs.TX_UNDERRUN 255) ∈ [(5, K.chs.RX_OVERFLOW 255), (7, K.chs.TX_UNDERRUN 255)] := by
  constructorm* _ ∧ _ <;> decide +kernel

/-- The TAP in a given state. -/
def tapped (x : TapState) (i : TapInstr) (tck : Bool) : State := r0.modJtag fun j => { j with tap := x, instr := i, ir := [true, true], dr := [true], tck := tck }

theorem witness_tap :
    r0.jtag.tck = false ∧ (r0.modPins fun p => { p with trstN := true }).pins.trstN = true ∧ r0.pins.trstN = false ∧
    (tapped .shiftDr .bypass false).jtag.tap = .shiftDr ∧ (tapped .captureDr .extest false).jtag.instr = .extest ∧
    (tapped .updateIr .idcode true).jtag.ir.all id = true ∧ (tapped .updateIr .idcode true).jtag.tck = true := by
  constructorm* _ ∧ _ <;> decide +kernel

/-- The configuration of a port with its link up. -/
def someCfg : PortCfg := ⟨0x020000000003, 4, 0, 64, [10, 0, 0, 1], 24, [10, 0, 0, 254], 1500, 7, 8, 9, [239, 0, 0, 1]⟩

/-- Backhaul port `p` with its link up. -/
def linked (p : Nat) (f : Port → Port) (s : State) : State :=
  ((sets [(K.ports.LINK_UP p, 1)] s).modBh fun b => { b with laneMode := 3 }).modPort p fun q => f { q with cfg := some someCfg }

/-- A frame that port 3 takes. -/
def ethFrame (fcs full : Bool) (len dst port : Nat) : EthFrame := ⟨fcs, len, dst, [], false, true, false, false, true, port, .good, full⟩

/-- A northbound message of session 15. -/
def outMsg : OutMsg := .northbound 15 0 1 [1] [2]

theorem witness_backhaul :
    (r0.portCount ≤ 3 ∧ r0.linkUp 3 = false) ∧ (3 < (r0.modBh fun b => { b with laneMode := 3 }).portCount) ∧ (linked 3 id r0).linkUp 3 = true ∧
    (r0.port 3).sending = none ∧ (r0.port 3).cfg = none ∧
    (let s := linked 3 (fun q => { q with sending := some ⟨8, .echoReply⟩ }) r0
     (s.port 3).sending = some ⟨8, .echoReply⟩ ∧ (s.port 3).txq = []) ∧
    (let s := linked 3 (fun q => { q with sending := some ⟨8, .echoReply⟩, txq := [⟨8, .echoReply⟩] }) r0
     (s.port 3).txq = ⟨8, .echoReply⟩ :: []) ∧
    (let s := linked 3 (fun q => { q with sending := some ⟨8, .echoReply⟩, txq := [⟨1, outMsg⟩] }) (sets [(K.sess.SESS_ENABLE 15, 1)] r0)
     (s.port 3).txq = ⟨1, outMsg⟩ :: [] ∧ s.flag (K.sess.SESS_ENABLE 15) = true) ∧
    (let s := linked 3 id r0
     let c := someCfg
     (s.port 3).cfg = some c ∧ (ethFrame false false 64 0x020000000003 0).fcsOk = false ∧
       c.maxFrame < (ethFrame true false 1501 0x020000000003 0).len ∧ s.frameForUs 3 c (ethFrame true false 64 0x020000000004 0) = false ∧
       s.frameForUs 3 c (ethFrame true true 1500 0x020000000003 0) = true ∧ s.ipFiltered c (ethFrame true false 1500 0x020000000003 6) = true ∧
       s.ipFiltered c (ethFrame true false 1500 0x020000000003 7) = false ∧ s.queue (108 + 3) = HwQueue.empty) := by
  constructorm* _ ∧ _ <;> decide +kernel

/-- The header of a northbound datagram of session 7 under PKT_SEQ 1. -/
def dgHeader (version : Nat) : List Byte := beBytes 1 version ++ beBytes 1 0 ++ beBytes 2 7 ++ beBytes 4 0 ++ beBytes 8 1

/-- A northbound datagram for session 15 of port 3. -/
def nbData (payload : List Byte) : NbDatagram := ⟨3, List.replicate 16 0, 0, payload⟩

/-- Session 15 is open on port 3. -/
def sessioned : State := linked 3 id (sets [(K.sess.SESS_ENABLE 15, 1), (K.sess.SESS_PORT 15, 3), (K.sess.SESSION_ID 15, 7), (K.sess.PEER_UDP_PORT 15, 0), (K.sess.KEY_SLOT 15, 1023)] (keyed 1023 admin))

theorem witness_ports :
    (r0.port 3).cfg = none ∧ ((linked 3 id r0).port 3).cfg = some someCfg ∧ someCfg.ipVersion = 4 ∧ [10, 0, 0, 1] = someCfg.addr.take 4 ∧
    (let c := { someCfg with ipVersion := 6 }
     ((linked 3 (fun q => { q with cfg := some c }) r0).port 3).cfg = some c ∧ c.ipVersion = 6) ∧
    [10, 0, 0, 2] ≠ someCfg.addr.take 4 ∧ (r0.echoWindow 3).2 < 100 ∧
    100 ≤ ((r0.modPort 3 fun q => { q with echo := (0, 100) }).echoWindow 3).2 ∧ r0.linkUp 3 = false ∧ (linked 3 id r0).linkUp 3 = true ∧
    ((linked 3 id r0).port 3).txq = [] := by
  constructorm* _ ∧ _ <;> decide +kernel

theorem witness_datagrams :
    (let d := nbData (dgHeader 1 ++ List.replicate 28 1)
     let h := ofBe (d.payload.take 16)
     field h 120 8 = 1 ∧ bitOf h 119 = false ∧ 44 ≤ d.payload.length ∧ sessioned.sessionOf d.port (field h 96 16) = some 15 ∧
       r0.sessionOf d.port (field h 96 16) = none ∧ sessioned.peerMatches d.port 15 d.srcAddr d.srcUdp = true ∧
       sessioned.peerMatches d.port 15 d.srcAddr 1 = false ∧ sessioned.rd (K.sess.KEY_SLOT 15) = 1023 ∧ sessioned.slotUsable 1023 = true ∧
       (nbOpened d (sessioned.slot 1023).key).2 = false ∧ admin.slotUsable (admin.rd (K.sess.KEY_SLOT 15)) = false ∧
       (Tbl.atD sessioned.bh.windows 15 SeqWindow.empty).accepts (field h 0 64) = true ∧
       (Tbl.atD (sessioned.modBh fun b => { b with windows := [(15, ⟨some 1, [1]⟩)] }).bh.windows 15 SeqWindow.empty).accepts
         (field h 0 64) = false) ∧
    field (ofBe (dgHeader 2)) 120 8 ≠ 1 ∧ (nbData (dgHeader 1)).payload.length < 44 := by
  constructorm* _ ∧ _ <;> decide +kernel

theorem witness_datagram_opens :
    let d := nbData (dgHeader 1 ++ [177, 31, 22, 167, 194, 217, 12, 117, 144, 238, 81, 184, 41, 21, 148, 218, 11, 118, 121, 176, 123, 235, 68, 16, 164, 209, 245, 64])
    (nbOpened d (sessioned.slot 1023).key).2 = true ∧ 44 ≤ d.payload.length := by
  constructorm* _ ∧ _ <;> decide +kernel

theorem witness_session_writes :
    sessioned.MayAccess .can 3 ∧
    (let s := sets [(K.dom.DOMAIN_KEY_SLOT, 1023)] admin
     (3, 1023) ∈ [(3, s.rd K.dom.DOMAIN_KEY_SLOT), (3, s.rd K.adm.ADMIT_KEK_SLOT)]) ∧
    (sessioned.flag (K.sess.SESS_ENABLE 15) = true ∧ (sessioned.wr (K.sess.SESSION_ID 14) 7).rd (K.sess.SESSION_ID 14) = sessioned.rd (K.sess.SESSION_ID 15)) ∧
    admin.flag (K.sess.SESS_ENABLE 14) = false ∧ (7, K.sess.REPORTS 15) ∈ [(2, K.sess.SESS_PORT 15), (7, K.sess.REPORTS 15)] := by
  unfold State.MayAccess; constructorm* _ ∧ _ <;> decide +kernel

/-- A PTP message of the model's port identity. -/
def ptpMsg (kind : PtpKind) (dom : Nat) (best : Bool) : PtpMsg :=
  { kind := kind, domainNumber := dom, best := best, masterId := 5, logInterval := 0, requester := r0.flash.eui64 }

/-- The port in the middle of an exchange. -/
def exchanging (f : PtpClock → PtpClock) : State := r0.modTime fun t => { t with ptp := f t.ptp }

theorem witness_ptp :
    r0.rd K.time.PTP_PORT_SEL < 4 ∧ (ptpMsg .sync 9 true).domainNumber ≠ r0.rd K.time.PTP_DOMAIN_NUMBER ∧
    (ptpMsg .announce 0 true).domainNumber = r0.rd K.time.PTP_DOMAIN_NUMBER ∧ (ptpMsg .announce 0 true).masterId < 2 ^ 64 ∧
    r0.flag K.time.PTP_SLAVE_ONLY = true ∧ (sets [(K.time.PTP_SLAVE_ONLY, 0)] r0).flag K.time.PTP_SLAVE_ONLY = false ∧
    r0.time.master = false ∧ r0.time.ptp.delay = none ∧ (source 3 id).rd K.time.TIME_SOURCE = 3 ∧
    (r0.modTime fun t => { t with master := true }).time.master = true ∧ r0.rd K.time.PTP_DELAY_MECH = 0 ∧
    (sets [(K.time.PTP_DELAY_MECH, 1)] r0).rd K.time.PTP_DELAY_MECH = 1 ∧ (sets [(K.time.PTP_TWO_STEP, 0)] r0).flag K.time.PTP_TWO_STEP = false := by
  constructorm* _ ∧ _ <;> decide +kernel

theorem witness_ptp_exchange :
    (let s := exchanging fun p => { p with delay := some 7 }
     let m := { ptpMsg .sync 0 true with time := 10 ^ 12 }
     s.time.ptp.delay = some 7 ∧ s.rd K.time.TIME_SOURCE = 0 ∧ s.dtState = 0 ∧
       s.dtOf16 (rxStamp m.rx16 (s.rd K.time.EXT_DELAY_RX)) - ptpUnits (m.time + m.correction) -
         tenthNsToUnits (s.rdInt K.time.ASYMMETRY) - 7 ≤ s.dt) ∧
    (exchanging fun p => { p with sync := some (0, 3, 4) }).time.ptp.sync = some (0, 3, 4) ∧ (ptpMsg .followUp 0 true).seq = 0 ∧
    (let s := exchanging fun p => { p with req := some (0, 3), down := some (4, 5), resp := some (6, 7) }
     s.time.ptp.req = some (0, 3) ∧ s.time.ptp.down = some (4, 5) ∧ s.time.ptp.resp = some (6, 7) ∧
       (ptpMsg .delayResp 0 true).requester = s.flash.eui64 ∧ { ptpMsg .delayResp 0 true with requester := 1 }.requester ≠ s.flash.eui64) := by
  constructorm* _ ∧ _ <;> decide +kernel

/-- The device with CANID 5 and a transfer open on CAN FD. -/
def canned (x : Option Xfer) : State := (r0.modSys fun y => { y with canId := 5 }).modMgmt fun m => { m with canXfer := x }

/-- A transfer of the stack of 100 bytes. -/
def someXfer (write : Bool) (data : List Byte) : Xfer := ⟨write, 0x5100, 1, 100, data, 0, false, 900⟩

/-- The same device at level ADMIN while its random source is blocked. -/
def blocked : State := (sets [(K.can.CAN_LEVEL, 3)] (canned none)).modKeys fun k => { k with entropyFail := true }

theorem witness_sdo :
    (canned none).canOn = true ∧ 0x605 = 0x600 + (canned none).sys.canId % 128 ∧ 0x604 ≠ 0x605 ∧
    (let w (d : List Byte) := ((canned none).modMgmt fun m => { m with canXfer := none }).writeObject .can {} 0x3000 1 d
     (w [1]).abort = none ∧ (w [1]).later = none ∧ (w (List.replicate 59 1)).abort.isSome = true ∧ (w (List.replicate 59 1)).later = none) ∧
    ((blocked.modMgmt fun m => { m with canXfer := none }).writeObject .can {} 0x53FF 1 (List.replicate 32 0)).later = some .masks ∧
    (canned (some (someXfer true []))).mgmt.canXfer = some (someXfer true []) ∧ (someXfer true []).write = true ∧
    ((someXfer true []).total < (someXfer true (List.replicate 39 0)).data.length + 62 ∧
      (someXfer true (List.replicate 38 0)).data.length + 62 = (someXfer true []).total) ∧
    (someXfer false (List.replicate 100 0)).total = (someXfer false (List.replicate 100 0)).data.length ∧
    (let s := canned (some ⟨true, 0x3000, 1, 1, [], 0, false, 900⟩)
     ((s.modMgmt fun m => { m with canXfer := none }).writeObject .can {} 0x3000 1 ([] ++ [1])).abort = none ∧
       ((s.modMgmt fun m => { m with canXfer := none }).writeObject .can {} 0x3000 1 ([] ++ [1])).later = none) := by
  constructorm* _ ∧ _ <;> decide +kernel

theorem reads {x : (Abort ⊕ List Byte) × State} {p : Nat → Bool} (h : (match x.1 with
    | .inr b => p b.length
    | .inl _ => false) = true) : ∃ b w, x = (.inr b, w) ∧ p b.length = true := by
  obtain ⟨a | b, w⟩ := x
  · cases h
  · exact ⟨b, w, rfl, h⟩

theorem refuses {x : (Abort ⊕ List Byte) × State} (h : x.1.isLeft = true) : ∃ a w, x = (.inl a, w) := by
  obtain ⟨a | b, w⟩ := x
  · exact ⟨a, w, rfl⟩
  · cases h

theorem witness_sdo_reads :
    (∃ b w, ((canned none).modMgmt fun m => { m with canXfer := none }).readObject .can 0x1018 1 = (.inr b, w) ∧ decide (b.length ≤ 59) = true) ∧
    (∃ b w, ((canned none).modMgmt fun m => { m with canXfer := none }).readObject .can 0x403F 0x21 = (.inr b, w) ∧ decide (59 < b.length) = true) ∧
    (∃ a w, ((canned none).modMgmt fun m => { m with canXfer := none }).readObject .can 0xFFFF 0 = (.inl a, w)) ∧
    r0.canOn = false ∧ (canned none).pathUp .can = true ∧
    (let s := (canned none).modMgmt fun m => { m with busOff := true }
     s.mgmt.busOff = true ∧ s.answers .can = true ∧ s.sys.canId % 128 ≠ 0) :=
  ⟨reads (p := fun n => decide (n ≤ 59)) (by decide +kernel), reads (p := fun n => decide (59 < n)) (by decide +kernel), refuses (by decide +kernel),
    by decide +kernel, by decide +kernel, by decide +kernel⟩

/-- A mailbox with a record and its length. -/
def mailed (b : List Byte) : State := r0.modMgmt fun m => { m with mbxBusy := true, mbxLen := b.length, mailbox := mailPut [] 0 b }

/-- An access record. -/
def record (op idx sub len : Nat) (data : List Byte) : List Byte :=
  leBytes 1 op ++ leBytes 1 3 ++ leBytes 1 sub ++ leBytes 1 0 ++ leBytes 2 idx ++ leBytes 2 len ++ leBytes 4 0 ++
    leBytes 4 (if op = 2 then len else 0) ++ leBytes 4 0 ++ data

theorem witness_mailbox :
    r0.answers .spi = true ∧ r0.mgmt.mbxBusy = false ∧ (mailed (record 1 0x1018 1 4 [])).mgmt.mbxBusy = true ∧
    (let s := mailed (record 1 0x1018 1 4 [])
     let h := AccHead.read (s.mailBytes 0 20)
     s.mgmt.mbxLen = 20 ∧ s.mailOwed = false ∧ h.op = 1 ∧ h.first = true ∧ h.offset = 0 ∧ h.idx = 0x1018 ∧ h.sub = 1 ∧ h.len = 4) ∧
    (let s := mailed (record 2 0x3000 1 1 [1])
     let h := AccHead.read (s.mailBytes 0 20)
     s.mgmt.mbxLen = 20 + 1 ∧ s.mailOwed = false ∧ s.mailBytes 20 1 = [1] ∧ h.op = 2 ∧ h.first = true ∧ h.last = true ∧ h.offset = 0 ∧
       h.len = 1 ∧ h.total = 1 ∧ (s.writeObject .spi {} h.idx h.sub [1]).later = none) ∧
    ((sets [(K.can.SPI_LEVEL, 3)] blocked).writeObject .spi {} 0x53FF 1 (List.replicate 32 0)).later = some .masks ∧
    (r0.modMgmt fun m => { m with owed := [(.flash, .mailbox [])] }).mailOwed = true ∧
    (r0.modMgmt fun m => { m with mbxXfer := some (someXfer false []) }).mgmt.mbxXfer = some (someXfer false []) ∧
    (someXfer false []).write = false ∧ (someXfer true []).write = true ∧
    (canned (some (someXfer false []))).mgmt.canXfer = some (someXfer false []) ∧ Tbl.at? r0.mgmt.udpXfer 7 = none ∧
    (0x0020, r0.flash.eui64) ∈ [(0x0010, r0.now), (0x0018, dtPair r0.dt), (0x0020, r0.flash.eui64)] ∧ r0.mgmt.spiHold = none ∧
    (r0.modMgmt fun m => { m with spiHold := some (0x0020, 9) }).mgmt.spiHold = some (0x0020, 9) ∧ 0x0FFC % 4 = 0 ∧ 0x1FFC % 4 = 0 := by
  constructorm* _ ∧ _ <;> decide +kernel

theorem witness_mailbox_read :
    (∃ b w, (mailed (record 1 0x1018 1 4 [])).readObject .spi 0x1018 1 = (.inr b, w) ∧ decide (b.length ≤ (b.take (min 4 4076)).length) = true) ∧
    (∃ b w, (mailed (record 1 0x403F 0x21 4 [])).readObject .spi 0x403F 0x21 = (.inr b, w) ∧ decide (4 < b.length) = true) := by
  refine ⟨?_, reads (p := fun n => decide (4 < n)) (by decide +kernel)⟩
  obtain ⟨b, w, h, hb⟩ := reads (p := fun n => decide (n ≤ 4)) (x := (mailed (record 1 0x1018 1 4 [])).readObject .spi 0x1018 1) (by decide +kernel)
  exact ⟨b, w, h, by simp at hb ⊢; omega⟩

/-- A management datagram of principal 7 with SEQ 9. -/
def mgmtDatagram (version : Nat) (cmac : List Byte) : MgmtDatagram :=
  ⟨3, List.replicate 16 0, 7, leBytes 1 version ++ leBytes 1 0 ++ leBytes 1 7 ++ leBytes 1 0 ++ leBytes 8 9 ++ leBytes 4 0 ++ record 1 0x1018 1 4 [], cmac, false⟩

/-- The CMAC of that datagram under a key of sixteen ones. -/
def goodCmac : List Byte :=
  [253, 218, 208, 50, 108, 94, 95, 185, 44, 221, 232, 0, 63, 86, 252, 35]

/-- Principal 7 is enabled on port 3. -/
def managed (w : Tbl SeqWindow) (k : Tbl (List Kept)) : State :=
  (linked 3 id (sets [(K.mgmt.MGMT_ENABLE 7, 1), (K.mgmt.MGMT_KEY_SLOT 7, 1023)] (keyed 1023 r0))).modMgmt fun m => { m with windows := w, kept := k }

theorem witness_management :
    (let d := mgmtDatagram 1 goodCmac
     7 = field (ofLe (d.body.take 16)) 16 8 ∧ 9 = field (ofLe (d.body.take 16)) 32 64 ∧ field (ofLe (d.body.take 16)) 0 8 = 1 ∧
       bitOf (ofLe (d.body.take 16)) 8 = false ∧ 36 ≤ d.body.length ∧ recordFits (d.body.drop 16) = true ∧
       field (ofLe ((mgmtDatagram 2 []).body.take 16)) 0 8 ≠ 1 ∧ (AccHead.read (d.body.drop 16)).op = 1 ∧
       (AccHead.read (d.body.drop 16)).first = true ∧ (AccHead.read (d.body.drop 16)).offset = 0 ∧
       (AccHead.read (d.body.drop 16)).idx = 0x1018 ∧ (AccHead.read (d.body.drop 16)).sub = 1 ∧ d.bufferFull = false ∧
       { d with bufferFull := true }.bufferFull = true) ∧
    (let s := managed [] []
     1023 = s.rd (K.mgmt.MGMT_KEY_SLOT 7) ∧ s.flag (K.mgmt.MGMT_ENABLE 7) = true ∧ s.slotUsable 1023 = true ∧ s.coreUp 0 = true ∧
       (s.port 3).cfg.isSome = true ∧ (Tbl.atD s.mgmt.windows 7 SeqWindow.empty).accepts 9 = true) ∧
    (let s := managed [(7, ⟨some 9, [9]⟩)] []
     (Tbl.atD s.mgmt.windows 7 SeqWindow.empty).accepts 9 = false ∧ Tbl.atD s.mgmt.kept 7 [] = []) ∧
    (let s := managed [(7, ⟨some 9, [9]⟩)] [(7, [⟨9, goodCmac, [1]⟩])]
     Tbl.atD s.mgmt.kept 7 [] = ⟨9, goodCmac, [1]⟩ :: []) ∧ (linked 3 id r0).flag (K.mgmt.MGMT_ENABLE 7) = false := by
  constructorm* _ ∧ _ <;> decide +kernel

theorem witness_management_cmac :
    cmacOf ((managed [] []).slot 1023).key (mgmtDatagram 1 goodCmac).body = goodCmac ∧ goodCmac ≠ (mgmtDatagram 1 []).cmac := by
  constructor <;> decide +kernel

theorem witness_management_read : ∃ b w, (managed [] []).readObject (.udp 7) 0x1018 1 = (.inr b, w) ∧ decide (b.length ≤ 4) = true :=
  reads (p := fun n => decide (n ≤ 4)) (by decide +kernel)

/-- Entry `i` of segment 63. -/
def entry (i : Nat) (f : Ep → Ep) (s : State) : State := s.modEp i fun e => f { e with seg := 63, addr := 5, eui := 77 }

theorem witness_channels_switch :
    r0.MayAccess .can 2 ∧ r0.enabled 255 = true ∧ (off 255).enabled 255 = false ∧ (off 255).MayAccess .can 2 ∧ (r0.chan 255).rx = none ∧
    (r0.chan 255).laneRx = none ∧ r0.framesWith (fun f => f.chans.contains 255) = [] ∧
    (let x := someRx none .ofdm 255 .payload
     Alone 255 0 x (receiving x 255) ∧ ((receiving x 255).chan 255).laneRx = none) ∧
    (let x := someFrame .ofdm [255] false false false
     (framed x r0).framesWith (fun f => f.chans.contains 255) = [(0, x)] ∧ (framed x r0).frame? 0 = some x) ∧
    ((off 255).group 7).stopped = false ∧ (((off 255).modLine fun l => { l with groups := [(7, ⟨false, true⟩)] }).group 7).stopped = true ∧
    (∃ m, m < 256 ∧ m ≠ 255 ∧ m / 32 = 255 / 32 ∧ r0.enabled m = true) ∧
    (∀ m, m < 256 → m ≠ 255 → m / 32 = 255 / 32 →
      (sets ((List.range 31).map fun k => (K.ch.ENABLE (224 + k), 0)) r0).enabled m = false) := by
  unfold State.MayAccess
  refine ⟨by decide +kernel, by decide +kernel, by decide +kernel, by decide +kernel, by decide +kernel, by decide +kernel, by decide +kernel,
    ⟨⟨by decide +kernel, by decide +kernel, ⟨_, rfl, rfl⟩, by decide +kernel⟩, by decide +kernel⟩, by decide +kernel, by decide +kernel,
    by decide +kernel, ⟨254, by decide +kernel⟩, by decide +kernel⟩

theorem witness_segments_switch :
    (segmented 1 r0).segEnabled 63 = true ∧ (r0.segEnabled 63 = false ∧ r0.rd (K.seg.MEMBER_COUNT 63) = 0) ∧
    (segmented 0 r0).members 63 = [255] ∧ (∀ h, h < 64 → h ≠ 63 → (segmented 0 r0).segEnabled h = true → 255 ∉ (segmented 0 r0).members h) ∧
    (segmented 1 r0).framesWith (fun f => f.seg == 63) = [] ∧ ((segmented 1 r0).epsWith fun e => e.seg == 63) = [] ∧ r0.MayAccess .can 1 ∧
    r0.epAt (r0.rd (K.cur.SEGMENT 255)) (r0.rd (K.cur.SHORT_ADDR 255)) = none ∧
    (let s := sets [(K.cur.SEGMENT 255, 63), (K.cur.SHORT_ADDR 255, 5)] (entry 131071 (fun e => { e with state := 2 }) r0)
     s.epAt (s.rd (K.cur.SEGMENT 255)) (s.rd (K.cur.SHORT_ADDR 255)) = some 131071 ∧ (s.ep 131071).state = 2) := by
  unfold State.MayAccess; constructorm* _ ∧ _ <;> decide +kernel

theorem witness_endpoint_commands :
    r0.coreUp (r0.entryCore 3) = true ∧ (Instr.leaseRenew 3 [], 4) ∈ [(Instr.leaseRenew 3 [], 4), (Instr.allocRequest 3 [], 4)] ∧
    (leBytes 4 0).length = 4 ∧ leBytes 2 65535 ++ leBytes 2 3 = [255, 255, 3, 0] ∧
    (∀ d ∈ r0.mac.queue, ¬ (d.kind = .sleepEcho ∧ d.entry = some 3)) ∧ r0.legsOf 3 = [] ∧ r0.asleep 3 = false ∧
    (let s := (entry 3 (fun e => { e with state := 2, sleep := ⟨3600, 1, 4, 0⟩ }) r0).modSeg 63 fun x => { x with period := some 0 }
     (s.ep 3).adrift = false ∧ s.asleep 3 = true ∧ (s.seg (s.ep 3).seg).period = some 0 ∧ s.legsOf 3 = [] ∧ (s.ep 3).state = 2) ∧
    ((r0.ep 3).state ≠ 1 ∧ (r0.ep 3).state ≠ 2) ∧ r0.keys.ledgerOn = false := by
  constructorm* _ ∧ _ <;> decide +kernel

theorem witness_entry_deadlines :
    r0.coreUp (r0.entryCore 131071) = true ∧
    (entry 131071 (fun e => { e with state := 2 }) r0).legsOf 131071 = [] ∧ ((entry 131071 (fun e => { e with state := 2 }) r0).ep 131071).seg < 64 ∧
    ((entry 131071 (fun e => { e with state := 2 }) r0).ep 131071).state = 2 ∧ ((entry 131071 (fun e => { e with state := 3 }) r0).ep 131071).state = 3 ∧
    ((entry 131071 (fun e => { e with state := 1, via := some 9 }) r0).ep 131071).via.isSome = true ∧ (r0.ep 131071).window = none ∧
    ((entry 131071 (fun e => { e with window := some (1, 2, true), holdEnd := some 4 }) r0).ep 131071).window = some (1, 2, true) ∧
    ((entry 131071 (fun e => { e with window := some (1, 2, true), holdEnd := some 4 }) r0).ep 131071).holdEnd = some 4 := by
  constructorm* _ ∧ _ <;> decide +kernel

/-- An association request of EUI-64 77. -/
def assocBytes (bMax : Nat) : List Byte := leBytes 8 77 ++ leBytes 2 0xFFFE ++ leBytes 4 0 ++ leBytes 1 (bMax + 16 * 4) ++ leBytes 1 0 ++ leBytes 1 0 ++ leBytes 1 0

/-- Segment 63 with that request waiting, in OFDM and heard by the coordinator. -/
def requested (bMax : Nat) (s : State) : State := s.modMac fun m => { m with requests := [⟨63, none, assocBytes bMax, 90000, .ofdm, 0⟩] }

theorem witness_associations :
    (segmented 1 r0).segEnabled 63 = true ∧ r0.coreUp (segCore 63) = true ∧ (segmented 1 r0).rd K.adm.ADMIT_MODE = 0 ∧
    (∀ q ∈ r0.mac.requests, q.seg ≠ 63) ∧
    ((requested 12 r0).mac.requests.find? fun q => q.seg == 63) = some ⟨63, none, assocBytes 12, 90000, .ofdm, 0⟩ ∧
    (let s := (sets [(K.adm.ADMIT_MODE, 1)] (segmented 1 r0)).modKeys fun k => { k with entropyFail := true }
     s.keys.entropyFail = true ∧ s.rd K.adm.ADMIT_MODE = 1 ∧ Tbl.at? s.keys.admission 77 = none) ∧ (assocBytes 12).dropLast.length < 18 ∧
    ((segmented 1 r0).modSeg 63 fun x => { x with limits := [40, 100, 3, 86400, 3600, 0] }).limit 63 5 = 0 ∧
    ((assocRead (assocBytes 13)).map fun r => decide (12 < r.bMax)) = some true ∧ (segmented 1 r0).limit 63 5 ≠ 0 ∧
    assocRead (assocBytes 12) = some ⟨77, 0xFFFE, 0, 12, 4, 0, 0, 0, 0⟩ ∧
    (segmented 1 r0).epOfEui 77 = none ∧ (segmented 1 r0).epOfEuiOn 63 77 = none ∧ (segmented 1 r0).freeIndex = some 0 ∧
    ((assocRead (assocBytes 12)).bind fun r => (segmented 1 r0).pickAddr 63 r 0) = some (0, 1) ∧
    (∀ d ∈ (segmented 1 r0).mac.queue, d.entry ≠ some 0) ∧ ((segmented 1 r0).ep 0).state = 0 ∧
    (segmented 1 r0).flag K.dom.DOMAIN_ENABLE = false := by
  constructorm* _ ∧ _ <;> decide +kernel

/-- A tone map response with no record, with one of fixed map 1, with one of its own map, or with a rate out of range. -/
def mapBytes (mask tmi rate : Nat) (load : List Byte) : List Byte :=
  leBytes 1 mask ++ leBytes 6 5 ++ leBytes 5 0 ++ (if mask = 0 then [] else leBytes 4 (tmi + rate * 256)) ++ load

theorem witness_negotiations :
    (leBytes 5 (1 + 4 * 2 ^ 24)).length = 5 ∧ field (ofLe (leBytes 5 (1 + 4 * 2 ^ 24))) 24 6 ≠ 0 ∧ r0.soundingDown 3 = false ∧
    field (ofLe (leBytes 5 1)) 24 6 = 0 ∧ (r0.ep 3).sounding = none ∧ r0.coreUp (r0.entryCore 3) = true ∧
    (let s := entry 3 (fun e => { e with sounding := some ⟨5, 0, [0, 2]⟩ }) r0
     (s.ep 3).sounding = some ⟨5, 0, [0, 2]⟩ ∧ (∀ k, k < 24 → bitOf 5 k = true → k ∈ [0, 2]) ∧ s.rd (K.seg.MEMBER_COUNT 63) ≤ 8 ∧ vectorClass (s.upVector 3) 0 ≠ 2 ∧
       (entry 3 (fun e => { e with sounding := some ⟨5, 9, []⟩ }) r0).soundingDown 3 = false) ∧
    (∃ k, k < 24 ∧ bitOf 5 k = true ∧ k ∉ [0]) ∧ mapResponseRead [] = none ∧ mapResponseRead (mapBytes 0 0 0 []) = some (5, []) ∧
    (let s := entry 3 id r0
     mapResponseRead (mapBytes 1 1 0 []) = some (5, [⟨0, 1, 0, 0, []⟩]) ∧ s.mapRejected 3 [⟨0, 1, 0, 0, []⟩] ⟨0, 1, 0, 0, []⟩ = false ∧
       s.mapRejected 3 [⟨0, 1, 5, 0, []⟩] ⟨0, 1, 5, 0, []⟩ = true ∧
       (match mapResponseRead (mapBytes 1 2 0 (List.replicate 7 0 ++ [1] ++ List.replicate 835 0)) with
        | some (_, [r]) => s.mapRejected 3 [r] r == false && decide (2 ≤ r.tmi) && r.cls == 0
        | _ => false) = true ∧ s.freePage = some 2 ∧ (s.ep 3).mapDn = [0, 0, 0]) ∧
    (r0.ep 3).mapsAt = none ∧
    (let s := entry 3 (fun e => { e with state := 2, mapsAt := some 0 }) (segmented 1 r0)
     let u := (s.modTide 255 7 fun t => { t with cls := 1 }).atDeadline (0 + 409600000 * (60 * s.rd (K.seg.MAP_REFRESH (s.ep 3).seg)))
     s.rd (K.seg.MAP_REFRESH (s.ep 3).seg) ≠ 0 ∧ (s.ep 3).mapsAt = some 0 ∧ (s.ep 3).sounding = none ∧ (s.ep 3).state = 2 ∧
       (((List.range 24).filter fun k => vectorClass (u.upVector 3) k != 3).map fun k => 2 ^ k).sum ≠ 0) := by
  constructorm* _ ∧ _ <;> decide +kernel

/-- Entry 3 of segment 63 on channel 255, associated at address 5, its link ready; domain second 0 has begun. -/
def served (f : Ep → Ep) : State :=
  entry 3 (fun e => f { e with state := 2, route := some [5] }) (segmented 1 (keyed 63 r0))

theorem witness_routes :
    r0.coreUp (r0.entryCore 3) = true ∧ r0.coreUp 6 = true ∧
    reportRead [] = none ∧ reportRead [0] = some [] ∧ (segmented 0 r0).segEnabled 63 = false ∧ (segmented 1 r0).segEnabled 63 = true ∧
    (segmented 1 r0).stations 63 = [] ∧
    (let s := sets [(K.seg.REPEAT_ENABLE 63, 0)] (served fun e => { e with snrs := [2 ^ 26] })
     s.stations 63 = [3] ∧ s.flag (K.seg.REPEAT_ENABLE 63) = false ∧ (s.hopCost 63 (s.firstHop 3)).isSome = true ∧
       (s.modEp 3 fun e => { e with snrs := [] }).hopCost 63 ((s.modEp 3 fun e => { e with snrs := [] }).firstHop 3) = none) ∧
    (((served id).modEp 3 fun e => { e with report := [] }).hopsGiven 3 []).hopsAt 3 = (served id).hopsAt 3 ∧
    (((served id).modEp 3 fun e => { e with report := [(0, 120)] }).hopsGiven 3 [(0, 120)]).hopsAt 3 ≠ (served id).hopsAt 3 := by
  constructorm* _ ∧ _ <;> decide +kernel

theorem witness_beacons :
    (let s := segmented 1 r0
     s.coreUp (segCore 63) = true ∧ s.rd (K.seg.MEMBER_COUNT 63) ≤ 8 ∧ (∀ n ∈ s.members 63, n < 256) ∧ (s.seg 63).winding = false ∧
       (s.seg 63).gaps = [] ∧ (s.seg 63).responses = [] ∧ s.segEnabled 63 = true ∧ (∃ n ∈ s.members 63, s.enabled n = true)) ∧
    (∀ n ∈ (segmented 1 (off 255)).members 63, (segmented 1 (off 255)).enabled n = false) ∧
    (let s := (segmented 1 r0).modSeg 63 fun x => { x with period := some 0, limits := [40, 100, 3, 86400, 3600, 1, 600, 40, 2, 0x1A] }
     (s.seg 63).period = some 0 ∧ field (s.limit 63 9) 4 2 ≠ 0 ∧ s.segEnabled 63 = true ∧
       (s.atDeadline (s.slotStart 63 0 ((s.seg 63).region.getD 2 1))).coupledTo 63 = []) ∧ (r0.seg 63).period = none := by
  constructorm* _ ∧ _ <;> decide +kernel

/-- Entry 3 with an MPDU waiting, its period begun at tick 0 with one allocation. -/
def waitingOn (d : Down) (a : List Alloc) (s : State) : State :=
  (s.modMac fun m => { m with queue := [d], nextId := 10 }).modSeg 63 fun x =>
    { x with period := some 0, allocs := a, responses := if d.kind == .assocResponse then [(d.id, 0)] else [] }

/-- Entry 3 with MPDU 9 waiting, its period begun at tick 0 with one allocation that covers it. -/
def waiting (lane : Bool) : State := waitingOn (someDown .command lane) [⟨5, 48, 100, 1, true, 0, none⟩] (served id)

/-- Tick of the middle of that allocation. -/
def midway : Nat := (waiting false).slotEdge 63 0 50

theorem witness_downlink_plan :
    r0.coreUp (segCore 63) = true ∧ (segmented 0 r0).segEnabled 63 = false ∧ ((served id).dropLanes 3).planGroup 63 3 = [] ∧
    (segmented 1 r0).nextResponse 63 = none ∧ (segmented 1 r0).nextBroadcast 63 = none ∧
    ((served id).dropLanes 3).standAt 63 5 none 7 = none ∧
    (let u := (waiting false).dropLanes 3
     u.segEnabled 63 = true ∧ (u.ep 3).seg = 63 ∧ (u.ep 3).addr = 5 ∧ u.reachable 3 = true ∧ u.linkReady 3 = true ∧
       u.planGroup 63 3 = someDown .command false :: [] ∧ (someDown .command false).type ≠ 6 ∧ (u.ep 3).lrMode = 0 ∧
       (match u.standAt 63 5 none midway with
        | some p => match u.planTrial 3 midway (min (midway + 819200) p.upto) false with
          | some r => !(u.fill r.info [] [someDown .command false]).isEmpty &&
              u.canStand (u.ofdmTx 63 3 midway false (u.fill r.info [] [someDown .command false]) r) p
          | none => false
        | none => false) = true) := by
  constructorm* _ ∧ _ <;> decide +kernel

theorem witness_swell_plan :
    (let u := (waitingOn (someDown .command false) [⟨5, 48, 100, 1, true, 2, none⟩] (served fun e => { e with lrMode := 1, lrSf := 2 })).dropLanes 3
     let d := someDown .command false
     u.planGroup 63 3 = d :: [] ∧ (u.ep 3).lrMode ≠ 0 ∧ d.route = [] ∧ u.downLen d ≤ 255 ∧ d.frameType ≠ 7 ∧ u.reachable 3 = true ∧
       u.linkReady 3 = true ∧
       (match u.standAt 63 5 none midway with
        | some p =>
          let x := u.swellTx 63 3 midway false d
          !p.suits .ofdm && decide (x.stop + u.roomOf x ≤ min (midway + 10 ^ 9) p.upto) && u.canStand x p
        | none => false) = true) := by
  constructorm* _ ∧ _ <;> decide +kernel

theorem witness_sounding_plan :
    (let d := { someDown (.sounding 3) false with type := 6, body := leBytes 5 (4 * 2 ^ 24 + 3 * 2 ^ 30) }
     let u := (waitingOn d [⟨5, 48, 100, 1, true, 0, none⟩] (served id)).dropLanes 3
     let b := u.nextSlotStart 63 (midway + ofdmHead - 1) 3
     let psc := min (min 32 (field (ofLe d.body) 24 6))
       (min (u.slotEdge 63 b 1 - b) (u.maxFrame 63 - ofdmHead) / ofdmSymbol (field (ofLe d.body) 30 2))
     let x := { u.ofdmTx 63 3 (b - ofdmHead) false [d] ⟨⟨3, ⟨0, 0, field (ofLe d.body) 30 2, 0⟩⟩, psc, 0⟩ with
       type := 6, psc := psc, stop := b + psc * ofdmSymbol (field (ofLe d.body) 30 2), tide := 0 }
     u.planGroup 63 3 = d :: [] ∧ d.type = 6 ∧ psc ≠ 0 ∧ u.reachable 3 = true ∧ u.linkReady 3 = true ∧
       (match u.standAt 63 5 none midway with
        | some p => decide (x.stop ≤ min (midway + 10 ^ 9) p.upto) && u.canStand x p
        | none => false) = true) := by
  constructorm* _ ∧ _ <;> decide +kernel

theorem witness_response_plan :
    (let d := { someDown .assocResponse false with type := 5, seq := some 7, body := assocBody 77 0 1 3600 0 0 0 }
     let s := waitingOn d [⟨0xFFFE, 48, 100, 1, true, 0, some 9⟩] (served id)
     let x := { s.robustFrame 63 5 0xFFFE 1 midway [] (plainMpdu 7 d.body) with ackReq := d.entry.isSome, mpdus := [d.id], entry := d.entry }
     s.segEnabled 63 = true ∧ s.nextResponse 63 = some d ∧ d.seq = some 7 ∧ field (ofLe d.body) 124 2 = 0 ∧
       (match s.standAt 63 0xFFFE (some d.id) midway with
        | some p => decide (x.stop + s.roomOf x ≤ min (midway + 10 ^ 9) p.upto) && s.canStand x p
        | none => false) = true) := by
  constructorm* _ ∧ _ <;> decide +kernel

theorem witness_broadcast_plan :
    (let d := { someDown .broadcast false with entry := none }
     let s := waitingOn d [] (served id)
     let m := sealMpdu (some (s.slot 63).key) s.flash.eui64 d.pri (s.tagLen 63)
       ⟨(s.seg 63).bcastSeq, keyClass 63, s.tagLen 63 == 16, s.rd (K.key.TX_FC 63)⟩ d.body
     let x := { s.robustFrame 63 d.type 0xFFFF d.pri midway [] m with mpdus := [d.id] }
     s.segEnabled 63 = true ∧ s.nextBroadcast 63 = some d ∧ d.seq = none ∧ s.fcReady 63 = true ∧
       (match s.standAt 63 0xFFFF none midway with
        | some p => decide (x.stop ≤ min (midway + 10 ^ 9) p.upto) && s.canStand x p
        | none => false) = true) := by
  constructorm* _ ∧ _ <;> decide +kernel

/-- A frame of segment 63 that takes a sub-lane of channel 255 until tick 10^6. -/
def laneFrameOf (wave : Wave) (type : Nat) (started : Bool) : TxFrame :=
  { someFrame wave [255] started false false with type := type, start := 0, stop := 10 ^ 6, entry := some 4, body := [1, 1], ready := true }

/-- MPDU 9 waiting for the lane, with frames on it. -/
def laneWaiting (fs : List (Nat × TxFrame)) : State := (waiting true).modLine fun l => { l with frames := fs, nextFrame := 2 }

theorem witness_lane_place :
    (let s := waiting true
     let a := s.laneFrame (someDown .command true) 3 false [255] (laneGrid s.now)
     (s.mac.queue.find? fun d => d.id == 9) = some (someDown .command true) ∧ s.segEnabled 63 = true ∧ s.laneChans 3 = [255] ∧
       s.hasLane 3 = true ∧ s.reachable 3 = true ∧ s.linkReady 3 = true ∧ s.seqRoom 3 (someDown .command true) = true ∧
       s.laneHolds false [255] (laneGrid s.now) a.stop = [] ∧ s.ackDueBefore [255] a.stop = false) ∧
    (let s := laneWaiting [(0, laneFrameOf .laneA 1 true)]
     let a := s.laneFrame (someDown .command true) 3 false [255] (laneGrid s.now)
     let b := s.laneFrame (someDown .command true) 3 true [255] (laneGrid s.now)
     s.laneHolds false [255] (laneGrid s.now) a.stop ≠ [] ∧ (∀ f ∈ s.onLane true [255], f.2.type ≠ 9) ∧
       s.laneHolds true [255] (laneGrid s.now) b.stop = []) ∧
    (let s := laneWaiting [(0, laneFrameOf .laneA 1 true), (1, laneFrameOf .laneB 1 true)]
     let b := s.laneFrame (someDown .command true) 3 true [255] (laneGrid s.now)
     (∀ f ∈ s.onLane true [255], f.2.type ≠ 9) ∧ s.laneHolds true [255] (laneGrid s.now) b.stop ≠ [] ∧ 9 ∉ s.line.laneWait) ∧
    (let s := (waiting true).modChan 255 fun c => { c with ackDue := some 5 }
     s.ackDueBefore [255] (s.laneFrame (someDown .command true) 3 false [255] (laneGrid s.now)).stop = true) ∧
    (let y := laneFrameOf .laneB 9 true
     let s := laneWaiting [(0, laneFrameOf .laneA 1 true), (1, y)]
     s.frame? 1 = some y ∧ s.onLane true [255] = [(1, y)] ∧ 1 < s.line.nextFrame ∧ y.entry = some 4 ∧ laneGrid s.now < y.stop ∧
       y.start < (s.laneFrame (someDown .command true) 3 true [255] (max (laneGrid s.now) (y.stopAt s.now))).stop) ∧
    (r0.mac.queue.find? fun d => d.id == 9) = none := by
  constructorm* _ ∧ _ <;> decide +kernel

theorem witness_lane_frames :
    (let x := laneFrameOf .laneA 1 false
     let s := framed x r0
     s.frame? 0 = some x ∧ isLane x.wave = true ∧ x.ready = true ∧ (∀ n ∈ x.chans, s.inGap x.seg [n] x.start x.stop = false) ∧
       (∀ n ∈ x.chans, s.inService n = true ∧ (s.chan n).swell.on = true ∧ (s.chan n).laneRx = none) ∧
       (∃ n ∈ x.chans, (framed x (off 255)).inService n = false)) ∧
    (let y := someRx (some 63) .laneA 255 .detected
     let s := (framed (laneFrameOf .laneA 1 false) (r0.modLine fun l => { l with rxs := [(0, y)], nextRx := 1 })).modChan 255 fun c => { c with laneRx := some 0 }
     (s.chan 255).laneRx = some 0 ∧ s.rx? 0 = some y) ∧
    (let x := { laneFrameOf .laneA 1 true with ackReq := true }
     (framed x r0).frame? 0 = some x ∧ x.chans.Nodup ∧ (∀ n ∈ x.chans, n < 256) ∧ (framed x r0).line.laneWait = [] ∧ (framed x r0).line.wakes = []) ∧
    (let x := laneFrameOf .laneB 9 true
     let s := framed x (entry 4 (fun e => { e with state := 2, adrift := true }) r0)
     s.frame? 0 = some x ∧ x.entry = some 4 ∧ (s.ep 4).adrift = true ∧ (s.seg x.seg).winding = false) ∧
    ((r0.modChan 255 fun c => { c with laneBlank := some 4 }).chan 255).laneBlank = some 4 ∧ (r0.chan 255).laneBlank = none := by
  constructorm* _ ∧ _ <;> decide +kernel

theorem witness_wake_frames :
    Tbl.at? r0.line.wakes 3 = none ∧
    (let s := (served id).modLine fun l => { l with wakes := [(3, 1, 0)] }
     Tbl.at? s.line.wakes 3 = some (1, 0) ∧ (s.ep 3).adrift = false ∧ s.asleep 3 = false ∧ s.legsOf 3 = []) ∧
    (let s := (served fun e => { e with sleep := ⟨3600, 1, 4, 1⟩, driftEmpty := false, driftBound := 1 }).modLine fun l => { l with wakes := [(3, 1, 0)] }
     let ns := s.laneChans 3
     let start := max 0 s.now
     Tbl.at? s.line.wakes 3 = some (1, 0) ∧ s.asleep 3 = true ∧ s.segEnabled (s.ep 3).seg = true ∧ s.wakePossible 3 = true ∧
       s.fcReady (s.wakeSlot 3) = true ∧ (s.wr (K.key.STATE 63) 0).fcReady (s.wakeSlot 3) = false ∧ ns = [255] ∧
       (∀ f ∈ s.onLane true ns, f.2.type ≠ 9) ∧
       (s.wakeForm 3 start (s.laneBFree ns start) (fun a p => (s.laneHolds true ns a
         (a + swellTicks true 9 (mpduLen 2 (s.tagLen (s.ep 3).seg)) ((s.ep 3).laneSf + 7) p)).isEmpty)).isSome = true) ∧
    (let s := (segmented 0 (entry 3 (fun e => { e with state := 2, adrift := true }) r0)).modLine fun l => { l with wakes := [(3, 1, 0)] }
     (s.ep 3).adrift = true ∧ s.segEnabled (s.ep 3).seg = false) := by
  constructorm* _ ∧ _ <;> decide +kernel

theorem witness_detection :
    (off 255).inService 255 = false ∧ r0.inService 255 = true ∧ isLane .s1 = false ∧ r0.blanked 255 = false ∧ (r0.chan 255).rx = none ∧
    preambleDetects {} .ofdm 64 = false ∧ preambleDetects {} .s1 (r0.chan 255).cfg.detectLevel = true ∧
    ((r0.modChan 255 fun c => { c with blankEnd := some 5 }).blanked 255 = true) ∧
    (let x := someRx none .ofdm 255 .detected
     ((receiving x 255).chan 255).rx = some 0 ∧ (receiving x 255).rx? 0 = some x ∧
       (match x.member? 255 with
        | some m => m.declared
        | none => true) = true) ∧
    (let m : RxMember := ⟨255, 4, false, false, []⟩
     let x := { someRx none .s1 255 .detected with members := [m] }
     let s := receiving x 255
     (s.chan 255).rx = some 0 ∧ s.rx? 0 = some x ∧ x.wave = .s1 ∧ x.sf = 7 ∧ m.declared = false ∧ (s.chan 255).gainFrom ≤ s.now ∧
       s.blanked 255 = false) ∧
    ((r0.chan 255).swell.on = true ∧ r0.laneBlanked 255 = false ∧ (r0.chan 255).laneRx = none) := by
  constructorm* _ ∧ _ <;> decide +kernel

theorem witness_timing_mark :
    (let m : RxMember := ⟨255, 4, true, false, []⟩
     let x := someRx none .ofdm 255 .detected
     let s := receiving x 255
     let seen : MarkSeen := { bins := [[], []] }
     (s.chan 255).rx = some 0 ∧ s.rx? 0 = some x ∧ x.members = [m] ∧ isLane x.wave = false ∧ x.stage = .detected ∧ m.marked = false ∧
       s.trimLast 255 = (0, 0) ∧ markOffset seen x.wave x.sf = 0 ∧ markPeriods seen x.wave = 2 ∧ max s.now 20480 ≤ x.detected + 20480 ∧
       x.detected + 20480 < max s.now 20481 ∧ markPeriods {} x.wave < 2) ∧
    (let x := someRx none .s1 255 .detected
     let s := (receiving x 255).modChan 255 fun c => { c with written := some (-24000, 5, 0) }
     s.trimLast 255 = (-24000, 5) ∧ markPeriods { symbols := 2 } x.wave = 2 ∧ markOffset { symbols := 2 } x.wave x.sf = 0 ∧
       24000 < |(-24000 : Int) + markOffset { symbols := 2, pivot := 1 } x.wave x.sf|) := by
  constructorm* _ ∧ _ <;> decide +kernel

/-- Two receptions of segment 63 on channels 254 and 255. -/
def pair : State :=
  let a := { someRx (some 63) .ofdm 254 .marked with combine := true }
  r0.modLine fun l => { l with rxs := [(0, a), (1, { a with members := [⟨255, 4, true, false, []⟩] })], nextRx := 2 }

theorem witness_group_close :
    (let x := someRx none .ofdm 255 .marked
     (receiving x 255).rx? 0 = some x ∧ x.stage = .marked ∧ x.closed = false ∧ (receiving x 255).joiners 0 x = [] ∧
       x.members = [⟨255, 4, true, false, []⟩]) ∧
    (let a := { someRx (some 63) .ofdm 254 .marked with combine := true }
     pair.rx? 0 = some a ∧ pair.joiners 0 a = [(1, { a with members := [⟨255, 4, true, false, []⟩] })]) := by
  constructorm* _ ∧ _ <;> decide +kernel

theorem witness_fine_trim :
    (let m : RxMember := ⟨255, 4, true, false, []⟩
     let x := { someRx none .ofdm 255 .marked with closed := true }
     let s := (receiving x 255).modChan 255 fun c => { c with written := some (24000, 5, 0) }
     let u := (receiving x 255).modChan 255 fun c => { c with written := some (24001, 5, 0) }
     s.rx? 0 = some x ∧ (x.members.map (·.chan)).Nodup ∧ x.members = [m] ∧ (s.chan 255).rx = some 0 ∧
       s.groupTrim [] x.lead (x.members.map (s.trainMember [])) = 24000 ∧ u.groupTrim [] x.lead (x.members.map (u.trainMember [])) = 24001) ∧
    (let s := r0.modChan 255 fun c =>
       { c with cfg := { c.cfg with masks := [2 ^ 31 + 36 + 2 ^ 16 * 38, 2 ^ 31 + 40 + 2 ^ 16 * 1720] }, swell := { c.swell with on := false } }
     let y := [((0, 0) : Int × Int), (0, 0), (0, 0), (1000, 0)]
     0 < snrOf (tapsOf (s.masked 255) y y) y y) := by
  constructorm* _ ∧ _ <;> decide +kernel

/-- Flat taps of one. -/
def flatTaps : List Tap := List.replicate 1685 ⟨1, 0, 1, 1⟩

/-- A signed bit. -/
def sgnBit (b : Bool) : Int := if b then 1 else -1

/-- The carriers of the frame control symbol with coded bits `b`, as flat taps give them. -/
def clearCarriers (b : Nat → Bool) : List (Int × Int) :=
  (List.range 1685).map fun j => (sgnBit (b (fcSlotBit (j - ((j + 51) / 16 - 3)))), 0)

theorem clear_slot (b : Nat → Bool) (s : Nat) (h : s < 1580) :
    slotSoft flatTaps (clearCarriers b) (s + 36 + (s + 3) / 15) = 2 * sgnBit (b (fcSlotBit s)) := by
  have hj : s + 36 + (s + 3) / 15 - 36 = s + (s + 3) / 15 := by omega
  have hl : s + (s + 3) / 15 < 1685 := by omega
  have hs : s + (s + 3) / 15 - ((s + (s + 3) / 15 + 51) / 16 - 3) = s := by omega
  simp only [slotSoft, flatTaps, clearCarriers, hj, List.getElem?_replicate, hl, if_true, List.getD_eq_getElem?_getD,
    List.getElem?_map, List.getElem?_range hl, Option.map_some, Option.getD_some, hs]
  simp [Tap.weigh, Gauss.mulConj]
  try ring

theorem data_carriers : dataCarriers = (List.range 1580).map fun s => s + 36 + (s + 3) / 15 := by decide +kernel

/-- A soft bit with the sign of bit `x`. -/
def Agrees (v : Int) (x : Bool) : Prop := ∃ n : Nat, 0 < n ∧ v = n * sgnBit x

theorem sum_const (l : List Int) (v : Int) (h : ∀ x ∈ l, x = v) : l.sum = l.length * v := by
  induction l with
  | nil => simp
  | cons a l ih =>
    rw [List.sum_cons, ih fun x hx => h x (List.mem_cons_of_mem _ hx), h a (List.mem_cons_self ..)]
    push_cast [List.length_cons]; ring

theorem clear_soft (b : Nat → Bool) :
    List.Forall₂ Agrees (fcSoft [(flatTaps, clearCarriers b)]) ((List.range 256).map b) := by
  have hs : (dataCarriers.map fun k => ([(flatTaps, clearCarriers b)].map fun p => slotSoft p.1 p.2 k).sum) =
      (List.range 1580).map fun s => 2 * sgnBit (b (fcSlotBit s)) := by
    rw [data_carriers, List.map_map]
    refine List.map_congr_left fun s h => ?_
    simpa using clear_slot b s (List.mem_range.1 h)
  have hz : ((List.range 1580).map fun s => 2 * sgnBit (b (fcSlotBit s))).zipIdx =
      (List.range 1580).map fun s => (2 * sgnBit (b (fcSlotBit s)), s) := by
    refine List.ext_getElem (by simp) fun i h1 h2 => ?_
    simp
  simp only [fcSoft, hs, hz]
  refine List.forall₂_iff_get.2 ⟨by simp, fun i h1 h2 => ?_⟩
  have hi : i < 256 := by simpa using h1
  simp only [List.get_eq_getElem, List.getElem_map, List.getElem_range]
  set l := (((List.range 1580).map fun s => (2 * sgnBit (b (fcSlotBit s)), s)).filter fun x => fcSlotBit x.2 == i).map (·.1) with hl
  have hc : ∀ x ∈ l, x = 2 * sgnBit (b i) := by
    intro x hx
    simp only [hl, List.mem_map, List.mem_filter] at hx
    obtain ⟨y, ⟨⟨s, _, rfl⟩, h⟩, rfl⟩ := hx
    simp only [beq_iff_eq] at h
    simp [h]
  have hm : 0 < l.length := by
    have hf : fcSlotBit (29 * i % 256) = i := (by decide +kernel : ∀ i, i < 256 → fcSlotBit (29 * i % 256) = i) i hi
    refine List.length_pos_of_mem (a := 2 * sgnBit (b i)) ?_
    simp only [hl, List.mem_map, List.mem_filter]
    exact ⟨(2 * sgnBit (b i), 29 * i % 256), ⟨⟨29 * i % 256, List.mem_range.2 (by omega), by rw [hf]⟩, by simpa using hf⟩, rfl⟩
  exact ⟨2 * l.length, by omega, by rw [sum_const l _ hc]; push_cast; ring⟩

/-- Pairs of bits. -/
def bitPairs : List Bool → List (Bool × Bool)
  | a :: b :: rest => (a, b) :: bitPairs rest
  | _ => []

theorem clear_pairs : ∀ (l : List Int) (x : List Bool), List.Forall₂ Agrees l x →
    List.Forall₂ (fun p q => Agrees p.1 q.1 ∧ Agrees p.2 q.2) (softPairs l) (bitPairs x)
  | [], _, h => by cases h; exact .nil
  | [_], _, h => by obtain _ | ⟨_, _ | _⟩ := h; exact .nil
  | _ :: _ :: l, _, h => by
    obtain _ | ⟨h1, _ | ⟨h2, h3⟩⟩ := h
    exact .cons ⟨h1, h2⟩ (clear_pairs l _ h3)

/-- The inputs that give exactly these coded pairs. -/
def exactBits (m0 : Nat) : Nat → List (Bool × Bool) → Option (List Bool)
  | m, [] => if m = m0 then some [] else none
  | m, p :: ps =>
    if convPair m false == [p.1, p.2] then (exactBits m0 (m / 2) ps).map (false :: ·)
    else if convPair m true == [p.1, p.2] then (exactBits m0 (32 + m / 2) ps).map (true :: ·)
    else none

theorem branch_exact (m : Nat) (u : Bool) (p : Int × Int) (q : Bool × Bool) (h1 : Agrees p.1 q.1) (h2 : Agrees p.2 q.2) :
    (branchGain m u p == |p.1| + |p.2|) = (convPair m u == [q.1, q.2]) := by
  obtain ⟨a, b⟩ := p
  obtain ⟨x, y⟩ := q
  obtain ⟨n, hn, rfl⟩ := h1
  obtain ⟨k, hk, rfl⟩ := h2
  simp only [branchGain, convPair]
  generalize parityOf _ = c
  generalize parityOf _ = d
  have hn' : (0 : Int) < n := by omega
  have hk' : (0 : Int) < k := by omega
  rw [Bool.eq_iff_iff]
  cases c <;> cases d <;> cases x <;> cases y <;> simp [sgnBit, abs_of_pos hn', abs_of_pos hk'] <;> omega

theorem clear_path (m0 : Nat) : ∀ (ps : List (Int × Int)) (qs : List (Bool × Bool)) (m : Nat),
    List.Forall₂ (fun p q => Agrees p.1 q.1 ∧ Agrees p.2 q.2) ps qs → exactPath m0 m ps = exactBits m0 m qs
  | [], _, m, h => by cases h; rfl
  | p :: ps, _, m, h => by
    obtain _ | ⟨h1, h2⟩ := h
    simp only [exactPath, exactBits, branch_exact _ _ _ _ h1.1 h1.2, clear_path m0 ps _ _ h2]

/-- A frame control without noise decodes to its bits. -/
theorem clear_decode (b : Nat → Bool) (us : List Bool) (h : exactBits 0 0 (bitPairs ((List.range 256).map b)) = some us) :
    fcDecode [(flatTaps, clearCarriers b)] = bytesOf 16 us := by
  have hp := clear_path 0 _ _ 0 (clear_pairs _ _ (clear_soft b))
  simp only [fcDecode, viterbiTail]
  rw [show List.range 64 = 0 :: (List.range 64).tail from rfl, List.findSome?_cons, hp, h]

/-- A frame control for segment 63. -/
def control (nid dst type pri : Nat) (ack : Bool) : FrameControl := ⟨type, nid, dst, 5, 1, 20, 3, pri, ack, false, 0, 0⟩

/-- The coded bits of a frame control of these bytes. -/
def codedBits (bytes : List Byte) (i : Nat) : Bool := (convEncode (bitsOf bytes)).getD i false

/-- Two frame controls whose code starts from memory 0: for the coordinator of segment 63, and for its station 5. -/
def ourHead : FrameControl := { control 63 0 1 1 true with src := 61 }

/-- The second. -/
def otherHead : FrameControl := { control 63 5 1 1 true with src := 20 }

theorem witness_clear_headers :
    fcDecode [(flatTaps, clearCarriers (codedBits ourHead.encode))] = ourHead.encode ∧
    fcDecode [(flatTaps, clearCarriers (codedBits otherHead.encode))] = otherHead.encode ∧
    fcDecode [(flatTaps, clearCarriers fun _ => false)] = List.replicate 16 0 := by
  refine ⟨?_, ?_, ?_⟩
  · rw [clear_decode _ (bitsOf ourHead.encode) (by decide +kernel)]; decide +kernel
  · rw [clear_decode _ (bitsOf otherHead.encode) (by decide +kernel)]; decide +kernel
  · rw [clear_decode _ (List.replicate 128 false) (by decide +kernel)]; decide +kernel

/-- A value after some quarter turns. -/
def quarter : Nat → Int × Int
  | 0 => (1000, 0)
  | 1 => (0, 1000)
  | 2 => (-1000, 0)
  | _ => (0, -1000)

/-- The dechirped bins of the pivot and the header symbols of an SF 7 header without noise. -/
def headBins (bytes : List Byte) : List (List (Int × Int)) :=
  let syms := (List.range 12).map fun i => swellSymbolOf (((bitsOf bytes ++ List.replicate 4 false).drop (7 * i)).take 7)
  [quarter 0] :: (List.range 12).map fun i =>
    List.replicate (syms.getD i (0, 0)).1 (0, 0) ++ [quarter (((syms.take (i + 1)).map (·.2)).sum % 4)]

/-- A swell header for the coordinator of segment 63. -/
def swellHead : SwellHead := ⟨1, 63, 0, 5, 20, 1, true⟩

theorem witness_swell_headers :
    swellDecode 7 [(4, headBins swellHead.encode)] = swellHead.encode ∧ swellRead false swellHead.encode = some swellHead ∧
    swellRead false (swellDecode 7 [(4, headBins (List.replicate 10 1))]) = none := by
  constructorm* _ ∧ _ <;> decide +kernel

theorem witness_headers :
    fcRead ourHead.encode = some ourHead ∧ fcRead otherHead.encode = some otherHead ∧ fcRead (List.replicate 16 0) = none ∧
    r0.nid 63 = ourHead.nid ∧ (r0.modDomain fun d => { d with number := 1 }).nid 63 ≠ ourHead.nid ∧ ourHead.dst = 0 ∧ otherHead.dst ≠ 0 ∧
    otherHead.dst ≠ 0xFFFF ∧ ourHead.tmi ≤ 1 ∧ swellHead.nid = r0.nid 63 ∧ swellHead.dst = 0 ∧
    (let m : RxMember := ⟨255, 4, true, true, flatTaps⟩
     let x := { someRx (some 63) .ofdm 255 .trained with closed := true, members := [m] }
     (receiving x 255).rx? 0 = some x ∧ ((receiving x 255).chan 255).rx = some 0 ∧ x.stage = .trained ∧ x.seg = some 63 ∧ x.wave = .ofdm) ∧
    (let m : RxMember := ⟨255, 4, true, true, []⟩
     let x := { someRx (some 63) .s1 255 .marked with closed := true, members := [m] }
     (receiving x 255).rx? 0 = some x ∧ x.stage = .marked ∧ x.sf = 7 ∧ x.wave ≠ .ofdm ∧ isLane x.wave = false) := by
  constructorm* _ ∧ _ <;> decide +kernel

theorem witness_lane_headers :
    (let x := someRx (some 63) .laneA 255 .detected
     let s := (r0.modLine fun l => { l with rxs := [(0, x)], nextRx := 1 }).modChan 255 fun c => { c with laneRx := some 0 }
     (s.chan 255).laneRx = some 0 ∧ s.rx? 0 = some x ∧ isLane x.wave = true ∧ x.stage = .detected ∧
       24000 < |swellOffset .laneA 7 200 0| ∧ |swellOffset .laneA 7 0 0| ≤ 24000 ∧
       swellRead true (List.replicate 10 0) = none ∧
       (swellRead true (withCrc crcDirectory (leBytes 8 (1 + 63 * 2 ^ 4 + 0 * 2 ^ 20 + 5 * 2 ^ 36 + 20 * 2 ^ 52)))).map (fun h => (h.nid, h.dst)) = some (63, 0)) := by
  constructorm* _ ∧ _ <;> decide +kernel

/-- A reception of payload with a frame control. -/
def payloadRx (f : FrameControl) : Reception :=
  { someRx (some 63) .ofdm 255 .payload with head := ofLe f.encode, stop := 90000, combine := true }

/-- A symbol that a channel with one pilot received a quarter turn late. -/
def lateSymbol : List SymbolSeen := [⟨255, List.replicate 12 (0, 0) ++ [(0, -1000)]⟩]

/-- The member with that pilot. -/
def lateMember : RxMember := ⟨255, 4, true, true, List.replicate 12 ⟨0, 0, 0, 0⟩ ++ [⟨1, 0, 1, 1⟩]⟩

theorem witness_pilots :
    (let x := payloadRx (control 63 0 1 1 true)
     let s := receiving x 255
     s.rx? 0 = some x ∧ x.wave = .ofdm ∧ x.stage = .payload ∧ x.finished = false ∧ x.fc.psc = 20 ∧ (x.members.map (·.chan)).Nodup ∧
       x.chans = [255] ∧ s.trimLast 255 = (0, 0) ∧ (∀ m ∈ x.members, phaseStep 0 (memberError [] 7 m) = 0) ∧
       rateFix (meanError [] 8 x.members) (symbolAt x.fc.gi 8 - 36864) = 0) ∧
    (let x := { payloadRx (control 63 0 1 1 true) with members := [lateMember] }
     phaseStep 0 (memberError lateSymbol 7 lateMember) ≠ 0 ∧
       rateFix (meanError lateSymbol 8 x.members) (symbolAt x.fc.gi 8 - 36864) ≠ 0) ∧
    (someRx none .ofdm 255 .trained).stage ≠ .payload := by
  constructorm* _ ∧ _ <;> decide +kernel

/-- The 128 decoders at work on a second reception. -/
def busyDecoders (x : Reception) : State :=
  (receiving x 255).modLine fun l => { l with rxs := [(0, x), (1, payloadRx (control 63 0 1 1 true))], decoders := (List.range 128).map fun k => (1, k) }

/-- A codeword that begins with a directory for one MPDU, then `rest`. -/
def firstWord (s : State) (x : Reception) (len : Nat) (rest : List Byte) : List Byte :=
  scramble (withCrc crcDirectory (leBytes 2 (len - 1)) ++ rest ++ List.replicate (s.wordBytes x 0 - 4 - rest.length) 0)

/-- An MPDU of one byte for the receiver of entry 3 under key class `cls`. -/
def rawMpdu (cls : Nat) : List Byte := withCrc crcMpdu (leBytes 7 (40 + cls * 2 ^ 16 + 3 * 2 ^ 24) ++ [44] ++ List.replicate (if cls = 0 then 0 else 8) 0)

theorem witness_codewords :
    (let x := payloadRx (control 63 0 1 1 true)
     let s := receiving x 255
     let u := (s.passTo (s.wordTick x 0)).feedDecoders false
     let v := busyDecoders x
     x.shed = false ∧ x.fc.type ≠ 6 ∧ 0 < (s.rxLayout x).long + (s.rxLayout x).short ∧ Tbl.at? x.words 0 = none ∧ x.dir = none ∧
       (firstWord s x 5 []).length = s.wordBytes x 0 ∧ (0, 0) ∈ u.line.decoders ∧
       (0, 0) ∉ ((v.passTo (v.wordTick x 0)).feedDecoders false).line.decoders ∧
       (let y := { x with words := Tbl.ins x.words 0 (firstWord s x 5 []) }
        2 * (x.fc.countM1 + 1) + 2 ≤ y.payload.length ∧ dirRead (x.fc.countM1 + 1) (s.rxLayout x).info y.payload = some [5] ∧
          x.mpdus = 1 ∧ (∀ b ∈ (({ y with dir := some [5] } : Reception).mpduSoFar y.payload 0).toList, b.1.length ≤ 7)) ∧
       (let y := { x with words := Tbl.ins x.words 0 (List.replicate (s.wordBytes x 0) 0) }
        2 * (x.fc.countM1 + 1) + 2 ≤ y.payload.length ∧ dirRead (x.fc.countM1 + 1) (s.rxLayout x).info y.payload = none) ∧
       x.chans = [255] ∧ (s.chan 255).rx = some 0 ∧ s.rx? 0 = some x) ∧
    (let x := payloadRx (control 63 0 1 1 true)
     let s := receiving x 255
     let u := (s.passTo (s.wordTick x 1)).feedDecoders false
     let y := { x with words := Tbl.ins x.words 1 (List.replicate (s.wordBytes x 1) 0) }
     1 < (s.rxLayout x).long + (s.rxLayout x).short ∧ Tbl.at? x.words 1 = none ∧ (0, 1) ∈ u.line.decoders ∧
       y.payload.length < 2 * (x.fc.countM1 + 1) + 2) ∧
    (let x := { payloadRx (control 63 0 1 1 true) with dir := some [20] }
     let s := (served id).modLine fun l => { l with rxs := [(0, x)], nextRx := 1 }
     let u := (s.passTo (s.wordTick x 0)).feedDecoders false
     let y := { x with words := Tbl.ins x.words 0 (firstWord s x 20 (rawMpdu 3)) }
     x.mpdus = 1 ∧ y.mpduSoFar y.payload 0 = some (rawMpdu 3, 20) ∧ (rawMpdu 3).length = 20 ∧ (MpduHead.read (rawMpdu 3)).cls = 3 ∧
       (0, 0) ∈ u.line.decoders ∧ s.srcOf x = some (63, 3) ∧ Tbl.at? x.openings 0 = none ∧ s.openSlot 63 3 3 = none ∧
       (firstWord s x 20 (rawMpdu 3)).length = s.wordBytes x 0) := by
  constructorm* _ ∧ _ <;> decide +kernel

theorem witness_shed :
    r0.shedChoice = none ∧
    (let x := payloadRx (control 63 0 1 1 true)
     let s := { receiving x 255 with now := 1000000 }
     s.shedChoice = some (0, x) ∧ s.rx? 0 = some x ∧ x.chans = [255] ∧ s.noOpenings 0) ∧
    (let x := payloadRx (control 63 0 1 2 true)
     ({ receiving x 255 with now := 1000000 } : State).shedChoice = some (0, x)) ∧
    (let x := payloadRx (control 63 0 1 3 true)
     ({ receiving x 255 with now := 1000000 } : State).shedChoice = some (0, x)) := by
  unfold State.noOpenings
  constructorm* _ ∧ _ <;> decide +kernel

theorem witness_secondary_detection :
    (r0.rxOn 255 false = none ∧ r0.rxOn 255 true = none) ∧
    (let x := payloadRx (control 63 0 1 1 true)
     let s := receiving x 255
     s.rxOn 255 (isLane .s1) = some 0 ∧ s.rx? 0 = some x ∧ s.inService 255 = true ∧ s.deaf 255 false = false ∧ s.newPreamble x 5 = true ∧
       preambleDetects {} .s1 (s.chan 255).cfg.detectLevel = true ∧ (s.chan 255).found false = none ∧
       preambleDetects {} .ofdm (s.chan 255).cfg.detectLevel = false ∧
       (s.modChan 255 fun c => { c with blankEnd := some 5 }).deaf 255 false = true ∧
       ((s.modChan 255 fun c => { c with second := some ⟨5, 9, .ofdm, 0⟩ }).chan 255).found false = some ⟨5, 9, .ofdm, 0⟩ ∧
       (receiving (someRx none .ofdm 255 .detected) 255).newPreamble (someRx none .ofdm 255 .detected) 204 = false ∧
       (s.modLine fun l => { l with groups := [(7, ⟨false, true⟩)] }).inService 255 = false) ∧
    (let x := someRx (some 63) .laneA 255 .payload
     let s := (r0.modLine fun l => { l with rxs := [(0, x)], nextRx := 1 }).modChan 255 fun c => { c with laneRx := some 0 }
     s.rxOn 255 (isLane .laneB) = some 0 ∧ s.deaf 255 true = false ∧ s.newPreamble x 5 = true ∧ s.inService 255 = true ∧
       preambleDetects {} .laneB (s.chan 255).cfg.detectLevel = true ∧ (s.chan 255).found true = none) := by
  constructorm* _ ∧ _ <;> decide +kernel

theorem witness_capture :
    (let x := someRx none .ofdm 255 .payload
     let s := receiving x 255
     Alone 255 0 x s ∧ 0 ≠ s.line.nextRx ∧ s.seconds x = [] ∧
       (s.modChan 255 fun c => { c with second := some ⟨5, 16, .s1, 7⟩ }).seconds x = [(255, ⟨5, 16, .s1, 7⟩)] ∧ isLane .s1 = false ∧
       10 ^ x.margin * x.metric ^ 10 ≤ 16 ^ 10 ∧ 15 ^ 10 < 10 ^ x.margin * x.metric ^ 10 ∧ s.noOpenings 0 ∧
       (∀ p ∈ s.line.rxs, p.1 ≠ 0 → p.2.stage ≠ .detected)) ∧
    (let x := someRx none .ofdm 255 .marked
     x.stage ≠ .payload ∧ x.stage ≠ .passive ∧ Alone 255 0 x (receiving x 255)) := by
  unfold Alone State.noOpenings
  constructorm* _ ∧ _ <;> first | decide +kernel | exact ⟨⟨255, 4, true, false, []⟩, by decide +kernel, rfl⟩

/-- A swell reception of payload. -/
def swellRx (wave : Wave) (pri : Nat) : Reception :=
  { someRx (some 63) wave 255 .payload with head := ofLe ({ swellHead with pri := pri } : SwellHead).encode, stop := 90000 }

/-- Channel 255, its lane receiver holding reception 0. -/
def laneReceiving (x : Reception) : State :=
  (r0.modLine fun l => { l with rxs := [(0, x)], nextRx := 1 }).modChan 255 fun c => { c with laneRx := some 0 }

theorem witness_reception_end :
    (let x := payloadRx (control 63 0 1 0 true)
     let s := receiving x 255
     s.rx? 0 = some x ∧ x.members = [⟨255, 4, true, false, []⟩] ∧ x.finished = false ∧ isLane x.wave = false ∧ (s.chan 255).rx = some 0 ∧
       x.stage = .payload ∧ x.type ≠ 6 ∧ x.resolved = false) ∧
    (someRx none .ofdm 255 .passive).stage = .passive ∧ (someRx none .ofdm 255 .trained).stage = .trained ∧
    (let x := { payloadRx (control 63 0 1 0 false) with next := 1 }
     x.stage = .payload ∧ x.type ≠ 6 ∧ x.resolved = true ∧ x.wantsAck = false) ∧
    (let x := { payloadRx (control 63 0 1 0 true) with next := 1 }
     x.stage = .payload ∧ x.type ≠ 6 ∧ x.resolved = true ∧ x.wantsAck = true ∧ x.acked = 0 ∧ ({ x with acked := 1 } : Reception).wantsAck = true) ∧
    (let x := payloadRx { control 63 0 6 0 false with src := 5 }
     let y : Sounding := ⟨2 ^ 24 - 1, 0, []⟩
     let s := (served fun e => { e with sounding := some y }).modLine fun l => { l with rxs := [(0, x)], nextRx := 1 }
     let slot := (s.atDeadline x.stop).slotAtTick 63 (x.begin_ + ofdmHead)
     x.wave = .ofdm ∧ x.stage = .payload ∧ x.type = 6 ∧ s.srcOf x = some (63, 3) ∧ (s.ep 3).sounding = some y ∧ bitOf y.mask slot = true ∧
       slot ∉ y.got) ∧
    (let x := swellRx .laneA 0
     let s := laneReceiving x
     x.finished = false ∧ isLane x.wave = true ∧ (s.chan 255).laneRx = some 0 ∧ x.stage = .payload ∧ x.resolved = false ∧ x.wantsAck = true ∧
       ({ x with next := 1, acked := 1 } : Reception).wantsAck = true) := by
  constructorm* _ ∧ _ <;> decide +kernel

theorem witness_acknowledgement_sent :
    (let x := { payloadRx (control 63 0 1 0 true) with finished := true }
     x.finished = true ∧ x.wantsAck = true ∧ x.resolved = false ∧ x.pri = 0 ∧ x.wave = .ofdm ∧ (receiving x 255).rx? 0 = some x) ∧
    (let x := { swellRx .laneA 1 with finished := true }
     x.finished = true ∧ x.wantsAck = true ∧ x.resolved = false ∧ x.pri ≠ 0 ∧ x.wave ≠ .ofdm ∧ (laneReceiving x).rx? 0 = some x) ∧
    (let x := { payloadRx (control 63 0 1 0 true) with finished := true, next := 1, acked := 1 }
     let s := receiving x 255
     x.wantsAck = true ∧ x.resolved = true ∧ x.acked ≠ 0 ∧ x.acked = 2 ^ (x.fc.countM1 + 1) - 1 ∧ s.inService 255 = true ∧
       (s.atDeadline x.ackAt).inGap (x.seg.getD 0) [255] x.ackAt (s.ackFrame x x.ackAt).stop = false ∧
       ({ x with acked := 0 } : Reception).resolved = true) ∧
    (let x := { payloadRx { control 63 0 1 0 true with countM1 := 1 } with finished := true, next := 2, acked := 1 }
     x.wantsAck = true ∧ x.resolved = true ∧ x.acked ≠ 0 ∧ x.acked ≠ 2 ^ (x.fc.countM1 + 1) - 1) ∧
    (let x := { swellRx .laneA 0 with finished := true, next := 1, acked := 1 }
     let s := (r0.modLine fun l => { l with rxs := [(0, x)], nextRx := 1 })
     x.wantsAck = true ∧ x.resolved = true ∧ s.inService 255 = true ∧ isLane x.wave = true ∧ s.onLane false [255] = [] ∧
       (s.chan 255).laneRx = none ∧ (s.atDeadline x.ackAt).inGap (x.seg.getD 0) [255] x.ackAt (s.ackFrame x x.ackAt).stop = false) := by
  constructorm* _ ∧ _ <;> decide +kernel

theorem witness_acknowledgement :
    (let d := { someDown .command false with tries := 7, frame := some 0 }
     let x := { someFrame .ofdm [255] true true true with seg := 63 }
     let s := framed x ((served id).modMac fun m => { m with queue := [d] })
     let a : AckSeen := ⟨2, s.nid 63, 0, 5, 0, (s.ackWindow x).1, true⟩
     s.frame? 0 = some x ∧ x.ackReq = true ∧ x.ended = true ∧ x.entry = some 3 ∧ x.cls = none ∧ x.mpdus = [d.id] ∧
       (s.mac.queue.find? fun e => e.id == d.id) = some d ∧ d.kind = .command ∧ d.entry = some 3 ∧ d.route = [] ∧ d.lane = false ∧
       ofLe (d.body.take 1) ≠ 7 ∧ ofLe (d.body.take 1) ≠ 8 ∧ (s.seg x.seg).winding = false ∧ (s.seg d.seg).winding = false ∧
       s.ackMeets x a (s.ep 3).addr ((d.seq.getD 0) % 256) = true ∧
       s.ackMeets x { a with checkOk := false } (s.ep 3).addr ((d.seq.getD 0) % 256) = false ∧ d.tries < 8 ∧
       s.ackMeets x { a with type := 3 } (s.ep 3).addr ((d.seq.getD 0) % 256) = true ∧ bitOf a.info 0 = false ∧
       s.ackMeets x { a with type := 3, info := 1 } (s.ep 3).addr ((d.seq.getD 0) % 256) = true ∧ bitOf 1 0 = true ∧
       d.seg < 64 ∧ x.chans.headD 0 < 256) ∧
    (let d := { someDown .command false with tries := 8, frame := some 0 }
     let x := { someFrame .s1 [255] true true true with seg := 63 }
     let s := framed x ((served id).modMac fun m => { m with queue := [d] })
     let a : AckSeen := ⟨2, s.nid 63, 0, 5, 0, (s.ackWindow x).1, true⟩
     s.frame? 0 = some x ∧ x.wave ≠ .ofdm ∧ isLane x.wave = false ∧ 8 ≤ d.tries ∧ x.chans.headD 0 = 255 ∧
       (s.mac.queue.find? fun e => e.id == d.id) = some d ∧ s.ackMeets x a (s.ep 3).addr ((d.seq.getD 0) % 256) = true) := by
  constructorm* _ ∧ _ <;> decide +kernel

/-- A reception of one MPDU of entry 3 on segment 63. -/
def mpduRx (type : Nat) (raw : List Byte) (src : Nat) : Reception :=
  { payloadRx { control 63 0 type 1 true with src := src, tide := 3 } with
    dir := some [raw.length], firstDone := true, words := [(0, scramble (withCrc crcDirectory (leBytes 2 (raw.length - 1)) ++ raw))] }

/-- Entry 3, with reception 0. -/
def hearing (x : Reception) (f : Ep → Ep) : State := (served f).modLine fun l => { l with rxs := [(0, x)], nextRx := 1 }

theorem witness_mpdus :
    (let raw := rawMpdu 1
     let x := mpduRx 8 raw 5
     let s := hearing x id
     s.rx? 0 = some x ∧ x.seg = some 63 ∧ x.members = [⟨255, 4, true, false, []⟩] ∧ x.stage = .payload ∧ x.next = 0 ∧ x.mpdus = 1 ∧
       x.finished = false ∧ x.wave = .ofdm ∧ s.noOpening 0 0 ∧ x.mpduBytes x.payload 0 = some raw ∧ s.knownSrc 63 x.src = some 3 ∧
       mpduCrcOk raw = true ∧ (MpduHead.read raw).cls = 1 ∧ Tbl.at? x.openings 0 = none ∧ unwatched x ∧
       (mpduRx 8 (rawMpdu 0) 5).type = 8 ∧ (MpduHead.read (rawMpdu 0)).cls = 0 ∧ (hearing x id).openSlot 63 3 2 = none ∧
       (MpduHead.read (rawMpdu 2)).cls = 2 ∧ mpduCrcOk (List.replicate 12 0) = false) ∧
    ({ mpduRx 8 (rawMpdu 1) 5 with words := [] } : Reception).mpduBytes ({ mpduRx 8 (rawMpdu 1) 5 with words := [] } : Reception).payload 0 = none ∧
    (let x := mpduRx 4 (rawMpdu 0) 0xFFFE
     (hearing x id).knownSrc 63 x.src = none ∧ x.type = 4 ∧ x.src = 0xFFFE ∧ mpduCrcOk (rawMpdu 0) = true ∧
       (MpduHead.read (rawMpdu 0)).cls = 0 ∧ x.mpduBytes x.payload 0 = some (rawMpdu 0)) ∧
    (let x := mpduRx 8 (rawMpdu 1) 9
     (hearing x id).knownSrc 63 x.src = none ∧ x.type ≠ 4) := by
  unfold State.noOpening unwatched
  constructorm* _ ∧ _ <;> decide +kernel

theorem witness_openings :
    (let key := List.replicate 16 1
     let x := { mpduRx 8 (rawMpdu 1) 5 with openings := [(0, .good 63 key)] }
     let s := hearing x id
     Tbl.at? x.openings 0 = some (.good 63 key) ∧ x.firstDone = true ∧ x.wave = .ofdm ∧ x.type = 8 ∧ unwatched x ∧
       (windowJudge (s.ep 3).windowEmpty (s.ep 3).rxTop (s.ep 3).rxWindow (MpduHead.read (rawMpdu 1)).seq).isSome = true ∧
       (s.ep 3).replays (MpduHead.read (rawMpdu 1)).fc = false ∧ (s.slot 63).key = key ∧ (s.ep 3).eui = 77 ∧ x.pri = 1 ∧
       (ccmOpenMpdu key 77 1 (rawMpdu 1)).1 = 9 :: [] ∧ (9 : Nat) ∈ [1, 2, 3, 5, 9, 10, 11]) ∧
    (let s := hearing (mpduRx 8 (rawMpdu 1) 5) fun e => { e with windowEmpty := false, rxTop := 40, rxWindow := 2 ^ 32 - 1 }
     windowJudge (s.ep 3).windowEmpty (s.ep 3).rxTop (s.ep 3).rxWindow (MpduHead.read (rawMpdu 1)).seq = none) ∧
    (let s := hearing (mpduRx 8 (rawMpdu 1) 5) fun e => { e with windowEmpty := false, rxTop := 39, rxWindow := 1, rxFc := 2000 }
     (windowJudge (s.ep 3).windowEmpty (s.ep 3).rxTop (s.ep 3).rxWindow (MpduHead.read (rawMpdu 1)).seq).isSome = true ∧
       (s.ep 3).replays (MpduHead.read (rawMpdu 1)).fc = true) ∧
    (∀ o ∈ [Opening.noKey, .tagFail, .keyErased, .waits], Tbl.at? ({ mpduRx 8 (rawMpdu 1) 5 with openings := [(0, o)] } : Reception).openings 0 = some o) ∧
    (let x := { swellRx .s1 1 with raw := some (rawMpdu 1) }
     x.raw = some (rawMpdu 1) ∧ x.wave ≠ .ofdm ∧ x.mpdus = 1 ∧ (swellRx .s1 1).raw = none ∧
       (rawMpdu 1).length = field (swellRx .s1 1).head 52 8 ∧ (hearing x id).knownSrc 63 x.src = some 3) := by
  unfold unwatched
  constructorm* _ ∧ _ <;> decide +kernel

/-- Engine 0 at the MPDU of reception 0. -/
def opening (x : Reception) : State :=
  engaged 0 (someMsg { someReq 63 1 false .releaseEarly with mpdu := some (0, 0) }) (hearing x id)

theorem witness_cipher_opening :
    (let x := mpduRx 8 (rawMpdu 1) 5
     let s := opening x
     ((s.engine 0).running.bind fun m => m.req.mpdu) = some (0, 0) ∧ s.rx? 0 = some x ∧ s.keys.waiting = [] ∧
       x.mpduBytes x.payload 0 = some (rawMpdu 1) ∧ s.srcOf x = some (63, 3)) ∧
    ({ mpduRx 8 (rawMpdu 1) 5 with words := [] } : Reception).mpduBytes ({ mpduRx 8 (rawMpdu 1) 5 with words := [] } : Reception).payload 0 = none := by
  constructorm* _ ∧ _ <;> decide +kernel

/-- The domain key stands in slot 1023, the domain is enabled and its port is up and busy. -/
def domained : State :=
  (linked 0 (fun q => { q with sending := some ⟨8, .echoReply⟩ }) (sets [(K.dom.DOMAIN_ENABLE, 1), (K.bh.DOMAIN_PORT_SEL, 0)] (keyed 1023 r0)))

/-- The header of a message of a type with a length from device 9. -/
def drvHeader (type len : Nat) : List Byte :=
  beBytes 1 1 ++ beBytes 1 type ++ beBytes 2 9 ++ beBytes 4 0 ++ beBytes 4 1 ++ beBytes 8 0 ++ beBytes 2 len ++ beBytes 2 0

theorem ready_domain : DrvReady domained := by unfold DrvReady; constructorm* _ ∧ _ <;> decide +kernel

theorem witness_draivitar :
    drvRead (drvHeader 1 17) = some ⟨1, 1, 9, 0, 1, 0, 17⟩ ∧
    DrvFrom 1 (drvHeader 1 17) (List.replicate 17 0) ⟨1, 1, 9, 0, 1, 0, 17⟩ domained ∧ domained.drvStale ⟨1, 1, 9, 0, 1, 0, 17⟩ = false ∧
    ({ domained with now := 10 * 409600000 } : State).drvStale ⟨1, 1, 9, 0, 1, 0, 17⟩ = true ∧
    drvRead [] = none ∧ r0.flag K.dom.DOMAIN_ENABLE = false ∧ r0.slotUsable (r0.rd K.dom.DOMAIN_KEY_SLOT) = false ∧
    r0.rd K.dom.DOMAIN_KEY_SLOT < 1024 ∧ r0.coreUp 6 = true ∧
    (let s := sets [(K.dom.DOMAIN_ENABLE, 1)] r0
     s.flag K.dom.DOMAIN_ENABLE = true ∧ DrvFrom 1 (drvHeader 1 17) (List.replicate 17 0) ⟨1, 1, 9, 0, 1, 0, 17⟩ s ∧
       s.slotUsable (s.rd K.dom.DOMAIN_KEY_SLOT) = false) ∧
    [] ≠ cmacOf domained.domainKey [] ∧
    (Instr.hello [] [] [] [], 1) ∈ drvCommands [] [] [] [] ∧
    (domained.modDomain fun d => { d with number := 9 }).domain.number = 9 := by
  unfold DrvFrom drvCommands
  constructorm* _ ∧ _ <;> decide +kernel

/-- Segment 63 is coupled with segment 3 of peer 9, which is present; domain time tracks. -/
def coupled : State :=
  (sets [(K.times.DT_STATE, 1)] (segmented 1 domained)).modDomain fun d =>
    { d with peers := [(9, ⟨5, some 0, List.replicate 16 1, 8, some (0, 0), [⟨3, 63, 2 ^ 40⟩], []⟩)], heard := [(63 * 65536 + 9 * 64 + 3, ⟨2 ^ 40, 0⟩)] }

theorem witness_peers :
    DrvReady coupled ∧ (coupled.peer 9).hello = some 0 ∧ (r0.peer 9).hello = none ∧ coupled.drvStale ⟨1, 1, 9, 0, 1, 0, 17⟩ = false ∧
    (List.replicate 12 (0 : Byte)).length % 6 = 0 ∧ DrvFrom 2 (drvHeader 2 12) (List.replicate 12 0) ⟨1, 2, 9, 0, 1, 0, 12⟩ coupled ∧
    DrvFrom 2 (drvHeader 2 12) (List.replicate 12 0) ⟨1, 2, 9, 0, 1, 0, 12⟩ domained ∧ (domained.peer 9).hello = none ∧
    domained.domain.helloAt = none ∧ ((domained.modDomain fun d => { d with helloAt := some 0 }).domain.helloAt) = some 0 ∧
    domained.drvAddr none ≠ [] ∧ coupled.drvAddr (some 9) ≠ [] ∧ domained.drvAddr (some 9) = [] ∧
    Tbl.at? coupled.domain.heard (63 * 65536 + 579) = some ⟨2 ^ 40, 0⟩ ∧ Tbl.at? r0.domain.heard 579 = none := by
  unfold DrvFrom DrvReady
  constructorm* _ ∧ _ <;> decide +kernel

theorem witness_claims :
    coupled.claimTime = true ∧ r0.claimTime = false ∧ coupled.segEnabled 63 = true ∧ r0.segEnabled 63 = false ∧ coupled.coupledTo 63 ≠ [] ∧
    r0.coupledTo 63 = [] ∧ coupled.coupledDevices 63 = [9] ∧ 2 = coupled.dt / dtSecond + 2 ∧ Tbl.at? (coupled.seg 63).claims 4 = none ∧
    Tbl.at? (coupled.seg 63).claims 5 = none ∧
    (let s := coupled.modDomain fun d => { d with number := 9 }
     s.coupledTo 63 ≠ [] ∧ s.coupledDevices 63 = []) ∧
    (let claimed := coupled.modSeg 63 fun x => { x with claims := [(4, [⟨0, 2, true, 0⟩])] }
     (Tbl.at? (claimed.seg 63).claims 4).isSome = true ∧ claimed.openClaim 63 = some 2 ∧
       (∃ c ∈ Tbl.atD (claimed.seg 63).claims 4 [], c.beacon = true)) ∧
    ((coupled.modSeg 63 fun x => { x with claims := [(5, [])] }).seg 63).claims ≠ [] ∧ r0.openClaim 63 = none ∧
    (coupled.secondTick 0 < coupled.now + 204800000 ∧ coupled.now + 204800000 ≤ coupled.secondTick 1) ∧
    (let b := beBytes 1 3 ++ beBytes 1 0 ++ beBytes 2 1 ++ beBytes 4 1 ++ beBytes 4 100 ++ List.replicate 6 (0 : Byte)
     12 ≤ b.length ∧ 3 = ofBe (b.take 1) ∧ 1 = ofBe ((b.drop 2).take 2) ∧ 1 = ofBe ((b.drop 4).take 4) ∧ b.length = 12 + 6 * 1 ∧
       DrvFrom 3 (drvHeader 3 18) b ⟨1, 3, 9, 0, 1, 0, 18⟩ coupled) := by
  unfold DrvFrom
  constructorm* _ ∧ _ <;> decide +kernel

/-- Entry 3 with EUI-64 77 in a ready domain. -/
def roaming (state : Nat) : State := entry 3 (fun e => { e with state := state }) domained

theorem witness_roaming :
    (let s := roaming 2
     let b := beBytes 8 77 ++ beBytes 8 0
     DrvReady s ∧ 77 = ofBe (b.take 8) ∧ b.length = 16 ∧ DrvFrom 4 (drvHeader 4 16) b ⟨1, 4, 9, 0, 1, 0, 16⟩ s ∧ s.epOfEui 77 = some 3 ∧
       (s.ep 3).state ≠ 1 ∧ (s.ep 3).eui = 77 ∧ s.handOver? 77 = none ∧ s.legsOf 3 = [] ∧ domained.epOfEui 77 = none ∧
       s.drvStale ⟨1, 4, 9, 0, 1, 0, 16⟩ = false) ∧
    (let s := (roaming 2).modDomain fun d => { d with handOvers := [(77, ⟨9, some 4, []⟩)], queries := [(77, ⟨3, 1, none, false, []⟩)] }
     s.handOver? 77 = some ⟨9, some 4, []⟩ ∧ s.query? 77 = some ⟨3, 1, none, false, []⟩ ∧ (s.ep 3).state = 2 ∧ (s.ep 3).seg < 64 ∧
       s.legsOf 3 = [] ∧ (∀ d ∈ s.mac.queue, ¬ (d.kind = .sleepEcho ∧ d.entry = some 3)) ∧
       DrvFrom 6 (drvHeader 6 10) (beBytes 8 77 ++ beBytes 2 0) ⟨1, 6, 9, 0, 1, 0, 10⟩ s) ∧
    ((roaming 2).modDomain fun d => { d with handOvers := [(77, ⟨8, some 4, []⟩)] }).handOver? 77 = some ⟨8, some 4, []⟩ ∧
    (∀ k ∈ [0, 1, 3], (let b := beBytes 8 77 ++ beBytes 1 k ++ beBytes 15 0
     24 ≤ b.length ∧ ofBe ((b.drop 8).take 1) = k ∧ ofBe ((b.drop 22).take 2) = 0 ∧ 77 = ofBe (b.take 8) ∧
       drvRead (drvHeader 5 24) = some ⟨1, 5, 9, 0, 1, 0, 24⟩ ∧ b.length = 24)) ∧
    ((roaming 2).modDomain fun d => { d with queries := [(77, ⟨3, 1, some 5, true, []⟩)] }).query? 77 = some ⟨3, 1, some 5, true, []⟩ ∧
    r0.query? 77 = none ∧ r0.handOver? 77 = none ∧ nbRead [] = none := by
  unfold DrvFrom DrvReady
  constructorm* _ ∧ _ <;> decide +kernel

/-- A northbound message. -/
def nbMsg (type pri id : Nat) (body : List Byte) : List Byte := nbHeader type pri true id 0 body.length ++ body

/-- The body of a read of one target. -/
def readBody (target : Nat) : List Byte := beBytes 1 0 ++ beBytes 1 0 ++ beBytes 2 0 ++ beBytes 4 1000 ++ beBytes 2 1 ++ beBytes 2 1 ++ beBytes 4 target ++ [1]

/-- A transaction of one leg. -/
def someTxn (leg : Leg) (cached : Option Nat) (sent : List (List Byte)) (mark : Nat) : Txn where
  pri := 1
  session := 15
  op := 0
  many := false
  aggTime := 0
  arrived := 0
  deadline := 409600
  payload := [1]
  mark := mark
  legs := [leg]
  sent := sent
  nSent := sent.length
  open_ := []
  openSince := none
  aborting := false
  nAborted := 0
  cachedTo := cached
  endedAt := 0
  evicted := false

/-- A leg to entry 3. -/
def someLeg (phase : LegPhase) (due : Option Nat) : Leg where
  target := 63 * 65536 + 5
  entry := some 3
  phase := phase
  tag := 0
  frags := 1
  fragMax := 100
  acked := []
  delivered := false
  attempts := 1
  retries := 1
  respDue := due
  response := []
  respLast := none
  waits := false
  movedTo := none
  commitMs := 0

/-- The engine holds transaction 6, for session 15 on port 3. -/
def engine (x : Txn) (s : State) : State := s.modTxn fun t => { t with txns := [(6, x)] }

/-- All sessions name key slot 1023 and port 3. -/
theorem sessions_set : SessionsSet r0 := by
  unfold SessionsSet; decide +kernel

/-- The mark of a request body at P1. -/
def markOf (pri : Nat) (body : List Byte) : Nat := pri * 2 ^ 32 + crcValue crcMpdu body

theorem witness_requests :
    nbRead [1] = none ∧ ((nbRead (nbMsg 2 1 6 [])).map fun m => decide (m.type ≠ 1)) = some true ∧
    ((nbRead (nbMsg 1 1 6 [])).bind requestRead) = none ∧
    (let t := 63 * 65536 + 5
     ((nbRead (nbMsg 1 1 6 (readBody t))).bind requestRead) = some ⟨0, 0, 0, 1000, [t], [1]⟩ ∧ r0.txn? 6 = none ∧ r0.legEntry t = none ∧
       r0.recordsAllow 1 1 = true ∧ 1 ≤ r0.rd K.txn.P0_MAX_TARGETS ∧
       (let x := someTxn (someLeg .active none) none [[7]] (markOf 1 (readBody t))
        (engine x r0).txn? 6 = some x ∧ x.mark = 1 * 2 ^ 32 + crcValue crcMpdu (readBody t) ∧ x.mark ≠ 2 * 2 ^ 32 + crcValue crcMpdu (readBody t) ∧
          x.cachedTo = none ∧ x.sent = [[7]] ∧ (∀ l ∈ x.legs, l.movedTo = none)) ∧
       (someTxn (someLeg .active none) (some 5) [[7]] 0).cachedTo.isSome = true ∧
       ((served id).legEntry t = some 3 ∧ (served id).entryVerdict 3 0 = none ∧ (served id).recordsAllow 0 1 = true ∧
          [(1 : Byte)].length ≤ (served id).fragMax 0 3 ∧ (served id).asleep 3 = false)) := by
  constructorm* _ ∧ _ <;> decide +kernel

/-- A request body for the targets of a kind. -/
def manyBody (kind : Nat) (targets : List Nat) : List Byte :=
  beBytes 1 kind ++ beBytes 1 0 ++ beBytes 2 0 ++ beBytes 4 1000 ++ beBytes 2 targets.length ++ beBytes 2 1 ++ targets.flatMap (beBytes 4) ++ [1]

theorem witness_request_limits :
    (((nbRead (nbMsg 1 1 6 (manyBody 3 [5]))).bind requestRead) = some ⟨3, 0, 0, 1000, [5], [1]⟩ ∧ r0.resolveTargets ⟨3, 0, 0, 1000, [5], [1]⟩ = []) ∧
    (((nbRead (nbMsg 1 0 6 (manyBody 1 [7, 8]))).bind requestRead) = some ⟨1, 0, 0, 1000, [7, 8], [1]⟩ ∧
      (sets [(K.txn.P0_MAX_TARGETS, 1)] r0).rd K.txn.P0_MAX_TARGETS < ((sets [(K.txn.P0_MAX_TARGETS, 1)] r0).resolveTargets ⟨1, 0, 0, 1000, [7, 8], [1]⟩).length) ∧
    (let x := { someTxn (someLeg (.ended 0 0) none) (some 5) [[7]] 0 with evicted := true }
     x.cachedTo.isSome = true ∧ x.evicted = true ∧ (engine x r0).txn? 6 = some x) ∧
    (someTxn (someLeg (.ended 0 0) none) (some 5) [[7]] 0).evicted = false := by
  constructorm* _ ∧ _ <;> decide +kernel

theorem witness_relayed :
    (let b := nbMsg 1 1 6 (readBody 5)
     let x := someTxn (someLeg .active none) none [[7]] 0
     let s := domained.modTxn fun t => { t with txns := [((9 + 1) * 2 ^ 32 + 6, x)] }
     ((nbRead b).map fun m => (m.type, m.id)) = some (1, 6) ∧ s.txn? ((9 + 1) * 2 ^ 32 + 6) = some x ∧ x.sent = [[7]] ∧
       DrvFrom 7 (drvHeader 7 b.length) b ⟨1, 7, 9, 0, 1, 0, b.length⟩ s ∧ s.drvStale ⟨1, 7, 9, 0, 1, 0, b.length⟩ = false) := by
  unfold DrvFrom
  constructorm* _ ∧ _ <;> decide +kernel

theorem witness_no_records :
    (sets [(K.txn.P0_RESERVE, 131072)] r0).recordsAllow 1 1 = false := by decide +kernel

theorem witness_aborts :
    (∃ m, nbRead (nbMsg 2 1 6 []) = some m ∧ m.type = 2 ∧ m.version = 1 ∧ m.len = 0 ∧ m.body = [] ∧ m.id = 6) ∧
    (∃ m, nbRead (nbMsg 2 1 6 [1]) = some m ∧ m.len ≠ 0) ∧
    (let l := someLeg .active none
     let x := someTxn l none [] 0
     SoleLeg 6 0 x l (engine x r0) ∧ SoleLeg 6 0 { x with aborting := true } l (engine { x with aborting := true } r0) ∧ x.session = 15 ∧
       (engine x r0).legBeyond 6 0 = false) := by
  refine ⟨⟨_, rfl, by decide +kernel⟩, ⟨_, rfl, by decide +kernel⟩, ?_⟩
  unfold SoleLeg; constructorm* _ ∧ _ <;> decide +kernel

theorem witness_abort_answers :
    ((nbRead (nbMsg 2 1 (2 ^ 31) [])).map fun m => (m.type, m.id)) = some (2, 2 ^ 31) ∧ r0.txn? 6 = none ∧
    ((nbRead (nbMsg 1 1 6 [])).map fun m => decide (m.type ≠ 2)) = some true ∧
    (let x := someTxn (someLeg (.ended 0 0) none) (some 5) [[7]] 0
     (engine x r0).txn? 6 = some x ∧ x.cachedTo.isSome = true ∧ x.many = false ∧ x.pri < 4) := by
  constructorm* _ ∧ _ <;> decide +kernel

theorem witness_beyond :
    (let s := framed { someFrame .ofdm [255] true true true with seg := 63, start := 0, type := 1 } (r0.modMac fun m => { m with queue := [{ someDown (.fragment 6 0 0 true) false with frame := some 0 }] })
     s.legBeyond 6 0 = true) := by decide +kernel

theorem witness_legs :
    r0.leg? 6 0 = none ∧
    (let l := someLeg .active (some 700)
     let x := someTxn l none [] 0
     (engine x r0).leg? 6 0 = some l ∧ x.aborting = false ∧ l.respDue = some 700 ∧ l.attempts = l.retries ∧ l.open' = true ∧
       { l with retries := 3 }.attempts ≠ { l with retries := 3 }.retries ∧ l.entry = some 3 ∧ ((served id).atDeadline 700).entryVerdict 3 1 = none) ∧
    (someLeg (.ended 0 0) none).open' = false ∧ (∀ w ∈ r0.txn.waiting, (r0.txn? w.1).map Txn.pri ≠ some 3) ∧
    (let l := someLeg (.delayed 2) none
     let x := someTxn l none [] 0
     let s := (engine x (served id)).modTxn fun t => { t with waiting := [(6, 0)], tokens := [(1, 0)] }
     s.txn.waiting = (6, 0) :: [] ∧ s.txn? 6 = some x ∧ x.pri = 1 ∧ s.leg? 6 0 = some l ∧ l.left ≤ s.rd (K.cls.QUOTA 1) ∧ l.phase = .delayed 2 ∧
       (s.atDeadline (s.txn.tokensAt + ceilDiv (l.left * 409600000 - Tbl.atD s.txn.tokens 1 0) (s.rd (K.cls.QUOTA 1)))).epVerdict 3 1 = none) := by
  constructorm* _ ∧ _ <;> decide +kernel

theorem witness_bridged_release :
    (let d := { someDown .bridged false with held := some causeQuota, pri := 1 }
     let s := (served id).modMac fun m => { m with queue := [d] }
     s.bridgedWaiting 1 = d :: [] ∧ d.entry = some 3 ∧ (∀ w ∈ s.txn.waiting, (s.txn? w.1).map Txn.pri ≠ some 1) ∧
       (s.atDeadline (s.tokensDue 1 1)).entryVerdict 3 1 = none) ∧
    r0.bridgedWaiting 3 = [] ∧ ({ someLeg .active none with movedTo := some 5 } : Leg).movedTo.isSome = true ∧
    (let l := { someLeg .active (some 700) with retries := 3 }
     SoleLeg 6 0 (someTxn l none [] 0) l (engine (someTxn l none [] 0) (served id))) := by
  unfold SoleLeg
  constructorm* _ ∧ _ <;> decide +kernel

theorem witness_messages_and_reports :
    ((r0.txn? 6).bind Txn.openSince = none ∧ (r0.txn? 6).bind Txn.cachedTo = none) ∧
    (let x := { someTxn (someLeg .active none) none [] 0 with open_ := [[1]], openSince := some 3 }
     (engine x r0).txn? 6 = some x ∧ x.openSince = some 3 ∧ x.open_ ≠ [] ∧ x.session < 16 ∧ x.pri < 4) ∧
    ((engine (someTxn (someLeg (.ended 0 0) none) (some 5) [] 0) r0).txn? 6).bind Txn.cachedTo = some 5 ∧ Tbl.at? r0.txn.reports 0x80000000 = none ∧
    Tbl.at? (r0.modTxn fun t => { t with reports := [(0x80000000, ⟨1, 0, [1]⟩)] }).txn.reports 0x80000000 = some ⟨1, 0, [1]⟩ ∧
    (∀ k : Nat, k < 16 → r0.flag (K.sess.SESS_ENABLE k) = false) ∧
    (let s := sets [(K.sess.SESS_ENABLE 15, 1), (K.sess.REPORTS 15, 1)] r0
     ∀ j : Nat, j < 16 → (s.flag (K.sess.SESS_ENABLE j) = true ∧ s.flag (K.sess.REPORTS j) = true ↔ j = 15)) ∧ r0.mains.alarms = [] ∧
    (r0.modMains fun m => { m with alarms := [⟨7, 0, false, 0, 1, 1, 1, 1⟩] }).mains.alarms = ⟨7, 0, false, 0, 1, 1, 1, 1⟩ :: [] ∧
    1 < (sets [(K.txn.REPORT_REPEAT, 3)] r0).rd K.txn.REPORT_REPEAT := by
  constructorm* _ ∧ _ <;> decide +kernel

/-! Each check of WellFormed refuses a command that breaks it. -/

theorem test_ill_formed_0 : ([
    .resetNRelease { canId := 128 }, .resetHoldEnd { canId := 128 }, .watchdogService 8, .watchdogExpiry 8,
      .reset (.udp 8) 0, .channelEnable (.udp 8) 0, .channelEnable .can 256, .channelDisable (.udp 8) 0,
      .channelDisable .can 256, .channelConfigApply 256, .synthLock 8, .synthLockLoss 8, .agcDecision 256 0 [] 0,
      .trimPreload 64 0 0, .trimPreload 0 131072 0, .trimTakesEffect 256, .rxBreakwaterOverflow 256, .txUnderrun 256,
      .mainsBwOverflow 64, .bwPeakRead (.udp 8) 0 0, .bwPeakRead .can 256 0, .stickyFlagRead (.udp 8) 0 0,
      .stickyFlagRead .can 65536 0, .stickyFlagRead .can 0 256, .txBlankEnd 256, .detection 0 .s1 6 {},
      .detection 0 .s2 15 {}, .detection 0 .laneA 12 {}, .detection 0 .laneB 6 {}, .detection 256 .ofdm 0 {},
      .timingMark 256 0 {}, .acqFail 256, .secondaryDetection 256 .s1 7 {} 0, .laneHeaderCheck 0 6 [] {} 0,
      .laneHeaderCheck 0 12 [] {} 0, .laneHeaderCheck 256 7 [] {} 0, .swellConfigApply 256, .wakeFrame 131072,
      .refUnit (.udp 8) 0, .observationWindow 256 0 none, .tideSlotEnd 0 24, .tideSlotEnd 256 0, .downlinkPlan 0 131073 0 9 true, .downlinkPlan 0 0 0 0 true, .downlinkPlan 64 0 0 9 true,
      .soundRequest 131072 [], .soundTimeout 131072] :
    List Instr).all (fun i => !i.wf) = true := by decide +kernel

theorem test_ill_formed_1 : ([
    .soundingComplete 131072 [], .toneMapResponse 131072 [], .mapRefresh 131072,
      .tideReport 131072 [], .beacon 64, .reachBeacon 64, .associationRequest 64,
      .leaseRenew 131072 [], .sleepSchedule 131072 [], .present 131072, .allocRequest 131072 [], .disassociate 131072 [],
      .laneSfSet 0 6, .laneSfSet 0 12, .laneSfSet 131072 7, .longReachSet 131072 0 0, .longReachSet 0 3 0,
      .neighbourReport 131072 [], .routeInterval 64, .relayedAssocTimeout 131072, .leaseExpiry 131072,
      .addressHoldExpiry 131072, .wakeWindowEnd 131072, .adriftHoldExpiry 131072, .cursorSelect (.udp 8) 0 0 0,
      .cursorSelect .can 256 0 0, .cursorSelect .can 0 256 0, .cursorDisassociate (.udp 8) 0 0,
      .cursorDisassociate .can 256 0, .segEnable (.udp 8) 0, .segEnable .can 64, .segDisable (.udp 8) 0,
      .segDisable .can 64, .peerAbsent 1024, .coupleAgeExpiry 64 0, .coupleAgeExpiry 0 65536, .slotMapSend 64,
      .claimResolve 64, .request 16 [], .abort 16 [], .legQuotaRelease 4, .keyLoad (.udp 8) 0 [] {},
      .keyLoad .can 1024 [] {}, .erase (.udp 8) 0 0, .erase .can 1024 0, .boundEui (.udp 8) 0 0, .boundEui .can 1024 0] :
    List Instr).all (fun i => !i.wf) = true := by decide +kernel

theorem test_ill_formed_2 : ([
    .fcReservation 1024, .nextActivate (.udp 8) 0 0, .nextActivate .can 64 0, .overlapStart 64, .promotion 64,
      .nextKeyRetire 64, .admitMode (.udp 8) 0, .admitMode .can 3, .admitWrite (.udp 8) [], .engineOwnerWrite 64 0 0,
      .engineOwnerWrite 0 256 0, .cipherBlock 64 true 0 0 0, .cipherMessageEnd 64, .faultClear (.udp 8) 0 0,
      .faultClear .can 64 0, .vaultClear (.udp 8) 0, .commitSecurityVersion (.udp 8) 0, .rootRevoke (.udp 8) 0,
      .imageData (.udp 8) [], .imageVerify (.udp 8) 0 true, .cuGo (.udp 8) 0 0 none, .cuGo .can 8 0 none, .cuRunEnd 8,
      .scratchDataWrite (.udp 8) [], .queueWrite 256 0 true 0 0, .queueWrite 0 0 true 0 256, .queueRead 256 .clean 0 0, .queueRead 0 .clean 0 256, .mainsUnitRestart (.udp 8) 0 0 0,
      .mainsUnitRestart .can 64 0 0, .mainsUnitRestart .can 0 256 0, .mainsConfigApply 64, .trigNow (.udp 8) 0 0,
      .trigNow .can 64 0, .groupTrigNow (.udp 8) 0, .waveformSample [(64, 0, 0)], .waveformSample [(0, 0, 2 ^ 48)], .phasor 64 0,
      .cycleIntegral 64 0 0, .sh240Result 64 0, .alarmHoldoffExpiry 64, .eventRead (.udp 8) 0 0, .eventRead .can 64 0, .eventRead .can 0 2,
      .linkUp 4, .linkDown 4, .ethFrameRx 4 ⟨true, 64, 0, [], false, true, false, false, true, 0, .good, false⟩,
      .ethFrameTxEnd 4, .addressResolution 4 .arp [], .icmpEcho 4, .sessionWrite (.udp 8) 0 0 []] :
    List Instr).all (fun i => !i.wf) = true := by decide +kernel

theorem test_ill_formed_3 : ([
    .sessionWrite .can 16 0 [], .sessionWrite .can 0 256 [], .timeSet (.udp 8) 0, .sdoDownloadExpedited 2048 [] {},
      .sdoDownloadInitiate 2048 [], .sdoDownloadSegment 2048 [] {}, .sdoUploadInitiate 2048 [], .sdoUploadSegment 2048 [],
      .sdoAbort 2048 [], .spiRead 65536 0, .spiWrite 65536 [], .pairLowRead 65536, .pairHighRead 65536,
      .storeAll (.udp 8) 0 true, .restoreAll (.udp 8) 0, .objectWrite (.udp 8) 0 0 [], .objectWrite .can 65536 0 [],
      .objectWrite .can 0 256 [], .loopTest (.udp 8) 0, .loopTest .can 256, .selWrite (.udp 8) 0 0 0,
      .selWrite .can 12 0 0, .selWrite .can 0 8 0, .bankClear (.udp 8) 0 0, .bankClear .can 12 0, .sampleRingRead (.udp 8),
      .sampleConfigWrite (.udp 8) 0 0, .sampleConfigWrite .can 256 0, .loopTestDone [], .loopTestDone (8192 :: List.replicate 4095 0), .expectedWindowEnd 256, .laneBlankEnd 256] :
    List Instr).all (fun i => !i.wf) = true := by decide +kernel

/-- Commands at their operands' bounds are well formed. -/
theorem test_well_formed : ([.channelEnable .can 255, .detection 255 .s1 14 {}, .trimPreload 63 131071 0, .shed,
    .loopTestDone (List.replicate 4096 (-8192)), .waveformSample [(63, 0, 2 ^ 48 - 1)]] : List Instr).all Instr.wf = true := by
  decide +kernel

/-! Worked values of chapter 18 (R520–R522) and of R85 and R103. -/

/-- The bytes of "123456789". -/
def digits : List Byte := [0x31, 0x32, 0x33, 0x34, 0x35, 0x36, 0x37, 0x38, 0x39]

/-- R522. -/
theorem test_check_values :
    withCrc crcFrameControl [0x00] = [0x00, 0xBB, 0xA1, 0xE3] ∧ withCrc crcDirectory digits = digits ++ [0x91, 0x6F] ∧
    withCrc crcMpdu digits = digits ++ [0x26, 0x39, 0xF4, 0xCB] ∧
    withCrc crcLedger digits = digits ++ [0x0A, 0xF0, 0xA4, 0xF1, 0xE3, 0x59, 0xEC, 0x62] := by decide +kernel

/-- A frame control with u[0] = 1 and every other bit 0 (chapter 18). -/
theorem test_frame_control_code :
    (convEncode (true :: List.replicate 127 false)).map boolNat = [1, 1, 0, 1, 1, 1, 1, 1, 0, 0, 1, 0, 1, 1] ++ List.replicate 242 0 := by
  decide +kernel

/-- The first bits of the pilot sequence and of the scrambler (chapter 18). -/
theorem test_sequences :
    (pilotSeq 64).map boolNat = [1, 1, 1, 1, 1, 1, 1, 1, 1, 1, 1, 0, 0, 0, 0, 0, 0, 0, 0, 0, 1, 1, 0, 0, 0, 0, 0, 0, 0, 1, 1, 1,
      1, 0, 0, 0, 0, 0, 1, 1, 0, 0, 1, 1, 0, 0, 0, 1, 1, 1, 1, 1, 1, 1, 1, 0, 1, 1, 0, 0, 0, 0, 0, 0] ∧
    (scrambler 64).map boolNat = [0, 0, 0, 0, 0, 0, 0, 0, 0, 0, 0, 0, 0, 0, 1, 1, 1, 0, 0, 0, 0, 0, 0, 0, 0, 0, 0, 0, 1, 1, 1, 1,
      1, 1, 0, 0, 0, 0, 0, 0, 0, 0, 1, 1, 1, 0, 0, 0, 1, 1, 1, 0, 0, 0, 0, 0, 1, 1, 1, 1, 1, 1, 1, 1] := by decide +kernel

/-- The preamble's phases (chapter 18). -/
theorem test_preamble_phases :
    [152, 156, 436, 880, 1716, 1720, 153].map syncTone =
      [.rotor 2 841 844, .rotor 2 56 844, .rotor 2 716 844, .rotor 2 633 844, .rotor 2 4 844, .rotor 2 1 844, .none] ∧
    [94, 95, 878, 1720, 35].map ceTone = [.rotor 1 3364 3370, .rotor 1 111 3370, .rotor 1 1264 3370, .rotor 1 1686 3370, .none] := by
  decide +kernel

/-- The orders of codeword bits and of slots (chapter 18). -/
theorem test_orders :
    interleave true 1 = 48 ∧ interleave true 192 = 1 ∧ [1580, 790, 1000, 10, 22].map slotStep = [541, 269, 337, 7, 13] ∧
    [0, 1, 2, 3].map (slotAt 1580 1) = [263, 804, 1345, 306] := by decide +kernel

/-- The constellation words of R85 and chapter 18. -/
theorem test_constellation_words :
    qam [true, false, true, true] = (3, 1) ∧ qam (List.replicate 12 true) = (21, 21) ∧ grayDecode 6 63 = 42 ∧
    [12, 63, 40, 32].map (grayDecode 6) = [8, 42, 48, 63] := by decide +kernel

/-- The first data symbol of an SF7 frame, and a spot value of its preamble (chapter 18). -/
theorem test_swell_symbol :
    swellSymbolOf [true, false, true, true, false, false, true] = (27, 1) ∧ dataPhase 0 7 false 0 0 128 * 256 = 33 * turnUnits 0 7 ∧
    dataPhase 1 7 true 108 0 2048 = 82 * turnUnits 1 7 ∧ pivotPhase 2 7 false 2048 = 210 * turnUnits 2 7 := by decide +kernel

/-- The short rate-11/12 matrix (chapter 18, Worked example). -/
theorem test_short_matrix :
    (List.range 22).map (ldpcShift 4 false 0) = [3, 32, 8, 19, 35, 19, 26, 9, 46, 28, 31, 10, 41, 1, 16, 21, 6, 4, 23, 47, 42, 22].map some ∧
    (List.range 22).map (ldpcShift 4 false 1) = [0, 33, 22, 41, 41, 12, 35, 12, 17, 14, 46, 36, 13, 1, 32, 0, 35, 35, 21, 16, 30, 4].map some := by
  decide +kernel

/-- A codeword of each rate satisfies H × cᵀ = 0, and no longer does with one bit changed (R80). -/
theorem test_codewords :
    ([0, 1, 2, 3, 4].all fun r =>
      let c := ldpcEncode r false ((scrambler ((infoBits r).2 + 40)).drop 40)
      c.length == 1152 && ldpcCheck r false c && !ldpcCheck r false (c.set 3 (!c.getD 3 false))) = true := by decide +kernel

/-- The longest payloads of R66, the parts of the preamble, and the frame at R66's limit. -/
theorem test_ppdu_lengths :
    (ppduParts 0 0).sum = 28672 ∧ [(181, 0), (171, 1), (154, 2), (128, 3)].all (fun p => ppduTicks p.1 p.2 ≤ maxPpdu) = true ∧
    [(182, 0), (172, 1), (155, 2), (129, 3)].all (fun p => maxPpdu < ppduTicks p.1 p.2) = true := by decide +kernel

/-- A frame control reads back, and does not with a bit changed (R70–R72). -/
theorem test_frame_control :
    let f : FrameControl := ⟨1, 0x8421, 0x0102, 3, 7, 12, 2, 1, true, false, 3, 4⟩
    fcRead f.encode = some f ∧ fcRead (f.encode.set 5 0xFF) = none := by decide +kernel

/-- A swell header reads back in S1; the lane takes no P1 data (R101, R102, R105). -/
theorem test_swell_header :
    let h : SwellHead := ⟨1, 0x8421, 0x0102, 3, 12, 1, true⟩
    swellRead false h.encode = some h ∧ swellRead true h.encode = none := by decide +kernel

/-! One step of some commands on small states. -/

/-- What holds of the next state of a command. -/
def after (o : Out) (p : State → Bool) : Bool :=
  match o with
  | .next t => p t
  | _ => false

/-- A low level of 10 µs resets; a pulse shorter than 1 µs does not (R483). -/
theorem test_reset_pin :
    after (exec (.resetNAssert 10000) r0) (fun t => t.sys.phase == .held) = true ∧
    after (exec (.resetNAssert 999) r0) (fun t => t.sys.phase == .running) = true := by decide +kernel

/-- The watchdog of core 3 resets the device and names the core (R26, R447). -/
theorem test_watchdog :
    after (exec (.watchdogExpiry 3) r0) (fun t => t.sys.phase == .hold && t.rd K.cause.CAUSE == 1 && t.rd K.cause.CORE == 3) = true := by
  decide +kernel

/-- ID in the register window (R444). -/
theorem test_spi_id : after (exec (.spiRead 0 1) r0) (fun t => t.mgmt.spiOut == [0x00A12560]) = true := by decide +kernel

/-- Check unit 0 in GENERATE over nine bytes at the start of the scratch window, its run begun. -/
def generating : State :=
  match exec (.cuGo .can 0 1 none) (sets [(K.cu.MODE 0, 0), (K.cu.LENGTH 0, 9)] (r0.setBytes 0x02FF0000 digits)) with
  | .next t => t
  | _ => r0

/-- The run writes the check bytes of R522 after the nine bytes, and ends DONE (R354, R360). -/
theorem test_check_unit :
    after (exec (.cuRunEnd 0) generating) (fun t =>
      (List.range 13).map (fun k => t.memByte (0x02FF0000 + k)) == digits ++ [0x26, 0x39, 0xF4, 0xCB] &&
      t.rd (K.cu.RESULT_VALUE 0) == 0xCBF43926 && t.rd (K.cu.STATUS 0) == 2 && t.rd (K.cu.RESULT_LEN 0) == 13 &&
      t.rd (K.cu.RUNS 0) == 1) = true := by decide +kernel

/-- Node 5 answers an upload of DEVICE_TYPE with the expedited form (R436, R437, R453). -/
theorem test_sdo_upload :
    after (exec (.sdoUploadInitiate 0x605 (0x40 :: 0x00 :: 0x10 :: List.replicate 61 0)) (r0.modSys fun x => { x with canId := 5 }))
      (fun t => t.mgmt.canTx == [0x43, 0x00, 0x10, 0x00, 4] ++ List.replicate 59 0) = true ∧
    after (exec (.sdoUploadInitiate 0x606 (0x40 :: 0x00 :: 0x10 :: List.replicate 61 0)) (r0.modSys fun x => { x with canId := 5 }))
      (fun t => t.mgmt.canTx == []) = true := by decide +kernel

/-- A channel that is disabled reads DISABLED at once (R28, R59). -/
theorem test_channel_disable :
    after (exec (.channelDisable .can 255) r0) (fun t => !t.flag (K.ch.ENABLE 255) && !t.enabled 255 && t.enabled 254) = true := by
  decide +kernel

/-- The JTAG TAP goes from Test-Logic-Reset to Run-Test/Idle at a rising TCK with TMS low, once TRST_N is high (R484, R513). -/
theorem test_tap :
    after (exec (.tckEdge true false false []) (r0.modPins fun p => { p with trstN := true })) (fun t => t.jtag.tap == .runTestIdle) = true ∧
    after (exec (.tckEdge true false false []) r0) (fun t => t.jtag.tap == .testLogicReset) = true := by decide +kernel

/-- The worked examples of R496, and counts of R502. -/
theorem test_balls :
    [ballAt 18 56, ballAt 19 56, ballAt 18 51, ballAt 19 51] = [.lineRx 77 true, .lineRx 77 false, .lineTx 77 true, .lineTx 77 false] ∧
    [ballAt 32 1, ballAt 31 1, ballAt 32 6, ballAt 31 6] = [.lineRx 200 true, .lineRx 200 false, .lineTx 200 true, .lineTx 200 false] ∧
    [0, 1, 8, 16].map ballCount = [1024, 137, 530, 1270] := by decide +kernel

end Sys2Proof.Tests
end

section
/-! SUPPORT. What leaves working memory alone: for every operation of the machine that writes none of its bytes, one lemma that says
so, in the order of the definitions. `simp` composes them. -/

namespace Sys2Proof.Machine

/-! Choices, folds and pairs. -/

@[simp] theorem State.ite_wm (c : Prop) [Decidable c] (s t : State) :
    (if c then s else t).wm = if c then s.wm else t.wm := apply_ite _ _ _ _
@[simp] theorem State.foldl_wm {α : Type} (f : State → α → State) (l : List α) (s : State) (h : ∀ t x, (f t x).wm = t.wm) :
    (l.foldl f s).wm = s.wm := State.foldl_keeps (·.wm) f h l s
@[simp] theorem WriteResult.ite_state (c : Prop) [Decidable c] (a b : WriteResult) :
    (if c then a else b).state = if c then a.state else b.state := apply_ite _ _ _ _
@[simp] theorem WriteResult.refuse_state (a : Abort) (s : State) : (WriteResult.refuse a s).state = s := rfl
@[simp] theorem WriteResult.accept_state (s : State) : (WriteResult.accept s).state = s := rfl
@[simp] theorem WriteResult.delay_state (w : Waiting) (s : State) : (WriteResult.delay w s).state = s := rfl
@[simp] theorem State.snd_ite {α : Type} (c : Prop) [Decidable c] (p q : α × State) :
    (if c then p else q).2 = if c then p.2 else q.2 := apply_ite _ _ _ _
@[simp] theorem State.foldl_snd_wm {α β : Type} (f : β × State → α → β × State) (l : List α) (p : β × State)
    (h : ∀ q x, (f q x).2.wm = q.2.wm) : (l.foldl f p).2.wm = p.2.wm := by
  induction l generalizing p with
  | nil => rfl
  | cons x l ih => rw [List.foldl_cons, ih, h]
/-- `simp` does not find the premise of `State.foldl_wm` for a counter, whose own lemma holds by `rfl`. -/
@[simp] theorem State.foldl_bump_wm {α : Type} (r : α → Reg) (l : List α) (s : State) :
    (l.foldl (fun t x => t.bump (r x)) s).wm = s.wm := State.foldl_wm _ l s fun t x => State.bump_wm t (r x)
theorem State.wm_of_eq_mk {α : Type} {p : α × State} {a : α} {s t : State} (h : p = (a, t)) (hp : p.2.wm = s.wm) :
    t.wm = s.wm := by
  subst h
  exact hp

/-- What an access answers, when it answers at all, holds the working memory of `s`; `st` finds the state in the answer. -/
def KeptBy {α : Type} (st : α → State) (s : State) (o : Option α) : Prop := ∀ x ∈ o, (st x).wm = s.wm

section
variable {α : Type} (st : α → State) (s : State)
@[simp] theorem keptBy_none : KeptBy st s none := by simp [KeptBy]
@[simp] theorem keptBy_some (x : α) : KeptBy st s (some x) ↔ (st x).wm = s.wm := by simp [KeptBy]
@[simp] theorem keptBy_ite (c : Prop) [Decidable c] (o p : Option α) :
    KeptBy st s (if c then o else p) = if c then KeptBy st s o else KeptBy st s p := apply_ite _ _ _ _
end

/-! Machine/Ops. -/

@[simp] theorem State.owe_wm (s : State) (w : Waiting) (r : Reply) : (s.owe w r).wm = s.wm := by simp [State.owe]
@[simp] theorem State.sampleDescriptor_wm (s : State) (source opcode cls : Nat) (background : Bool) (addr issue : Nat) :
    (s.sampleDescriptor source opcode cls background addr issue).wm = s.wm := by
  simp [State.sampleDescriptor]
@[simp] theorem State.sampleWork_wm (s : State) (source opcode cls n : Nat) : (s.sampleWork source opcode cls n).wm = s.wm := by
  induction n generalizing s with
  | zero => rfl
  | succ n ih => simp [State.sampleWork, ih]
@[simp] theorem State.sampleBack_wm (s : State) (source opcode issue : Nat) : (s.sampleBack source opcode issue).wm = s.wm := by
  simp [State.sampleBack]

/-! Machine/Tracker. -/

@[simp] theorem State.setPeriod_wm (s : State) (p : Nat) : (s.setPeriod p).wm = s.wm := by simp [State.setPeriod]
@[simp] theorem State.clearTides_wm (s : State) : s.clearTides.wm = s.wm := by simp [State.clearTides]
@[simp] theorem State.holdover_wm (s : State) : s.holdover.wm = s.wm := by simp [State.holdover]
@[simp] theorem State.movePhase_wm (s : State) (e : Int) : (s.movePhase e).wm = s.wm := by simp [State.movePhase]
@[simp] theorem State.reanchor_wm (s : State) (crossing : Nat) : (s.reanchor crossing).wm = s.wm := by simp [State.reanchor]
@[simp] theorem State.lock_wm (s : State) (p crossing : Nat) : (s.lock p crossing).wm = s.wm := by simp [State.lock]
@[simp] theorem State.lockedCycle_wm (s : State) (p crossing : Nat) : (s.lockedCycle p crossing).wm = s.wm := by
  simp only [State.lockedCycle]
  split <;> simp
@[simp] theorem State.validCycle_wm (s : State) (p crossing : Nat) : (s.validCycle p crossing).wm = s.wm := by
  simp [State.validCycle]
@[simp] theorem State.invalidCycle_wm (s : State) : s.invalidCycle.wm = s.wm := by simp [State.invalidCycle]
@[simp] theorem State.refUnitWrite_wm (s : State) (u : Nat) : (s.refUnitWrite u).state.wm = s.wm := by simp [State.refUnitWrite]

/-! Machine/Channels. -/

@[simp] theorem State.modChan_wm (s : State) (n : Nat) (f : Channel → Channel) : (s.modChan n f).wm = s.wm := by
  simp [State.modChan]
@[simp] theorem State.modChans_wm (s : State) (ns : List Nat) (f : Channel → Channel) : (s.modChans ns f).wm = s.wm := by
  simp [State.modChans]
@[simp] theorem State.modFrame_wm (s : State) (f : Nat) (g : TxFrame → TxFrame) : (s.modFrame f g).wm = s.wm := by
  simp [State.modFrame]
@[simp] theorem State.dropFrame_wm (s : State) (f : Nat) : (s.dropFrame f).wm = s.wm := by simp [State.dropFrame]
@[simp] theorem State.addFrame_wm (s : State) (f : TxFrame) : (s.addFrame f).2.wm = s.wm := by simp [State.addFrame]
@[simp] theorem State.modRx_wm (s : State) (r : Nat) (f : Reception → Reception) : (s.modRx r f).wm = s.wm := by
  simp [State.modRx]
@[simp] theorem State.dropRx_wm (s : State) (r : Nat) : (s.dropRx r).wm = s.wm := by simp [State.dropRx]
@[simp] theorem State.addRx_wm (s : State) (x : Reception) : (s.addRx x).2.wm = s.wm := by simp [State.addRx]
@[simp] theorem State.modGroup_wm (s : State) (k : Nat) (f : LcGroup → LcGroup) : (s.modGroup k f).wm = s.wm := by
  simp [State.modGroup]
@[simp] theorem State.writeTrim_wm (s : State) (n : Nat) (trim : Int) (phase : Nat) : (s.writeTrim n trim phase).wm = s.wm := by
  simp [State.writeTrim]
@[simp] theorem State.requeue_wm (s : State) (f : Nat) (started : Bool) : (s.requeue f started).wm = s.wm := by
  simp [State.requeue]
@[simp] theorem State.cancelFrame_wm (s : State) (f : Nat) : (s.cancelFrame f).wm = s.wm := by
  unfold State.cancelFrame
  split <;> simp

/-! Machine/Endpoints. -/

@[simp] theorem State.modEp_wm (s : State) (i : Nat) (f : Ep → Ep) : (s.modEp i f).wm = s.wm := by simp [State.modEp]
@[simp] theorem State.modSeg_wm (s : State) (g : Nat) (f : Seg → Seg) : (s.modSeg g f).wm = s.wm := by simp [State.modSeg]
@[simp] theorem State.countAssociated_wm (s : State) (g : Nat) : (s.countAssociated g).wm = s.wm := by
  simp [State.countAssociated]
@[simp] theorem State.journalEp_wm (s : State) (i : Nat) : (s.journalEp i).wm = s.wm := by simp [State.journalEp]
@[simp] theorem State.countPages_wm (s : State) : s.countPages.wm = s.wm := by simp [State.countPages]
@[simp] theorem State.freeHandles_wm (s : State) (hs : List Nat) : (s.freeHandles hs).wm = s.wm := by simp [State.freeHandles]
@[simp] theorem State.freeEpPages_wm (s : State) (i : Nat) : (s.freeEpPages i).wm = s.wm := by simp [State.freeEpPages]
@[simp] theorem State.driftUpdate_wm (s : State) (i : Nat) (h : Heard1) : (s.driftUpdate i h).1.wm = s.wm := by
  simp only [State.driftUpdate]
  split <;> simp
@[simp] theorem State.enqueue_wm (s : State) (d : Down) : (s.enqueue d).wm = s.wm := by simp [State.enqueue]
@[simp] theorem State.callWake_wm (s : State) (i pri : Nat) : (s.callWake i pri).wm = s.wm := by simp [State.callWake]
@[simp] theorem State.toEntry_wm (s : State) (i type pri : Nat) (kind : DownKind) (body : List Byte) (lane : Bool) :
    (s.toEntry i type pri kind body lane).wm = s.wm := by
  simp [State.toEntry]
@[simp] theorem State.sendCommand_wm (s : State) (i : Nat) (kind : DownKind) (body : List Byte) :
    (s.sendCommand i kind body).wm = s.wm := by
  simp [State.sendCommand]
@[simp] theorem State.modDown_wm (s : State) (id : Nat) (f : Down → Down) : (s.modDown id f).wm = s.wm := by simp [State.modDown]
@[simp] theorem State.withdraw_wm (s : State) (p : Down → Bool) : (s.withdraw p).wm = s.wm := by simp [State.withdraw]

/-! Machine/FlashCells. -/

@[simp] theorem State.ledgerPut_wm (s : State) (body : SectorBody) (good : Bool) : (s.ledgerPut body good).wm = s.wm := by
  unfold State.ledgerPut
  split <;> simp
@[simp] theorem State.cutOp_wm (s : State) (op : FlashOp) : (s.cutOp op).wm = s.wm := by
  unfold State.cutOp
  split <;> simp
@[simp] theorem State.cutFlash_wm (s : State) : s.cutFlash.wm = s.wm := by simp [State.cutFlash]

/-! Machine/Reset. -/

@[simp] theorem State.setCause_wm (s : State) (c : Cause) (core memory detail : Nat) :
    (s.setCause c core memory detail).wm = s.wm := by
  simp [State.setCause]

/-! Machine/Queues. -/

@[simp] theorem State.queueWrite_wm (s : State) (q word : Nat) (endMark : Bool) (packetWords user : Nat) :
    (s.queueWrite q word endMark packetWords user).wm = s.wm := by
  simp [State.queueWrite]
@[simp] theorem State.queueDrain_wm (s : State) (q n : Nat) : (s.queueDrain q n).wm = s.wm := by
  induction n generalizing s with
  | zero => rfl
  | succ n ih =>
    unfold State.queueDrain
    split
    · rfl
    · simp [ih]
@[simp] theorem State.queueTake_wm (s : State) (q user : Nat) : (s.queueTake q user).wm = s.wm := by
  unfold State.queueTake
  split <;> simp

/-! Machine/Keys. -/

@[simp] theorem State.modSlot_wm (s : State) (i : Nat) (f : KeySlot → KeySlot) : (s.modSlot i f).wm = s.wm := by
  simp [State.modSlot]
@[simp] theorem State.slotSettle_wm (s : State) (i : Nat) : (s.slotSettle i).wm = s.wm := by simp [State.slotSettle]
@[simp] theorem State.slotUse_wm (s : State) (i : Nat) : (s.slotUse i).wm = s.wm := by simp [State.slotUse]
@[simp] theorem State.takeFc_wm (s : State) (i : Nat) : (s.takeFc i).2.wm = s.wm := by simp [State.takeFc]
@[simp] theorem State.slotInstall_wm (s : State) (i : Nat) (key : List Byte) (fcStart fp : Nat) :
    (s.slotInstall i key fcStart fp).wm = s.wm := by
  simp [State.slotInstall]
@[simp] theorem State.slotClear_wm (s : State) (i : Nat) : (s.slotClear i).wm = s.wm := by simp [State.slotClear]
@[simp] theorem State.shadowSettle_wm (s : State) (i : Nat) : (s.shadowSettle i).wm = s.wm := by simp [State.shadowSettle]
@[simp] theorem State.vaultRun_wm (s : State) (agree : Bool) : (s.vaultRun agree).2.wm = s.wm := by simp [State.vaultRun]
@[simp] theorem State.vaultValue_wm (s : State) (fn : VaultFn) : (s.vaultValue fn).2.wm = s.wm := by
  unfold State.vaultValue
  split <;> simp
@[simp] theorem State.vaultOp_wm (s : State) (o : VaultOp) : (s.vaultOp o).wm = s.wm := by
  simp only [State.vaultOp]
  repeat' split
  all_goals simp
@[simp] theorem State.loadRefused_wm (s : State) (i : Nat) : (s.loadRefused i).state.wm = s.wm := by simp [State.loadRefused]
@[simp] theorem State.unwrapUse_wm (s : State) (i : Nat) : (s.unwrapUse i).wm = s.wm := by simp [State.unwrapUse]
@[simp] theorem State.keyLoad_wm (s : State) (i : Nat) (data : List Byte) (env : WriteEnv) :
    (s.keyLoad i data env).state.wm = s.wm := by
  simp only [State.keyLoad]
  repeat' split
  all_goals simp
@[simp] theorem State.boundWrite_wm (s : State) (i eui : Nat) : (s.boundWrite i eui).state.wm = s.wm := by simp [State.boundWrite]
@[simp] theorem State.vaultClear_wm (s : State) (value : Nat) : (s.vaultClear value).state.wm = s.wm := by simp [State.vaultClear]
@[simp] theorem State.admitWrite_wm (s : State) (data : List Byte) : (s.admitWrite data).state.wm = s.wm := by
  simp only [State.admitWrite]
  repeat' split
  all_goals simp
@[simp] theorem State.admitMode_wm (s : State) (mode : Nat) : (s.admitMode mode).state.wm = s.wm := by simp [State.admitMode]

/-! Machine/Engines. -/

@[simp] theorem State.modEngine_wm (s : State) (e : Nat) (f : Engine → Engine) : (s.modEngine e f).wm = s.wm := by
  simp [State.modEngine]
@[simp] theorem State.openingEnds_wm (s : State) (r : CipherReq) (key : List Byte) (code : EndCode) :
    (s.openingEnds r key code).wm = s.wm := by
  unfold State.openingEnds
  split <;> simp
@[simp] theorem State.outPacket_wm (s : State) (e : Nat) (m : CipherMsg) (code : EndCode) : (s.outPacket e m code).wm = s.wm := by
  simp [State.outPacket]
@[simp] theorem State.closeMsg_wm (s : State) (e : Nat) (m : CipherMsg) (code : EndCode) : (s.closeMsg e m code).wm = s.wm := by
  unfold State.closeMsg
  repeat' split
  all_goals simp
@[simp] theorem State.endUse_wm (s : State) (m : CipherMsg) (code : EndCode) : (s.endUse m code).wm = s.wm := by
  unfold State.endUse
  repeat' split
  all_goals simp
@[simp] theorem State.startMsg_wm (s : State) (e : Nat) (r : CipherReq) : (s.startMsg e r).wm = s.wm := by simp [State.startMsg]
@[simp] theorem State.refuseMsg_wm (s : State) (e : Nat) (r : CipherReq) (code : EndCode) : (s.refuseMsg e r code).wm = s.wm := by
  simp [State.refuseMsg]
@[simp] theorem State.runDescriptor_wm (s : State) (e : Nat) (r : CipherReq) : (s.runDescriptor e r).wm = s.wm := by
  simp [State.runDescriptor]
@[simp] theorem State.suspend_wm (s : State) (e : Nat) (r : CipherReq) : (s.suspend e r).wm = s.wm := by simp [State.suspend]
theorem State.grant?_wm (s : State) (r : CipherReq) (avoid : Option Nat) : ∀ t ∈ s.grant? r avoid, t.wm = s.wm := by
  unfold State.grant?
  repeat' split
  all_goals simp
@[simp] theorem State.serveWaiting_wm (s : State) (n : Nat) : (s.serveWaiting n).wm = s.wm := by
  induction n generalizing s with
  | zero => rfl
  | succ n ih =>
    unfold State.serveWaiting
    split
    next r t h =>
      obtain ⟨r, -, hr⟩ := List.exists_of_findSome?_eq_some h
      obtain ⟨t, ht, ⟨⟩⟩ := Option.map_eq_some_iff.1 hr
      simp [ih, s.grant?_wm r none t ht]
    next => rfl
@[simp] theorem State.serve_wm (s : State) : s.serve.wm = s.wm := by simp [State.serve]
@[simp] theorem State.engineRequest_wm (s : State) (r : CipherReq) (avoid : Option Nat) : (s.engineRequest r avoid).wm = s.wm := by
  unfold State.engineRequest
  split
  next t h => exact s.grant?_wm r avoid t h
  next => simp
@[simp] theorem State.endMsg_wm (s : State) (e : Nat) (code : EndCode) : (s.endMsg e code).wm = s.wm := by
  unfold State.endMsg
  split <;> simp
@[simp] theorem State.endSeam_wm (s : State) (e : Nat) (code : EndCode) : (s.endSeam e code).wm = s.wm := by
  unfold State.endSeam
  split <;> simp
@[simp] theorem State.ownerWrite_wm (s : State) (e user value : Nat) : (s.ownerWrite e user value).wm = s.wm := by
  simp [State.ownerWrite]
@[simp] theorem State.lockOut_wm (s : State) (e : Nat) : (s.lockOut e).wm = s.wm := by
  simp only [State.lockOut]
  split <;> simp
@[simp] theorem State.blockMismatch_wm (s : State) (e : Nat) (m : CipherMsg) : (s.blockMismatch e m).wm = s.wm := by
  simp [State.blockMismatch]
@[simp] theorem State.cipherBlock_wm (s : State) (e : Nat) (matched : Bool) (dummyRounds released held : Nat) :
    (s.cipherBlock e matched dummyRounds released held).wm = s.wm := by
  unfold State.cipherBlock
  split <;> simp
@[simp] theorem State.faultClear_wm (s : State) (e value : Nat) : (s.faultClear e value).state.wm = s.wm := by
  simp [State.faultClear]
@[simp] theorem State.withdrawWork_wm (s : State) (mine : CipherReq → Bool) : (s.withdrawWork mine).wm = s.wm := by
  unfold State.withdrawWork
  refine State.foldl_wm _ _ _ fun t e => ?_
  extract_lets u
  have hu : u.wm = t.wm := by
    simp only [u]
    split <;> simp
  split <;> simp [hu]
@[simp] theorem State.withdrawOpenings_wm (s : State) (x : Nat) : (s.withdrawOpenings x).wm = s.wm := by
  simp [State.withdrawOpenings]
@[simp] theorem State.eraseMsgs_wm (s : State) (i : Nat) : (s.eraseMsgs i).wm = s.wm := by
  unfold State.eraseMsgs
  refine State.foldl_wm _ _ _ fun t e => ?_
  extract_lets u
  have hu : u.wm = t.wm := by
    simp only [u]
    split <;> simp
  split <;> simp [hu]
@[simp] theorem State.slotErase_wm (s : State) (i : Nat) : (s.slotErase i).wm = s.wm := by simp [State.slotErase]

/-! Machine/Flash. -/

@[simp] theorem State.commitVersion_wm (s : State) (value : Nat) : (s.commitVersion value).state.wm = s.wm := by
  simp [State.commitVersion]
@[simp] theorem State.rootRevoke_wm (s : State) (k : Nat) : (s.rootRevoke k).state.wm = s.wm := by simp [State.rootRevoke]
@[simp] theorem State.imageWrite_wm (s : State) (data : List Byte) : (s.imageWrite data).state.wm = s.wm := by
  simp [State.imageWrite]
@[simp] theorem State.imageVerify_wm (s : State) (value : Nat) (vaultOk : Bool) :
    (s.imageVerify value vaultOk).state.wm = s.wm := by
  simp [State.imageVerify]
@[simp] theorem State.putSnapshot_wm (s : State) (recs : List EpRec) : (s.putSnapshot recs).wm = s.wm := by
  simp [State.putSnapshot]
@[simp] theorem State.putAdmission_wm (s : State) (n : Nat) (rs : List AdmRec) : (s.putAdmission n rs).wm = s.wm := by
  induction n generalizing s rs with
  | zero => rfl
  | succ n ih => simp [State.putAdmission, ih]
@[simp] theorem State.reserved_wm (s : State) (r : ResRec) : (s.reserved r).wm = s.wm := by simp [State.reserved]
@[simp] theorem State.flashDone_wm (s : State) (op : FlashOp) : (s.flashDone op).wm = s.wm := by
  unfold State.flashDone
  split <;> simp
@[simp] theorem State.flashFailed_wm (s : State) (op : FlashOp) (rest : List FlashOp) : (s.flashFailed op rest).wm = s.wm := by
  unfold State.flashFailed
  split <;> simp
@[simp] theorem State.flashWriteDone_wm (s : State) (ok : Bool) : (s.flashWriteDone ok).wm = s.wm := by
  unfold State.flashWriteDone
  split <;> simp
@[simp] theorem State.fcReservation_wm (s : State) (i : Nat) : (s.fcReservation i).wm = s.wm := by simp [State.fcReservation]

/-! Machine/Time. -/

@[simp] theorem State.rebase_wm (s : State) (c : Int) : (s.rebase c).wm = s.wm := by simp [State.rebase]
@[simp] theorem State.stepTime_wm (s : State) (delta : Int) (state : Nat) : (s.stepTime delta state).wm = s.wm := by
  simp [State.stepTime]
@[simp] theorem State.coast_wm (s : State) : s.coast.wm = s.wm := by simp [State.coast]
@[simp] theorem State.slew_wm (s : State) : s.slew.wm = s.wm := by simp [State.slew]
@[simp] theorem State.track_wm (s : State) : s.track.wm = s.wm := by simp [State.track]
@[simp] theorem State.measure_wm (s : State) (off : Int) : (s.measure off).wm = s.wm := by simp [State.measure]
@[simp] theorem State.coastIfGone_wm (s : State) : s.coastIfGone.wm = s.wm := by simp [State.coastIfGone]
@[simp] theorem State.sourceLoss_wm (s : State) (kind : LossKind) : (s.sourceLoss kind).wm = s.wm := by
  unfold State.sourceLoss
  repeat' split
  all_goals simp
@[simp] theorem State.timeSet_wm (s : State) (value : Nat) : (s.timeSet value).state.wm = s.wm := by
  unfold State.timeSet
  split <;> simp
@[simp] theorem State.ppsInvalid_wm (s : State) : s.ppsInvalid.wm = s.wm := by simp [State.ppsInvalid]
@[simp] theorem State.ppsDiscipline_wm (s : State) : s.ppsDiscipline.wm = s.wm := by
  unfold State.ppsDiscipline
  split <;> simp
@[simp] theorem State.ppsEdge_wm (s : State) : s.ppsEdge.wm = s.wm := by simp [State.ppsEdge]
@[simp] theorem State.ppsTimeout_wm (s : State) : s.ppsTimeout.wm = s.wm := by
  unfold State.ppsTimeout
  split
  · rfl
  · extract_lets t
    have ht : t.wm = s.wm := (State.modTime_wm ..).trans (State.atDeadline_wm ..)
    split <;> simp [ht]
@[simp] theorem State.ppsRise_wm (s : State) : s.ppsRise.wm = s.wm := by simp [State.ppsRise]

/-! Machine/Backhaul. -/

@[simp] theorem State.modPort_wm (s : State) (p : Nat) (f : Port → Port) : (s.modPort p f).wm = s.wm := by simp [State.modPort]
@[simp] theorem State.linkComesUp_wm (s : State) (p : Nat) : (s.linkComesUp p).wm = s.wm := by simp [State.linkComesUp]
@[simp] theorem State.linkGoesDown_wm (s : State) (p : Nat) : (s.linkGoesDown p).wm = s.wm := by simp [State.linkGoesDown]
@[simp] theorem State.startTx_wm (s : State) (p n : Nat) : (s.startTx p n).wm = s.wm := by
  induction n generalizing s with
  | zero => rfl
  | succ n ih =>
    simp only [State.startTx]
    split
    · simp
    · split
      · simp [ih]
      · split <;> simp
@[simp] theorem State.portSend_wm (s : State) (p : Nat) (x : TxItem) : (s.portSend p x).wm = s.wm := by simp [State.portSend]
@[simp] theorem State.nbSend_wm (s : State) (k pri : Nat) (msg : List Byte) : (s.nbSend k pri msg).wm = s.wm := by
  simp [State.nbSend]
@[simp] theorem State.nbResume_wm (s : State) : s.nbResume.wm = s.wm := by simp [State.nbResume]
@[simp] theorem State.txEnd_wm (s : State) (p : Nat) : (s.txEnd p).wm = s.wm := by
  unfold State.txEnd
  split <;> simp
@[simp] theorem State.frameRx_wm (s : State) (p : Nat) (f : EthFrame) : (s.frameRx p f).wm = s.wm := by
  unfold State.frameRx
  split <;> simp
@[simp] theorem State.resolve_wm (s : State) (p : Nat) (kind : ResolveKind) (target : List Byte) :
    (s.resolve p kind target).wm = s.wm := by
  unfold State.resolve
  split <;> simp
@[simp] theorem State.echo_wm (s : State) (p : Nat) : (s.echo p).wm = s.wm := by simp [State.echo]
@[simp] theorem State.datagram_wm (s : State) (d : NbDatagram) : (s.datagram d).wm = s.wm := by
  simp only [State.datagram]
  repeat' split
  all_goals simp
@[simp] theorem State.sessionChanged_wm (s : State) (k : Nat) : (s.sessionChanged k).wm = s.wm := by simp [State.sessionChanged]
@[simp] theorem State.ptpOut_wm (s : State) (k : PtpKind) : (s.ptpOut k).wm = s.wm := by simp [State.ptpOut]
@[simp] theorem State.ptpMeasure_wm (s : State) (off : Int) : (s.ptpMeasure off).wm = s.wm := by simp [State.ptpMeasure]
@[simp] theorem State.modPtp_wm (s : State) (f : PtpClock → PtpClock) : (s.modPtp f).wm = s.wm := by simp [State.modPtp]
@[simp] theorem State.ptpOffset_wm (s : State) (t2 t1 : Int) : (s.ptpOffset t2 t1).wm = s.wm := by
  simp only [State.ptpOffset]
  split <;> simp
@[simp] theorem State.ptpSync_wm (s : State) (m : PtpMsg) : (s.ptpSync m).wm = s.wm := by simp [State.ptpSync]
@[simp] theorem State.ptpFollowUp_wm (s : State) (m : PtpMsg) : (s.ptpFollowUp m).wm = s.wm := by
  unfold State.ptpFollowUp
  split <;> simp
@[simp] theorem State.ptpDelayResp_wm (s : State) (m : PtpMsg) : (s.ptpDelayResp m).wm = s.wm := by
  unfold State.ptpDelayResp
  split <;> simp
@[simp] theorem State.ptpLinkDelay_wm (s : State) (t1 t4 turn : Int) : (s.ptpLinkDelay t1 t4 turn).wm = s.wm := by
  simp [State.ptpLinkDelay]
@[simp] theorem State.ptpPeerResp_wm (s : State) (m : PtpMsg) : (s.ptpPeerResp m).wm = s.wm := by
  unfold State.ptpPeerResp
  split <;> simp
@[simp] theorem State.ptpPeerFollowUp_wm (s : State) (m : PtpMsg) : (s.ptpPeerFollowUp m).wm = s.wm := by
  unfold State.ptpPeerFollowUp
  split <;> simp
@[simp] theorem State.ptpAnnounce_wm (s : State) (m : PtpMsg) : (s.ptpAnnounce m).wm = s.wm := by simp [State.ptpAnnounce]
@[simp] theorem State.ptpRx_wm (s : State) (m : PtpMsg) : (s.ptpRx m).wm = s.wm := by
  unfold State.ptpRx
  repeat' split
  all_goals simp
@[simp] theorem State.ptpRequest_wm (s : State) (k : PtpKind) (tx16 : Nat) : (s.ptpRequest k tx16).wm = s.wm := by
  simp [State.ptpRequest]
@[simp] theorem State.ptpSend_wm (s : State) (k : PtpKind) (tx16 : Nat) : (s.ptpSend k tx16).wm = s.wm := by
  unfold State.ptpSend
  split <;> simp

/-! Machine/Drv. -/

@[simp] theorem State.modPeer_wm (s : State) (d : Nat) (f : Peer → Peer) : (s.modPeer d f).wm = s.wm := by simp [State.modPeer]
@[simp] theorem State.drvSend_wm (s : State) (type : Nat) (peer : Option Nat) (body : List Byte) :
    (s.drvSend type peer body).wm = s.wm := by
  simp [State.drvSend]

/-! Machine/Tide. -/

@[simp] theorem State.mainsCycle_wm (s : State) : s.mainsCycle.wm = s.wm := by
  simp only [State.mainsCycle]
  split <;> simp
@[simp] theorem State.modTideTable_wm (s : State) (n : Nat) (f : TideTable → TideTable) : (s.modTideTable n f).wm = s.wm := by
  simp [State.modTideTable]
@[simp] theorem State.modTide_wm (s : State) (n i : Nat) (f : TideSlot → TideSlot) : (s.modTide n i f).wm = s.wm := by
  simp [State.modTide]
@[simp] theorem State.clearTide_wm (s : State) (n : Nat) : (s.clearTide n).wm = s.wm := by simp [State.clearTide]
@[simp] theorem State.windowPower_wm (s : State) (n : Nat) (seen : List (Int × Int)) : (s.windowPower n seen).2.wm = s.wm := by
  unfold State.windowPower
  extract_lets
  split <;> rfl
@[simp] theorem State.observationWindow_wm (s : State) (n first : Nat) (seen : Option (List (Int × Int))) :
    (s.observationWindow n first seen).wm = s.wm := by
  unfold State.observationWindow
  split <;> simp
@[simp] theorem State.idleBlock_wm (s : State) (n first : Nat) (samples : List Int) :
    (s.idleBlock n first samples).wm = s.wm := by
  unfold State.idleBlock
  split <;> simp
@[simp] theorem State.slotClass_wm (s : State) (n i : Nat) : (s.slotClass n i).2.wm = s.wm := by simp [State.slotClass]
@[simp] theorem State.tideObserved_wm (s : State) (n i power rate : Nat) : (s.tideObserved n i power rate).wm = s.wm := by
  simp [State.tideObserved]
@[simp] theorem State.tideMissed_wm (s : State) (n i : Nat) : (s.tideMissed n i).wm = s.wm := by
  simp only [State.tideMissed]
  repeat' split
  all_goals simp
@[simp] theorem State.tideSlotEnd_wm (s : State) (n i : Nat) : (s.tideSlotEnd n i).wm = s.wm := by simp [State.tideSlotEnd]
@[simp] theorem State.tideReport_wm (s : State) (i : Nat) (body : List Byte) : (s.tideReport i body).wm = s.wm := by
  simp [State.tideReport]
@[simp] theorem State.takeCommitted_wm (s : State) (i : Nat) (body : List Byte) : (s.takeCommitted i body).wm = s.wm := by
  simp [State.takeCommitted]

/-! Machine/Maps. -/

@[simp] theorem State.takePage_wm (s : State) (i : Nat) (down : Bool) (r : MapRecord) : (s.takePage i down r).2.wm = s.wm := by
  unfold State.takePage
  repeat' split
  all_goals simp
@[simp] theorem State.takePages_wm (s : State) (i : Nat) (down : Bool) (rs : List MapRecord) :
    (s.takePages i down rs).2.wm = s.wm := by
  unfold State.takePages
  refine State.foldl_snd_wm _ _ _ fun a c => ?_
  split <;> simp
@[simp] theorem State.mapResponse_wm (s : State) (i : Nat) (body : List Byte) : (s.mapResponse i body).wm = s.wm := by
  unfold State.mapResponse
  split <;> simp
@[simp] theorem State.startSounding_wm (s : State) (i : Nat) : (s.startSounding i).wm = s.wm := by simp [State.startSounding]
@[simp] theorem State.soundRequest_wm (s : State) (i : Nat) (body : List Byte) : (s.soundRequest i body).wm = s.wm := by
  simp [State.soundRequest]
@[simp] theorem State.soundTimeout_wm (s : State) (i : Nat) : (s.soundTimeout i).wm = s.wm := by
  unfold State.soundTimeout
  split <;> simp
@[simp] theorem State.soundingComplete_wm (s : State) (i : Nat) (heard : List SoundSeen) :
    (s.soundingComplete i heard).wm = s.wm := by
  unfold State.soundingComplete
  split <;> simp
@[simp] theorem State.installUp_wm (s : State) (i : Nat) : (s.installUp i).wm = s.wm := by simp [State.installUp]
@[simp] theorem State.mapRefresh_wm (s : State) (i : Nat) : (s.mapRefresh i).wm = s.wm := by
  unfold State.mapRefresh
  split <;> simp
@[simp] theorem State.maskChanged_wm (s : State) (g : Nat) : (s.maskChanged g).wm = s.wm := by simp [State.maskChanged]
@[simp] theorem State.ceWatch_wm (s : State) (i c snr : Nat) : (s.ceWatch i c snr).wm = s.wm := by
  simp only [State.ceWatch]
  split <;> simp
@[simp] theorem State.crcWatch_wm (s : State) (i c : Nat) (failed : Bool) : (s.crcWatch i c failed).wm = s.wm := by
  simp [State.crcWatch]
@[simp] theorem State.mapAckWatch_wm (s : State) (i c : Nat) (acked : Bool) : (s.mapAckWatch i c acked).wm = s.wm := by
  simp [State.mapAckWatch]

/-! Machine/Routes. -/

@[simp] theorem State.sendRouteSet_wm (s : State) (i : Nat) (routes : List (List Nat)) : (s.sendRouteSet i routes).wm = s.wm := by
  unfold State.sendRouteSet
  split <;> simp
@[simp] theorem State.recomputeRoutes_wm (s : State) (g : Nat) : (s.recomputeRoutes g).wm = s.wm := by
  simp [State.recomputeRoutes]
@[simp] theorem State.hopsGiven_wm (s : State) (i : Nat) (r : List (Nat × Nat)) : (s.hopsGiven i r).wm = s.wm := by
  simp [State.hopsGiven]
@[simp] theorem State.neighbourReport_wm (s : State) (i : Nat) (body : List Byte) : (s.neighbourReport i body).wm = s.wm := by
  unfold State.neighbourReport
  split <;> simp
@[simp] theorem State.routeInterval_wm (s : State) (g : Nat) : (s.routeInterval g).wm = s.wm := by simp [State.routeInterval]

/-! Machine/TxnCore. -/

@[simp] theorem State.modTxnRec_wm (s : State) (k : Nat) (f : Txn → Txn) : (s.modTxnRec k f).wm = s.wm := by
  simp [State.modTxnRec]
@[simp] theorem State.countRecords_wm (s : State) : s.countRecords.wm = s.wm := by simp [State.countRecords]
@[simp] theorem State.txnEmit_wm (s : State) (k : Nat) (t : Txn) (msg : List Byte) : (s.txnEmit k t msg).wm = s.wm := by
  unfold State.txnEmit
  split <;> simp
@[simp] theorem State.txnSend_wm (s : State) (k type : Nat) (final : Bool) (body : List Byte) :
    (s.txnSend k type final body).wm = s.wm := by
  unfold State.txnSend
  split <;> simp
@[simp] theorem State.strayAnswer_wm (s : State) (session pri id cause : Nat) :
    (s.strayAnswer session pri id cause).wm = s.wm := by
  simp [State.strayAnswer]
@[simp] theorem State.countLeg_wm (s : State) (pri outcome cause : Nat) : (s.countLeg pri outcome cause).wm = s.wm := by
  simp [State.countLeg]
@[simp] theorem State.flushOpen_wm (s : State) (k : Nat) (final : Bool) : (s.flushOpen k final).wm = s.wm := by
  unfold State.flushOpen
  split <;> simp
@[simp] theorem State.packRecord_wm (s : State) (k : Nat) (r : List Byte) : (s.packRecord k r).wm = s.wm := by
  unfold State.packRecord
  split <;> simp
@[simp] theorem State.evict_wm (s : State) (n : Nat) : (s.evict n).wm = s.wm := by
  induction n generalizing s with
  | zero => rfl
  | succ n ih =>
    unfold State.evict
    split
    · rfl
    · split <;> simp [ih]
@[simp] theorem State.finishTxn_wm (s : State) (k : Nat) : (s.finishTxn k).wm = s.wm := by
  unfold State.finishTxn
  split <;> simp
@[simp] theorem State.modLeg_wm (s : State) (k j : Nat) (f : Leg → Leg) : (s.modLeg k j f).wm = s.wm := by simp [State.modLeg]
@[simp] theorem State.withdrawLeg_wm (s : State) (k j : Nat) : (s.withdrawLeg k j).wm = s.wm := by simp [State.withdrawLeg]
@[simp] theorem State.endLeg_wm (s : State) (k j outcome cause : Nat) : (s.endLeg k j outcome cause).wm = s.wm := by
  unfold State.endLeg
  split
  · split
    · rfl
    · extract_lets a b c d e fin g
      have hg : g.wm = s.wm := by simp [g, e, d, c, b, a]
      split <;> simp [hg]
  · rfl
@[simp] theorem State.commitLeg_wm (s : State) (k j : Nat) : (s.commitLeg k j).wm = s.wm := by
  unfold State.commitLeg
  split <;> simp
@[simp] theorem State.countRouteless_wm (s : State) (i : Option Nat) : (s.countRouteless i).wm = s.wm := by
  unfold State.countRouteless
  split <;> simp
@[simp] theorem State.refuseLeg_wm (s : State) (k j cause : Nat) : (s.refuseLeg k j cause).wm = s.wm := by simp [State.refuseLeg]
@[simp] theorem State.refill_wm (s : State) : s.refill.wm = s.wm := by simp [State.refill]
@[simp] theorem State.takeTokens_wm (s : State) (c n : Nat) : (s.takeTokens c n).wm = s.wm := by simp [State.takeTokens]
@[simp] theorem State.sendFragments_wm (s : State) (k j : Nat) : (s.sendFragments k j).wm = s.wm := by
  unfold State.sendFragments
  repeat' split
  all_goals simp
@[simp] theorem State.startLeg_wm (s : State) (k j : Nat) : (s.startLeg k j).wm = s.wm := by
  unfold State.startLeg
  repeat' split
  all_goals simp
@[simp] theorem State.resumeLeg_wm (s : State) (k j : Nat) : (s.resumeLeg k j).wm = s.wm := by
  unfold State.resumeLeg
  repeat' split
  all_goals simp
@[simp] theorem State.holdLegs_wm (s : State) (i : Nat) : (s.holdLegs i).wm = s.wm := by simp [State.holdLegs]
@[simp] theorem State.dropBridge_wm (s : State) (d : Down) : (s.dropBridge d).wm = s.wm := by simp [State.dropBridge]
@[simp] theorem State.startBridge_wm (s : State) (d : Down) (i : Nat) : (s.startBridge d i).wm = s.wm := by
  simp [State.startBridge]
@[simp] theorem State.judgeBridge_wm (s : State) (d : Down) : (s.judgeBridge d).wm = s.wm := by
  unfold State.judgeBridge
  repeat' split
  all_goals simp
@[simp] theorem State.resumeLegs_wm (s : State) (i : Nat) : (s.resumeLegs i).wm = s.wm := by simp [State.resumeLegs]
@[simp] theorem State.endTry_wm (s : State) (k j cause : Nat) : (s.endTry k j cause).wm = s.wm := by
  simp only [State.endTry]
  repeat' split
  all_goals simp
@[simp] theorem State.fragAcked_wm (s : State) (k j q : Nat) (last : Bool) : (s.fragAcked k j q last).wm = s.wm := by
  unfold State.fragAcked
  repeat' split
  all_goals simp
@[simp] theorem State.fragAbandoned_wm (s : State) (k j : Nat) : (s.fragAbandoned k j).wm = s.wm := by simp [State.fragAbandoned]
@[simp] theorem State.refuseLegs_wm (s : State) (i cause : Nat) (p : Leg → Bool) : (s.refuseLegs i cause p).wm = s.wm :=
  State.foldl_wm _ _ _ fun t l => by split <;> simp

/-! Machine/Assoc. -/

@[simp] theorem State.dropBridged_wm (s : State) (i : Nat) : (s.dropBridged i).wm = s.wm := by simp [State.dropBridged]
@[simp] theorem State.withdrawEntry_wm (s : State) (i : Nat) : (s.withdrawEntry i).wm = s.wm := by simp [State.withdrawEntry]
@[simp] theorem State.expireWith_wm (s : State) (i cause : Nat) : (s.expireWith i cause).wm = s.wm := by simp [State.expireWith]
@[simp] theorem State.expire_wm (s : State) (i : Nat) : (s.expire i).wm = s.wm := by simp [State.expire]
@[simp] theorem State.freeEntry_wm (s : State) (i : Nat) : (s.freeEntry i).wm = s.wm := by simp [State.freeEntry]
@[simp] theorem State.associate_wm (s : State) (i : Nat) : (s.associate i).wm = s.wm := by simp [State.associate]
@[simp] theorem State.leaseExpiry_wm (s : State) (i : Nat) : (s.leaseExpiry i).wm = s.wm := by simp [State.leaseExpiry]
@[simp] theorem State.holdExpiry_wm (s : State) (i : Nat) : (s.holdExpiry i).wm = s.wm := by simp [State.holdExpiry]
@[simp] theorem State.relayedTimeout_wm (s : State) (i : Nat) : (s.relayedTimeout i).wm = s.wm := by simp [State.relayedTimeout]
@[simp] theorem State.joinKey_wm (s : State) (eui : Nat) : (s.joinKey eui).2.wm = s.wm := by
  unfold State.joinKey
  split <;> simp
@[simp] theorem State.admitted_wm (s : State) (eui : Nat) : (s.admitted eui).2.2.wm = s.wm := by
  simp only [State.admitted]
  split <;> simp
@[simp] theorem State.sendAssocResponse_wm (s : State) (g : Nat) (entry via : Option Nat) (body : List Byte) :
    (s.sendAssocResponse g entry via body).wm = s.wm := by
  simp [State.sendAssocResponse]
@[simp] theorem State.withdrawResponse_wm (s : State) (i : Nat) : (s.withdrawResponse i).wm = s.wm := by
  simp [State.withdrawResponse]
@[simp] theorem State.restartQueue_wm (s : State) (i : Nat) : (s.restartQueue i).wm = s.wm := by simp [State.restartQueue]
@[simp] theorem State.grant_wm (s : State) (g i addr : Nat) (r : AssocReq) (q : Request) (jk : Option (List Byte)) :
    (s.grant g i addr r q jk).wm = s.wm := by
  simp [State.grant]
@[simp] theorem State.refuseAssoc_wm (s : State) (g result : Nat) (r : AssocReq) (q : Request) :
    (s.refuseAssoc g result r q).wm = s.wm := by
  simp [State.refuseAssoc]
@[simp] theorem State.assocDecide_wm (s : State) (g : Nat) (body : List Byte) : (s.assocDecide g body).2.wm = s.wm := by
  simp only [State.assocDecide]
  repeat' split
  all_goals simp
@[simp] theorem State.badCommand_wm (s : State) (i : Nat) : (s.badCommand i).wm = s.wm := by simp [State.badCommand]
@[simp] theorem State.leaseRenew_wm (s : State) (i : Nat) (body : List Byte) : (s.leaseRenew i body).wm = s.wm := by
  simp [State.leaseRenew]
@[simp] theorem State.allocRequest_wm (s : State) (i : Nat) (body : List Byte) : (s.allocRequest i body).wm = s.wm := by
  simp [State.allocRequest]
@[simp] theorem State.disassociated_wm (s : State) (i : Nat) (body : List Byte) : (s.disassociated i body).wm = s.wm := by
  simp [State.disassociated]
@[simp] theorem State.sendSleep_wm (s : State) (i : Nat) (x : Sleep) : (s.sendSleep i x).wm = s.wm := by simp [State.sendSleep]
@[simp] theorem State.sleepSchedule_wm (s : State) (i : Nat) (body : List Byte) : (s.sleepSchedule i body).wm = s.wm := by
  simp [State.sleepSchedule]
@[simp] theorem State.sleepAcked_wm (s : State) (i : Nat) (body : List Byte) (stop : Nat) :
    (s.sleepAcked i body stop).wm = s.wm := by
  simp [State.sleepAcked]
@[simp] theorem State.settleSleep_wm (s : State) (i : Nat) : (s.settleSleep i).wm = s.wm := by
  unfold State.settleSleep
  split <;> simp
@[simp] theorem State.openService_wm (s : State) (i : Nat) : (s.openService i).wm = s.wm := by simp [State.openService]
@[simp] theorem State.present_wm (s : State) (i : Nat) : (s.present i).wm = s.wm := by simp [State.present]
@[simp] theorem State.windowEnd_wm (s : State) (i : Nat) : (s.windowEnd i).wm = s.wm := by
  unfold State.windowEnd
  split <;> simp
@[simp] theorem State.adriftExpiry_wm (s : State) (i : Nat) : (s.adriftExpiry i).wm = s.wm := by
  unfold State.adriftExpiry
  split <;> simp
@[simp] theorem State.laneSfSet_wm (s : State) (i sf : Nat) : (s.laneSfSet i sf).wm = s.wm := by simp [State.laneSfSet]
@[simp] theorem State.longReachSet_wm (s : State) (i mode sf : Nat) : (s.longReachSet i mode sf).wm = s.wm := by
  simp [State.longReachSet]
@[simp] theorem State.commandAcked_wm (s : State) (i : Nat) (body : List Byte) : (s.commandAcked i body).wm = s.wm := by
  simp [State.commandAcked]
@[simp] theorem State.cursorDisassociate_wm (s : State) (u value : Nat) : (s.cursorDisassociate u value).state.wm = s.wm := by
  unfold State.cursorDisassociate
  repeat' split
  all_goals simp

/-! Machine/Claims. -/

@[simp] theorem State.slotMapSend_wm (s : State) (g : Nat) : (s.slotMapSend g).wm = s.wm := by simp [State.slotMapSend]
@[simp] theorem State.claimResolve_wm (s : State) (g : Nat) : (s.claimResolve g).wm = s.wm := by
  unfold State.claimResolve
  split
  · rfl
  · exact ((((State.modSeg_wm ..).trans (State.bumpBy_wm ..)).trans (State.bumpBy_wm ..)).trans (State.bumpBy_wm ..)).trans
      (State.atDeadline_wm ..)

/-! Machine/Mpdu. -/

@[simp] theorem State.sealUnder_wm (s : State) (j pri tag seq : Nat) (body : List Byte) :
    (s.sealUnder j pri tag seq body).2.wm = s.wm := by
  simp [State.sealUnder]

/-! Machine/Tx. -/

@[simp] theorem State.readiness_wm (s : State) (f : Nat) (ready : List Nat) : (s.readiness f ready).wm = s.wm := by
  unfold State.readiness
  split <;> simp
@[simp] theorem State.judgeReady_wm (s : State) (f : Nat) (ready : List Nat) : (s.judgeReady f ready).wm = s.wm := by
  unfold State.judgeReady
  split <;> simp
@[simp] theorem State.countSending_wm (s : State) (f : TxFrame) (d : Down) : (s.countSending f d).wm = s.wm := by
  simp only [State.countSending]
  split <;> simp
@[simp] theorem State.startFrame_wm (s : State) (f : Nat) : (s.startFrame f).wm = s.wm := by
  unfold State.startFrame
  split <;> simp
@[simp] theorem State.hush_wm (s : State) (f : Nat) : (s.hush f).wm = s.wm := by
  unfold State.hush
  split <;> simp
@[simp] theorem State.frameStart_wm (s : State) (f : Nat) (ready : List Nat) : (s.frameStart f ready).wm = s.wm := by
  simp only [State.frameStart]
  repeat' split
  all_goals simp
@[simp] theorem State.doneUnacked_wm (s : State) (x : TxFrame) : (s.doneUnacked x).wm = s.wm := by simp [State.doneUnacked]
@[simp] theorem State.exchangeEnd_wm (s : State) (g t gap : Nat) : (s.exchangeEnd g t gap).wm = s.wm := by
  simp [State.exchangeEnd]
@[simp] theorem State.windLegs_wm (s : State) (g : Nat) : (s.windLegs g).wm = s.wm := by
  unfold State.windLegs
  split
  · rfl
  · refine (State.modSeg_wm _ _ _).trans (State.foldl_wm _ _ _ fun t i => State.foldl_wm _ _ _ fun u l => ?_)
    split <;> simp
@[simp] theorem State.afterFrame_wm (s : State) (f : Nat) (x : TxFrame) : (s.afterFrame f x).wm = s.wm := by
  unfold State.afterFrame
  repeat' split
  all_goals simp
@[simp] theorem State.frameEnd_wm (s : State) (f : Nat) : (s.frameEnd f).wm = s.wm := by
  unfold State.frameEnd
  split <;> simp
@[simp] theorem State.txBlankEnd_wm (s : State) (n : Nat) : (s.txBlankEnd n).wm = s.wm := by
  unfold State.txBlankEnd
  split <;> simp
@[simp] theorem State.txUnderrun_wm (s : State) (n : Nat) : (s.txUnderrun n).wm = s.wm := by
  unfold State.txUnderrun
  split <;> simp

/-! Machine/Lane. -/

@[simp] theorem State.takeSeq_wm (s : State) (i : Nat) : (s.takeSeq i).2.wm = s.wm := by simp [State.takeSeq]
@[simp] theorem State.giveSeq_wm (s : State) (i id : Nat) : (s.giveSeq i id).wm = s.wm := by
  unfold State.giveSeq
  split <;> simp
@[simp] theorem State.wireDown_wm (s : State) (j f id : Nat) (body : List Byte) : (s.wireDown j f id body).wm = s.wm := by
  unfold State.wireDown
  split <;> simp
@[simp] theorem State.rewake_wm (s : State) (x : TxFrame) : (s.rewake x).wm = s.wm := by
  unfold State.rewake
  split <;> simp
@[simp] theorem State.yieldWake_wm (s : State) (f : Nat) : (s.yieldWake f).wm = s.wm := by
  unfold State.yieldWake
  split <;> simp
@[simp] theorem State.putLane_wm (s : State) (i : Nat) (d : Down) (f : TxFrame) : (s.putLane i d f).wm = s.wm := by
  simp [State.putLane]
@[simp] theorem State.placeOn_wm (s : State) (d : Down) (i : Nat) (ns : List Nat) : (s.placeOn d i ns).wm = s.wm := by
  simp [State.placeOn]
@[simp] theorem State.lanePlace_wm (s : State) (id : Nat) : (s.lanePlace id).wm = s.wm := by
  unfold State.lanePlace
  repeat' split
  all_goals simp
@[simp] theorem State.abortLaneRx_wm (s : State) (ns : List Nat) : (s.abortLaneRx ns).wm = s.wm :=
  State.foldl_wm _ _ _ fun t n => by split <;> simp
@[simp] theorem State.laneStart_wm (s : State) (f : Nat) (ready : List Nat) : (s.laneStart f ready).wm = s.wm := by
  simp only [State.laneStart]
  repeat' split
  all_goals simp
@[simp] theorem State.putWake_wm (s : State) (i : Nat) (x : TxFrame) : (s.putWake i x).wm = s.wm := by simp [State.putWake]
@[simp] theorem State.decideWake_wm (s : State) (i : Nat) : (s.decideWake i).wm = s.wm := by
  simp only [State.decideWake]
  repeat' split
  all_goals simp
@[simp] theorem State.laneAgain_wm (s : State) : s.laneAgain.wm = s.wm := by simp [State.laneAgain]
@[simp] theorem State.wakeDone_wm (s : State) (x : TxFrame) : (s.wakeDone x).wm = s.wm := by
  unfold State.wakeDone
  split <;> simp
@[simp] theorem State.laneEnd_wm (s : State) (f : Nat) : (s.laneEnd f).wm = s.wm := by
  unfold State.laneEnd
  split <;> simp
@[simp] theorem State.laneBlankEnd_wm (s : State) (n : Nat) : (s.laneBlankEnd n).wm = s.wm := by
  unfold State.laneBlankEnd
  split <;> simp
@[simp] theorem State.takeLaneA_wm (s : State) (ns : List Nat) : (s.takeLaneA ns).wm = s.wm := by simp [State.takeLaneA]

/-! Machine/Beacon. -/

@[simp] theorem State.applyPeriodConfig_wm (s : State) (g : Nat) : (s.applyPeriodConfig g).wm = s.wm := by
  simp [State.applyPeriodConfig]
@[simp] theorem State.openWindows_wm (s : State) (g a b : Nat) : (s.openWindows g a b).wm = s.wm := by simp [State.openWindows]
@[simp] theorem State.countDeadlines_wm (s : State) (g : Nat) : (s.countDeadlines g).wm = s.wm := by simp [State.countDeadlines]
@[simp] theorem State.ageResponses_wm (s : State) (g : Nat) (placed : List Nat) : (s.ageResponses g placed).wm = s.wm := by
  unfold State.ageResponses
  refine (State.foldl_wm _ _ _ fun t r => ?_).trans (State.modSeg_wm _ _ _)
  split
  · rfl
  · simp only
    split <;> simp
@[simp] theorem State.armGaps_wm (s : State) (g : Nat) : (s.armGaps g).wm = s.wm := by simp [State.armGaps]
@[simp] theorem State.beacon_wm (s : State) (g : Nat) : (s.beacon g).wm = s.wm := by simp [State.beacon]
@[simp] theorem State.reachBeacon_wm (s : State) (g : Nat) : (s.reachBeacon g).wm = s.wm := by
  simp only [State.reachBeacon]
  split <;> simp

/-! Machine/Mains. -/

@[simp] theorem State.modUnit_wm (s : State) (u : Nat) (f : MainsUnit → MainsUnit) : (s.modUnit u f).wm = s.wm := by
  simp [State.modUnit]
@[simp] theorem State.restartUnit_wm (s : State) (u : Nat) : (s.restartUnit u).wm = s.wm := by simp [State.restartUnit]
@[simp] theorem State.applyMainsCfg_wm (s : State) (u : Nat) : (s.applyMainsCfg u).wm = s.wm := by simp [State.applyMainsCfg]
@[simp] theorem State.mainsConfigApply_wm (s : State) (u : Nat) : (s.mainsConfigApply u).wm = s.wm := by
  simp [State.mainsConfigApply]
@[simp] theorem State.mainsRestartWrite_wm (s : State) (u sub value : Nat) :
    (s.mainsRestartWrite u sub value).state.wm = s.wm := by
  simp [State.mainsRestartWrite]
@[simp] theorem State.mainsOverflow_wm (s : State) (u : Nat) : (s.mainsOverflow u).wm = s.wm := by simp [State.mainsOverflow]
@[simp] theorem State.startConversion_wm (s : State) (u e t d : Nat) (pended : Bool) :
    (s.startConversion u e t d pended).wm = s.wm := by
  simp [State.startConversion]
@[simp] theorem State.triggerLost_wm (s : State) (u : Nat) : (s.triggerLost u).wm = s.wm := by simp [State.triggerLost]
@[simp] theorem State.trigger_wm (s : State) (u e : Nat) : (s.trigger u e).wm = s.wm := by simp [State.trigger]
@[simp] theorem State.groupTrigger_wm (s : State) (e : Nat) : (s.groupTrigger e).wm = s.wm := by simp [State.groupTrigger]
@[simp] theorem State.leaveBusy_wm (s : State) (u : Nat) : (s.leaveBusy u).wm = s.wm := by
  simp only [State.leaveBusy]
  repeat' split
  all_goals simp
@[simp] theorem State.trigNow_wm (s : State) (u value : Nat) : (s.trigNow u value).state.wm = s.wm := by simp [State.trigNow]
@[simp] theorem State.groupTrigNow_wm (s : State) (value : Nat) : (s.groupTrigNow value).state.wm = s.wm := by
  simp [State.groupTrigNow]
@[simp] theorem State.triggerWho_wm (s : State) (w : TrigWho) (e : Nat) : (s.triggerWho w e).wm = s.wm := by
  unfold State.triggerWho
  split <;> simp
@[simp] theorem State.setLastSched_wm (s : State) (w : TrigWho) (m : Nat) : (s.setLastSched w m).wm = s.wm := by
  unfold State.setLastSched
  split <;> simp
@[simp] theorem State.scheduleTrigger_wm (s : State) (w : TrigWho) (m : Nat) : (s.scheduleTrigger w m).wm = s.wm := by
  simp [State.scheduleTrigger]
@[simp] theorem State.phaseTrigger_wm (s : State) (w : TrigWho) (cycle : Nat) : (s.phaseTrigger w cycle).wm = s.wm := by
  simp [State.phaseTrigger]
@[simp] theorem State.triggerAll_wm (s : State) (ws : List TrigWho) (e : Nat) : (s.triggerAll ws e).wm = s.wm := by
  simp [State.triggerAll]
@[simp] theorem State.ppsTrigger_wm (s : State) : s.ppsTrigger.wm = s.wm := by simp [State.ppsTrigger]
@[simp] theorem State.mctrigEdge_wm (s : State) (rising : Bool) : (s.mctrigEdge rising).wm = s.wm := by simp [State.mctrigEdge]
@[simp] theorem State.sendAlarm_wm (s : State) (u : Nat) (a : Alarm) : (s.sendAlarm u a).wm = s.wm := by simp [State.sendAlarm]
@[simp] theorem State.alarm_wm (s : State) (u : Nat) (a : Alarm) : (s.alarm u a).wm = s.wm := by
  unfold State.alarm
  split <;> simp
@[simp] theorem State.holdoffExpiry_wm (s : State) (u : Nat) : (s.holdoffExpiry u).wm = s.wm := by
  simp only [State.holdoffExpiry]
  repeat' split
  all_goals simp
@[simp] theorem State.modTh_wm (s : State) (u j : Nat) (f : Thresh → Thresh) : (s.modTh u j f).wm = s.wm := by simp [State.modTh]
@[simp] theorem State.crossing_wm (s : State) (u j : Nat) (down : Bool) (value level : Int) (flags time : Nat) :
    (s.crossing u j down value level flags time).wm = s.wm := by
  simp [State.crossing]
@[simp] theorem State.judgeTh_wm (s : State) (u j src : Nat) (v : Int) (flags time : Nat) :
    (s.judgeTh u j src v flags time).wm = s.wm := by
  simp only [State.judgeTh]
  repeat' split
  all_goals simp
@[simp] theorem State.judge_wm (s : State) (u src : Nat) (v : Int) (flags time : Nat) :
    (s.judge u src v flags time).wm = s.wm := by
  simp [State.judge]
@[simp] theorem State.eventRead_wm (s : State) (u j : Nat) : (s.eventRead u j).2.wm = s.wm := by simp [State.eventRead]
@[simp] theorem State.placeResult_wm (s : State) (u : Nat) (v : Int) (flags latch trig : Nat) :
    (s.placeResult u v flags latch trig).wm = s.wm := by
  simp [State.placeResult]
@[simp] theorem State.deliver_wm (s : State) (u : Nat) (v : Int) (flags latch trig : Nat) :
    (s.deliver u v flags latch trig).wm = s.wm := by
  simp [State.deliver]
@[simp] theorem State.takeDump_wm (s : State) (u k w : Nat) : (s.takeDump u k w).wm = s.wm := by simp [State.takeDump]
@[simp] theorem State.waveSample_wm (s : State) (u k : Nat) (x : Int × Nat) : (s.waveSample u k x).wm = s.wm := by
  simp [State.waveSample]
@[simp] theorem State.engineRun_wm (s : State) (n : Nat) : (s.engineRun n).wm = s.wm := by
  induction n generalizing s with
  | zero => rfl
  | succ n ih =>
    simp only [State.engineRun]
    split
    · rfl
    · split <;> simp [ih]
@[simp] theorem State.waveformSample_wm (s : State) (dumps : List (Nat × Nat × Nat)) : (s.waveformSample dumps).wm = s.wm := by
  simp [State.waveformSample]
@[simp] theorem State.phasorResult_wm (s : State) (u k : Nat) : (s.phasorResult u k).wm = s.wm := by
  unfold State.phasorResult
  dsimp only
  split
  · rfl
  · rw [State.judge_wm, State.ite_wm, State.modTracker_wm, State.wrB_wm, State.passTo_wm, ite_self]
@[simp] theorem State.average_wm (s : State) (u : Nat) (v : Int) (latch flags : Nat) : (s.average u v latch flags).wm = s.wm := by
  simp [State.average]
@[simp] theorem State.cycleIntegral_wm (s : State) (u k : Nat) (bits : Int) : (s.cycleIntegral u k bits).wm = s.wm := by
  simp [State.cycleIntegral]
@[simp] theorem State.sh240Result_wm (s : State) (u : Nat) (nanovolts : Int) : (s.sh240Result u nanovolts).wm = s.wm := by
  simp [State.sh240Result]

/-! Machine/Checks. -/

@[simp] theorem State.cuFinish_wm (s : State) (u status len value : Nat) : (s.cuFinish u status len value).wm = s.wm := by
  simp [State.cuFinish]
@[simp] theorem State.cuGo_wm (s : State) (fromHost : Bool) (u value : Nat) (memError : Bool) :
    (s.cuGo fromHost u value memError).state.wm = s.wm := by
  simp [State.cuGo]

/-! Machine/Plan. -/

@[simp] theorem State.buildInner_wm (s : State) (d : Down) : (s.buildInner d).wm = s.wm := by
  simp only [State.buildInner]
  repeat' split
  all_goals simp
@[simp] theorem State.boardMpdu_wm (s : State) (i f : Nat) (d : Down) : (s.boardMpdu i f d).wm = s.wm := by
  simp only [State.boardMpdu]
  split <;> simp
@[simp] theorem State.putFrame_wm (s : State) (i : Nat) (x : TxFrame) (ds : List Down) : (s.putFrame i x ds).wm = s.wm := by
  simp [State.putFrame]
@[simp] theorem State.planSounding_wm (s : State) (g i start stop : Nat) (at_ : Stand) (d : Down) :
    (s.planSounding g i start stop at_ d).wm = s.wm := by
  unfold State.planSounding
  split <;> simp
@[simp] theorem State.dropLanes_wm (s : State) (i : Nat) : (s.dropLanes i).wm = s.wm := by simp [State.dropLanes]
@[simp] theorem State.planTo_wm (s : State) (g i start stop : Nat) (ackReq : Bool) :
    (s.planTo g i start stop ackReq).wm = s.wm := by
  simp only [State.planTo]
  repeat' split
  all_goals simp
@[simp] theorem State.putPlain_wm (s : State) (x : TxFrame) (id : Nat) : (s.putPlain x id).wm = s.wm := by simp [State.putPlain]
@[simp] theorem State.responseSeq_wm (s : State) (d : Down) : (s.responseSeq d).2.wm = s.wm := by
  unfold State.responseSeq
  split <;> simp
@[simp] theorem State.planResponse_wm (s : State) (g start stop : Nat) : (s.planResponse g start stop).wm = s.wm := by
  simp only [State.planResponse]
  repeat' split
  all_goals simp
@[simp] theorem State.planBroadcast_wm (s : State) (g start stop : Nat) : (s.planBroadcast g start stop).wm = s.wm := by
  simp only [State.planBroadcast]
  repeat' split
  all_goals simp
@[simp] theorem State.downlinkPlan_wm (s : State) (g i start stop : Nat) (ackReq : Bool) :
    (s.downlinkPlan g i start stop ackReq).wm = s.wm := by
  simp [State.downlinkPlan]

/-! Machine/Delivery. -/

@[simp] theorem State.sendNextKey_wm (s : State) (i : Nat) : (s.sendNextKey i).wm = s.wm := by simp [State.sendNextKey]
@[simp] theorem State.oweKey_wm (s : State) (i : Nat) : (s.oweKey i).wm = s.wm := by simp [State.oweKey]
@[simp] theorem State.markKey_wm (s : State) (i : Nat) : (s.markKey i).wm = s.wm := by simp [State.markKey]
@[simp] theorem State.assocAcked_wm (s : State) (i : Nat) (body : List Byte) : (s.assocAcked i body).wm = s.wm := by
  simp [State.assocAcked]
@[simp] theorem State.resolveDown_wm (s : State) (id : Nat) : (s.resolveDown id).wm = s.wm := by simp [State.resolveDown]
@[simp] theorem State.downAcked_wm (s : State) (d : Down) (stop : Nat) : (s.downAcked d stop).wm = s.wm := by
  simp only [State.downAcked]
  split <;> simp
@[simp] theorem State.downLost_wm (s : State) (d : Down) : (s.downLost d).wm = s.wm := by
  simp only [State.downLost]
  repeat' split
  all_goals simp
@[simp] theorem State.downAbandoned_wm (s : State) (d : Down) : (s.downAbandoned d).wm = s.wm := by simp [State.downAbandoned]
@[simp] theorem State.downUnacked_wm (s : State) (d : Down) : (s.downUnacked d).wm = s.wm := by simp [State.downUnacked]
@[simp] theorem State.settleFrame_wm (s : State) (f : Nat) (x : TxFrame) : (s.settleFrame f x).wm = s.wm := by
  simp [State.settleFrame]
@[simp] theorem State.ackReceive_wm (s : State) (f : Nat) (a : AckSeen) : (s.ackReceive f a).wm = s.wm := by
  unfold State.ackReceive
  repeat' split
  all_goals simp
@[simp] theorem State.ackExpiry_wm (s : State) (f : Nat) (swell : Bool) : (s.ackExpiry f swell).wm = s.wm := by
  unfold State.ackExpiry
  repeat' split
  all_goals simp
@[simp] theorem State.segEnableWrite_wm (s : State) (g : Nat) : (s.segEnableWrite g).state.wm = s.wm := by
  simp [State.segEnableWrite]
@[simp] theorem State.refuseUnsent_wm (s : State) (i : Nat) : (s.refuseUnsent i).wm = s.wm :=
  State.foldl_wm _ _ _ fun t l => by split <;> simp
@[simp] theorem State.segDisableWrite_wm (s : State) (g : Nat) : (s.segDisableWrite g).wm = s.wm := by
  simp [State.segDisableWrite]

/-! Machine/RxCore. -/

@[simp] theorem State.releaseChan_wm (s : State) (r n : Nat) : (s.releaseChan r n).wm = s.wm := by simp [State.releaseChan]
@[simp] theorem State.releaseLane_wm (s : State) (r n : Nat) : (s.releaseLane r n).wm = s.wm := by simp [State.releaseLane]
@[simp] theorem State.releaseFrom_wm (s : State) (r : Nat) (x : Reception) (n : Nat) : (s.releaseFrom r x n).wm = s.wm := by
  simp [State.releaseFrom]
@[simp] theorem State.releaseAll_wm (s : State) (r : Nat) (x : Reception) : (s.releaseAll r x).wm = s.wm := by
  simp [State.releaseAll]
@[simp] theorem State.feedDecoders_wm (s : State) (free : Bool) : (s.feedDecoders free).wm = s.wm := by simp [State.feedDecoders]
@[simp] theorem State.rinse_wm (s : State) (r : Nat) (counted : Reg) : (s.rinse r counted).wm = s.wm := by
  unfold State.rinse
  split <;> simp
@[simp] theorem State.leaveRx_wm (s : State) (n : Nat) (lane : Bool) (counted : Reg) : (s.leaveRx n lane counted).wm = s.wm := by
  unfold State.leaveRx
  repeat' split
  all_goals simp
@[simp] theorem State.blockIn_wm (s : State) (n first : Nat) (samples : List Int) (fill : Nat) :
    (s.blockIn n first samples fill).wm = s.wm := by
  simp [State.blockIn]
@[simp] theorem State.agcDecision_wm (s : State) (n first : Nat) (samples : List Int) (fill : Nat) :
    (s.agcDecision n first samples fill).wm = s.wm := by
  simp [State.agcDecision]
@[simp] theorem State.trimPreload_wm (s : State) (g i opens : Nat) : (s.trimPreload g i opens).wm = s.wm := by
  unfold State.trimPreload
  split <;> simp
@[simp] theorem State.windowClose_wm (s : State) (n : Nat) : (s.windowClose n).wm = s.wm := by
  unfold State.windowClose
  split <;> simp
@[simp] theorem State.trimApply_wm (s : State) (n : Nat) : (s.trimApply n).wm = s.wm := by
  unfold State.trimApply
  split <;> simp
@[simp] theorem State.rxOverflow_wm (s : State) (n : Nat) : (s.rxOverflow n).wm = s.wm := by
  simp only [State.rxOverflow]
  repeat' split
  all_goals simp
@[simp] theorem State.restartChan_wm (s : State) (n : Nat) : (s.restartChan n).wm = s.wm := by simp [State.restartChan]
@[simp] theorem State.synthLock_wm (s : State) (k : Nat) : (s.synthLock k).wm = s.wm := by simp [State.synthLock]
@[simp] theorem State.synthLoss_wm (s : State) (k : Nat) : (s.synthLoss k).wm = s.wm := by simp [State.synthLoss]
@[simp] theorem State.channelOn_wm (s : State) (n : Nat) : (s.channelOn n).wm = s.wm := by simp [State.channelOn]
@[simp] theorem State.channelOff_wm (s : State) (n : Nat) : (s.channelOff n).wm = s.wm := by simp [State.channelOff]
@[simp] theorem State.maskCheck_wm (s : State) (n : Nat) (was : List Nat) : (s.maskCheck n was).wm = s.wm := by
  unfold State.maskCheck
  split <;> simp
@[simp] theorem State.configApply_wm (s : State) (n : Nat) : (s.configApply n).wm = s.wm := by simp [State.configApply]
@[simp] theorem State.swellApply_wm (s : State) (n : Nat) : (s.swellApply n).wm = s.wm := by simp [State.swellApply]

/-! Machine/Opening. -/

@[simp] theorem State.setOpening_wm (s : State) (r j : Nat) (o : Opening) : (s.setOpening r j o).wm = s.wm := by
  simp [State.setOpening]
@[simp] theorem State.openMpdu_wm (s : State) (r j : Nat) (x : Reception) (h : MpduHead) (len : Nat) :
    (s.openMpdu r j x h len).wm = s.wm := by
  simp only [State.openMpdu]
  repeat' split
  all_goals simp
@[simp] theorem State.openMpdus_wm (s : State) (r : Nat) (payload : List Byte) : (s.openMpdus r payload).wm = s.wm := by
  unfold State.openMpdus
  split
  · rfl
  · refine State.foldl_wm _ _ _ fun t j => ?_
    split
    · rfl
    · split <;> simp

/-! Machine/Rx. -/

@[simp] theorem State.freeze_wm (s : State) (n r : Nat) : (s.freeze n r).wm = s.wm := by simp [State.freeze]
@[simp] theorem State.countDetect_wm (s : State) (n : Nat) : (s.countDetect n).wm = s.wm := by simp [State.countDetect]
@[simp] theorem State.declare_wm (s : State) (n r gamma : Nat) (x : Reception) : (s.declare n r gamma x).wm = s.wm := by
  unfold State.declare
  split <;> simp
@[simp] theorem State.detection_wm (s : State) (n : Nat) (wave : Wave) (sf : Nat) (seen : Preamble) :
    (s.detection n wave sf seen).wm = s.wm := by
  simp only [State.detection]
  repeat' split
  all_goals simp
@[simp] theorem State.timingMark_wm (s : State) (n mark : Nat) (seen : MarkSeen) : (s.timingMark n mark seen).wm = s.wm := by
  unfold State.timingMark
  repeat' split
  all_goals simp
@[simp] theorem State.acqFail_wm (s : State) (n : Nat) : (s.acqFail n).wm = s.wm := by
  unfold State.acqFail
  repeat' split
  all_goals simp
@[simp] theorem State.groupClose_wm (s : State) (r : Nat) : (s.groupClose r).wm = s.wm := by
  unfold State.groupClose
  split <;> simp
@[simp] theorem State.fineTrim_wm (s : State) (r : Nat) (seen : List CeSeen) : (s.fineTrim r seen).wm = s.wm := by
  simp only [State.fineTrim]
  repeat' split
  all_goals simp
@[simp] theorem State.hear_wm (s : State) (g nid level : Nat) : (s.hear g nid level).wm = s.wm := by
  simp only [State.hear]
  split <;> simp
@[simp] theorem State.addressed_wm (s : State) (r : Nat) (x : Reception) (nid dst : Nat) :
    (s.addressed r x nid dst).2.wm = s.wm := by
  unfold State.addressed
  split <;> simp
@[simp] theorem State.admitRx_wm (s : State) (r : Nat) : (s.admitRx r).wm = s.wm := by simp [State.admitRx]
@[simp] theorem State.fcPassed_wm (s : State) (r : Nat) (f : FrameControl) (bytes : List Byte) :
    (s.fcPassed r f bytes).wm = s.wm := by
  simp only [State.fcPassed]
  repeat' split
  all_goals simp
@[simp] theorem State.swellPassed_wm (s : State) (r : Nat) (h : SwellHead) (bytes : List Byte) :
    (s.swellPassed r h bytes).wm = s.wm := by
  simp only [State.swellPassed]
  split <;> simp
@[simp] theorem State.headPassed_wm (s : State) (r : Nat) (wave : Wave) (bytes : List Byte) :
    (s.headPassed r wave bytes).2.wm = s.wm := by
  unfold State.headPassed
  repeat' split
  all_goals simp
@[simp] theorem State.splitMember_wm (s : State) (r n : Nat) (bytes : List Byte) : (s.splitMember r n bytes).wm = s.wm := by
  unfold State.splitMember
  repeat' split
  all_goals simp
@[simp] theorem State.judgeHead_wm (s : State) (r : Nat) (x : Reception) (seen : List HeadSeen) :
    (s.judgeHead r x seen).wm = s.wm := by
  simp [State.judgeHead]
@[simp] theorem State.frameControlCheck_wm (s : State) (r : Nat) (seen : List HeadSeen) :
    (s.frameControlCheck r seen).wm = s.wm := by
  simp only [State.frameControlCheck]
  repeat' split
  all_goals simp
@[simp] theorem State.laneHeaderCheck_wm (s : State) (n sf : Nat) (bytes : List Byte) (seen : MarkSeen) (stamp : Nat) :
    (s.laneHeaderCheck n sf bytes seen stamp).wm = s.wm := by
  unfold State.laneHeaderCheck
  repeat' split
  all_goals simp
@[simp] theorem State.softIn_wm (s : State) (r : Nat) (x : Reception) (t : Nat) (seen : List SymbolSeen) :
    (s.softIn r x t seen).wm = s.wm := by
  simp [State.softIn]
@[simp] theorem State.pilotTrack_wm (s : State) (r t : Nat) (seen : List SymbolSeen) : (s.pilotTrack r t seen).wm = s.wm := by
  unfold State.pilotTrack
  split <;> simp
@[simp] theorem State.shed_wm (s : State) : s.shed.wm = s.wm := by
  unfold State.shed
  split <;> simp
@[simp] theorem State.dirCheck_wm (s : State) (r : Nat) (x : Reception) : (s.dirCheck r x).wm = s.wm := by
  simp only [State.dirCheck]
  repeat' split
  all_goals simp
@[simp] theorem State.codewordDecoded_wm (s : State) (r k iterations : Nat) (bytes : List Byte) :
    (s.codewordDecoded r k iterations bytes).wm = s.wm := by
  simp only [State.codewordDecoded]
  repeat' split
  all_goals simp
@[simp] theorem State.secondaryDetection_wm (s : State) (n : Nat) (wave : Wave) (sf : Nat) (seen : Preamble) (offset : Int) :
    (s.secondaryDetection n wave sf seen offset).wm = s.wm := by
  simp only [State.secondaryDetection]
  split <;> simp
@[simp] theorem State.judgeCapture_wm (s : State) (q new : Nat) : (s.judgeCapture q new).2.wm = s.wm := by
  unfold State.judgeCapture
  repeat' split
  all_goals simp
@[simp] theorem State.formGroup_wm (s : State) (first : Nat) (hs : List (Nat × Second)) : (s.formGroup first hs).wm = s.wm := by
  unfold State.formGroup
  split <;> simp
@[simp] theorem State.takeOver_wm (s : State) (first : Nat) (hits : List (Nat × Second)) : (s.takeOver first hits).wm = s.wm := by
  unfold State.takeOver
  split <;> simp
@[simp] theorem State.captureDecision_wm (s : State) (r : Nat) : (s.captureDecision r).wm = s.wm := by
  simp only [State.captureDecision]
  repeat' split
  all_goals simp
@[simp] theorem State.setDue_wm (s : State) (x : Reception) (due : Bool) : (s.setDue x due).wm = s.wm := by simp [State.setDue]
@[simp] theorem State.dropDone_wm (s : State) (r : Nat) : (s.dropDone r).wm = s.wm := by
  unfold State.dropDone
  split <;> simp
@[simp] theorem State.soundingHeard_wm (s : State) (x : Reception) : (s.soundingHeard x).wm = s.wm := by
  unfold State.soundingHeard
  repeat' split
  all_goals simp
@[simp] theorem State.receptionEnd_wm (s : State) (r : Nat) : (s.receptionEnd r).wm = s.wm := by
  unfold State.receptionEnd
  split <;> simp
@[simp] theorem State.sendAck_wm (s : State) (x : Reception) (ready : List Nat) : (s.sendAck x ready).wm = s.wm := by
  simp [State.sendAck]
@[simp] theorem State.wakeUnacked_wm (s : State) (x : Reception) : (s.wakeUnacked x).wm = s.wm := by
  unfold State.wakeUnacked
  split <;> simp
@[simp] theorem State.ackSend_wm (s : State) (r : Nat) (swell : Bool) (ready : List Nat) :
    (s.ackSend r swell ready).wm = s.wm := by
  unfold State.ackSend
  split <;> simp
@[simp] theorem State.messageEnd_wm (s : State) (e : Nat) : (s.messageEnd e).wm = s.wm := by
  unfold State.messageEnd
  split <;> simp

/-! Machine/Txn. -/

@[simp] theorem State.judgeLeg_wm (s : State) (k target : Nat) : (s.judgeLeg k target).2.wm = s.wm := by
  simp only [State.judgeLeg]
  repeat' split
  all_goals simp
@[simp] theorem State.judgeLegs_wm (s : State) (k : Nat) (targets : List Nat) : (s.judgeLegs k targets).2.wm = s.wm := by
  simp [State.judgeLegs]
@[simp] theorem State.sendAnswer_wm (s : State) (k : Nat) (vs : List Verdict) : (s.sendAnswer k vs).wm = s.wm := by
  unfold State.sendAnswer
  split <;> simp
@[simp] theorem State.countAdmission_wm (s : State) (pri : Nat) (vs : List Verdict) : (s.countAdmission pri vs).wm = s.wm := by
  simp [State.countAdmission]
@[simp] theorem State.startServed_wm (s : State) (k : Nat) : (s.startServed k).wm = s.wm := by
  unfold State.startServed
  split
  · rfl
  · refine State.foldl_wm _ _ _ fun u j => ?_
    split <;> simp
@[simp] theorem State.openTxn_wm (s : State) (session : Nat) (m : NbMsg) (r : NbRequest) (targets : List Nat) :
    (s.openTxn session m r targets).wm = s.wm := by
  simp only [State.openTxn]
  repeat' split
  all_goals simp
@[simp] theorem State.relayToMoved_wm (s : State) (k : Nat) (msg : List Byte) : (s.relayToMoved k msg).wm = s.wm := by
  unfold State.relayToMoved
  split <;> simp
@[simp] theorem State.resend_wm (s : State) (k : Nat) : (s.resend k).wm = s.wm := by
  unfold State.resend
  split <;> simp
@[simp] theorem State.duplicate_wm (s : State) (session : Nat) (m : NbMsg) (msg : List Byte) (t : Txn) :
    (s.duplicate session m msg t).wm = s.wm := by
  simp [State.duplicate]
@[simp] theorem State.badRequest_wm (s : State) (session : Nat) (m : NbMsg) : (s.badRequest session m).wm = s.wm := by
  simp [State.badRequest]
@[simp] theorem State.takeInbox_wm (s : State) (session : Nat) (msg : List Byte) : (s.takeInbox session msg).wm = s.wm := by
  simp [State.takeInbox]
@[simp] theorem State.request_wm (s : State) (session : Nat) (msg : List Byte) : (s.request session msg).wm = s.wm := by
  unfold State.request
  repeat' split
  all_goals simp
@[simp] theorem State.abortLeg_wm (s : State) (k j : Nat) : (s.abortLeg k j).wm = s.wm := by
  unfold State.abortLeg
  split <;> simp
@[simp] theorem State.abortOpen_wm (s : State) (k : Nat) (msg : List Byte) (t : Txn) : (s.abortOpen k msg t).wm = s.wm := by
  simp [State.abortOpen]
@[simp] theorem State.strayAbortResult_wm (s : State) (session pri id index : Nat) (body : List Byte) :
    (s.strayAbortResult session pri id index body).wm = s.wm := by
  simp [State.strayAbortResult]
@[simp] theorem State.abort_wm (s : State) (session : Nat) (msg : List Byte) : (s.abort session msg).wm = s.wm := by
  simp only [State.abort]
  repeat' split
  all_goals simp
@[simp] theorem State.bridgeRelease_wm (s : State) (c : Nat) : (s.bridgeRelease c).wm = s.wm := by
  simp only [State.bridgeRelease]
  repeat' split
  all_goals simp
@[simp] theorem State.quotaRelease_wm (s : State) (c : Nat) : (s.quotaRelease c).wm = s.wm := by
  unfold State.quotaRelease
  split
  · simp
  · split
    · rfl
    · split
      · rfl
      · extract_lets t u
        have hu : u.wm = s.wm := ((State.modLeg_wm ..).trans (State.modTxn_wm ..)).trans (State.atDeadline_wm ..)
        split <;> simp [hu]
@[simp] theorem State.respWaitExpiry_wm (s : State) (k j : Nat) : (s.respWaitExpiry k j).wm = s.wm := by
  unfold State.respWaitExpiry
  repeat' split
  all_goals simp
@[simp] theorem State.legDeadline_wm (s : State) (k j : Nat) : (s.legDeadline k j).wm = s.wm := by
  unfold State.legDeadline
  split <;> simp
@[simp] theorem State.aggExpiry_wm (s : State) (k : Nat) : (s.aggExpiry k).wm = s.wm := by
  unfold State.aggExpiry
  repeat' split
  all_goals simp
@[simp] theorem State.cacheExpiry_wm (s : State) (k : Nat) : (s.cacheExpiry k).wm = s.wm := by
  unfold State.cacheExpiry
  split <;> simp
@[simp] theorem State.emitReport_wm (s : State) (pri : Nat) (msg : List Byte) : (s.emitReport pri msg).wm = s.wm := by
  simp [State.emitReport]
@[simp] theorem State.sendReport_wm (s : State) (pri originKind origin : Nat) (payload : List Byte) :
    (s.sendReport pri originKind origin payload).wm = s.wm := by
  simp [State.sendReport]
@[simp] theorem State.reportRepeat_wm (s : State) (id : Nat) : (s.reportRepeat id).wm = s.wm := by
  unfold State.reportRepeat
  split
  · rfl
  · exact ((State.emitReport_wm ..).trans (State.modTxn_wm ..)).trans (State.atDeadline_wm ..)
@[simp] theorem State.alarmReport_wm (s : State) : s.alarmReport.wm = s.wm := by
  unfold State.alarmReport
  split <;> simp
@[simp] theorem State.movedRecord_wm (s : State) (k dev : Nat) (r : Nat × Nat × Nat × Nat × List Byte) :
    (s.movedRecord k dev r).wm = s.wm := by
  unfold State.movedRecord
  repeat' split
  all_goals simp
@[simp] theorem State.movedRecords_wm (s : State) (k dev n : Nat) (b : List Byte) : (s.movedRecords k dev n b).wm = s.wm := by
  induction n generalizing s b with
  | zero => rfl
  | succ n ih =>
    unfold State.movedRecords
    split <;> simp [ih]
@[simp] theorem State.relayed_wm (s : State) (dev : Nat) (msg : List Byte) : (s.relayed dev msg).wm = s.wm := by
  simp only [State.relayed]
  repeat' split
  all_goals simp

/-! Machine/Commit. -/

@[simp] theorem State.storeTrim_wm (s : State) (i : Nat) (x : Reception) : (s.storeTrim i x).wm = s.wm := by
  simp [State.storeTrim]
@[simp] theorem State.storeLink_wm (s : State) (i : Nat) (x : Reception) : (s.storeLink i x).wm = s.wm := by
  simp [State.storeLink]
@[simp] theorem State.adriftWake_wm (s : State) (i : Nat) (x : Reception) : (s.adriftWake i x).wm = s.wm := by
  simp [State.adriftWake]
@[simp] theorem State.mapsHeard_wm (s : State) (i : Nat) (x : Reception) (fresh : Bool) : (s.mapsHeard i x fresh).wm = s.wm := by
  simp [State.mapsHeard]
@[simp] theorem State.heardFrom_wm (s : State) (i : Nat) : (s.heardFrom i).wm = s.wm := by simp [State.heardFrom]
@[simp] theorem State.driftHeard_wm (s : State) (r i : Nat) (x : Reception) : (s.driftHeard r i x).wm = s.wm := by
  simp only [State.driftHeard]
  repeat' split
  all_goals simp
@[simp] theorem State.firstCommit_wm (s : State) (r i : Nat) (x : Reception) : (s.firstCommit r i x).wm = s.wm := by
  simp [State.firstCommit]
@[simp] theorem State.handOn_wm (s : State) (i : Nat) (body : List Byte) : (s.handOn i body).wm = s.wm := by simp [State.handOn]
@[simp] theorem State.macCommand_wm (s : State) (i : Nat) (body : List Byte) : (s.macCommand i body).wm = s.wm := by
  simp [State.macCommand]
@[simp] theorem State.responseFragment_wm (s : State) (k j frag : Nat) (last : Bool) (payload : List Byte) :
    (s.responseFragment k j frag last payload).wm = s.wm := by
  simp only [State.responseFragment]
  split <;> simp
@[simp] theorem State.reportFragment_wm (s : State) (i pri tag frag : Nat) (last : Bool) (payload : List Byte) :
    (s.reportFragment i pri tag frag last payload).wm = s.wm := by
  simp [State.reportFragment]
@[simp] theorem State.lineFragment_wm (s : State) (i pri : Nat) (b : List Byte) : (s.lineFragment i pri b).wm = s.wm := by
  simp only [State.lineFragment]
  repeat' split
  all_goals simp
@[simp] theorem State.bridgeTo_wm (s : State) (b addr pri : Nat) (body : List Byte) : (s.bridgeTo b addr pri body).wm = s.wm := by
  unfold State.bridgeTo
  split <;> simp
@[simp] theorem State.bridge_wm (s : State) (i pri : Nat) (body : List Byte) : (s.bridge i pri body).wm = s.wm := by
  simp [State.bridge]
@[simp] theorem State.dataPlain_wm (s : State) (i pri : Nat) (body : List Byte) : (s.dataPlain i pri body).wm = s.wm := by
  unfold State.dataPlain
  split <;> simp
@[simp] theorem State.acceptMpdu_wm (s : State) (i : Nat) (raw : List Byte) (under : Option (Nat × List Byte)) :
    (s.acceptMpdu i raw under).wm = s.wm := by
  unfold State.acceptMpdu
  split <;> simp
@[simp] theorem State.innerFail_wm (s : State) (g : Nat) : (s.innerFail g).wm = s.wm := by simp [State.innerFail]
@[simp] theorem State.pushRequest_wm (s : State) (q : Request) : (s.pushRequest q).wm = s.wm := by simp [State.pushRequest]
@[simp] theorem State.innerRequest_wm (s : State) (g origin : Nat) (raw : List Byte) :
    (s.innerRequest g origin raw).wm = s.wm := by
  unfold State.innerRequest
  split <;> simp
@[simp] theorem State.innerCommit_wm (s : State) (g n pri kind origin : Nat) (raw : List Byte) :
    (s.innerCommit g n pri kind origin raw).wm = s.wm := by
  unfold State.innerCommit
  repeat' split
  all_goals simp
@[simp] theorem State.forward_wm (s : State) (g pri : Nat) (body : List Byte) : (s.forward g pri body).wm = s.wm := by
  simp only [State.forward]
  split <;> simp
@[simp] theorem State.envelope_wm (s : State) (g n pri : Nat) (body : List Byte) : (s.envelope g n pri body).wm = s.wm := by
  simp [State.envelope]
@[simp] theorem State.deliverMpdu_wm (s : State) (g : Nat) (i : Option Nat) (x : Reception) (body : List Byte) :
    (s.deliverMpdu g i x body).wm = s.wm := by
  unfold State.deliverMpdu
  split <;> simp
@[simp] theorem State.mpduRinse_wm (s : State) (x : Reception) (counter : Reg) : (s.mpduRinse x counter).wm = s.wm := by
  simp [State.mpduRinse]
@[simp] theorem State.ackBit_wm (s : State) (r j : Nat) (raw : List Byte) : (s.ackBit r j raw).wm = s.wm := by simp [State.ackBit]
@[simp] theorem State.swellCount_wm (s : State) (x : Reception) : (s.swellCount x).wm = s.wm := by simp [State.swellCount]
@[simp] theorem State.crcEnd_wm (s : State) (i : Nat) (x : Reception) (j : Nat) (failed : Bool) :
    (s.crcEnd i x j failed).wm = s.wm := by
  simp [State.crcEnd]
@[simp] theorem State.resolveRequest_wm (s : State) (r g j : Nat) (x : Reception) (raw : List Byte) :
    (s.resolveRequest r g j x raw).wm = s.wm := by
  simp [State.resolveRequest]
@[simp] theorem State.resolveKnown_wm (s : State) (r g j i : Nat) (x : Reception) (raw : List Byte) (judged : MpduJudged) :
    (s.resolveKnown r g j i x raw judged).wm = s.wm := by
  unfold State.resolveKnown
  split <;> simp
theorem State.resolveMpdu_wm (s : State) (r g j : Nat) (x : Reception) (raw : List Byte) (noBuffer : Bool) :
    ∀ t ∈ s.resolveMpdu r g j x raw noBuffer, t.wm = s.wm := by
  unfold State.resolveMpdu
  repeat' split
  all_goals simp
@[simp] theorem State.takeRaw_wm (s : State) (r : Nat) (x : Reception) (raw : List Byte) : (s.takeRaw r x raw).wm = s.wm := by
  simp [State.takeRaw]
@[simp] theorem State.openLate_wm (s : State) (r j : Nat) (x : Reception) (raw : List Byte) :
    (s.openLate r j x raw).wm = s.wm := by
  simp [State.openLate]
@[simp] theorem State.mpduDone_wm (s : State) (r j : Nat) : (s.mpduDone r j).wm = s.wm := by simp [State.mpduDone]
@[simp] theorem State.mpduResolve_wm (s : State) (r j : Nat) (work : MpduWork) : (s.mpduResolve r j work).wm = s.wm := by
  simp only [State.mpduResolve]
  split
  · rfl
  · split
    · rfl
    · split
      · simp
      · split
        · split
          next t h =>
            obtain ⟨x, -, hx⟩ := Option.bind_eq_some_iff.1 h
            simp [State.resolveMpdu_wm _ _ _ _ _ _ _ t hx]
          next => simp
        · simp

/-! Machine/Domain. -/

@[simp] theorem State.drvClash_wm (s : State) (h : DrvHead) (body : List Byte) : (s.drvClash h body).wm = s.wm := by
  simp [State.drvClash]
@[simp] theorem State.drvAccept_wm (s : State) (type : Nat) (header body cmac : List Byte) :
    (s.drvAccept type header body cmac).2.wm = s.wm := by
  unfold State.drvAccept
  split <;> simp
@[simp] theorem State.countPeers_wm (s : State) : s.countPeers.wm = s.wm := by simp [State.countPeers]
@[simp] theorem State.helloSend_wm (s : State) : s.helloSend.wm = s.wm := by
  unfold State.helloSend
  split
  · rfl
  · simp only [State.drvSend_wm, State.modDomain_wm]
    split <;> simp
@[simp] theorem State.helloRx_wm (s : State) (addr header body cmac : List Byte) : (s.helloRx addr header body cmac).wm = s.wm := by
  unfold State.helloRx
  split
  next t h => simp [State.wm_of_eq_mk h (s.drvAccept_wm ..)]
  next t h => exact State.wm_of_eq_mk h (s.drvAccept_wm ..)
@[simp] theorem State.peerAbsent_wm (s : State) (d : Nat) : (s.peerAbsent d).wm = s.wm := by
  unfold State.peerAbsent
  split <;> simp
@[simp] theorem State.couplingSend_wm (s : State) : s.couplingSend.wm = s.wm := by simp [State.couplingSend]
@[simp] theorem State.couplingRx_wm (s : State) (header body cmac : List Byte) : (s.couplingRx header body cmac).wm = s.wm := by
  unfold State.couplingRx
  split
  next t h => simp [State.wm_of_eq_mk h (s.drvAccept_wm ..)]
  next t h => exact State.wm_of_eq_mk h (s.drvAccept_wm ..)
@[simp] theorem State.coupleAge_wm (s : State) (g nid : Nat) : (s.coupleAge g nid).wm = s.wm := by
  unfold State.coupleAge
  split
  · rfl
  · exact (State.modDomain_wm ..).trans (State.atDeadline_wm ..)
@[simp] theorem State.slotMapRx_wm (s : State) (header body cmac : List Byte) : (s.slotMapRx header body cmac).wm = s.wm := by
  unfold State.slotMapRx
  split
  next t h => exact State.wm_of_eq_mk h (s.drvAccept_wm ..)
  next t h => simp [State.wm_of_eq_mk h (s.drvAccept_wm ..)]
@[simp] theorem State.setHandOver_wm (s : State) (eui : Nat) (h : HandOver) : (s.setHandOver eui h).wm = s.wm := by
  simp [State.setHandOver]
@[simp] theorem State.dropHandOver_wm (s : State) (eui : Nat) : (s.dropHandOver eui).wm = s.wm := by simp [State.dropHandOver]
@[simp] theorem State.suspendLeg_wm (s : State) (k j dev : Nat) : (s.suspendLeg k j dev).wm = s.wm := by simp [State.suspendLeg]
@[simp] theorem State.offer_wm (s : State) (i dev : Nat) : (s.offer i dev).wm = s.wm := by simp [State.offer]
@[simp] theorem State.roamQueryRx_wm (s : State) (header body cmac : List Byte) : (s.roamQueryRx header body cmac).wm = s.wm := by
  unfold State.roamQueryRx
  split
  next t h => exact State.wm_of_eq_mk h (s.drvAccept_wm ..)
  next d t h =>
    have ht := State.wm_of_eq_mk h (s.drvAccept_wm ..)
    simp only
    split
    · exact ht
    · split
      · exact ht
      · split
        · split <;> simpa using ht
        · simpa using ht
@[simp] theorem State.endRoamed_wm (s : State) (k j dev : Nat) : (s.endRoamed k j dev).wm = s.wm := by
  unfold State.endRoamed
  split <;> simp
@[simp] theorem State.movedAway_wm (s : State) (i dev : Nat) : (s.movedAway i dev).wm = s.wm := by simp [State.movedAway]
@[simp] theorem State.roamAcceptRx_wm (s : State) (header body cmac : List Byte) : (s.roamAcceptRx header body cmac).wm = s.wm := by
  unfold State.roamAcceptRx
  split
  next t h => exact State.wm_of_eq_mk h (s.drvAccept_wm ..)
  next d t h =>
    have ht := State.wm_of_eq_mk h (s.drvAccept_wm ..)
    simp only
    split
    · split
      · exact ht
      · simpa using ht
    · exact ht
@[simp] theorem State.restoreLeg_wm (s : State) (k j : Nat) : (s.restoreLeg k j).wm = s.wm := by
  simp only [State.restoreLeg]
  repeat' split
  all_goals simp
@[simp] theorem State.roamAcceptTimeout_wm (s : State) (eui : Nat) : (s.roamAcceptTimeout eui).wm = s.wm := by
  unfold State.roamAcceptTimeout
  repeat' split
  all_goals simp
@[simp] theorem State.setQuery_wm (s : State) (eui : Nat) (q : Query) : (s.setQuery eui q).wm = s.wm := by simp [State.setQuery]
@[simp] theorem State.dropQuery_wm (s : State) (eui : Nat) : (s.dropQuery eui).wm = s.wm := by simp [State.dropQuery]
@[simp] theorem State.sendQuery_wm (s : State) (i : Nat) (repeated : Bool) : (s.sendQuery i repeated).wm = s.wm := by
  simp [State.sendQuery]
@[simp] theorem State.noOffer_wm (s : State) (eui : Nat) : (s.noOffer eui).wm = s.wm := by simp [State.noOffer]
@[simp] theorem State.adoptLeg_wm (s : State) (dev i : Nat) (m : MovedLeg) : (s.adoptLeg dev i m).wm = s.wm := by
  simp only [State.adoptLeg]
  repeat' split
  all_goals simp
theorem State.foldl_adoptLeg_wm (s : State) (dev i : Nat) (legs : List MovedLeg) :
    (legs.foldl (fun t m => t.adoptLeg dev i m) s).wm = s.wm := by
  induction legs generalizing s with
  | nil => rfl
  | cons m legs ih => rw [List.foldl_cons, ih, State.adoptLeg_wm]
@[simp] theorem State.adopt_wm (s : State) (i dev : Nat) (body : List Byte) (legs : List MovedLeg) :
    (s.adopt i dev body legs).wm = s.wm := by
  unfold State.adopt
  rw [State.foldl_adoptLeg_wm, State.dropQuery_wm, State.bump_wm, State.drvSend_wm, State.sendSleep_wm, State.journalEp_wm,
    State.modEp_wm]
@[simp] theorem State.roamOfferRx_wm (s : State) (header body cmac : List Byte) : (s.roamOfferRx header body cmac).wm = s.wm := by
  unfold State.roamOfferRx
  split
  next t h => exact State.wm_of_eq_mk h (s.drvAccept_wm ..)
  next d t h =>
    have ht := State.wm_of_eq_mk h (s.drvAccept_wm ..)
    simp only
    split
    · exact ht
    · simp [ht]
@[simp] theorem State.offerWaitExpiry_wm (s : State) (eui : Nat) : (s.offerWaitExpiry eui).wm = s.wm := by
  unfold State.offerWaitExpiry
  split <;> simp
@[simp] theorem State.roamRequery_wm (s : State) (eui : Nat) : (s.roamRequery eui).wm = s.wm := by
  unfold State.roamRequery
  repeat' split
  all_goals simp
@[simp] theorem State.txnRelayRx_wm (s : State) (header body cmac : List Byte) : (s.txnRelayRx header body cmac).wm = s.wm := by
  unfold State.txnRelayRx
  split
  next d t h => simp [State.wm_of_eq_mk h (s.drvAccept_wm ..)]
  next t h => exact State.wm_of_eq_mk h (s.drvAccept_wm ..)
@[simp] theorem State.moveLeg_wm (s : State) (k j i : Nat) : (s.moveLeg k j i).wm = s.wm := by
  simp only [State.moveLeg]
  repeat' split
  all_goals simp
@[simp] theorem State.moveInside_wm (s : State) (o i : Nat) : (s.moveInside o i).wm = s.wm := by simp [State.moveInside]
@[simp] theorem State.grantRoaming_wm (s : State) (g i addr : Nat) (r : AssocReq) (q : Request) (jk : Option (List Byte)) :
    (s.grantRoaming g i addr r q jk).wm = s.wm := by
  simp only [State.grantRoaming]
  split <;> simp
theorem State.takeRequest_wm (s : State) (g : Nat) : ∀ p ∈ s.takeRequest g, p.2.wm = s.wm := by simp [State.takeRequest]
@[simp] theorem State.associationRequest_wm (s : State) (g : Nat) : (s.associationRequest g).wm = s.wm := by
  unfold State.associationRequest
  split
  · rfl
  · split
    · rfl
    next q t h =>
      have ht : t.wm = s.wm := s.takeRequest_wm g (q, t) h
      split
      · simp [ht]
      · have hd := t.assocDecide_wm g q.body
        split
        all_goals
          rename_i h
          rw [h, ht] at hd
          simpa using hd

/-! Machine/Memory. -/

@[simp] theorem State.haltCore_wm (s : State) (c memory detail : Nat) : (s.haltCore c memory detail).wm = s.wm := by
  simp [State.haltCore]
@[simp] theorem State.retireEntry_wm (s : State) (i : Nat) : (s.retireEntry i).wm = s.wm := by simp [State.retireEntry]
@[simp] theorem State.retirePage_wm (s : State) (k : Nat) : (s.retirePage k).wm = s.wm := by simp [State.retirePage]
@[simp] theorem State.loseDown_wm (s : State) (d : Down) : (s.loseDown d).wm = s.wm := by
  unfold State.loseDown
  split <;> simp
@[simp] theorem State.retireBuffer_wm (s : State) (off : Nat) : (s.retireBuffer off).wm = s.wm := by
  simp only [State.retireBuffer]
  repeat' split
  all_goals simp
@[simp] theorem State.loseTxn_wm (s : State) : s.loseTxn.wm = s.wm := by
  simp only [State.loseTxn]
  split <;> simp
@[simp] theorem State.affectedCore_wm (s : State) (reader : Option Nat) : (s.affectedCore reader).2.wm = s.wm := by
  unfold State.affectedCore
  split <;> simp
@[simp] theorem State.wmUncorrectable_wm (s : State) (off : Nat) (reader : Option Nat) :
    (s.wmUncorrectable off reader).wm = s.wm := by
  simp only [State.wmUncorrectable]
  split <;> simp
@[simp] theorem State.wmEcc_wm (s : State) (off : Nat) (ecc : Ecc) (reader : Option Nat) :
    (s.wmEcc off ecc reader).wm = s.wm := by
  unfold State.wmEcc
  split <;> simp
@[simp] theorem State.coreEcc_wm (s : State) (c off : Nat) (ecc : Ecc) : (s.coreEcc c off ecc).wm = s.wm := by
  unfold State.coreEcc
  repeat' split
  all_goals simp

/-! Machine/Rollover. -/

@[simp] theorem State.withdrawDeliveries_wm (s : State) (g : Nat) : (s.withdrawDeliveries g).wm = s.wm := by
  simp [State.withdrawDeliveries]
@[simp] theorem State.clearMarks_wm (s : State) (g : Nat) : (s.clearMarks g).wm = s.wm := by simp [State.clearMarks]
@[simp] theorem State.endRollover_wm (s : State) (g : Nat) : (s.endRollover g).wm = s.wm := by simp [State.endRollover]
@[simp] theorem State.startDelivery_wm (s : State) (g : Nat) : (s.startDelivery g).wm = s.wm := by simp [State.startDelivery]
@[simp] theorem State.nextKeyLoaded_wm (s : State) (g : Nat) : (s.nextKeyLoaded g).wm = s.wm := by simp [State.nextKeyLoaded]
@[simp] theorem State.loadKey_wm (s : State) (i : Nat) (data : List Byte) (env : WriteEnv) :
    (s.loadKey i data env).state.wm = s.wm := by
  simp only [State.loadKey]
  repeat' split
  all_goals simp
@[simp] theorem State.eraseKey_wm (s : State) (i : Nat) : (s.eraseKey i).wm = s.wm := by
  unfold State.eraseKey
  split <;> simp
@[simp] theorem State.nextActivateWrite_wm (s : State) (g second : Nat) : (s.nextActivateWrite g second).state.wm = s.wm := by
  simp [State.nextActivateWrite]
@[simp] theorem State.overlapStart_wm (s : State) (g : Nat) : (s.overlapStart g).wm = s.wm := by simp [State.overlapStart]
@[simp] theorem State.promoteSlot_wm (s : State) (g : Nat) : (s.promoteSlot g).wm = s.wm := by simp [State.promoteSlot]
@[simp] theorem State.promotion_wm (s : State) (g : Nat) : (s.promotion g).wm = s.wm := by
  unfold State.promotion
  split <;> simp
@[simp] theorem State.nextKeyRetire_wm (s : State) (g : Nat) : (s.nextKeyRetire g).wm = s.wm := by
  unfold State.nextKeyRetire
  split <;> simp
@[simp] theorem State.loadOrWait_wm (s : State) (i : Nat) (data : List Byte) (env : WriteEnv) :
    (s.loadOrWait i data env).state.wm = s.wm := by
  simp [State.loadOrWait]

/-! Machine/Perf. -/

@[simp] theorem State.selWrite_wm (s : State) (b k value : Nat) : (s.selWrite b k value).state.wm = s.wm := by
  simp [State.selWrite]
@[simp] theorem State.bankClear_wm (s : State) (b value : Nat) : (s.bankClear b value).state.wm = s.wm := by
  simp [State.bankClear]
@[simp] theorem State.dumpLatch_wm (s : State) : s.dumpLatch.wm = s.wm := by
  simp only [State.dumpLatch]
  repeat' split
  all_goals simp
@[simp] theorem State.dumpWritten_wm (s : State) : s.dumpWritten.wm = s.wm := by
  unfold State.dumpWritten
  split <;> simp
@[simp] theorem State.sampleRestart_wm (s : State) : s.sampleRestart.wm = s.wm := by simp [State.sampleRestart]
@[simp] theorem State.sampleConfig_wm (s : State) (r : Reg) (value : Nat) : (s.sampleConfig r value).state.wm = s.wm := by
  simp [State.sampleConfig]
@[simp] theorem State.sampleEnable_wm (s : State) (value : Nat) : (s.sampleEnable value).state.wm = s.wm := by
  simp [State.sampleEnable]
@[simp] theorem State.sampleRing_wm (s : State) : s.sampleRing.2.wm = s.wm := by simp [State.sampleRing]
@[simp] theorem State.loopStart_wm (s : State) (n : Nat) : (s.loopStart n).state.wm = s.wm := by simp [State.loopStart]
@[simp] theorem State.loopDone_wm (s : State) (samples : List Int) : (s.loopDone samples).wm = s.wm := by
  unfold State.loopDone
  split <;> simp

/-! Machine/DictRead. -/

@[simp] theorem State.readChannel_keeps (s : State) (n sub : Nat) : KeptBy Prod.snd s (s.readChannel n sub) := by
  unfold State.readChannel
  split <;> simp [State.shows, State.showsSticky]
@[simp] theorem State.readTracker_keeps (s : State) (sub : Nat) : KeptBy Prod.snd s (s.readTracker sub) := by
  unfold State.readTracker
  split <;> simp [State.shows, State.showsSticky]
@[simp] theorem State.readTide_keeps (s : State) (n sub : Nat) : KeptBy Prod.snd s (s.readTide n sub) := by
  simp [State.readTide, State.shows]
@[simp] theorem State.readSegment_keeps (s : State) (g sub : Nat) : KeptBy Prod.snd s (s.readSegment g sub) := by
  simp [State.readSegment, State.shows]
@[simp] theorem State.readCursor_keeps (s : State) (u sub : Nat) : KeptBy Prod.snd s (s.readCursor u sub) := by
  unfold State.readCursor
  split <;> simp [State.shows]
@[simp] theorem State.readEngine_keeps (s : State) (e sub : Nat) : KeptBy Prod.snd s (s.readEngine e sub) := by
  unfold State.readEngine
  split <;> simp [State.shows]
@[simp] theorem State.readQueue_keeps (s : State) (q sub : Nat) : KeptBy Prod.snd s (s.readQueue q sub) := by
  unfold State.readQueue
  split <;> simp [State.shows, State.showsSticky]
@[simp] theorem State.readMains_keeps (s : State) (u sub : Nat) : KeptBy Prod.snd s (s.readMains u sub) := by
  unfold State.readMains
  split <;> simp [State.shows, State.showsSticky]
@[simp] theorem State.readTime_keeps (s : State) (sub : Nat) : KeptBy Prod.snd s (s.readTime sub) := by
  unfold State.readTime
  split <;> simp [State.shows]
@[simp] theorem State.readIdentity_keeps (s : State) (idx sub : Nat) : KeptBy Prod.snd s (s.readIdentity idx sub) := by
  unfold State.readIdentity
  repeat' split
  all_goals simp only [State.shows, keptBy_some, keptBy_none]
@[simp] theorem State.readDevice_keeps (s : State) (idx sub : Nat) : KeptBy Prod.snd s (s.readDevice idx sub) := by
  simp [State.readDevice, State.shows]
@[simp] theorem State.readBackhaul_keeps (s : State) (idx sub : Nat) : KeptBy Prod.snd s (s.readBackhaul idx sub) := by
  unfold State.readBackhaul
  repeat' split
  all_goals simp [State.shows]
@[simp] theorem State.readPerf_keeps (s : State) (idx sub : Nat) : KeptBy Prod.snd s (s.readPerf idx sub) := by
  simp [State.readPerf, State.shows]
@[simp] theorem State.readSpecial_keeps (s : State) (idx sub : Nat) : KeptBy Prod.snd s (s.readSpecial idx sub) := by
  simp [State.readSpecial, State.shows, State.showsSticky]
@[simp] theorem State.objRead_wm (s : State) (idx sub : Nat) (r : ObjRow) : (s.objRead idx sub r).2.wm = s.wm := by
  have h := s.readSpecial_keeps idx sub
  unfold State.objRead
  cases hr : s.readSpecial idx sub with
  | none => rfl
  | some p => exact h p hr
@[simp] theorem State.readObject_wm (s : State) (via : Path) (idx sub : Nat) : (s.readObject via idx sub).2.wm = s.wm := by
  unfold State.readObject
  split <;> simp
@[simp] theorem State.dictRead_wm (s : State) (via : Path) (idx sub : Nat) : (s.dictRead via idx sub).wm = s.wm := by
  unfold State.dictRead
  split
  · rfl
  · split
    next h => exact (State.answer_wm ..).trans (State.wm_of_eq_mk h (s.readObject_wm ..))
    next h => exact (State.answer_wm ..).trans (State.wm_of_eq_mk h (s.readObject_wm ..))

/-! Machine/Store. -/

@[simp] theorem State.storeAll_wm (s : State) (value : Nat) (flashFits : Bool) : (s.storeAll value flashFits).state.wm = s.wm := by
  unfold State.storeAll
  split
  · rfl
  · split
    · rfl
    · exact (State.modFlash_wm ..).trans (State.bumpBy_wm ..)
@[simp] theorem State.restoreAll_wm (s : State) (value : Nat) : (s.restoreAll value).state.wm = s.wm := by simp [State.restoreAll]

/-! Machine/DictWrite. -/

@[simp] theorem State.writeUnless_wm (s : State) (bad : Bool) (a : Abort) (r : Reg) (v : Nat) :
    (s.writeUnless bad a r v).state.wm = s.wm := by
  simp [State.writeUnless]
@[simp] theorem State.mgmtWrite_wm (s : State) (m sub v : Nat) : (s.mgmtWrite m sub v).state.wm = s.wm := by
  simp [State.mgmtWrite]
@[simp] theorem State.resetWrite_wm (s : State) (via : Path) (v : Nat) : (s.resetWrite via v).state.wm = s.wm := by
  simp [State.resetWrite]
@[simp] theorem State.offsetWrite_wm (s : State) (g v : Nat) : (s.offsetWrite g v).state.wm = s.wm := by simp [State.offsetWrite]
@[simp] theorem State.segmentWrite_keeps (s : State) (g sub v : Nat) : KeptBy WriteResult.state s (s.segmentWrite g sub v) := by
  unfold State.segmentWrite
  extract_lets
  split <;> simp
@[simp] theorem State.channelWrite_keeps (s : State) (n sub v : Nat) : KeptBy WriteResult.state s (s.channelWrite n sub v) := by
  simp [State.channelWrite]
@[simp] theorem State.unitWrite_keeps (s : State) (u sub v : Nat) : KeptBy WriteResult.state s (s.unitWrite u sub v) := by
  unfold State.unitWrite
  repeat' split
  all_goals simp
@[simp] theorem State.coefWrite_wm (s : State) (u : Nat) (data : List Byte) : (s.coefWrite u data).state.wm = s.wm := by
  simp [State.coefWrite]
@[simp] theorem State.groupWrite_keeps (s : State) (sub v : Nat) : KeptBy WriteResult.state s (s.groupWrite sub v) := by
  unfold State.groupWrite
  split <;> simp
@[simp] theorem State.scanWord_wm (s : State) (u : Nat) (scan : Option (Nat × Ecc)) : (s.scanWord u scan).wm = s.wm := by
  unfold State.scanWord
  split <;> simp
@[simp] theorem State.goWrite_wm (s : State) (via : Path) (u v : Nat) (scan : Option (Nat × Ecc)) :
    (s.goWrite via u v scan).state.wm = s.wm := by
  simp [State.goWrite]
@[simp] theorem State.listWrite_wm (s : State) (g : Nat) (data : List Byte) : (s.listWrite g data).state.wm = s.wm := by
  simp [State.listWrite]
@[simp] theorem State.sessionWrite_wm (s : State) (k sub v : Nat) (data : List Byte) :
    (s.sessionWrite k sub v data).state.wm = s.wm := by
  unfold State.sessionWrite
  repeat' split
  all_goals simp
@[simp] theorem State.portWrite_keeps (s : State) (p sub v : Nat) (data : List Byte) :
    KeptBy WriteResult.state s (s.portWrite p sub v data) := by
  unfold State.portWrite
  split <;> simp
@[simp] theorem State.deviceWrite_keeps (s : State) (via : Path) (env : WriteEnv) (idx sub v : Nat) (data : List Byte) :
    KeptBy WriteResult.state s (s.deviceWrite via env idx sub v data) := by
  unfold State.deviceWrite
  repeat' split
  all_goals simp
@[simp] theorem State.backhaulWrite_keeps (s : State) (idx sub v : Nat) (data : List Byte) :
    KeptBy WriteResult.state s (s.backhaulWrite idx sub v data) := by
  simp [State.backhaulWrite]
@[simp] theorem State.storeRaw_wm (s : State) (idx sub v : Nat) : (s.storeRaw idx sub v).wm = s.wm := by simp [State.storeRaw]

/-! Machine/Sdo. -/

@[simp] theorem State.setCanXfer_wm (s : State) (x : Option Xfer) : (s.setCanXfer x).wm = s.wm := by simp [State.setCanXfer]
@[simp] theorem State.canSend_wm (s : State) (bytes : List Byte) : (s.canSend bytes).wm = s.wm := by simp [State.canSend]
@[simp] theorem State.sdoFail_wm (s : State) (idx sub : Nat) (a : Abort) : (s.sdoFail idx sub a).wm = s.wm := by
  simp [State.sdoFail]
@[simp] theorem State.sdoDownload_wm (s : State) (f : List Byte) (idx sub : Nat) : (s.sdoDownload f idx sub).wm = s.wm := by
  simp [State.sdoDownload]
@[simp] theorem State.sdoUpload_wm (s : State) (idx sub : Nat) : (s.sdoUpload idx sub).wm = s.wm := by
  unfold State.sdoUpload
  split
  next h => simp [State.wm_of_eq_mk h (State.readObject_wm ..)]
  next h => simp [State.wm_of_eq_mk h (State.readObject_wm ..)]
@[simp] theorem State.sdoUpSegment_wm (s : State) (toggle : Bool) : (s.sdoUpSegment toggle).wm = s.wm := by
  unfold State.sdoUpSegment
  split <;> simp
@[simp] theorem State.sdoTimeout_wm (s : State) : s.sdoTimeout.wm = s.wm := by
  unfold State.sdoTimeout
  split <;> simp

/-! Machine/Access. -/

@[simp] theorem State.mailReply_wm (s : State) (b : List Byte) : (s.mailReply b).wm = s.wm := by simp [State.mailReply]
@[simp] theorem State.mgmtReply_wm (s : State) (d : MgmtDatagram) (m : Nat) (bytes : List Byte) :
    (s.mgmtReply d m bytes).wm = s.wm := by
  simp [State.mgmtReply]
@[simp] theorem State.mgmtRespond_wm (s : State) (d : MgmtDatagram) (m seq slot : Nat) (key reply : List Byte) :
    (s.mgmtRespond d m seq slot key reply).wm = s.wm := by
  simp [State.mgmtRespond]
@[simp] theorem State.respond_wm (s : State) (r : Reply) (a : Option Abort) : (s.respond r a).wm = s.wm := by
  unfold State.respond
  repeat' split
  all_goals simp
@[simp] theorem State.settle_wm (s : State) (w : Waiting) (a : Option Abort) : (s.settle w a).wm = s.wm := by
  unfold State.settle
  split <;> simp
@[simp] theorem State.flashEnd_wm (s : State) (ok : Bool) : (s.flashEnd ok).wm = s.wm := by
  unfold State.flashEnd
  split <;> simp
@[simp] theorem State.vaultJob_wm (s : State) (job : VaultJob) : (s.vaultJob job).wm = s.wm := by
  unfold State.vaultJob
  split <;> simp
@[simp] theorem State.entropyRecovery_wm (s : State) : s.entropyRecovery.wm = s.wm := by simp [State.entropyRecovery]
@[simp] theorem State.snapshotTimeout_wm (s : State) (p : XferPath) : (s.snapshotTimeout p).wm = s.wm := by
  simp only [State.snapshotTimeout]
  split <;> simp
@[simp] theorem State.pairLow_wm (s : State) (a v : Nat) : (s.pairLow a v).2.wm = s.wm := by simp [State.pairLow]
@[simp] theorem State.pairHigh_wm (s : State) (a v : Nat) : (s.pairHigh a v).2.wm = s.wm := by
  unfold State.pairHigh
  split <;> simp
@[simp] theorem State.windowReg_wm (s : State) (a : Nat) : (s.windowReg a).2.wm = s.wm := by
  unfold State.windowReg
  split <;> simp
@[simp] theorem State.spiWord_wm (s : State) (a : Nat) : (s.spiWord a).2.wm = s.wm := by
  unfold State.spiWord
  repeat' split
  all_goals simp
@[simp] theorem State.spiWords_wm (s : State) (a n : Nat) : (s.spiWords a n).2.wm = s.wm := by
  induction n generalizing s a with
  | zero => rfl
  | succ n ih => simp [State.spiWords, ih]
@[simp] theorem State.spiRead_wm (s : State) (a n : Nat) : (s.spiRead a n).wm = s.wm := by simp [State.spiRead]
@[simp] theorem State.doorbell_wm (s : State) (n : Nat) : (s.doorbell n).wm = s.wm := by simp [State.doorbell]

/-! Machine/Ledger. -/

@[simp] theorem State.journalWrite_wm (s : State) : s.journalWrite.wm = s.wm := by simp [State.journalWrite]
@[simp] theorem State.newBootId_wm (s : State) (ss : List LedgerSector) : (s.newBootId ss).2.wm = s.wm := by
  unfold State.newBootId
  split <;> simp
@[simp] theorem State.setBootId_wm (s : State) (b : Nat) : (s.setBootId b).wm = s.wm := by simp [State.setBootId]
@[simp] theorem State.ledgerRestore_wm (s : State) : s.ledgerRestore.wm = s.wm := by simp [State.ledgerRestore]

/-! Machine/Boot. -/

@[simp] theorem State.readAtReset_wm (s : State) : s.readAtReset.wm = s.wm := by simp [State.readAtReset]
@[simp] theorem State.fillBuckets_wm (s : State) : s.fillBuckets.wm = s.wm := by simp [State.fillBuckets]
@[simp] theorem State.startChannel_wm (s : State) (n : Nat) : (s.startChannel n).wm = s.wm := by simp [State.startChannel]
@[simp] theorem State.startUnit_wm (s : State) (u : Nat) : (s.startUnit u).wm = s.wm := by simp [State.startUnit]
@[simp] theorem State.recover_wm (s : State) (tried : Nat) : (s.recover tried).wm = s.wm := by simp [State.recover]

/-! Machine/Jtag. -/

@[simp] theorem State.tckEdge_wm (s : State) (rising tms tdi : Bool) (cells : List Bool) :
    (s.tckEdge rising tms tdi cells).wm = s.wm := by
  simp [State.tckEdge]
@[simp] theorem State.trstN_wm (s : State) (low : Bool) : (s.trstN low).wm = s.wm := by simp [State.trstN]

end Sys2Proof.Machine

end

section
/-! PROOF. O5: every step keeps working memory in its canonical form. An operation that leaves the bytes alone keeps the form
(`State.Sound.of_wm`); those that write bytes do so through `setBytes`, and a reset lists none. -/

namespace Sys2Proof.Machine

section
variable {s : State}

/-- What keeps the bytes of working memory keeps their form. -/
theorem State.Sound.of_wm {t : State} (h : s.Sound) (ht : t.wm = s.wm) : t.Sound := by
  unfold State.Sound
  rw [ht]
  exact h

theorem State.Sound.ite {t : State} (c : Prop) [Decidable c] (hs : s.Sound) (ht : t.Sound) : (if c then s else t).Sound := by
  split
  · exact hs
  · exact ht

theorem State.Sound.foldl {α : Type} {f : State → α → State} (hf : ∀ t x, t.Sound → (f t x).Sound) (h : s.Sound) (l : List α) :
    (l.foldl f s).Sound := by
  induction l generalizing s with
  | nil => exact h
  | cons x l ih => exact ih (hf s x h)

theorem KeptBy.sound {α : Type} {st : α → State} {o : Option α} (ho : KeptBy st s o) (h : s.Sound) : ∀ x ∈ o, (st x).Sound :=
  fun x hx => h.of_wm (ho x hx)

theorem State.Sound.setBytes (h : s.Sound) (a : Nat) (bs : List Byte) : (s.setBytes a bs).Sound := memWf_setBytes s a bs h

/-! A reset leaves no byte listed (R491). -/

theorem State.cold_sound (s : State) (p : Phase) : (s.cold p).Sound := by
  have h : (s.cold p).wm = [] := rfl
  unfold State.Sound
  rw [h]
  rfl

theorem State.internalReset_sound (s : State) (c : Cause) (core memory detail : Nat) : (s.internalReset c core memory detail).Sound :=
  State.cold_sound _ _

theorem State.pinReset_sound (s : State) : s.pinReset.Sound := State.cold_sound _ _

theorem State.Sound.resetLow (h : s.Sound) (lowNs : Nat) : (s.resetLow lowNs).Sound := by
  unfold State.resetLow
  extract_lets low
  have hlow : ∀ t, (low t).Sound := fun t => State.pinReset_sound _
  split
  · exact hlow _
  · split
    · exact h
    · split
      · exact hlow _
      · exact h.of_wm s.fresh_wm

theorem State.Sound.watchdogFires (h : s.Sound) (core : Nat) : (s.watchdogFires core).Sound := by
  unfold State.watchdogFires
  split
  · exact h
  · dsimp only
    split <;> exact State.internalReset_sound ..

theorem State.Sound.resetReq (h : s.Sound) (value : Nat) : (s.resetReq value).Sound :=
  .ite _ (State.internalReset_sound ..) h

theorem State.Sound.queueEcc (h : s.Sound) (q : Nat) (held : Bool) (ecc : Ecc) (index : Nat) : (s.queueEcc q held ecc index).Sound := by
  cases ecc with
  | clean => exact h
  | corrected => exact h.of_wm (by simp [State.queueEcc])
  | uncorrectable => exact .ite _ (State.internalReset_sound ..) (h.of_wm (by simp))

theorem State.Sound.queueRead (h : s.Sound) (q : Nat) (ecc : Ecc) (index user : Nat) : (s.queueRead q ecc index user).Sound := by
  have he := h.queueEcc q true ecc index
  exact .ite _ h (.ite _ (h.of_wm (by simp)) (.ite _ (he.of_wm (by simp)) he))

theorem State.Sound.scrub (h : s.Sound) (target : ScanTarget) (ecc : Ecc) (passEnd : Bool) : (s.scrub target ecc passEnd).Sound := by
  unfold State.scrub
  extract_lets t
  have ht : t.Sound := by
    cases target with
    | working off => exact h.of_wm (State.wmEcc_wm ..)
    | queue q held word => exact .ite _ (h.queueEcc ..) h
    | core c off => exact h.of_wm (State.coreEcc_wm ..)
  exact .ite _ (ht.of_wm (State.bump_wm ..)) ht

/-! The three writers of bytes: a check unit's run, the host scratch window, and the sections of an image. -/

theorem State.Sound.cuEnd (h : s.Sound) (u : Nat) (r : CuRun) : (s.cuEnd u r).Sound := by
  have hw : ∀ t : State, ∀ status len value, t.Sound → (t.cuFinish u status len value).Sound :=
    fun t _ _ _ ht => ht.of_wm (State.cuFinish_wm ..)
  exact .ite _ (hw _ _ _ _ h) (.ite _ (.ite _ (hw _ _ _ _ h) (hw _ _ _ _ h)) (hw _ _ _ _ (h.setBytes ..)))

theorem State.Sound.scratchWrite (h : s.Sound) (data : List Byte) : (s.scratchWrite data).state.Sound := by
  unfold State.scratchWrite
  extract_lets off a
  split
  · exact h
  · split
    · exact h
    · exact h.setBytes a data

theorem State.Sound.loadSections (h : s.Sound) (slot : Nat) : (s.loadSections slot).Sound :=
  .foldl (fun _ _ ht => ht.setBytes ..) (h.of_wm (State.modSys_wm ..)) _

/-! Writes of the object dictionary. -/

theorem State.Sound.testWrite (h : s.Sound) (idx sub v : Nat) (data : List Byte) :
    ∀ r ∈ s.testWrite idx sub v data, r.state.Sound := by
  unfold State.testWrite
  split
  · refine KeptBy.sound ?_ h
    split <;> simp
  · split
    · exact KeptBy.sound (by simp) h
    · split
      · rintro _ ⟨⟩
        exact h.scratchWrite data
      · exact KeptBy.sound (by simp) h

/-- The counter, sampling and test objects lie above every other object with rules of its own (R427). -/
theorem State.writeSpecial_of_le (s : State) (via : Path) (env : WriteEnv) {idx : Nat} (sub v : Nat) (data : List Byte)
    (hi : 0x9000 ≤ idx) : s.writeSpecial via env idx sub v data = s.testWrite idx sub v data := by
  unfold State.writeSpecial
  simp only [Bool.and_eq_true, decide_eq_true_eq]
  simp (disch := omega) only [if_neg, if_pos]

theorem State.writeSpecial_keeps_of_lt (s : State) (via : Path) (env : WriteEnv) {idx : Nat} (sub v : Nat) (data : List Byte)
    (hi : idx < 0x9000) : KeptBy WriteResult.state s (s.writeSpecial via env idx sub v data) := by
  simp [State.writeSpecial, Nat.not_le.2 hi]

theorem State.Sound.writeSpecial (h : s.Sound) (via : Path) (env : WriteEnv) (idx sub v : Nat) (data : List Byte) :
    ∀ r ∈ s.writeSpecial via env idx sub v data, r.state.Sound := by
  rcases Nat.lt_or_ge idx 0x9000 with hi | hi
  · exact (s.writeSpecial_keeps_of_lt via env sub v data hi).sound h
  · rw [s.writeSpecial_of_le via env sub v data hi]
    exact h.testWrite idx sub v data

theorem State.Sound.objWrite (h : s.Sound) (via : Path) (env : WriteEnv) (idx sub : Nat) (r : ObjRow) (data : List Byte) :
    (s.objWrite via env idx sub r data).state.Sound := by
  unfold State.objWrite
  extract_lets v
  split
  · exact h
  · split
    · exact h
    · split
      · exact h
      · cases hw : s.writeSpecial via env idx sub v data with
        | none => exact h.of_wm (State.modDict_wm ..)
        | some w => exact h.writeSpecial via env idx sub v data w hw

theorem State.Sound.writeObject (h : s.Sound) (via : Path) (env : WriteEnv) (idx sub : Nat) (data : List Byte) :
    (s.writeObject via env idx sub data).state.Sound := by
  unfold State.writeObject
  split
  · exact h
  · exact h.objWrite ..

theorem WriteResult.answered_wm (r : WriteResult) : r.answered.wm = r.state.wm := by
  unfold WriteResult.answered
  split <;> simp

theorem State.Sound.dictWrite (h : s.Sound) (via : Path) (env : WriteEnv) (idx sub : Nat) (data : List Byte) :
    (s.dictWrite via env idx sub data).Sound :=
  .ite _ ((h.writeObject via env idx sub data).of_wm (WriteResult.answered_wm _)) h

/-! The transports. -/

theorem State.Sound.sdoApply (h : s.Sound) (env : WriteEnv) (idx sub : Nat) (data ok : List Byte) :
    (s.sdoApply env idx sub data ok).Sound := by
  have hw : ((s.setCanXfer none).writeObject .can env idx sub data).state.Sound :=
    (h.of_wm (State.setCanXfer_wm ..)).writeObject ..
  unfold State.sdoApply
  dsimp only
  split <;> exact hw.of_wm (by simp)

theorem State.Sound.sdoExpedited (h : s.Sound) (f : List Byte) (env : WriteEnv) (idx sub : Nat) :
    (s.sdoExpedited f env idx sub).Sound :=
  .ite _ (h.of_wm (by simp)) (h.sdoApply ..)

theorem State.Sound.sdoDownSegment (h : s.Sound) (f : List Byte) (env : WriteEnv) (toggle last : Bool) :
    (s.sdoDownSegment f env toggle last).Sound := by
  have hf : ∀ idx sub a, (s.sdoFail idx sub a).Sound := fun _ _ _ => h.of_wm (State.sdoFail_wm ..)
  unfold State.sdoDownSegment
  split
  · exact hf ..
  · exact .ite _ (hf ..) (.ite _ (hf ..) (.ite _ (hf ..) (.ite _ (h.sdoApply ..) (h.of_wm (by simp)))))

theorem State.Sound.sdoFrame (h : s.Sound) (canId : Nat) (f : List Byte) (env : WriteEnv) : (s.sdoFrame canId f env).Sound :=
  .ite _ h (.ite _ (h.sdoExpedited ..) (.ite _ (h.of_wm (by simp)) (.ite _ (h.sdoDownSegment ..)
    (.ite _ (h.of_wm (by simp)) (.ite _ (h.of_wm (by simp)) (.ite _ (h.of_wm (by simp)) (h.of_wm (by simp))))))))

@[simp] theorem State.accFail_wm (s : State) (d : AccHead) (a : Abort) : (s.accFail d a).state.wm = s.wm := State.answer_wm ..

@[simp] theorem State.accPart_wm (s : State) (d : AccHead) (b : List Byte) (room : Nat) : (s.accPart d b room).state.wm = s.wm := rfl

theorem State.accRead_wm (s : State) (via : Path) (x : Option Xfer) (d : AccHead) (room : Nat) :
    (s.accRead via x d room).state.wm = s.wm := by
  unfold State.accRead
  split
  · split
    · simp
    · split
      next h => simp [State.wm_of_eq_mk h (State.readObject_wm ..)]
      next h => simp [State.wm_of_eq_mk h (State.readObject_wm ..)]
  · split
    · split <;> simp
    · simp

theorem State.Sound.accApply (h : s.Sound) (via : Path) (env : WriteEnv) (d : AccHead) (data : List Byte) :
    (s.accApply via env d data).state.Sound := by
  have hw := h.writeObject via env d.idx d.sub data
  unfold State.accApply
  dsimp only
  split
  · exact hw
  · exact hw.of_wm (State.accFail_wm ..)
  · exact hw.of_wm (State.answer_wm ..)

theorem State.Sound.accWrite (h : s.Sound) (via : Path) (env : WriteEnv) (x : Option Xfer) (d : AccHead) (part : List Byte) :
    (s.accWrite via env x d part).state.Sound := by
  unfold State.accWrite
  extract_lets held
  clear_value held
  split
  · exact h.of_wm (State.accFail_wm ..)
  · dsimp only
    split
    · exact h.of_wm (State.accFail_wm ..)
    · split
      · exact h.accApply ..
      · exact h

theorem State.Sound.serveRecord (h : s.Sound) (via : Path) (env : WriteEnv) (x : Option Xfer) (b : List Byte) (room : Nat) :
    (s.serveRecord via env x b room).state.Sound := by
  unfold State.serveRecord
  extract_lets d
  split
  · exact h.of_wm (State.accRead_wm ..)
  · split
    · exact h.accWrite ..
    · exact h.of_wm (State.accFail_wm ..)

theorem State.Sound.serveMailbox (h : s.Sound) (env : WriteEnv) : (s.serveMailbox env).Sound := by
  unfold State.serveMailbox
  split
  · exact h
  · extract_lets n b r t
    have hr : r.state.Sound := by
      simp only [r]
      split
      · exact h.of_wm (State.accFail_wm ..)
      · split
        · exact h.of_wm (State.accFail_wm ..)
        · exact h.serveRecord ..
    have ht : t.Sound := hr.of_wm (State.modMgmt_wm ..)
    split <;> exact ht.of_wm (by simp)

theorem State.Sound.mgmtExecute (h : s.Sound) (d : MgmtDatagram) (env : WriteEnv) (m seq : Nat) :
    (s.mgmtExecute d env m seq).Sound := by
  unfold State.mgmtExecute
  extract_lets slot key w t r u
  have ht : t.Sound := h.of_wm ((State.modMgmt_wm ..).trans (State.bump_wm ..))
  have hu : u.Sound := (ht.serveRecord ..).of_wm (State.modMgmt_wm ..)
  split <;> exact hu.of_wm (by simp)

theorem State.Sound.mgmtDatagram (h : s.Sound) (d : MgmtDatagram) (env : WriteEnv) : (s.mgmtDatagram d env).Sound := by
  have hb : ∀ r : Reg, (s.bump r).Sound := fun r => h.of_wm (State.bump_wm ..)
  unfold State.mgmtDatagram
  extract_lets head m seq slot t
  have ht : t.Sound := h.of_wm (State.slotUse_wm ..)
  refine .ite _ h (.ite _ (hb _) (.ite _ (hb _) (.ite _ h (.ite _ (hb _) (.ite _ (ht.of_wm ?_) (.ite _ (ht.mgmtExecute ..) ?_))))))
  · simp
  · split <;> exact ht.of_wm (by simp)

theorem State.Sound.access (h : s.Sound) (src : AccessSrc) (env : WriteEnv) : (s.access src env).Sound := by
  cases src with
  | mailbox => exact h.serveMailbox env
  | udp d => exact .ite _ (h.mgmtDatagram d env) h

theorem State.Sound.spiPut (h : s.Sound) (a v : Nat) : (s.spiPut a v).Sound :=
  .ite _ h (.ite _ (h.resetReq v) (.ite _ (h.of_wm (by simp)) (.ite _ (h.of_wm (by simp)) h)))

theorem State.Sound.spiWrite (h : s.Sound) (a : Nat) (vs : List Nat) : (s.spiWrite a vs).Sound := by
  induction vs generalizing s a with
  | nil => exact h
  | cons v vs ih => exact ih (h.spiPut ..) _

/-! Boot. -/

theorem State.Sound.applyStore (h : s.Sound) (r : StoreRec) : (s.applyStore r).Sound :=
  .ite _ (h.of_wm (State.bump_wm ..)) (h.writeObject ..)

theorem State.Sound.restoreStore (h : s.Sound) : s.restoreStore.Sound := by
  unfold State.restoreStore
  extract_lets t u v
  have ht : t.Sound := by
    simp only [t]
    split
    · exact .foldl (fun _ _ hu => hu.applyStore _) (h.of_wm ((State.wr_wm ..).trans (State.wr_wm ..))) _
    · exact .ite _ h (h.of_wm (State.wr_wm ..))
  exact ht.of_wm (by simp [v, u])

theorem State.Sound.restoreSegments (h : s.Sound) : s.restoreSegments.Sound := by
  unfold State.restoreSegments
  split
  · exact .foldl (fun _ _ hu => hu.applyStore _) h _
  · exact h

theorem State.Sound.run (h : s.Sound) (k tried us : Nat) : (s.run k tried us).Sound := by
  unfold State.run
  extract_lets t u v w
  have ht : t.Sound := (h.loadSections k).of_wm (State.modSys_wm ..)
  have hu : u.Sound := ht.of_wm (by simp [u])
  have hw : w.Sound := hu.restoreStore.of_wm (State.modSys_wm ..)
  exact (hw.of_wm (State.ledgerRestore_wm _)).restoreSegments

theorem State.boot_sound (s : State) (e : BootEnv) : (s.boot e).Sound := by
  unfold State.boot
  extract_lets t id u pick a b v
  have hu : u.Sound := (State.cold_sound s .hold).of_wm ((State.modPins_wm ..).trans (State.modSys_wm ..))
  have hv : v.Sound := hu.of_wm ((State.wr_wm ..).trans (State.wr_wm ..))
  refine .ite _ (hu.of_wm (by simp)) ?_
  split
  · exact hv.run ..
  · exact hv.of_wm (by simp)

/-! What a command answers. -/

/-- Every next state that a command can answer has the canonical form. -/
def OutSound (o : Out) : Prop := ∀ t, o = .next t → t.Sound

theorem keepQueue_sound {t : State} (ht : t.Sound) : OutSound (keepQueue s t) := by
  rintro _ ⟨⟩
  exact ht.of_wm (State.modPending_wm ..)

theorem whenRunning_sound {t : State} (h : s.Sound) (ht : t.Sound) : OutSound (whenRunning s t) := keepQueue_sound (.ite _ ht h)

theorem onCore_sound {c : Nat} {t : State} (h : s.Sound) (ht : t.Sound) : OutSound (onCore c s t) := keepQueue_sound (.ite _ ht h)

theorem onKeys_sound {t : State} (h : s.Sound) (ht : t.Sound) : OutSound (onKeys s t) := keepQueue_sound (.ite _ ht h)

theorem exec_sound (i : Instr) (h : s.Sound) : OutSound (exec i s) := by
  cases i with
  | reset | channelEnable | channelDisable | refUnit | cursorSelect | cursorDisassociate | segEnable | segDisable
  | nextActivate | admitMode | admitWrite | vaultClear | commitSecurityVersion | rootRevoke | imageData | imageVerify | cuGo
  | scratchDataWrite | mainsUnitRestart | trigNow | groupTrigNow | sessionWrite | timeSet | storeAll | restoreAll
  | objectWrite | loopTest | selWrite | bankClear | sampleConfigWrite =>
    exact keepQueue_sound (h.dictWrite ..)
  | keyLoad | erase | boundEui | faultClear =>
    exact onKeys_sound h (h.dictWrite ..)
  | watchdogService | channelConfigApply | synthLock | synthLockLoss | agcDecision | trimPreload | trimTakesEffect
  | rxBreakwaterOverflow | txUnderrun | mainsBwOverflow | txReadinessCheck | frameTxStart | frameTxEnd | txBlankEnd
  | detection | timingMark | acqFail | fineTrim | groupClose | frameControlCheck | pilotTrack | codewordDecoded | shed
  | mpduResolve | receptionEnd | secondaryDetection | captureDecision | ackSend | ackReceive | ackWindowExpiry
  | swellAckSend | swellAckWindowExpiry | laneHeaderCheck | laneFramePlace | laneFrameStart | laneFrameEnd
  | swellConfigApply | wakeFrame | mainsCycle | observationWindow | cipherEngineRequest | engineOwnerWrite | cipherBlock
  | cipherMessageEnd | entropyTestFail | queueWrite | mainsConfigApply | scheduleTrigger | mainsPhaseTrigger | ppsTrigger
  | mctrigEdge | waveformSample | phasor | cycleIntegral | sh240Result | alarmHoldoffExpiry | linkUp | linkDown | ethFrameRx
  | ethFrameTxEnd | addressResolution | icmpEcho | nbDatagram | ptpMessage | sourceLoss | ppsInEdge | ppsInTimeout
  | ppsOutRise | loopTestDone | dumpLatch | dumpRecordWritten | expectedWindowEnd | laneBlankEnd | entropyRecovery
  | ptpMessageSend =>
    exact whenRunning_sound h (h.of_wm (by simp))
  | tideSlotEnd | downlinkPlan | soundRequest | soundTimeout | soundingComplete | toneMapResponse | mapRefresh | tideReport
  | beacon | reachBeacon | associationRequest | leaseRenew | sleepSchedule | present | allocRequest | disassociate
  | laneSfSet | longReachSet | neighbourReport | routeInterval | relayedAssocTimeout | leaseExpiry | addressHoldExpiry
  | wakeWindowEnd | adriftHoldExpiry | helloSend | hello | peerAbsent | couplingSend | coupling | coupleAgeExpiry
  | slotMapSend | slotMap | claimResolve | roamQuery | roamOffer | roamOfferWaitExpiry | roamRequery | roamAccept
  | roamAcceptTimeout | txnRelay | request | abort | abortTakeRecord | legQuotaRelease | respWaitExpiry | legDeadline
  | aggTimeExpiry | cacheTimeExpiry | reportRepeat | alarmReport | fcReservation | overlapStart | promotion | nextKeyRetire
  | vaultOperation | ledgerJournalWrite =>
    exact onCore_sound h (h.of_wm (by simp))
  | stickyFlagRead | eventRead | sdoTimeout | canBusOff | canBusOffRecovery | snapshotTimeout | spiRead | pairLowRead
  | pairHighRead | winStatusRead | sampleRingRead | flashWriteDone | tckEdge | trstNAssert =>
    exact keepQueue_sound (h.of_wm (by simp))
  | sdoDownloadExpedited | sdoDownloadInitiate | sdoDownloadSegment | sdoUploadInitiate | sdoUploadSegment | sdoAbort =>
    exact keepQueue_sound (h.sdoFrame ..)
  | accessRead | accessWrite => exact keepQueue_sound (h.access ..)
  | spiWrite => exact keepQueue_sound (h.spiWrite ..)
  | mbxDoorbell => exact keepQueue_sound (h.spiPut ..)
  | resetNAssert => exact keepQueue_sound (h.resetLow _)
  | resetNRelease | resetHoldEnd => exact keepQueue_sound (.ite _ (State.boot_sound ..) h)
  | resetReq => exact keepQueue_sound (h.resetReq _)
  | resetDelayExpiry =>
    refine keepQueue_sound ?_
    split
    · exact h
    · exact State.internalReset_sound ..
  | watchdogExpiry => exact whenRunning_sound h (h.watchdogFires _)
  | scrub => exact whenRunning_sound h (h.scrub ..)
  | queueRead => exact whenRunning_sound h (.ite _ (h.queueRead ..) h)
  | cuRunEnd =>
    refine whenRunning_sound h ?_
    split
    · exact (h.cuEnd ..).of_wm (State.sampleBack_wm ..)
    · exact h
  | bwPeakRead =>
    have hd (t : State) (ht : t.Sound) : ∀ via idx sub, (t.dictRead via idx sub).Sound :=
      fun _ _ _ => ht.of_wm (State.dictRead_wm ..)
    exact keepQueue_sound (hd _ (.ite _ (h.of_wm (State.modChan_wm ..)) h) ..)
  | coastLimitExpiry =>
    refine whenRunning_sound h ?_
    split
    · exact h.of_wm ((State.modTime_wm ..).trans (State.atDeadline_wm ..))
    · exact h
  | ppsOutFall =>
    refine whenRunning_sound h ?_
    split
    · exact h.of_wm (((State.modTime_wm ..).trans (State.modPins_wm ..)).trans (State.atDeadline_wm ..))
    · exact h

end

/-- Settles O5: working memory is written a byte at a time through `setByte`, which keeps its form, is emptied by a reset, and
is left alone by everything else. -/
theorem everyStepKeepsWorkingMemoryCanonical : Obligations.EveryStepKeepsWorkingMemoryCanonical := by
  intro s t h hstep
  unfold step at hstep
  split at hstep
  · obtain ⟨⟩ := hstep
    exact h.of_wm (State.passTo_wm ..)
  · exact exec_sound _ (h.of_wm (State.modPending_wm ..)) t hstep

end Sys2Proof.Machine

end

section
/-! PROOF. O8: a watchdog that runs out resets the device, and a service defers it. -/

namespace Sys2Proof.Machine

/-! Which parts an update changes. -/

theorem onlyChanges_modDict (s : State) (f : Tbl Nat → Tbl Nat) : OnlyChanges [.dict] s (s.modDict f) := by
  intro p hp
  cases p <;> simp_all [Part.Same]

theorem onlyChanges_modSys (s : State) (f : Sys → Sys) : OnlyChanges [.sys] s (s.modSys f) := by
  intro p hp
  cases p <;> simp_all [Part.Same]

theorem onlyChanges_modMac (s : State) (f : Mac → Mac) : OnlyChanges [.mac] s (s.modMac f) := by
  intro p hp
  cases p <;> simp_all [Part.Same]

theorem onlyChanges_wr (s : State) (r : Reg) (v : Nat) : OnlyChanges [.dict] s (s.wr r v) := onlyChanges_modDict s _

theorem onlyChanges_bump (s : State) (r : Reg) : OnlyChanges [.dict] s (s.bump r) := onlyChanges_modDict s _

theorem onlyChanges_event (s : State) (b code : Nat) : OnlyChanges [.perf] s (s.event b code) := by
  intro p hp
  cases p <;> simp_all [Part.Same]

theorem Part.Same.refl (p : Part) (s : State) : p.Same s s := by
  cases p <;> rfl

theorem Part.Same.trans {p : Part} {s t u : State} (h : p.Same s t) (h' : p.Same t u) : p.Same s u := by
  cases p <;> exact Eq.trans h' h

theorem OnlyChanges.trans {ps qs : List Part} {s t u : State} (h : OnlyChanges ps s t) (h' : OnlyChanges qs t u) :
    OnlyChanges (ps ++ qs) s u := by
  intro p hp
  rw [List.mem_append, not_or] at hp
  exact (h p hp.1).trans (h' p hp.2)

theorem OnlyChanges.mono {ps qs : List Part} {s t : State} (h : OnlyChanges ps s t) (hq : ps ⊆ qs) : OnlyChanges qs s t :=
  fun p hp => h p fun hm => hp (hq hm)

/-! Time that passes advances two counters of the dictionary and no other register (R158, R420). -/

theorem State.atDeadline_rd (s : State) (due : Nat) {r : Reg} (hu : r.key ≠ K.times.UNSYNC_SECONDS.key)
    (hp : r.key ≠ K.trks.PHASE_STEP_COUNT.key) : (s.atDeadline due).rd r = s.rd r := by
  have hunsync : (s.unsyncPass due).rd r = s.rd r := by
    unfold State.unsyncPass
    split
    · rfl
    · exact State.rd_bumpBy_ne s _ hu
  have hstep (t : State) : (t.takeStep due).rd r = t.rd r := by
    unfold State.takeStep
    split
    · rfl
    · split
      · exact State.rd_bump_ne _ hp
      · rfl
  unfold State.atDeadline State.passTo
  split
  · rfl
  · calc ((((s.unsyncPass due).tickEvents (due - s.now)).takeStep due).modNow fun _ => due).rd r
        = ((s.unsyncPass due).tickEvents (due - s.now)).rd r := hstep _
      _ = (s.unsyncPass due).rd r := by simp [State.rd]
      _ = s.rd r := hunsync

/-! A reset (R447, R484, R491). -/

/-- What no reset changes of the flash: the fuses. -/
def Flash.sameFuses (f g : Flash) : Prop :=
  g.eui64 = f.eui64 ∧ g.macBase = f.macBase ∧ g.minVersion = f.minVersion ∧ g.rootRevoked = f.rootRevoked

theorem State.cutOp_sameFuses (s : State) (op : FlashOp) : s.flash.sameFuses (s.cutOp op).flash := by
  have hl : ∀ body good, s.flash.sameFuses (s.ledgerPut body good).flash := by
    intro body good
    unfold State.ledgerPut
    split <;> exact ⟨rfl, rfl, rfl, rfl⟩
  cases op with
  | image => exact ⟨rfl, rfl, rfl, rfl⟩
  | store => exact ⟨rfl, rfl, rfl, rfl⟩
  | restoreMark => exact ⟨rfl, rfl, rfl, rfl⟩
  | reservation | journal | admission =>
    unfold State.cutOp
    exact hl _ _

theorem State.cutFlash_sameFuses (s : State) : s.flash.sameFuses s.cutFlash.flash := by
  have hfold : ∀ (ops : List FlashOp) (t : State), t.flash.sameFuses (ops.foldl State.cutOp t).flash := by
    intro ops
    induction ops with
    | nil => exact fun t => ⟨rfl, rfl, rfl, rfl⟩
    | cons op ops ih =>
      intro t
      obtain ⟨he, hm, hv, hr⟩ := t.cutOp_sameFuses op
      obtain ⟨he', hm', hv', hr'⟩ := ih (t.cutOp op)
      exact ⟨he'.trans he, hm'.trans hm, hv'.trans hv, hr'.trans hr⟩
  exact hfold s.flash.ops s

theorem State.cutFlash_of_idle (s : State) (h : s.flash.ops = []) :
    s.cutFlash.flash.image = s.flash.image ∧ s.cutFlash.flash.stores = s.flash.stores ∧ s.cutFlash.flash.ledger = s.flash.ledger := by
  simp [State.cutFlash, h]

theorem State.cold_resetTo (s : State) (p : Phase) : ResetTo p s (s.cold p) := by
  obtain ⟨he, hm, hv, hr⟩ := s.cutFlash_sameFuses
  exact ⟨rfl, rfl, rfl, rfl, rfl, rfl, rfl, rfl, rfl, rfl, rfl, rfl, rfl, rfl, rfl, rfl, rfl, rfl, rfl, rfl, rfl, rfl,
    he, hm, hv, hr, s.cutFlash_of_idle, rfl, rfl, rfl, rfl, rfl⟩

theorem ResetTo.of_eq {p : Phase} {s u t : State} (h : ResetTo p u t) (hf : u.flash = s.flash) (hj : u.jtag = s.jtag)
    (hp : u.pins = s.pins) : ResetTo p s t := by
  unfold ResetTo at h ⊢
  rwa [hf, hj, hp] at h

/-- The registers of the reset cause are what a reset keeps of the dictionary (R447). -/
theorem State.cold_rd_cause (s : State) (p : Phase) :
    (s.cold p).rd K.cause.CAUSE = s.rd K.cause.CAUSE ∧ (s.cold p).rd K.cause.CORE = s.rd K.cause.CORE ∧
      (s.cold p).rd K.cause.MEMORY = s.rd K.cause.MEMORY ∧ (s.cold p).rd K.cause.DETAIL = s.rd K.cause.DETAIL ∧
      (s.cold p).rd K.cause.INTERNAL_RESETS = s.rd K.cause.INTERNAL_RESETS := by
  refine ⟨?_, ?_, ?_, ?_, ?_⟩
  all_goals
    unfold State.rd State.cold
    simp (disch := decide) only [List.foldl, Tbl.atD_store_self, Tbl.atD_store_ne]
    rfl

theorem State.internalReset_resetTo (s : State) (c : Cause) (core memory detail : Nat) :
    ResetTo .hold s (s.internalReset c core memory detail) :=
  (State.cold_resetTo _ _).of_eq (by simp [State.setCause]) (by simp [State.setCause]) (by simp [State.setCause])

theorem State.internalReset_causeIs (s : State) (c : Cause) {core memory detail : Nat} (hc : core < 256) (hm : memory < 256)
    (hd : detail < 2 ^ 32) : CauseIs (s.internalReset c core memory detail) c.code core memory detail := by
  obtain ⟨h₁, h₂, h₃, h₄, -⟩ := ((s.setCause c core memory detail).bump K.cause.INTERNAL_RESETS).cold_rd_cause .hold
  have hcode : c.code < 256 := by cases c <;> decide
  unfold CauseIs State.internalReset
  rw [h₁, h₂, h₃, h₄]
  simp (disch := decide) only [State.setCause, State.rd_bump_ne, State.rd_wr_ne, State.rd_wr_self]
  exact ⟨Nat.mod_eq_of_lt hcode, Nat.mod_eq_of_lt hc, Nat.mod_eq_of_lt hm, Nat.mod_eq_of_lt hd⟩

theorem State.internalReset_counted (s : State) (c : Cause) (core memory detail : Nat) :
    Counted K.cause.INTERNAL_RESETS s (s.internalReset c core memory detail) := by
  obtain ⟨-, -, -, -, h⟩ := ((s.setCause c core memory detail).bump K.cause.INTERNAL_RESETS).cold_rd_cause .hold
  unfold Counted State.internalReset
  rw [h, State.rd_bump_self]
  simp (disch := decide) only [State.setCause, State.rd_wr_ne]

theorem ResetTo.modPending {p : Phase} {s t : State} (h : ResetTo p s t) (f : List Instr → List Instr) :
    ResetTo p s (t.modPending f) := h

theorem State.rd_modPending (s : State) (f : List Instr → List Instr) (r : Reg) : (s.modPending f).rd r = s.rd r := rfl

theorem CauseIs.modPending {t : State} {cause core memory detail : Nat} (h : CauseIs t cause core memory detail)
    (f : List Instr → List Instr) : CauseIs (t.modPending f) cause core memory detail := h

/-- The watchdog of a core that runs out (R26, R23): what the reset leaves of `s`, its cause and its count. -/
theorem State.internalReset_atDeadline (s : State) (due : Nat) (c : Cause) {core memory detail : Nat} (hc : core < 256)
    (hm : memory < 256) (hd : detail < 2 ^ 32) :
    ResetTo .hold s ((s.atDeadline due).internalReset c core memory detail) ∧
      CauseIs ((s.atDeadline due).internalReset c core memory detail) c.code core memory detail ∧
      Counted K.cause.INTERNAL_RESETS s ((s.atDeadline due).internalReset c core memory detail) := by
  refine ⟨(State.internalReset_resetTo ..).of_eq (s.atDeadline_flash due) (s.atDeadline_jtag due) (s.atDeadline_pins due),
    State.internalReset_causeIs _ c hc hm hd, ?_⟩
  have h := (s.atDeadline due).internalReset_counted c core memory detail
  unfold Counted at h ⊢
  rwa [s.atDeadline_rd due (by decide) (by decide)] at h

theorem whenRunning_of_running {s : State} (h : s.running = true) (t : State) :
    whenRunning s t = .next (t.modPending fun _ => s.pending) := by
  simp [whenRunning, keepQueue, h]

/-- A service of a core's watchdog that is due nowhere before 100 ms from now (R26). -/
def State.watchdogServed (s : State) (core : Nat) : State :=
  (s.modSys fun y => { y with wdDue := Tbl.ins y.wdDue core (s.now + wdTicks) }).event core 0x08

theorem State.watchdogServed_sys (s : State) (core : Nat) :
    (s.watchdogServed core).sys = { s.sys with wdDue := Tbl.ins s.sys.wdDue core (s.now + wdTicks) } :=
  State.event_sys ..

theorem State.watchdogServed_onlyChanges (s : State) (core : Nat) : OnlyChanges [.sys, .perf] s (s.watchdogServed core) :=
  (onlyChanges_modSys s _).trans (onlyChanges_event _ core 0x08)

theorem OnlyChanges.keepQueue {ps : List Part} {s t : State} (h : OnlyChanges ps s t) :
    OnlyChanges ps s (t.modPending fun _ => s.pending) := by
  intro p hp
  cases p with
  | pending => rfl
  | _ => exact h _ hp

/-- Settles O8: an expiry is an internal reset at the watchdog's deadline, and a service writes the deadline alone. -/
theorem unservicedWatchdogResetsTheDevice : Obligations.UnservicedWatchdogResetsTheDevice := by
  intro core s hrun
  refine ⟨fun due hc hdue hup => ?_, fun due e hc hm hd hdue hhalt => ?_, fun hc hup => ?_, fun hc hhalt => ?_⟩
  · have hf : s.watchdogFires core = (s.atDeadline due).internalReset .watchdog core 0 0 := by
      simp [State.watchdogFires, hdue, hup]
    have h := s.internalReset_atDeadline due .watchdog hc (by decide : 0 < 256) (by decide : 0 < 2 ^ 32)
    rw [← hf] at h
    exact ⟨_, whenRunning_of_running hrun _, h⟩
  · have hf : s.watchdogFires core = (s.atDeadline due).internalReset .memory core e.memory e.detail := by
      simp [State.watchdogFires, hdue, hhalt]
    have h := s.internalReset_atDeadline due .memory hc hm hd
    rw [← hf] at h
    exact ⟨_, whenRunning_of_running hrun _, h⟩
  · have he : execWatchdogService core s = whenRunning s (s.watchdogServed core) := by
      simp [execWatchdogService, State.watchdogServed, hc, hup]
    have hs := s.watchdogServed_sys core
    refine ⟨_, he.trans (whenRunning_of_running hrun _), ?_, ?_, (s.watchdogServed_onlyChanges core).keepQueue, ?_⟩
    · simp [hs, wdTicks]
    · intro k hk
      simp only [State.modPending_sys, hs]
      exact Tbl.at?_ins_ne _ _ (by simpa using hk)
    · simp [hs]
  · have he : execWatchdogService core s = whenRunning s s := by
      simp [execWatchdogService, Option.isSome_iff_ne_none.1 hhalt]
    exact he.trans (whenRunning_of_running hrun s)

end Sys2Proof.Machine

end

section
/-! PROOF. O14: the effects of what the scrubber finds. -/

namespace Sys2Proof.Machine

/-! The scrubber (R21 to R23, R371). -/

theorem Tbl.at?_store_ne {α : Type} [DecidableEq α] (t : Tbl α) {j k : Nat} (v d : α) (h : j ≠ k) :
    Tbl.at? (Tbl.store d t k v) j = Tbl.at? t j := by
  unfold Tbl.store
  split
  · exact Tbl.at?_del_ne t h
  · exact Tbl.at?_ins_ne t v h

theorem OnlyRegs.refl (rs : List Reg) (s : State) : OnlyRegs rs s s := fun _ _ => rfl

theorem OnlyRegs.wr {rs : List Reg} {s t : State} (h : OnlyRegs rs s t) {r : Reg} (v : Nat) (hr : r ∈ rs) :
    OnlyRegs rs s (t.wr r v) := by
  intro k hk
  have hne : k ≠ r.key := fun hkr => hk (hkr ▸ List.mem_map_of_mem hr)
  exact (Tbl.at?_store_ne t.dict (v % 2 ^ r.bits) r.dflt hne).trans (h k hk)

/-- What a scrub that leaves the device running does, as the command answers it. -/
theorem exec_scrub {s t : State} {target : ScanTarget} {ecc : Ecc} {passEnd : Bool} (hrun : s.running = true)
    (h : s.scrub target ecc passEnd = t) : exec (.scrub target ecc passEnd) s = .next (t.modPending fun _ => s.pending) := by
  rw [← h]
  exact whenRunning_of_running hrun _

theorem State.scrub_clean (s : State) (target : ScanTarget) : s.scrub target .clean false = s := by
  cases target with
  | working off => rfl
  | queue q held word => simp [State.scrub, State.queueEcc]
  | core c off => simp [State.scrub, State.coreEcc]

theorem State.scrub_working_corrected (s : State) (off : Nat) :
    s.scrub (.working off) .corrected false = (s.bump K.wm.WM_CORRECTED).wr K.wm.WM_LAST_ADDR (off / 8 * 8) := rfl

theorem State.scrub_core_corrected {s : State} (hrun : s.running = true) {c : Nat} (hc : c < 8) (off : Nat) :
    s.scrub (.core c off) .corrected true = (s.bump (K.cm.CM_CORRECTED c)).bump K.scrub.SCRUB_PASS := by
  have hr : (s.bump (K.cm.CM_CORRECTED c)).running = true := hrun
  simp [State.scrub, State.coreEcc, Nat.not_le.2 hc, hr]

theorem State.scrub_core_uncorrectable (s : State) {c : Nat} (hc : c < 8) (off : Nat) :
    s.scrub (.core c off) .uncorrectable false = s.haltCore c 3 (off / 8) := by
  simp [State.scrub, State.coreEcc, Nat.not_le.2 hc]

theorem State.scrub_queue_corrected (s : State) {q : Nat} (hq : q < 256) (word : Nat) :
    s.scrub (.queue q true word) .corrected false =
      ((s.bump (K.q.MEND q)).bump K.qm.QM_CORRECTED).wr K.qm.QM_LAST_ADDR word := by
  simp [State.scrub, State.queueEcc, hq]

theorem State.scrub_queue_uncorrectable (s : State) {q : Nat} (hq : q < 256) (hw : (s.queue q).words ≠ []) (word : Nat) :
    s.scrub (.queue q true word) .uncorrectable false = s.internalReset .memory 255 2 q := by
  simp [State.scrub, State.queueEcc, hq, hw]

theorem State.scrub_working_uncorrectable (s : State) {off : Nat} (h : off < Config.wmSize) :
    s.scrub (.working off) .uncorrectable false = s.wmUncorrectable off none := by
  simp [State.scrub, State.wmEcc, h]

theorem regionOf_page {k off : Nat} (hk : k < 16384) (hlo : 0x00800000 + 1024 * k ≤ off) (hhi : off < 0x00800000 + 1024 * k + 1024) :
    regionOf off = .pages ∧ (off - 0x00800000) / 1024 = k := by
  refine ⟨?_, by omega⟩
  unfold regionOf
  rw [if_neg (by omega), if_pos (by omega)]

theorem regionOf_entry {i off : Nat} (hi : i < 131072) (hlo : 64 * i ≤ off) (hhi : off < 64 * i + 64) :
    regionOf off = .endpoints ∧ off / 64 = i := by
  refine ⟨?_, by omega⟩
  unfold regionOf
  rw [if_pos (by omega)]

theorem State.retirePage_mac (s : State) {k : Nat} (hk : 2 ≤ k) (hr : k ∉ s.mac.retiredPages) :
    (s.retirePage k).mac.retiredPages = k :: s.mac.retiredPages ∧ (s.retirePage k).mac.pages = Tbl.del s.mac.pages k := by
  have hc : ¬ (decide (k < 2) || s.mac.retiredPages.contains k) = true := by simp [hr, Nat.not_lt.2 hk]
  unfold State.retirePage
  rw [if_neg hc]
  exact ⟨rfl, rfl⟩

theorem State.retirePage_onlyChanges (s : State) (k : Nat) : OnlyChanges [.dict, .mac] s (s.retirePage k) := by
  unfold State.retirePage
  split
  · exact fun p _ => Part.Same.refl p s
  · have hmac := onlyChanges_modMac s
    exact ((((hmac _).trans (onlyChanges_bump _ _)).trans (onlyChanges_wr _ _ _)).trans (onlyChanges_wr _ _ _)).mono (by simp)

theorem State.ep_modPending (s : State) (f : List Instr → List Instr) (i : Nat) : (s.modPending f).ep i = s.ep i := rfl

theorem State.ep_modEp_self (s : State) (i : Nat) (f : Ep → Ep) : (s.modEp i f).ep i = f (s.ep i) := Tbl.atD_modD_self ..

/-- A FREE entry that is retired holds nothing but UNUSABLE (R23). -/
theorem State.retireEntry_ep (s : State) {i : Nat} (hu : (s.ep i).unusable = false) (hf : (s.ep i).state = epFree) :
    (s.retireEntry i).ep i = Ep.retired := by
  have hu' : ¬ (s.ep i).unusable = true := by simp [hu]
  have hh : ¬ ((s.ep i).state != epFree) = true := by simp [hf]
  unfold State.retireEntry
  have hkeep (t : State) (f : Line → Line) (r : Reg) : ((t.modLine f).bump r).ep i = t.ep i := rfl
  rw [if_neg hu', if_neg hh, hkeep, State.ep_modEp_self]

/-- What a bad word of a page or an endpoint entry counts and records before its region is dealt with (R23). -/
def State.badWord (s : State) (off : Nat) : State := (s.wr K.wm.WM_LAST_ADDR (off / 8 * 8)).bump K.wm.WM_UNCORRECTED

theorem State.badWord_onlyChanges (s : State) (off : Nat) : OnlyChanges [.dict] s (s.badWord off) :=
  ((onlyChanges_wr s _ _).trans (onlyChanges_bump _ _)).mono (by simp)

theorem State.badWord_mac (s : State) (off : Nat) : (s.badWord off).mac = s.mac := rfl

theorem State.scrub_page_uncorrectable (s : State) {k off : Nat} (hk : k < 16384) (hlo : 0x00800000 + 1024 * k ≤ off)
    (hhi : off < 0x00800000 + 1024 * k + 1024) :
    s.scrub (.working off) .uncorrectable false = (s.badWord off).retirePage k := by
  have hsize : off < Config.wmSize := by
    simp only [Config.wmSize]
    omega
  obtain ⟨hreg, hpage⟩ := regionOf_page hk hlo hhi
  rw [s.scrub_working_uncorrectable hsize, State.wmUncorrectable, hreg, hpage, State.badWord]

theorem State.scrub_entry_uncorrectable (s : State) {i off : Nat} (hi : i < 131072) (hlo : 64 * i ≤ off) (hhi : off < 64 * i + 64) :
    s.scrub (.working off) .uncorrectable false = (s.badWord off).retireEntry i := by
  have hsize : off < Config.wmSize := by
    simp only [Config.wmSize]
    omega
  obtain ⟨hreg, hentry⟩ := regionOf_entry hi hlo hhi
  rw [s.scrub_working_uncorrectable hsize, State.wmUncorrectable, hreg, hentry, State.badWord]

/-- Settles O14: the scrub of each kind of word is one equation, and its counters, registers and parts are read off the right side. -/
theorem scrubbedErrorsHaveTheirFixedEffects : Obligations.ScrubbedErrorsHaveTheirFixedEffects := by
  intro s hrun
  refine ⟨fun target => exec_scrub hrun (s.scrub_clean target), fun off hoff => ?_, fun c off hc => ⟨?_, fun hh => ?_⟩,
    fun q word hq hw => ?_, fun q word hq hw => ?_, fun k off h2 hk hlo hhi hr => ?_, fun i off hi hlo hhi hu hf => ?_⟩
  · refine ⟨_, exec_scrub hrun (s.scrub_working_corrected off), ?_, ?_, ?_, ?_⟩
    · rw [State.rd_modPending, State.rd_wr_ne _ _ (by decide), State.rd_bump_self]
      rfl
    · rw [State.rd_modPending, State.rd_wr_self]
      exact Nat.mod_eq_of_lt (by simp only [K.wm.WM_LAST_ADDR]; omega)
    · exact ((OnlyRegs.refl _ s).wr _ (by simp)).wr _ (by simp)
    · exact (((onlyChanges_bump s _).trans (onlyChanges_wr _ _ _)).mono (by simp)).keepQueue
  · have hne : (K.cm.CM_CORRECTED c).key ≠ K.scrub.SCRUB_PASS.key := by
      simp only [K.cm.CM_CORRECTED, K.scrub.SCRUB_PASS]
      omega
    refine ⟨_, exec_scrub hrun (s.scrub_core_corrected hrun hc off), ?_, ?_, ?_⟩
    · rw [State.rd_modPending, State.rd_bump_ne _ hne, State.rd_bump_self]
      rfl
    · rw [State.rd_modPending, State.rd_bump_self, State.rd_bump_ne _ hne.symm]
      rfl
    · exact (((onlyChanges_bump s _).trans (onlyChanges_bump _ _)).mono (by simp)).keepQueue
  · refine ⟨_, exec_scrub hrun (s.scrub_core_uncorrectable hc off), ?_, ?_⟩
    · simp [State.haltCore, hh]
    · exact (onlyChanges_modSys s _).keepQueue
  · have hne : (K.q.MEND q).key ≠ K.qm.QM_CORRECTED.key ∧ (K.q.MEND q).key ≠ K.qm.QM_LAST_ADDR.key := by
      simp only [K.q.MEND, K.qm.QM_CORRECTED, K.qm.QM_LAST_ADDR]
      omega
    refine ⟨_, exec_scrub hrun (s.scrub_queue_corrected hq word), ?_, ?_, ?_, ?_⟩
    · rw [State.rd_modPending, State.rd_wr_ne _ _ hne.2, State.rd_bump_ne _ hne.1, State.rd_bump_self]
      rfl
    · rw [State.rd_modPending, State.rd_wr_self]
      exact Nat.mod_eq_of_lt hw
    · simp
    · exact ((((onlyChanges_bump s _).trans (onlyChanges_bump _ _)).trans (onlyChanges_wr _ _ _)).mono (by simp)).keepQueue
  · have hreset : ResetTo .hold s (s.internalReset .memory 255 2 q) := s.internalReset_resetTo ..
    have hcause : CauseIs (s.internalReset .memory 255 2 q) 2 255 2 q :=
      s.internalReset_causeIs .memory (by decide) (by decide) (lt_trans hq (by decide))
    exact ⟨_, exec_scrub hrun (s.scrub_queue_uncorrectable hq hw word), hreset.modPending _, hcause.modPending _⟩
  · obtain ⟨hret, hpages⟩ := (s.badWord off).retirePage_mac h2 (by rwa [State.badWord_mac])
    refine ⟨_, exec_scrub hrun (s.scrub_page_uncorrectable hk hlo hhi), ?_, ?_, ?_⟩
    · simp [hret]
    · simp [hpages]
    · exact (((s.badWord_onlyChanges off).trans (State.retirePage_onlyChanges _ k)).mono (by simp)).keepQueue
  · have he := (s.badWord off).retireEntry_ep (i := i) hu hf
    refine ⟨_, exec_scrub hrun (s.scrub_entry_uncorrectable hi hlo hhi), ?_⟩
    rw [State.ep_modPending, he]
    exact ⟨rfl, rfl, rfl⟩

end Sys2Proof.Machine

end

section
/-! PROOF. The accessors of the line after an update, and what the passing of time leaves as it was. -/

namespace Sys2Proof.Machine

/-! Channels, groups, frames and receptions stand in the line. -/

theorem State.chan_congr {s t : State} (h : t.line = s.line) (n : Nat) : t.chan n = s.chan n := by
  rw [State.chan, h, State.chan]

theorem State.frame?_congr {s t : State} (h : t.line = s.line) (f : Nat) : t.frame? f = s.frame? f := by
  rw [State.frame?, h, State.frame?]

theorem State.rx?_congr {s t : State} (h : t.line = s.line) (r : Nat) : t.rx? r = s.rx? r := by
  rw [State.rx?, h, State.rx?]

@[simp] theorem State.chan_modPending (s : State) (f : List Instr → List Instr) (n : Nat) : (s.modPending f).chan n = s.chan n := rfl

@[simp] theorem State.rx?_modPending (s : State) (f : List Instr → List Instr) (n : Nat) : (s.modPending f).rx? n = s.rx? n := rfl

@[simp] theorem State.chan_passTo (s : State) (t n : Nat) : (s.passTo t).chan n = s.chan n := State.chan_congr (by simp) n

@[simp] theorem State.frame?_passTo (s : State) (t f : Nat) : (s.passTo t).frame? f = s.frame? f := State.frame?_congr (by simp) f

@[simp] theorem State.chan_atDeadline (s : State) (t n : Nat) : (s.atDeadline t).chan n = s.chan n := s.chan_passTo t n

@[simp] theorem State.frame?_atDeadline (s : State) (t f : Nat) : (s.atDeadline t).frame? f = s.frame? f := s.frame?_passTo t f

@[simp] theorem State.chan_modChan_self (s : State) (n : Nat) (f : Channel → Channel) : (s.modChan n f).chan n = f (s.chan n) :=
  Tbl.atD_modD_self ..

theorem State.chan_modChan_ne (s : State) {m n : Nat} (f : Channel → Channel) (h : m ≠ n) : (s.modChan n f).chan m = s.chan m :=
  Tbl.atD_modD_ne _ _ _ h

@[simp] theorem State.chan_bump (s : State) (r : Reg) (n : Nat) : (s.bump r).chan n = s.chan n := rfl

/-! Which parts an update changes. -/

theorem OnlyChanges.refl (s : State) : OnlyChanges [] s s := fun p _ => Part.Same.refl p s

theorem onlyChanges_modLine (s : State) (f : Line → Line) : OnlyChanges [.line] s (s.modLine f) := by
  intro p hp
  cases p <;> simp_all [Part.Same]

theorem onlyChanges_modChan (s : State) (n : Nat) (f : Channel → Channel) : OnlyChanges [.line] s (s.modChan n f) :=
  onlyChanges_modLine s _

theorem onlyChanges_modTides (s : State) (f : Tbl TideTable → Tbl TideTable) : OnlyChanges [.tides] s (s.modTides f) := by
  intro p hp
  cases p <;> simp_all [Part.Same]

/-- What time that passes may change: the clock, free values, two counters, the performance counters, and the tracker's step. -/
def timeParts : List Part := [.now, .free, .dict, .perf, .tracker, .tides]

theorem onlyChanges_passTo (s : State) (t : Nat) : OnlyChanges timeParts s (s.passTo t) := by
  intro p hp
  cases p <;> simp_all [Part.Same, timeParts]

/-! Which registers an update changes. -/

theorem OnlyRegs.trans {qs rs : List Reg} {s t u : State} (h : OnlyRegs qs s t) (h' : OnlyRegs rs t u) : OnlyRegs (qs ++ rs) s u := by
  intro k hk
  rw [List.map_append, List.mem_append, not_or] at hk
  exact (h' k hk.2).trans (h k hk.1)

theorem OnlyRegs.mono {qs rs : List Reg} {s t : State} (h : OnlyRegs qs s t) (hq : qs ⊆ rs) : OnlyRegs rs s t :=
  fun k hk => h k fun hm => hk (List.map_subset _ hq hm)

theorem OnlyRegs.of_dict {rs : List Reg} {s t : State} (h : t.dict = s.dict) : OnlyRegs rs s t := fun _ _ => by rw [h]

theorem onlyRegs_bump (s : State) (r : Reg) : OnlyRegs [r] s (s.bump r) := (OnlyRegs.refl [r] s).wr _ (by simp)

/-- The two counters that time advances (R158, R420). -/
def timeRegs : List Reg := [K.times.UNSYNC_SECONDS, K.trks.PHASE_STEP_COUNT]

theorem onlyRegs_unsyncPass (s : State) (t : Nat) : OnlyRegs timeRegs s (s.unsyncPass t) := by
  unfold State.unsyncPass
  split
  · exact OnlyRegs.refl timeRegs s
  · exact (OnlyRegs.refl timeRegs s).wr _ (by simp [timeRegs])

theorem onlyRegs_takeStep (s : State) (t : Nat) : OnlyRegs timeRegs s (s.takeStep t) := by
  unfold State.takeStep
  split
  · exact OnlyRegs.refl timeRegs s
  · split
    · exact (OnlyRegs.of_dict (t := (s.movePhase _).modTracker _) rfl).wr (r := K.trks.PHASE_STEP_COUNT) _ (by simp [timeRegs])
    · exact OnlyRegs.refl timeRegs s

theorem onlyRegs_passTo (s : State) (t : Nat) : OnlyRegs timeRegs s (s.passTo t) := by
  unfold State.passTo
  split
  · exact OnlyRegs.refl timeRegs s
  · have hevents : OnlyRegs timeRegs s ((s.unsyncPass t).tickEvents (t - s.now)) := fun k hk => by
      rw [State.tickEvents_dict]
      exact onlyRegs_unsyncPass s t k hk
    exact (hevents.trans (onlyRegs_takeStep _ t)).mono (by simp)

end Sys2Proof.Machine

end

section
/-! PROOF. O11: a decision of the gain loop. -/

namespace Sys2Proof.Machine

/-! Blanking depends on a channel's blanking end and delay, on the frames and receptions of the line, and on nothing else of the line. -/

theorem State.segOf_congr {s t : State} (h : t.dict = s.dict) (n : Nat) : t.segOf n = s.segOf n := by
  simp only [State.segOf, State.segEnabled, State.flag, State.members, State.rd, h]

theorem State.beaconDue_congr {s t : State} (hdict : t.dict = s.dict) (hnow : t.now = s.now) (hmac : t.mac = s.mac)
    (htracker : t.tracker = s.tracker) (g : Nat) : t.beaconDue g = s.beaconDue g := by
  simp only [State.beaconDue, State.segEnabled, State.flag, State.rd, State.seg, State.beaconAfter, hdict, hnow, hmac, htracker]
  rfl

theorem State.blanked_congr {s t : State} {n : Nat} (hdict : t.dict = s.dict) (hnow : t.now = s.now) (hmac : t.mac = s.mac)
    (htracker : t.tracker = s.tracker) (hframes : t.line.frames = s.line.frames) (hrxs : t.line.rxs = s.line.rxs)
    (hblank : (t.chan n).blankEnd = (s.chan n).blankEnd) (hcfg : (t.chan n).cfg = (s.chan n).cfg) : t.blanked n = s.blanked n := by
  have hdelay : t.txDelay n = s.txDelay n := by rw [State.txDelay, hcfg, State.txDelay]
  simp only [State.blanked, State.aboutToSend, State.framesWith, State.leaves, hdelay, hnow, hframes, hrxs, hblank,
    State.segOf_congr hdict, State.beaconDue_congr hdict hnow hmac htracker]
  rfl

/-! The step for a block below the clipping code (R31). -/

/-- Step 12 − k is right while the level lies below `4·target − 2·(12 − k) + 1` quarters of a decibel. -/
def stepFits (target : Int) (squares k : Nat) : Bool := !levelReaches squares (4 * target - 2 * (12 - (k : Int)) + 1)

/-- The step is the highest of the 24 that are right, if any is. -/
theorem rmsStep_eq (target : Int) (squares : Nat) :
    rmsStep target squares = (((List.range 24).find? (stepFits target squares)).map fun k : Nat => 12 - (k : Int)).getD (-12) := by
  have hcast : ((List.range 24).map fun k : Nat => (k : Int)).find? (fun k => !levelReaches squares (4 * target - 2 * (12 - k) + 1)) =
      ((List.range 24).find? (stepFits target squares)).map fun k : Nat => (k : Int) := List.find?_map
  change (match ((List.range 24).map fun k : Nat => (k : Int)).find? fun k => !levelReaches squares (4 * target - 2 * (12 - k) + 1) with
    | some k => 12 - k
    | none => -12) = _
  rw [hcast]
  cases (List.range 24).find? (stepFits target squares) <;> rfl

/-- The level lies below the upper bound of the step's interval, and at or above its lower one, but at the ends of the range. -/
theorem rmsStep_bounds (target : Int) (squares : Nat) :
    -12 ≤ rmsStep target squares ∧ rmsStep target squares ≤ 12 ∧
      (rmsStep target squares < 12 → levelReaches squares (4 * target - 2 * rmsStep target squares - 1) = true) ∧
      (-12 < rmsStep target squares → levelReaches squares (4 * target - 2 * rmsStep target squares + 1) = false) := by
  rw [rmsStep_eq]
  rcases hfind : (List.range 24).find? (stepFits target squares) with _ | k
  · have hlast : stepFits target squares 23 = false := by
      simpa using List.find?_eq_none.1 hfind 23 (by simp)
    simp only [stepFits, Bool.not_eq_false'] at hlast
    refine ⟨by decide, by decide, fun _ => ?_, fun h => absurd h (by decide)⟩
    rw [← hlast]
    simp only [Option.map_none, Option.getD_none]
    congr 1
    omega
  · obtain ⟨hk, hmem, hbelow⟩ := List.find?_range_eq_some.1 hfind
    rw [List.mem_range] at hmem
    simp only [Option.map_some, Option.getD_some]
    refine ⟨by omega, by omega, fun hlt => ?_, fun _ => by simpa [stepFits] using hk⟩
    have hprev := hbelow (k - 1) (by omega)
    simp only [stepFits, Bool.not_not] at hprev
    rw [← hprev]
    congr 1
    omega

/-! The parts of a decision: the block that enters, and the gain that follows from it. -/

/-- The block of a decision has entered the breakwater and has been examined for impulses. -/
def State.blockTaken (s : State) (n first : Nat) (samples : List Int) (fill : Nat) : State :=
  ((s.passTo (first + 128)).blockIn n first samples fill).idleBlock n first samples

/-- What a decision does of the gain of channel `n` once its block has been taken (R31–R34, R42). -/
def State.gainDecided (s : State) (n first : Nat) (samples : List Int) : State :=
  let c := s.chan n
  if s.blanked n then s
  else if c.frozen then (if samples.any clips then s.bump (K.chs.CLIP_COUNT n) else s)
  else if c.cfg.fixed || s.loopOn n || first < c.gainFrom then s
  else
    let g := gainStep c.cfg.target samples c.gain c.cfg.gainMax
    if g = c.gain then s else s.modChan n fun c => { c with gain := g, gainWas := c.gain, gainFrom := first + 256 }

theorem State.agcDecision_of_inService {s : State} {n : Nat} (h : s.inService n = true) (first : Nat) (samples : List Int) (fill : Nat) :
    s.agcDecision n first samples fill = (s.blockTaken n first samples fill).gainDecided n first samples := by
  simp only [State.agcDecision, h]
  rfl

section Block

variable (s : State) (n first : Nat) (samples : List Int)

theorem State.idleBlock_eq (s : State) : ∃ f, s.idleBlock n first samples = s.modTides f := by
  unfold State.idleBlock
  split
  · split
    · exact ⟨_, rfl⟩
    · exact ⟨fun t => t, rfl⟩
  · exact ⟨fun t => t, rfl⟩

/-- A taken block has written the line's record of it, and for an idle channel the tide table. -/
theorem State.blockTaken_eq (fill : Nat) :
    ∃ f, s.blockTaken n first samples fill = ((s.passTo (first + 128)).blockIn n first samples fill).modTides f :=
  State.idleBlock_eq n first samples _

theorem State.blockTaken_chan (fill : Nat) :
    ∃ w : SideWord, w.first = first ∧ w.clipped = samples.any clips ∧
      (s.blockTaken n first samples fill).chan n = { s.chan n with
        fill := min 8192 fill, peak := max (s.chan n).peak (min 8192 fill)
        blocks := (w :: (s.chan n).blocks).take (ceilDiv (min 8192 fill) 64) } := by
  obtain ⟨f, hf⟩ := s.blockTaken_eq n first samples fill
  refine ⟨(s.passTo (first + 128)).sideWord n first samples, rfl, rfl, ?_⟩
  calc (s.blockTaken n first samples fill).chan n = ((s.passTo (first + 128)).blockIn n first samples fill).chan n := by rw [hf]; rfl
    _ = _ := by rw [State.blockIn, State.chan_modChan_self, State.chan_passTo]

theorem State.blockTaken_chan_ne {m : Nat} (hm : m ≠ n) (fill : Nat) : (s.blockTaken n first samples fill).chan m = s.chan m := by
  obtain ⟨f, hf⟩ := s.blockTaken_eq n first samples fill
  calc (s.blockTaken n first samples fill).chan m = ((s.passTo (first + 128)).blockIn n first samples fill).chan m := by rw [hf]; rfl
    _ = s.chan m := by rw [State.blockIn, State.chan_modChan_ne _ _ hm, State.chan_passTo]

/-- What a taken block leaves of the rest of the state, by the parts that the decision reads. -/
theorem State.blockTaken_keeps (fill : Nat) :
    (s.blockTaken n first samples fill).line.frames = s.line.frames ∧ (s.blockTaken n first samples fill).line.rxs = s.line.rxs ∧
      (s.blockTaken n first samples fill).loop = s.loop ∧ (s.blockTaken n first samples fill).now = max s.now (first + 128) ∧
      (s.blockTaken n first samples fill).dict = (s.passTo (first + 128)).dict := by
  obtain ⟨f, hf⟩ := s.blockTaken_eq n first samples fill
  rw [hf]
  simp [State.blockIn, State.modChan, State.passTo_now]

theorem State.blockTaken_blanked (fill : Nat) :
    (s.blockTaken n first samples fill).blanked n = (s.passTo (first + 128)).blanked n := by
  obtain ⟨f, hf⟩ := s.blockTaken_eq n first samples fill
  obtain ⟨w, -, -, hchan⟩ := s.blockTaken_chan n first samples fill
  refine State.blanked_congr ?_ ?_ ?_ ?_ ?_ ?_ (by rw [hchan, State.chan_passTo]) (by rw [hchan, State.chan_passTo])
  all_goals rw [hf]; simp [State.blockIn, State.modChan]

theorem State.blockTaken_onlyChanges (fill : Nat) :
    OnlyChanges (timeParts ++ [.line] ++ [.tides]) s (s.blockTaken n first samples fill) := by
  obtain ⟨f, hf⟩ := s.blockTaken_eq n first samples fill
  rw [hf]
  exact ((onlyChanges_passTo s _).trans (onlyChanges_modChan _ _ _)).trans (onlyChanges_modTides _ _)

theorem State.blockTaken_onlyRegs (fill : Nat) : OnlyRegs timeRegs s (s.blockTaken n first samples fill) := by
  obtain ⟨-, -, -, -, hdict⟩ := s.blockTaken_keeps n first samples fill
  intro k hk
  rw [hdict]
  exact onlyRegs_passTo s _ k hk

/-! The gain after the block, by the branch of R31 to R34 and R42 that decides. -/

/-- A decision counts a clipped block, changes the gain, or does nothing. -/
theorem State.gainDecided_cases :
    (s.gainDecided n first samples = s ∧ ((s.chan n).frozen = true → samples.any clips = false ∨ s.blanked n = true)) ∨
    (s.gainDecided n first samples = s.bump (K.chs.CLIP_COUNT n) ∧ (s.chan n).frozen = true ∧ samples.any clips = true ∧
      s.blanked n = false) ∨
    (∃ g, s.gainDecided n first samples =
        s.modChan n (fun c => { c with gain := g, gainWas := c.gain, gainFrom := first + 256 }) ∧ (s.chan n).frozen = false ∧
      (s.chan n).cfg.fixed = false) := by
  unfold State.gainDecided
  by_cases hb : s.blanked n = true
  · exact .inl ⟨by simp [hb], fun _ => .inr hb⟩
  · rw [Bool.not_eq_true] at hb
    by_cases hf : (s.chan n).frozen = true
    · by_cases hc : samples.any clips = true
      · exact .inr (.inl ⟨by simp [hb, hf, hc], hf, hc, hb⟩)
      · rw [Bool.not_eq_true] at hc
        exact .inl ⟨by simp [hb, hf, hc], fun _ => .inl hc⟩
    · rw [Bool.not_eq_true] at hf
      simp only [hb, hf, Bool.false_eq_true, if_false]
      split
      · exact .inl ⟨rfl, fun h => absurd h (by simp)⟩
      · next hhold =>
        split
        · exact .inl ⟨rfl, fun h => absurd h (by simp)⟩
        · exact .inr (.inr ⟨_, rfl, trivial, by simp_all⟩)

/-- In AUTO, with the gain free and in force, the gain moves by the block's step. -/
theorem State.gainDecided_gain (hblank : s.blanked n = false) (hfrozen : (s.chan n).frozen = false) (hauto : (s.chan n).cfg.fixed = false)
    (hloop : s.loopOn n = false) (hsettled : (s.chan n).gainFrom ≤ first) :
    ((s.gainDecided n first samples).chan n).gain =
      gainStep (s.chan n).cfg.target samples (s.chan n).gain (s.chan n).cfg.gainMax := by
  unfold State.gainDecided
  simp only [hblank, hfrozen, hauto, hloop, Nat.not_lt.2 hsettled, Bool.false_eq_true, if_false, Bool.or_self, decide_false]
  split
  · next h => exact h.symm
  · rw [State.chan_modChan_self]

theorem State.gainDecided_now : (s.gainDecided n first samples).now = s.now := by
  rcases s.gainDecided_cases n first samples with ⟨h, -⟩ | ⟨h, -⟩ | ⟨g, h, -⟩ <;> rw [h] <;> rfl

theorem State.gainDecided_line :
    (s.gainDecided n first samples).line.rxs = s.line.rxs ∧ (s.gainDecided n first samples).line.frames = s.line.frames := by
  rcases s.gainDecided_cases n first samples with ⟨h, -⟩ | ⟨h, -⟩ | ⟨g, h, -⟩ <;> rw [h] <;> exact ⟨rfl, rfl⟩

theorem State.gainDecided_onlyChanges : OnlyChanges [.dict, .line] s (s.gainDecided n first samples) := by
  rcases s.gainDecided_cases n first samples with ⟨h, -⟩ | ⟨h, -⟩ | ⟨g, h, -⟩ <;> rw [h]
  · exact (OnlyChanges.refl s).mono (by simp)
  · exact (onlyChanges_bump s _).mono (by simp)
  · exact (onlyChanges_modChan s n _).mono (by simp)

theorem State.gainDecided_onlyRegs : OnlyRegs [K.chs.CLIP_COUNT n] s (s.gainDecided n first samples) := by
  rcases s.gainDecided_cases n first samples with ⟨h, -⟩ | ⟨h, -⟩ | ⟨g, h, -⟩ <;> rw [h]
  · exact OnlyRegs.refl _ s
  · exact onlyRegs_bump s _
  · exact OnlyRegs.of_dict rfl

theorem State.gainDecided_chan_ne {m : Nat} (hm : m ≠ n) : (s.gainDecided n first samples).chan m = s.chan m := by
  rcases s.gainDecided_cases n first samples with ⟨h, -⟩ | ⟨h, -⟩ | ⟨g, h, -⟩ <;> rw [h]
  · rfl
  · exact s.chan_modChan_ne _ hm

/-- Of the channel only the gain, the gain before it and its first tick can be others. -/
theorem State.gainDecided_chan : (s.gainDecided n first samples).chan n =
    { s.chan n with
      gain := ((s.gainDecided n first samples).chan n).gain, gainWas := ((s.gainDecided n first samples).chan n).gainWas
      gainFrom := ((s.gainDecided n first samples).chan n).gainFrom } := by
  rcases s.gainDecided_cases n first samples with ⟨h, -⟩ | ⟨h, -⟩ | ⟨g, h, -⟩ <;> rw [h]
  · rfl
  · simp only [State.chan_modChan_self]

theorem State.gainDecided_change (hg : ((s.gainDecided n first samples).chan n).gain ≠ (s.chan n).gain) :
    ((s.gainDecided n first samples).chan n).gainFrom = first + 256 ∧
      ((s.gainDecided n first samples).chan n).gainWas = (s.chan n).gain := by
  rcases s.gainDecided_cases n first samples with ⟨h, -⟩ | ⟨h, -⟩ | ⟨g, h, -⟩ <;> rw [h] at hg ⊢
  · exact absurd rfl hg
  · exact absurd rfl hg
  · simp only [State.chan_modChan_self, and_self]

theorem State.gainDecided_held (hheld : (s.chan n).frozen = true ∨ (s.chan n).cfg.fixed = true) :
    ((s.gainDecided n first samples).chan n).gain = (s.chan n).gain := by
  rcases s.gainDecided_cases n first samples with ⟨h, -⟩ | ⟨h, -⟩ | ⟨g, h, hfree, hauto⟩
  · rw [h]
  · rw [h, State.chan_bump]
  · simp [hfree, hauto] at hheld

theorem State.gainDecided_clipCount (hfrozen : (s.chan n).frozen = true) :
    (s.gainDecided n first samples).rd (K.chs.CLIP_COUNT n) =
      if samples.any clips = true ∧ s.blanked n = false then min (2 ^ 32 - 1) (s.rd (K.chs.CLIP_COUNT n) + 1)
      else s.rd (K.chs.CLIP_COUNT n) := by
  rcases s.gainDecided_cases n first samples with ⟨h, hno⟩ | ⟨h, -, hc, hb⟩ | ⟨g, h, hfree, -⟩
  · rw [h, if_neg]
    rintro ⟨hc, hb⟩
    simp [hc, hb] at hno
    exact absurd hfrozen (by simp [hno])
  · rw [h, if_pos ⟨hc, hb⟩, State.rd_bump_self]
    rfl
  · simp [hfree] at hfrozen

end Block

/-- The clip counters stand apart from the counters of passing time. -/
theorem key_clipCount_ne (n : Nat) :
    (K.chs.CLIP_COUNT n).key ≠ K.times.UNSYNC_SECONDS.key ∧ (K.chs.CLIP_COUNT n).key ≠ K.trks.PHASE_STEP_COUNT.key := by
  simp only [K.chs.CLIP_COUNT, K.times.UNSYNC_SECONDS, K.trks.PHASE_STEP_COUNT]
  omega

/-- Settles O11: a decision takes its block and then decides the gain, and each part is read off its own equation. -/
theorem agcDecisionMovesOrHoldsTheGain : Obligations.AgcDecisionMovesOrHoldsTheGain := by
  intro n first fill samples s hrun hserv
  have hexec : exec (.agcDecision n first samples fill) s = .next ((s.agcDecision n first samples fill).modPending fun _ => s.pending) :=
    whenRunning_of_running hrun _
  rw [State.agcDecision_of_inService hserv] at hexec
  obtain ⟨w, hwfirst, hwclip, hchan⟩ := s.blockTaken_chan n first samples fill
  obtain ⟨hframes, hrxs, hloop, hnow, hdict⟩ := s.blockTaken_keeps n first samples fill
  have hblank := s.blockTaken_blanked n first samples fill
  have hchanges := s.blockTaken_onlyChanges n first samples fill
  have hregs := s.blockTaken_onlyRegs n first samples fill
  have hother := fun m hm => s.blockTaken_chan_ne n first samples (m := m) hm fill
  have hcount : (s.blockTaken n first samples fill).rd (K.chs.CLIP_COUNT n) = s.rd (K.chs.CLIP_COUNT n) := by
    rw [State.rd, hdict]
    exact s.atDeadline_rd (first + 128) (key_clipCount_ne n).1 (key_clipCount_ne n).2
  generalize s.blockTaken n first samples fill = b at *
  obtain ⟨hrxs', hframes'⟩ := b.gainDecided_line n first samples
  have hgain : (b.chan n).gain = (s.chan n).gain := by rw [hchan]
  refine ⟨_, hexec, ?_, ?_, ?_, ?_, ⟨w, hwfirst, hwclip, ?_⟩, ?_, ?_, ?_, ?_, ?_, ?_⟩
  · simpa [State.gainDecided_now] using hnow
  · refine ((hchanges.trans (b.gainDecided_onlyChanges n first samples)).mono ?_).keepQueue
    simp [timeParts]
  · refine (hregs.trans (b.gainDecided_onlyRegs n first samples)).mono ?_
    simp [timeRegs]
  · intro m hm
    rw [State.chan_modPending, b.gainDecided_chan_ne n first samples hm, hother m hm]
  · rw [State.chan_modPending, b.gainDecided_chan n first samples]
    rw [hchan]
  · intro r
    rw [State.rx?_modPending, State.rx?, hrxs', hrxs, State.rx?]
  · exact hframes'.trans hframes
  · intro hne
    rw [State.chan_modPending, ← hgain] at hne ⊢
    exact b.gainDecided_change n first samples hne
  · intro hfrozen
    have hf : (b.chan n).frozen = true := by rw [hchan, hfrozen]
    refine ⟨(b.gainDecided_held n first samples (.inl hf)).trans hgain, ?_⟩
    rw [State.rd_modPending, b.gainDecided_clipCount n first samples hf, hblank, hcount]
  · intro hfree hauto hunblanked hnoloop hsettled
    have hg := b.gainDecided_gain n first samples (hblank.trans hunblanked) (by rw [hchan, hfree]) (by rw [hchan, hauto])
      (by rw [State.loopOn, hloop]; exact hnoloop) (by rw [hchan]; exact hsettled)
    rw [hchan] at hg
    rw [State.chan_modPending, hg]
    refine ⟨fun hc => ?_, fun hc => ?_⟩
    · simp [gainStep, hc, Int.sub_eq_add_neg]
    · obtain ⟨hlo, hhi, hup, hdown⟩ := rmsStep_bounds (s.chan n).cfg.target ((samples.map fun x => (x * x).toNat).sum)
      exact ⟨_, hlo, hhi, hup, hdown, by simp [gainStep, hc]⟩
  · intro hfixed
    exact (b.gainDecided_held n first samples (.inr (by rw [hchan, hfixed]))).trans hgain

end Sys2Proof.Machine

end

section
/-! PROOF. O13: frames start together or not at all, and end in blanking. -/

namespace Sys2Proof.Machine

/-! An entry changed or removed. -/

theorem Tbl.at?_upd_self {α : Type} {t : Tbl α} {k : Nat} {v : α} (h : Tbl.at? t k = some v) (f : α → α) :
    Tbl.at? (Tbl.upd t k f) k = some (f v) := by
  simp [Tbl.upd, h]

theorem Tbl.at?_upd_ne {α : Type} (t : Tbl α) {j k : Nat} (f : α → α) (h : j ≠ k) : Tbl.at? (Tbl.upd t k f) j = Tbl.at? t j := by
  unfold Tbl.upd
  split
  · exact Tbl.at?_ins_ne t _ h
  · rfl

/-- What a predicate says of the other entries does not change with an entry. -/
theorem Tbl.any_ins_ne {α : Type} (t : Tbl α) (k : Nat) (v : α) (p : Nat × α → Bool) :
    ((Tbl.ins t k v).any fun y => y.1 != k && p y) = t.any fun y => y.1 != k && p y := by
  induction t with
  | nil => simp [Tbl.ins]
  | cons q t ih =>
    simp only [Tbl.ins]
    split
    · simp
    · split
      · next hk => simp [← hk]
      · simp only [List.any_cons, ih]

theorem Tbl.any_upd_ne {α : Type} (t : Tbl α) (k : Nat) (f : α → α) (p : Nat × α → Bool) :
    ((Tbl.upd t k f).any fun y => y.1 != k && p y) = t.any fun y => y.1 != k && p y := by
  unfold Tbl.upd
  split
  · exact Tbl.any_ins_ne ..
  · rfl

section Access

variable (s : State)

theorem State.frame?_modFrame_self {s : State} {f : Nat} {x : TxFrame} (h : s.frame? f = some x) (g : TxFrame → TxFrame) :
    (s.modFrame f g).frame? f = some (g x) := Tbl.at?_upd_self h g

theorem State.frame?_modFrame_ne {f j : Nat} (g : TxFrame → TxFrame) (h : j ≠ f) : (s.modFrame f g).frame? j = s.frame? j :=
  Tbl.at?_upd_ne _ g h

@[simp] theorem State.frame?_dropFrame_self (f : Nat) : (s.dropFrame f).frame? f = none := Tbl.at?_del_self ..

@[simp] theorem State.chan_modFrame (f : Nat) (g : TxFrame → TxFrame) (n : Nat) : (s.modFrame f g).chan n = s.chan n := rfl

theorem onlyChanges_modFrame (f : Nat) (g : TxFrame → TxFrame) : OnlyChanges [.line] s (s.modFrame f g) := onlyChanges_modLine s _

theorem onlyChanges_dropFrame (f : Nat) : OnlyChanges [.line] s (s.dropFrame f) := onlyChanges_modLine s _

theorem onlyChanges_events (b code : Nat) (c : Option Nat) (n : Nat) : OnlyChanges [.perf] s (s.events b code c n) := by
  intro p hp
  cases p <;> simp_all [Part.Same]

/-- Two changes within the same parts, one after the other. -/
theorem OnlyChanges.chain {ps : List Part} {s t u : State} (h : OnlyChanges ps s t) (h' : OnlyChanges ps t u) : OnlyChanges ps s u :=
  (h.trans h').mono (by simp)

/-- A fold changes no more than its steps do. -/
theorem OnlyChanges.foldl {α : Type} {ps : List Part} {f : State → α → State} (h : ∀ t x, OnlyChanges ps t (f t x)) (l : List α) :
    OnlyChanges ps s (l.foldl f s) := by
  induction l generalizing s with
  | nil => exact fun p _ => Part.Same.refl p s
  | cons x l ih => exact (h s x).chain (ih (f s x))

end Access

/-! Commands as they are answered in a running device. -/

section Exec

variable {s : State} (hrun : s.running = true)

include hrun

theorem exec_txReadinessCheck_of_running (f : Nat) (ready : List Nat) :
    exec (.txReadinessCheck f ready) s = .next ((s.readiness f ready).modPending fun _ => s.pending) := whenRunning_of_running hrun _

theorem exec_frameTxStart_of_running (f : Nat) (ready : List Nat) :
    exec (.frameTxStart f ready) s = .next ((s.frameStart f ready).modPending fun _ => s.pending) := whenRunning_of_running hrun _

theorem exec_frameTxEnd_of_running (f : Nat) : exec (.frameTxEnd f) s = .next ((s.frameEnd f).modPending fun _ => s.pending) :=
  whenRunning_of_running hrun _

theorem exec_txBlankEnd_of_running (n : Nat) : exec (.txBlankEnd n) s = .next ((s.txBlankEnd n).modPending fun _ => s.pending) :=
  whenRunning_of_running hrun _

theorem exec_txUnderrun_of_running (n : Nat) : exec (.txUnderrun n) s = .next ((s.txUnderrun n).modPending fun _ => s.pending) :=
  whenRunning_of_running hrun _

end Exec

/-! Cancelling a frame that has not begun (R13, R295). -/

/-- The queue with the MPDUs of frame `f` free for another frame. -/
def freed (f : Nat) (queue : List Down) : List Down := queue.map fun d => if d.frame = some f then { d with frame := none } else d

section Cancel

variable {s : State} {f : Nat} {x : TxFrame} (hx : s.frame? f = some x) (hstarted : x.started = false) (hended : x.ended = false)

include hx hstarted hended

theorem State.cancelFrame_of_unstarted : s.cancelFrame f = (s.modMac fun m => { m with queue := freed f m.queue }).dropFrame f := by
  simp [State.cancelFrame, hx, State.beyond, hstarted, hended, State.requeue, freed]

theorem State.cancelFrame_gone : (s.cancelFrame f).frame? f = none := by
  rw [State.cancelFrame_of_unstarted hx hstarted hended, State.frame?_dropFrame_self]

theorem State.cancelFrame_queue : (s.cancelFrame f).mac.queue = freed f s.mac.queue := by
  rw [State.cancelFrame_of_unstarted hx hstarted hended]
  rfl

theorem State.cancelFrame_onlyChanges : OnlyChanges [.mac, .line] s (s.cancelFrame f) := by
  rw [State.cancelFrame_of_unstarted hx hstarted hended]
  exact (onlyChanges_modMac s _).trans (onlyChanges_dropFrame _ f)

theorem State.cancelFrame_dict : (s.cancelFrame f).dict = s.dict := State.cancelFrame_onlyChanges hx hstarted hended .dict (by simp)

end Cancel

/-! Readiness (R13). -/

/-- The late channels `ns` are counted. -/
def State.lateCounted (s : State) (ns : List Nat) : State := ns.foldl (fun t n => t.bump (K.chs.LATE_FRAME_COUNT n)) s

theorem State.lateCounted_onlyChanges (s : State) (ns : List Nat) : OnlyChanges [.dict] s (s.lateCounted ns) :=
  OnlyChanges.foldl s (fun t _ => onlyChanges_bump t _) ns

theorem key_lateFrameCount_ne {m n : Nat} (h : m ≠ n) : (K.chs.LATE_FRAME_COUNT m).key ≠ (K.chs.LATE_FRAME_COUNT n).key := by
  simp only [K.chs.LATE_FRAME_COUNT]
  omega

theorem State.lateCounted_rd_of_notMem (s : State) {ns : List Nat} {n : Nat} (h : n ∉ ns) :
    (s.lateCounted ns).rd (K.chs.LATE_FRAME_COUNT n) = s.rd (K.chs.LATE_FRAME_COUNT n) := by
  induction ns generalizing s with
  | nil => rfl
  | cons m ns ih =>
    obtain ⟨hm, hns⟩ := List.ne_and_not_mem_of_not_mem_cons h
    exact (ih (s.bump (K.chs.LATE_FRAME_COUNT m)) hns).trans (State.rd_bump_ne s (key_lateFrameCount_ne hm))

theorem State.lateCounted_rd_of_mem (s : State) {ns : List Nat} {n : Nat} (hnodup : ns.Nodup) (h : n ∈ ns) :
    (s.lateCounted ns).rd (K.chs.LATE_FRAME_COUNT n) = min (2 ^ 32 - 1) (s.rd (K.chs.LATE_FRAME_COUNT n) + 1) := by
  induction ns generalizing s with
  | nil => cases h
  | cons m ns ih =>
    obtain ⟨hm, hns⟩ := List.nodup_cons.1 hnodup
    change ((s.bump (K.chs.LATE_FRAME_COUNT m)).lateCounted ns).rd (K.chs.LATE_FRAME_COUNT n) = _
    rcases List.mem_cons.1 h with rfl | h
    · rw [State.lateCounted_rd_of_notMem _ hm, State.rd_bump_self]
      rfl
    · have hne : n ≠ m := fun hnm => hm (hnm ▸ h)
      rw [ih _ hns h, State.rd_bump_ne _ (key_lateFrameCount_ne hne)]

/-- The late channels of a frame. -/
def TxFrame.late (x : TxFrame) (ready : List Nat) : List Nat := x.chans.filter fun n => !ready.contains n

theorem TxFrame.mem_late {x : TxFrame} {ready : List Nat} {n : Nat} : n ∈ x.late ready ↔ n ∈ x.chans ∧ n ∉ ready := by
  simp [TxFrame.late]

/-- The tick at which a frame's readiness is judged. -/
def TxFrame.readyTick (x : TxFrame) : Nat := x.start - tenthUs 20

/-- The state in which a frame with late channels is cancelled. -/
def State.lateJudged (s : State) (x : TxFrame) (ready : List Nat) : State :=
  ((s.atDeadline x.readyTick).lateCounted (x.late ready)).event 9 0x05

section Readiness

variable {s : State} {f : Nat} {x : TxFrame} (hx : s.frame? f = some x) (hstarted : x.started = false) (hended : x.ended = false)

include hx hstarted hended

theorem State.readiness_of_ready {ready : List Nat} (h : x.late ready = []) :
    s.readiness f ready = (s.atDeadline x.readyTick).modFrame f fun x => { x with ready := true } := by
  have hshort : (x.chans.filter fun n => !ready.contains n).isEmpty = true := List.isEmpty_iff.2 h
  simp only [State.readiness, hx, hstarted, hended, hshort, Bool.or_self, Bool.false_eq_true, if_false, if_true]
  rfl

theorem State.readiness_of_late {ready : List Nat} (h : x.late ready ≠ []) :
    s.readiness f ready = (s.lateJudged x ready).cancelFrame f := by
  have hshort : (x.chans.filter fun n => !ready.contains n).isEmpty = false := by simpa [TxFrame.late] using h
  simp only [State.readiness, hx, hstarted, hended, hshort, Bool.or_self, Bool.false_eq_true, if_false]
  rfl

end Readiness

theorem State.lateJudged_onlyChanges (s : State) (x : TxFrame) (ready : List Nat) :
    OnlyChanges (timeParts ++ [.dict] ++ [.perf]) s (s.lateJudged x ready) :=
  ((onlyChanges_passTo s _).trans (State.lateCounted_onlyChanges _ _)).trans (onlyChanges_event _ _ _)

theorem State.lateJudged_frame? (s : State) (x : TxFrame) (ready : List Nat) (f : Nat) : (s.lateJudged x ready).frame? f = s.frame? f :=
  State.frame?_congr (s.lateJudged_onlyChanges x ready .line (by simp [timeParts])) f

theorem State.lateJudged_rd (s : State) {x : TxFrame} (hnodup : x.chans.Nodup) (ready : List Nat) (n : Nat) :
    (s.lateJudged x ready).rd (K.chs.LATE_FRAME_COUNT n) =
      if n ∈ x.chans ∧ n ∉ ready then min (2 ^ 32 - 1) (s.rd (K.chs.LATE_FRAME_COUNT n) + 1) else s.rd (K.chs.LATE_FRAME_COUNT n) := by
  have hunsync : (K.chs.LATE_FRAME_COUNT n).key ≠ K.times.UNSYNC_SECONDS.key := by
    simp only [K.chs.LATE_FRAME_COUNT, K.times.UNSYNC_SECONDS]
    omega
  have hstep : (K.chs.LATE_FRAME_COUNT n).key ≠ K.trks.PHASE_STEP_COUNT.key := by
    simp only [K.chs.LATE_FRAME_COUNT, K.trks.PHASE_STEP_COUNT]
    omega
  have hevent : (s.lateJudged x ready).rd (K.chs.LATE_FRAME_COUNT n) =
      ((s.atDeadline x.readyTick).lateCounted (x.late ready)).rd (K.chs.LATE_FRAME_COUNT n) := by
    simp [State.lateJudged, State.rd]
  rw [hevent]
  split
  · next h =>
    have hlate : (x.late ready).Nodup := hnodup.filter _
    rw [State.lateCounted_rd_of_mem _ hlate (TxFrame.mem_late.2 h), State.atDeadline_rd s _ hunsync hstep]
  · next h =>
    rw [State.lateCounted_rd_of_notMem _ (fun hm => h (TxFrame.mem_late.1 hm)), State.atDeadline_rd s _ hunsync hstep]

/-- The readiness of a frame that no channel is late for: it is marked. -/
theorem readiness_marks {s : State} {f : Nat} {x : TxFrame} (hx : s.frame? f = some x) (hstarted : x.started = false)
    (hended : x.ended = false) {ready : List Nat} (hready : ∀ n ∈ x.chans, n ∈ ready) :
    (s.readiness f ready).frame? f = some { x with ready := true } ∧ (∀ g, g ≠ f → (s.readiness f ready).frame? g = s.frame? g) ∧
      (∀ n, (s.readiness f ready).chan n = s.chan n) ∧ OnlyChanges (timeParts ++ [.line]) s (s.readiness f ready) := by
  have hlate : x.late ready = [] := List.filter_eq_nil_iff.2 fun n hn => by simp [hready n hn]
  rw [State.readiness_of_ready hx hstarted hended hlate]
  have hx' : (s.atDeadline x.readyTick).frame? f = some x := by rw [State.frame?_atDeadline, hx]
  refine ⟨State.frame?_modFrame_self hx' _, fun g hg => ?_, fun n => ?_, (onlyChanges_passTo s _).trans (onlyChanges_modFrame _ _ _)⟩
  · rw [State.frame?_modFrame_ne _ _ hg, State.frame?_atDeadline]
  · rw [State.chan_modFrame, State.chan_atDeadline]

/-- The readiness of a frame with a late channel: the late channels are counted and the frame is cancelled on all. -/
theorem readiness_cancels {s : State} {f : Nat} {x : TxFrame} (hx : s.frame? f = some x) (hstarted : x.started = false)
    (hended : x.ended = false) {ready : List Nat} (hlate : ∃ n ∈ x.chans, n ∉ ready) :
    (s.readiness f ready).frame? f = none ∧
      (x.chans.Nodup → ∀ n, (s.readiness f ready).rd (K.chs.LATE_FRAME_COUNT n) =
        if n ∈ x.chans ∧ n ∉ ready then min (2 ^ 32 - 1) (s.rd (K.chs.LATE_FRAME_COUNT n) + 1) else s.rd (K.chs.LATE_FRAME_COUNT n)) ∧
      (s.readiness f ready).mac.queue = freed f s.mac.queue ∧
      OnlyChanges (timeParts ++ [.dict] ++ [.perf] ++ [.mac, .line]) s (s.readiness f ready) := by
  obtain ⟨n, hn⟩ := hlate
  have hne : x.late ready ≠ [] := List.ne_nil_of_mem (TxFrame.mem_late.2 hn)
  have hx' : (s.lateJudged x ready).frame? f = some x := by rw [State.lateJudged_frame?, hx]
  have hchanges := s.lateJudged_onlyChanges x ready
  rw [State.readiness_of_late hx hstarted hended hne]
  refine ⟨State.cancelFrame_gone hx' hstarted hended, fun hnodup n => ?_, ?_,
    hchanges.trans (State.cancelFrame_onlyChanges hx' hstarted hended)⟩
  · rw [State.rd, State.cancelFrame_dict hx' hstarted hended]
    exact s.lateJudged_rd hnodup ready n
  · have hmac : (s.lateJudged x ready).mac = s.mac := hchanges .mac (by simp [timeParts])
    rw [State.cancelFrame_queue hx' hstarted hended, hmac]

/-! The start (R40, R107, R166). -/

theorem onlyChanges_modPerf (s : State) (f : Perf → Perf) : OnlyChanges [.perf] s (s.modPerf f) := by
  intro p hp
  cases p <;> simp_all [Part.Same]

theorem onlyChanges_fresh (s : State) : OnlyChanges [.free] s s.fresh.2 := by
  intro p hp
  cases p <;> simp_all [Part.Same, State.fresh]

theorem onlyChanges_sampleDescriptor (s : State) (source opcode cls : Nat) (background : Bool) (addr issue : Nat) :
    OnlyChanges [.dict, .perf] s (s.sampleDescriptor source opcode cls background addr issue) := by
  have hnone (t : State) : OnlyChanges [.dict, .perf] t t := (OnlyChanges.refl t).mono (by simp)
  have hperf (t : State) (f : Perf → Perf) : OnlyChanges [.dict, .perf] t (t.modPerf f) := (onlyChanges_modPerf t f).mono (by simp)
  have hdict (t : State) (r : Reg) (v : Nat) : OnlyChanges [.dict, .perf] t (t.wr r v) := (onlyChanges_wr t r v).mono (by simp)
  simp only [State.sampleDescriptor]
  split
  · exact hnone s
  · split
    · exact hperf s _
    · split
      · exact (((hperf s _).chain (hperf _ _)).chain (hdict _ _ _)).chain (hdict _ _ _)
      · exact ((hperf s _).chain (hperf _ _)).chain (hdict _ _ _)

/-- What the records of sampled work may change. -/
def sampleParts : List Part := [.free, .dict, .perf]

theorem onlyChanges_sampleWork (s : State) (source opcode cls n : Nat) : OnlyChanges sampleParts s (s.sampleWork source opcode cls n) := by
  induction n generalizing s with
  | zero => exact (OnlyChanges.refl s).mono (by simp)
  | succ n ih =>
    unfold State.sampleWork
    split
    · exact (OnlyChanges.refl s).mono (by simp)
    · refine ((((onlyChanges_fresh s).trans (onlyChanges_fresh s.fresh.2)).trans
        (onlyChanges_sampleDescriptor _ source opcode cls false _ _)).trans (ih _)).mono ?_
      simp [sampleParts]

theorem sampleParts_events (s : State) (b code : Nat) (c : Option Nat) (n : Nat) : OnlyChanges sampleParts s (s.events b code c n) :=
  (onlyChanges_events s b code c n).mono (by simp [sampleParts])

theorem sampleParts_bump (s : State) (r : Reg) : OnlyChanges sampleParts s (s.bump r) := (onlyChanges_bump s r).mono (by simp [sampleParts])

/-- One more try of the MPDU with number `id`. -/
def State.triedAgain (s : State) (id : Nat) : State := s.modDown id fun d => { d with tries := d.tries + 1 }

/-- What a sending counts before the try is noted with the MPDU (R203). -/
def State.sendingCounted (s : State) (f : TxFrame) (d : Down) : State :=
  let s := s.eventC 9 0x03 f.pri
  let s := if 0 < d.tries && d.entry.isSome then (s.eventC 9 0x04 f.pri).bump (K.segs.RETRIES f.seg) else s
  match d.kind with
  | .fragment _ _ _ _ => ((s.bump K.txns.FRAG_TX).eventC 10 0x05 f.pri).sampleWork 10 0x50 f.pri 1
  | _ => s

theorem State.countSending_eq (s : State) (f : TxFrame) (d : Down) : s.countSending f d = (s.sendingCounted f d).triedAgain d.id := rfl

theorem State.sendingCounted_onlyChanges (s : State) (f : TxFrame) (d : Down) : OnlyChanges sampleParts s (s.sendingCounted f d) := by
  have hretry : OnlyChanges sampleParts s (if 0 < d.tries && d.entry.isSome then
      ((s.eventC 9 0x03 f.pri).eventC 9 0x04 f.pri).bump (K.segs.RETRIES f.seg) else s.eventC 9 0x03 f.pri) := by
    split
    · exact ((sampleParts_events s _ _ _ _).chain (sampleParts_events _ _ _ _ _)).chain (sampleParts_bump _ _)
    · exact sampleParts_events s _ _ _ _
  simp only [State.sendingCounted]
  split
  · exact ((hretry.chain (sampleParts_bump _ _)).chain (sampleParts_events _ _ _ _ _)).chain (onlyChanges_sampleWork _ _ _ _ _)
  · exact hretry

theorem State.countSending_onlyChanges (s : State) (f : TxFrame) (d : Down) :
    OnlyChanges (sampleParts ++ [.mac]) s (s.countSending f d) := by
  rw [State.countSending_eq]
  exact (s.sendingCounted_onlyChanges f d).trans (onlyChanges_modMac _ _)

theorem State.countSending_queue (s : State) (f : TxFrame) (d : Down) : (s.countSending f d).mac.queue =
    s.mac.queue.map fun e => if e.id = d.id then { e with tries := e.tries + 1 } else e := by
  have hmac : (s.sendingCounted f d).mac = s.mac := s.sendingCounted_onlyChanges f d .mac (by simp [sampleParts])
  rw [State.countSending_eq, ← hmac]
  rfl

/-- The start of frame `x` as it is marked and counted, its MPDUs apart (R195). -/
def State.startCounted (s : State) (f : Nat) (x : TxFrame) : State :=
  let s := s.modFrame f fun x => { x with started := true }
  let s := s.eventC 9 0x01 x.pri
  let s := if x.wave == .ofdm then
      let m := s.mapOf x
      let l := layoutOf x.psc m.1 m.2
      let n := if x.type = 6 then 0 else l.long + l.short
      let s := (s.events 9 0x02 none x.psc).events 9 0x07 (some x.pri) n
      (s.sampleWork 9 0x12 x.pri n).sampleWork 9 0x02 x.pri x.psc
    else s
  if x.type = 0 && (x.wave == .s1 || x.wave == .s2) then s.bump (K.segs.REACH_BEACONS x.seg) else s

theorem State.startFrame_eq {s : State} {f : Nat} {x : TxFrame} (hx : s.frame? f = some x) :
    s.startFrame f = ((s.startCounted f x).downsOf x).foldl (fun t d => t.countSending x d) (s.startCounted f x) := by
  simp only [State.startFrame, hx]
  rfl

theorem State.startCounted_onlyChanges (s : State) (f : Nat) (x : TxFrame) :
    OnlyChanges sampleParts (s.modFrame f fun x => { x with started := true }) (s.startCounted f x) := by
  simp only [State.startCounted]
  generalize s.modFrame f _ = a
  have hofdm : OnlyChanges sampleParts a (if x.wave == .ofdm then
      let m := (a.eventC 9 0x01 x.pri).mapOf x
      let l := layoutOf x.psc m.1 m.2
      let n := if x.type = 6 then 0 else l.long + l.short
      ((((a.eventC 9 0x01 x.pri).events 9 0x02 none x.psc).events 9 0x07 (some x.pri) n).sampleWork 9 0x12 x.pri n).sampleWork 9 0x02 x.pri
        x.psc
      else a.eventC 9 0x01 x.pri) := by
    split
    · exact ((((sampleParts_events a _ _ _ _).chain (sampleParts_events _ _ _ _ _)).chain (sampleParts_events _ _ _ _ _)).chain
        (onlyChanges_sampleWork _ _ _ _ _)).chain (onlyChanges_sampleWork _ _ _ _ _)
    · exact sampleParts_events a _ _ _ _
  split
  · exact hofdm.chain (sampleParts_bump _ _)
  · exact hofdm

/-- A frame that starts is marked, each of its MPDUs counts a try, and time does not pass. -/
theorem startFrame_starts {s : State} {f : Nat} {x : TxFrame} (hx : s.frame? f = some x) :
    (s.startFrame f).frame? f = some { x with started := true } ∧ (∀ g, g ≠ f → (s.startFrame f).frame? g = s.frame? g) ∧
      (∀ d ∈ s.mac.queue, x.mpdus = [d.id] → (s.mac.queue.find? fun e => e.id == d.id) = some d →
        { d with tries := d.tries + 1 } ∈ (s.startFrame f).mac.queue) ∧
      OnlyChanges ([.line] ++ sampleParts ++ (sampleParts ++ [.mac])) s (s.startFrame f) := by
  have hcounted := s.startCounted_onlyChanges f x
  have hmac : (s.startCounted f x).mac = s.mac := hcounted .mac (by simp [sampleParts])
  have hfold := OnlyChanges.foldl (s.startCounted f x) (fun t d => t.countSending_onlyChanges x d) ((s.startCounted f x).downsOf x)
  have hline : (s.startFrame f).line = (s.modFrame f fun x => { x with started := true }).line := by
    rw [State.startFrame_eq hx]
    exact Eq.trans (hfold .line (by simp [sampleParts])) (hcounted .line (by simp [sampleParts]))
  refine ⟨?_, fun g hg => ?_, fun d hd hmpdus hfind => ?_, ?_⟩
  · rw [State.frame?_congr hline, State.frame?_modFrame_self hx]
  · rw [State.frame?_congr hline, State.frame?_modFrame_ne _ _ hg]
  · have hdowns : (s.startCounted f x).downsOf x = [d] := by simp [State.downsOf, hmpdus, hmac, hfind]
    rw [State.startFrame_eq hx, hdowns, List.foldl_cons, List.foldl_nil, State.countSending_queue, hmac]
    exact List.mem_map.2 ⟨d, hd, by simp⟩
  · rw [State.startFrame_eq hx]
    exact ((onlyChanges_modFrame s f _).trans hcounted).trans hfold

/-- A channel's service does not change as time passes. -/
theorem State.inService_passTo (s : State) (t n : Nat) : (s.passTo t).inService n = s.inService n := by
  have hunsync : (K.ch.ENABLE n).key ≠ K.times.UNSYNC_SECONDS.key := by
    simp only [K.ch.ENABLE, K.times.UNSYNC_SECONDS]
    omega
  have hstep : (K.ch.ENABLE n).key ≠ K.trks.PHASE_STEP_COUNT.key := by
    simp only [K.ch.ENABLE, K.trks.PHASE_STEP_COUNT]
    omega
  have henable : (s.passTo t).enabled n = s.enabled n := by
    rw [State.enabled, State.flag, show (s.passTo t).rd (K.ch.ENABLE n) = s.rd (K.ch.ENABLE n) from s.atDeadline_rd t hunsync hstep]
    rfl
  have hlocked : (s.passTo t).locked n = s.locked n := by simp [State.locked, State.group]
  rw [State.inService, henable, hlocked, State.inService]

/-- Frame `f` keeps the channels of `x`. -/
def State.keptOn (s : State) (f : Nat) (x : TxFrame) : State := s.modFrame f fun y => { y with chans := x.chans }

/-- The state at the start instant of a frame that no listening gap keeps silent. -/
def State.startDue (s : State) (f : Nat) (x : TxFrame) : State := (s.keptOn f x).atDeadline x.start

theorem State.startDue_onlyChanges (s : State) (f : Nat) (x : TxFrame) : OnlyChanges ([.line] ++ timeParts) s (s.startDue f x) :=
  (onlyChanges_modFrame s f _).trans (onlyChanges_passTo _ _)

theorem State.startDue_frame?_ne (s : State) {f g : Nat} (x : TxFrame) (h : g ≠ f) : (s.startDue f x).frame? g = s.frame? g := by
  rw [State.startDue, State.frame?_atDeadline, State.keptOn, State.frame?_modFrame_ne _ _ h]

theorem State.startDue_inService (s : State) (f : Nat) (x : TxFrame) (n : Nat) : (s.startDue f x).inService n = s.inService n :=
  State.inService_passTo _ _ n

/-- Whether another frame is on the line is not for the frame itself to say. -/
theorem State.startDue_lineTaken (s : State) (f : Nat) (x : TxFrame) : (s.startDue f x).lineTaken f x = s.lineTaken f x := by
  have hline : (s.startDue f x).line = (s.keptOn f x).line := State.passTo_line ..
  simp only [State.lineTaken, hline, Bool.and_assoc]
  exact Tbl.any_upd_ne ..

section Start

variable {s : State} {f : Nat} {x : TxFrame} (hx : s.frame? f = some x) (hstarted : x.started = false)

include hx

theorem State.startDue_frame?_self : (s.startDue f x).frame? f = some x := by
  rw [State.startDue, State.frame?_atDeadline, State.keptOn, State.frame?_modFrame_self hx]

theorem State.hush_of_free (hne : x.chans ≠ []) (hfree : ∀ n ∈ x.chans, s.inGap x.seg [n] x.start x.stop = false) :
    s.hush f = s.keptOn f x := by
  have hall : (x.chans.filter fun n => !s.inGap x.seg [n] x.start x.stop) = x.chans :=
    List.filter_eq_self.2 fun n hn => by simp [hfree n hn]
  simp [State.hush, hx, hall, hne, State.keptOn]

theorem State.hush_of_silent (hgap : ∀ n ∈ x.chans, s.inGap x.seg [n] x.start x.stop = true) : s.hush f = s.cancelFrame f := by
  have hnone : (x.chans.filter fun n => !s.inGap x.seg [n] x.start x.stop) = [] :=
    List.filter_eq_nil_iff.2 fun n hn => by simp [hgap n hn]
  simp [State.hush, hx, hnone]

variable (hlane : isLane x.wave = false) (hready : x.ready = true)

include hstarted hlane hready

theorem State.frameStart_of_free (ready : List Nat) (hne : x.chans ≠ [])
    (hfree : ∀ n ∈ x.chans, s.inGap x.seg [n] x.start x.stop = false) :
    s.frameStart f ready =
      if x.chans.all s.inService && !s.lineTaken f x then (s.startDue f x).startFrame f else (s.startDue f x).cancelFrame f := by
  have hjudged : s.judgeReady f ready = s := by simp [State.judgeReady, hx, hready]
  have hkept : (s.keptOn f x).frame? f = some x := State.frame?_modFrame_self hx _
  have hserv : (s.startDue f x).inService = s.inService := funext (s.startDue_inService f x)
  simp only [State.frameStart, hx, Option.map_some, hstarted, hlane, Bool.or_self, hjudged, State.hush_of_free hx hne hfree, hkept]
  rw [← State.startDue, hserv, s.startDue_lineTaken]

theorem State.frameStart_of_silent (hended : x.ended = false) (ready : List Nat)
    (hgap : ∀ n ∈ x.chans, s.inGap x.seg [n] x.start x.stop = true) : s.frameStart f ready = s.cancelFrame f := by
  have hjudged : s.judgeReady f ready = s := by simp [State.judgeReady, hx, hready]
  simp only [State.frameStart, hx, Option.map_some, hstarted, hlane, Bool.or_self, hjudged, State.hush_of_silent hx hgap,
    State.cancelFrame_gone hx hstarted hended]

/-- A ready frame with its channels in service, heard by none of their gaps, on a free line starts. -/
theorem frameStart_starts (ready : List Nat) (hne : x.chans ≠ [])
    (hchans : ∀ n ∈ x.chans, s.inService n = true ∧ s.inGap x.seg [n] x.start x.stop = false) (htaken : s.lineTaken f x = false) :
    (s.frameStart f ready).now = max s.now x.start ∧ (s.frameStart f ready).frame? f = some { x with started := true } ∧
      (∀ g, g ≠ f → (s.frameStart f ready).frame? g = s.frame? g) ∧
      (∀ d ∈ s.mac.queue, x.mpdus = [d.id] → (s.mac.queue.find? fun e => e.id == d.id) = some d →
        { d with tries := d.tries + 1 } ∈ (s.frameStart f ready).mac.queue) ∧
      OnlyChanges (timeParts ++ [.mac, .line]) s (s.frameStart f ready) := by
  have hall : (x.chans.all s.inService && !s.lineTaken f x) = true := by
    simpa [htaken] using fun n hn => (hchans n hn).1
  have heq := State.frameStart_of_free hx hstarted hlane hready ready hne fun n hn => (hchans n hn).2
  rw [if_pos hall] at heq
  obtain ⟨hself, hother, htries, hparts⟩ := startFrame_starts (State.startDue_frame?_self hx)
  have hdue := s.startDue_onlyChanges f x
  have hmac : (s.startDue f x).mac = s.mac := hdue .mac (by simp [timeParts])
  have hnow : ((s.startDue f x).startFrame f).now = (s.startDue f x).now := hparts .now (by simp [sampleParts])
  rw [hmac] at htries
  rw [heq]
  exact ⟨hnow.trans (State.atDeadline_now _ _), hself, fun g hg => (hother g hg).trans (s.startDue_frame?_ne x hg), htries,
    (hdue.trans hparts).mono (by simp [timeParts, sampleParts])⟩

end Start

/-- A frame with a channel out of service is gone before its start. -/
theorem frameStart_cancels {s : State} {f : Nat} {x : TxFrame} (hx : s.frame? f = some x) (hstarted : x.started = false)
    (hended : x.ended = false) (hlane : isLane x.wave = false) (hready : x.ready = true) (ready : List Nat)
    (hserv : ∃ n ∈ x.chans, s.inService n = false) (hfree : ∀ n ∈ x.chans, s.inGap x.seg [n] x.start x.stop = false) :
    (s.frameStart f ready).frame? f = none ∧ OnlyChanges (timeParts ++ [.mac, .line]) s (s.frameStart f ready) := by
  obtain ⟨n, hn, hout⟩ := hserv
  have hall : ¬ (x.chans.all s.inService && !s.lineTaken f x) = true := by
    rw [List.all_eq_false.2 ⟨n, hn, by simp [hout]⟩]
    simp
  have heq := State.frameStart_of_free hx hstarted hlane hready ready (List.ne_nil_of_mem hn) hfree
  rw [if_neg hall] at heq
  have hx' := State.startDue_frame?_self hx
  rw [heq]
  exact ⟨State.cancelFrame_gone hx' hstarted hended,
    ((s.startDue_onlyChanges f x).trans (State.cancelFrame_onlyChanges hx' hstarted hended)).mono (by simp [timeParts])⟩

/-! The end of a leg sends messages and counts; it takes no time and leaves the line as it is. -/

section LegEnd

variable (s : State)

@[simp] theorem State.foldl_timeAndLine {α : Type} (f : State → α → State) (l : List α)
    (h : ∀ t x, (f t x).now = t.now ∧ (f t x).line = t.line) : (l.foldl f s).now = s.now ∧ (l.foldl f s).line = s.line :=
  ⟨State.foldl_keeps (·.now) f (fun t x => (h t x).1) l s, State.foldl_keeps (·.line) f (fun t x => (h t x).2) l s⟩

@[simp] theorem State.slotSettle_timeAndLine (i : Nat) : (s.slotSettle i).now = s.now ∧ (s.slotSettle i).line = s.line := by
  unfold State.slotSettle
  repeat' split
  all_goals simp

@[simp] theorem State.slotUse_timeAndLine (i : Nat) : (s.slotUse i).now = s.now ∧ (s.slotUse i).line = s.line := by simp [State.slotUse]

@[simp] theorem State.takeFc_timeAndLine (i : Nat) : (s.takeFc i).2.now = s.now ∧ (s.takeFc i).2.line = s.line := by simp [State.takeFc]

@[simp] theorem State.modPort_timeAndLine (p : Nat) (f : Port → Port) :
    (s.modPort p f).now = s.now ∧ (s.modPort p f).line = s.line := by
  simp [State.modPort]

@[simp] theorem State.startTx_timeAndLine (p n : Nat) : (s.startTx p n).now = s.now ∧ (s.startTx p n).line = s.line := by
  induction n generalizing s with
  | zero => exact ⟨rfl, rfl⟩
  | succ n ih =>
    simp only [State.startTx]
    split
    · simp
    · split
      · simp [ih]
      · split <;> simp

@[simp] theorem State.portSend_timeAndLine (p : Nat) (x : TxItem) : (s.portSend p x).now = s.now ∧ (s.portSend p x).line = s.line := by
  simp only [State.portSend]
  repeat' split
  all_goals simp

@[simp] theorem State.nbSend_timeAndLine (k pri : Nat) (msg : List Byte) :
    (s.nbSend k pri msg).now = s.now ∧ (s.nbSend k pri msg).line = s.line := by
  simp only [State.nbSend]
  repeat' split
  all_goals simp

@[simp] theorem State.drvSend_timeAndLine (type : Nat) (peer : Option Nat) (body : List Byte) :
    (s.drvSend type peer body).now = s.now ∧ (s.drvSend type peer body).line = s.line := by
  simp only [State.drvSend]
  split <;> simp

@[simp] theorem State.modTxnRec_timeAndLine (k : Nat) (f : Txn → Txn) :
    (s.modTxnRec k f).now = s.now ∧ (s.modTxnRec k f).line = s.line := by
  simp [State.modTxnRec]

@[simp] theorem State.txnEmit_timeAndLine (k : Nat) (t : Txn) (msg : List Byte) :
    (s.txnEmit k t msg).now = s.now ∧ (s.txnEmit k t msg).line = s.line := by
  unfold State.txnEmit
  split <;> simp

@[simp] theorem State.txnSend_timeAndLine (k type : Nat) (final : Bool) (body : List Byte) :
    (s.txnSend k type final body).now = s.now ∧ (s.txnSend k type final body).line = s.line := by
  unfold State.txnSend
  split <;> simp

@[simp] theorem State.countLeg_timeAndLine (pri outcome cause : Nat) :
    (s.countLeg pri outcome cause).now = s.now ∧ (s.countLeg pri outcome cause).line = s.line := by
  simp only [State.countLeg]
  split <;> simp

@[simp] theorem State.flushOpen_timeAndLine (k : Nat) (final : Bool) :
    (s.flushOpen k final).now = s.now ∧ (s.flushOpen k final).line = s.line := by
  unfold State.flushOpen
  repeat' split
  all_goals simp

@[simp] theorem State.packRecord_timeAndLine (k : Nat) (r : List Byte) :
    (s.packRecord k r).now = s.now ∧ (s.packRecord k r).line = s.line := by
  simp only [State.packRecord]
  repeat' split
  all_goals simp

@[simp] theorem State.evict_timeAndLine (n : Nat) : (s.evict n).now = s.now ∧ (s.evict n).line = s.line := by
  induction n generalizing s with
  | zero => exact ⟨rfl, rfl⟩
  | succ n ih =>
    unfold State.evict
    split
    · exact ⟨rfl, rfl⟩
    · split <;> simp [ih]

@[simp] theorem State.finishTxn_timeAndLine (k : Nat) : (s.finishTxn k).now = s.now ∧ (s.finishTxn k).line = s.line := by
  simp only [State.finishTxn]
  repeat' split
  all_goals simp

@[simp] theorem State.modLeg_timeAndLine (k j : Nat) (f : Leg → Leg) :
    (s.modLeg k j f).now = s.now ∧ (s.modLeg k j f).line = s.line := by
  simp [State.modLeg]

@[simp] theorem State.withdraw_timeAndLine (p : Down → Bool) : (s.withdraw p).now = s.now ∧ (s.withdraw p).line = s.line := by
  simp [State.withdraw]

@[simp] theorem State.endLeg_timeAndLine (k j outcome cause : Nat) :
    (s.endLeg k j outcome cause).now = s.now ∧ (s.endLeg k j outcome cause).line = s.line := by
  unfold State.endLeg
  split
  · split
    · exact ⟨rfl, rfl⟩
    · extract_lets a b c d e fin g
      have hc : c.now = s.now ∧ c.line = s.line := by
        simp only [c]
        split <;> simp [b, a]
      have hd : d.now = c.now ∧ d.line = c.line := by
        simp only [d]
        split <;> simp
      have he : e.now = d.now ∧ e.line = d.line := by
        simp only [e]
        split <;> simp
      have hg : g.now = e.now ∧ g.line = e.line := by
        simp only [g]
        split <;> simp
      have hs : g.now = s.now ∧ g.line = s.line := by simp [hg, he, hd, hc]
      repeat' split
      all_goals simp [hs]
  · exact ⟨rfl, rfl⟩

@[simp] theorem State.windLegs_timeAndLine (g : Nat) : (s.windLegs g).now = s.now ∧ (s.windLegs g).line = s.line := by
  unfold State.windLegs
  split
  · exact ⟨rfl, rfl⟩
  · refine State.foldl_timeAndLine _ _ _ fun t i => State.foldl_timeAndLine _ _ _ fun u l => ?_
    split <;> simp

end LegEnd

/-! The end of a frame (R42, R50, R206). -/

theorem State.windLegs_of_not_winding {s : State} {g : Nat} (h : (s.seg g).winding = false) : s.windLegs g = s := by
  simp [State.windLegs, h]

/-- Blanking of the channel lasts to tick `e`. -/
def Channel.blankTo (e : Nat) (c : Channel) : Channel := { c with blankEnd := some e }

/-- Each of the channels `ns` that frame `x` leaves is blanked for 2.0 µs from its last sample (R42). -/
def State.blankAfter (s : State) (x : TxFrame) (ns : List Nat) : State :=
  ns.foldl (fun t n => t.modChan n (Channel.blankTo (t.leftBy x n + tenthUs 20))) s

theorem State.blankAfter_onlyChanges (s : State) (x : TxFrame) (ns : List Nat) : OnlyChanges [.line] s (s.blankAfter x ns) :=
  OnlyChanges.foldl s (fun t n => onlyChanges_modChan t n _) ns

theorem State.blankAfter_frames (s : State) (x : TxFrame) (ns : List Nat) :
    (s.blankAfter x ns).line.frames = s.line.frames := by
  unfold State.blankAfter
  exact State.foldl_keeps (fun t => t.line.frames) (fun t n => t.modChan n (Channel.blankTo (t.leftBy x n + tenthUs 20)))
    (fun _ _ => rfl) ns s

theorem State.blankAfter_chan_of_notMem (s : State) (x : TxFrame) {ns : List Nat} {n : Nat} (h : n ∉ ns) :
    (s.blankAfter x ns).chan n = s.chan n := by
  induction ns generalizing s with
  | nil => rfl
  | cons m ns ih =>
    obtain ⟨hm, hns⟩ := List.ne_and_not_mem_of_not_mem_cons h
    exact (ih _ hns).trans (State.chan_modChan_ne _ _ hm)

theorem State.leftBy_congr {s t : State} {n : Nat} (h : (t.chan n).cfg = (s.chan n).cfg) (x : TxFrame) : t.leftBy x n = s.leftBy x n := by
  rw [State.leftBy, State.txDelay, h, State.leftBy, State.txDelay]

/-- When a frame has left a channel is for the channel's delay to say, which blanking does not change. -/
theorem State.blankAfter_chan_of_mem (s : State) (x : TxFrame) {ns : List Nat} {n : Nat} (h : n ∈ ns) :
    (s.blankAfter x ns).chan n = (s.chan n).blankTo (s.leftBy x n + 820) := by
  induction ns generalizing s with
  | nil => cases h
  | cons m ns ih =>
    change ((s.modChan m (Channel.blankTo (s.leftBy x m + tenthUs 20))).blankAfter x ns).chan n = _
    by_cases hns : n ∈ ns
    · have hsame (e : Nat) : ((s.modChan m (Channel.blankTo (s.leftBy x m + tenthUs 20))).chan n).blankTo e = (s.chan n).blankTo e := by
        rcases eq_or_ne n m with rfl | hne
        · rw [State.chan_modChan_self]
          rfl
        · rw [State.chan_modChan_ne _ _ hne]
      have hcfg : ((s.modChan m (Channel.blankTo (s.leftBy x m + tenthUs 20))).chan n).cfg = (s.chan n).cfg :=
        (congrArg Channel.cfg (hsame 0) :)
      rw [ih _ hns, State.leftBy_congr hcfg]
      exact hsame _
    · obtain rfl : n = m := (List.mem_cons.1 h).resolve_right hns
      rw [State.blankAfter_chan_of_notMem _ _ hns, State.chan_modChan_self]
      rfl

/-- The state at the end of frame `x`, its channels blanked. -/
def State.frameLeft (s : State) (x : TxFrame) : State := (s.atDeadline x.stop).blankAfter x x.chans

theorem State.frameLeft_onlyChanges (s : State) (x : TxFrame) : OnlyChanges (timeParts ++ [.line]) s (s.frameLeft x) :=
  (onlyChanges_passTo s _).trans (State.blankAfter_onlyChanges _ x x.chans)

theorem State.frameLeft_mac (s : State) (x : TxFrame) : (s.frameLeft x).mac = s.mac := s.frameLeft_onlyChanges x .mac (by simp [timeParts])

theorem State.frameLeft_now (s : State) (x : TxFrame) : (s.frameLeft x).now = max s.now x.stop :=
  Eq.trans (State.blankAfter_onlyChanges (s.atDeadline x.stop) x x.chans .now (by simp)) (s.atDeadline_now x.stop)

theorem State.frameLeft_frame? (s : State) (x : TxFrame) (f : Nat) : (s.frameLeft x).frame? f = s.frame? f := by
  rw [State.frame?, State.frameLeft, State.blankAfter_frames, ← State.frame?, State.frame?_atDeadline]

theorem State.frameLeft_chan (s : State) (x : TxFrame) :
    (∀ n ∈ x.chans, (s.frameLeft x).chan n = (s.chan n).blankTo (s.leftBy x n + 820)) ∧
      ∀ n, n ∉ x.chans → (s.frameLeft x).chan n = s.chan n := by
  refine ⟨fun n hn => ?_, fun n hn => ?_⟩
  · rw [State.frameLeft, State.blankAfter_chan_of_mem _ _ hn, State.leftBy_congr (s := s) (by rw [State.chan_atDeadline]),
      State.chan_atDeadline]
  · rw [State.frameLeft, State.blankAfter_chan_of_notMem _ _ hn, State.chan_atDeadline]

/-- The acknowledgement window of a frame is a matter of its entry and its segment. -/
theorem State.ackWindow_congr {s t : State} (h : t.mac = s.mac) (x : TxFrame) : t.ackWindow x = s.ackWindow x := by
  have hep : t.ep = s.ep := funext fun i => by rw [State.ep, h, State.ep]
  have hdelay : t.maxDelay x.seg = s.maxDelay x.seg := by rw [State.maxDelay, State.seg, h, State.maxDelay, State.seg]
  simp only [State.ackWindow, hep, hdelay]

theorem State.frameEnd_eq {s : State} {f : Nat} {x : TxFrame} (hx : s.frame? f = some x) (hstarted : x.started = true)
    (hended : x.ended = false) (hlane : isLane x.wave = false) : s.frameEnd f = (s.frameLeft x).afterFrame f x := by
  simp only [State.frameEnd, hx, hstarted, hended, hlane, Bool.not_true, Bool.or_self, Bool.false_eq_true, if_false]
  rfl

/-! A frame that asked for an acknowledgement waits for it. -/

/-- The expected windows that a frame with acknowledgement adds, one where it has an entry. -/
def State.ackWindows (s : State) (x : TxFrame) : List Window :=
  (x.entry.map fun i => ⟨x.seg, i, (s.ackWindow x).1, (s.ackWindow x).2⟩).toList

theorem State.afterFrame_of_ackReq {s : State} (f : Nat) {x : TxFrame} (hack : x.ackReq = true) (hlane : isLane x.wave = false) :
    s.afterFrame f x =
      (s.modFrame f fun x => { x with ended := true }).modLine fun l => { l with windows := l.windows ++ s.ackWindows x } := by
  cases hentry : x.entry with
  | none =>
    simp only [State.afterFrame, hack, hentry, State.ackWindows, Option.map_none, Option.toList_none, List.append_nil, if_true]
    rfl
  | some i => simp [State.afterFrame, hack, hlane, hentry, State.ackWindows]

theorem afterFrame_waits {s : State} {f : Nat} {x : TxFrame} (hx : s.frame? f = some x) (hack : x.ackReq = true)
    (hlane : isLane x.wave = false) :
    (s.afterFrame f x).frame? f = some { x with ended := true } ∧
      (∀ i, x.entry = some i → ⟨x.seg, i, (s.ackWindow x).1, (s.ackWindow x).2⟩ ∈ (s.afterFrame f x).line.windows) ∧
      (∀ n, (s.afterFrame f x).chan n = s.chan n) ∧ OnlyChanges [.line] s (s.afterFrame f x) := by
  rw [State.afterFrame_of_ackReq f hack hlane]
  refine ⟨State.frame?_modFrame_self hx _, fun i hi => ?_, fun n => rfl,
    (onlyChanges_modFrame s f _).chain (onlyChanges_modLine _ _)⟩
  simp [State.ackWindows, hi]

/-! Any other frame is done with its MPDUs, a broadcast with repeats to come apart. -/

/-- Frame `x`, without acknowledgement, is done with, the legs of a segment that winds down apart (R197, R206). -/
def State.frameDone (s : State) (f : Nat) (x : TxFrame) : State :=
  ((s.doneUnacked x).exchangeEnd x.seg x.stop (usTicks 60)).dropFrame f

theorem State.afterFrame_of_unacked {s : State} (f : Nat) {x : TxFrame} (hack : x.ackReq = false) (hlane : isLane x.wave = false) :
    s.afterFrame f x = (s.frameDone f x).windLegs x.seg := by
  simp [State.afterFrame, hack, hlane, State.frameDone]

theorem State.frameDone_onlyChanges (s : State) (f : Nat) (x : TxFrame) : OnlyChanges ([.mac] ++ [.line]) s (s.frameDone f x) :=
  ((onlyChanges_modMac s _).chain (onlyChanges_modMac _ _)).trans (onlyChanges_dropFrame _ f)

theorem State.frameDone_winding (s : State) (f : Nat) (x : TxFrame) : ((s.frameDone f x).seg x.seg).winding = (s.seg x.seg).winding := by
  have hseg : (s.frameDone f x).seg x.seg = { s.seg x.seg with lastEnd := (x.stop, usTicks 60) } :=
    Tbl.atD_modD_self Seg.reset s.mac.segs x.seg fun y => { y with lastEnd := (x.stop, usTicks 60) }
  rw [hseg]

/-- An MPDU of an ended frame that stays for another repeat (R206). -/
def State.repeats (s : State) (x : TxFrame) (d : Down) : Bool :=
  d.kind == .broadcast && d.tries < s.limit x.seg 8 && !(s.seg x.seg).winding

theorem State.frameDone_queue (s : State) (f : Nat) (x : TxFrame) : (s.frameDone f x).mac.queue =
    (s.mac.queue.filter fun d => !x.mpdus.contains d.id || s.repeats x d).map fun d =>
      if x.mpdus.contains d.id then { d with frame := none } else d := rfl

theorem State.mem_frameDone_queue_of_repeats {s : State} {f : Nat} {x : TxFrame} {d : Down} (hd : d ∈ s.mac.queue) (hid : d.id ∈ x.mpdus)
    (hrepeats : s.repeats x d = true) : { d with frame := none } ∈ (s.frameDone f x).mac.queue := by
  rw [State.frameDone_queue]
  exact List.mem_map.2 ⟨d, List.mem_filter.2 ⟨hd, by simp [hrepeats]⟩, by simp [hid]⟩

theorem State.frameDone_queue_of_no_broadcast {s : State} (f : Nat) (x : TxFrame) (h : ∀ d ∈ s.mac.queue, d.kind ≠ .broadcast) :
    (s.frameDone f x).mac.queue = s.mac.queue.filter fun d => !x.mpdus.contains d.id := by
  have hfilter : (s.mac.queue.filter fun d => !x.mpdus.contains d.id || s.repeats x d) =
      s.mac.queue.filter fun d => !x.mpdus.contains d.id :=
    List.filter_congr fun d hd => by simp [State.repeats, h d hd]
  rw [State.frameDone_queue, hfilter]
  refine (List.map_congr_left fun d hd => if_neg ?_).trans (List.map_id' _)
  simpa using (List.mem_filter.1 hd).2

/-- What the end of a frame without acknowledgement leaves, whether or not its segment winds down. -/
theorem afterFrame_leaves {s : State} (f : Nat) {x : TxFrame} (hack : x.ackReq = false) (hlane : isLane x.wave = false) :
    (s.afterFrame f x).now = s.now ∧ ∀ n, (s.afterFrame f x).chan n = s.chan n := by
  rw [State.afterFrame_of_unacked f hack hlane]
  obtain ⟨hnow, hline⟩ := (s.frameDone f x).windLegs_timeAndLine x.seg
  exact ⟨hnow, fun n => State.chan_congr hline n⟩

theorem State.afterFrame_of_not_winding {s : State} (f : Nat) {x : TxFrame} (hack : x.ackReq = false) (hlane : isLane x.wave = false)
    (hwinding : (s.seg x.seg).winding = false) : s.afterFrame f x = s.frameDone f x := by
  rw [State.afterFrame_of_unacked f hack hlane, State.windLegs_of_not_winding ((s.frameDone_winding f x).trans hwinding)]

/-! The end of a frame, as a whole. -/

section End

variable {s : State} {f : Nat} {x : TxFrame} (hx : s.frame? f = some x) (hstarted : x.started = true) (hended : x.ended = false)
  (hlane : isLane x.wave = false)

include hx hstarted hended hlane

/-- A frame with acknowledgement waits for it, in an expected window of its link. -/
theorem frameEnd_waits (hack : x.ackReq = true) :
    (s.frameEnd f).frame? f = some { x with ended := true } ∧ (s.frameEnd f).mac = s.mac ∧
      (∀ i, x.entry = some i → ⟨x.seg, i, (s.ackWindow x).1, (s.ackWindow x).2⟩ ∈ (s.frameEnd f).line.windows) ∧
      OnlyChanges (timeParts ++ [.mac, .line]) s (s.frameEnd f) := by
  have hx' : (s.frameLeft x).frame? f = some x := (s.frameLeft_frame? x f).trans hx
  have hmac := s.frameLeft_mac x
  obtain ⟨hwaits, hwindows, -, hparts⟩ := afterFrame_waits hx' hack hlane
  rw [State.ackWindow_congr hmac] at hwindows
  rw [State.frameEnd_eq hx hstarted hended hlane]
  exact ⟨hwaits, Eq.trans (hparts .mac (by simp)) hmac, hwindows,
    ((s.frameLeft_onlyChanges x).trans hparts).mono (by simp [timeParts])⟩

/-- A frame without acknowledgement, on a segment that does not wind down, is gone with its MPDUs but for broadcasts to repeat. -/
theorem frameEnd_done (hack : x.ackReq = false) (hw : (s.seg x.seg).winding = false) :
    (s.frameEnd f).frame? f = none ∧
      (∀ d ∈ s.mac.queue, d.id ∈ x.mpdus → d.kind = .broadcast → d.tries < s.limit x.seg 8 →
        { d with frame := none } ∈ (s.frameEnd f).mac.queue) ∧
      ((∀ d ∈ s.mac.queue, d.kind ≠ .broadcast) → (s.frameEnd f).mac.queue = s.mac.queue.filter (fun d => !x.mpdus.contains d.id)) ∧
      OnlyChanges (timeParts ++ [.mac, .line]) s (s.frameEnd f) := by
  have hmac := s.frameLeft_mac x
  have hseg : (s.frameLeft x).seg x.seg = s.seg x.seg := by rw [State.seg, hmac, State.seg]
  rw [State.frameEnd_eq hx hstarted hended hlane, State.afterFrame_of_not_winding f hack hlane (by rw [hseg, hw])]
  refine ⟨State.frame?_dropFrame_self _ f, fun d hd hid hkind htries => ?_, fun hnone => ?_,
    ((s.frameLeft_onlyChanges x).trans (State.frameDone_onlyChanges _ f x)).mono (by simp [timeParts])⟩
  · refine State.mem_frameDone_queue_of_repeats (by rwa [hmac]) hid ?_
    rw [State.limit, ← hseg, ← State.limit] at htries
    simp [State.repeats, hkind, htries, hseg, hw]
  · rw [← hmac] at hnone ⊢
    exact State.frameDone_queue_of_no_broadcast f x hnone

/-- In either case its channels are blanked, and no other is. -/
theorem frameEnd_leaves : (s.frameEnd f).now = max s.now x.stop ∧
    (∀ n ∈ x.chans, (s.frameEnd f).chan n = { s.chan n with blankEnd := some (s.leftBy x n + 820) }) ∧
    ∀ n, n ∉ x.chans → (s.frameEnd f).chan n = s.chan n := by
  have hx' : (s.frameLeft x).frame? f = some x := (s.frameLeft_frame? x f).trans hx
  obtain ⟨hin, hout⟩ := s.frameLeft_chan x
  have hkept : ((s.frameLeft x).afterFrame f x).now = (s.frameLeft x).now ∧
      ∀ n, ((s.frameLeft x).afterFrame f x).chan n = (s.frameLeft x).chan n := by
    cases hack : x.ackReq with
    | true =>
      obtain ⟨-, -, hchan, hparts⟩ := afterFrame_waits hx' hack hlane
      exact ⟨hparts .now (by simp), hchan⟩
    | false => exact afterFrame_leaves f hack hlane
  obtain ⟨hnow, hchan⟩ := hkept
  rw [State.frameEnd_eq hx hstarted hended hlane]
  exact ⟨hnow.trans (s.frameLeft_now x), fun n hn => (hchan n).trans (hin n hn), fun n hn => (hchan n).trans (hout n hn)⟩

end End

/-! Blanking ends; a frame runs empty (R17, R42). -/

theorem State.txBlankEnd_eq {s : State} {n b : Nat} (h : (s.chan n).blankEnd = some b) :
    s.txBlankEnd n = (s.atDeadline b).modChan n fun c =>
      { c with blankEnd := none, idleFrom := max c.idleFrom b, gainWas := c.cfg.listenGain, gainFrom := max c.gainFrom b } := by
  simp [State.txBlankEnd, h]

/-- The underrun of channel `n`'s frame is flagged and counted. -/
def State.underrunCounted (s : State) (n : Nat) : State :=
  ((s.setFlag (K.chs.TX_UNDERRUN n) true).bump (K.chs.TX_UNDERRUN_COUNT n)).event 9 0x06

theorem State.underrunCounted_onlyChanges (s : State) (n : Nat) : OnlyChanges ([.dict] ++ [.perf]) s (s.underrunCounted n) :=
  ((onlyChanges_wr s _ _).chain (onlyChanges_bump _ _)).trans (onlyChanges_event _ _ _)

theorem State.underrunCounted_dict (s : State) (n : Nat) :
    (s.underrunCounted n).dict = ((s.setFlag (K.chs.TX_UNDERRUN n) true).bump (K.chs.TX_UNDERRUN_COUNT n)).dict := State.event_dict ..

theorem State.underrunCounted_onlyRegs (s : State) (n : Nat) :
    OnlyRegs [K.chs.TX_UNDERRUN n, K.chs.TX_UNDERRUN_COUNT n] s (s.underrunCounted n) := by
  intro k hk
  rw [State.underrunCounted_dict]
  exact ((OnlyRegs.refl _ s).wr (r := K.chs.TX_UNDERRUN n) _ (by simp)).wr (r := K.chs.TX_UNDERRUN_COUNT n) _ (by simp) k hk

theorem State.underrunCounted_rd (s : State) (n : Nat) : (s.underrunCounted n).flag (K.chs.TX_UNDERRUN n) = true ∧
    (s.underrunCounted n).rd (K.chs.TX_UNDERRUN_COUNT n) = min (2 ^ 32 - 1) (s.rd (K.chs.TX_UNDERRUN_COUNT n) + 1) := by
  have hne : (K.chs.TX_UNDERRUN n).key ≠ (K.chs.TX_UNDERRUN_COUNT n).key := by
    simp only [K.chs.TX_UNDERRUN, K.chs.TX_UNDERRUN_COUNT]
    omega
  constructor
  · rw [State.flag, State.rd, State.underrunCounted_dict, ← State.rd, State.rd_bump_ne _ hne, State.setFlag, State.rd_wr_self]
    rfl
  · rw [State.rd, State.underrunCounted_dict, ← State.rd, State.rd_bump_self, State.setFlag, State.rd_wr_ne _ _ hne.symm]
    rfl

theorem State.txUnderrun_eq {s : State} {n f : Nat} {x : TxFrame} {rest : List (Nat × TxFrame)}
    (h : (s.framesWith fun f => f.started && !f.ended && f.chans.contains n) = (f, x) :: rest) :
    s.txUnderrun n = (s.underrunCounted n).modFrame f fun x => { x with underrun := true } := by
  simp only [State.txUnderrun, h]
  rfl

/-- Settles O13: a clause per command, each from the lemma that says what its frame, its channels and the queue become. -/
theorem framesStartTogetherOrNotAtAllAndEndInBlanking : Obligations.FramesStartTogetherOrNotAtAllAndEndInBlanking := by
  refine ⟨fun f ready x s hrun hx hstarted hended => ⟨fun hready => ?_, fun hlate => ?_⟩,
    fun f ready x s hrun hx hstarted hended hlane hready => ⟨fun hne hchans htaken => ?_, fun hserv hfree => ?_, fun hgap => ?_⟩,
    fun f x s hrun hx hstarted hended hlane => ?_, fun n b s hrun hblank => ?_, fun n f x rest s hrun hframes hx => ?_⟩
  · obtain ⟨hself, hother, hchan, hparts⟩ := readiness_marks hx hstarted hended hready
    exact ⟨_, exec_txReadinessCheck_of_running hrun f ready, hself, hother, hchan, hparts.keepQueue⟩
  · obtain ⟨hgone, hcount, hqueue, hparts⟩ := readiness_cancels hx hstarted hended hlate
    exact ⟨_, exec_txReadinessCheck_of_running hrun f ready, hgone, fun hnodup n _ => hcount hnodup n, hqueue,
      (hparts.mono (by simp [timeParts])).keepQueue⟩
  · obtain ⟨hnow, hself, hother, htries, hparts⟩ := frameStart_starts hx hstarted hlane hready ready hne hchans htaken
    exact ⟨_, exec_frameTxStart_of_running hrun f ready, hnow, hself, hother, htries, hparts.keepQueue⟩
  · obtain ⟨hgone, hparts⟩ := frameStart_cancels hx hstarted hended hlane hready ready hserv hfree
    exact ⟨_, exec_frameTxStart_of_running hrun f ready, hgone, hparts.keepQueue⟩
  · have hsilent := State.frameStart_of_silent hx hstarted hlane hready hended ready hgap
    have hparts := State.cancelFrame_onlyChanges hx hstarted hended
    rw [← hsilent] at hparts
    exact ⟨_, exec_frameTxStart_of_running hrun f ready, hsilent ▸ State.cancelFrame_gone hx hstarted hended, hparts .now (by simp),
      hparts.keepQueue⟩
  · obtain ⟨hnow, hin, hout⟩ := frameEnd_leaves hx hstarted hended hlane
    have hacked := frameEnd_waits hx hstarted hended hlane
    have hunacked := frameEnd_done hx hstarted hended hlane
    refine ⟨_, exec_frameTxEnd_of_running hrun f, hnow, hin, hout, fun hack => ?_, fun hack hw => ?_, fun hw => ?_⟩
    · obtain ⟨hwaits, hmac, hwindows, -⟩ := hacked hack
      exact ⟨hwaits, hmac, hwindows⟩
    · obtain ⟨hgone, hrepeats, hqueue, -⟩ := hunacked hack hw
      exact ⟨hgone, hrepeats, hqueue⟩
    · cases hack : x.ackReq with
      | true => exact (hacked hack).2.2.2.keepQueue
      | false => exact (hunacked hack hw).2.2.2.keepQueue
  · refine ⟨_, exec_txBlankEnd_of_running hrun n, ?_⟩
    rw [State.txBlankEnd_eq hblank]
    refine ⟨s.atDeadline_now b, ?_, fun m hm => ?_, ((onlyChanges_passTo s b).trans (onlyChanges_modChan _ n _)).keepQueue⟩
    · rw [State.chan_modPending, State.chan_modChan_self, State.chan_atDeadline]
    · rw [State.chan_modPending, State.chan_modChan_ne _ _ hm, State.chan_atDeadline]
  · have hparts := s.underrunCounted_onlyChanges n
    have hx' : (s.underrunCounted n).frame? f = some x := (State.frame?_congr (hparts .line (by simp)) f).trans hx
    obtain ⟨hflag, hcount⟩ := s.underrunCounted_rd n
    refine ⟨_, exec_txUnderrun_of_running hrun n, ?_⟩
    rw [State.txUnderrun_eq hframes]
    exact ⟨State.frame?_modFrame_self hx' _, hflag, hcount, s.underrunCounted_onlyRegs n,
      (hparts.trans (onlyChanges_modFrame _ f _)).keepQueue⟩

end Sys2Proof.Machine

end

section
/-! PROOF. O10 fails: a segment number outside the 64 segments can name the counter that passing time advances as a member. -/

namespace Sys2Proof.Machine

/-- A device whose segment 0 is coupled with NID 1 while domain time is not synchronised, so that UNSYNC_SECONDS advances with each second
(R420), and that holds an expected window of segment number 0x3D31, whose member at position 8 stands in UNSYNC_SECONDS. -/
def collidingSegment : State :=
  { State.reset with
    dict := [((K.seg.SEG_ENABLE 0).key, 1), ((K.seg.MEMBER_COUNT 0x3D31).key, 9)]
    domain := { Domain.reset with heard := [(1, ⟨65536 * 10 ^ 6, 0⟩)] }
    line := { Line.reset with windows := [⟨0x3D31, 0, 410000000, 410000001⟩] } }

theorem collidingSegment_running : collidingSegment.running = true := rfl

/-- As the preload begins, channel 1 is no member. -/
theorem one_notMem_members_collidingSegment : 1 ∉ collidingSegment.members 0x3D31 := by decide +kernel

/-- The preload is due after a second, when the member at position 8 reads 1: channel 1 takes the window. -/
theorem trimPreload_collidingSegment_chan :
    (collidingSegment.trimPreload 0x3D31 0 410000000).chan 1 ≠ collidingSegment.chan 1 := by decide +kernel

theorem collidingSegment_window :
    (collidingSegment.line.windows.find? fun w => w.seg == 0x3D31 && w.entry == 0 && w.from_ == 410000000) =
      some ⟨0x3D31, 0, 410000000, 410000001⟩ := by decide +kernel

theorem exec_trimPreload_of_running {s : State} (hrun : s.running = true) (g i opens : Nat) :
    exec (.trimPreload g i opens) s = .next ((s.trimPreload g i opens).modPending fun _ => s.pending) :=
  whenRunning_of_running hrun _

/-- Refutes O10: the members that a preload serves are those of the instant at which it is due, and of a segment number past 63 they need
not be those of the state before. -/
theorem not_trimsFollowPreloadsWritesAndWindows : ¬ Obligations.TrimsFollowPreloadsWritesAndWindows := by
  rintro ⟨-, hpreload⟩
  obtain ⟨t, ht, -, -, houtside, -⟩ :=
    hpreload 0x3D31 0 410000000 _ collidingSegment collidingSegment_running collidingSegment_window
  rw [exec_trimPreload_of_running collidingSegment_running] at ht
  obtain rfl := Host.Outcome.next.inj ht
  have hkept := houtside 1 one_notMem_members_collidingSegment
  rw [State.chan_modPending] at hkept
  exact trimPreload_collidingSegment_chan hkept

end Sys2Proof.Machine

end

section
/-! PROOF. O12 fails: the counter of a channel number outside the 256 channels can be a register that the rinse itself changes. -/

namespace Sys2Proof.Machine

/-- A decryption for MPDU 0 of reception 0, under key slot 0. -/
def openingMsg : CipherMsg :=
  { req :=
      { user := 16, cls := 0, slot := 0, mode := .ccm, encrypt := false, output := .hold, len := 0, earlyConsumer := false, descAddr := 0
        mpdu := some (0, 0) }
    key := [], old := false, fc := 0, order := 0, blocks := 0, released := 0, held := 0, issueTick := 0, pooled := true }

/-- A device whose channel number 8,960, enabled, holds reception 0 alone while engine 0 decrypts for it under a replaced key: its
RX_OVERFLOW_COUNT stands where SHADOW_PENDING of slot 0 does. -/
def collidingChannel : State :=
  { State.reset with
    dict := [((K.ch.ENABLE 8960).key, 1), ((K.key.SHADOW_PENDING 0).key, 1)]
    keys := { Keys.reset with engines := [(0, { Engine.free with owner := 16, running := some openingMsg, pooled := true })] }
    line := { Line.reset with
      chans := [(8960, { Channel.reset with rx := some 0 })]
      rxs := [(0, State.reset.newRx 8960 .ofdm 7 [⟨8960, 4, true, false, []⟩])] } }

/-- The rinse withdraws the decryption, which clears SHADOW_PENDING (R309), and then counts from 0. -/
theorem rxOverflow_collidingChannel_count :
    (collidingChannel.rxOverflow 8960).rd (K.chs.RX_OVERFLOW_COUNT 8960) = 1 := by decide +kernel

theorem collidingChannel_count : collidingChannel.rd (K.chs.RX_OVERFLOW_COUNT 8960) = 1 := by decide +kernel

theorem collidingChannel_enabled : collidingChannel.enabled 8960 = true := by decide +kernel

/-- Refutes O12: RX_OVERFLOW_COUNT of a channel number past 255 need not advance, since the end of the reception's engine work can clear
it. -/
theorem not_channelLossesAndConfigurationAct : ¬ Obligations.ChannelLossesAndConfigurationAct := by
  rintro ⟨-, hoverflow, -⟩
  obtain ⟨-, -, halone, -⟩ := hoverflow 8960 collidingChannel rfl
  obtain ⟨t, ht, -, ⟨-, -, -, -, hcount⟩, -⟩ :=
    halone 0 _ collidingChannel_enabled ⟨rfl, rfl, ⟨_, rfl, rfl⟩, rfl⟩ rfl rfl
  cases (whenRunning_of_running rfl _).symm.trans ht
  rw [Counted, State.rd_modPending, rxOverflow_collidingChannel_count, collidingChannel_count] at hcount
  exact absurd hcount (by decide)

end Sys2Proof.Machine

end

section
/-! PROOF. O44 fails: a channel that is disabled with a reception withdraws the reception's engine work, which the key engines hold. -/

namespace Sys2Proof.Machine

/-- A request for an engine to decrypt MPDU 0 of reception 0. -/
def openingReq : CipherReq :=
  { user := 0, cls := 0, slot := 0, mode := .ccm, encrypt := false, output := .releaseEarly, len := 0, earlyConsumer := true, descAddr := 0
    mpdu := some (0, 0) }

/-- Channel 0 as it is enabled after reset, holding reception 0 alone while an MPDU of it waits for an engine (R137). -/
def awaitingEngine : State :=
  { State.reset with
    keys := { Keys.reset with waiting := [openingReq] }
    line := { Line.reset with
      chans := [(0, { Channel.reset with rx := some 0 })]
      rxs := [(0, State.reset.newRx 0 .ofdm 7 [⟨0, 4, true, false, []⟩])] } }

/-- The write of FALSE to ENABLE rinses the reception, and the request that waited is gone (R143). -/
theorem channelDisable_awaitingEngine_waiting :
    (awaitingEngine.dictWrite .firmware {} (chanIndex 0) 0x01 [0]).keys.waiting = [] := by decide +kernel

theorem awaitingEngine_mayAccess : awaitingEngine.MayAccess .firmware 2 := ⟨rfl, by decide⟩

theorem awaitingEngine_enabled : awaitingEngine.enabled 0 = true := by decide +kernel

theorem exec_channelDisable (via : Path) (n : Nat) (s : State) :
    exec (.channelDisable via n) s = .next ((s.dictWrite via {} (chanIndex n) 0x01 [0]).modPending fun _ => s.pending) :=
  keepQueue_next ..

/-- Refutes O44: what a channel's end rinses takes its waiting engine work out of the keys' part of the state, which the statement holds
unchanged. -/
theorem not_channelsAndSegmentsSwitchAndCursorsSelect : ¬ Obligations.ChannelsAndSegmentsSwitchAndCursorsSelect := by
  rintro ⟨hchannels, -⟩
  obtain ⟨-, -, -, halone, -⟩ := hchannels .firmware 0 awaitingEngine (by decide) awaitingEngine_mayAccess
  obtain ⟨t, ht, -, -, -, -, -, hkept⟩ :=
    halone 0 _ awaitingEngine_enabled ⟨rfl, rfl, ⟨_, rfl, rfl⟩, rfl⟩ rfl rfl
  rw [exec_channelDisable] at ht
  obtain rfl := Host.Outcome.next.inj ht
  have hkeys := hkept .keys (by decide)
  rw [Part.Same, State.modPending_keys] at hkeys
  have hwaiting := channelDisable_awaitingEngine_waiting
  rw [hkeys] at hwaiting
  exact absurd hwaiting (by decide)

end Sys2Proof.Machine

end

section
/-! PROOF. O53 fails: a reception that stands twice in the table of receptions is fed to the decoders again. -/

namespace Sys2Proof.Machine

/-- An OFDM reception of 20 payload symbols on map 1 at P1, of which nothing is decoded. -/
def twentySymbols : Reception :=
  { State.reset.newRx 0 .ofdm 0 [⟨0, 4, true, false, []⟩] with
    stage := .payload, head := 2 ^ 2 + 2 ^ 54 + 20 * 2 ^ 62 + 3 * 2 ^ 74 + 2 ^ 76 }

/-- A device whose table of receptions lists reception 0 twice. -/
def receptionTwice : State :=
  { State.reset with line := { Line.reset with rxs := [(0, twentySymbols), (0, twentySymbols)] } }

/-- The second codeword of the reception, as many bytes as it has. -/
def secondWord : List Byte := List.replicate (receptionTwice.wordBytes twentySymbols 1) 0

/-- Once the second codeword has been received, a decoder takes it. -/
theorem receptionTwice_decoders :
    (0, 1) ∈ ((receptionTwice.passTo (receptionTwice.wordTick twentySymbols 1)).feedDecoders false).line.decoders := by decide +kernel

/-- The decoded codeword is stored with the first entry of the table; by the second it is in hand still, and a decoder takes it again. -/
theorem codewordDecoded_receptionTwice_decoders :
    (0, 1) ∈ (receptionTwice.codewordDecoded 0 1 0 secondWord).line.decoders := by decide +kernel

theorem secondWord_inLayout :
    1 < (receptionTwice.rxLayout twentySymbols).long + (receptionTwice.rxLayout twentySymbols).short := by decide +kernel

/-- The first codeword is missing, so no directory is in. -/
theorem secondWord_payload :
    ({ twentySymbols with words := Tbl.ins twentySymbols.words 1 secondWord } : Reception).payload.length <
      2 * (twentySymbols.fc.countM1 + 1) + 2 := by decide +kernel

theorem twentySymbols_type : twentySymbols.fc.type ≠ 6 := by decide +kernel

theorem exec_codewordDecoded_of_running {s : State} (hrun : s.running = true) (r k it : Nat) (bytes : List Byte) :
    exec (.codewordDecoded r k it bytes) s = .next ((s.codewordDecoded r k it bytes).modPending fun _ => s.pending) :=
  whenRunning_of_running hrun _

/-- Refutes O53: a decoded codeword need not leave the decoders, since the statement is over tables that may list a number twice. -/
theorem not_payloadIsTrackedDecodedShedOrTakenOver : ¬ Obligations.PayloadIsTrackedDecodedShedOrTakenOver := by
  rintro ⟨hpayload, -⟩
  obtain ⟨-, -, hword⟩ := hpayload 0 twentySymbols receptionTwice rfl rfl rfl
  obtain ⟨-, hdecoded⟩ := hword 1 0 secondWord _ _ _ rfl rfl rfl twentySymbols_type secondWord_inLayout rfl
    List.length_replicate rfl rfl
  obtain ⟨hnodir, -⟩ := hdecoded receptionTwice_decoders
  obtain ⟨t, ht, -, hgone, -⟩ := hnodir rfl secondWord_payload
  rw [exec_codewordDecoded_of_running rfl] at ht
  obtain rfl := Host.Outcome.next.inj ht
  rw [State.modPending_line] at hgone
  exact hgone codewordDecoded_receptionTwice_decoders

end Sys2Proof.Machine

end

section
/-! PROOF. What the end of a reception's engine work leaves alone: the clock, the channels, and the registers of the line. -/

namespace Sys2Proof.Machine

/-- The part of a state in which no cipher engine has a share: the clock, the channels, and the registers below index 0x3200, which end
with the counters of the 256 channels. -/
def State.besideKeys (s : State) : Nat × Tbl Channel × (Nat → Option Nat) :=
  (s.now, s.line.chans, fun k => if k < 0x320000 then Tbl.at? s.dict k else none)

section BesideKeys

theorem State.besideKeys_congr {s t : State} (hnow : t.now = s.now) (hchans : t.line.chans = s.line.chans) (hdict : t.dict = s.dict) :
    t.besideKeys = s.besideKeys := by
  rw [State.besideKeys, hnow, hchans, hdict, State.besideKeys]

theorem State.now_of_besideKeys {s t : State} (h : t.besideKeys = s.besideKeys) : t.now = s.now := congrArg (·.1) h

theorem State.chan_of_besideKeys {s t : State} (h : t.besideKeys = s.besideKeys) (n : Nat) : t.chan n = s.chan n := by
  have hchans : t.line.chans = s.line.chans := congrArg (·.2.1) h
  rw [State.chan, hchans, State.chan]

theorem State.rd_of_besideKeys {s t : State} (h : t.besideKeys = s.besideKeys) {r : Reg} (hr : r.key < 0x320000) : t.rd r = s.rd r := by
  have hat : Tbl.at? t.dict r.key = Tbl.at? s.dict r.key := by
    simpa [State.besideKeys, hr] using congrFun (congrArg (·.2.2) h) r.key
  rw [State.rd, Tbl.atD, hat, State.rd, Tbl.atD]

/-- A register above those of the channels. -/
def Reg.aboveChannels (r : Reg) : Prop := 0x320000 ≤ r.key

/-- The registers that engine work writes: those of key slots, engines and queues, and of the sample ring. -/
@[simp] theorem Reg.aboveChannels_of_keys (i : Nat) :
    (K.key.STATE i).aboveChannels ∧ (K.key.USE_COUNT i).aboveChannels ∧ (K.key.TX_FC i).aboveChannels ∧
    (K.key.SHADOW_PENDING i).aboveChannels ∧ (K.key.NEAR_LIMIT_SEEN i).aboveChannels ∧ (K.eng.MESSAGES i).aboveChannels ∧
    (K.eng.SEAMS i).aboveChannels ∧ (K.eng.TAG_FAILS i).aboveChannels ∧ (K.eng.KEY_ERASED_ENDS i).aboveChannels ∧
    (K.q.OVERRUN i).aboveChannels ∧ (K.q.OVERRUN_COUNT i).aboveChannels ∧ (K.q.PACKETS_DROPPED i).aboveChannels := by
  simp only [Reg.aboveChannels, K.key.STATE, K.key.USE_COUNT, K.key.TX_FC, K.key.SHADOW_PENDING, K.key.NEAR_LIMIT_SEEN,
    K.eng.MESSAGES, K.eng.SEAMS, K.eng.TAG_FAILS, K.eng.KEY_ERASED_ENDS, K.q.OVERRUN, K.q.OVERRUN_COUNT, K.q.PACKETS_DROPPED]
  omega

@[simp] theorem Reg.aboveChannels_of_samp : K.samp.SAMPLE_COUNT.aboveChannels ∧ K.samp.SAMPLE_OVERFLOW.aboveChannels := by
  unfold Reg.aboveChannels
  decide

variable (s : State)

@[simp] theorem State.wr_besideKeys {r : Reg} (v : Nat) (h : r.aboveChannels) : (s.wr r v).besideKeys = s.besideKeys := by
  refine congrArg (fun f => (s.now, s.line.chans, f)) (funext fun k => ?_)
  split
  · next hk =>
    have hne : k ≠ r.key := by
      unfold Reg.aboveChannels at h
      omega
    exact Tbl.at?_store_ne s.dict _ r.dflt hne
  · rfl

@[simp] theorem State.setFlag_besideKeys {r : Reg} (b : Bool) (h : r.aboveChannels) : (s.setFlag r b).besideKeys = s.besideKeys :=
  s.wr_besideKeys _ h
@[simp] theorem State.bump_besideKeys {r : Reg} (h : r.aboveChannels) : (s.bump r).besideKeys = s.besideKeys := s.wr_besideKeys _ h
@[simp] theorem State.ite_besideKeys (c : Prop) [Decidable c] (s t : State) :
    (if c then s else t).besideKeys = if c then s.besideKeys else t.besideKeys := apply_ite _ _ _ _
@[simp] theorem State.modKeys_besideKeys (f : Keys → Keys) : (s.modKeys f).besideKeys = s.besideKeys := rfl
@[simp] theorem State.modPerf_besideKeys (f : Perf → Perf) : (s.modPerf f).besideKeys = s.besideKeys := rfl
@[simp] theorem State.modQueue_besideKeys (q : Nat) (f : HwQueue → HwQueue) : (s.modQueue q f).besideKeys = s.besideKeys := rfl
@[simp] theorem State.modRx_besideKeys (r : Nat) (f : Reception → Reception) : (s.modRx r f).besideKeys = s.besideKeys := rfl
@[simp] theorem State.modSlot_besideKeys (i : Nat) (f : KeySlot → KeySlot) : (s.modSlot i f).besideKeys = s.besideKeys := rfl
@[simp] theorem State.modEngine_besideKeys (e : Nat) (f : Engine → Engine) : (s.modEngine e f).besideKeys = s.besideKeys := rfl
@[simp] theorem State.events_besideKeys (b code : Nat) (c : Option Nat) (n : Nat) : (s.events b code c n).besideKeys = s.besideKeys :=
  State.besideKeys_congr (by simp) (by simp) (by simp)
@[simp] theorem State.event_besideKeys (b code : Nat) : (s.event b code).besideKeys = s.besideKeys := s.events_besideKeys ..
@[simp] theorem State.eventC_besideKeys (b code c : Nat) : (s.eventC b code c).besideKeys = s.besideKeys := s.events_besideKeys ..
@[simp] theorem State.userEvent_besideKeys (user code : Nat) : (s.userEvent user code).besideKeys = s.besideKeys := by
  unfold State.userEvent
  split <;> simp
@[simp] theorem State.wordRead_besideKeys (q user : Nat) (e : Bool) : (s.wordRead q user e).besideKeys = s.besideKeys := by
  unfold State.wordRead
  split <;> simp

/-! Output packets and sampled descriptors. -/

@[simp] theorem State.queuePut_besideKeys (q w : Nat) (e : Bool) : (s.queuePut q w e).besideKeys = s.besideKeys := by
  simp [State.queuePut]
@[simp] theorem State.putWords_besideKeys (q : Nat) (ws : List Nat) : (s.putWords q ws).besideKeys = s.besideKeys := by
  induction ws generalizing s with
  | nil => rfl
  | cons w ws ih =>
    cases ws with
    | nil => exact s.queuePut_besideKeys q w true
    | cons v ws => exact (ih _).trans (s.queuePut_besideKeys q w false)
@[simp] theorem State.sendPacket_besideKeys (q : Nat) (ws : List Nat) : (s.sendPacket q ws).besideKeys = s.besideKeys := by
  simp [State.sendPacket]
@[simp] theorem State.sampleDescriptor_besideKeys (source opcode cls : Nat) (background : Bool) (addr issue : Nat) :
    (s.sampleDescriptor source opcode cls background addr issue).besideKeys = s.besideKeys := by
  simp [State.sampleDescriptor]

/-! Key slots. -/

@[simp] theorem State.slotSettle_besideKeys (i : Nat) : (s.slotSettle i).besideKeys = s.besideKeys := by simp [State.slotSettle]
@[simp] theorem State.slotUse_besideKeys (i : Nat) : (s.slotUse i).besideKeys = s.besideKeys := by simp [State.slotUse]
@[simp] theorem State.takeFc_besideKeys (i : Nat) : (s.takeFc i).2.besideKeys = s.besideKeys := by simp [State.takeFc]
@[simp] theorem State.shadowSettle_besideKeys (i : Nat) : (s.shadowSettle i).besideKeys = s.besideKeys := by simp [State.shadowSettle]

/-! Messages on engines. -/

@[simp] theorem State.openingEnds_besideKeys (r : CipherReq) (key : List Byte) (code : EndCode) :
    (s.openingEnds r key code).besideKeys = s.besideKeys := by
  unfold State.openingEnds
  split <;> simp
@[simp] theorem State.outPacket_besideKeys (e : Nat) (m : CipherMsg) (code : EndCode) :
    (s.outPacket e m code).besideKeys = s.besideKeys := by
  simp [State.outPacket]
@[simp] theorem State.closeMsg_besideKeys (e : Nat) (m : CipherMsg) (code : EndCode) :
    (s.closeMsg e m code).besideKeys = s.besideKeys := by
  unfold State.closeMsg
  repeat' split
  all_goals simp
@[simp] theorem State.endUse_besideKeys (m : CipherMsg) (code : EndCode) : (s.endUse m code).besideKeys = s.besideKeys := by
  unfold State.endUse
  repeat' split
  all_goals simp
@[simp] theorem State.startMsg_besideKeys (e : Nat) (r : CipherReq) : (s.startMsg e r).besideKeys = s.besideKeys := by
  simp [State.startMsg]
@[simp] theorem State.refuseMsg_besideKeys (e : Nat) (r : CipherReq) (code : EndCode) :
    (s.refuseMsg e r code).besideKeys = s.besideKeys := by
  simp [State.refuseMsg]
@[simp] theorem State.runDescriptor_besideKeys (e : Nat) (r : CipherReq) : (s.runDescriptor e r).besideKeys = s.besideKeys := by
  simp [State.runDescriptor]
@[simp] theorem State.suspend_besideKeys (e : Nat) (r : CipherReq) : (s.suspend e r).besideKeys = s.besideKeys := by
  simp [State.suspend]
theorem State.grant?_besideKeys (r : CipherReq) (avoid : Option Nat) : ∀ t ∈ s.grant? r avoid, t.besideKeys = s.besideKeys := by
  unfold State.grant?
  repeat' split
  all_goals simp
@[simp] theorem State.serveWaiting_besideKeys (n : Nat) : (s.serveWaiting n).besideKeys = s.besideKeys := by
  induction n generalizing s with
  | zero => rfl
  | succ n ih =>
    unfold State.serveWaiting
    split
    next r t h =>
      obtain ⟨q, -, hq⟩ := List.exists_of_findSome?_eq_some h
      obtain ⟨u, hu, ⟨⟩⟩ := Option.map_eq_some_iff.1 hq
      rw [ih, State.modKeys_besideKeys, s.grant?_besideKeys _ none _ hu]
    next => rfl
@[simp] theorem State.serve_besideKeys : s.serve.besideKeys = s.besideKeys := s.serveWaiting_besideKeys _
@[simp] theorem State.endMsg_besideKeys (e : Nat) (code : EndCode) : (s.endMsg e code).besideKeys = s.besideKeys := by
  unfold State.endMsg
  split <;> simp
@[simp] theorem State.endSeam_besideKeys (e : Nat) (code : EndCode) : (s.endSeam e code).besideKeys = s.besideKeys := by
  unfold State.endSeam
  split <;> simp
@[simp] theorem State.withdrawWork_besideKeys (mine : CipherReq → Bool) : (s.withdrawWork mine).besideKeys = s.besideKeys := by
  unfold State.withdrawWork
  refine State.foldl_keeps State.besideKeys _ (fun t e => ?_) _ _
  extract_lets u
  have hu : u.besideKeys = t.besideKeys := by
    simp only [u]
    split <;> simp
  split <;> simp [hu]
@[simp] theorem State.withdrawOpenings_besideKeys (r : Nat) : (s.withdrawOpenings r).besideKeys = s.besideKeys :=
  s.withdrawWork_besideKeys _

end BesideKeys

/-! A reception without engine work has none withdrawn. -/

theorem State.noOpenings_congr {s t : State} (h : t.keys = s.keys) (r : Nat) : t.noOpenings r ↔ s.noOpenings r := by
  simp only [State.noOpenings, State.engine, h]

theorem State.withdrawOpenings_of_noOpenings {s : State} {r : Nat} (h : s.noOpenings r) : s.withdrawOpenings r = s := by
  obtain ⟨hwaiting, hengines⟩ := h
  have hkept : (s.modKeys fun k => { k with waiting := k.waiting.filter fun q => !q.mpdu.any fun p => p.1 == r }) = s := by
    have hfilter : (s.keys.waiting.filter fun q => !q.mpdu.any fun p => p.1 == r) = s.keys.waiting :=
      List.filter_eq_self.2 fun q hq => by rw [hwaiting q hq, Bool.not_false]
    rw [State.modKeys, hfilter]
  unfold State.withdrawOpenings State.withdrawWork
  refine List.foldlRecOn (motive := fun t => t = s) _ _ hkept fun t ht e he => ?_
  rw [ht]
  have hmsgs := hengines e (List.mem_range.1 he)
  cases hseam : (s.engine e).seam <;> cases hrunning : (s.engine e).running <;>
    simp_all [Engine.msgs]

end Sys2Proof.Machine

end

section
/-! PROOF. What a rinse leaves of a reception of one channel (R143). -/

namespace Sys2Proof.Machine

section Receptions

variable (s : State)

theorem State.rx?_modRx_self {s : State} {r : Nat} {x : Reception} (h : s.rx? r = some x) (f : Reception → Reception) :
    (s.modRx r f).rx? r = some (f x) := Tbl.at?_upd_self h f

@[simp] theorem State.rx?_dropRx_self (r : Nat) : (s.dropRx r).rx? r = none := Tbl.at?_del_self ..

@[simp] theorem State.rx?_passTo (t r : Nat) : (s.passTo t).rx? r = s.rx? r := State.rx?_congr (by simp) r

theorem onlyChanges_modRx (r : Nat) (f : Reception → Reception) : OnlyChanges [.line] s (s.modRx r f) := onlyChanges_modLine s _

/-- A register outside those that change is read as before. -/
theorem OnlyRegs.rd {rs : List Reg} {s t : State} (h : OnlyRegs rs s t) {r : Reg} (hr : r.key ∉ rs.map Reg.key) : t.rd r = s.rd r := by
  rw [State.rd, Tbl.atD, h r.key hr, State.rd, Tbl.atD]

theorem Counted.of_rd_eq {c : Reg} {s s' t : State} (h : Counted c s t) (hrd : s.rd c = s'.rd c) : Counted c s' t := by
  unfold Counted at h ⊢
  rw [h, hrd]

theorem counted_bump (c : Reg) : Counted c s (s.bump c) := State.rd_bump_self s c

/-! The decoders take codewords. -/

@[simp] theorem State.chan_feedDecoders (free : Bool) (n : Nat) : (s.feedDecoders free).chan n = s.chan n := by
  simp [State.chan, State.feedDecoders]

@[simp] theorem State.rx?_feedDecoders (free : Bool) (r : Nat) : (s.feedDecoders free).rx? r = s.rx? r := by
  simp [State.rx?, State.feedDecoders]

theorem onlyChanges_feedDecoders (free : Bool) : OnlyChanges [.perf, .line] s (s.feedDecoders free) :=
  (onlyChanges_events s _ _ _ _).trans (onlyChanges_modLine _ _)

end Receptions

/-! A channel's release (R32, R52). -/

/-- What an idle channel's interpolator takes depends on the channel's window and IDLE_TRIM, and on the link and its segment. -/
theorem State.idleTrim_congr {s t : State} {n : Nat} (hdict : t.dict = s.dict) (hmac : t.mac = s.mac)
    (hwindow : (t.chan n).window = (s.chan n).window) (hcfg : (t.chan n).cfg = (s.chan n).cfg) : t.idleTrim n = s.idleTrim n := by
  simp only [State.idleTrim, State.linkTrim, State.ep, State.position, State.members, State.rd, hdict, hmac, hwindow, hcfg]
  rfl

/-- What the release of channel `n` from its reception leaves. -/
def State.channelReleased (s : State) (n : Nat) : Channel :=
  { s.chan n with
    rx := none, frozen := false, second := none, idleFrom := s.now
    written := some ((s.idleTrim n).1, (s.idleTrim n).2 % 64, s.now) }

theorem State.releaseChan_eq {s : State} {r n : Nat} (h : (s.chan n).rx = some r) :
    s.releaseChan r n = (s.modChan n fun c => { c with rx := none, frozen := false, second := none, idleFrom := s.now }).writeTrim n
      (s.idleTrim n).1 (s.idleTrim n).2 := by
  have hidle : (s.modChan n fun c => { c with rx := none, frozen := false, second := none, idleFrom := s.now }).idleTrim n =
      s.idleTrim n := State.idleTrim_congr rfl rfl (by simp) (by simp)
  simp only [State.releaseChan, h, ne_eq, not_true_eq_false, if_false, hidle]

theorem State.releaseChan_chan {s : State} {r n : Nat} (h : (s.chan n).rx = some r) :
    (s.releaseChan r n).chan n = s.channelReleased n := by
  rw [State.releaseChan_eq h, State.writeTrim, State.chan_modChan_self, State.chan_modChan_self]
  rfl

theorem State.releaseLane_chan {s : State} {r n : Nat} (h : (s.chan n).laneRx = some r) :
    (s.releaseLane r n).chan n = { s.chan n with laneRx := none, laneSecond := none, idleFrom := s.now } := by
  simp [State.releaseLane, h]

theorem onlyChanges_releaseFrom (s : State) (r : Nat) (x : Reception) (n : Nat) : OnlyChanges [.line] s (s.releaseFrom r x n) := by
  unfold State.releaseFrom State.releaseLane State.releaseChan
  repeat' split
  · exact (OnlyChanges.refl s).mono (by simp)
  · exact onlyChanges_modLine s _
  · exact (OnlyChanges.refl s).mono (by simp)
  · exact (onlyChanges_modChan s _ _).chain (onlyChanges_modChan _ _ _)

theorem State.releaseAll_single (s : State) {x : Reception} {m : RxMember} (h : x.members = [m]) (r : Nat) :
    s.releaseAll r x = s.releaseFrom r x m.chan := by
  rw [State.releaseAll, h, List.foldl_cons, List.foldl_nil]

theorem Reception.lead_single {x : Reception} {m : RxMember} (h : x.members = [m]) : x.lead = m.chan := by
  rw [Reception.lead, h]
  rfl

/-! The rinse up to the release: the codewords in hand are discarded, the engine work is withdrawn, and the cause is counted. -/

/-- The codewords in hand of reception `x` are discarded and counted. -/
def State.wordsDiscarded (s : State) (x : Reception) : State :=
  ((s.feedDecoders false).bumpBy (K.chs.CODEWORDS_DISCARDED x.lead) (s.backlog x)).events 8 0x08 (some x.pri) (s.backlog x)

/-- Reception `r`, which is `x`, is rinsed for the cause that `c` counts, up to the release of its channels. -/
def State.rinseCounted (s : State) (r : Nat) (x : Reception) (c : Reg) : State :=
  (((s.wordsDiscarded x).withdrawOpenings r).bump c).event 8 0x04

theorem State.rinse_eq {s : State} {r : Nat} {x : Reception} (h : s.rx? r = some x) (c : Reg) :
    s.rinse r c = (((s.rinseCounted r x c).releaseAll r x).dropRx r).feedDecoders true := by
  simp only [State.rinse, h]
  rfl

section Rinse

variable (s : State) (r : Nat) (x : Reception)

theorem State.wordsDiscarded_onlyChanges : OnlyChanges [.dict, .perf, .line] s (s.wordsDiscarded x) :=
  (((onlyChanges_feedDecoders s false).trans (onlyChanges_wr _ _ _)).trans (onlyChanges_events _ _ _ _ _)).mono (by simp)

theorem State.wordsDiscarded_chan (n : Nat) : (s.wordsDiscarded x).chan n = s.chan n :=
  (State.chan_congr ((State.events_line ..).trans rfl) n).trans (s.chan_feedDecoders false n)

theorem State.wordsDiscarded_rd {c : Reg} (h : c.key ≠ (K.chs.CODEWORDS_DISCARDED x.lead).key) : (s.wordsDiscarded x).rd c = s.rd c := by
  rw [State.wordsDiscarded, State.rd, State.events_dict, ← State.rd, State.rd_bumpBy_ne _ _ h, State.rd,
    (onlyChanges_feedDecoders s false) .dict (by simp), ← State.rd]

theorem State.rinseCounted_now (c : Reg) : (s.rinseCounted r x c).now = s.now := by
  have hwithdrawn := State.now_of_besideKeys ((s.wordsDiscarded x).withdrawOpenings_besideKeys r)
  rw [State.rinseCounted, State.event_now, State.bump_now, hwithdrawn, s.wordsDiscarded_onlyChanges x .now (by simp)]

theorem State.rinseCounted_chan (c : Reg) (n : Nat) : (s.rinseCounted r x c).chan n = s.chan n := by
  have hwithdrawn := State.chan_of_besideKeys ((s.wordsDiscarded x).withdrawOpenings_besideKeys r) n
  rw [State.rinseCounted, State.chan_congr (State.event_line ..), State.chan_bump, hwithdrawn, State.wordsDiscarded_chan]

theorem State.rinseCounted_counted {c : Reg} (hc : c.key < 0x320000) (hne : c.key ≠ (K.chs.CODEWORDS_DISCARDED x.lead).key) :
    Counted c s (s.rinseCounted r x c) := by
  have hwithdrawn := State.rd_of_besideKeys ((s.wordsDiscarded x).withdrawOpenings_besideKeys r) hc
  unfold Counted
  rw [State.rinseCounted, State.rd, State.event_dict, ← State.rd, State.rd_bump_self, hwithdrawn, State.wordsDiscarded_rd _ _ hne]

theorem State.rinseCounted_onlyChanges (c : Reg) (h : s.noOpenings r) : OnlyChanges [.dict, .perf, .line] s (s.rinseCounted r x c) := by
  have hkept : (s.wordsDiscarded x).noOpenings r :=
    (State.noOpenings_congr (s.wordsDiscarded_onlyChanges x .keys (by simp)) r).2 h
  rw [State.rinseCounted, State.withdrawOpenings_of_noOpenings hkept]
  exact (((s.wordsDiscarded_onlyChanges x).trans (onlyChanges_bump _ c)).trans (onlyChanges_event _ _ _)).mono (by simp)

/-- The release and the end of a reception. -/
theorem State.rinseEnd_onlyChanges (n : Nat) :
    OnlyChanges [.perf, .line] s (((s.releaseFrom r x n).dropRx r).feedDecoders true) :=
  (((onlyChanges_releaseFrom s r x n).trans (onlyChanges_modLine _ _)).trans (onlyChanges_feedDecoders _ true)).mono (by simp)

end Rinse

section RinseSingle

variable {s : State} {r n : Nat} {x : Reception} {m : RxMember} {c : Reg} (hx : s.rx? r = some x) (hmembers : x.members = [m])
  (hchan : m.chan = n)

include hx hmembers hchan

theorem State.rinse_single :
    s.rinse r c = (((s.rinseCounted r x c).releaseFrom r x n).dropRx r).feedDecoders true := by
  rw [State.rinse_eq hx, State.releaseAll_single _ hmembers, hchan]

theorem State.rinse_rx? : (s.rinse r c).rx? r = none := by
  rw [State.rinse_single hx hmembers hchan, State.rx?_feedDecoders, State.rx?_dropRx_self]

theorem State.rinse_chan : (s.rinse r c).chan n = ((s.rinseCounted r x c).releaseFrom r x n).chan n := by
  rw [State.rinse_single hx hmembers hchan, State.chan_feedDecoders]
  rfl

theorem State.rinse_now : (s.rinse r c).now = s.now := by
  rw [State.rinse_single hx hmembers hchan, (State.rinseEnd_onlyChanges _ r x n) .now (by simp), State.rinseCounted_now]

theorem State.rinse_counted (hc : c.key < 0x320000) (hne : c.key ≠ (K.chs.CODEWORDS_DISCARDED n).key) : Counted c s (s.rinse r c) := by
  have hdict := (State.rinseEnd_onlyChanges (s.rinseCounted r x c) r x n) .dict (by simp)
  have hlead : x.lead = n := (Reception.lead_single hmembers).trans hchan
  have hcounted := s.rinseCounted_counted r x hc (by rwa [hlead])
  unfold Counted at hcounted ⊢
  rw [State.rinse_single hx hmembers hchan, State.rd, hdict, ← State.rd, hcounted]

theorem State.rinse_onlyChanges (h : s.noOpenings r) : OnlyChanges [.dict, .perf, .line] s (s.rinse r c) := by
  rw [State.rinse_single hx hmembers hchan]
  exact ((s.rinseCounted_onlyChanges r x c h).trans (State.rinseEnd_onlyChanges _ r x n)).mono (by simp)

/-- A rinse of the line's reception of one channel. -/
theorem State.rinse_rinsed (hlane : isLane x.wave = false) (hrx : (s.chan n).rx = some r) (hc : c.key < 0x320000)
    (hne : c.key ≠ (K.chs.CODEWORDS_DISCARDED n).key) : Rinsed r n c s (s.rinse r c) := by
  have hrx' : ((s.rinseCounted r x c).chan n).rx = some r := by rw [State.rinseCounted_chan, hrx]
  have hreleased : (s.rinse r c).chan n = (s.rinseCounted r x c).channelReleased n := by
    rw [State.rinse_chan hx hmembers hchan, State.releaseFrom, hlane, if_neg Bool.false_ne_true, State.releaseChan_chan hrx']
  have hend := State.rinseEnd_onlyChanges (s.rinseCounted r x c) r x n
  rw [← State.rinse_single hx hmembers hchan] at hend
  have hidle : (s.rinse r c).idleTrim n = (s.rinseCounted r x c).idleTrim n :=
    State.idleTrim_congr (hend .dict (by simp)) (hend .mac (by simp)) (by rw [hreleased]; rfl) (by rw [hreleased]; rfl)
  refine ⟨State.rinse_rx? hx hmembers hchan, ?_, ?_, ?_, State.rinse_counted hx hmembers hchan hc hne⟩
  · rw [hreleased]
    rfl
  · rw [hreleased]
    rfl
  · rw [hidle, hend .now (by simp), hreleased]
    rfl

/-- A rinse of a lane reception frees the lane receiver. -/
theorem State.rinse_laneRx (hlane : isLane x.wave = true) (hrx : (s.chan n).laneRx = some r) : ((s.rinse r c).chan n).laneRx = none := by
  have hrx' : ((s.rinseCounted r x c).chan n).laneRx = some r := by rw [State.rinseCounted_chan, hrx]
  rw [State.rinse_chan hx hmembers hchan, State.releaseFrom, if_pos hlane, State.releaseLane_chan hrx']

end RinseSingle

end Sys2Proof.Machine

end

section
/-! PROOF. O52: headers are judged by their check, then by network and address. -/

namespace Sys2Proof.Machine

/-! The judgement by network and address (R134, R141, R257). -/

/-- Reception `r` is held passively to its end. -/
def State.held (s : State) (r : Nat) : State := s.modRx r fun x => { x with stage := .passive }

section Addressed

variable (s : State) (r : Nat) {x : Reception} {g nid dst : Nat}

theorem State.addressed_of_unbound (hseg : x.seg = none) :
    s.addressed r x nid dst = (false, (s.bump (K.chs.FOREIGN_COUNT x.lead)).held r) := by
  simp only [State.addressed, hseg]
  rfl

variable (hseg : x.seg = some g)

include hseg

theorem State.addressed_of_foreign (hlane : isLane x.wave = false) (hnid : nid ≠ s.nid g) :
    s.addressed r x nid dst = (false, ((s.bump (K.chs.FOREIGN_COUNT x.lead)).hear g nid x.metric).held r) := by
  simp only [State.addressed, hseg, if_pos hnid, hlane]
  rfl

theorem State.addressed_of_laneForeign (hlane : isLane x.wave = true) (hnid : nid ≠ s.nid g) :
    s.addressed r x nid dst = (false, (s.bump (K.chs.FOREIGN_COUNT x.lead)).held r) := by
  simp only [State.addressed, hseg, if_pos hnid, hlane]
  rfl

theorem State.addressed_of_other (hnid : nid = s.nid g) (hdst : dst ≠ 0) (hdst' : dst ≠ 0xFFFF) :
    s.addressed r x nid dst = (false, (s.bump (K.chs.NOT_ADDRESSED_COUNT x.lead)).held r) := by
  simp [State.addressed, hseg, hnid, hdst, hdst', State.held]

theorem State.addressed_of_mine (hnid : nid = s.nid g) (hdst : dst = 0 ∨ dst = 0xFFFF) : s.addressed r x nid dst = (true, s) := by
  rcases hdst with rfl | rfl <;> simp [State.addressed, hseg, hnid]

end Addressed

/-- The interference record of a foreign network is written, and nothing else. -/
theorem State.hear_eq (s : State) (g nid level : Nat) : ∃ t h, h.last = s.now ∧
    s.hear g nid level = { s with domain := { s.domain with heard := Tbl.ins t (g * 65536 + nid) h } } := by
  cases hheard : Tbl.at? s.domain.heard (g * 65536 + nid) with
  | none =>
    simp only [State.hear, hheard]
    exact ⟨_, ⟨level, s.now⟩, rfl, rfl⟩
  | some h =>
    simp only [State.hear, hheard]
    exact ⟨_, ⟨_, s.now⟩, rfl, rfl⟩

theorem State.hear_record (s : State) (g nid level : Nat) :
    ∃ y, Tbl.at? (s.hear g nid level).domain.heard (g * 65536 + nid) = some y ∧ y.last = s.now := by
  obtain ⟨t, h, hlast, heq⟩ := s.hear_eq g nid level
  exact ⟨h, by rw [heq]; exact Tbl.at?_ins_self .., hlast⟩

theorem onlyChanges_hear (s : State) (g nid level : Nat) : OnlyChanges [.domain] s (s.hear g nid level) := by
  obtain ⟨t, h, -, heq⟩ := s.hear_eq g nid level
  rw [heq]
  intro p hp
  cases p <;> simp_all [Part.Same]

section Held

variable {s : State} {r : Nat} {x : Reception} (hx : s.rx? r = some x) (c : Reg)

include hx

theorem State.held_heldPassively : HeldPassively r c s ((s.bump c).held r) :=
  ⟨⟨_, State.rx?_modRx_self (s := s.bump c) hx _, rfl⟩, counted_bump s c⟩

theorem State.heard_heldPassively (g nid level : Nat) : HeldPassively r c s (((s.bump c).hear g nid level).held r) := by
  have hkept := onlyChanges_hear (s.bump c) g nid level
  have hx' : ((s.bump c).hear g nid level).rx? r = some x := (State.rx?_congr (hkept .line (by simp)) r).trans hx
  refine ⟨⟨_, State.rx?_modRx_self hx' _, rfl⟩, ?_⟩
  have hcounted := counted_bump s c
  unfold Counted at hcounted ⊢
  rw [← hcounted, State.rd, State.held, State.modRx, State.modLine_dict, hkept .dict (by simp), ← State.rd]

end Held

theorem HeldPassively.of_rd_eq {r : Nat} {c : Reg} {s s' t : State} (h : HeldPassively r c s t) (hrd : s.rd c = s'.rd c) :
    HeldPassively r c s' t := ⟨h.1, h.2.of_rd_eq hrd⟩

theorem onlyChanges_held (s : State) (c : Reg) (r : Nat) : OnlyChanges [.dict, .line] s ((s.bump c).held r) :=
  (onlyChanges_bump s c).trans (onlyChanges_modRx _ _ _)

/-! A header that has passed (R72, R99, R136). -/

/-- Reception `x` under the frame control `f`, read from `bytes`. -/
def Reception.withFc (x : Reception) (f : FrameControl) (bytes : List Byte) : Reception :=
  { x with head := ofLe bytes, stop := x.begin_ + ppduTicks f.psc f.gi }

/-- A GI other than the one that the payload's transforms assume is counted (R136). -/
def State.giJudged (s : State) (x : Reception) (f : FrameControl) : State :=
  if f.psc ≠ 0 && s.predictedGi x ≠ f.gi then s.bump (K.chs.GI_MISS x.lead) else s

/-- The GI is kept as that of the segment's last frame (R136). -/
def State.giKept (s : State) (x : Reception) (gi : Nat) : State :=
  match x.seg with
  | some g => s.modLine fun l => { l with lastGi := Tbl.store 3 l.lastGi g gi }
  | none => s

/-- The frame control of reception `r`, which is `x`, and its GI are noted, before it is judged for its receiver. -/
def State.fcNoted (s : State) (r : Nat) (x : Reception) (f : FrameControl) (bytes : List Byte) : State :=
  (((s.modRx r fun x => x.withFc f bytes).event 8 0x02).giJudged (x.withFc f bytes) f).giKept (x.withFc f bytes) f.gi

section Gi

variable (s : State) (x : Reception) (f : FrameControl) (gi : Nat)

theorem State.giJudged_eq_or : s.giJudged x f = s.bump (K.chs.GI_MISS x.lead) ∨ s.giJudged x f = s := by
  unfold State.giJudged
  split
  · exact .inl rfl
  · exact .inr rfl

theorem State.giJudged_line : (s.giJudged x f).line = s.line := by
  rcases s.giJudged_eq_or x f with h | h <;> rw [h]
  rfl

theorem State.giJudged_onlyChanges : OnlyChanges [.dict] s (s.giJudged x f) := by
  rcases s.giJudged_eq_or x f with h | h <;> rw [h]
  · exact onlyChanges_bump s _
  · exact (OnlyChanges.refl s).mono (by simp)

theorem State.giJudged_onlyRegs : OnlyRegs [K.chs.GI_MISS x.lead] s (s.giJudged x f) := by
  rcases s.giJudged_eq_or x f with h | h <;> rw [h]
  · exact onlyRegs_bump s _
  · exact OnlyRegs.refl _ s

theorem State.giKept_eq : ∃ t, s.giKept x gi = s.modLine fun l => { l with lastGi := t } := by
  unfold State.giKept
  split
  · exact ⟨_, rfl⟩
  · exact ⟨s.line.lastGi, rfl⟩

theorem State.giKept_onlyChanges : OnlyChanges [.line] s (s.giKept x gi) := by
  obtain ⟨t, h⟩ := s.giKept_eq x gi
  rw [h]
  exact onlyChanges_modLine s _

theorem State.giKept_lastGi {x : Reception} {g : Nat} (hseg : x.seg = some g) : Tbl.atD (s.giKept x gi).line.lastGi g 3 = gi := by
  simp [State.giKept, hseg]

end Gi

section FrameControl

variable {s : State} {r : Nat} {x : Reception} (f : FrameControl) (bytes : List Byte)

theorem State.fcNoted_onlyChanges : OnlyChanges [.dict, .perf, .line] s (s.fcNoted r x f bytes) :=
  ((((onlyChanges_modRx s r _).trans (onlyChanges_event _ _ _)).trans (State.giJudged_onlyChanges _ _ _)).trans
    (State.giKept_onlyChanges _ _ _)).mono (by simp)

theorem State.fcNoted_onlyRegs : OnlyRegs [K.chs.GI_MISS x.lead] s (s.fcNoted r x f bytes) := by
  have hjudged := State.giJudged_onlyRegs ((s.modRx r fun x => x.withFc f bytes).event 8 0x02) (x.withFc f bytes) f
  intro k hk
  rw [State.fcNoted, State.giKept_onlyChanges _ _ _ .dict (by simp), hjudged k hk, State.event_dict]
  rfl

theorem State.fcNoted_nextAdmit : (s.fcNoted r x f bytes).line.nextAdmit = s.line.nextAdmit := by
  obtain ⟨t, h⟩ := State.giKept_eq (((s.modRx r fun x => x.withFc f bytes).event 8 0x02).giJudged (x.withFc f bytes) f)
    (x.withFc f bytes) f.gi
  rw [State.fcNoted, h, State.modLine_line, State.giJudged_line, State.event_line]
  rfl

theorem State.fcNoted_lastGi {g : Nat} (hseg : x.seg = some g) : Tbl.atD (s.fcNoted r x f bytes).line.lastGi g 3 = f.gi :=
  State.giKept_lastGi _ _ hseg

variable (hx : s.rx? r = some x)

include hx

theorem State.fcNoted_rx? : (s.fcNoted r x f bytes).rx? r = some (x.withFc f bytes) := by
  obtain ⟨t, h⟩ := State.giKept_eq (((s.modRx r fun x => x.withFc f bytes).event 8 0x02).giJudged (x.withFc f bytes) f)
    (x.withFc f bytes) f.gi
  rw [State.fcNoted, h, State.rx?, State.modLine_line, State.giJudged_line, State.event_line]
  exact State.rx?_modRx_self hx _

theorem State.fcPassed_eq : s.fcPassed r f bytes =
    let p := (s.fcNoted r x f bytes).addressed r (x.withFc f bytes) f.nid f.dst
    if !p.1 then p.2
    else if f.type ≠ 2 && f.type ≠ 3 && f.type ≠ 6 && (p.2.rxMap (x.withFc f bytes)).isNone then
      p.2.rinse r (K.chs.DIR_FAIL_COUNT x.lead)
    else p.2.admitRx r := by
  have hx' : ((s.modRx r fun x => { x with head := ofLe bytes, stop := x.begin_ + ppduTicks f.psc f.gi }).event 8 0x02).rx? r =
      some (x.withFc f bytes) := (State.rx?_congr (State.event_line ..) r).trans (State.rx?_modRx_self hx _)
  simp only [State.fcPassed, hx']
  rfl

theorem State.fcPassed_of_notMine {t : State}
    (h : (s.fcNoted r x f bytes).addressed r (x.withFc f bytes) f.nid f.dst = (false, t)) : s.fcPassed r f bytes = t := by
  rw [State.fcPassed_eq f bytes hx, h]
  rfl

/-- A frame control for the device on a fixed map goes on to its payload. -/
theorem State.fcPassed_of_mine {g : Nat} (hseg : x.seg = some g) (hnid : f.nid = (s.fcNoted r x f bytes).nid g)
    (hdst : f.dst = 0 ∨ f.dst = 0xFFFF) (hmap : (x.withFc f bytes).fc.tmi ≤ 1) :
    s.fcPassed r f bytes = (s.fcNoted r x f bytes).admitRx r := by
  have hmine := State.addressed_of_mine (s.fcNoted r x f bytes) r (x := x.withFc f bytes) hseg hnid hdst
  have hfixed : ((s.fcNoted r x f bytes).rxMap (x.withFc f bytes)).isNone = false := by
    simp only [State.rxMap, if_pos hmap]
    rfl
  rw [State.fcPassed_eq f bytes hx, hmine]
  simp only [hfixed]
  simp

end FrameControl

/-! The bytes of a frame control and the fields held of it. -/

theorem ofLe_leBytes (n v : Nat) : ofLe (leBytes n v) = v % 256 ^ n := by
  induction n generalizing v with
  | zero => simp [leBytes, ofLe, Nat.mod_one]
  | succ n ih =>
    calc (BitVec.ofNat 8 v).toNat + 256 * ofLe (leBytes n (v / 256)) = v % 256 + 256 * (v / 256 % 256 ^ n) := by
          rw [ih, BitVec.toNat_ofNat]
      _ = v % 256 ^ (n + 1) := by rw [Nat.pow_succ', Nat.mod_mul]

theorem ofLe_lt (b : List Byte) : ofLe b < 256 ^ b.length := by
  induction b with
  | nil => decide
  | cons c b ih =>
    rw [ofLe, List.length_cons, Nat.pow_succ']
    have hc := c.isLt
    omega

theorem length_of_fcRead {b : List Byte} {f : FrameControl} (h : fcRead b = some f) : b.length = 16 := by
  simp only [fcRead, Option.ite_none_right_eq_some, Bool.and_eq_true, decide_eq_true_eq] at h
  tauto

/-- The header that is kept of a frame control has the fields that were read. -/
theorem Reception.fc_withFc (x : Reception) {f : FrameControl} {bytes : List Byte} (h : fcRead bytes = some f) :
    (x.withFc f bytes).fc = f := by
  have hlen := length_of_fcRead h
  have hkept : ofLe (leBytes 16 (ofLe bytes)) = ofLe bytes := by
    rw [ofLe_leBytes, Nat.mod_eq_of_lt (hlen ▸ ofLe_lt bytes)]
  have hfields : FrameControl.fields bytes = f := by
    simp only [fcRead, Option.ite_none_right_eq_some, Option.some.injEq] at h
    exact h.2
  rw [← hfields, Reception.fc, Reception.withFc, FrameControl.fields, hkept, FrameControl.fields]

/-! Swell headers (R99, R102). -/

/-- Reception `x` under a swell header of its type and length, read from `bytes`. -/
def Reception.withSwell (x : Reception) (h : SwellHead) (bytes : List Byte) : Reception :=
  { x with head := ofLe bytes, stop := x.mark + (2 + swellData h.type h.len x.sf) * swellSymbol (isLane x.wave) x.sf }

section Swell

variable {s : State} {r : Nat} {x : Reception} (hx : s.rx? r = some x) (h : SwellHead) (bytes : List Byte)

include hx

theorem State.swellPassed_eq : s.swellPassed r h bytes =
    let t := s.modRx r fun x => x.withSwell h bytes
    let p := t.addressed r (x.withSwell h bytes) h.nid h.dst
    if p.1 then p.2.admitRx r else p.2 := by
  have hx' : (s.modRx r fun x => { x with
      head := ofLe bytes, stop := x.mark + (2 + swellData h.type h.len x.sf) * swellSymbol (isLane x.wave) x.sf }).rx? r =
      some (x.withSwell h bytes) := State.rx?_modRx_self hx _
  simp only [State.swellPassed, hx']
  rfl

theorem State.swellPassed_of_mine {g : Nat} (hseg : x.seg = some g) (hnid : h.nid = s.nid g) (hdst : h.dst = 0 ∨ h.dst = 0xFFFF) :
    s.swellPassed r h bytes = (s.modRx r fun x => x.withSwell h bytes).admitRx r := by
  have hmine := State.addressed_of_mine (s.modRx r fun x => x.withSwell h bytes) r (x := x.withSwell h bytes) hseg hnid hdst
  rw [State.swellPassed_eq hx h bytes]
  simp only [hmine]
  rfl

theorem State.swellPassed_of_laneForeign {g : Nat} (hseg : x.seg = some g) (hlane : isLane x.wave = true) (hnid : h.nid ≠ s.nid g) :
    s.swellPassed r h bytes = ((s.modRx r fun x => x.withSwell h bytes).bump (K.chs.FOREIGN_COUNT x.lead)).held r := by
  have hforeign := State.addressed_of_laneForeign (s.modRx r fun x => x.withSwell h bytes) r (x := x.withSwell h bytes) (dst := h.dst)
    hseg hlane hnid
  rw [State.swellPassed_eq hx h bytes]
  simp only [hforeign]
  rfl

end Swell

/-- A reception's payload is admitted. -/
theorem State.admitRx_rx? {s : State} {r : Nat} {x : Reception} (hx : s.rx? r = some x) :
    (s.admitRx r).rx? r = some { x with stage := .payload, admitted := s.line.nextAdmit } :=
  State.rx?_modRx_self (s := s.modLine fun l => { l with nextAdmit := s.line.nextAdmit + 1 }) hx _

theorem onlyChanges_admitRx (s : State) (r : Nat) : OnlyChanges [.line] s (s.admitRx r) :=
  (onlyChanges_modLine s _).chain (onlyChanges_modRx _ _ _)

end Sys2Proof.Machine

end

section
/-! PROOF. O52: the check of a header, and what each command does by it. -/

namespace Sys2Proof.Machine

theorem exec_frameControlCheck_of_running {s : State} (hrun : s.running = true) (r : Nat) (seen : List HeadSeen) :
    exec (.frameControlCheck r seen) s = .next ((s.frameControlCheck r seen).modPending fun _ => s.pending) :=
  whenRunning_of_running hrun _

theorem exec_laneHeaderCheck_of_running {s : State} (hrun : s.running = true) (n sf : Nat) (bytes : List Byte) (seen : MarkSeen)
    (stamp : Nat) : exec (.laneHeaderCheck n sf bytes seen stamp) s =
      .next ((s.laneHeaderCheck n sf bytes seen stamp).modPending fun _ => s.pending) := whenRunning_of_running hrun _

/-! Counters of a channel (R61, R120, R152). -/

/-- A counter of channel `n` other than those of discarded codewords and of missed GIs. -/
def Reg.countsOn (c : Reg) (n : Nat) : Prop :=
  c.key / 256 = 0x3100 + n ∧ c.key ≠ (K.chs.CODEWORDS_DISCARDED n).key ∧ c.key ≠ (K.chs.GI_MISS n).key

theorem Reg.countsOn_of_header (n : Nat) : (K.chs.FC_FAIL_COUNT n).countsOn n ∧ (K.chs.SWELL_HDR_FAIL n).countsOn n ∧
    (K.chs.FOREIGN_COUNT n).countsOn n ∧ (K.chs.NOT_ADDRESSED_COUNT n).countsOn n ∧ (K.chs.TRIM_RANGE_COUNT n).countsOn n ∧
    (K.chs.LANE_HDR_FAIL n).countsOn n := by
  simp only [Reg.countsOn, K.chs.FC_FAIL_COUNT, K.chs.SWELL_HDR_FAIL, K.chs.FOREIGN_COUNT, K.chs.NOT_ADDRESSED_COUNT,
    K.chs.TRIM_RANGE_COUNT, K.chs.LANE_HDR_FAIL, K.chs.CODEWORDS_DISCARDED, K.chs.GI_MISS]
  omega

theorem Reg.countsOn.lt {c : Reg} {n : Nat} (h : c.countsOn n) (hn : n < 256) : c.key < 0x320000 := by
  obtain ⟨hindex, -, -⟩ := h
  omega

theorem State.passTo_rd_of_countsOn (s : State) (t : Nat) {c : Reg} {n : Nat} (h : c.countsOn n) (hn : n < 256) :
    (s.passTo t).rd c = s.rd c := by
  obtain ⟨hindex, -, -⟩ := h
  refine s.atDeadline_rd t ?_ ?_
  · simp only [K.times.UNSYNC_SECONDS]
    omega
  · simp only [K.trks.PHASE_STEP_COUNT]
    omega

/-! The header of a reception of one channel (R72, R131). -/

theorem Reception.headParts_single {x : Reception} {m : RxMember} {h : HeadSeen} (hmembers : x.members = [m]) (hseen : h.chan = m.chan) :
    x.headParts [h] = [(m, h)] := by
  simp [Reception.headParts, hmembers, hseen]

/-- The counter of a header that fails its check. -/
def Reception.headFail (x : Reception) : Reg := if x.wave == .ofdm then K.chs.FC_FAIL_COUNT x.lead else K.chs.SWELL_HDR_FAIL x.lead

theorem State.judgeHead_single (s : State) (r : Nat) {x : Reception} {m : RxMember} {h : HeadSeen} (hmembers : x.members = [m])
    (hseen : h.chan = m.chan) : s.judgeHead r x [h] =
      if lineHeadGood x.wave (x.decodeHead [(m, h)]) then (s.headPassed r x.wave (x.decodeHead [(m, h)])).2
      else s.rinse r x.headFail := by
  rw [State.judgeHead, Reception.headParts_single hmembers hseen]
  cases lineHeadGood x.wave (x.decodeHead [(m, h)]) <;> rfl

/-- A line reception of one channel whose header is in: member `m` has seen `h` of it, which spells `bytes`. -/
structure HeadIn (n r : Nat) (x : Reception) (m : RxMember) (h : HeadSeen) (bytes : List Byte) (s : State) : Prop where
  lt : n < 256
  rx : (s.chan n).rx = some r
  is : s.rx? r = some x
  members : x.members = [m]
  chan : m.chan = n
  seen : h.chan = n
  closed : x.closed = true
  ready : x.stage = .trained ∨ x.wave ≠ .ofdm ∧ x.stage = .marked
  bytes : x.decodeHead [(m, h)] = bytes
  line : isLane x.wave = false

namespace HeadIn

variable {n r : Nat} {x : Reception} {m : RxMember} {h : HeadSeen} {bytes : List Byte} {s : State} (hin : HeadIn n r x m h bytes s)

include hin

theorem lead : x.lead = n := (Reception.lead_single hin.members).trans hin.chan

theorem check : s.frameControlCheck r [h] =
    if lineHeadGood x.wave bytes then ((s.passTo x.headEnd).headPassed r x.wave bytes).2
    else (s.passTo x.headEnd).rinse r x.headFail := by
  have hready : (x.stage == .trained || (x.wave != .ofdm && x.stage == .marked)) = true := by
    rcases hin.ready with hstage | ⟨hwave, hstage⟩
    · simp [hstage]
    · simp [hwave, hstage]
  have hjudged := (s.passTo x.headEnd).judgeHead_single r hin.members (hin.seen.trans hin.chan.symm)
  rw [hin.bytes] at hjudged
  simp only [State.frameControlCheck, hin.is, hready, hin.line, hin.closed, Bool.not_true, Bool.or_self, Bool.false_eq_true,
    if_false, if_true]
  exact hjudged

theorem check_of_fc (hwave : x.wave = .ofdm) {f : FrameControl} (hf : fcRead bytes = some f) :
    s.frameControlCheck r [h] = (s.passTo x.headEnd).fcPassed r f bytes := by
  rw [hin.check]
  simp [lineHeadGood, State.headPassed, hwave, hf]

theorem check_of_swell (hwave : x.wave ≠ .ofdm) {w : SwellHead} (hw : swellRead false bytes = some w) :
    s.frameControlCheck r [h] = (s.passTo x.headEnd).swellPassed r w bytes := by
  rw [hin.check]
  simp [lineHeadGood, State.headPassed, hwave, hin.line, hw]

theorem check_of_fail (hfail : lineHeadGood x.wave bytes = false) :
    s.frameControlCheck r [h] = (s.passTo x.headEnd).rinse r x.headFail := by
  rw [hin.check, hfail]
  rfl

theorem passed_is : (s.passTo x.headEnd).rx? r = some x := (s.rx?_passTo x.headEnd r).trans hin.is

theorem headFail_countsOn : x.headFail.countsOn n := by
  obtain ⟨hfc, hswell, -⟩ := Reg.countsOn_of_header n
  unfold Reception.headFail
  rw [hin.lead]
  split
  · exact hfc
  · exact hswell

/-- A header that fails its check rinses the reception. -/
theorem fail_rinses (hfail : lineHeadGood x.wave bytes = false) : (s.frameControlCheck r [h]).now = max s.now x.headEnd ∧
    Rinsed r n x.headFail s (s.frameControlCheck r [h]) ∧
    (s.noOpenings r → OnlyChanges (timeParts ++ [.line]) s (s.frameControlCheck r [h])) := by
  have hcount := hin.headFail_countsOn
  obtain ⟨-, hne, -⟩ := id hcount
  rw [hin.check_of_fail hfail]
  refine ⟨?_, ?_, fun hopen => ?_⟩
  · rw [State.rinse_now hin.passed_is hin.members hin.chan, State.passTo_now]
  · obtain ⟨hgone, hrx, hfrozen, hwritten, hcounted⟩ := State.rinse_rinsed (c := x.headFail) hin.passed_is hin.members hin.chan
      hin.line (by rw [State.chan_passTo, hin.rx]) (hcount.lt hin.lt) hne
    exact ⟨hgone, hrx, hfrozen, hwritten, hcounted.of_rd_eq (s.passTo_rd_of_countsOn _ hcount hin.lt)⟩
  · have hopen' : (s.passTo x.headEnd).noOpenings r := (State.noOpenings_congr (s.passTo_keys _) r).2 hopen
    exact ((onlyChanges_passTo s _).trans (State.rinse_onlyChanges hin.passed_is hin.members hin.chan hopen')).mono
      (by simp [timeParts])

end HeadIn

/-! A frame control that passes (R72, R134, R136, R141). -/

/-- The header of reception `r`, which is `x`, is in at its end, and its frame control is noted. -/
def State.fcIn (s : State) (r : Nat) (x : Reception) (f : FrameControl) (bytes : List Byte) : State :=
  (s.passTo x.headEnd).fcNoted r x f bytes

theorem State.fcIn_onlyChanges (s : State) (r : Nat) (x : Reception) (f : FrameControl) (bytes : List Byte) :
    OnlyChanges (timeParts ++ [.line]) s (s.fcIn r x f bytes) :=
  ((onlyChanges_passTo s _).trans (State.fcNoted_onlyChanges f bytes)).mono (by simp [timeParts])

theorem State.fcIn_now (s : State) (r : Nat) (x : Reception) (f : FrameControl) (bytes : List Byte) :
    (s.fcIn r x f bytes).now = max s.now x.headEnd := by
  rw [State.fcIn, State.fcNoted_onlyChanges f bytes .now (by simp), State.passTo_now]

theorem State.fcIn_nid (s : State) (r : Nat) (x : Reception) (f : FrameControl) (bytes : List Byte) (g : Nat) :
    (s.fcIn r x f bytes).nid g = s.nid g := by
  rw [State.nid, s.fcIn_onlyChanges r x f bytes .domain (by simp [timeParts]), ← State.nid]

namespace HeadIn

variable {n r : Nat} {x : Reception} {m : RxMember} {h : HeadSeen} {bytes : List Byte} {s : State} (hin : HeadIn n r x m h bytes s)
  {f : FrameControl}

include hin

theorem fcIn_rx? (f : FrameControl) : (s.fcIn r x f bytes).rx? r = some (x.withFc f bytes) := State.fcNoted_rx? f bytes hin.passed_is

theorem fcIn_rd {c : Reg} (hc : c.countsOn n) : (s.fcIn r x f bytes).rd c = s.rd c := by
  obtain ⟨-, -, hne⟩ := id hc
  rw [State.fcIn, (State.fcNoted_onlyRegs f bytes).rd (by simpa [hin.lead] using hne), State.passTo_rd_of_countsOn _ _ hc hin.lt]

theorem fcIn_onlyRegs : OnlyRegs ([K.chs.GI_MISS n] ++ timeRegs) s (s.fcIn r x f bytes) := by
  have hnoted := (onlyRegs_passTo s x.headEnd).trans (State.fcNoted_onlyRegs (r := r) (x := x) f bytes)
  rw [hin.lead] at hnoted
  exact hnoted.mono (by simp)

section Fc

variable (hwave : x.wave = .ofdm) (hf : fcRead bytes = some f)

include hwave hf

theorem check_of_notMine {t : State} (h' : (s.fcIn r x f bytes).addressed r (x.withFc f bytes) f.nid f.dst = (false, t)) :
    s.frameControlCheck r [h] = t := by
  rw [hin.check_of_fc hwave hf, State.fcPassed_of_notMine f bytes hin.passed_is h']

theorem fc_unbound (hseg : x.seg = none) : HeldPassively r (K.chs.FOREIGN_COUNT n) s (s.frameControlCheck r [h]) ∧
    OnlyChanges (timeParts ++ [.line]) s (s.frameControlCheck r [h]) := by
  obtain ⟨-, -, hcount, -⟩ := Reg.countsOn_of_header n
  have hunbound := (s.fcIn r x f bytes).addressed_of_unbound r (x := x.withFc f bytes) (nid := f.nid) (dst := f.dst) hseg
  rw [show (x.withFc f bytes).lead = n from hin.lead] at hunbound
  rw [hin.check_of_notMine hwave hf hunbound]
  exact ⟨(State.held_heldPassively (hin.fcIn_rx? f) _).of_rd_eq (hin.fcIn_rd hcount),
    ((s.fcIn_onlyChanges r x f bytes).trans (onlyChanges_held _ _ r)).mono (by simp [timeParts])⟩

variable {g : Nat} (hseg : x.seg = some g)

include hseg

theorem fc_foreign (hnid : f.nid ≠ s.nid g) : HeldPassively r (K.chs.FOREIGN_COUNT n) s (s.frameControlCheck r [h]) ∧
    (∃ y, Tbl.at? (s.frameControlCheck r [h]).domain.heard (g * 65536 + f.nid) = some y ∧ y.last = (s.frameControlCheck r [h]).now) ∧
    OnlyChanges (timeParts ++ [.domain, .line]) s (s.frameControlCheck r [h]) := by
  obtain ⟨-, -, hcount, -⟩ := Reg.countsOn_of_header n
  have hforeign := (s.fcIn r x f bytes).addressed_of_foreign r (x := x.withFc f bytes) (dst := f.dst) hseg hin.line
    (by rwa [State.fcIn_nid])
  rw [show (x.withFc f bytes).lead = n from hin.lead] at hforeign
  have hheard := onlyChanges_hear ((s.fcIn r x f bytes).bump (K.chs.FOREIGN_COUNT n)) g f.nid (x.withFc f bytes).metric
  obtain ⟨y, hy, hlast⟩ := State.hear_record ((s.fcIn r x f bytes).bump (K.chs.FOREIGN_COUNT n)) g f.nid (x.withFc f bytes).metric
  rw [hin.check_of_notMine hwave hf hforeign]
  exact ⟨(State.heard_heldPassively (hin.fcIn_rx? f) _ g f.nid _).of_rd_eq (hin.fcIn_rd hcount),
    ⟨y, hy, hlast.trans (hheard .now (by simp)).symm⟩,
    ((((s.fcIn_onlyChanges r x f bytes).trans (onlyChanges_bump _ _)).trans hheard).trans (onlyChanges_modRx _ r _)).mono
      (by simp [timeParts])⟩

theorem fc_other (hnid : f.nid = s.nid g) (hdst : f.dst ≠ 0) (hdst' : f.dst ≠ 0xFFFF) :
    HeldPassively r (K.chs.NOT_ADDRESSED_COUNT n) s (s.frameControlCheck r [h]) ∧
    OnlyChanges (timeParts ++ [.line]) s (s.frameControlCheck r [h]) := by
  obtain ⟨-, -, -, hcount, -⟩ := Reg.countsOn_of_header n
  have hother := (s.fcIn r x f bytes).addressed_of_other r (x := x.withFc f bytes) (nid := f.nid) hseg (by rwa [State.fcIn_nid]) hdst hdst'
  rw [show (x.withFc f bytes).lead = n from hin.lead] at hother
  rw [hin.check_of_notMine hwave hf hother]
  exact ⟨(State.held_heldPassively (hin.fcIn_rx? f) _).of_rd_eq (hin.fcIn_rd hcount),
    ((s.fcIn_onlyChanges r x f bytes).trans (onlyChanges_held _ _ r)).mono (by simp [timeParts])⟩

theorem fc_mine (hnid : f.nid = s.nid g) (hdst : f.dst = 0 ∨ f.dst = 0xFFFF) (htmi : f.tmi ≤ 1) :
    s.frameControlCheck r [h] = (s.fcIn r x f bytes).admitRx r := by
  rw [hin.check_of_fc hwave hf]
  exact State.fcPassed_of_mine f bytes hin.passed_is hseg (hnid.trans (s.fcIn_nid r x f bytes g).symm) hdst
    (by rwa [Reception.fc_withFc x hf])

theorem fc_admitted (hnid : f.nid = s.nid g) (hdst : f.dst = 0 ∨ f.dst = 0xFFFF) (htmi : f.tmi ≤ 1) :
    (s.frameControlCheck r [h]).now = max s.now x.headEnd ∧
    (s.frameControlCheck r [h]).line.nextAdmit = s.line.nextAdmit + 1 ∧
    (s.frameControlCheck r [h]).rx? r =
      some { x.withFc f bytes with stage := .payload, admitted := s.line.nextAdmit } ∧
    Tbl.atD (s.frameControlCheck r [h]).line.lastGi g 3 = f.gi ∧
    OnlyRegs ([K.chs.GI_MISS n] ++ timeRegs) s (s.frameControlCheck r [h]) ∧
    OnlyChanges (timeParts ++ [.line]) s (s.frameControlCheck r [h]) := by
  have hadmit := onlyChanges_admitRx (s.fcIn r x f bytes) r
  have hnext : (s.fcIn r x f bytes).line.nextAdmit = s.line.nextAdmit := by
    rw [State.fcIn, State.fcNoted_nextAdmit, State.passTo_line]
  rw [hin.fc_mine hwave hf hseg hnid hdst htmi]
  refine ⟨?_, ?_, ?_, ?_, ?_, ?_⟩
  · rw [hadmit .now (by simp), State.fcIn_now]
  · rw [← hnext]
    rfl
  · rw [State.admitRx_rx? (hin.fcIn_rx? f), hnext]
  · exact State.fcNoted_lastGi f bytes hseg
  · intro k hk
    rw [hadmit .dict (by simp)]
    exact hin.fcIn_onlyRegs k hk
  · exact ((s.fcIn_onlyChanges r x f bytes).trans hadmit).mono (by simp [timeParts])

end Fc

/-- A swell header for the device goes on to its payload (R99, R102). -/
theorem swell_admitted {w : SwellHead} {g : Nat} (hwave : x.wave ≠ .ofdm) (hw : swellRead false bytes = some w) (hseg : x.seg = some g)
    (hnid : w.nid = s.nid g) (hdst : w.dst = 0 ∨ w.dst = 0xFFFF) :
    (s.frameControlCheck r [h]).rx? r =
      some { x.withSwell w bytes with stage := .payload, admitted := s.line.nextAdmit } ∧
    OnlyChanges (timeParts ++ [.line]) s (s.frameControlCheck r [h]) := by
  have hnid' : w.nid = (s.passTo x.headEnd).nid g := by rwa [State.nid, State.passTo_domain, ← State.nid]
  rw [hin.check_of_swell hwave hw, State.swellPassed_of_mine hin.passed_is w bytes hseg hnid' hdst]
  refine ⟨?_, ?_⟩
  · rw [State.admitRx_rx? (State.rx?_modRx_self hin.passed_is _), State.modRx, State.modLine_line, State.passTo_line]
  · exact (((onlyChanges_passTo s _).trans (onlyChanges_modRx _ r _)).trans (onlyChanges_admitRx _ r)).mono (by simp [timeParts])

end HeadIn

/-! The header of a lane reception (R53, R114, R125). -/

/-- A reception of the lane receiver of channel `n` alone that has been detected and whose header is in. -/
structure LaneHeadIn (n r : Nat) (x : Reception) (m : RxMember) (s : State) : Prop where
  lt : n < 256
  laneRx : (s.chan n).laneRx = some r
  is : s.rx? r = some x
  stage : x.stage = .detected
  lane : isLane x.wave = true
  members : x.members = [m]
  chan : m.chan = n

/-- Reception `x` with what the lane receiver has measured of it when its header is in at tick `now`. -/
def Reception.laneMeasured (x : Reception) (now sf : Nat) (offset : Int) (stamp : Nat) : Reception :=
  { x with sf := sf, offset := offset, stamp := stamp, mark := now - (2 + ceilDiv 80 sf) * swellSymbol true sf }

/-- The frame of lane reception `r` ends with the symbols that its header `h` announces, counted from now. -/
def State.laneEnds (s : State) (r sf : Nat) (h : SwellHead) : State :=
  s.modRx r fun x => { x with stop := s.now + (swellData h.type h.len sf - ceilDiv 80 sf) * swellSymbol true sf }

namespace LaneHeadIn

variable {n r sf stamp : Nat} {x : Reception} {m : RxMember} {bytes : List Byte} {seen : MarkSeen} {s : State}
  (hin : LaneHeadIn n r x m s)

include hin

theorem lead : x.lead = n := (Reception.lead_single hin.members).trans hin.chan

/-- A rinse of the lane reception. -/
theorem rinses {c : Reg} (hc : c.countsOn n) : (s.rinse r c).rx? r = none ∧ ((s.rinse r c).chan n).laneRx = none ∧
    Counted c s (s.rinse r c) ∧ (s.noOpenings r → OnlyChanges [.dict, .perf, .line] s (s.rinse r c)) := by
  obtain ⟨-, hne, -⟩ := id hc
  exact ⟨State.rinse_rx? hin.is hin.members hin.chan, State.rinse_laneRx hin.is hin.members hin.chan hin.lane hin.laneRx,
    State.rinse_counted hin.is hin.members hin.chan (hc.lt hin.lt) hne, State.rinse_onlyChanges hin.is hin.members hin.chan⟩

theorem check_of_trim (hoffset : 24000 < |swellOffset .laneA sf seen.preamble seen.pivot|) :
    s.laneHeaderCheck n sf bytes seen stamp = s.rinse r (K.chs.TRIM_RANGE_COUNT n) := by
  simp [State.laneHeaderCheck, hin.laneRx, hin.is, hin.stage, hoffset]

variable (hoffset : |swellOffset .laneA sf seen.preamble seen.pivot| ≤ 24000)

include hoffset

theorem check_of_fail (hfail : swellRead true bytes = none) :
    s.laneHeaderCheck n sf bytes seen stamp = s.rinse r (K.chs.LANE_HDR_FAIL n) := by
  simp [State.laneHeaderCheck, hin.laneRx, hin.is, hin.stage, not_lt.2 hoffset, hfail]

theorem check_of_head {h : SwellHead} (hread : swellRead true bytes = some h) : s.laneHeaderCheck n sf bytes seen stamp =
    ((s.modRx r fun x => x.laneMeasured s.now sf (swellOffset .laneA sf seen.preamble seen.pivot) stamp).swellPassed r h bytes).laneEnds
      r sf h := by
  simp only [State.laneHeaderCheck, hin.laneRx, hin.is, hin.stage, hread, if_neg (not_lt.2 hoffset), bne_self_eq_false,
    Bool.false_eq_true, if_false]
  rfl

variable {g : Nat} {h : SwellHead} (hread : swellRead true bytes = some h) (hseg : x.seg = some g)

include hread hseg

theorem foreign (hnid : h.nid ≠ s.nid g) : HeldPassively r (K.chs.FOREIGN_COUNT n) s (s.laneHeaderCheck n sf bytes seen stamp) ∧
    OnlyChanges [.dict, .line] s (s.laneHeaderCheck n sf bytes seen stamp) := by
  have hmeasured := State.rx?_modRx_self hin.is
    fun x => x.laneMeasured s.now sf (swellOffset .laneA sf seen.preamble seen.pivot) stamp
  have hpassed := State.swellPassed_of_laneForeign hmeasured h bytes hseg hin.lane hnid
  rw [show (x.laneMeasured s.now sf (swellOffset .laneA sf seen.preamble seen.pivot) stamp).lead = n from hin.lead] at hpassed
  obtain ⟨⟨y, hy, hstage⟩, hcounted⟩ := State.held_heldPassively (State.rx?_modRx_self hmeasured fun x => x.withSwell h bytes)
    (K.chs.FOREIGN_COUNT n)
  rw [hin.check_of_head hoffset hread, hpassed]
  exact ⟨⟨⟨_, State.rx?_modRx_self hy _, hstage⟩, hcounted⟩,
    ((((onlyChanges_modRx s r _).trans (onlyChanges_modRx _ r _)).trans (onlyChanges_held _ _ r)).trans
      (onlyChanges_modRx _ r _)).mono (by simp)⟩

theorem admitted (hnid : h.nid = s.nid g) (hdst : h.dst = 0 ∨ h.dst = 0xFFFF) :
    ∃ y, (s.laneHeaderCheck n sf bytes seen stamp).rx? r = some y ∧ y.stage = .payload ∧ y.sf = sf ∧
      y.offset = swellOffset .laneA sf seen.preamble seen.pivot ∧ y.stamp = stamp ∧ y.head = ofLe bytes ∧
      y.stop = s.now + (swellData h.type h.len sf - ceilDiv 80 sf) * swellSymbol true sf ∧
      OnlyChanges [.line] s (s.laneHeaderCheck n sf bytes seen stamp) := by
  have hmeasured := State.rx?_modRx_self hin.is
    fun x => x.laneMeasured s.now sf (swellOffset .laneA sf seen.preamble seen.pivot) stamp
  have hpayload := State.admitRx_rx? (State.rx?_modRx_self hmeasured fun x => x.withSwell h bytes)
  have hparts := ((onlyChanges_modRx s r fun x => x.laneMeasured s.now sf (swellOffset .laneA sf seen.preamble seen.pivot) stamp).chain
    (onlyChanges_modRx _ r fun x => x.withSwell h bytes)).chain (onlyChanges_admitRx _ r)
  rw [hin.check_of_head hoffset hread, State.swellPassed_of_mine hmeasured h bytes hseg hnid hdst]
  exact ⟨_, State.rx?_modRx_self hpayload _, rfl, rfl, rfl, rfl, rfl, congrArg (· + _) (hparts .now (by simp)),
    hparts.chain (onlyChanges_modRx _ r _)⟩

end LaneHeadIn

/-! The statement. -/

/-- Settles O52: each branch of the two checks is one equation, and its reception, its counter and the parts it changes are read off. -/
theorem headersAreJudgedByCheckThenByAddress : Obligations.HeadersAreJudgedByCheckThenByAddress := by
  refine ⟨fun n r x m h bytes s hrun hn hrx hx hmembers hchan hseen hclosed hofdm hswell hline => ?_,
    fun n r sf x m bytes seen offset stamp s hrun hn hrx hx hstage hlane hmembers hchan hoffset => ?_⟩
  · have hin : HeadIn n r x m h bytes s := by
      refine ⟨hn, hrx, hx, hmembers, hchan, hseen, hclosed, ?_, ?_, hline⟩
      · by_cases hwave : x.wave = .ofdm
        · exact .inl (hofdm hwave).1
        · exact .inr ⟨hwave, (hswell hwave).1⟩
      · by_cases hwave : x.wave = .ofdm
        · simp [Reception.decodeHead, hwave, (hofdm hwave).2]
        · simp [Reception.decodeHead, hwave, (hswell hwave).2]
    have hexec := exec_frameControlCheck_of_running hrun r [h]
    refine ⟨fun hwave hread => ?_, fun hwave hread => ?_, fun f hwave hread => ⟨fun hseg => ?_, fun g hseg hnid => ?_,
      fun g hseg hnid hdst hdst' => ?_, fun g hseg hnid hdst htmi => ?_⟩, fun w g hwave hread hseg hnid hdst => ?_⟩
    · obtain ⟨hnow, hrinsed, hparts⟩ := hin.fail_rinses (by simp [lineHeadGood, hwave, hread])
      rw [Reception.headFail, hin.lead, hwave] at hrinsed
      exact ⟨_, hexec, hnow, hrinsed, fun hopen => (hparts hopen).keepQueue⟩
    · obtain ⟨hnow, hrinsed, hparts⟩ := hin.fail_rinses (by simp [lineHeadGood, hwave, hline, hread])
      rw [Reception.headFail, hin.lead, if_neg (by simpa using hwave)] at hrinsed
      exact ⟨_, hexec, hnow, hrinsed, fun hopen => (hparts hopen).keepQueue⟩
    · obtain ⟨hheld, hparts⟩ := hin.fc_unbound hwave hread hseg
      exact ⟨_, hexec, hheld, hparts.keepQueue⟩
    · obtain ⟨hheld, hheard, hparts⟩ := hin.fc_foreign hwave hread hseg hnid
      exact ⟨_, hexec, hheld, hheard, hparts.keepQueue⟩
    · obtain ⟨hheld, hparts⟩ := hin.fc_other hwave hread hseg hnid hdst hdst'
      exact ⟨_, hexec, hheld, hparts.keepQueue⟩
    · obtain ⟨hnow, hadmit, hself, hgi, hregs, hparts⟩ := hin.fc_admitted hwave hread hseg hnid hdst htmi
      exact ⟨_, hexec, hnow, hadmit, hself, hgi, hregs, hparts.keepQueue⟩
    · obtain ⟨hself, hparts⟩ := hin.swell_admitted hwave hread hseg hnid hdst
      rw [Reception.withSwell, hline] at hself
      exact ⟨_, hexec, hself, hparts.keepQueue⟩
  · have hin : LaneHeadIn n r x m s := ⟨hn, hrx, hx, hstage, hlane, hmembers, hchan⟩
    obtain ⟨-, -, -, -, htrim, hfail⟩ := Reg.countsOn_of_header n
    have hexec := exec_laneHeaderCheck_of_running hrun n sf bytes seen stamp
    subst hoffset
    refine ⟨fun hfar => ?_, fun hnear hread => ?_, fun g h hnear hread hseg => ⟨fun hnid => ?_, fun hnid hdst => ?_⟩⟩
    · obtain ⟨hgone, hrx', hcounted, hparts⟩ := hin.rinses htrim
      rw [hin.check_of_trim hfar] at hexec
      exact ⟨_, hexec, hgone, hrx', hcounted, fun hopen => (hparts hopen).keepQueue⟩
    · obtain ⟨hgone, hrx', hcounted, hparts⟩ := hin.rinses hfail
      rw [hin.check_of_fail hnear hread] at hexec
      exact ⟨_, hexec, hgone, hrx', hcounted, fun hopen => (hparts hopen).keepQueue⟩
    · obtain ⟨hheld, hparts⟩ := hin.foreign hnear hread hseg hnid
      exact ⟨_, hexec, hheld, hparts.keepQueue⟩
    · obtain ⟨y, hself, hpayload, hsf, hoff, hstamp, hhead, hstop, hparts⟩ := hin.admitted hnear hread hseg hnid hdst
      exact ⟨_, y, hexec, hself, hpayload, hsf, hoff, hstamp, hhead, hstop, hparts.keepQueue⟩

end Sys2Proof.Machine

end

section
/-! PROOF. O51: a detection, and what it starts or declares (R32, R122, R149). -/

namespace Sys2Proof.Machine

/-! Receptions and channels under the updates of acquisition. -/

section Updates

variable (s : State)

@[simp] theorem State.rx?_addRx_self (x : Reception) : (s.addRx x).2.rx? s.line.nextRx = some x := Tbl.at?_ins_self ..

@[simp] theorem State.rx?_atDeadline (t r : Nat) : (s.atDeadline t).rx? r = s.rx? r := s.rx?_passTo t r

theorem State.rx?_dropRx_ne {r q : Nat} (h : q ≠ r) : (s.dropRx r).rx? q = s.rx? q := Tbl.at?_del_ne _ h

theorem onlyChanges_addRx (x : Reception) : OnlyChanges [.line] s (s.addRx x).2 := onlyChanges_modLine s _

theorem onlyChanges_dropRx (r : Nat) : OnlyChanges [.line] s (s.dropRx r) := onlyChanges_modLine s _

theorem onlyChanges_writeTrim (n : Nat) (trim : Int) (phase : Nat) : OnlyChanges [.line] s (s.writeTrim n trim phase) :=
  onlyChanges_modChan s n _

theorem State.writeTrim_chan (n : Nat) (trim : Int) (phase : Nat) :
    (s.writeTrim n trim phase).chan n = { s.chan n with written := some (trim, phase % 64, s.now) } := s.chan_modChan_self n _

theorem State.countDetect_rx? (n r : Nat) : (s.countDetect n).rx? r = s.rx? r := State.rx?_congr (by simp [State.countDetect]) r

theorem State.countDetect_chan (n m : Nat) : (s.countDetect n).chan m = s.chan m := State.chan_congr (by simp [State.countDetect]) m

theorem State.countDetect_now (n : Nat) : (s.countDetect n).now = s.now := by simp [State.countDetect]

theorem State.countDetect_counted (n : Nat) : Counted (K.chs.DETECT_COUNT n) s (s.countDetect n) := by
  have hcounted := counted_bump s (K.chs.DETECT_COUNT n)
  unfold Counted at hcounted ⊢
  rw [← hcounted, State.countDetect, State.rd, State.event_dict, ← State.rd]

theorem State.countDetect_onlyRegs (n : Nat) : OnlyRegs [K.chs.DETECT_COUNT n] s (s.countDetect n) := by
  intro k hk
  rw [State.countDetect, State.event_dict]
  exact onlyRegs_bump s _ k hk

theorem State.countDetect_onlyChanges (n : Nat) : OnlyChanges [.dict, .perf] s (s.countDetect n) :=
  (onlyChanges_bump s _).trans (onlyChanges_event _ _ _)

theorem State.freeze_chan (n r : Nat) : (s.freeze n r).chan n = { s.chan n with
    rx := some r, frozen := true, gain := (s.chan n).gainAt s.now, gainFrom := min (s.chan n).gainFrom s.now } :=
  s.chan_modChan_self n _

theorem State.freeze_chan_ne {n m : Nat} (r : Nat) (h : m ≠ n) : (s.freeze n r).chan m = s.chan m := s.chan_modChan_ne _ h

end Updates

/-! What a detection does, by the branch of R122, R149 and R114 that it meets. -/

theorem exec_detection_of_running {s : State} (hrun : s.running = true) (n sf : Nat) (wave : Wave) (seen : Preamble) :
    exec (.detection n wave sf seen) s = .next ((s.detection n wave sf seen).modPending fun _ => s.pending) :=
  whenRunning_of_running hrun _

/-- The device as channel `n` has been counted and frozen for reception `r`. -/
def State.detected (s : State) (n r : Nat) : State := (s.countDetect n).freeze n r

theorem State.detected_rx? (s : State) (n r q : Nat) : (s.detected n r).rx? q = s.rx? q := s.countDetect_rx? n q

theorem State.detected_chan (s : State) (n r : Nat) : (s.detected n r).chan n = { s.chan n with
    rx := some r, frozen := true, gain := (s.chan n).gainAt s.now, gainFrom := min (s.chan n).gainFrom s.now } := by
  rw [State.detected, State.freeze_chan, State.countDetect_chan, State.countDetect_now]

theorem State.detected_chan_ne (s : State) {n m : Nat} (r : Nat) (h : m ≠ n) : (s.detected n r).chan m = s.chan m := by
  rw [State.detected, State.freeze_chan_ne _ _ h, State.countDetect_chan]

theorem State.detected_counted (s : State) (n r : Nat) : Counted (K.chs.DETECT_COUNT n) s (s.detected n r) := s.countDetect_counted n

theorem State.detected_onlyRegs (s : State) (n r : Nat) : OnlyRegs [K.chs.DETECT_COUNT n] s (s.detected n r) := s.countDetect_onlyRegs n

theorem State.detected_onlyChanges (s : State) (n r : Nat) : OnlyChanges [.dict, .perf, .line] s (s.detected n r) :=
  (s.countDetect_onlyChanges n).trans (onlyChanges_modChan _ n _)

section Detection

variable {s : State} {n sf : Nat} {wave : Wave} {seen : Preamble}

theorem State.detection_of_out (h : s.inService n = false ∨ preambleDetects seen wave (s.chan n).cfg.detectLevel = false) :
    s.detection n wave sf seen = s := by
  rcases h with h | h <;> simp [State.detection, h]

theorem State.detection_of_blanked (hlane : isLane wave = false) (h : s.blanked n = true) : s.detection n wave sf seen = s := by
  simp [State.detection, hlane, h]

theorem State.detection_of_laneDeaf (hlane : isLane wave = true)
    (h : (s.chan n).swell.on = false ∨ s.laneBlanked n = true ∨ (s.chan n).laneRx.isSome = true) :
    s.detection n wave sf seen = s := by
  rcases h with h | h | h <;> simp [State.detection, hlane, h]

theorem State.declare_of_declared {r gamma : Nat} {x : Reception} (h : ∀ m, x.member? n = some m → m.declared = true) :
    s.declare n r gamma x = s := by
  unfold State.declare
  split
  · rfl
  · next m hm => simp [h m hm]

theorem State.detection_of_declared {r : Nat} {x : Reception} (hlane : isLane wave = false) (hrx : (s.chan n).rx = some r)
    (hx : s.rx? r = some x) (h : ∀ m, x.member? n = some m → m.declared = true) : s.detection n wave sf seen = s := by
  simp [State.detection, hlane, hrx, hx, State.declare_of_declared h]

/-- The detector of a lane waveform is the transform engines' finding itself (R107). -/
theorem preambleDetects_of_lane (hlane : isLane wave = true) (level : Nat) : preambleDetects seen wave level = true := by
  have hwave : wave ≠ .ofdm := by
    rintro rfl
    cases hlane
  simp [preambleDetects, hwave]

section InService

variable (hserv : s.inService n = true)

include hserv

section Line

variable (hlane : isLane wave = false) (hblank : s.blanked n = false)
  (hdetects : preambleDetects seen wave (s.chan n).cfg.detectLevel = true)

include hlane hblank hdetects

theorem State.detection_of_free (hfree : (s.chan n).rx = none) : s.detection n wave sf seen =
    (s.addRx (s.newRx n wave sf [newMember n (gammaOf (preambleRho seen wave))])).2.detected n s.line.nextRx := by
  simp only [State.detection, hserv, hdetects, hlane, hblank, hfree, Bool.not_true, Bool.or_self, Bool.false_eq_true, if_false]
  rfl

/-- A detection on a free channel starts a reception on it. -/
theorem State.detection_starts (hfree : (s.chan n).rx = none) :
    (s.detection n wave sf seen).rx? s.line.nextRx =
      some (s.newRx n wave sf [newMember n (gammaOf (preambleRho seen wave))]) ∧
    (s.detection n wave sf seen).chan n = { s.chan n with
      rx := some s.line.nextRx, frozen := true, gain := (s.chan n).gainAt s.now, gainFrom := min (s.chan n).gainFrom s.now } ∧
    (∀ m, m ≠ n → (s.detection n wave sf seen).chan m = s.chan m) ∧
    Counted (K.chs.DETECT_COUNT n) s (s.detection n wave sf seen) ∧
    OnlyRegs [K.chs.DETECT_COUNT n] s (s.detection n wave sf seen) ∧
    OnlyChanges [.dict, .perf, .line] s (s.detection n wave sf seen) := by
  rw [State.detection_of_free hserv hlane hblank hdetects hfree]
  refine ⟨?_, State.detected_chan _ n _, fun m hm => State.detected_chan_ne _ _ hm, State.detected_counted _ n _,
    State.detected_onlyRegs _ n _, ?_⟩
  · rw [State.detected_rx?, State.rx?_addRx_self]
  · exact ((onlyChanges_addRx s _).trans (State.detected_onlyChanges _ n _)).mono (by simp)

/-- On a channel that a takeover has given to a new group of its own, a detection declares its one member (R149). -/
theorem State.detection_declares {r : Nat} {x : Reception} {m : RxMember} (hrx : (s.chan n).rx = some r) (hx : s.rx? r = some x)
    (hwave : x.wave = wave) (hsf : x.sf = sf) (hmembers : x.members = [m]) (hchan : m.chan = n) (hnew : m.declared = false)
    (hgain : (s.chan n).gainFrom ≤ s.now) :
    (s.detection n wave sf seen).rx? r = some { x with
      members := [{ m with declared := true, snr := gammaOf (preambleRho seen wave) }], detected := s.now } ∧
    ((s.detection n wave sf seen).chan n).frozen = true ∧ ((s.detection n wave sf seen).chan n).rx = some r ∧
    Counted (K.chs.DETECT_COUNT n) s (s.detection n wave sf seen) ∧
    OnlyChanges [.dict, .perf, .line] s (s.detection n wave sf seen) := by
  have hmember : x.member? n = some m := by simp [Reception.member?, hmembers, hchan]
  have heq : s.detection n wave sf seen = (s.detected n r).modRx r fun y =>
      { y.modMember n (fun y => { y with declared := true, snr := gammaOf (preambleRho seen wave) }) with detected := s.now } := by
    simp only [State.detection, hserv, hdetects, hlane, hblank, hrx, hx, hwave, hsf, State.declare, hmember, hmembers, hnew,
      Nat.not_lt.2 hgain]
    simp [State.detected, hnew]
  have hchan' := s.detected_chan n r
  have hx' : (s.detected n r).rx? r = some x := (s.detected_rx? n r r).trans hx
  rw [heq]
  refine ⟨?_, ?_, ?_, s.detected_counted n r, ((s.detected_onlyChanges n r).trans (onlyChanges_modRx _ r _)).mono (by simp)⟩
  · rw [State.rx?_modRx_self hx']
    simp [Reception.modMember, hmembers, hchan]
  · exact congrArg Channel.frozen hchan'
  · exact congrArg Channel.rx hchan'

end Line

/-- A lane receiver takes a reception of its own (R114). -/
theorem State.detection_lane (hlane : isLane wave = true) (hon : (s.chan n).swell.on = true) (hblank : s.laneBlanked n = false)
    (hfree : (s.chan n).laneRx = none) :
    (s.detection n wave sf seen).chan n = { s.chan n with laneRx := some s.line.nextRx } ∧
    (s.detection n wave sf seen).rx? s.line.nextRx =
      some (s.newRx n wave sf [newMember n (gammaOf (preambleRho seen wave))]) ∧
    Counted (K.chs.DETECT_COUNT n) s (s.detection n wave sf seen) ∧
    OnlyChanges [.dict, .perf, .line] s (s.detection n wave sf seen) := by
  have heq : s.detection n wave sf seen =
      ((s.addRx (s.newRx n wave sf [newMember n (gammaOf (preambleRho seen wave))])).2.countDetect n).modChan n
        fun c => { c with laneRx := some s.line.nextRx } := by
    simp only [State.detection, hserv, preambleDetects_of_lane hlane, hlane, hon, hblank, hfree, Bool.not_true, Bool.or_self,
      Option.isSome_none, Bool.false_eq_true, if_false, if_true]
    rfl
  rw [heq]
  refine ⟨?_, ?_, State.countDetect_counted _ n, ?_⟩
  · rw [State.chan_modChan_self, State.countDetect_chan]
    rfl
  · exact (State.countDetect_rx? _ n _).trans (s.rx?_addRx_self _)
  · exact (((onlyChanges_addRx s _).trans (State.countDetect_onlyChanges _ n)).trans (onlyChanges_modChan _ n _)).mono (by simp)

end InService

end Detection

end Sys2Proof.Machine

end

section
/-! PROOF. O51: the timing mark of a reception of one channel, and the channels that are given up (R53, R123 to R125). -/

namespace Sys2Proof.Machine

theorem exec_timingMark_of_running {s : State} (hrun : s.running = true) (n mark : Nat) (seen : MarkSeen) :
    exec (.timingMark n mark seen) s = .next ((s.timingMark n mark seen).modPending fun _ => s.pending) :=
  whenRunning_of_running hrun _

theorem exec_acqFail_of_running {s : State} (hrun : s.running = true) (n : Nat) :
    exec (.acqFail n) s = .next ((s.acqFail n).modPending fun _ => s.pending) := whenRunning_of_running hrun _

theorem Reg.countsOn_of_acquisition (n : Nat) : (K.chs.ACQ_FAIL_COUNT n).countsOn n ∧ (K.chs.TRIM_RANGE_COUNT n).countsOn n := by
  simp only [Reg.countsOn, K.chs.ACQ_FAIL_COUNT, K.chs.TRIM_RANGE_COUNT, K.chs.CODEWORDS_DISCARDED, K.chs.GI_MISS]
  omega

theorem State.trimLast_congr {s t : State} {n : Nat} (h : t.chan n = s.chan n) : t.trimLast n = s.trimLast n := by
  simp only [State.trimLast, h]

/-- Enough periods of a mark in time are not lost. -/
theorem not_lost {periods now due : Nat} {wave : Wave} (hperiods : 2 ≤ periods) (hintime : wave = .ofdm → now ≤ due) :
    ¬ (periods < 2 ∨ wave = .ofdm ∧ due < now) := by
  rintro (hfew | ⟨hwave, hlate⟩)
  · omega
  · have hearly := hintime hwave
    omega

/-- A line reception of channel `n` alone. -/
structure Single (n r : Nat) (x : Reception) (m : RxMember) (s : State) : Prop where
  lt : n < 256
  rx : (s.chan n).rx = some r
  is : s.rx? r = some x
  members : x.members = [m]
  chan : m.chan = n
  line : isLane x.wave = false

namespace Single

variable {n r : Nat} {x : Reception} {m : RxMember} {s : State} (hin : Single n r x m s)

include hin

theorem lead : x.lead = n := (Reception.lead_single hin.members).trans hin.chan

theorem member? : x.member? n = some m := by simp [Reception.member?, hin.members, hin.chan]

theorem passTo (t : Nat) : Single n r x m (s.passTo t) :=
  ⟨hin.lt, by rw [State.chan_passTo, hin.rx], (s.rx?_passTo t r).trans hin.is, hin.members, hin.chan, hin.line⟩

/-- A rinse at tick `t` under a counter of the channel. -/
theorem rinsedAt (t : Nat) {c : Reg} (hc : c.countsOn n) : ((s.passTo t).rinse r c).now = max s.now t ∧
    Rinsed r n c s ((s.passTo t).rinse r c) ∧
    (s.noOpenings r → OnlyChanges (timeParts ++ [.line]) s ((s.passTo t).rinse r c)) := by
  have hthen := hin.passTo t
  obtain ⟨-, hne, -⟩ := id hc
  refine ⟨?_, ?_, fun hopen => ?_⟩
  · rw [State.rinse_now hthen.is hin.members hin.chan, State.passTo_now]
  · obtain ⟨hgone, hrx, hfrozen, hwritten, hcounted⟩ :=
      State.rinse_rinsed hthen.is hin.members hin.chan hin.line hthen.rx (hc.lt hin.lt) hne
    exact ⟨hgone, hrx, hfrozen, hwritten, hcounted.of_rd_eq (s.passTo_rd_of_countsOn t hc hin.lt)⟩
  · have hopen' : (s.passTo t).noOpenings r := (State.noOpenings_congr (s.passTo_keys t) r).2 hopen
    exact ((onlyChanges_passTo s t).trans (State.rinse_onlyChanges hthen.is hin.members hin.chan hopen')).mono (by simp [timeParts])

/-- The last member of a reception that leaves it rinses it. -/
theorem leaveRx (c : Reg) : s.leaveRx n false c = s.rinse r c := by
  simp [State.leaveRx, hin.rx, hin.is, hin.members]

theorem acqFail (hstage : x.stage = .detected) :
    s.acqFail n = (s.passTo (x.detected + 20480)).rinse r (K.chs.ACQ_FAIL_COUNT n) := by
  simp only [State.acqFail, hin.rx, hin.is, hstage, hin.lead]
  rfl

theorem timingMark_of_settled (mark : Nat) (seen : MarkSeen) (h : m.declared = false ∨ m.marked = true) :
    s.timingMark n mark seen = s := by
  rcases h with h | h <;> simp [State.timingMark, hin.rx, hin.is, hin.member?, h]

section Mark

variable (hstage : x.stage = .detected) (hdeclared : m.declared = true) (hnew : m.marked = false) {mark : Nat} {seen : MarkSeen}

include hstage hdeclared hnew

/-- The timing mark of a declared member, by the branch of R124, R125 and R53 that it meets. -/
theorem timingMark_eq : s.timingMark n mark seen =
    if markPeriods seen x.wave < 2 ∨ x.wave = .ofdm ∧ x.detected + 20480 < max s.now mark then
      (s.passTo mark).rinse r (K.chs.ACQ_FAIL_COUNT n)
    else if 24000 < |(s.trimLast n).1 + markOffset seen x.wave x.sf| then (s.passTo mark).rinse r (K.chs.TRIM_RANGE_COUNT n)
    else ((s.passTo mark).writeTrim n ((s.trimLast n).1 + markOffset seen x.wave x.sf) (s.trimLast n).2).modRx r fun y =>
      { y.modMember n (fun y => { y with marked := true }) with
        stage := .marked, mark := mark
        stamp := (s.chan n).stampOf mark (markAfter x.wave x.sf (markPeriods seen x.wave)) } := by
  have htrim := State.trimLast_congr (s.chan_passTo mark n)
  have hleave := (hin.passTo mark).leaveRx (K.chs.TRIM_RANGE_COUNT n)
  simp only [State.timingMark, hin.rx, hin.is, hin.member?, hstage, hdeclared, hnew, htrim, hleave, State.passTo_now, hin.lead,
    State.chan_passTo]
  simp [show usTicks 50 = 20480 from rfl]

/-- A mark in time, with a trim in range, is located, and the coarse trim written. -/
theorem marks (hperiods : 2 ≤ markPeriods seen x.wave) (hintime : x.wave = .ofdm → max s.now mark ≤ x.detected + 20480)
    (hrange : |(s.trimLast n).1 + markOffset seen x.wave x.sf| ≤ 24000) :
    (s.timingMark n mark seen).now = max s.now mark ∧
    (s.timingMark n mark seen).rx? r = some { x with
      members := [{ m with marked := true }], stage := .marked, mark := mark
      stamp := (s.chan n).stampOf mark (markAfter x.wave x.sf (markPeriods seen x.wave)) } ∧
    (s.timingMark n mark seen).chan n = { s.chan n with
      written := some ((s.trimLast n).1 + markOffset seen x.wave x.sf, (s.trimLast n).2 % 64, max s.now mark) } ∧
    OnlyChanges (timeParts ++ [.line]) s (s.timingMark n mark seen) := by
  have heq := hin.timingMark_eq hstage hdeclared hnew (mark := mark) (seen := seen)
  rw [if_neg (not_lost hperiods hintime), if_neg (not_lt.2 hrange)] at heq
  have hwrites := onlyChanges_writeTrim (s.passTo mark) n ((s.trimLast n).1 + markOffset seen x.wave x.sf) (s.trimLast n).2
  have hx' : ((s.passTo mark).writeTrim n ((s.trimLast n).1 + markOffset seen x.wave x.sf) (s.trimLast n).2).rx? r = some x :=
    (hin.passTo mark).is
  rw [heq]
  refine ⟨?_, ?_, ?_, ?_⟩
  · exact Eq.trans (hwrites .now (by simp)) (s.passTo_now mark)
  · rw [State.rx?_modRx_self hx']
    simp [Reception.modMember, hin.members, hin.chan]
  · refine Eq.trans (State.writeTrim_chan ..) ?_
    rw [State.chan_passTo, State.passTo_now]
  · exact (((onlyChanges_passTo s mark).trans hwrites).trans (onlyChanges_modRx _ r _)).mono (by simp)

/-- Too few periods, or a mark that comes late, fail the acquisition. -/
theorem misses (hlost : markPeriods seen x.wave < 2 ∨ x.wave = .ofdm ∧ x.detected + 20480 < max s.now mark) :
    Rinsed r n (K.chs.ACQ_FAIL_COUNT n) s (s.timingMark n mark seen) ∧
    (s.noOpenings r → OnlyChanges (timeParts ++ [.line]) s (s.timingMark n mark seen)) := by
  rw [hin.timingMark_eq hstage hdeclared hnew, if_pos hlost]
  exact (hin.rinsedAt mark (Reg.countsOn_of_acquisition n).1).2

/-- A trim out of range gives the channel up. -/
theorem strays (hperiods : 2 ≤ markPeriods seen x.wave) (hintime : x.wave = .ofdm → max s.now mark ≤ x.detected + 20480)
    (hrange : 24000 < |(s.trimLast n).1 + markOffset seen x.wave x.sf|) :
    Rinsed r n (K.chs.TRIM_RANGE_COUNT n) s (s.timingMark n mark seen) ∧
    (s.noOpenings r → OnlyChanges (timeParts ++ [.line]) s (s.timingMark n mark seen)) := by
  rw [hin.timingMark_eq hstage hdeclared hnew, if_neg (not_lost hperiods hintime), if_pos hrange]
  exact (hin.rinsedAt mark (Reg.countsOn_of_acquisition n).2).2

end Mark

end Single

end Sys2Proof.Machine

end

section
/-! PROOF. O51: a group closes, and its members take one fine trim (R53, R126, R130). -/

namespace Sys2Proof.Machine

theorem exec_groupClose_of_running {s : State} (hrun : s.running = true) (r : Nat) :
    exec (.groupClose r) s = .next ((s.groupClose r).modPending fun _ => s.pending) := whenRunning_of_running hrun _

theorem exec_fineTrim_of_running {s : State} (hrun : s.running = true) (r : Nat) (seen : List CeSeen) :
    exec (.fineTrim r seen) s = .next ((s.fineTrim r seen).modPending fun _ => s.pending) := whenRunning_of_running hrun _

/-! The closing of a group (R130). -/

theorem State.joiners_congr {s t : State} (h : t.line = s.line) (r : Nat) (x : Reception) : t.joiners r x = s.joiners r x := by
  rw [State.joiners, h, State.joiners]

/-- A reception does not join itself. -/
theorem State.ne_of_mem_joiners {s : State} {r q : Nat} {x y : Reception} (h : (q, y) ∈ s.joiners r x) : q ≠ r := by
  unfold State.joiners at h
  split at h
  · cases h
  · simp only [List.mem_filter, Bool.and_eq_true, bne_iff_ne, ne_eq] at h
    tauto

/-- The channel takes part in reception `r`. -/
def Channel.joined (r : Nat) (c : Channel) : Channel := { c with rx := some r }

/-- The channel `b` of reception `q` joins channel `a` in reception `r`, and `q` is gone. -/
def State.pairJoined (s : State) (r q a b : Nat) : State :=
  (((s.dropRx q).modChan a (Channel.joined r)).modChan b (Channel.joined r)).bump (K.chs.GROUP_JOIN b)

section PairJoined

variable (s : State) (r q a b : Nat)

theorem State.pairJoined_rx? (k : Nat) : (s.pairJoined r q a b).rx? k = (s.dropRx q).rx? k := rfl

theorem State.pairJoined_chan (hab : a ≠ b) :
    (s.pairJoined r q a b).chan a = (s.chan a).joined r ∧ (s.pairJoined r q a b).chan b = (s.chan b).joined r := by
  rw [State.pairJoined, State.chan_bump, State.chan_bump, State.chan_modChan_ne _ _ hab, State.chan_modChan_self,
    State.chan_modChan_self, State.chan_modChan_ne _ _ hab.symm]
  exact ⟨rfl, rfl⟩

theorem State.pairJoined_counted : Counted (K.chs.GROUP_JOIN b) s (s.pairJoined r q a b) :=
  (counted_bump _ _).of_rd_eq (s' := s) rfl

theorem State.pairJoined_onlyRegs : OnlyRegs [K.chs.GROUP_JOIN b] s (s.pairJoined r q a b) :=
  onlyRegs_bump (((s.dropRx q).modChan a (Channel.joined r)).modChan b (Channel.joined r)) _

theorem State.pairJoined_onlyChanges : OnlyChanges [.line, .dict] s (s.pairJoined r q a b) :=
  (((onlyChanges_dropRx s q).chain (onlyChanges_modChan _ a _)).chain (onlyChanges_modChan _ b _)).trans (onlyChanges_bump _ _)

end PairJoined

theorem Reg.countsOn_of_groupJoin (n : Nat) : (K.chs.GROUP_JOIN n).countsOn n := by
  simp only [Reg.countsOn, K.chs.GROUP_JOIN, K.chs.CODEWORDS_DISCARDED, K.chs.GI_MISS]
  omega

section Close

variable {s : State} {r : Nat} {x : Reception} (hx : s.rx? r = some x) (hline : isLane x.wave = false) (hstage : x.stage = .marked)
  (hopen : x.closed = false)

include hx hline hstage hopen

/-- A reception that none joins closes as it is. -/
theorem State.groupClose_alone {m : RxMember} (hjoin : s.joiners r x = []) (hmembers : x.members = [m]) :
    s.groupClose r = ((s.passTo (x.mark + 205)).modChan m.chan (Channel.joined r)).modRx r fun y =>
      { y with members := [m], closed := true } := by
  have hjoin' : (s.atDeadline (x.mark + 205)).joiners r x = [] := (State.joiners_congr (s.atDeadline_line _) r x).trans hjoin
  simp only [State.groupClose, hx, hline, hstage, hopen, hjoin', hmembers]
  rfl

/-- Of two receptions of one channel each, the first takes the second's in. -/
theorem State.groupClose_pair {q : Nat} {y : Reception} {a b : RxMember} (hjoin : s.joiners r x = [(q, y)]) (hmembers : x.members = [a])
    (hothers : y.members = [b]) (hab : a.chan < b.chan) :
    s.groupClose r = ((s.passTo (x.mark + 205)).pairJoined r q a.chan b.chan).modRx r fun z => { z with
      members := [a, b], closed := true, stamp := min z.stamp y.stamp, detected := min z.detected y.detected } := by
  have hjoin' : (s.atDeadline (x.mark + 205)).joiners r x = [(q, y)] := (State.joiners_congr (s.atDeadline_line _) r x).trans hjoin
  have hsorted : sortMembers [a, b] = [a, b] := by simp [sortMembers, List.insertionSort, hab.le]
  simp only [State.groupClose, hx, hline, hstage, hopen, hjoin', hmembers, List.flatMap_cons, List.flatMap_nil, hothers,
    List.append_nil, List.singleton_append, hsorted]
  rfl

theorem groupClose_closes {m : RxMember} (hjoin : s.joiners r x = []) (hmembers : x.members = [m]) :
    (s.groupClose r).now = max s.now (x.mark + 205) ∧ (s.groupClose r).rx? r = some { x with closed := true } ∧
    ((s.groupClose r).chan m.chan).rx = some r ∧ OnlyChanges (timeParts ++ [.line]) s (s.groupClose r) := by
  have hx' : ((s.passTo (x.mark + 205)).modChan m.chan (Channel.joined r)).rx? r = some x := (s.rx?_passTo _ r).trans hx
  rw [State.groupClose_alone hx hline hstage hopen hjoin hmembers]
  refine ⟨s.passTo_now _, ?_, ?_, ?_⟩
  · rw [State.rx?_modRx_self hx', ← hmembers]
  · exact congrArg Channel.rx (State.chan_modChan_self (s.passTo (x.mark + 205)) m.chan (Channel.joined r))
  · exact (((onlyChanges_passTo s _).trans (onlyChanges_modChan _ _ _)).trans (onlyChanges_modRx _ r _)).mono (by simp)

theorem groupClose_joins {q : Nat} {y : Reception} {a b : RxMember} (hjoin : s.joiners r x = [(q, y)]) (hmembers : x.members = [a])
    (hothers : y.members = [b]) (hab : a.chan < b.chan) (hb : b.chan < 256) :
    (s.groupClose r).rx? q = none ∧ ((s.groupClose r).chan a.chan).rx = some r ∧ ((s.groupClose r).chan b.chan).rx = some r ∧
    (s.groupClose r).rx? r = some { x with
      members := [a, b], closed := true, stamp := min x.stamp y.stamp, detected := min x.detected y.detected } ∧
    Counted (K.chs.GROUP_JOIN b.chan) s (s.groupClose r) ∧
    OnlyRegs (timeRegs ++ [K.chs.GROUP_JOIN b.chan]) s (s.groupClose r) ∧
    OnlyChanges (timeParts ++ [.dict, .line]) s (s.groupClose r) := by
  have hqr : q ≠ r := State.ne_of_mem_joiners (s := s) (x := x) (y := y) (by simp [hjoin])
  have hx' : ((s.passTo (x.mark + 205)).pairJoined r q a.chan b.chan).rx? r = some x := by
    rw [State.pairJoined_rx?, State.rx?_dropRx_ne _ hqr.symm, State.rx?_passTo, hx]
  obtain ⟨ha, hb'⟩ := (s.passTo (x.mark + 205)).pairJoined_chan r q a.chan b.chan hab.ne
  rw [State.groupClose_pair hx hline hstage hopen hjoin hmembers hothers hab]
  refine ⟨?_, congrArg Channel.rx ha, congrArg Channel.rx hb', State.rx?_modRx_self hx' _, ?_, ?_, ?_⟩
  · exact (Tbl.at?_upd_ne _ _ hqr).trans (State.rx?_dropRx_self _ q)
  · exact (State.pairJoined_counted _ r q a.chan b.chan).of_rd_eq
      (s.passTo_rd_of_countsOn _ (Reg.countsOn_of_groupJoin b.chan) hb)
  · exact (onlyRegs_passTo s _).trans (State.pairJoined_onlyRegs _ r q a.chan b.chan)
  · exact (((onlyChanges_passTo s _).trans (State.pairJoined_onlyChanges _ r q a.chan b.chan)).trans (onlyChanges_modRx _ r _)).mono
      (by simp)

end Close

/-! The fine trim (R126). -/

theorem State.masked_congr {s t : State} {n : Nat} (h : t.chan n = s.chan n) : t.masked n = s.masked n := by
  funext k
  simp only [State.masked, h]

section Measures

variable {s t : State} (h : ∀ n, t.chan n = s.chan n)

include h

theorem State.trainMember_congr (seen : List CeSeen) : t.trainMember seen = s.trainMember seen := by
  funext m
  simp only [State.trainMember, State.masked_congr (h m.chan)]

theorem State.groupTrim_congr (seen : List CeSeen) (lead : Nat) (ms : List RxMember) :
    t.groupTrim seen lead ms = s.groupTrim seen lead ms := by
  simp only [State.groupTrim, fun n => State.masked_congr (h n), fun n => State.trimLast_congr (h n)]

end Measures

/-- A mean over one weight is its value. -/
theorem divTiesZero_mul {w : Nat} (hw : 0 < w) (z : Int) : divTiesZero ((w : Int) * z) w = z := by
  have hround : ∀ k : Int, (w * k * 2 + w - 1) / (2 * w) = k := fun k => by
    rw [Int.ediv_eq_iff_of_pos (by omega)]
    constructor <;> nlinarith
  unfold divTiesZero
  rw [abs_mul, Nat.abs_cast, hround]
  split
  · next hneg => rw [abs_of_neg (by nlinarith), neg_neg]
  · next hpos => exact abs_of_nonneg (by nlinarith)

/-- The fine trim of one channel is the trim it has plus its own fine offset (R126). -/
theorem State.groupTrim_single (s : State) (m : RxMember) (lead : Nat) (y1 y2 : List Gauss)
    (hweight : 0 < snrOf (tapsOf (s.masked m.chan) y1 y2) y1 y2) :
    s.groupTrim [⟨m.chan, y1, y2⟩] lead [s.trainMember [⟨m.chan, y1, y2⟩] m] =
      (s.trimLast m.chan).1 + fineOffset (s.masked m.chan) y1 y2 := by
  have hmean := divTiesZero_mul hweight ((s.trimLast m.chan).1 + fineOffset (s.masked m.chan) y1 y2)
  have hmember : s.trainMember [⟨m.chan, y1, y2⟩] m =
      { m with taps := tapsOf (s.masked m.chan) y1 y2, snr := snrOf (tapsOf (s.masked m.chan) y1 y2) y1 y2 } := by
    simp [State.trainMember, ceOf]
  rw [hmember]
  generalize snrOf (tapsOf (s.masked m.chan) y1 y2) y1 y2 = w at *
  simp [State.groupTrim, ceOf, hweight.ne', hmean]

/-- The members take the trim `trim`, each keeping its phase. -/
def State.trimmed (s : State) (trim : Int) (ms : List RxMember) : State :=
  ms.foldl (fun t m => t.writeTrim m.chan trim (t.trimLast m.chan).2) s

theorem State.trimmed_onlyChanges (s : State) (trim : Int) (ms : List RxMember) : OnlyChanges [.line] s (s.trimmed trim ms) := by
  unfold State.trimmed
  exact OnlyChanges.foldl s (fun t _ => onlyChanges_writeTrim t _ trim _) ms

theorem State.trimmed_rx? (s : State) (trim : Int) (ms : List RxMember) (r : Nat) : (s.trimmed trim ms).rx? r = s.rx? r := by
  unfold State.trimmed
  exact State.foldl_keeps (fun t => t.rx? r) (fun t (m : RxMember) => t.writeTrim m.chan trim (t.trimLast m.chan).2) (fun _ _ => rfl) ms s

theorem State.trimmed_chan_of_notMem (s : State) (trim : Int) {ms : List RxMember} {n : Nat} (h : n ∉ ms.map (·.chan)) :
    (s.trimmed trim ms).chan n = s.chan n := by
  induction ms generalizing s with
  | nil => rfl
  | cons m ms ih =>
    obtain ⟨hm, hms⟩ := List.ne_and_not_mem_of_not_mem_cons h
    exact (ih _ hms).trans (State.chan_modChan_ne _ _ hm)

theorem State.trimmed_written (s : State) (trim : Int) {ms : List RxMember} (hnodup : (ms.map (·.chan)).Nodup) {m : RxMember}
    (hm : m ∈ ms) : ((s.trimmed trim ms).chan m.chan).written = some (trim, (s.trimLast m.chan).2 % 64, s.now) := by
  induction ms generalizing s with
  | nil => cases hm
  | cons k ms ih =>
    obtain ⟨hk, hms⟩ := List.nodup_cons.1 hnodup
    change (((s.writeTrim k.chan trim (s.trimLast k.chan).2).trimmed trim ms).chan m.chan).written = _
    rcases List.mem_cons.1 hm with rfl | hm
    · rw [State.trimmed_chan_of_notMem _ trim hk, State.writeTrim_chan]
    · have hne : m.chan ≠ k.chan := fun heq => hk (List.mem_map.2 ⟨m, hm, heq⟩)
      have hkept : (s.writeTrim k.chan trim (s.trimLast k.chan).2).chan m.chan = s.chan m.chan := s.chan_modChan_ne _ hne
      rw [ih _ hms hm, State.trimLast_congr hkept]
      rfl

section Fine

variable {s : State} {r : Nat} {x : Reception} (hx : s.rx? r = some x) (hstage : x.stage = .marked) (hwave : x.wave = .ofdm)
  (hclosed : x.closed = true) (seen : List CeSeen)

include hx hstage hwave hclosed

theorem State.fineTrim_eq : s.fineTrim r seen =
    if 24000 < |s.groupTrim seen x.lead (x.members.map (s.trainMember seen))| then
      x.members.foldl (fun t m => t.leaveRx m.chan false (K.chs.TRIM_RANGE_COUNT m.chan)) (s.passTo (x.begin_ + 45056))
    else ((s.passTo (x.begin_ + 45056)).trimmed (s.groupTrim seen x.lead (x.members.map (s.trainMember seen))) x.members).modRx r fun y =>
      { y with stage := .trained, members := x.members.map (s.trainMember seen) } := by
  have htrain := State.trainMember_congr (s.chan_passTo (x.begin_ + 45056)) seen
  have htrim := State.groupTrim_congr (s.chan_passTo (x.begin_ + 45056)) seen
  simp only [State.fineTrim, hx, hstage, hwave, hclosed, bne_self_eq_false, Bool.or_self, Bool.false_eq_true, if_false, if_true, htrain,
    htrim]
  rfl

theorem fineTrim_trains (hnodup : (x.members.map (·.chan)).Nodup)
    (hrange : |s.groupTrim seen x.lead (x.members.map (s.trainMember seen))| ≤ 24000) :
    (s.fineTrim r seen).now = max s.now (x.begin_ + 45056) ∧
    (∀ m ∈ x.members, ((s.fineTrim r seen).chan m.chan).written =
      some (s.groupTrim seen x.lead (x.members.map (s.trainMember seen)), (s.trimLast m.chan).2 % 64, (s.fineTrim r seen).now)) ∧
    (s.fineTrim r seen).rx? r = some { x with stage := .trained, members := x.members.map (s.trainMember seen) } ∧
    OnlyChanges (timeParts ++ [.line]) s (s.fineTrim r seen) := by
  have heq := State.fineTrim_eq hx hstage hwave hclosed seen
  rw [if_neg (not_lt.2 hrange)] at heq
  have hwrites := (s.passTo (x.begin_ + 45056)).trimmed_onlyChanges
    (s.groupTrim seen x.lead (x.members.map (s.trainMember seen))) x.members
  have hnow : (s.fineTrim r seen).now = max s.now (x.begin_ + 45056) := by
    rw [heq]
    exact Eq.trans (hwrites .now (by simp)) (s.passTo_now _)
  refine ⟨hnow, fun m hm => ?_, ?_, ?_⟩
  · have hwritten := (s.passTo (x.begin_ + 45056)).trimmed_written
      (s.groupTrim seen x.lead (x.members.map (s.trainMember seen))) hnodup hm
    rw [State.trimLast_congr (s.chan_passTo _ _), State.passTo_now] at hwritten
    rw [hnow, heq]
    exact hwritten
  · rw [heq]
    exact State.rx?_modRx_self ((State.trimmed_rx? ..).trans ((s.rx?_passTo _ r).trans hx)) _
  · rw [heq]
    exact (((onlyChanges_passTo s _).trans hwrites).trans (onlyChanges_modRx _ r _)).mono (by simp)

/-- A fine trim out of range gives the one channel up. -/
theorem fineTrim_strays {m : RxMember} (hmembers : x.members = [m]) (hlt : m.chan < 256) (hrx : (s.chan m.chan).rx = some r)
    (hrange : 24000 < |s.groupTrim seen x.lead (x.members.map (s.trainMember seen))|) :
    Rinsed r m.chan (K.chs.TRIM_RANGE_COUNT m.chan) s (s.fineTrim r seen) ∧
    (s.noOpenings r → OnlyChanges (timeParts ++ [.line]) s (s.fineTrim r seen)) := by
  have hin : Single m.chan r x m s := ⟨hlt, hrx, hx, hmembers, rfl, by rw [hwave]; rfl⟩
  have heq := State.fineTrim_eq hx hstage hwave hclosed seen
  rw [if_pos hrange, hmembers, List.foldl_cons, List.foldl_nil, (hin.passTo _).leaveRx] at heq
  rw [heq]
  exact (hin.rinsedAt _ (Reg.countsOn_of_acquisition m.chan).2).2

end Fine

end Sys2Proof.Machine

end

section
/-! PROOF. O51: the acquisition commands run in a running device, and the obligation (R121 to R126, R130). -/

namespace Sys2Proof.Machine

/-- Parts that may change, listed as a statement lists them, once the queue is put back. -/
theorem OnlyChanges.keptAt {s t : State} {parts parts' : List Part} (h : OnlyChanges parts s t) (hsub : ∀ p ∈ parts, p ∈ parts') :
    OnlyChanges parts' s (t.modPending fun _ => s.pending) := (h.mono hsub).keepQueue

/-- A command whose meaning leaves the device as it is does nothing. -/
theorem exec_unchanged {i : Instr} {s t : State} (hexec : exec i s = .next (t.modPending fun _ => s.pending)) (h : t = s) :
    exec i s = .next s := by
  subst h
  exact hexec

/-- Settles O51: each command of the acquisition is one short change of the channel's reception, written out once for a reception
of one channel (`Single`) and for the group that closes; a channel that is given up is rinsed under its own counter. -/
theorem acquisitionRunsFromDetectionToTheFineTrim : Obligations.AcquisitionRunsFromDetectionToTheFineTrim := by
  unfold Obligations.AcquisitionRunsFromDetectionToTheFineTrim
  refine ⟨fun n sf gamma wave seen s hrun hgamma => ?detection, fun n r x m s hrun hlt hrx hx hmembers hchan hline hstage => ?mark,
    fun n s hrun hfree => ?free, fun r x s hrun hx hline hstage => ?group⟩
  case detection =>
    have hexec := exec_detection_of_running hrun n sf wave seen
    subst hgamma
    refine ⟨fun h => ?_, fun hlane h => ?_, fun hlane h => ?_, fun r x hlane hrx hx h => ?_, fun hlane hserv hblank hfree hdetects => ?_,
      fun r x m hlane hserv hblank hrx hx hwave hsf hmembers hchan hnew hgain hdetects => ?_, fun hlane hserv hon hblank hfree => ?_⟩
    · exact exec_unchanged hexec (State.detection_of_out h)
    · exact exec_unchanged hexec (State.detection_of_blanked hlane h)
    · exact exec_unchanged hexec (State.detection_of_laneDeaf hlane h)
    · exact exec_unchanged hexec (State.detection_of_declared hlane hrx hx h)
    · obtain ⟨hx, hchan, hothers, hcounted, hregs, hparts⟩ :=
        State.detection_starts (sf := sf) hserv hlane hblank hdetects hfree
      exact ⟨_, hexec, hx, hchan, hothers, hcounted, hregs, hparts.keepQueue⟩
    · obtain ⟨hx', hfrozen, hrx', hcounted, hparts⟩ :=
        State.detection_declares (sf := sf) hserv hlane hblank hdetects hrx hx hwave hsf hmembers hchan hnew hgain
      exact ⟨_, hexec, hx', hfrozen, hrx', hcounted, hparts.keepQueue⟩
    · obtain ⟨hchan, hx, hcounted, hparts⟩ :=
        State.detection_lane (sf := sf) (seen := seen) hserv hlane hon hblank hfree
      exact ⟨_, hexec, hchan, hx, hcounted, hparts.keepQueue⟩
  case mark =>
    have hin : Single n r x m s := ⟨hlt, hrx, hx, hmembers, hchan, hline⟩
    refine ⟨fun hsettled mark seen => ?_, fun mark seen off a p hdeclared hnew hoff htrim => ?_, ?_⟩
    · exact exec_unchanged (exec_timingMark_of_running hrun n mark seen) (hin.timingMark_of_settled mark seen hsettled)
    · have hexec := exec_timingMark_of_running hrun n mark seen
      obtain rfl : (s.trimLast n).1 = a := congrArg Prod.fst htrim
      obtain rfl : (s.trimLast n).2 = p := congrArg Prod.snd htrim
      subst hoff
      refine ⟨fun hperiods hintime hrange => ?_, fun hlost => ?_, fun hperiods hintime hrange => ?_⟩
      · obtain ⟨hnow, hx', hchan', hparts⟩ := hin.marks hstage hdeclared hnew hperiods hintime hrange
        exact ⟨_, hexec, hnow, hx', hchan'.trans (by rw [← hnow]; rfl), hparts.keptAt (by simp [timeParts])⟩
      · obtain ⟨hrinsed, hparts⟩ := hin.misses hstage hdeclared hnew hlost
        exact ⟨_, hexec, hrinsed, fun hopen => (hparts hopen).keptAt (by simp [timeParts])⟩
      · obtain ⟨hrinsed, hparts⟩ := hin.strays hstage hdeclared hnew hperiods hintime hrange
        exact ⟨_, hexec, hrinsed, fun hopen => (hparts hopen).keptAt (by simp [timeParts])⟩
    · obtain ⟨hnow, hrinsed, hparts⟩ := hin.rinsedAt (x.detected + 20480) (Reg.countsOn_of_acquisition n).1
      rw [← hin.acqFail hstage] at hnow hrinsed hparts
      exact ⟨_, exec_acqFail_of_running hrun n, hnow, hrinsed, fun hopen => (hparts hopen).keptAt (by simp [timeParts])⟩
  case free =>
    exact ⟨exec_unchanged (exec_acqFail_of_running hrun n) (by simp [State.acqFail, hfree]), fun mark seen =>
      exec_unchanged (exec_timingMark_of_running hrun n mark seen) (by simp [State.timingMark, hfree])⟩
  case group =>
    have hclose := exec_groupClose_of_running hrun r
    refine ⟨fun m hopen hjoin hmembers => ?_, fun q a b y hopen hjoin hmembers hothers hab hb => ?_,
      fun seen ms trim hwave hclosed hnodup hms htrim => ?_⟩
    · obtain ⟨hnow, hx', hrx, hparts⟩ := groupClose_closes hx hline hstage hopen hjoin hmembers
      exact ⟨_, hclose, hnow, hx', hrx, hparts.keptAt (by simp [timeParts])⟩
    · obtain ⟨hgone, ha, hb', hx', hcounted, hregs, hparts⟩ :=
        groupClose_joins hx hline hstage hopen hjoin hmembers hothers hab hb
      exact ⟨_, hclose, hgone, ha, hb', hx', hcounted, hregs.mono (by simp [timeRegs]), hparts.keptAt (by simp [timeParts])⟩
    · subst hms htrim
      have hexec := exec_fineTrim_of_running hrun r seen
      refine ⟨fun hrange => ?_, fun m y1 y2 hmembers hseen hweight => ?_, fun m hrange hmembers hlt hrx => ?_⟩
      · obtain ⟨hnow, hwritten, hx', hparts⟩ := fineTrim_trains hx hstage hwave hclosed seen hnodup hrange
        exact ⟨_, hexec, hnow, hwritten, hx', hparts.keptAt (by simp [timeParts])⟩
      · rw [hmembers, hseen]
        exact s.groupTrim_single m x.lead y1 y2 hweight
      · obtain ⟨hrinsed, hparts⟩ := fineTrim_strays hx hstage hwave hclosed seen hmembers hlt hrx hrange
        exact ⟨_, hexec, hrinsed, fun hopen => (hparts hopen).keptAt (by simp [timeParts])⟩

end Sys2Proof.Machine

end

section
/-! PROOF. O55 fails: an MPDU whose opening still waits leaves the device as it is, while an update of its reception moves the reception to
the front of a table of receptions that is not in order. -/

namespace Sys2Proof.Machine

/-- An MPDU of one block under key class 1, whose CRC-32 is good. -/
def sealedMpdu : List Byte := withCrc crcMpdu ((⟨0, 1, false, 0⟩ : MpduHead).bytes ++ List.replicate 8 0)

/-- A swell reception on channel 0 from address 0 of segment 0: its MPDU is in, and its opening is under way. -/
def openingReception : Reception :=
  { State.reset.newRx 0 .s1 7 [⟨0, 4, true, false, []⟩] with
    stage := .payload, seg := some 0, head := 0, raw := some sealedMpdu, openings := [(0, .waits)] }

/-- A device with the station of that address, and with reception 1 in the table before reception 0. -/
def receptionsOutOfOrder : State :=
  { State.reset with
    mac := { Mac.reset with eps := [(0, { Ep.reset with state := epAssociated })] }
    line := { Line.reset with rxs := [(1, State.reset.newRx 1 .s1 7 []), (0, openingReception)] } }

theorem receptionsOutOfOrder_rx? : receptionsOutOfOrder.rx? 0 = some openingReception := rfl

theorem receptionsOutOfOrder_knownSrc : receptionsOutOfOrder.knownSrc 0 openingReception.src = some 0 := by decide +kernel

theorem mpduCrcOk_sealedMpdu : mpduCrcOk sealedMpdu = true := by decide +kernel

theorem sealedMpdu_cls : (MpduHead.read sealedMpdu).cls ≠ 0 := by decide +kernel

theorem openingReception_mpdus : 0 < openingReception.mpdus := by decide +kernel

/-- No engine holds or awaits work: the opening has ended, and its result is still to be taken. -/
theorem receptionsOutOfOrder_noOpening : receptionsOutOfOrder.noOpening 0 0 := by
  refine ⟨fun q hq => ?_, fun e _ m hm => ?_⟩
  · cases hq
  · cases hm

theorem mpduResolve_receptionsOutOfOrder_line :
    (receptionsOutOfOrder.mpduResolve 0 0 {}).line.rxs.length = 2 := by decide +kernel

theorem modRx_receptionsOutOfOrder_line :
    (receptionsOutOfOrder.modRx 0 fun _ => openingReception).line.rxs.length = 3 := by decide +kernel

theorem exec_mpduResolve_of_running {s : State} (hrun : s.running = true) (r j : Nat) (work : MpduWork) :
    exec (.mpduResolve r j work) s = .next ((s.mpduResolve r j work).modPending fun _ => s.pending) := whenRunning_of_running hrun _

/-- Refutes O55: the reception of an MPDU that is not resolved yet is not written at all, which an update of it by itself equals only where
the table of receptions is in order. -/
theorem not_mpdusAreResolvedInOrderByTheFirstRuleThatApplies : ¬ Obligations.MpdusAreResolvedInOrderByTheFirstRuleThatApplies := by
  intro h
  obtain ⟨-, -, hresolve⟩ := h 0 0 0 0 openingReception openingReception _ {} sealedMpdu receptionsOutOfOrder rfl
    receptionsOutOfOrder_rx? rfl (by decide) (by decide) rfl rfl
  obtain ⟨-, -, hknown⟩ := hresolve rfl rfl openingReception_mpdus rfl receptionsOutOfOrder_noOpening nofun fun _ => .inl ⟨rfl, rfl⟩
  obtain ⟨-, -, -, hsealed⟩ := hknown 0 receptionsOutOfOrder_knownSrc
  obtain ⟨-, hwaits, -⟩ := hsealed rfl mpduCrcOk_sealedMpdu sealedMpdu_cls
  have hkept := (exec_mpduResolve_of_running rfl 0 0 {}).symm.trans (hwaits rfl)
  have hrxs := congrArg (fun t : State => t.line.rxs.length) (Host.Outcome.next.inj hkept)
  simp only [State.modPending_line, mpduResolve_receptionsOutOfOrder_line, modRx_receptionsOutOfOrder_line] at hrxs
  exact absurd hrxs (by decide)

end Sys2Proof.Machine

end

section
/-! PROOF. O54: the end of a reception (R52, R113, R141, R176). -/

namespace Sys2Proof.Machine

theorem exec_receptionEnd_of_running {s : State} (hrun : s.running = true) (r : Nat) :
    exec (.receptionEnd r) s = .next ((s.receptionEnd r).modPending fun _ => s.pending) := whenRunning_of_running hrun _

theorem State.finalOf_congr {s t : State} (h : ∀ n, t.chan n = s.chan n) (x : Reception) : t.finalOf x = s.finalOf x := by
  simp only [State.finalOf, fun n => State.trimLast_congr (h n)]

/-- The reception as its end leaves it: finished, with its final trim and phases. -/
def Reception.closeWith (x : Reception) (last : Int × Tbl Nat) : Reception := { x with finished := true, final := some last }

theorem Reception.closeWith_done (x : Reception) (last : Int × Tbl Nat) :
    (x.closeWith last).done = (x.stage == .passive || (x.resolved && (!x.wantsAck || x.acked == 0))) := rfl

/-! The channel that an end or a rinse frees. -/

/-- A channel that was released holds the trim of an idle one (R52). -/
theorem channelReleased_idle {u t : State} {n : Nat} (hchan : t.chan n = u.channelReleased n) (hline : OnlyChanges [.line] u t) :
    (t.chan n).rx = none ∧ (t.chan n).frozen = false ∧
    (t.chan n).written = some ((t.idleTrim n).1, (t.idleTrim n).2 % 64, t.now) := by
  have hidle : t.idleTrim n = u.idleTrim n :=
    State.idleTrim_congr (hline .dict (by simp)) (hline .mac (by simp)) (by rw [hchan]; rfl) (by rw [hchan]; rfl)
  have hnow : t.now = u.now := hline .now (by simp)
  rw [hidle, hnow, hchan]
  exact ⟨rfl, rfl, rfl⟩

theorem State.releaseFrom_rx? (s : State) (r : Nat) (x : Reception) (n q : Nat) : (s.releaseFrom r x n).rx? q = s.rx? q := by
  unfold State.releaseFrom State.releaseLane State.releaseChan
  repeat' split
  all_goals rfl

/-! An acknowledgement due on the lane (R113). -/

section Due

variable (s : State) (x : Reception) (due : Bool)

theorem State.setDue_of_line (h : isLane x.wave = false) : s.setDue x due = s := by simp [State.setDue, h]

/-- The channel notes that the acknowledgement of `x` is due, or no longer. -/
def Channel.dueFor (x : Reception) (due : Bool) (c : Channel) : Channel :=
  { c with ackDue := if due then some x.ackAt else if c.ackDue = some x.ackAt then none else c.ackDue }

theorem State.setDue_of_lane {m : RxMember} (h : isLane x.wave = true) (hmembers : x.members = [m]) :
    s.setDue x due = s.modChan m.chan (Channel.dueFor x due) := by
  simp only [State.setDue, h, State.modChans, Reception.chans, hmembers]
  rfl

/-- Only the line's part is written, so what reads the other parts reads on as before. -/
theorem State.setDue_modLine {m : RxMember} (hmembers : x.members = [m]) :
    ∃ f : Line → Line, s.setDue x due = s.modLine f ∧
      ∀ l, (f l).rxs = l.rxs ∧ (f l).frames = l.frames ∧ (f l).nextFrame = l.nextFrame := by
  cases hlane : isLane x.wave
  · exact ⟨id, s.setDue_of_line x due hlane, fun _ => ⟨rfl, rfl, rfl⟩⟩
  · exact ⟨_, s.setDue_of_lane x due hlane hmembers, fun _ => ⟨rfl, rfl, rfl⟩⟩

end Due

section Ends

variable {s : State} {r n : Nat} {x : Reception} {m : RxMember} (hx : s.rx? r = some x) (hmembers : x.members = [m])
  (hchan : m.chan = n)

/-- The state at the end of reception `x`, a sounding frame measured. -/
def State.heardOut (s : State) (x : Reception) : State := (s.atDeadline x.stop).soundingHeard x

theorem State.heardOut_of_unsounded (h : x.wave ≠ .ofdm ∨ x.type ≠ 6 ∨ x.stage ≠ .payload) : s.heardOut x = s.passTo x.stop := by
  simp only [State.heardOut, State.soundingHeard]
  rcases h with h | h | h <;> simp [h, State.atDeadline]

theorem State.heardOut_onlyMac : OnlyChanges [.mac] (s.passTo x.stop) (s.heardOut x) := by
  unfold State.heardOut State.soundingHeard
  split
  · exact (OnlyChanges.refl _).mono (by simp)
  · split
    · exact (OnlyChanges.refl _).mono (by simp)
    · exact onlyChanges_modMac _ _

theorem State.heardOut_line : (s.heardOut x).line = s.line :=
  Eq.trans (State.heardOut_onlyMac .line (by simp)) (s.passTo_line _)

theorem State.heardOut_now : (s.heardOut x).now = max s.now x.stop :=
  Eq.trans (State.heardOut_onlyMac .now (by simp)) (s.passTo_now _)

/-- Reception `x` of channel `n` has ended: the channel is free, and the reception keeps its final trims. -/
def State.endedOn (s : State) (r n : Nat) (x : Reception) : State :=
  ((s.heardOut x).releaseFrom r x n).modRx r fun y => y.closeWith (s.finalOf x)

include hmembers hchan in
theorem State.endedOn_eq : s.endedOn r n x =
    ((s.heardOut x).releaseAll r x).modRx r fun y => { y with finished := true, final := some ((s.heardOut x).finalOf x) } := by
  rw [State.releaseAll_single _ hmembers, hchan, State.finalOf_congr (State.chan_congr (State.heardOut_line (s := s) (x := x)))]
  rfl

theorem State.endedOn_onlyLine : OnlyChanges [.line] (s.heardOut x) (s.endedOn r n x) :=
  (onlyChanges_releaseFrom _ r x n).chain (onlyChanges_modRx _ r _)

theorem State.endedOn_chan (k : Nat) : (s.endedOn r n x).chan k = ((s.heardOut x).releaseFrom r x n).chan k := rfl

include hx in
theorem State.endedOn_rx? : (s.endedOn r n x).rx? r = some (x.closeWith (s.finalOf x)) := by
  have hx' : ((s.heardOut x).releaseFrom r x n).rx? r = some x :=
    (State.releaseFrom_rx? ..).trans ((State.rx?_congr State.heardOut_line r).trans hx)
  exact State.rx?_modRx_self hx' _

/-- An end that has come, or is not due in this stage, changes nothing. -/
theorem State.receptionEnd_of_settled (hx : s.rx? r = some x) (h : x.finished = true ∨ x.stage ≠ .payload ∧ x.stage ≠ .passive) :
    s.receptionEnd r = s := by
  rcases h with h | ⟨hpayload, hpassive⟩
  · simp [State.receptionEnd, hx, h]
  · simp [State.receptionEnd, hx, hpayload, hpassive]

section Open

variable (hopen : x.finished = false) (hstage : x.stage = .payload ∨ x.stage = .passive)

include hx hmembers hchan hopen hstage

theorem State.receptionEnd_eq : s.receptionEnd r =
    (if x.wantsAck && !(x.resolved && x.acked == 0) then (s.endedOn r n x).setDue x true else s.endedOn r n x).dropDone r := by
  have hready : (x.finished || !(x.stage == .payload || x.stage == .passive)) = false := by
    rcases hstage with h | h <;> simp [hopen, h]
  rw [State.receptionEnd, hx]
  simp only [hready, Bool.false_eq_true, if_false]
  rw [State.endedOn_eq hmembers hchan]
  rfl

/-- The end of a lane reception frees the lane receiver and notes the acknowledgement that is due. -/
theorem State.receptionEnd_lane (hlane : isLane x.wave = true) (hrx : (s.chan n).laneRx = some r) (hpayload : x.stage = .payload)
    (hleft : x.resolved = false ∨ x.acked ≠ 0) (hack : x.wantsAck = true) :
    ((s.receptionEnd r).chan n).laneRx = none ∧ ((s.receptionEnd r).chan n).ackDue = some x.ackAt ∧
    OnlyChanges (timeParts ++ [.line]) s (s.receptionEnd r) := by
  have howed : (x.wantsAck && !(x.resolved && x.acked == 0)) = true := by
    rcases hleft with h | h <;> simp [hack, h]
  have hdone : (x.closeWith (s.finalOf x)).done = false := by
    rcases hleft with h | h <;> simp [Reception.closeWith_done, hpayload, hack, h]
  have hquiet : x.wave ≠ .ofdm := by
    rintro h
    rw [h] at hlane
    cases hlane
  have hrx' : ((s.heardOut x).chan n).laneRx = some r := by rw [State.chan_congr State.heardOut_line, hrx]
  have heq : s.receptionEnd r = (s.endedOn r n x).modChan n (Channel.dueFor x true) := by
    have hself : ((s.endedOn r n x).modChan n (Channel.dueFor x true)).rx? r = some (x.closeWith (s.finalOf x)) := State.endedOn_rx? hx
    rw [State.receptionEnd_eq hx hmembers hchan hopen hstage, if_pos howed, State.setDue_of_lane _ _ _ hlane hmembers, hchan,
      State.dropDone, hself]
    simp only [hdone, Bool.false_eq_true, if_false]
  have hchan' : (s.receptionEnd r).chan n = Channel.dueFor x true
      { (s.heardOut x).chan n with laneRx := none, laneSecond := none, idleFrom := (s.heardOut x).now } := by
    rw [heq, State.chan_modChan_self, State.endedOn_chan, State.releaseFrom, if_pos hlane, State.releaseLane_chan hrx']
  refine ⟨by rw [hchan']; rfl, by rw [hchan']; rfl, ?_⟩
  have hend := State.endedOn_onlyLine (s := s) (r := r) (n := n) (x := x)
  rw [State.heardOut_of_unsounded (.inl hquiet)] at hend
  rw [heq]
  exact (onlyChanges_passTo s x.stop).trans (hend.chain (onlyChanges_modChan _ n _))

end Open

section Line

variable (hin : Single n r x m s) (hopen : x.finished = false) (hstage : x.stage = .payload ∨ x.stage = .passive)

include hin hopen hstage

theorem Single.receptionEnd_eq : s.receptionEnd r =
    if (x.closeWith (s.finalOf x)).done then (s.endedOn r n x).dropRx r else s.endedOn r n x := by
  rw [State.receptionEnd_eq hin.is hin.members hin.chan hopen hstage, State.setDue_of_line _ _ _ hin.line, ite_self, State.dropDone,
    State.endedOn_rx? hin.is]
  simp only [State.setDue_of_line _ _ _ (show isLane (x.closeWith (s.finalOf x)).wave = false from hin.line)]

theorem Single.receptionEnd_onlyLine : OnlyChanges [.line] (s.heardOut x) (s.receptionEnd r) := by
  rw [hin.receptionEnd_eq hopen hstage]
  split
  · exact State.endedOn_onlyLine.chain (onlyChanges_dropRx _ r)
  · exact State.endedOn_onlyLine

theorem Single.receptionEnd_now : (s.receptionEnd r).now = max s.now x.stop :=
  Eq.trans (hin.receptionEnd_onlyLine hopen hstage .now (by simp)) State.heardOut_now

/-- The end frees the channel: the AGC unfreezes, and the interpolator returns to the idle trim. -/
theorem Single.receptionEnd_frees : ((s.receptionEnd r).chan n).rx = none ∧ ((s.receptionEnd r).chan n).frozen = false ∧
    ((s.receptionEnd r).chan n).written =
      some (((s.receptionEnd r).idleTrim n).1, ((s.receptionEnd r).idleTrim n).2 % 64, (s.receptionEnd r).now) := by
  have hrx : ((s.heardOut x).chan n).rx = some r := by rw [State.chan_congr State.heardOut_line, hin.rx]
  have hfree : (s.endedOn r n x).chan n = (s.heardOut x).channelReleased n := by
    rw [State.endedOn_chan, State.releaseFrom, hin.line, if_neg Bool.false_ne_true, State.releaseChan_chan hrx]
  refine channelReleased_idle ?_ (hin.receptionEnd_onlyLine hopen hstage)
  rw [hin.receptionEnd_eq hopen hstage]
  split
  · exact hfree
  · exact hfree

theorem Single.receptionEnd_gone (hdone : (x.closeWith (s.finalOf x)).done = true) : (s.receptionEnd r).rx? r = none := by
  rw [hin.receptionEnd_eq hopen hstage, if_pos hdone, State.rx?_dropRx_self]

theorem Single.receptionEnd_kept (hdone : (x.closeWith (s.finalOf x)).done = false) :
    (s.receptionEnd r).rx? r = some (x.closeWith (s.finalOf x)) := by
  rw [hin.receptionEnd_eq hopen hstage, hdone, if_neg Bool.false_ne_true, State.endedOn_rx? hin.is]

theorem Single.receptionEnd_onlyChanges (hquiet : x.wave ≠ .ofdm ∨ x.type ≠ 6 ∨ x.stage ≠ .payload) :
    OnlyChanges (timeParts ++ [.line]) s (s.receptionEnd r) := by
  have hend := hin.receptionEnd_onlyLine hopen hstage
  rw [State.heardOut_of_unsounded hquiet] at hend
  exact (onlyChanges_passTo s x.stop).trans hend

end Line

/-! A sounding frame (R176). -/

theorem State.knownSrc_congr {s t : State} (h : t.mac = s.mac) : t.knownSrc = s.knownSrc := by
  funext g addr
  simp only [State.knownSrc, State.epAt, State.ep, h]
  rfl

theorem State.srcOf_congr {s t : State} (h : t.mac = s.mac) (x : Reception) : t.srcOf x = s.srcOf x := by
  rw [State.srcOf, State.knownSrc_congr h, State.srcOf]

theorem State.ep_modEp_ne (s : State) {i j : Nat} (f : Ep → Ep) (h : j ≠ i) : (s.modEp i f).ep j = s.ep j := Tbl.atD_modD_ne _ _ _ h

theorem State.ep_congr {s t : State} (h : t.mac = s.mac) (i : Nat) : t.ep i = s.ep i := by rw [State.ep, h, State.ep]

/-- A sounding frame was measured in tide slot `slot`. -/
def Sounding.heardIn (slot : Nat) (y : Sounding) : Sounding :=
  if bitOf y.mask slot && !y.got.contains slot then { y with got := y.got ++ [slot] } else y

/-- The slot of a sounding frame is entered in the sounding of its link. -/
theorem State.heardOut_sounding {g i slot : Nat} {y : Sounding} (hwave : x.wave = .ofdm) (hpayload : x.stage = .payload)
    (htype : x.type = 6) (hsrc : s.srcOf x = some (g, i)) (hsounding : (s.ep i).sounding = some y)
    (hslot : slot = (s.atDeadline x.stop).slotAtTick g (x.begin_ + ofdmHead)) (hasked : bitOf y.mask slot = true) (hnew : slot ∉ y.got) :
    EpBecomes i { s.ep i with sounding := some { y with got := y.got ++ [slot] } } s (s.heardOut x) := by
  have hmac : (s.atDeadline x.stop).mac = s.mac := s.passTo_mac _
  have hsrc' : (s.atDeadline x.stop).srcOf x = some (g, i) := (State.srcOf_congr hmac x).trans hsrc
  have hentered : y.heardIn slot = { y with got := y.got ++ [slot] } := by simp [Sounding.heardIn, hasked, hnew]
  have heq : s.heardOut x =
      (s.atDeadline x.stop).modEp i fun e => { e with sounding := e.sounding.map (Sounding.heardIn slot) } := by
    simp only [State.heardOut, State.soundingHeard, hwave, hpayload, htype, hsrc', ← hslot]
    rfl
  rw [heq]
  refine ⟨?_, fun j hj => ?_⟩
  · rw [State.ep_modEp_self, State.ep_congr hmac, hsounding, Option.map_some, hentered]
  · rw [State.ep_modEp_ne _ _ hj, State.ep_congr hmac]

end Ends

end Sys2Proof.Machine

end

section
/-! PROOF. O54: the acknowledgement that a reception draws (R13, R109, R142, R201). -/

namespace Sys2Proof.Machine

/-- The command that acknowledges reception `r`, by its waveform (R109, R201). -/
theorem exec_ackSend_of_running {s : State} (hrun : s.running = true) (r : Nat) (x : Reception) (ready : List Nat) :
    exec (if x.wave = .ofdm then .ackSend r ready else .swellAckSend r ready) s =
      .next ((s.ackSend r (x.wave != .ofdm) ready).modPending fun _ => s.pending) := by
  by_cases h : x.wave = .ofdm
  · rw [if_pos h, h]
    exact whenRunning_of_running hrun _
  · rw [if_neg h, bne_iff_ne.2 h]
    exact whenRunning_of_running hrun _

theorem Reg.countsOn_of_acknowledgement (n : Nat) :
    (K.chs.ACK_LATE n).countsOn n ∧ (K.chs.LATE_FRAME_COUNT n).countsOn n ∧ (K.chs.LANE_ACK_MISSED n).countsOn n := by
  simp only [Reg.countsOn, K.chs.ACK_LATE, K.chs.LATE_FRAME_COUNT, K.chs.LANE_ACK_MISSED, K.chs.CODEWORDS_DISCARDED, K.chs.GI_MISS]
  omega

/-! The frame that acknowledges. -/

/-- The 16 header bytes hold the header's first 128 bits. -/
theorem fields_src (v : Nat) : (FrameControl.fields (leBytes 16 v)).src = field v 38 16 := by
  simp only [FrameControl.fields, ofLe_leBytes, field]
  omega

section AckFrame

variable (s : State) (x : Reception)

theorem State.ackFrame_dst (t : Nat) : (s.ackFrame x t).dst = x.src := by
  by_cases h : x.wave = .ofdm
  · simp [State.ackFrame, Reception.src, h, fields_src]
  · simp [State.ackFrame, Reception.src, h]

/-- The acknowledgement is selective where MPDUs of an OFDM frame were not accepted. -/
theorem State.ackFrame_type (t : Nat) :
    (s.ackFrame x t).type = if x.wave = .ofdm ∧ x.acked ≠ 2 ^ (x.fc.countM1 + 1) - 1 then 3 else 2 := by
  by_cases h : x.wave = .ofdm
  · by_cases hall : x.acked = 2 ^ (x.fc.countM1 + 1) - 1
    · simp [State.ackFrame, Reception.fc, h, hall]
    · simp only [Reception.fc] at hall
      simp [State.ackFrame, Reception.fc, h, hall]
  · simp [State.ackFrame, h]

theorem State.ackFrame_tmi (t : Nat) (htype : (s.ackFrame x t).type = 3) : (s.ackFrame x t).tmi = x.acked := by
  rw [State.ackFrame_type] at htype
  split at htype
  · next h =>
    obtain ⟨hwave, hsome⟩ := h
    simp only [Reception.fc] at hsome
    simp [State.ackFrame, hwave, hsome]
  · cases htype

theorem Reception.ackAt_eq : x.ackAt = x.stop + (if x.wave = .ofdm then 24576 else swellTurn (isLane x.wave) x.sf) := by
  simp [Reception.ackAt, ackTurn]

end AckFrame

/-! A reception that is not resolved in time (R142). -/

/-- The wake of a marking uplink writes the line's wakes alone. -/
theorem State.wakeUnacked_modLine (s : State) (x : Reception) :
    ∃ f : Line → Line, s.wakeUnacked x = s.modLine f ∧ ∀ l, (f l).rxs = l.rxs ∧ (f l).chans = l.chans := by
  unfold State.wakeUnacked
  split
  · exact ⟨_, rfl, fun _ => ⟨rfl, rfl⟩⟩
  · exact ⟨id, rfl, fun _ => ⟨rfl, rfl⟩⟩

/-- Reception `r` goes on without its acknowledgement. -/
def State.unanswered (s : State) (r : Nat) (x : Reception) : State := ((s.setDue x false).wakeUnacked x).modRx r Reception.unasked

section Unanswered

variable {s : State} {r : Nat} {x : Reception} {m : RxMember} (hmembers : x.members = [m])

include hmembers

theorem State.unanswered_onlyChanges : OnlyChanges [.line] s (s.unanswered r x) := by
  obtain ⟨f, hf, -⟩ := s.setDue_modLine x false hmembers
  obtain ⟨f', hf', -⟩ := (s.modLine f).wakeUnacked_modLine x
  rw [State.unanswered, hf, hf']
  exact ((onlyChanges_modLine s f).chain (onlyChanges_modLine _ f')).chain (onlyChanges_modRx _ r _)

theorem State.unanswered_rx? (hx : s.rx? r = some x) : (s.unanswered r x).rx? r = some x.unasked := by
  obtain ⟨f, hf, hline⟩ := s.setDue_modLine x false hmembers
  obtain ⟨f', hf', hline'⟩ := (s.modLine f).wakeUnacked_modLine x
  obtain ⟨hrxs, -⟩ := hline s.line
  obtain ⟨hrxs', -⟩ := hline' (f s.line)
  have hx' : ((s.modLine f).modLine f').rx? r = some x := by
    rw [← hx, State.rx?, State.rx?, ← hrxs, ← hrxs']
    rfl
  rw [State.unanswered, hf, hf']
  exact State.rx?_modRx_self hx' _

/-- No acknowledgement of a lane reception is due any more. -/
theorem State.unanswered_ackDue (hlane : isLane x.wave = true) : ((s.unanswered r x).chan m.chan).ackDue ≠ some x.ackAt := by
  obtain ⟨f', hf', hline'⟩ := (s.modChan m.chan (Channel.dueFor x false)).wakeUnacked_modLine x
  obtain ⟨-, hchans⟩ := hline' (s.modChan m.chan (Channel.dueFor x false)).line
  have hchan : (s.unanswered r x).chan m.chan = Channel.dueFor x false (s.chan m.chan) := by
    rw [← s.chan_modChan_self m.chan (Channel.dueFor x false), State.unanswered, s.setDue_of_lane x false hlane hmembers, hf',
      State.chan, State.chan, ← hchans]
    rfl
  rw [hchan, Channel.dueFor]
  split
  · contradiction
  · split
    · exact nofun
    · assumption

end Unanswered

/-! An acknowledgement leaves on one channel (R13, R113). -/

/-- Sub-lane A of channels that no frame is placed on needs no frame to give way. -/
theorem State.takeLaneA_of_free {s : State} {ns : List Nat} (h : s.onLane false ns = []) : s.takeLaneA ns = s := by
  simp only [State.takeLaneA, h, List.filter_nil, List.flatMap_nil, List.foldl_nil, List.append_nil]
  rfl

theorem State.abortLaneRx_of_free {s : State} {n : Nat} (h : (s.chan n).laneRx = none) : s.abortLaneRx [n] = s := by
  simp [State.abortLaneRx, h]

section DueOn

variable (s : State) (x : Reception) (due : Bool) {m : RxMember} (hmembers : x.members = [m])

include hmembers

theorem State.setDue_laneRx (n : Nat) : ((s.setDue x due).chan n).laneRx = (s.chan n).laneRx := by
  cases hlane : isLane x.wave
  · rw [s.setDue_of_line x due hlane]
  · rw [s.setDue_of_lane x due hlane hmembers]
    by_cases h : n = m.chan
    · rw [h, State.chan_modChan_self]
      rfl
    · rw [State.chan_modChan_ne _ _ h]

theorem State.setDue_inService (n : Nat) : (s.setDue x due).inService n = s.inService n := by
  cases hlane : isLane x.wave
  · rw [s.setDue_of_line x due hlane]
  · rw [s.setDue_of_lane x due hlane hmembers]
    rfl

end DueOn

section Sending

variable {s : State} {x : Reception} {m : RxMember} {n : Nat} {ready : List Nat} (hmembers : x.members = [m]) (hchan : m.chan = n)
  (hgap : (s.setDue x false).inGap (x.seg.getD 0) [n] x.ackAt (s.ackFrame x x.ackAt).stop = false)
  (hserv : (s.setDue x false).inService n = true)

include hmembers hchan hgap

/-- No listening gap keeps the one channel silent. -/
theorem State.ackChans_eq : (x.chans.filter fun k => !(s.setDue x false).inGap ((s.setDue x false).ackFrame x x.ackAt).seg [k]
    ((s.setDue x false).ackFrame x x.ackAt).start ((s.setDue x false).ackFrame x x.ackAt).stop) = [n] := by
  have hgap' : (s.setDue x false).inGap ((s.setDue x false).ackFrame x x.ackAt).seg [n] ((s.setDue x false).ackFrame x x.ackAt).start
      ((s.setDue x false).ackFrame x x.ackAt).stop = false := hgap
  simp [Reception.chans, hmembers, hchan, hgap']

include hserv

theorem State.sendAck_short (hshort : n ∉ ready) :
    s.sendAck x ready = ((s.setDue x false).event 9 0x05).bump (K.chs.LATE_FRAME_COUNT n) := by
  have hlate : ([n].filter fun k => !ready.contains k) = [n] := by simp [hshort]
  simp only [State.sendAck, State.ackChans_eq hmembers hchan hgap, hlate, List.all_cons, List.all_nil, hserv]
  rfl

theorem State.sendAck_ready (hready : n ∈ ready) (hfree : isLane x.wave = true → (s.setDue x false).onLane false [n] = [] ∧
    ((s.setDue x false).chan n).laneRx = none) :
    s.sendAck x ready = ((s.setDue x false).addFrame { (s.setDue x false).ackFrame x x.ackAt with chans := [n] }).2.eventC 9 0x01
      (s.ackFrame x x.ackAt).pri := by
  have hlate : ([n].filter fun k => !ready.contains k) = [] := by simp [hready]
  simp only [State.sendAck, State.ackChans_eq hmembers hchan hgap, hlate, List.all_cons, List.all_nil, hserv]
  cases hlane : isLane x.wave
  · rfl
  · obtain ⟨hnone, hrx⟩ := hfree hlane
    have hrx' : ((((s.setDue x false).addFrame { (s.setDue x false).ackFrame x x.ackAt with chans := [n] }).2.eventC 9 0x01
        ((s.setDue x false).ackFrame x x.ackAt).pri).chan n).laneRx = none :=
      (congrArg Channel.laneRx (State.chan_congr (State.eventC_line ..) n)).trans hrx
    simp only [State.takeLaneA_of_free hnone, if_true, State.abortLaneRx_of_free hrx']
    rfl

end Sending

/-! The acknowledgement of one reception of one channel. -/

/-- A finished reception of channel `n` alone that asked for an acknowledgement. -/
structure Asking (n r : Nat) (x : Reception) (m : RxMember) (s : State) : Prop where
  lt : n < 256
  is : s.rx? r = some x
  members : x.members = [m]
  chan : m.chan = n
  finished : x.finished = true
  wantsAck : x.wantsAck = true

theorem State.ackSend_of_unasked {s : State} {r : Nat} {x : Reception} (hx : s.rx? r = some x) (swell : Bool) (ready : List Nat)
    (h : x.finished = false ∨ x.wantsAck = false) : s.ackSend r swell ready = s := by
  rcases h with h | h <;> simp [State.ackSend, hx, h]

namespace Asking

variable {n r : Nat} {x : Reception} {m : RxMember} {s : State} (hin : Asking n r x m s) (ready : List Nat)

include hin

theorem lead : x.lead = n := (Reception.lead_single hin.members).trans hin.chan

/-- The acknowledgement by the branch of R109, R142 and R201 that its reception meets. -/
theorem ackSend_eq : s.ackSend r (x.wave != .ofdm) ready =
    if x.resolved = false then
      (if x.pri = 0 then (s.passTo x.ackAt).bump (K.chs.ACK_LATE n) else s.passTo x.ackAt).unanswered r x
    else if x.acked = 0 then ((s.passTo x.ackAt).setDue x false).dropRx r
    else ((s.passTo x.ackAt).sendAck x ready).dropRx r := by
  have hswell : ((x.wave == .ofdm) == (x.wave != .ofdm)) = false := by cases h : (x.wave == .ofdm) <;> simp [bne, h]
  simp only [State.ackSend, hin.is, hin.finished, hin.wantsAck, hswell, hin.lead]
  cases x.resolved <;> rfl

/-- A P0 reception that is not resolved in time is counted late, and none is acknowledged. -/
theorem late (hlate : x.resolved = false) :
    (s.ackSend r (x.wave != .ofdm) ready).now = max s.now x.ackAt ∧
    (s.ackSend r (x.wave != .ofdm) ready).rx? r = some x.unasked ∧
    (isLane x.wave = true → ((s.ackSend r (x.wave != .ofdm) ready).chan n).ackDue ≠ some x.ackAt) ∧
    (x.pri = 0 → Counted (K.chs.ACK_LATE n) s (s.ackSend r (x.wave != .ofdm) ready)) ∧
    (x.pri ≠ 0 → OnlyRegs timeRegs s (s.ackSend r (x.wave != .ofdm) ready)) ∧
    OnlyChanges (timeParts ++ [.dict, .line]) s (s.ackSend r (x.wave != .ofdm) ready) := by
  obtain ⟨hcounts, -, -⟩ := Reg.countsOn_of_acknowledgement n
  rw [hin.ackSend_eq, if_pos hlate]
  have hx' : (if x.pri = 0 then (s.passTo x.ackAt).bump (K.chs.ACK_LATE n) else s.passTo x.ackAt).rx? r = some x := by
    split
    · exact (s.rx?_passTo _ r).trans hin.is
    · exact (s.rx?_passTo _ r).trans hin.is
  have hnoted : OnlyChanges [.dict] (s.passTo x.ackAt)
      (if x.pri = 0 then (s.passTo x.ackAt).bump (K.chs.ACK_LATE n) else s.passTo x.ackAt) := by
    split
    · exact onlyChanges_bump _ _
    · exact (OnlyChanges.refl _).mono (by simp)
  have hparts := State.unanswered_onlyChanges (r := r) hin.members
    (s := if x.pri = 0 then (s.passTo x.ackAt).bump (K.chs.ACK_LATE n) else s.passTo x.ackAt)
  have hall := hnoted.trans hparts
  refine ⟨Eq.trans (hall .now (by simp)) (s.passTo_now _), State.unanswered_rx? hin.members hx', fun hlane => ?_, fun hpri => ?_,
    fun hpri => ?_, (onlyChanges_passTo s _).trans hall⟩
  · have hdue := State.unanswered_ackDue (r := r) hin.members hlane
      (s := if x.pri = 0 then (s.passTo x.ackAt).bump (K.chs.ACK_LATE n) else s.passTo x.ackAt)
    rwa [hin.chan] at hdue
  · have hdict := hparts .dict (by simp)
    rw [if_pos hpri] at hdict ⊢
    have hcounted := (counted_bump (s.passTo x.ackAt) (K.chs.ACK_LATE n)).of_rd_eq (s.passTo_rd_of_countsOn _ hcounts hin.lt)
    rw [Counted, State.rd, hdict]
    exact hcounted
  · have hdict := hparts .dict (by simp)
    rw [if_neg hpri] at hdict ⊢
    exact ((onlyRegs_passTo s _).trans (OnlyRegs.of_dict (rs := []) hdict)).mono (by simp)

/-- A reception of which nothing was accepted draws no acknowledgement. -/
theorem silent (hresolved : x.resolved = true) (hnone : x.acked = 0) :
    (s.ackSend r (x.wave != .ofdm) ready).rx? r = none ∧
    (s.ackSend r (x.wave != .ofdm) ready).line.frames = s.line.frames ∧
    OnlyChanges (timeParts ++ [.line]) s (s.ackSend r (x.wave != .ofdm) ready) := by
  obtain ⟨f, hf, hline⟩ := (s.passTo x.ackAt).setDue_modLine x false hin.members
  obtain ⟨-, hframes, -⟩ := hline (s.passTo x.ackAt).line
  rw [hin.ackSend_eq, hresolved, if_neg (by decide), if_pos hnone, hf]
  refine ⟨State.rx?_dropRx_self _ r, ?_, ?_⟩
  · exact hframes.trans (by rw [State.passTo_line])
  · exact (onlyChanges_passTo s _).trans ((onlyChanges_modLine _ f).chain (onlyChanges_dropRx _ r))

/-- The channel can send at the turn-round as it could before. -/
theorem atTurn (hserv : s.inService n = true)
    (hgap : (s.atDeadline x.ackAt).inGap (x.seg.getD 0) [n] x.ackAt (s.ackFrame x x.ackAt).stop = false) :
    ((s.passTo x.ackAt).setDue x false).inService n = true ∧
    ((s.passTo x.ackAt).setDue x false).inGap (x.seg.getD 0) [n] x.ackAt (s.ackFrame x x.ackAt).stop = false := by
  refine ⟨by rw [State.setDue_inService _ x false hin.members, State.inService_passTo, hserv], ?_⟩
  obtain ⟨f, hf, -⟩ := (s.passTo x.ackAt).setDue_modLine x false hin.members
  rw [hf]
  exact hgap

section Sends

variable (hresolved : x.resolved = true) (haccepted : x.acked ≠ 0) (hserv : s.inService n = true)
  (hgap : (s.atDeadline x.ackAt).inGap (x.seg.getD 0) [n] x.ackAt (s.ackFrame x x.ackAt).stop = false)

include hresolved haccepted hserv hgap

/-- Where its breakwater holds too few samples, the acknowledgement does not leave and is counted. -/
theorem short (hshort : n ∉ ready) :
    (s.ackSend r (x.wave != .ofdm) ready).rx? r = none ∧
    (s.ackSend r (x.wave != .ofdm) ready).line.frames = s.line.frames ∧
    Counted (K.chs.LATE_FRAME_COUNT n) s (s.ackSend r (x.wave != .ofdm) ready) ∧
    OnlyChanges (timeParts ++ [.line, .perf, .dict]) s (s.ackSend r (x.wave != .ofdm) ready) := by
  obtain ⟨-, hcounts, -⟩ := Reg.countsOn_of_acknowledgement n
  obtain ⟨f, hf, hline⟩ := (s.passTo x.ackAt).setDue_modLine x false hin.members
  obtain ⟨-, hframes, -⟩ := hline (s.passTo x.ackAt).line
  obtain ⟨hserv', hgap'⟩ := hin.atTurn hserv hgap
  have heq : s.ackSend r (x.wave != .ofdm) ready =
      ((((s.passTo x.ackAt).modLine f).event 9 0x05).bump (K.chs.LATE_FRAME_COUNT n)).dropRx r := by
    rw [hin.ackSend_eq, hresolved, if_neg (by decide), if_neg haccepted,
      State.sendAck_short hin.members hin.chan hgap' hserv' hshort, hf]
  rw [heq]
  refine ⟨State.rx?_dropRx_self _ r, ?_, ?_, ?_⟩
  · calc (((s.passTo x.ackAt).modLine f).event 9 0x05).line.frames = (f (s.passTo x.ackAt).line).frames := by
          rw [State.event_line]
          rfl
      _ = s.line.frames := hframes.trans (by rw [State.passTo_line])
  · have hcounted := counted_bump (((s.passTo x.ackAt).modLine f).event 9 0x05) (K.chs.LATE_FRAME_COUNT n)
    refine Counted.of_rd_eq hcounted ?_
    rw [State.rd, State.event_dict]
    exact s.passTo_rd_of_countsOn x.ackAt hcounts hin.lt
  · exact ((onlyChanges_passTo s _).trans ((((onlyChanges_modLine _ f).trans (onlyChanges_event _ _ _)).trans
      (onlyChanges_bump _ _)).trans (onlyChanges_dropRx _ r))).mono (by simp)

/-- The acknowledgement leaves on the channel at its turn-round. -/
theorem sends (hready : n ∈ ready) (hfree : isLane x.wave = true → s.onLane false [n] = [] ∧ (s.chan n).laneRx = none) :
    (s.ackSend r (x.wave != .ofdm) ready).now = max s.now x.ackAt ∧
    (s.ackSend r (x.wave != .ofdm) ready).rx? r = none ∧
    (s.ackSend r (x.wave != .ofdm) ready).frame? s.line.nextFrame =
      some { (s.passTo x.ackAt).ackFrame x x.ackAt with chans := [n] } ∧
    OnlyChanges (timeParts ++ [.line, .perf]) s (s.ackSend r (x.wave != .ofdm) ready) := by
  obtain ⟨f, hf, hline⟩ := (s.passTo x.ackAt).setDue_modLine x false hin.members
  obtain ⟨-, hframes, hnext⟩ := hline (s.passTo x.ackAt).line
  obtain ⟨hserv', hgap'⟩ := hin.atTurn hserv hgap
  have hfree' : isLane x.wave = true → ((s.passTo x.ackAt).setDue x false).onLane false [n] = [] ∧
      (((s.passTo x.ackAt).setDue x false).chan n).laneRx = none := by
    intro hlane
    obtain ⟨hnone, hrx⟩ := hfree hlane
    refine ⟨?_, ?_⟩
    · rw [← hnone, hf, State.onLane, State.framesWith, State.onLane, State.framesWith]
      congr 1
      exact hframes.trans (by rw [State.passTo_line])
    · rw [State.setDue_laneRx _ x false hin.members, State.chan_passTo, hrx]
  have heq : s.ackSend r (x.wave != .ofdm) ready =
      ((((s.passTo x.ackAt).modLine f).addFrame { (s.passTo x.ackAt).ackFrame x x.ackAt with chans := [n] }).2.eventC 9 0x01
        ((s.passTo x.ackAt).ackFrame x x.ackAt).pri).dropRx r := by
    rw [hin.ackSend_eq, hresolved, if_neg (by decide), if_neg haccepted,
      State.sendAck_ready hin.members hin.chan hgap' hserv' hready hfree', hf]
    rfl
  have hadds : OnlyChanges [.line] ((s.passTo x.ackAt).modLine f)
      (((s.passTo x.ackAt).modLine f).addFrame { (s.passTo x.ackAt).ackFrame x x.ackAt with chans := [n] }).2 := onlyChanges_modLine _ _
  have hparts : OnlyChanges [.line, .perf] (s.passTo x.ackAt) (s.ackSend r (x.wave != .ofdm) ready) := by
    rw [heq]
    exact ((((onlyChanges_modLine _ f).chain hadds).trans (onlyChanges_events _ _ _ _ _)).trans (onlyChanges_dropRx _ r)).mono (by simp)
  refine ⟨Eq.trans (hparts .now (by simp)) (s.passTo_now _), ?_, ?_, (onlyChanges_passTo s _).trans hparts⟩
  · rw [heq, State.rx?_dropRx_self]
  · rw [heq, ← s.passTo_line x.ackAt, ← hnext]
    exact (State.frame?_congr (State.eventC_line ..) _).trans (Tbl.at?_ins_self ..)

end Sends

end Asking

end Sys2Proof.Machine

end

section
/-! PROOF. O54: an acknowledgement that meets its frame, or its absence, settles the frame's MPDU (R109, R202, R203). -/

namespace Sys2Proof.Machine

theorem exec_ackReceive_of_running {s : State} (hrun : s.running = true) (f : Nat) (a : AckSeen) :
    exec (.ackReceive f a) s = .next ((s.ackReceive f a).modPending fun _ => s.pending) := whenRunning_of_running hrun _

/-- The command that closes the window of a frame, by its waveform (R109, R203). -/
theorem exec_ackExpiry_of_running {s : State} (hrun : s.running = true) (f : Nat) (x : TxFrame) :
    exec (if x.wave = .ofdm then .ackWindowExpiry f else .swellAckWindowExpiry f) s =
      .next ((s.ackExpiry f (x.wave != .ofdm)).modPending fun _ => s.pending) := by
  by_cases h : x.wave = .ofdm
  · rw [if_pos h, h]
    exact whenRunning_of_running hrun _
  · rw [if_neg h, bne_iff_ne.2 h]
    exact whenRunning_of_running hrun _

/-! What becomes of the MPDU of a command (R203, R209). -/

/-- The MPDU is on no frame, and free for another. -/
def Down.offFrame (d : Down) : Down := { d with frame := none }

/-- A command to a station in direct reach, other than LANE_SF_SET and LONG_REACH_SET, on a segment that does not wind down. -/
structure PlainCommand (d : Down) (s : State) : Prop where
  kind : d.kind = .command
  route : d.route = []
  lane : d.lane = false
  notLaneSf : ofLe (d.body.take 1) ≠ 7
  notLongReach : ofLe (d.body.take 1) ≠ 8
  steady : (s.seg d.seg).winding = false

namespace PlainCommand

variable {d : Down} {s : State} (hd : PlainCommand d s)

include hd

theorem downAcked (stop : Nat) : s.downAcked d stop = s.resolveDown d.id := by
  simp only [State.downAcked, hd.route, hd.kind, List.isEmpty_nil, if_true]
  cases d.entry with
  | none => rfl
  | some i => simp [State.commandAcked, hd.notLaneSf, hd.notLongReach]

/-- A command that drew no acknowledgement waits in the queue again, up to seven times. -/
theorem downUnacked_retries (htries : d.tries < 8) : s.downUnacked d = s.modDown d.id Down.offFrame := by
  simp only [State.downUnacked, State.legLive, hd.kind, hd.steady, Nat.not_le.2 htries]
  rfl

theorem downUnacked_abandons (htries : 8 ≤ d.tries) : s.downUnacked d = (s.bump (K.segs.MPDU_ABANDONED d.seg)).resolveDown d.id := by
  simp only [State.downUnacked, State.legLive, hd.kind, hd.steady, htries, State.downAbandoned, State.downLost, hd.lane]
  rfl

end PlainCommand

/-! A frame of the device that waits for its acknowledgement. -/

/-- Ended frame `f` to entry `i`, of the one command `d`, waits for its acknowledgement. -/
structure Awaiting (f i : Nat) (x : TxFrame) (d : Down) (s : State) : Prop where
  is : s.frame? f = some x
  ackReq : x.ackReq = true
  ended : x.ended = true
  entry : x.entry = some i
  cls : x.cls = none
  mpdus : x.mpdus = [d.id]
  queued : (s.mac.queue.find? fun e => e.id == d.id) = some d
  command : PlainCommand d s
  steady : (s.seg x.seg).winding = false

theorem State.settleFrame_onlyChanges (s : State) (f : Nat) (x : TxFrame) : OnlyChanges [.line] s (s.settleFrame f x) :=
  (onlyChanges_modLine s _).chain (onlyChanges_dropFrame _ f)

theorem State.settleFrame_frame? (s : State) (f : Nat) (x : TxFrame) : (s.settleFrame f x).frame? f = none :=
  State.frame?_dropFrame_self _ f

theorem State.settleFrame_ep (s : State) (f : Nat) (x : TxFrame) (i : Nat) : (s.settleFrame f x).ep i = s.ep i := rfl

theorem State.exchangeEnd_ep (s : State) (g t gap i : Nat) : (s.exchangeEnd g t gap).ep i = s.ep i := rfl

theorem State.exchangeEnd_winding (s : State) (g t gap k : Nat) : ((s.exchangeEnd g t gap).seg k).winding = (s.seg k).winding := by
  by_cases h : k = g
  · subst h
    have hseg : (s.exchangeEnd k t gap).seg k = { s.seg k with lastEnd := (t, gap) } :=
      Tbl.atD_modD_self Seg.reset s.mac.segs k fun y => { y with lastEnd := (t, gap) }
    rw [hseg]
  · exact congrArg Seg.winding (Tbl.atD_modD_ne Seg.reset s.mac.segs (fun y => { y with lastEnd := (t, gap) }) h)

theorem State.seg_congr {s t : State} (h : t.mac = s.mac) (g : Nat) : t.seg g = s.seg g := by rw [State.seg, h, State.seg]

/-- The frame is settled as its window closes, a miss in swell mode or on the lane counted. -/
def State.missed (s : State) (f : Nat) (x : TxFrame) : State :=
  (if x.wave != .ofdm then (s.passTo (s.ackWindow x).2).bump (K.chs.LANE_ACK_MISSED (x.chans.headD 0))
    else s.passTo (s.ackWindow x).2).settleFrame f x

section Missed

variable (s : State) (f : Nat) (x : TxFrame)

theorem State.missed_onlyChanges : OnlyChanges ([.dict] ++ [.line]) (s.passTo (s.ackWindow x).2) (s.missed f x) := by
  unfold State.missed
  split
  · exact (onlyChanges_bump _ _).trans (State.settleFrame_onlyChanges _ f x)
  · exact (State.settleFrame_onlyChanges _ f x).mono (by simp)

theorem State.missed_frame? : (s.missed f x).frame? f = none := State.settleFrame_frame? _ f x

theorem State.missed_mac : (s.missed f x).mac = s.mac := Eq.trans (s.missed_onlyChanges f x .mac (by simp)) (s.passTo_mac _)

theorem State.missed_queue : (s.missed f x).mac.queue = s.mac.queue := congrArg Mac.queue (s.missed_mac f x)

theorem State.missed_now : (s.missed f x).now = max s.now (s.ackWindow x).2 :=
  Eq.trans (s.missed_onlyChanges f x .now (by simp)) (s.passTo_now _)

theorem State.missed_dict : (s.missed f x).dict =
    (if x.wave != .ofdm then (s.passTo (s.ackWindow x).2).bump (K.chs.LANE_ACK_MISSED (x.chans.headD 0))
      else s.passTo (s.ackWindow x).2).dict := State.settleFrame_onlyChanges _ f x .dict (by simp)

/-- A miss in swell mode or on the lane is counted on the frame's first channel. -/
theorem State.missed_counted (hwave : x.wave ≠ .ofdm) (hn : x.chans.headD 0 < 256) :
    Counted (K.chs.LANE_ACK_MISSED (x.chans.headD 0)) s (s.missed f x) := by
  obtain ⟨-, -, hcounts⟩ := Reg.countsOn_of_acknowledgement (x.chans.headD 0)
  have hdict := s.missed_dict f x
  rw [if_pos (bne_iff_ne.2 hwave)] at hdict
  rw [Counted, State.rd, hdict]
  exact (counted_bump _ _).of_rd_eq (s.passTo_rd_of_countsOn _ hcounts hn)

/-- The count of a segment's abandoned MPDUs is no counter of a channel, nor one that time advances. -/
theorem State.missed_rd_abandoned {g : Nat} (hg : g < 64) :
    (s.missed f x).rd (K.segs.MPDU_ABANDONED g) = s.rd (K.segs.MPDU_ABANDONED g) := by
  have htime : (s.passTo (s.ackWindow x).2).rd (K.segs.MPDU_ABANDONED g) = s.rd (K.segs.MPDU_ABANDONED g) := by
    refine s.atDeadline_rd _ ?_ ?_
    · simp only [K.segs.MPDU_ABANDONED, K.times.UNSYNC_SECONDS]
      omega
    · simp only [K.segs.MPDU_ABANDONED, K.trks.PHASE_STEP_COUNT]
      omega
  have hne : (K.segs.MPDU_ABANDONED g).key ≠ (K.chs.LANE_ACK_MISSED (x.chans.headD 0)).key := by
    simp only [K.segs.MPDU_ABANDONED, K.chs.LANE_ACK_MISSED]
    omega
  rw [State.rd, s.missed_dict f x, ← htime]
  split
  · exact State.rd_bump_ne _ hne
  · rfl

end Missed

/-- The frame is settled at tick `a.start`, the delay of the link measured and the exchange ended (R197, R202, R217). -/
def State.met (s : State) (f i : Nat) (x : TxFrame) (a : AckSeen) : State :=
  if isLane x.wave then (s.passTo a.start).settleFrame f x
  else (((s.passTo a.start).modEp i fun e => e.measureTau (a.start - x.stop) x.turn).settleFrame f x).exchangeEnd x.seg
    (a.start + (if x.wave == .ofdm then ofdmHead else swellTicks false 2 0 x.sf 4)) (usTicks 20)

section Met

variable (s : State) (f i : Nat) (x : TxFrame) (a : AckSeen)

theorem State.met_onlyChanges : OnlyChanges ([.mac] ++ [.line] ++ [.mac]) (s.passTo a.start) (s.met f i x a) := by
  unfold State.met
  split
  · exact (State.settleFrame_onlyChanges _ f x).mono (by simp)
  · exact ((onlyChanges_modMac _ _).trans (State.settleFrame_onlyChanges _ f x)).trans (onlyChanges_modMac _ _)

theorem State.met_now : (s.met f i x a).now = max s.now a.start :=
  Eq.trans (s.met_onlyChanges f i x a .now (by simp)) (s.passTo_now _)

theorem State.met_frame? : (s.met f i x a).frame? f = none := by
  unfold State.met
  split
  · exact State.settleFrame_frame? _ f x
  · exact State.settleFrame_frame? _ f x

theorem State.met_queue : (s.met f i x a).mac.queue = s.mac.queue := by
  have hmac : (s.passTo a.start).mac.queue = s.mac.queue := by rw [State.passTo_mac]
  unfold State.met
  split
  · exact hmac
  · exact hmac

theorem State.met_winding (g : Nat) : ((s.met f i x a).seg g).winding = (s.seg g).winding := by
  have hseg : (s.passTo a.start).seg g = s.seg g := State.seg_congr (s.passTo_mac _) g
  unfold State.met
  split
  · exact congrArg Seg.winding hseg
  · rw [State.exchangeEnd_winding]
    exact congrArg Seg.winding hseg

theorem State.met_ep_ne {j : Nat} (h : j ≠ i) : (s.met f i x a).ep j = s.ep j := by
  have hep : (s.passTo a.start).ep j = s.ep j := State.ep_congr (s.passTo_mac _) j
  unfold State.met
  split
  · exact hep
  · rw [State.exchangeEnd_ep, State.settleFrame_ep, State.ep_modEp_ne _ _ h, hep]

theorem Ep.measureTau_known (e : Ep) (interval turnaround : Nat) : (e.measureTau interval turnaround).tauKnown = true := by
  unfold Ep.measureTau
  split
  · next h => exact h
  · rfl

/-- The acknowledgement measures the link's delay, but on the lane. -/
theorem State.met_tauKnown (hline : isLane x.wave = false) : ((s.met f i x a).ep i).tauKnown = true := by
  unfold State.met
  rw [hline, if_neg Bool.false_ne_true, State.exchangeEnd_ep, State.settleFrame_ep, State.ep_modEp_self, Ep.measureTau_known]

end Met

namespace Awaiting

variable {f i : Nat} {x : TxFrame} {d : Down} {s : State} (hin : Awaiting f i x d s)

include hin

theorem downsOf : s.downsOf x = [d] := by simp [State.downsOf, hin.mpdus, hin.queued]

/-- The command is judged on a state whose segments wind down as little as before. -/
theorem commandIn {t : State} (hwinding : ∀ g, (t.seg g).winding = (s.seg g).winding) : PlainCommand d t :=
  { hin.command with steady := (hwinding _).trans hin.command.steady }

/-- The window of the other mode is not the frame's. -/
theorem ackExpiry_of_other (swell : Bool) (h : (x.wave == .ofdm) = swell) : s.ackExpiry f swell = s := by
  simp [State.ackExpiry, hin.is, h]

theorem ackExpiry_eq : s.ackExpiry f (x.wave != .ofdm) = ((s.missed f x).downUnacked d).windLegs x.seg := by
  have hmode : ((x.wave == .ofdm) == (x.wave != .ofdm)) = false := by cases h : (x.wave == .ofdm) <;> simp [bne, h]
  simp only [State.ackExpiry, hin.is, hin.ackReq, hin.ended, hmode, hin.downsOf, hin.entry, hin.cls]
  rfl

/-- A window that passes puts the command back in the queue. -/
theorem ackExpiry_retries (htries : d.tries < 8) :
    s.ackExpiry f (x.wave != .ofdm) = (s.missed f x).modDown d.id Down.offFrame := by
  have hwinding : ∀ g, ((s.missed f x).seg g).winding = (s.seg g).winding := fun g => by rw [State.seg_congr (s.missed_mac f x)]
  rw [hin.ackExpiry_eq, (hin.commandIn hwinding).downUnacked_retries htries]
  exact State.windLegs_of_not_winding ((hwinding x.seg).trans hin.steady)

/-- After eight tries the command is abandoned. -/
theorem ackExpiry_abandons (htries : 8 ≤ d.tries) :
    s.ackExpiry f (x.wave != .ofdm) = ((s.missed f x).bump (K.segs.MPDU_ABANDONED d.seg)).resolveDown d.id := by
  have hwinding : ∀ g, ((s.missed f x).seg g).winding = (s.seg g).winding := fun g => by rw [State.seg_congr (s.missed_mac f x)]
  rw [hin.ackExpiry_eq, (hin.commandIn hwinding).downUnacked_abandons htries]
  exact State.windLegs_of_not_winding ((hwinding x.seg).trans hin.steady)

section Receive

variable (a : AckSeen)

theorem ackReceive_of_stranger (h : s.ackMeets x a (s.ep i).addr ((d.seq.getD 0) % 256) = false) : s.ackReceive f a = s := by
  simp [State.ackReceive, hin.is, hin.downsOf, hin.entry, h]

variable (hmeets : s.ackMeets x a (s.ep i).addr ((d.seq.getD 0) % 256) = true)

include hmeets

theorem ackReceive_eq : s.ackReceive f a = (if a.type = 2 || bitOf a.info 0 then (s.met f i x a).downAcked d x.stop
    else (s.met f i x a).downUnacked d).windLegs x.seg := by
  simp only [State.ackReceive, hin.is, hin.downsOf, hin.entry, hin.ackReq, hin.ended, hin.cls, State.met]
  cases isLane x.wave <;> simp [hmeets]

/-- The MPDU that an acknowledgement covers leaves the queue. -/
theorem ackReceive_covers (h : a.type = 2 ∨ bitOf a.info 0 = true) : s.ackReceive f a = (s.met f i x a).resolveDown d.id := by
  rw [hin.ackReceive_eq a hmeets, if_pos (by simpa using h), (hin.commandIn (s.met_winding f i x a)).downAcked]
  exact State.windLegs_of_not_winding ((s.met_winding f i x a x.seg).trans hin.steady)

/-- An MPDU that it does not cover goes back to the queue. -/
theorem ackReceive_leaves (htype : a.type ≠ 2) (hbit : bitOf a.info 0 = false) (htries : d.tries < 8) :
    s.ackReceive f a = (s.met f i x a).modDown d.id Down.offFrame := by
  rw [hin.ackReceive_eq a hmeets, if_neg (by simp [htype, hbit]), (hin.commandIn (s.met_winding f i x a)).downUnacked_retries htries]
  exact State.windLegs_of_not_winding ((s.met_winding f i x a x.seg).trans hin.steady)

end Receive

end Awaiting

end Sys2Proof.Machine

end

section
/-! PROOF. O54: the commands run in a running device, and the obligation. -/

namespace Sys2Proof.Machine

theorem onlyChanges_resolveDown (s : State) (id : Nat) : OnlyChanges [.mac] s (s.resolveDown id) := onlyChanges_modMac s _

theorem onlyChanges_modDown (s : State) (id : Nat) (f : Down → Down) : OnlyChanges [.mac] s (s.modDown id f) := onlyChanges_modMac s _

theorem State.resolveDown_queue {s t : State} (h : t.mac.queue = s.mac.queue) (id : Nat) :
    (t.resolveDown id).mac.queue = s.mac.queue.filter fun e => e.id ≠ id := by
  rw [← h]
  rfl

theorem State.modDown_queue {s t : State} (h : t.mac.queue = s.mac.queue) (id : Nat) (f : Down → Down) :
    (t.modDown id f).mac.queue = s.mac.queue.map fun e => if e.id = id then f e else e := by
  rw [← h]
  rfl

/-- Settles O54: the end of a reception frees its channel and keeps what is left to do, an acknowledgement is one branch of the turn-round
(`Asking`), and a frame of one command is settled by the acknowledgement that meets it or by the window that closes (`Awaiting`). -/
theorem receptionsEndAndAcknowledgementsResolve : Obligations.ReceptionsEndAndAcknowledgementsResolve := by
  unfold Obligations.ReceptionsEndAndAcknowledgementsResolve
  refine ⟨fun n r x m s hrun hlt hx hmembers hchan => ⟨fun hsettled => ?settled, fun hopen hline hrx => ?line,
    fun hopen hlane hrx hpayload hleft hack => ?lane, fun c ready hc => ?ack⟩,
    fun f i x d a s hrun hx hackReq hended hentry hcls hmpdus hqueued hkind _ hroute hdlane hsf hreach hwind hwind' => ?frame⟩
  case settled => exact exec_unchanged (exec_receptionEnd_of_running hrun r) (State.receptionEnd_of_settled hx hsettled)
  case line =>
    have hin : Single n r x m s := ⟨hlt, hrx, hx, hmembers, hchan, hline⟩
    have hexec := exec_receptionEnd_of_running hrun r
    refine ⟨fun hends => ?_, fun hpayload htype hleft => ?_, fun g i slot y hwave hpayload htype hsrc hsounding hslot hasked hnew => ?_⟩
    · have hstage : x.stage = .payload ∨ x.stage = .passive := by tauto
      have hquiet : x.wave ≠ .ofdm ∨ x.type ≠ 6 ∨ x.stage ≠ .payload := by
        rcases hends with hpassive | ⟨-, htype, -⟩
        · exact .inr (.inr (by simp [hpassive]))
        · exact .inr (.inl htype)
      have hdone : (x.closeWith (s.finalOf x)).done = true := by
        rcases hends with hpassive | ⟨-, -, hresolved, hack | hnone⟩ <;> simp [Reception.closeWith_done, *]
      obtain ⟨hfree, hfrozen, hwritten⟩ := hin.receptionEnd_frees hopen hstage
      exact ⟨_, hexec, hin.receptionEnd_now hopen hstage, hin.receptionEnd_gone hopen hstage hdone, hfree, hfrozen, hwritten,
        (hin.receptionEnd_onlyChanges hopen hstage hquiet).keptAt (by simp [timeParts])⟩
    · have hdone : (x.closeWith (s.finalOf x)).done = false := by
        rcases hleft with hwaits | ⟨hack, haccepted⟩ <;> simp [Reception.closeWith_done, *]
      obtain ⟨hfree, hfrozen, hwritten⟩ := hin.receptionEnd_frees hopen (.inl hpayload)
      exact ⟨_, hexec, hin.receptionEnd_now hopen (.inl hpayload), hin.receptionEnd_kept hopen (.inl hpayload) hdone, hfree, hfrozen,
        hwritten, (hin.receptionEnd_onlyChanges hopen (.inl hpayload) (.inr (.inl htype))).keptAt (by simp [timeParts])⟩
    · obtain ⟨hep, hothers⟩ := State.heardOut_sounding hwave hpayload htype hsrc hsounding hslot hasked hnew
      obtain ⟨hfree, -, -⟩ := hin.receptionEnd_frees hopen (.inl hpayload)
      have hend := hin.receptionEnd_onlyLine hopen (.inl hpayload)
      have hmac : (s.receptionEnd r).mac = (s.heardOut x).mac := hend .mac (by simp)
      have hparts := (onlyChanges_passTo s x.stop).trans (State.heardOut_onlyMac.trans hend)
      exact ⟨_, hexec, ⟨(State.ep_congr hmac i).trans hep, fun j hj => (State.ep_congr hmac j).trans (hothers j hj)⟩, hfree,
        hparts.keptAt (by simp [timeParts])⟩
  case lane =>
    obtain ⟨hfree, hdue, hparts⟩ :=
      State.receptionEnd_lane hx hmembers hchan hopen (.inl hpayload) hlane hrx hpayload hleft hack
    exact ⟨_, exec_receptionEnd_of_running hrun r, hfree, hdue, hparts.keptAt (by simp [timeParts])⟩
  case ack =>
    have hexec := exec_ackSend_of_running hrun r x ready
    subst hc
    refine ⟨fun hunasked => ?_, fun hfinished hack hlate => ?_, fun hfinished hack hresolved hnone => ?_,
      fun hfinished hack hresolved haccepted hserv hgap => ⟨fun hready hfree => ?_, fun hshort => ?_⟩⟩
    · exact exec_unchanged hexec (State.ackSend_of_unasked hx _ ready hunasked)
    · have hin : Asking n r x m s := ⟨hlt, hx, hmembers, hchan, hfinished, hack⟩
      obtain ⟨hnow, hx', hdue, hcounted, hregs, hparts⟩ := hin.late ready hlate
      exact ⟨_, hexec, hnow, hx', hdue, hcounted, hregs, hparts.keptAt (by simp [timeParts])⟩
    · have hin : Asking n r x m s := ⟨hlt, hx, hmembers, hchan, hfinished, hack⟩
      obtain ⟨hgone, hframes, hparts⟩ := hin.silent ready hresolved hnone
      exact ⟨_, hexec, hgone, hframes, hparts.keptAt (by simp [timeParts])⟩
    · have hin : Asking n r x m s := ⟨hlt, hx, hmembers, hchan, hfinished, hack⟩
      obtain ⟨hnow, hgone, hframe, hparts⟩ := hin.sends ready hresolved haccepted hserv hgap hready hfree
      exact ⟨_, _, hexec, hnow, hgone, hframe, rfl, x.ackAt_eq, (s.passTo x.ackAt).ackFrame_dst x x.ackAt, rfl,
        rfl, (s.passTo x.ackAt).ackFrame_type x x.ackAt, (s.passTo x.ackAt).ackFrame_tmi x x.ackAt,
        hparts.keptAt (by simp [timeParts])⟩
    · have hin : Asking n r x m s := ⟨hlt, hx, hmembers, hchan, hfinished, hack⟩
      obtain ⟨hgone, hframes, hcounted, hparts⟩ := hin.short ready hresolved haccepted hserv hgap hshort
      exact ⟨_, hexec, hgone, hframes, hcounted, hparts.keptAt (by simp [timeParts])⟩
  case frame =>
    have hin : Awaiting f i x d s :=
      ⟨hx, hackReq, hended, hentry, hcls, hmpdus, hqueued, ⟨hkind, hroute, hdlane, hsf, hreach, hwind'⟩, hwind⟩
    have hreceive := exec_ackReceive_of_running hrun f a
    refine ⟨fun hstranger => ?_, fun hmeets => ⟨fun hcovers => ?_, fun htype hbit htries => ?_⟩, fun c hc => ⟨fun htries => ?_,
      fun htries hseg hhead => ?_⟩, fun hwave => ?_, fun hwave => ?_⟩
    · exact exec_unchanged hreceive (hin.ackReceive_of_stranger a hstranger)
    · have hparts := ((onlyChanges_passTo s a.start).trans (s.met_onlyChanges f i x a)).trans (onlyChanges_resolveDown _ d.id)
      rw [hin.ackReceive_covers a hmeets hcovers] at hreceive
      exact ⟨_, hreceive, s.met_now f i x a, s.met_frame? f i x a, State.resolveDown_queue (s.met_queue f i x a) d.id,
        s.met_tauKnown f i x a, fun j hj => s.met_ep_ne f i x a hj, hparts.keptAt (by simp [timeParts])⟩
    · have hparts := ((onlyChanges_passTo s a.start).trans (s.met_onlyChanges f i x a)).trans (onlyChanges_modDown _ d.id Down.offFrame)
      rw [hin.ackReceive_leaves a hmeets htype hbit htries] at hreceive
      exact ⟨_, hreceive, s.met_frame? f i x a, State.modDown_queue (s.met_queue f i x a) d.id _,
        hparts.keptAt (by simp [timeParts])⟩
    · have hexec := exec_ackExpiry_of_running hrun f x
      have hparts := ((onlyChanges_passTo s _).trans (s.missed_onlyChanges f x)).trans (onlyChanges_modDown _ d.id Down.offFrame)
      rw [← hc, hin.ackExpiry_retries htries] at hexec
      exact ⟨_, hexec, s.missed_now f x, s.missed_frame? f x, State.modDown_queue (s.missed_queue f x) d.id _,
        fun hwave hhead => s.missed_counted f x hwave hhead, fun j => State.ep_congr (s.missed_mac f x) j,
        hparts.keptAt (by simp [timeParts])⟩
    · have hexec := exec_ackExpiry_of_running hrun f x
      have hparts := (((onlyChanges_passTo s _).trans (s.missed_onlyChanges f x)).trans
        (onlyChanges_bump _ (K.segs.MPDU_ABANDONED d.seg))).trans
        (onlyChanges_resolveDown _ d.id)
      rw [← hc, hin.ackExpiry_abandons htries] at hexec
      exact ⟨_, hexec, s.missed_frame? f x, State.resolveDown_queue (s.missed_queue f x) d.id,
        (counted_bump _ _).of_rd_eq (s.missed_rd_abandoned f x hseg), hparts.keptAt (by simp [timeParts])⟩
    · exact exec_unchanged (whenRunning_of_running hrun _) (hin.ackExpiry_of_other true (by simp [hwave]))
    · exact exec_unchanged (whenRunning_of_running hrun _) (hin.ackExpiry_of_other false (by simp [hwave]))

end Sys2Proof.Machine

end

section
/-! PROOF. O50 fails: the inner MPDU of a relayed association response that grants no link takes a free value as its SEQ. -/

namespace Sys2Proof.Machine

/-- A request that came through a repeater at address 1 has been refused (R212): the response, which is for no entry, waits to be relayed. -/
def relayedRefusal : Down :=
  { id := 0, seg := 0, entry := none, type := 5, pri := 1, kind := .assocResponse, body := assocBody 77 1 0xFFFE 0 0 0 0, seq := none,
    tries := 0, frame := none, lane := false, route := [1], inner := [], held := none }

/-- A segment in its first beacon period, with that repeater associated at entry 0, a loaded network key, and the response in the queue. -/
def relayingRefusal : State :=
  { State.reset with
    dict := [((K.seg.SEG_ENABLE 0).key, 1), ((K.seg.MEMBER_COUNT 0).key, 1), ((K.key.STATE 0).key, slotLoaded)]
    keys := { Keys.reset with slots := [(0, ⟨List.replicate 16 0, 2 ^ 31, 0, []⟩)] }
    mac := { Mac.reset with
      eps := [(0, { Ep.reset with addr := 1, state := epAssociated })]
      queue := [relayedRefusal]
      nextId := 1
      segs := [(0, { Seg.reset with period := some 0 })] } }

/-- The coordinator slots behind tick 1,000,000, up to the contention region. -/
def refusalStand : Stand := ⟨.coordinator, 682667, 8192000⟩

/-- The one trial there is, on map 0 (R174). -/
def refusalTrial : Trial := ⟨⟨3, ⟨0, 0, 3, 1580⟩⟩, 128, 100800⟩

/-- The frame that carries the response to the repeater. -/
def refusalFrame : TxFrame := relayingRefusal.ofdmTx 0 0 1000000 false [relayedRefusal] refusalTrial

theorem relayingRefusal_dropLanes : relayingRefusal.dropLanes 0 = relayingRefusal := rfl

theorem relayingRefusal_standAt : relayingRefusal.standAt 0 (relayingRefusal.ep 0).addr none 1000000 = some refusalStand := by
  decide +kernel

theorem relayingRefusal_linkReady : relayingRefusal.linkReady 0 = true := by decide +kernel

theorem relayingRefusal_planGroup : relayingRefusal.planGroup 0 0 = [relayedRefusal] := by decide +kernel

theorem relayingRefusal_planTrial :
    relayingRefusal.planTrial 0 1000000 (min 3000000 refusalStand.upto) false = some refusalTrial := by decide +kernel

theorem relayingRefusal_fill : relayingRefusal.fill refusalTrial.info [] [relayedRefusal] = [relayedRefusal] := by decide +kernel

theorem relayingRefusal_canStand : relayingRefusal.canStand refusalFrame refusalStand = true := by decide +kernel

/-- The plan builds the inner MPDU and advances the counter of free values (log entries 2 and 56). -/
theorem downlinkPlan_relayingRefusal_free : (relayingRefusal.downlinkPlan 0 0 1000000 3000000 false).free = 1 := by decide +kernel

theorem onCore_of_coreUp {s : State} {c : Nat} (h : s.coreUp c = true) (t : State) :
    onCore c s t = .next (t.modPending fun _ => s.pending) := by
  simp [onCore, keepQueue, h]

theorem exec_downlinkPlan_of_coreUp {s : State} {g : Nat} (h : s.coreUp (segCore g) = true) (i start stop : Nat) (ack : Bool) :
    exec (.downlinkPlan g i start stop ack) s = .next ((s.downlinkPlan g i start stop ack).modPending fun _ => s.pending) :=
  onCore_of_coreUp h _

/-- Refutes O50: a planned frame need not leave the free values as they were, since the response that it relays may be for no entry. -/
theorem not_plannedAndLaneFramesCarryTheirMpdus : ¬ Obligations.PlannedAndLaneFramesCarryTheirMpdus := by
  rintro ⟨hplans, -⟩
  obtain ⟨-, hentry, -⟩ := hplans 0 0 1000000 3000000 false relayingRefusal rfl
  obtain ⟨-, hstands⟩ := hentry relayingRefusal rfl (by decide) relayingRefusal_dropLanes.symm
  obtain ⟨hofdm, -⟩ := hstands refusalStand relayedRefusal [] relayingRefusal_standAt rfl rfl relayingRefusal_linkReady
    relayingRefusal_planGroup
  obtain ⟨t, w, ht, -, -, -, -, -, -, -, -, -, -, hkept⟩ := hofdm refusalTrial refusalFrame (by decide) rfl relayingRefusal_planTrial
    (by rw [relayingRefusal_fill]; rfl) (by rw [relayingRefusal_fill]; decide) relayingRefusal_canStand
  rw [exec_downlinkPlan_of_coreUp rfl] at ht
  obtain rfl := Host.Outcome.next.inj ht
  have hfree := hkept .free (by decide)
  rw [Part.Same, State.modPending_free, downlinkPlan_relayingRefusal_free] at hfree
  exact absurd hfree (by decide)

end Sys2Proof.Machine

end

section
/-! PROOF. O48 fails: a counter of the tone maps can stand where a member of an overlong member list does, and so wake a sleeper. -/

namespace Sys2Proof.Machine

/-! Members, and the part of the dictionary that they stand in. -/

theorem State.mem_members {s : State} {g n : Nat} :
    n ∈ s.members g ↔ ∃ p < s.rd (K.seg.MEMBER_COUNT g), s.rd (K.seg.MEMBER g p) = n := by
  simp [State.members]

theorem State.members_of_count {s : State} {g m : Nat} (h : s.rd (K.seg.MEMBER_COUNT g) = m + 1) :
    s.members g = s.rd (K.seg.MEMBER g 0) :: (List.range m).map fun p => s.rd (K.seg.MEMBER g (p + 1)) := by
  rw [State.members, h, List.range_succ_eq_map, List.map_cons, List.map_map]
  rfl

/-- Registers below those of the segments name no member. -/
theorem State.members_of_onlyRegs {rs : List Reg} {s t : State} (h : OnlyRegs rs s t) (hrs : ∀ r ∈ rs, r.key < 0x340000) (g : Nat) :
    t.members g = s.members g := by
  have hrd : ∀ r : Reg, 0x340000 ≤ r.key → t.rd r = s.rd r := fun r hr => h.rd fun hmem => by
    obtain ⟨q, hq, hkey⟩ := List.mem_map.1 hmem
    exact absurd (hrs q hq) (by omega)
  have hcount : t.rd (K.seg.MEMBER_COUNT g) = s.rd (K.seg.MEMBER_COUNT g) := hrd _ (by simp only [K.seg.MEMBER_COUNT]; omega)
  have hmember : ∀ p, t.rd (K.seg.MEMBER g p) = s.rd (K.seg.MEMBER g p) := fun p => hrd _ (by simp only [K.seg.MEMBER]; omega)
  simp only [State.members, hcount, hmember]

/-- A SUBSET of bit 0 alone names the first member. -/
theorem State.subsetOf_first {s : State} {i n : Nat} {ns : List Nat} (hsubset : (s.ep i).subset = 1)
    (hmembers : s.members (s.ep i).seg = n :: ns) : (s.subsetOf i fun _ => true) = [n] := by
  have hrest : (ns.zipIdx 1).filter (fun x => bitOf 1 x.2) = [] := by
    refine List.filter_eq_nil_iff.2 fun x hx => ?_
    have hpos : 1 ≤ x.2 := List.le_snd_of_mem_zipIdx hx
    have hdiv : 1 / 2 ^ x.2 = 0 := Nat.div_eq_of_lt (Nat.one_lt_two_pow (by omega))
    simp [bitOf, hdiv]
  have hfirst : bitOf 1 0 = true := rfl
  simp [State.subsetOf, hmembers, hsubset, List.zipIdx_cons, hfirst, hrest]

/-! What wakes a sleeper (R222). -/

/-- What of an entry says whether it sleeps and whether a wake is possible. -/
def Ep.wakeView (e : Ep) := (e.sleep, e.nextSleep, e.window, e.listen, e.laneSf, e.seg)

theorem State.asleep_congr {s t : State} {i : Nat} (hnow : t.now = s.now) (hep : (t.ep i).wakeView = (s.ep i).wakeView) :
    t.asleep i = s.asleep i := by
  simp only [Ep.wakeView, Prod.mk.injEq] at hep
  obtain ⟨hsleep, hnext, hwindow, hlisten, -, -⟩ := hep
  simp only [State.asleep, State.sleepNow, hnow, hsleep, hnext, hwindow, hlisten]

/-- An entry that checks the swell lane can be woken once its segment runs the lane. -/
theorem State.wakePossible_of_laneOn {s t : State} {i : Nat} (hnow : t.now = s.now) (hep : (t.ep i).wakeView = (s.ep i).wakeView)
    (hcheck : ((s.sleepNow (s.ep i)).check != 0 && (s.ep i).laneSf != 7) = true) (hlane : t.laneOn (s.ep i).seg = true) :
    t.wakePossible i = true := by
  simp only [Ep.wakeView, Prod.mk.injEq] at hep
  obtain ⟨hsleep, hnext, -, -, hsf, hseg⟩ := hep
  simp only [State.sleepNow] at hcheck
  simp only [State.wakePossible, State.sleepNow, State.hasLane, hnow, hsleep, hnext, hsf, hseg, hlane, Bool.and_true]
  exact hcheck

theorem Tbl.ins_ne_nil {α : Type} (t : Tbl α) (k : Nat) (v : α) : Tbl.ins t k v ≠ [] := fun h => by
  have hat := Tbl.at?_ins_self t k v
  rw [h] at hat
  cases hat

theorem State.toEntry_wakes {s : State} {i type pri : Nat} {kind : DownKind} {body : List Byte} {lane : Bool} (hpri : pri ≤ 1)
    (hasleep : s.asleep i = true) (hwake : s.wakePossible i = true) : (s.toEntry i type pri kind body lane).line.wakes ≠ [] := by
  intro hnone
  have hasleep' : ∀ d, (s.enqueue d).asleep i = true := fun _ => hasleep
  have hwake' : ∀ d, (s.enqueue d).wakePossible i = true := fun _ => hwake
  simp only [State.toEntry, State.callWake, hpri, hasleep', hwake', decide_true, Bool.and_true, if_true, State.modLine_line] at hnone
  exact Tbl.ins_ne_nil _ _ _ hnone

/-! The completion of a sounding, up to the maps that it computes (R177, R179). -/

/-- The negotiation of entry `i` has ended, and the pending maps of the one before it are free again. -/
def State.soundingTaken (s : State) (i : Nat) : State :=
  (s.freeHandles (s.ep i).mapPend).modEp i fun e => { e with mapPend := [0, 0, 0], sounding := none }

/-- An entry with its new pending maps `hs` and the means `base` of their classes. -/
def Ep.pending (hs : List Nat) (base : List (Option Nat)) (e : Ep) : Ep :=
  { e with mapPend := hs, pendSet := true, ceBase := base, ceRuns := [[], [], []] }

theorem State.soundingComplete_eq {s : State} {i : Nat} {x : Sounding} (hx : (s.ep i).sounding = some x)
    (hall : ((List.range 24).any fun k => bitOf x.mask k && !x.got.contains k) = false) (heard : List SoundSeen) :
    ∃ (hs : List Nat) (base : List (Option Nat)) (body : List Byte),
      s.soundingComplete i heard = (((s.soundingTaken i).takePages i false
        ((s.soundingTaken i).uplinkMaps i (heard.filter fun y => x.got.contains y.slot))).2.modEp i (Ep.pending hs base)).toEntry i 7 1
          .mapResponse body false := by
  simp only [State.soundingComplete, hx, hall, Bool.false_eq_true, if_false]
  exact ⟨_, _, _, rfl⟩

theorem State.freeHandles_onlyRegs (s : State) (hs : List Nat) :
    OnlyRegs [K.pool.PAGES_FREE, K.pool.PAGES_FREE_MIN] s (s.freeHandles hs) := by
  unfold State.freeHandles State.countPages
  exact ((OnlyRegs.of_dict (t := s.modMac _) rfl).wr _ (by simp)).wr _ (by simp)

theorem State.ep_soundingTaken (s : State) (i : Nat) :
    (s.soundingTaken i).ep i = { s.ep i with mapPend := [0, 0, 0], sounding := none } :=
  State.ep_modEp_self ..

theorem State.rd_soundingTaken (s : State) (i : Nat) {r : Reg} (h : r.key ∉ [K.pool.PAGES_FREE, K.pool.PAGES_FREE_MIN].map Reg.key) :
    (s.soundingTaken i).rd r = s.rd r :=
  (s.freeHandles_onlyRegs (s.ep i).mapPend).rd h

theorem State.soundingTaken_members (s : State) (i g : Nat) : (s.soundingTaken i).members g = s.members g :=
  State.members_of_onlyRegs (s.freeHandles_onlyRegs _) (by decide) g

theorem exec_soundingComplete_of_coreUp {s : State} {i : Nat} (h : s.coreUp (s.entryCore i) = true) (heard : List SoundSeen) :
    exec (.soundingComplete i heard) s = .next ((s.soundingComplete i heard).modPending fun _ => s.pending) :=
  onCore_of_coreUp h _

/-- The entry's new maps change nothing that says whether it sleeps and whether a wake is possible. -/
theorem State.wakeView_pending (s : State) (i : Nat) (c : Reg) (hs : List Nat) (base : List (Option Nat)) :
    ((((s.soundingTaken i).bump c).modEp i (Ep.pending hs base)).ep i).wakeView = (s.ep i).wakeView := by
  rw [State.ep_modEp_self, State.ep_congr (State.bump_mac _ _), State.ep_soundingTaken]
  rfl

/-! A map that finds no free page (R180). -/

theorem State.takePage_of_full {s : State} {r : MapRecord} (htmi : 2 ≤ r.tmi) (hfull : s.freePage = none) (i : Nat) (down : Bool) :
    s.takePage i down r = (0, s.bump (K.segs.TMAP_NO_PAGE (s.ep i).seg)) := by
  have h0 : r.tmi ≠ 0 := by omega
  have h1 : r.tmi ≠ 1 := by omega
  simp [State.takePage, h0, h1, hfull]

theorem State.takePages_of_full {s : State} {r : MapRecord} (hcls : r.cls = 0) (htmi : 2 ≤ r.tmi) (hfull : s.freePage = none) (i : Nat)
    (down : Bool) : (s.takePages i down [r]).2 = s.bump (K.segs.TMAP_NO_PAGE (s.ep i).seg) := by
  simp [State.takePages, hcls, State.takePage_of_full htmi hfull]

/-! The uplink maps of one sounded slot (R177). -/

theorem two_le_freshTmi (s : State) (hs taken : List Nat) : 2 ≤ s.freshTmi hs taken := by
  unfold State.freshTmi
  cases hfind : ((List.range 254).map (· + 2)).find?
    (fun t => !(((s.tmisOf hs).map (·.1) ++ taken).contains t)) with
  | none => simp
  | some t =>
    obtain ⟨k, -, rfl⟩ := List.mem_map.1 (List.mem_of_find?_eq_some hfind)
    simp

/-- At rate 0 alone there is one loading to choose. -/
theorem State.bestLoading_of_rate0 {s : State} {i : Nat} (h : (s.ep i).rateMax = 0) (snrs : List Nat) :
    s.bestLoading i snrs = (0, s.loadingAt i 0 snrs) := by
  simp [State.bestLoading, h]

/-- A slot of class 0 whose loading begins with one bit gets a map of its own, with a TMI from 2 up. -/
theorem State.uplinkMaps_of_one {s : State} {i : Nat} {y : SoundSeen} (hslot : y.slot < 24) (hcls : vectorClass (s.upVector i) y.slot = 0)
    (hrate : (s.ep i).rateMax = 0) (hload : (s.loadingAt i 0 (s.soundSnrs y)).getD 0 0 = 1) :
    ∃ r : MapRecord, s.uplinkMaps i [y] = [r] ∧ r.cls = 0 ∧ 2 ≤ r.tmi := by
  have hzero : s.classSnr (s.upVector i) 0 [y] = some (s.soundSnrs y) := by simp [State.classSnr, ofClass, hslot, hcls]
  have hone : s.classSnr (s.upVector i) 1 [y] = none := by simp [State.classSnr, ofClass, hcls]
  have htwo : s.classSnr (s.upVector i) 2 [y] = none := by simp [State.classSnr, ofClass, hcls]
  have hbit : ((s.loadingAt i 0 (s.soundSnrs y)).all (· == 0)) = false := by
    cases hl : s.loadingAt i 0 (s.soundSnrs y) with
    | nil => simp [hl] at hload
    | cons b bs =>
      have hb : b = 1 := by simpa [hl] using hload
      simp [hb]
  have hown : s.loadingAt i 0 (s.soundSnrs y) ≠ mapOneLoading := fun h => by
    have hmap : mapOneLoading.getD 0 0 = 2 := by simp [mapOneLoading]
    rw [h, hmap] at hload
    cases hload
  refine ⟨⟨0, s.freshTmi ((s.ep i).mapUp ++ (s.ep i).mapPend) [], 0, giFor (s.soundSpan [y]), s.loadingAt i 0 (s.soundSnrs y)⟩, ?_, rfl,
    two_le_freshTmi _ _ _⟩
  simp only [State.uplinkMaps, List.foldl, hzero, hone, htwo, State.bestLoading_of_rate0 hrate, hbit, hown, Bool.false_eq_true, if_false,
    decide_false, Bool.false_and, List.nil_append, List.map_nil]

/-! The counterexample: MEMBER_COUNT of 16,417, wider than its register, puts TMAP_NO_PAGE of segment 0 in the place of the last member. -/

/-- The one sounding frame that has been heard, strong on carrier 36. -/
def heardSlot : SoundSeen := { slot := 0, ce := [⟨0, [(1000, 0)], [(1000, 0)]⟩], symbols := [[⟨0, [(100000, 0)]⟩]] }

/-- The pages of the pool, all of them retired; not to be listed by evaluation. -/
@[irreducible] def everyPage : List Nat := List.range 16384

theorem mem_everyPage {p : Nat} (h : p < 16384) : p ∈ everyPage := by
  unfold everyPage
  exact List.mem_range.2 h

/-- A sleeper at entry 0 whose sounding is complete, on channel 0 without a lane, with a pool that has no usable page. -/
def soundedSleeper : State :=
  { State.reset with
    dict := [((K.seg.MEMBER_COUNT 0).key, 16417)]
    tides := [(0, { TideTable.reset with slots := [(0, { TideSlot.reset with cls := 0 })] })]
    mac := { Mac.reset with
      eps := [(0, { Ep.reset with state := 2, bMax := 1, subset := 1, sleep := ⟨60, 0, 24, 5⟩, sounding := some ⟨1, 3, [0]⟩ })]
      retiredPages := everyPage }
    line := { Line.reset with chans := [(0, { Channel.reset with swell := { SwellCfg.reset with on := false } })] } }

theorem rd_soundedSleeper {r : Reg} (h : r.key ≠ (K.seg.MEMBER_COUNT 0).key) : soundedSleeper.rd r = r.dflt := by
  simp [State.rd, Tbl.atD, Tbl.at?, soundedSleeper, Ne.symm h]

theorem rd_member_soundedSleeper (p : Nat) : soundedSleeper.rd (K.seg.MEMBER 0 p) = 0 :=
  rd_soundedSleeper (by simp only [K.seg.MEMBER, K.seg.MEMBER_COUNT]; omega)

theorem eq_zero_of_mem_members_soundedSleeper {n : Nat} (h : n ∈ soundedSleeper.members 0) : n = 0 := by
  obtain ⟨p, -, hp⟩ := State.mem_members.1 h
  exact hp.symm.trans (rd_member_soundedSleeper p)

theorem asleep_soundedSleeper : soundedSleeper.asleep 0 = true := by decide +kernel

theorem laneOn_soundedSleeper : soundedSleeper.laneOn 0 = false := by
  refine List.any_eq_false.2 fun n hn => ?_
  rw [eq_zero_of_mem_members_soundedSleeper hn]
  decide

theorem wakePossible_soundedSleeper : soundedSleeper.wakePossible 0 = false := by
  have hlane : soundedSleeper.laneOn (soundedSleeper.ep 0).seg = false := laneOn_soundedSleeper
  simp [State.wakePossible, State.hasLane, hlane]

theorem members_taken : (soundedSleeper.soundingTaken 0).members 0 = soundedSleeper.members 0 :=
  State.soundingTaken_members _ _ _

theorem freePage_taken : (soundedSleeper.soundingTaken 0).freePage = none := by
  refine Option.map_eq_none_iff.2 (List.find?_eq_none.2 fun k hk => ?_)
  have hmem : k + 2 ∈ (soundedSleeper.soundingTaken 0).mac.retiredPages :=
    mem_everyPage (by have := List.mem_range.1 hk; omega)
  simp [hmem]

theorem rd_taken {r : Reg} (h : r.key ≠ (K.seg.MEMBER_COUNT 0).key)
    (hpool : r.key ∉ [K.pool.PAGES_FREE, K.pool.PAGES_FREE_MIN].map Reg.key) : (soundedSleeper.soundingTaken 0).rd r = r.dflt :=
  (State.rd_soundingTaken _ _ hpool).trans (rd_soundedSleeper h)

theorem seg_taken : ((soundedSleeper.soundingTaken 0).ep 0).seg = 0 := by
  rw [State.ep_soundingTaken]
  rfl

theorem upVector_taken : vectorClass ((soundedSleeper.soundingTaken 0).upVector 0) 0 = 0 := by
  have hsubset : ((soundedSleeper.soundingTaken 0).ep 0).subset = 1 := by
    rw [State.ep_soundingTaken]
    rfl
  have hmembers := members_taken.trans (State.members_of_count (s := soundedSleeper) (g := 0) (m := 16416) rfl)
  rw [rd_member_soundedSleeper] at hmembers
  rw [State.upVector, State.subsetOf_first hsubset (by rw [seg_taken]; exact hmembers)]
  decide +kernel

theorem segMasked_taken : (soundedSleeper.soundingTaken 0).segMasked 0 36 = false := by
  refine List.any_eq_false.2 fun n hn => ?_
  rw [members_taken] at hn
  rw [eq_zero_of_mem_members_soundedSleeper hn]
  decide

theorem State.loadingAt_head (s : State) (i r : Nat) (snrs : List Nat) (h : s.segMasked (s.ep i).seg 36 = false) :
    (s.loadingAt i r snrs).getD 0 0 = bitsFor (snrs.getD 0 0) r (s.rd (K.seg.MAP_MARGIN (s.ep i).seg)) (s.ep i).bMax := by
  simp [State.loadingAt, h]

theorem loadingAt_taken : ((soundedSleeper.soundingTaken 0).loadingAt 0 0 ((soundedSleeper.soundingTaken 0).soundSnrs heardSlot)).getD 0 0 = 1 := by
  rw [State.loadingAt_head _ _ _ _ (by rw [seg_taken]; exact segMasked_taken), seg_taken, State.ep_soundingTaken]
  have hmargin : (soundedSleeper.soundingTaken 0).rd (K.seg.MAP_MARGIN 0) = (K.seg.MAP_MARGIN 0).dflt := rd_taken (by decide) (by decide)
  rw [hmargin]
  decide +kernel

/-- TMAP_NO_PAGE counts to 1, and is the member that makes the lane of channel 1 the segment's. -/
theorem laneOn_noPage : ((soundedSleeper.soundingTaken 0).bump (K.segs.TMAP_NO_PAGE 0)).laneOn 0 = true := by
  have hcount : ((soundedSleeper.soundingTaken 0).bump (K.segs.TMAP_NO_PAGE 0)).rd (K.seg.MEMBER_COUNT 0) = 16417 := by
    rw [State.rd_bump_ne _ (by decide)]
    exact State.rd_soundingTaken _ _ (by decide)
  have hone : ((soundedSleeper.soundingTaken 0).bump (K.segs.TMAP_NO_PAGE 0)).rd (K.seg.MEMBER 0 16416) = 1 := by
    show ((soundedSleeper.soundingTaken 0).bump (K.segs.TMAP_NO_PAGE 0)).rd (K.segs.TMAP_NO_PAGE 0) = 1
    rw [State.rd_bump_self, rd_taken (by decide) (by decide)]
    rfl
  exact List.any_eq_true.2 ⟨1, State.mem_members.2 ⟨16416, by omega, hone⟩, by decide⟩

theorem soundingComplete_soundedSleeper_wakes : (soundedSleeper.soundingComplete 0 [heardSlot]).line.wakes ≠ [] := by
  obtain ⟨hs, base, body, hcomplete⟩ := State.soundingComplete_eq (s := soundedSleeper) (i := 0) rfl (by decide) [heardSlot]
  obtain ⟨r, hmaps, hcls, htmi⟩ := State.uplinkMaps_of_one (s := soundedSleeper.soundingTaken 0) (i := 0) (y := heardSlot) (by decide)
    upVector_taken rfl loadingAt_taken
  rw [hcomplete]
  have hheard : ([heardSlot].filter fun y => [0].contains y.slot) = [heardSlot] := rfl
  rw [hheard, hmaps, State.takePages_of_full hcls htmi freePage_taken]
  rw [seg_taken]
  have hview := State.wakeView_pending soundedSleeper 0 (K.segs.TMAP_NO_PAGE 0) hs base
  exact State.toEntry_wakes (by decide) ((State.asleep_congr (by rfl) hview).trans asleep_soundedSleeper)
    (State.wakePossible_of_laneOn (by rfl) hview (by decide) laneOn_noPage)

/-- Refutes O48: with a member list longer than MEMBER_COUNT's width allows, the count in TMAP_NO_PAGE of the map that finds no page
makes a channel with a lane a member, so the response wakes a sleeper for which no wake was possible before the command. -/
theorem not_negotiationsSoundComputeAndInstallMaps : ¬ Obligations.NegotiationsSoundComputeAndInstallMaps := by
  intro h
  obtain ⟨-, -, -, hsounding, -⟩ := h 0 soundedSleeper rfl (by decide)
  obtain ⟨-, -, -, hcomplete⟩ := hsounding ⟨1, 3, [0]⟩ rfl
  obtain ⟨t, body, ht, -, -, -, -, ⟨d, -, -, -, -, -, -, -, -, -, hwake⟩, -⟩ := hcomplete (by decide) [heardSlot]
  rw [exec_soundingComplete_of_coreUp rfl] at ht
  obtain rfl := Host.Outcome.next.inj ht
  have hsame := (hwake le_rfl).2 (.inr wakePossible_soundedSleeper)
  rw [State.modPending_line] at hsame
  exact soundingComplete_soundedSleeper_wakes hsame

end Sys2Proof.Machine

end

section
/-! PROOF. O34 fails: the counter that passing time advances can stand where a member of an overlong member list does. -/

namespace Sys2Proof.Machine

theorem State.takeStep_of_none {s : State} (h : s.tracker.step = none) (t : Nat) : s.takeStep t = s := by
  simp [State.takeStep, h]

theorem State.tideTable_passTo {s : State} (h : s.tracker.step = none) (t n : Nat) : (s.passTo t).tideTable n = s.tideTable n := by
  unfold State.passTo
  split
  · rfl
  · rw [State.takeStep_of_none (by simp [h])]
    simp [State.tideTable]

/-- A missed occurrence on a channel of no enabled segment asks no coordinator for a gap. -/
theorem State.tideMissed_mac_of_segOf {s : State} {n i : Nat} (h : s.segOf n = none) (f : TideTable → TideTable) :
    ((s.modTideTable n f).tideMissed n i).mac = s.mac := by
  have hcounted : ∀ g h : TideSlot → TideSlot, (((s.modTideTable n f).modTide n i g).modTide n i h).segOf n = none :=
    fun _ _ => (State.segOf_congr rfl n).trans h
  simp only [State.tideMissed, hcounted]
  split <;> rfl

/-- A slot that ends without four windows on a channel that is then in no enabled segment leaves the coordinators as they were. -/
theorem State.tideSlotEnd_mac_of_segOf {s : State} {n i : Nat} (hwindows : (s.tideTable n).windows = []) (hstep : s.tracker.step = none)
    (h : (s.passTo (s.slotEnd n i)).segOf n = none) : (s.tideSlotEnd n i).mac = s.mac := by
  have hnone : ((s.passTo (s.slotEnd n i)).tideTable n).windows = [] := by
    rw [State.tideTable_passTo hstep, hwindows]
  simp only [State.tideSlotEnd, hnone, List.filter_nil, List.map_nil, List.length_nil, Nat.reduceLeDiff, if_false]
  split
  · rfl
  · rw [State.tideMissed_mac_of_segOf h, State.passTo_mac]

theorem State.segOf_eq_zero {s : State} {n : Nat} (hsegment : s.segEnabled 0 = true) (hmember : n ∈ s.members 0) : s.segOf n = some 0 := by
  simp [State.segOf, List.range_succ_eq_map, hsegment, hmember]

theorem State.staleCycles_of_tideSeg {s : State} {n g : Nat} (h : s.tideSeg n = some g) :
    s.staleCycles n = s.rd (K.seg.STALE_CYCLES g) := by
  simp only [State.staleCycles, h]

/-- Segment 0 is coupled with NID 1 while domain time is not synchronised, so that UNSYNC_SECONDS advances with each second (R420). Its
MEMBER_COUNT, wider than the register, makes UNSYNC_SECONDS its last member: 1 until the end of slot 23 in one tick, 2 from then on. In that
slot channel 1 has missed as many occurrences as it can before it is stale. -/
def staleSlotSegment : State :=
  { State.reset with
    now := 409599999
    dict := [((K.seg.SEG_ENABLE 0).key, 1), ((K.seg.MEMBER_COUNT 0).key, 4010249), (K.times.UNSYNC_SECONDS.key, 1)]
    domain := { Domain.reset with heard := [(1, ⟨65536 * 10 ^ 6, 0⟩)] }
    tides := [(1, { TideTable.reset with slots := [(23, { TideSlot.reset with missed := 255 })] })] }

theorem segOf_staleSlotSegment : staleSlotSegment.segOf 1 = some 0 :=
  State.segOf_eq_zero rfl (State.mem_members.2 ⟨4010248, by decide, by decide⟩)

theorem tideSeg_staleSlotSegment : staleSlotSegment.tideSeg 1 = some 0 := by
  rw [State.tideSeg, segOf_staleSlotSegment]
  rfl

theorem slotEnd_staleSlotSegment : staleSlotSegment.slotEnd 1 23 = 409600000 := by
  have hoffset : staleSlotSegment.tideOffset 1 = 0 := by
    rw [State.tideOffset, tideSeg_staleSlotSegment]
    rfl
  simp only [State.slotEnd, hoffset]
  decide +kernel

theorem rd_staleSlotSegment {r : Reg} (h : r.key ∉ [(K.seg.SEG_ENABLE 0).key, (K.seg.MEMBER_COUNT 0).key, K.times.UNSYNC_SECONDS.key]) :
    staleSlotSegment.rd r = r.dflt := by
  simp only [List.mem_cons, List.not_mem_nil, or_false, not_or] at h
  obtain ⟨hsegment, hcount, hunsync⟩ := h
  simp [State.rd, Tbl.atD, Tbl.at?, staleSlotSegment, Ne.symm hsegment, Ne.symm hcount, Ne.symm hunsync]

theorem staleCycles_staleSlotSegment : staleSlotSegment.staleCycles 1 ≤ (staleSlotSegment.tide 1 23).missed + 1 := by
  rw [State.staleCycles_of_tideSeg tideSeg_staleSlotSegment, rd_staleSlotSegment (by decide)]
  decide

theorem rd_unsyncSeconds_slotEnd : (staleSlotSegment.passTo 409600000).rd K.times.UNSYNC_SECONDS = 2 := by decide +kernel

/-- At the slot's end every member is channel 0 or channel 2. -/
theorem one_notMem_members_slotEnd : 1 ∉ (staleSlotSegment.passTo 409600000).members 0 := by
  intro hmem
  obtain ⟨p, -, hp⟩ := State.mem_members.1 hmem
  by_cases hkey : (K.seg.MEMBER 0 p).key = K.times.UNSYNC_SECONDS.key
  · have hunsync : (staleSlotSegment.passTo 409600000).rd (K.seg.MEMBER 0 p) = 2 := by
      rw [State.rd, hkey]
      exact rd_unsyncSeconds_slotEnd
    rw [hunsync] at hp
    cases hp
  · have hzero : (staleSlotSegment.passTo 409600000).rd (K.seg.MEMBER 0 p) = 0 :=
      (State.atDeadline_rd _ _ hkey (by simp only [K.seg.MEMBER, K.trks.PHASE_STEP_COUNT]; omega)).trans (rd_staleSlotSegment (by
        simp only [List.mem_cons, List.not_mem_nil, or_false, not_or]
        exact ⟨by simp only [K.seg.MEMBER, K.seg.SEG_ENABLE]; omega, by simp only [K.seg.MEMBER, K.seg.MEMBER_COUNT]; omega, hkey⟩))
    rw [hzero] at hp
    cases hp

theorem segOf_slotEnd : (staleSlotSegment.passTo 409600000).segOf 1 = none := by
  refine List.find?_eq_none.2 fun g hg => ?_
  by_cases hg0 : g = 0
  · subst hg0
    simp [one_notMem_members_slotEnd]
  · have hg64 := List.mem_range.1 hg
    have hoff : (staleSlotSegment.passTo 409600000).rd (K.seg.SEG_ENABLE g) = 0 :=
      (State.atDeadline_rd _ _ (by simp only [K.seg.SEG_ENABLE, K.times.UNSYNC_SECONDS]; omega)
        (by simp only [K.seg.SEG_ENABLE, K.trks.PHASE_STEP_COUNT]; omega)).trans (rd_staleSlotSegment (by
          simp only [K.seg.SEG_ENABLE, K.seg.MEMBER_COUNT, K.times.UNSYNC_SECONDS, List.mem_cons, List.not_mem_nil, or_false, not_or]
          omega))
    simp [State.segEnabled, State.flag, hoff]

theorem exec_tideSlotEnd_of_coreUp {s : State} (h : s.coreUp 7 = true) (n i : Nat) :
    exec (.tideSlotEnd n i) s = .next ((s.tideSlotEnd n i).modPending fun _ => s.pending) :=
  onCore_of_coreUp h _

theorem tideSlotEnd_staleSlotSegment_mac : (staleSlotSegment.tideSlotEnd 1 23).mac = staleSlotSegment.mac :=
  State.tideSlotEnd_mac_of_segOf (s := staleSlotSegment) (n := 1) (i := 23) rfl rfl (by rw [slotEnd_staleSlotSegment]; exact segOf_slotEnd)

/-- Refutes O34: with a member list longer than MEMBER_COUNT's width allows, the slot's end can fall in the second whose count in
UNSYNC_SECONDS takes the channel out of the segment, and then no segment is asked for the gap that the statement promises to the segment
that the channel was bound to before. -/
theorem not_trackerAndTidesFollowTheMains : ¬ Obligations.TrackerAndTidesFollowTheMains := by
  rintro ⟨-, -, hslots⟩
  obtain ⟨-, -, hmissed⟩ := hslots 1 23 _ _ [] _ staleSlotSegment rfl rfl rfl rfl rfl
  obtain ⟨t, ht, -, -, hgap, -⟩ := hmissed rfl (by decide) rfl (by decide)
  rw [exec_tideSlotEnd_of_coreUp (s := staleSlotSegment) rfl] at ht
  obtain rfl := Host.Outcome.next.inj ht
  have hgaps := congrArg Seg.gaps (hgap 0 rfl staleCycles_staleSlotSegment segOf_staleSlotSegment)
  rw [State.seg, State.modPending_mac, tideSlotEnd_staleSlotSegment_mac] at hgaps
  exact List.cons_ne_nil _ _ hgaps.symm

end Sys2Proof.Machine

end

section
/-! PROOF. O45 fails: PRESENT opens the downlink service of its sleeper, and a bridged downlink that waited for it is judged again (R221, R252):
one without a path is dropped and counted. -/

namespace Sys2Proof.Machine

/-- A bridged downlink at P1 to entry 3, held back because its endpoint sleeps. -/
def sleptBridge : Down :=
  { id := 0, seg := 0, entry := some 3, type := 1, pri := 1, kind := .bridged, body := [], seq := none, tries := 0, frame := none,
    lane := false, route := [], inner := [], held := some causeAsleep }

/-- Segment 0 in its first beacon period, with a sleeper associated at entry 3 that has lost its route while that downlink waited for it. -/
def routelessSleeper : State :=
  { State.reset with
    dict := [((K.seg.SEG_ENABLE 0).key, 1)]
    mac := { Mac.reset with
      eps := [(3, { Ep.reset with addr := 1, state := epAssociated, sleep := ⟨3600, 1, 4, 0⟩ })]
      queue := [sleptBridge]
      nextId := 1
      segs := [(0, { Seg.reset with period := some 0 })] } }

theorem routelessSleeper_asleep : routelessSleeper.asleep 3 = true := by decide +kernel

/-- The downlink's drop is counted (R252). -/
theorem bridgeDrop_present_routelessSleeper :
    ((routelessSleeper.takeCommitted 3 []).present 3).rd (K.segs.BRIDGE_DROP 0) = 1 := by decide +kernel

theorem exec_present_of_coreUp {s : State} {i : Nat} (h : s.coreUp (s.entryCore i) = true) :
    exec (.present i) s = .next (((s.takeCommitted i []).present i).modPending fun _ => s.pending) :=
  onCore_of_coreUp h _

/-- Refutes O45: a sleeper without open legs may have a bridged downlink held back, and PRESENT lets it be judged again; here it is dropped,
which advances two counters of the dictionary, while the statement lets the medium access alone change. -/
theorem not_endpointCommandsHaveTheirEffects : ¬ Obligations.EndpointCommandsHaveTheirEffects := by
  rintro ⟨hcommands, -⟩
  obtain ⟨-, -, -, -, hpresent, -⟩ := hcommands 3 [] routelessSleeper rfl
  obtain ⟨-, hasleep⟩ := hpresent rfl
  obtain ⟨t, ht, -, -, hkept⟩ := hasleep 0 rfl routelessSleeper_asleep rfl
  rw [exec_present_of_coreUp rfl] at ht
  obtain rfl := Host.Outcome.next.inj ht
  have hdict : ((routelessSleeper.takeCommitted 3 []).present 3).dict = routelessSleeper.dict := hkept .dict (by decide)
  have hdrop := bridgeDrop_present_routelessSleeper
  rw [State.rd, hdict] at hdrop
  exact absurd hdrop (by decide)

end Sys2Proof.Machine

end

section
/-! PROOF. The rules of the operations on endpoint entries, their pages, routes and queued MPDUs: the parts and registers that each may
change, and what it leaves of an entry (R180, R203, R213, R222, R240, R241, R295). -/

namespace Sys2Proof.Machine

section Rules

variable (s : State)

theorem onlyChanges_modEp (i : Nat) (f : Ep → Ep) : OnlyChanges [.mac] s (s.modEp i f) := onlyChanges_modMac s _

theorem onlyChanges_bumpBy (r : Reg) (n : Nat) : OnlyChanges [.dict] s (s.bumpBy r n) := onlyChanges_modDict s _

theorem onlyRegs_bumpBy (r : Reg) (n : Nat) : OnlyRegs [r] s (s.bumpBy r n) := (OnlyRegs.refl [r] s).wr _ (by simp)

theorem onlyChanges_modFlash (f : Flash → Flash) : OnlyChanges [.flash] s (s.modFlash f) := by
  intro p hp
  cases p <;> simp_all [Part.Same]

theorem onlyChanges_modDomain (f : Domain → Domain) : OnlyChanges [.domain] s (s.modDomain f) := by
  intro p hp
  cases p <;> simp_all [Part.Same]

theorem State.rd_congr {s t : State} (h : t.dict = s.dict) (r : Reg) : t.rd r = s.rd r := by rw [State.rd, h, State.rd]

theorem State.rd_modEp (i : Nat) (f : Ep → Ep) (r : Reg) : (s.modEp i f).rd r = s.rd r := rfl

theorem State.legsOf_congr {s t : State} (h : t.txn = s.txn) (i : Nat) : t.legsOf i = s.legsOf i := by
  rw [State.legsOf, h, State.legsOf]

/-! Frames that are cancelled and MPDUs that are withdrawn (R203, R295). -/

theorem State.cancelFrame_onlyMacLine (f : Nat) : OnlyChanges [.mac, .line] s (s.cancelFrame f) := by
  have hqueue : ∀ b, OnlyChanges [.mac] s (s.requeue f b) := fun _ => onlyChanges_modMac s _
  unfold State.cancelFrame
  split
  · exact (OnlyChanges.refl s).mono (by simp)
  · split
    · exact (OnlyChanges.refl s).mono (by simp)
    · dsimp only
      split
      · exact (hqueue _).trans (onlyChanges_modFrame _ _ _)
      · exact (hqueue _).trans (onlyChanges_dropFrame _ _)

theorem State.cancelFrame_ep (f i : Nat) : (s.cancelFrame f).ep i = s.ep i := by
  unfold State.cancelFrame
  split
  · rfl
  · split
    · rfl
    · dsimp only
      split <;> rfl

theorem State.withdrawEntry_onlyChanges (i : Nat) : OnlyChanges [.mac, .line] s (s.withdrawEntry i) :=
  ((OnlyChanges.foldl s (fun t f => t.cancelFrame_onlyMacLine f) _).trans (onlyChanges_modMac _ _)).mono (by simp)

theorem State.withdrawEntry_ep (i j : Nat) : (s.withdrawEntry i).ep j = s.ep j :=
  State.foldl_keeps (·.ep j) State.cancelFrame (fun t f => t.cancelFrame_ep f j) _ s

/-- What still waits for an entry once its MPDUs are withdrawn is on a frame. -/
theorem State.withdrawEntry_queue {i : Nat} {d : Down} (hd : d ∈ (s.withdrawEntry i).mac.queue) (hi : d.entry = some i) :
    d.frame.isSome = true := by
  have hkept := (List.mem_filter.1 hd).2
  simpa [hi] using hkept

theorem State.dropBridged_onlyChanges (i : Nat) : OnlyChanges [.mac, .dict] s (s.dropBridged i) :=
  (onlyChanges_modMac s _).trans (onlyChanges_bumpBy _ _ _)

theorem State.dropBridged_onlyRegs (i : Nat) : OnlyRegs [K.segs.BRIDGE_DROP (s.ep i).seg] s (s.dropBridged i) :=
  onlyRegs_bumpBy (s.withdraw (bridgedTo i)) _ _

theorem State.dropBridged_ep (i j : Nat) : (s.dropBridged i).ep j = s.ep j := rfl

/-- An entry without open legs has none refused. -/
theorem State.refuseLegs_of_noLegs {s : State} {i : Nat} (h : s.legsOf i = []) (cause : Nat) (p : Leg → Bool) :
    s.refuseLegs i cause p = s := by
  rw [State.refuseLegs, h, List.foldl_nil]

/-! The pages and the journal of an entry (R180, R340). -/

theorem State.freeHandles_onlyChanges (hs : List Nat) : OnlyChanges [.mac, .dict] s (s.freeHandles hs) :=
  (((onlyChanges_modMac s _).trans (onlyChanges_wr _ _ _)).trans (onlyChanges_wr _ _ _)).mono (by simp)

theorem State.freeEpPages_onlyChanges (i : Nat) : OnlyChanges [.mac, .dict] s (s.freeEpPages i) :=
  ((s.freeHandles_onlyChanges _).trans (onlyChanges_modEp _ _ _)).mono (by simp)

theorem State.freeEpPages_onlyRegs (i : Nat) : OnlyRegs [K.pool.PAGES_FREE, K.pool.PAGES_FREE_MIN] s (s.freeEpPages i) :=
  s.freeHandles_onlyRegs _

/-- An entry without maps. -/
def Ep.unmapped (e : Ep) : Ep := { e with mapUp := [0, 0, 0], mapPend := [0, 0, 0], mapDn := [0, 0, 0] }

theorem State.freeEpPages_ep (i : Nat) : (s.freeEpPages i).ep i = (s.ep i).unmapped := State.ep_modEp_self ..

theorem State.freeEpPages_queue (i : Nat) : (s.freeEpPages i).mac.queue = s.mac.queue := rfl

theorem State.journalEp_onlyChanges (i : Nat) : OnlyChanges [.flash] s (s.journalEp i) := by
  unfold State.journalEp
  split
  · exact (OnlyChanges.refl s).mono (by simp)
  · exact onlyChanges_modFlash s _

theorem State.journalEp_mac (i : Nat) : (s.journalEp i).mac = s.mac := s.journalEp_onlyChanges i .mac (by simp)

theorem State.journalEp_dict (i : Nat) : (s.journalEp i).dict = s.dict := s.journalEp_onlyChanges i .dict (by simp)

/-! MPDUs to an entry (R209, R222). -/

theorem State.callWake_onlyChanges (i pri : Nat) : OnlyChanges [.line] s (s.callWake i pri) := by
  unfold State.callWake
  split
  · exact onlyChanges_modLine s _
  · exact (OnlyChanges.refl s).mono (by simp)

theorem State.sendCommand_onlyChanges (i : Nat) (kind : DownKind) (body : List Byte) :
    OnlyChanges [.mac, .line] s (s.sendCommand i kind body) :=
  (onlyChanges_modMac s _).trans (State.callWake_onlyChanges _ _ _)

/-- A command is queued last, and nothing else of the medium access changes but the next number. -/
theorem State.sendCommand_mac (i : Nat) (kind : DownKind) (body : List Byte) : (s.sendCommand i kind body).mac =
    { s.mac with
      queue := s.mac.queue ++ [⟨s.mac.nextId, (s.ep i).seg, some i, 8, 1, kind, body, none, 0, none, false, (s.ep i).hops, [], none⟩]
      nextId := s.mac.nextId + 1 } :=
  State.callWake_onlyChanges _ i 1 .mac (by simp)

theorem State.sendCommand_ep (i : Nat) (kind : DownKind) (body : List Byte) (j : Nat) : (s.sendCommand i kind body).ep j = s.ep j :=
  (congrArg (fun m : Mac => Tbl.atD m.eps j Ep.reset) (s.sendCommand_mac i kind body)).trans rfl

/-! Routes (R240, R241). -/

/-- An entry apart from its route and the last ROUTE_SET sent to it. -/
def Ep.unrouted (e : Ep) : Ep := { e with route := none, routeSent := none }

/-- An entry with another route and another last ROUTE_SET. -/
def Ep.routedBy (r : Option (List Nat)) (b : Option (List Byte)) (e : Ep) : Ep := { e with route := r, routeSent := b }

/-- Entries that are the same apart from their routes. -/
theorem Ep.eq_of_unrouted {e e' : Ep} (h : e.unrouted = e'.unrouted) : ∃ r b, e = e'.routedBy r b :=
  ⟨e.route, e.routeSent, calc
    e = e.unrouted.routedBy e.route e.routeSent := rfl
    _ = e'.unrouted.routedBy e.route e.routeSent := by rw [h]⟩

/-- A change of entries that keeps what `p` shows of each. -/
theorem State.ep_modEp_keeps {β : Type} (p : Ep → β) {f : Ep → Ep} (h : ∀ e, p (f e) = p e) (j i : Nat) :
    p ((s.modEp j f).ep i) = p (s.ep i) := by
  by_cases hij : i = j
  · subst hij
    rw [State.ep_modEp_self, h]
  · rw [State.ep_modEp_ne s f hij]

/-- ROUTE_SET is sent to an entry, unless it is what the station acts on. -/
theorem State.sendRouteSet_cases (i : Nat) (routes : List (List Nat)) : s.sendRouteSet i routes = s ∨
    ∃ b, s.sendRouteSet i routes = (((s.withdraw fun d => d.kind == .routeSet && d.entry == some i).modEp i
      fun e => { e with routeSent := some b }).sendCommand i .routeSet (leBytes 1 0x0C ++ b)).bump (K.segs.ROUTE_SETS_SENT (s.ep i).seg) := by
  unfold State.sendRouteSet
  split
  · exact .inl rfl
  next b _ =>
    split
    · exact .inl rfl
    · refine .inr ⟨b, ?_⟩
      have hseg : (((s.withdraw fun d => d.kind == .routeSet && d.entry == some i).modEp i fun e =>
          { e with routeSent := some b }).ep i).seg = (s.ep i).seg := by
        rw [State.ep_modEp_self]
        rfl
      simp only [hseg]

theorem State.sendRouteSet_onlyChanges (i : Nat) (routes : List (List Nat)) :
    OnlyChanges [.mac, .line, .dict] s (s.sendRouteSet i routes) := by
  obtain h | ⟨b, h⟩ := s.sendRouteSet_cases i routes
  · rw [h]
    exact (OnlyChanges.refl s).mono (by simp)
  · rw [h]
    exact ((((onlyChanges_modMac s _).trans (onlyChanges_modEp _ _ _)).trans (State.sendCommand_onlyChanges _ _ _ _)).trans
      (onlyChanges_bump _ _)).mono (by simp)

theorem State.sendRouteSet_rd (i : Nat) (routes : List (List Nat)) {r : Reg} (hr : ∀ n, r.key ≠ (K.segs.ROUTE_SETS_SENT n).key) :
    (s.sendRouteSet i routes).rd r = s.rd r := by
  obtain h | ⟨b, h⟩ := s.sendRouteSet_cases i routes
  · rw [h]
  · rw [h, State.rd_bump_ne _ (hr _)]
    exact State.rd_congr (State.sendCommand_onlyChanges _ _ _ _ .dict (by simp)) r

theorem State.sendRouteSet_ep (i : Nat) (routes : List (List Nat)) (j : Nat) :
    ((s.sendRouteSet i routes).ep j).unrouted = (s.ep j).unrouted := by
  obtain h | ⟨b, h⟩ := s.sendRouteSet_cases i routes
  · rw [h]
  · rw [h, State.ep_congr (State.bump_mac _ _), State.sendCommand_ep]
    refine Eq.trans (State.ep_modEp_keeps _ Ep.unrouted ?_ i j) rfl
    exact fun _ => rfl

theorem State.sendRouteSet_queue {i : Nat} {routes : List (List Nat)} {d : Down} (hd : d ∈ (s.sendRouteSet i routes).mac.queue) :
    d ∈ s.mac.queue ∨ d.kind = .routeSet := by
  obtain h | ⟨b, h⟩ := s.sendRouteSet_cases i routes
  · exact .inl (h ▸ hd)
  · rw [h, State.bump_mac, State.sendCommand_mac] at hd
    obtain hd | hd := List.mem_append.1 hd
    · exact .inl (List.mem_of_mem_filter hd)
    · exact .inr (by rw [List.mem_singleton.1 hd])

/-- The entries of segment `g` have their new routes, which are counted; ROUTE_SET has not been sent yet. -/
def State.rerouted (s : State) (g : Nat) : State :=
  (((s.stations g).foldl (fun u i => u.modEp i fun e => { e with route := Tbl.at? (s.routesOf g) i }) s).modSeg g
    fun x => { x with routesAt := s.now }).wr (K.segs.ROUTED_ENDPOINTS g) ((s.routesOf g).filter fun p => 1 < p.2.length).length

section Fold

variable (f : Nat → Ep → Ep) (is : List Nat)

theorem State.foldl_modEp_now : (is.foldl (fun u i => u.modEp i (f i)) s).now = s.now :=
  State.foldl_keeps (·.now) (fun u i => u.modEp i (f i)) (fun _ _ => rfl) is s

theorem State.foldl_modEp_dict : (is.foldl (fun u i => u.modEp i (f i)) s).dict = s.dict :=
  State.foldl_keeps (·.dict) (fun u i => u.modEp i (f i)) (fun _ _ => rfl) is s

theorem State.foldl_modEp_queue : (is.foldl (fun u i => u.modEp i (f i)) s).mac.queue = s.mac.queue :=
  State.foldl_keeps (·.mac.queue) (fun u i => u.modEp i (f i)) (fun _ _ => rfl) is s

theorem State.foldl_modEp_keeps {β : Type} (p : Ep → β) (h : ∀ i e, p (f i e) = p e) (j : Nat) :
    p ((is.foldl (fun u i => u.modEp i (f i)) s).ep j) = p (s.ep j) :=
  State.foldl_keeps (fun t => p (t.ep j)) (fun u i => u.modEp i (f i)) (fun t i => t.ep_modEp_keeps p (h i) i j) is s

end Fold

theorem State.rerouted_rd (g : Nat) {r : Reg} (hg : r.key ≠ (K.segs.ROUTED_ENDPOINTS g).key) : (s.rerouted g).rd r = s.rd r :=
  (State.rd_wr_ne _ _ hg).trans (State.rd_congr (s.foldl_modEp_dict _ _) r)

theorem State.rerouted_ep (g i : Nat) : ((s.rerouted g).ep i).unrouted = (s.ep i).unrouted :=
  s.foldl_modEp_keeps (fun j e => { e with route := Tbl.at? (s.routesOf g) j }) (s.stations g) Ep.unrouted (fun _ _ => rfl) i

theorem State.rerouted_queue (g : Nat) : (s.rerouted g).mac.queue = s.mac.queue := s.foldl_modEp_queue _ _

theorem State.recomputeRoutes_eq (g : Nat) : s.recomputeRoutes g =
    (s.stations g).foldl (fun u i => u.sendRouteSet i ((s.routesOf g).map (·.2))) (s.rerouted g) := by
  simp only [State.recomputeRoutes, State.rerouted, State.foldl_modEp_now]

theorem State.rerouted_onlyChanges (g : Nat) : OnlyChanges [.mac, .dict] s (s.rerouted g) :=
  (((OnlyChanges.foldl s (fun t i => onlyChanges_modEp t i _) _).trans (onlyChanges_modMac _ _)).trans (onlyChanges_wr _ _ _)).mono
    (by simp)

theorem State.recomputeRoutes_onlyChanges (g : Nat) : OnlyChanges [.mac, .line, .dict] s (s.recomputeRoutes g) := by
  rw [State.recomputeRoutes_eq]
  exact ((s.rerouted_onlyChanges g).mono (by simp)).chain (OnlyChanges.foldl _ (fun t i => t.sendRouteSet_onlyChanges i _) _)

theorem State.recomputeRoutes_rd (g : Nat) {r : Reg} (hg : r.key ≠ (K.segs.ROUTED_ENDPOINTS g).key)
    (hr : ∀ n, r.key ≠ (K.segs.ROUTE_SETS_SENT n).key) : (s.recomputeRoutes g).rd r = s.rd r := by
  rw [State.recomputeRoutes_eq, State.foldl_keeps (·.rd r) _ (fun t i => t.sendRouteSet_rd i _ hr), State.rerouted_rd s g hg]

/-- New routes change of an entry its route and the last ROUTE_SET, and nothing else. -/
theorem State.recomputeRoutes_ep (g i : Nat) : ((s.recomputeRoutes g).ep i).unrouted = (s.ep i).unrouted := by
  rw [State.recomputeRoutes_eq, State.foldl_keeps (fun t => (t.ep i).unrouted) _ (fun t j => t.sendRouteSet_ep j _ i), State.rerouted_ep]

theorem State.foldl_sendRouteSet_queue (routes : List (List Nat)) (is : List Nat) {d : Down}
    (hd : d ∈ (is.foldl (fun u i => u.sendRouteSet i routes) s).mac.queue) : d ∈ s.mac.queue ∨ d.kind = .routeSet := by
  induction is generalizing s with
  | nil => exact .inl hd
  | cons i is ih => exact (ih _ hd).elim (fun h => State.sendRouteSet_queue s h) .inr

/-- New routes add no MPDU but ROUTE_SETs. -/
theorem State.recomputeRoutes_queue {g : Nat} {d : Down} (hd : d ∈ (s.recomputeRoutes g).mac.queue) :
    d ∈ s.mac.queue ∨ d.kind = .routeSet := by
  rw [State.recomputeRoutes_eq] at hd
  exact s.rerouted_queue g ▸ State.foldl_sendRouteSet_queue _ _ _ hd

/-! The number of associated entries of a segment (R230). -/

theorem State.countAssociated_onlyChanges (g : Nat) : OnlyChanges [.dict] s (s.countAssociated g) := onlyChanges_wr s _ _

theorem State.countAssociated_mac (g : Nat) : (s.countAssociated g).mac = s.mac := rfl

theorem State.countAssociated_rd (g : Nat) {r : Reg} (hr : r.key ≠ (K.segs.ASSOCIATED g).key) : (s.countAssociated g).rd r = s.rd r :=
  State.rd_wr_ne s _ hr

end Rules

end Sys2Proof.Machine

end

section
/-! PROOF. O46: an entry expires, is freed, ends its served window and its ADRIFT hold (R211, R213, R214, R221, R227). -/

namespace Sys2Proof.Machine

/-! What every end of an entry takes from it (R213). -/

/-- The bridged downlinks, the MPDUs and the pages of entry `i` have gone. -/
def State.entryLeft (s : State) (i : Nat) : State := ((s.dropBridged i).withdrawEntry i).freeEpPages i

section Left

variable (s : State) (i : Nat)

theorem State.entryLeft_onlyChanges : OnlyChanges [.dict, .mac, .line] s (s.entryLeft i) :=
  (((s.dropBridged_onlyChanges i).trans (State.withdrawEntry_onlyChanges _ i)).trans (State.freeEpPages_onlyChanges _ i)).mono (by simp)

theorem State.entryLeft_onlyRegs :
    OnlyRegs [K.segs.BRIDGE_DROP (s.ep i).seg, K.pool.PAGES_FREE, K.pool.PAGES_FREE_MIN] s (s.entryLeft i) := by
  have hdict : ((s.dropBridged i).withdrawEntry i).dict = (s.dropBridged i).dict := State.withdrawEntry_onlyChanges _ i .dict (by simp)
  exact (((s.dropBridged_onlyRegs i).trans (OnlyRegs.of_dict (rs := []) hdict)).trans (State.freeEpPages_onlyRegs _ i)).mono (by simp)

theorem State.entryLeft_ep : (s.entryLeft i).ep i = (s.ep i).unmapped := by
  rw [State.entryLeft, State.freeEpPages_ep, State.withdrawEntry_ep, State.dropBridged_ep]

variable {s i} in
theorem State.entryLeft_queue {d : Down} (hd : d ∈ (s.entryLeft i).mac.queue) (hi : d.entry = some i) : d.frame.isSome = true :=
  State.withdrawEntry_queue _ (by rwa [State.entryLeft, State.freeEpPages_queue] at hd) hi

end Left

/-! Expiry (R213). -/

/-- An entry that is EXPIRED from tick `at'` on. -/
def Ep.expiredFrom (at' : Nat) (e : Ep) : Ep :=
  { e with
    state := epExpired, expired := at', route := none, routeSent := none, allocReq := none, sounding := none, echo := none,
    nextSleep := none, window := none, listen := none, via := none, holdEnd := none, marked := false }

/-- Entry `i` is EXPIRED, counted and journalled, and no wake is wanted for it; the routes of its segment are still the old ones. -/
def State.expiredEntry (s : State) (i : Nat) : State :=
  ((((((s.entryLeft i).modEp i (Ep.expiredFrom s.now)).bump (K.segs.LEASE_EXPIRED (s.ep i).seg)).countAssociated (s.ep i).seg).journalEp
    i).modLine fun l => { l with wakes := Tbl.del l.wakes i })

theorem State.expire_eq {s : State} {i : Nat} (h : s.legsOf i = []) : s.expire i = (s.expiredEntry i).recomputeRoutes (s.ep i).seg := by
  have hnow : ((s.dropBridged i).withdrawEntry i).now = s.now := State.withdrawEntry_onlyChanges _ i .now (by simp)
  simp only [State.expire, State.expireWith, State.refuseLegs_of_noLegs h, State.expiredEntry, State.entryLeft, hnow]
  rfl

theorem State.expiredEntry_onlyChanges (s : State) (i : Nat) : OnlyChanges [.dict, .mac, .flash, .line] s (s.expiredEntry i) :=
  ((((((s.entryLeft_onlyChanges i).trans (onlyChanges_modEp _ _ _)).trans (onlyChanges_bump _ _)).trans
    (State.countAssociated_onlyChanges _ _)).trans (State.journalEp_onlyChanges _ _)).trans (onlyChanges_modLine _ _)).mono (by simp)

theorem State.expiredEntry_mac (s : State) (i : Nat) :
    (s.expiredEntry i).mac = ((s.entryLeft i).modEp i (Ep.expiredFrom s.now)).mac := by
  rw [State.expiredEntry, State.modLine_mac, State.journalEp_mac]
  rfl

theorem State.expiredEntry_queue (s : State) (i : Nat) : (s.expiredEntry i).mac.queue = (s.entryLeft i).mac.queue := by
  rw [State.expiredEntry_mac]
  rfl

theorem State.expiredEntry_ep (s : State) (i : Nat) : (s.expiredEntry i).ep i = ((s.entryLeft i).ep i).expiredFrom s.now := by
  rw [State.ep_congr (s.expiredEntry_mac i), State.ep_modEp_self]

theorem State.expiredEntry_counted (s : State) {i : Nat} : Counted (K.segs.LEASE_EXPIRED (s.ep i).seg) s (s.expiredEntry i) := by
  have hleft : (s.entryLeft i).rd (K.segs.LEASE_EXPIRED (s.ep i).seg) = s.rd (K.segs.LEASE_EXPIRED (s.ep i).seg) := by
    refine (s.entryLeft_onlyRegs i).rd ?_
    simp only [K.segs.LEASE_EXPIRED, K.segs.BRIDGE_DROP, K.pool.PAGES_FREE, K.pool.PAGES_FREE_MIN, List.map_cons, List.map_nil,
      List.mem_cons, List.not_mem_nil, or_false]
    omega
  have hdict : (s.expiredEntry i).dict =
      ((((s.entryLeft i).modEp i (Ep.expiredFrom s.now)).bump (K.segs.LEASE_EXPIRED (s.ep i).seg)).countAssociated (s.ep i).seg).dict := by
    rw [State.expiredEntry, State.modLine_dict, State.journalEp_dict]
  rw [Counted, State.rd_congr hdict, State.countAssociated_rd _ _ (by simp only [K.segs.LEASE_EXPIRED, K.segs.ASSOCIATED]; omega),
    State.rd_bump_self, State.rd_modEp, hleft]

/-- An entry without open legs that expires keeps its EUI-64 and address; nothing waits for it but what stands on a frame. -/
theorem State.expire_expires {s : State} {i : Nat} (h : s.legsOf i = []) : Expires i s.now s (s.expire i) := by
  have hep : ((s.expire i).ep i).unrouted = (((s.entryLeft i).ep i).expiredFrom s.now).unrouted := by
    rw [State.expire_eq h, State.recomputeRoutes_ep, State.expiredEntry_ep]
  rw [State.entryLeft_ep] at hep
  obtain ⟨r, b, hep⟩ := Ep.eq_of_unrouted hep
  unfold Expires
  rw [hep]
  refine ⟨rfl, rfl, rfl, rfl, rfl, rfl, rfl, rfl, ?counted, fun d hd hi => ?queue⟩
  case counted =>
    have hroutes : (s.expire i).rd (K.segs.LEASE_EXPIRED (s.ep i).seg) = (s.expiredEntry i).rd (K.segs.LEASE_EXPIRED (s.ep i).seg) := by
      rw [State.expire_eq h]
      refine State.recomputeRoutes_rd _ _ ?_ fun n => ?_
      · simp only [K.segs.LEASE_EXPIRED, K.segs.ROUTED_ENDPOINTS]
        omega
      · simp only [K.segs.LEASE_EXPIRED, K.segs.ROUTE_SETS_SENT]
        omega
    rw [Counted, hroutes]
    exact s.expiredEntry_counted
  case queue =>
    rw [State.expire_eq h] at hd
    obtain hd | hroute := State.recomputeRoutes_queue _ hd
    · rw [State.expiredEntry_queue] at hd
      exact .inl (State.entryLeft_queue hd hi)
    · exact .inr hroute

theorem State.expire_onlyChanges {s : State} {i : Nat} (h : s.legsOf i = []) : OnlyChanges [.dict, .mac, .flash, .line] s (s.expire i) := by
  rw [State.expire_eq h]
  exact ((s.expiredEntry_onlyChanges i).trans (State.recomputeRoutes_onlyChanges _ _)).mono (by simp)

/-- An expiry is seen from any earlier state with the same entry and the same count. -/
theorem Expires.of_earlier {i at' : Nat} {s u t : State} (h : Expires i at' u t) (hep : u.ep i = s.ep i)
    (hrd : u.rd (K.segs.LEASE_EXPIRED (s.ep i).seg) = s.rd (K.segs.LEASE_EXPIRED (s.ep i).seg)) : Expires i at' s t := by
  unfold Expires at h ⊢
  rw [hep] at h
  obtain ⟨hstate, hat, heui, haddr, hseg, hup, hpend, hdn, hcounted, hqueue⟩ := h
  exact ⟨hstate, hat, heui, haddr, hseg, hup, hpend, hdn, hcounted.of_rd_eq hrd, hqueue⟩

theorem Expires.modPending {i at' : Nat} {s t : State} (h : Expires i at' s t) (f : List Instr → List Instr) :
    Expires i at' s (t.modPending f) := h

/-! The return to FREE (R213). -/

/-- Entry `i` is as after reset; its segment has not been counted again yet. -/
def State.blankEntry (s : State) (i : Nat) : State :=
  (((s.entryLeft i).modEp i fun e => { Ep.reset with unusable := e.unusable }).journalEp i).modMac fun m =>
    { m with eps := Tbl.store Ep.reset m.eps i (Tbl.atD m.eps i Ep.reset) }

theorem State.freeEntry_eq {s : State} {i : Nat} (h : s.legsOf i = []) : s.freeEntry i = (s.blankEntry i).countAssociated (s.ep i).seg := by
  simp only [State.freeEntry, State.refuseLegs_of_noLegs h, State.blankEntry, State.entryLeft]

theorem State.freeEntry_onlyChanges {s : State} {i : Nat} (h : s.legsOf i = []) :
    OnlyChanges [.dict, .mac, .flash, .line] s (s.freeEntry i) := by
  rw [State.freeEntry_eq h]
  exact (((((s.entryLeft_onlyChanges i).trans (onlyChanges_modEp _ _ _)).trans (State.journalEp_onlyChanges _ _)).trans
    (onlyChanges_modMac _ _)).trans (State.countAssociated_onlyChanges _ _)).mono (by simp)

theorem State.blankEntry_ep (s : State) (i : Nat) : (s.blankEntry i).ep i = { Ep.reset with unusable := (s.ep i).unusable } := by
  have hstored : (s.blankEntry i).ep i =
      (((s.entryLeft i).modEp i fun e => { Ep.reset with unusable := e.unusable }).journalEp i).ep i := Tbl.atD_store_self ..
  rw [hstored, State.ep_congr (State.journalEp_mac _ _), State.ep_modEp_self, State.entryLeft_ep, Ep.unmapped]

theorem State.blankEntry_queue (s : State) (i : Nat) : (s.blankEntry i).mac.queue = (s.entryLeft i).mac.queue := by
  simp only [State.blankEntry, State.modMac_mac, State.journalEp_mac]
  rfl

theorem State.freeEntry_freed {s : State} {i : Nat} (h : s.legsOf i = []) : Freed i s (s.freeEntry i) := by
  rw [State.freeEntry_eq h]
  refine ⟨(State.ep_congr (State.wr_mac _ _ _) i).trans (s.blankEntry_ep i), fun d hd hi => ?_⟩
  rw [State.countAssociated, State.wr_mac, State.blankEntry_queue] at hd
  exact State.entryLeft_queue hd hi

theorem Freed.of_earlier {i : Nat} {s u t : State} (h : Freed i u t) (hep : u.ep i = s.ep i) : Freed i s t := by
  unfold Freed at h ⊢
  rwa [hep] at h

theorem Freed.modPending {i : Nat} {s t : State} (h : Freed i s t) (f : List Instr → List Instr) : Freed i s (t.modPending f) := h

/-! Deadlines. -/

theorem State.ep_atDeadline (s : State) (due i : Nat) : (s.atDeadline due).ep i = s.ep i := State.ep_congr (s.atDeadline_mac due) i

theorem State.legsOf_atDeadline (s : State) (due i : Nat) : (s.atDeadline due).legsOf i = s.legsOf i :=
  State.legsOf_congr (s.atDeadline_txn due) i

/-- What the end of an entry may change when time passes to it. -/
def endParts : List Part := timeParts ++ [.dict, .mac, .flash, .line]

theorem State.leaseExpired_expires {s : State} {i : Nat} (h : s.legsOf i = []) (due : Nat) :
    ((s.atDeadline due).expire i).now = max s.now due ∧ Expires i ((s.atDeadline due).expire i).now s ((s.atDeadline due).expire i) ∧
      OnlyChanges endParts s ((s.atDeadline due).expire i) := by
  have hlegs : (s.atDeadline due).legsOf i = [] := (s.legsOf_atDeadline due i).trans h
  have hparts := State.expire_onlyChanges hlegs
  have hnow : ((s.atDeadline due).expire i).now = (s.atDeadline due).now := hparts .now (by simp)
  refine ⟨hnow.trans (s.atDeadline_now due), ?_, (onlyChanges_passTo s due).trans hparts⟩
  rw [hnow]
  refine (State.expire_expires hlegs).of_earlier (s.ep_atDeadline due i) (s.atDeadline_rd due ?_ ?_)
  · simp only [K.segs.LEASE_EXPIRED, K.times.UNSYNC_SECONDS]
    omega
  · simp only [K.segs.LEASE_EXPIRED, K.trks.PHASE_STEP_COUNT]
    omega

theorem State.freedAt_freed {s : State} {i : Nat} (h : s.legsOf i = []) (due : Nat) :
    ((s.atDeadline due).freeEntry i).now = max s.now due ∧ Freed i s ((s.atDeadline due).freeEntry i) ∧
      OnlyChanges endParts s ((s.atDeadline due).freeEntry i) := by
  have hlegs : (s.atDeadline due).legsOf i = [] := (s.legsOf_atDeadline due i).trans h
  have hparts := State.freeEntry_onlyChanges hlegs
  have hnow : ((s.atDeadline due).freeEntry i).now = (s.atDeadline due).now := hparts .now (by simp)
  exact ⟨hnow.trans (s.atDeadline_now due), (State.freeEntry_freed hlegs).of_earlier (s.ep_atDeadline due i),
    (onlyChanges_passTo s due).trans hparts⟩

/-! The end of a served window (R221). -/

theorem State.ep_modEp_becomes (s : State) (i : Nat) (f : Ep → Ep) : EpBecomes i (f (s.ep i)) s (s.modEp i f) :=
  ⟨s.ep_modEp_self i f, fun _ hj => s.ep_modEp_ne f hj⟩

theorem EpBecomes.modPending {i : Nat} {e : Ep} {s t : State} (h : EpBecomes i e s t) (f : List Instr → List Instr) :
    EpBecomes i e s (t.modPending f) := h

theorem EpBecomes.of_mac {i : Nat} {e : Ep} {s u t v : State} (h : EpBecomes i e u t) (hu : u.mac = s.mac) (hv : v.mac = t.mac) :
    EpBecomes i e s v :=
  ⟨(State.ep_congr hv i).trans h.1, fun j hj => (State.ep_congr hv j).trans ((h.2 j hj).trans (State.ep_congr hu j))⟩

/-- The served window of entry `i` has ended at tick `b`. -/
def State.windowOver (s : State) (i b : Nat) : State := (s.atDeadline b).modEp i fun e => { e with window := none }

theorem State.windowOver_onlyChanges (s : State) (i b : Nat) : OnlyChanges (timeParts ++ [.mac]) s (s.windowOver i b) :=
  (onlyChanges_passTo s b).trans (onlyChanges_modEp _ _ _)

theorem State.windowOver_now (s : State) (i b : Nat) : (s.windowOver i b).now = max s.now b := s.atDeadline_now b

theorem State.windowOver_becomes (s : State) (i b : Nat) : EpBecomes i { s.ep i with window := none } s (s.windowOver i b) := by
  have hbecomes := (s.atDeadline b).ep_modEp_becomes i fun e => { e with window := none }
  rw [s.ep_atDeadline b i] at hbecomes
  exact hbecomes.of_mac (s.atDeadline_mac b) rfl

theorem State.windowOver_rd (s : State) (i b g : Nat) : (s.windowOver i b).rd (K.segs.WAKE_MISSED g) = s.rd (K.segs.WAKE_MISSED g) := by
  refine s.atDeadline_rd b ?_ ?_
  · simp only [K.segs.WAKE_MISSED, K.times.UNSYNC_SECONDS]
    omega
  · simp only [K.segs.WAKE_MISSED, K.trks.PHASE_STEP_COUNT]
    omega

section Window

variable {s : State} {i a b : Nat} {seen : Bool} (h : (s.ep i).window = some (a, b, seen))

include h

theorem State.windowEnd_eq : s.windowEnd i =
    if seen then s.windowOver i b else (s.windowOver i b).bump (K.segs.WAKE_MISSED (s.ep i).seg) := by
  have hep := (s.windowOver_becomes i b).1
  rw [State.windowOver] at hep
  simp only [State.windowEnd, h, State.windowOver, hep]

theorem State.windowEnd_ends : (s.windowEnd i).now = max s.now b ∧ EpBecomes i { s.ep i with window := none } s (s.windowEnd i) ∧
    (seen = false → Counted (K.segs.WAKE_MISSED (s.ep i).seg) s (s.windowEnd i)) ∧
    (seen = true → (s.windowEnd i).rd (K.segs.WAKE_MISSED (s.ep i).seg) = s.rd (K.segs.WAKE_MISSED (s.ep i).seg)) ∧
    OnlyChanges (timeParts ++ [.mac]) s (s.windowEnd i) := by
  have hrd := s.windowOver_rd i b (s.ep i).seg
  have hparts := s.windowOver_onlyChanges i b
  rw [State.windowEnd_eq h]
  cases seen with
  | true => exact ⟨s.windowOver_now i b, s.windowOver_becomes i b, by simp, fun _ => hrd, hparts⟩
  | false =>
    exact ⟨s.windowOver_now i b, s.windowOver_becomes i b, fun _ => (counted_bump _ _).of_rd_eq hrd, by simp,
      (hparts.trans (onlyChanges_bump _ _)).mono (by simp [timeParts])⟩

end Window

/-! The end of an ADRIFT hold (R227, R252). -/

/-- The hold of entry `i` has ended at tick `h`. -/
def State.holdOver (s : State) (i h : Nat) : State := (s.atDeadline h).modEp i fun e => { e with holdEnd := none }

theorem State.adriftExpiry_eq {s : State} {i h : Nat} (hlegs : s.legsOf i = []) (hhold : (s.ep i).holdEnd = some h) :
    s.adriftExpiry i = (s.holdOver i h).dropBridged i := by
  have hnone : (s.holdOver i h).legsOf i = [] := (State.legsOf_congr (s.atDeadline_txn h) i).trans hlegs
  rw [State.adriftExpiry, hhold]
  exact congrArg (State.dropBridged · i) (State.refuseLegs_of_noLegs hnone _ _)

theorem State.adriftExpiry_ends {s : State} {i h : Nat} (hlegs : s.legsOf i = []) (hhold : (s.ep i).holdEnd = some h) :
    (s.adriftExpiry i).now = max s.now h ∧ EpBecomes i { s.ep i with holdEnd := none } s (s.adriftExpiry i) ∧
      (s.adriftExpiry i).mac.queue = s.mac.queue.filter (fun d => d.frame.isSome || !(d.kind == .bridged && d.entry == some i)) ∧
      OnlyChanges (timeParts ++ [.mac]) s (s.adriftExpiry i) := by
  have hbecomes := (s.atDeadline h).ep_modEp_becomes i fun e => { e with holdEnd := none }
  rw [s.ep_atDeadline h i] at hbecomes
  have hover := hbecomes.of_mac (v := s.holdOver i h) (s.atDeadline_mac h) rfl
  have hqueue : (s.holdOver i h).mac.queue = (s.atDeadline h).mac.queue := rfl
  rw [State.atDeadline_mac] at hqueue
  rw [State.adriftExpiry_eq hlegs hhold]
  refine ⟨s.atDeadline_now h, hover, ?_, ?_⟩
  · rw [← hqueue]
    rfl
  · exact (((onlyChanges_passTo s h).trans (onlyChanges_modEp _ _ _)).trans (State.dropBridged_onlyChanges _ i)).mono (by simp [timeParts])

/-! The commands in a device whose core runs. -/

section Exec

variable {s : State} {i : Nat} (hup : s.coreUp (s.entryCore i) = true)

include hup

theorem exec_leaseExpiry_of_coreUp : exec (.leaseExpiry i) s = .next ((s.leaseExpiry i).modPending fun _ => s.pending) :=
  onCore_of_coreUp hup _

theorem exec_addressHoldExpiry_of_coreUp : exec (.addressHoldExpiry i) s = .next ((s.holdExpiry i).modPending fun _ => s.pending) :=
  onCore_of_coreUp hup _

theorem exec_relayedAssocTimeout_of_coreUp :
    exec (.relayedAssocTimeout i) s = .next ((s.relayedTimeout i).modPending fun _ => s.pending) := onCore_of_coreUp hup _

theorem exec_disassociate_of_coreUp (body : List Byte) :
    exec (.disassociate i body) s = .next (((s.takeCommitted i body).disassociated i body).modPending fun _ => s.pending) :=
  onCore_of_coreUp hup _

theorem exec_wakeWindowEnd_of_coreUp : exec (.wakeWindowEnd i) s = .next ((s.windowEnd i).modPending fun _ => s.pending) :=
  onCore_of_coreUp hup _

theorem exec_adriftHoldExpiry_of_coreUp : exec (.adriftHoldExpiry i) s = .next ((s.adriftExpiry i).modPending fun _ => s.pending) :=
  onCore_of_coreUp hup _

end Exec

theorem State.takeCommitted_ep (s : State) (i : Nat) (body : List Byte) (j : Nat) : (s.takeCommitted i body).ep j = s.ep j := rfl

theorem State.disassociated_of_live {s : State} {i : Nat} {body : List Byte} (hlen : body.length = 1)
    (hlive : (s.ep i).state = 1 ∨ (s.ep i).state = 2) : s.disassociated i body = s.expire i := by
  have hstates : ((s.ep i).state = epAssociated || (s.ep i).state = epAssociating) = true := by
    rw [Bool.or_eq_true, decide_eq_true_eq, decide_eq_true_eq]
    exact hlive.symm
  simp only [State.disassociated, hlen, ne_eq, not_true_eq_false, if_false, hstates, if_true]

/-- Settles O46: each deadline acts on the entry in its state alone, at its tick; an expiry and a return to FREE begin with the same loss of
MPDUs and pages (`State.entryLeft`). -/
theorem anEntryExpiresAndIsFreedAtItsDeadlines : Obligations.AnEntryExpiresAndIsFreedAtItsDeadlines := by
  rintro i s hup - hlegs
  refine ⟨fun hstate => ?_, fun hstate => ?_, fun hstate => ?_, fun hstate => ?expiry, fun body hlen hlive => ?left, fun hstate => ?hold,
    fun hstate hvia => ?relayed, fun hwindow => ?_, fun a b seen hwindow => ?window, fun hhold => ?_, fun h hhold => ?adrift⟩
  · exact exec_unchanged (exec_leaseExpiry_of_coreUp hup) (if_neg hstate)
  · exact exec_unchanged (exec_addressHoldExpiry_of_coreUp hup) (if_neg hstate)
  · refine exec_unchanged (exec_relayedAssocTimeout_of_coreUp hup) (if_neg ?_)
    obtain hstate | hvia := hstate
    · simp [epAssociating, hstate]
    · simp [hvia]
  case expiry =>
    have hdue : s.leaseExpiry i = (s.atDeadline (s.tickOf ((s.ep i).leaseEnd * dtSecond))).expire i := if_pos hstate
    obtain ⟨hnow, hexpires, hparts⟩ := State.leaseExpired_expires hlegs (s.tickOf ((s.ep i).leaseEnd * dtSecond))
    rw [← hdue] at hnow hexpires hparts
    exact ⟨_, exec_leaseExpiry_of_coreUp hup, hnow, hexpires.modPending _, hparts.keptAt (by simp [endParts, timeParts])⟩
  case left =>
    have hlegs' : (s.takeCommitted i body).legsOf i = [] := hlegs
    have heq : (s.takeCommitted i body).disassociated i body = (s.takeCommitted i body).expire i :=
      State.disassociated_of_live hlen hlive
    have hexec := exec_disassociate_of_coreUp hup body
    rw [heq] at hexec
    have hexpires : Expires i s.now s ((s.takeCommitted i body).expire i) :=
      (State.expire_expires hlegs').of_earlier (s.takeCommitted_ep i body i) rfl
    exact ⟨_, hexec, hexpires.modPending _, ((onlyChanges_modMac s _).trans (State.expire_onlyChanges hlegs')).keptAt (by simp)⟩
  case hold =>
    have hdue : s.holdExpiry i = (s.atDeadline ((s.ep i).expired + secTicks (s.limit (s.ep i).seg 4))).freeEntry i := if_pos hstate
    obtain ⟨hnow, hfreed, hparts⟩ := State.freedAt_freed hlegs ((s.ep i).expired + secTicks (s.limit (s.ep i).seg 4))
    rw [← hdue] at hnow hfreed hparts
    rw [secTicks, Nat.mul_comm] at hnow
    exact ⟨_, exec_addressHoldExpiry_of_coreUp hup, hfreed.modPending _, hnow, hparts.keptAt (by simp [endParts, timeParts])⟩
  case relayed =>
    have hdue : s.relayedTimeout i = (s.atDeadline ((s.ep i).granted + s.periodTicks (s.ep i).seg 4)).freeEntry i :=
      if_pos (by simp [epAssociating, hstate, hvia])
    obtain ⟨hnow, hfreed, hparts⟩ := State.freedAt_freed hlegs ((s.ep i).granted + s.periodTicks (s.ep i).seg 4)
    rw [← hdue] at hnow hfreed hparts
    have hafter : (s.ep i).granted ≤ (s.relayedTimeout i).now := by omega
    exact ⟨_, exec_relayedAssocTimeout_of_coreUp hup, hfreed.modPending _, hafter, hparts.keptAt (by simp [endParts, timeParts])⟩
  · exact exec_unchanged (exec_wakeWindowEnd_of_coreUp hup) (by simp only [State.windowEnd, hwindow])
  case window =>
    obtain ⟨hnow, hbecomes, hmissed, hseen, hparts⟩ := State.windowEnd_ends hwindow
    exact ⟨_, exec_wakeWindowEnd_of_coreUp hup, hnow, hbecomes.modPending _, hmissed, hseen, hparts.keptAt (by simp [timeParts])⟩
  · exact exec_unchanged (exec_adriftHoldExpiry_of_coreUp hup) (by simp only [State.adriftExpiry, hhold])
  case adrift =>
    obtain ⟨hnow, hbecomes, hqueue, hparts⟩ := State.adriftExpiry_ends hlegs hhold
    exact ⟨_, exec_adriftHoldExpiry_of_coreUp hup, hnow, hbecomes.modPending _, hqueue, hparts.keptAt (by simp [timeParts])⟩

end Sys2Proof.Machine

end

section
/-! PROOF. O47: association requests are decided and answered (R210, R211, R212, R318, R336). -/

namespace Sys2Proof.Machine

/-! The request that is taken (R210, R336). -/

theorem exec_associationRequest_of_coreUp {s : State} {g : Nat} (hup : s.coreUp (segCore g) = true) : exec (.associationRequest g) s =
    .next ((if s.segEnabled g then s.associationRequest g else s).modPending fun _ => s.pending) := onCore_of_coreUp hup _

/-- Request `q` has left those that wait. -/
def State.requestTaken (s : State) (q : Request) : State := s.modMac fun m => { m with requests := m.requests.erase q }

/-- What the outcome of request `q` with fields `r` does. -/
def State.requestAnswered (g : Nat) (r : AssocReq) (q : Request) : AssocOutcome × State → State
  | (.malformed, s) => s.bump (K.segs.ASSOC_MALFORMED g)
  | (.refused x, s) => s.refuseAssoc g x r q
  | (.granted i a jk, s) => s.grantRoaming g i a r q jk

theorem State.associationRequest_of_wait {s : State} {g : Nat} (hfail : s.keys.entropyFail = true) (hmode : s.rd K.adm.ADMIT_MODE = 1) :
    s.associationRequest g = s := by
  simp [State.associationRequest, hfail, hmode]

theorem State.associationRequest_of_none {s : State} {g : Nat} (h : ∀ q ∈ s.mac.requests, q.seg ≠ g) : s.associationRequest g = s := by
  have htake : s.takeRequest g = none := by
    simpa [State.takeRequest, List.find?_eq_none] using h
  simp [State.associationRequest, htake]

section Taken

variable {s : State} {g : Nat} {q : Request} (hfind : s.mac.requests.find? (fun q => q.seg == g) = some q)
  (hready : s.rd K.adm.ADMIT_MODE = 0 ∨ s.keys.entropyFail = false)

include hfind hready

theorem State.associationRequest_eq : s.associationRequest g = match assocRead q.body with
    | none => (s.requestTaken q).bump (K.segs.ASSOC_MALFORMED g)
    | some r => State.requestAnswered g r q ((s.requestTaken q).assocDecide g q.body) := by
  have hgo : ¬ (s.keys.entropyFail && s.rd K.adm.ADMIT_MODE = 1) = true := by
    obtain h | h := hready
    · simp [h]
    · simp [h]
  have htake : s.takeRequest g = some (q, s.requestTaken q) := by
    rw [State.takeRequest, hfind]
    rfl
  simp only [State.associationRequest, if_neg hgo, htake]
  cases assocRead q.body <;> rfl

theorem State.associationRequest_of_read {r : AssocReq} (hread : assocRead q.body = some r) :
    s.associationRequest g = State.requestAnswered g r q ((s.requestTaken q).assocDecide g q.body) := by
  rw [State.associationRequest_eq hfind hready, hread]

theorem State.associationRequest_of_short (hshort : q.body.length < 18) :
    s.associationRequest g = (s.requestTaken q).bump (K.segs.ASSOC_MALFORMED g) := by
  have hread : assocRead q.body = none := if_pos hshort
  rw [State.associationRequest_eq hfind hready, hread]

end Taken

/-! The decision (R210, R211, R318). -/

section Decision

variable {s : State} {g : Nat} {body : List Byte} {r : AssocReq} (hread : assocRead body = some r)

theorem State.admitted_of_open (hmode : s.rd K.adm.ADMIT_MODE = 0) (eui : Nat) : s.admitted eui = (true, none, s) := if_pos hmode

theorem State.admitted_of_unlisted (hmode : s.rd K.adm.ADMIT_MODE = 1) {eui : Nat} (hlist : Tbl.at? s.keys.admission eui = none) :
    s.admitted eui = (false, none, s) := by
  have hkey : s.joinKey eui = (none, s) := by rw [State.joinKey, hlist]
  simp [State.admitted, hmode, hkey]

include hread

theorem State.assocDecide_of_closed (h : s.limit g 5 = 0) : s.assocDecide g body = (.refused 2, s) := by
  simp [State.assocDecide, hread, h]

theorem State.assocDecide_of_unlisted (hpermit : s.limit g 5 ≠ 0) (hmode : s.rd K.adm.ADMIT_MODE = 1)
    (hlist : Tbl.at? s.keys.admission r.eui = none) : s.assocDecide g body = (.refused 2, s) := by
  simp [State.assocDecide, hread, hpermit, State.admitted_of_unlisted hmode hlist]

theorem State.assocDecide_of_unfit (hpermit : s.limit g 5 ≠ 0) (hmode : s.rd K.adm.ADMIT_MODE = 0)
    (hfit : r.bMax < 2 ∨ 12 < r.bMax ∨ 4 < r.rateMax) : s.assocDecide g body = (.refused 3, s) := by
  have hout : (r.bMax < 2 || 12 < r.bMax || 4 < r.rateMax) = true := by
    simpa only [Bool.or_eq_true, decide_eq_true_eq, or_assoc] using hfit
  simp only [State.assocDecide, hread, hpermit, State.admitted_of_open hmode, if_pos hout, if_false, Bool.not_true, Bool.false_eq_true]

/-- The two ways in which the statement's table refuses a request. -/
theorem State.assocDecide_of_refused {result : Nat}
    (h : (s.limit g 5 = 0 ∨ s.rd K.adm.ADMIT_MODE = 1 ∧ Tbl.at? s.keys.admission r.eui = none) ∧ result = 2 ∨
      s.limit g 5 ≠ 0 ∧ s.rd K.adm.ADMIT_MODE = 0 ∧ (r.bMax < 2 ∨ 12 < r.bMax ∨ 4 < r.rateMax) ∧ result = 3) :
    s.assocDecide g body = (.refused result, s) := by
  obtain ⟨hclosed | ⟨hmode, hlist⟩, rfl⟩ | ⟨hpermit, hmode, hfit, rfl⟩ := h
  · exact State.assocDecide_of_closed hread hclosed
  · by_cases hpermit : s.limit g 5 = 0
    · exact State.assocDecide_of_closed hread hpermit
    · exact State.assocDecide_of_unlisted hread hpermit hmode hlist
  · exact State.assocDecide_of_unfit hread hpermit hmode hfit

/-- A new EUI-64 with capabilities in range gets the lowest free entry and the address picked for it. -/
theorem State.assocDecide_of_new {i a : Nat} (hmode : s.rd K.adm.ADMIT_MODE = 0) (hpermit : s.limit g 5 ≠ 0) (hlow : 2 ≤ r.bMax)
    (hhigh : r.bMax ≤ 12) (hrate : r.rateMax ≤ 4) (hnew : s.epOfEuiOn g r.eui = none) (hfree : s.freeIndex = some i)
    (hpick : s.pickAddr g r i = some (i, a)) : s.assocDecide g body = (.granted i a none, s) := by
  have hfit : ¬ (r.bMax < 2 || 12 < r.bMax || 4 < r.rateMax) = true := by
    simp only [Bool.or_eq_true, decide_eq_true_eq]
    omega
  have hplace : s.grantPlace g r = some (i, a) := by simp [State.grantPlace, hnew, hfree, hpick]
  simp only [State.assocDecide, hread, hpermit, State.admitted_of_open hmode, hplace, if_neg hfit, if_false, Bool.not_true,
    Bool.false_eq_true]

end Decision

/-! The response (R212). -/

/-- The response's route (R249): along the repeater that forwarded the request, if one did. -/
def State.responseRoute (s : State) : Option Nat → List Nat
  | some v => (s.ep v).route.getD [(s.ep v).addr]
  | none => []

/-- An association response as it is queued. -/
def State.responseDown (s : State) (g : Nat) (entry via : Option Nat) (body : List Byte) : Down :=
  ⟨s.mac.nextId, g, entry, 5, 1, .assocResponse, body, none, 0, none, false, s.responseRoute via, [], none⟩

section Response

variable (s : State) (g : Nat) (entry via : Option Nat) (body : List Byte)

theorem State.sendAssocResponse_relayed (v : Nat) : s.sendAssocResponse g entry (some v) body =
    s.enqueue (s.responseDown g entry (some v) body) := rfl

theorem State.sendAssocResponse_direct : s.sendAssocResponse g entry none body =
    (s.enqueue (s.responseDown g entry none body)).modSeg g fun x => { x with responses := x.responses ++ [(s.mac.nextId, 0)] } := rfl

theorem State.sendAssocResponse_onlyChanges : OnlyChanges [.mac] s (s.sendAssocResponse g entry via body) := by
  cases via with
  | none => exact (onlyChanges_modMac s _).chain (onlyChanges_modMac _ _)
  | some v => exact onlyChanges_modMac s _

theorem State.sendAssocResponse_queue :
    (s.sendAssocResponse g entry via body).mac.queue = s.mac.queue ++ [s.responseDown g entry via body] := by
  cases via <;> rfl

theorem State.sendAssocResponse_requests : (s.sendAssocResponse g entry via body).mac.requests = s.mac.requests := by
  cases via <;> rfl

theorem State.sendAssocResponse_ep (i : Nat) : (s.sendAssocResponse g entry via body).ep i = s.ep i := by
  cases via <;> rfl

/-- A relayed response asks for no allocation of its own. -/
theorem State.sendAssocResponse_seg_relayed (v k : Nat) : (s.sendAssocResponse g entry (some v) body).seg k = s.seg k := rfl

theorem State.sendAssocResponse_dict : (s.sendAssocResponse g entry via body).dict = s.dict :=
  s.sendAssocResponse_onlyChanges g entry via body .dict (by simp)

/-- A direct response waits for the next beacon period's allocations. -/
theorem State.sendAssocResponse_responses :
    ((s.sendAssocResponse g entry none body).seg g).responses = (s.seg g).responses ++ [(s.mac.nextId, 0)] :=
  congrArg Seg.responses (Tbl.atD_modD_self Seg.reset s.mac.segs g fun x => { x with responses := x.responses ++ [(s.mac.nextId, 0)] })

end Response

theorem lrSf_of_wave (w : Wave) (sf : Nat) : (if lrModeOf w = 0 then 0 else sf) = if w = .s1 ∨ w = .s2 then sf else 0 := by
  cases w <;> rfl

/-! A refusal (R211, R212). -/

/-- The body that refuses a request. -/
def refusalBody (result : Nat) (r : AssocReq) (q : Request) : List Byte :=
  assocBody r.eui result 0xFFFE 0 0 (lrModeOf q.wave) (if q.wave = .s1 ∨ q.wave = .s2 then q.sf else 0)

theorem State.refuseAssoc_eq (s : State) (g result : Nat) (r : AssocReq) (q : Request) :
    s.refuseAssoc g result r q = (s.bump (K.segs.ASSOC_REFUSED g)).sendAssocResponse g none q.via (refusalBody result r q) := by
  rw [State.refuseAssoc, lrSf_of_wave, refusalBody]

section Refusal

variable (s : State) (g result : Nat) (r : AssocReq) (q : Request)

theorem State.refuseAssoc_dict : (s.refuseAssoc g result r q).dict = (s.bump (K.segs.ASSOC_REFUSED g)).dict := by
  rw [State.refuseAssoc_eq, State.sendAssocResponse_dict]

theorem State.refuseAssoc_counted : Counted (K.segs.ASSOC_REFUSED g) s (s.refuseAssoc g result r q) := by
  rw [Counted, State.rd_congr (s.refuseAssoc_dict g result r q)]
  exact counted_bump s _

theorem State.refuseAssoc_onlyRegs : OnlyRegs [K.segs.ASSOC_REFUSED g] s (s.refuseAssoc g result r q) := fun k hk => by
  rw [State.refuseAssoc_dict]
  exact onlyRegs_bump s _ k hk

theorem State.refuseAssoc_onlyChanges : OnlyChanges [.dict, .mac] s (s.refuseAssoc g result r q) := by
  rw [State.refuseAssoc_eq]
  exact (onlyChanges_bump s _).trans (State.sendAssocResponse_onlyChanges _ _ _ _ _)

theorem State.refuseAssoc_queue :
    (s.refuseAssoc g result r q).mac.queue = s.mac.queue ++ [s.responseDown g none q.via (refusalBody result r q)] := by
  rw [State.refuseAssoc_eq, State.sendAssocResponse_queue]
  rfl

theorem State.refuseAssoc_requests : (s.refuseAssoc g result r q).mac.requests = s.mac.requests := by
  rw [State.refuseAssoc_eq, State.sendAssocResponse_requests, State.bump_mac]

theorem State.refuseAssoc_ep (j : Nat) : (s.refuseAssoc g result r q).ep j = s.ep j := by
  rw [State.refuseAssoc_eq, State.sendAssocResponse_ep, State.ep_congr (State.bump_mac _ _)]

variable {q}

theorem State.refuseAssoc_responses_direct (hvia : q.via = none) :
    ((s.refuseAssoc g result r q).seg g).responses = (s.seg g).responses ++ [(s.mac.nextId, 0)] := by
  rw [State.refuseAssoc_eq, hvia, State.sendAssocResponse_responses, State.seg_congr (State.bump_mac _ _), State.bump_mac]

theorem State.refuseAssoc_responses_relayed {v : Nat} (hvia : q.via = some v) :
    ((s.refuseAssoc g result r q).seg g).responses = (s.seg g).responses := by
  rw [State.refuseAssoc_eq, hvia, State.sendAssocResponse_seg_relayed, State.seg_congr (State.bump_mac _ _)]

end Refusal

/-! A grant (R211, R212, R217). -/

/-- An update of the medium access that gives back what it was given is none. -/
theorem State.modMac_of_fixed {s : State} {f : Mac → Mac} (h : f s.mac = s.mac) : s.modMac f = s := by
  rw [State.modMac, h]

theorem State.withdrawResponse_of_noMpdus {s : State} {i : Nat} (h : ∀ d ∈ s.mac.queue, d.entry ≠ some i) : s.withdrawResponse i = s := by
  have hframes : (s.mac.queue.filterMap fun d => if d.entry = some i && d.kind == .assocResponse then d.frame else none) = [] :=
    List.filterMap_eq_nil_iff.2 fun d hd => by simp [h d hd]
  have hids : ((s.mac.queue.filter fun d => d.entry == some i && d.kind == .assocResponse).map (·.id)) = [] := by
    rw [List.map_eq_nil_iff, List.filter_eq_nil_iff]
    exact fun d hd => by simp [h d hd]
  have hqueue : s.withdraw (fun _ => false) = s := State.modMac_of_fixed (by simp)
  have hsegs : (s.modMac fun m => { m with segs := Tbl.mapVals m.segs fun _ x => { x with responses := x.responses.filter fun _ => true } }) = s :=
    State.modMac_of_fixed (by simp [Tbl.mapVals])
  simp only [State.withdrawResponse, hframes, List.foldl_nil, hids, List.contains_nil, Bool.not_false, hqueue, hsegs]

/-- Entry `i` has been made ready for a link that starts afresh: its MPDUs and its pages (R204, R211). -/
def State.linkCleared (s : State) (i : Nat) : State := (s.restartQueue i).freeEpPages i

/-- Entry `i` of segment `g` holds the link `e`, counted, journalled and routed; its response is not queued yet. -/
def State.linkGranted (s : State) (g i : Nat) (e : Ep) : State :=
  ((((((s.linkCleared i).modEp i fun _ => e).bump (K.segs.ASSOC_GRANTED g)).countAssociated g).journalEp i).recomputeRoutes g)

section Grant

variable (s : State) (g i : Nat) (e : Ep)

theorem State.linkCleared_onlyChanges : OnlyChanges [.dict, .mac] s (s.linkCleared i) :=
  (((onlyChanges_modMac s _).chain (onlyChanges_modMac _ _)).trans (State.freeEpPages_onlyChanges _ i)).mono (by simp)

theorem State.linkCleared_segs : (s.linkCleared i).mac.segs = s.mac.segs := rfl

/-- The entry that a grant writes depends on the segment's limits and on the time, which a clearance of the link leaves as they are. -/
theorem State.grantEp_linkCleared (addr : Nat) (r : AssocReq) (via : Option Nat) (snr : Nat) (wave : Wave) (sf : Nat) (old : Ep) :
    (s.linkCleared i).grantEp g addr r via snr wave sf old = s.grantEp g addr r via snr wave sf old := by
  have hnow : (s.linkCleared i).now = s.now := s.linkCleared_onlyChanges i .now (by simp)
  have htime : (s.linkCleared i).time = s.time := s.linkCleared_onlyChanges i .time (by simp)
  simp only [State.grantEp, State.leaseFor, State.limit, State.seg, State.dt, State.dtOf, s.linkCleared_segs i, hnow, htime]

theorem State.linkCleared_rd {r : Reg} (hr : r.key ∉ [K.pool.PAGES_FREE, K.pool.PAGES_FREE_MIN].map Reg.key) :
    (s.linkCleared i).rd r = s.rd r := (State.freeEpPages_onlyRegs (s.restartQueue i) i).rd hr

theorem State.linkGranted_onlyChanges : OnlyChanges [.dict, .mac, .flash, .line] s (s.linkGranted g i e) :=
  ((((((s.linkCleared_onlyChanges i).trans (onlyChanges_modEp _ _ _)).trans (onlyChanges_bump _ _)).trans
    (State.countAssociated_onlyChanges _ _)).trans (State.journalEp_onlyChanges _ _)).trans
    (State.recomputeRoutes_onlyChanges _ _)).mono (by simp)

theorem State.linkGranted_ep : ∃ r b, (s.linkGranted g i e).ep i = e.routedBy r b := by
  refine Ep.eq_of_unrouted ?_
  rw [State.linkGranted, State.recomputeRoutes_ep, State.ep_congr (State.journalEp_mac _ _), State.ep_congr (State.countAssociated_mac _ _),
    State.ep_congr (State.bump_mac _ _), State.ep_modEp_self]

/-- A register apart from the counts of pages, associations and routes is as the grant's own counter leaves it. -/
theorem State.linkGranted_rd {r : Reg} (hassociated : r.key ≠ (K.segs.ASSOCIATED g).key)
    (hrouted : r.key ≠ (K.segs.ROUTED_ENDPOINTS g).key) (hsent : ∀ n, r.key ≠ (K.segs.ROUTE_SETS_SENT n).key) :
    (s.linkGranted g i e).rd r = ((s.linkCleared i).bump (K.segs.ASSOC_GRANTED g)).rd r := by
  rw [State.linkGranted, State.recomputeRoutes_rd _ _ hrouted hsent, State.rd_congr (State.journalEp_dict _ _),
    State.countAssociated_rd _ _ hassociated]
  rfl

theorem State.linkGranted_counted : Counted (K.segs.ASSOC_GRANTED g) s (s.linkGranted g i e) := by
  have hrd := s.linkGranted_rd g i e (r := K.segs.ASSOC_GRANTED g) (by simp only [K.segs.ASSOC_GRANTED, K.segs.ASSOCIATED]; omega)
    (by simp only [K.segs.ASSOC_GRANTED, K.segs.ROUTED_ENDPOINTS]; omega)
    (fun n => by simp only [K.segs.ASSOC_GRANTED, K.segs.ROUTE_SETS_SENT]; omega)
  rw [Counted, hrd, State.rd_bump_self, State.linkCleared_rd]
  simp only [K.segs.ASSOC_GRANTED, K.pool.PAGES_FREE, K.pool.PAGES_FREE_MIN, List.map_cons, List.map_nil, List.mem_cons,
    List.not_mem_nil, or_false]
  omega

/-- A grant changes no register of the domain (R267). -/
theorem State.linkGranted_rd_domain {r : Reg} (hr : r.key = K.dom.ROAM_ENABLE.key ∨ r.key = K.dom.DOMAIN_ENABLE.key) :
    (s.linkGranted g i e).rd r = s.rd r := by
  simp only [K.dom.ROAM_ENABLE, K.dom.DOMAIN_ENABLE] at hr
  rw [State.linkGranted_rd, State.rd_bump_ne, State.linkCleared_rd]
  · simp only [K.pool.PAGES_FREE, K.pool.PAGES_FREE_MIN, List.map_cons, List.map_nil, List.mem_cons, List.not_mem_nil, or_false]
    omega
  · simp only [K.segs.ASSOC_GRANTED]
    omega
  · simp only [K.segs.ASSOCIATED]
    omega
  · simp only [K.segs.ROUTED_ENDPOINTS]
    omega
  · intro n
    simp only [K.segs.ROUTE_SETS_SENT]
    omega

end Grant

/-- The body that grants entry `e` its link. -/
def grantBody (r : AssocReq) (addr lease : Nat) (q : Request) : List Byte :=
  assocBody r.eui 0 addr lease (if 7 ≤ r.laneSf ∧ r.laneSf ≤ 11 then r.laneSf else 0) (lrModeOf q.wave)
    (if q.wave = .s1 ∨ q.wave = .s2 then q.sf else 0)

/-- LANE_SF as an entry keeps it, 7 less, with 7 for no lane. -/
theorem laneSf_kept (n : Nat) : (if (if 7 ≤ n && n ≤ 11 then n - 7 else 7) = 7 then 0 else (if 7 ≤ n && n ≤ 11 then n - 7 else 7) + 7) =
    if 7 ≤ n ∧ n ≤ 11 then n else 0 := by
  simp only [Bool.and_eq_true, decide_eq_true_eq]
  split
  · rw [if_neg (by omega)]
    omega
  · rfl

/-- The entry that a grant over request `q` writes. -/
def State.linkOf (s : State) (g i a : Nat) (r : AssocReq) (q : Request) : Ep := s.grantEp g a r q.via q.snr q.wave q.sf (s.ep i)

/-- Entry `i` holds its link, and its response is queued. -/
def State.linkAnswered (s : State) (g i a : Nat) (r : AssocReq) (q : Request) : State :=
  (s.linkGranted g i (s.linkOf g i a r q)).sendAssocResponse g (some i) q.via (grantBody r a (s.leaseFor g r.lease) q)

section Answered

variable (s : State) (g i a : Nat) (r : AssocReq) (q : Request)

theorem State.linkAnswered_dict : (s.linkAnswered g i a r q).dict = (s.linkGranted g i (s.linkOf g i a r q)).dict :=
  State.sendAssocResponse_dict _ _ _ _ _

theorem State.linkAnswered_counted : Counted (K.segs.ASSOC_GRANTED g) s (s.linkAnswered g i a r q) := by
  rw [Counted, State.rd_congr (s.linkAnswered_dict g i a r q)]
  exact s.linkGranted_counted g i _

theorem State.linkAnswered_ep : ∃ x b, (s.linkAnswered g i a r q).ep i = (s.linkOf g i a r q).routedBy x b := by
  rw [State.linkAnswered, State.sendAssocResponse_ep]
  exact s.linkGranted_ep g i _

theorem State.linkAnswered_queue : (s.linkGranted g i (s.linkOf g i a r q)).responseDown g (some i) q.via
    (grantBody r a (s.leaseFor g r.lease) q) ∈ (s.linkAnswered g i a r q).mac.queue := by
  rw [State.linkAnswered, State.sendAssocResponse_queue]
  exact List.mem_append_right _ (List.mem_singleton.2 rfl)

theorem State.linkAnswered_onlyChanges : OnlyChanges [.dict, .mac, .flash, .line] s (s.linkAnswered g i a r q) :=
  ((s.linkGranted_onlyChanges g i _).trans (State.sendAssocResponse_onlyChanges _ _ _ _ _)).mono (by simp)

end Answered

theorem State.leaseEnd_linkOf (s : State) (g i a : Nat) (r : AssocReq) (q : Request) :
    (s.linkOf g i a r q).leaseEnd = (s.dt / dtSecond + s.leaseFor g r.lease) % 2 ^ 32 := Nat.mod_add_mod _ _ _

section New

variable {s : State} {g i a : Nat} {r : AssocReq} {q : Request}
variable (hqueue : ∀ d ∈ s.mac.queue, d.entry ≠ some i) (hfree : (s.ep i).state = 0)

include hqueue hfree

theorem State.grant_eq : s.grant g i a r q none = s.linkAnswered g i a r q := by
  have hlink : ((s.restartQueue i).freeEpPages i).grantEp g a r q.via q.snr q.wave q.sf (s.ep i) = s.linkOf g i a r q :=
    s.grantEp_linkCleared g i a r q.via q.snr q.wave q.sf (s.ep i)
  have hbody : assocBody r.eui 0 a (s.linkOf g i a r q).lease
      (if (s.linkOf g i a r q).laneSf = 7 then 0 else (s.linkOf g i a r q).laneSf + 7) (s.linkOf g i a r q).lrMode
      (if (s.linkOf g i a r q).lrMode = 0 then 0 else q.sf) = grantBody r a (s.leaseFor g r.lease) q := by
    simp only [State.linkOf, State.grantEp, grantBody, laneSf_kept, lrSf_of_wave]
  have hblocks : ∀ t : State, t.grantBlocks g none = [] := fun _ => rfl
  simp only [State.grant, State.withdrawResponse_of_noMpdus hqueue, hlink, hbody, hblocks, List.append_nil, hfree, epFree, decide_true,
    Bool.true_or, if_true]
  rfl

/-- A grant to a new EUI-64 while the device does not roam asks no other device (R262). -/
theorem State.grantRoaming_eq (hnew : s.epOfEui r.eui = none)
    (hroam : s.flag K.dom.ROAM_ENABLE = false ∨ s.flag K.dom.DOMAIN_ENABLE = false) :
    s.grantRoaming g i a r q none = (s.linkAnswered g i a r q).dropHandOver r.eui := by
  have hflag : ∀ x : Reg, x.key = K.dom.ROAM_ENABLE.key ∨ x.key = K.dom.DOMAIN_ENABLE.key →
      ((s.linkAnswered g i a r q).dropHandOver r.eui).flag x = s.flag x := fun x hx => by
    have hdict : ((s.linkAnswered g i a r q).dropHandOver r.eui).dict = (s.linkGranted g i (s.linkOf g i a r q)).dict := by
      rw [State.dropHandOver, State.modDomain_dict, State.linkAnswered_dict]
    rw [State.flag, State.rd_congr hdict, State.linkGranted_rd_domain _ _ _ _ hx, State.flag]
  have hoff : ¬ (((s.linkAnswered g i a r q).dropHandOver r.eui).flag K.dom.ROAM_ENABLE &&
      ((s.linkAnswered g i a r q).dropHandOver r.eui).flag K.dom.DOMAIN_ENABLE) = true := by
    rw [hflag _ (.inl rfl), hflag _ (.inr rfl)]
    obtain h | h := hroam
    · simp [h]
    · simp [h]
  simp only [State.grantRoaming, hnew, State.grant_eq hqueue hfree, if_neg hoff]

end New

/-! The statement. -/

section Answer

variable {s : State} {g : Nat} {q : Request} {r : AssocReq} (hup : s.coreUp (segCore g) = true) (henabled : s.segEnabled g = true)
  (hfind : s.mac.requests.find? (fun q => q.seg == g) = some q) (hready : s.rd K.adm.ADMIT_MODE = 0 ∨ s.keys.entropyFail = false)

include hup henabled in
theorem exec_associationRequest_of_enabled : exec (.associationRequest g) s =
    .next ((s.associationRequest g).modPending fun _ => s.pending) := by
  rw [exec_associationRequest_of_coreUp hup, if_pos henabled]

include hup henabled hfind hready

theorem associationRequest_malformed (hshort : q.body.length < 18) :
    ∃ t, exec (.associationRequest g) s = .next t ∧ Counted (K.segs.ASSOC_MALFORMED g) s t ∧
      t.mac = { s.mac with requests := s.mac.requests.erase q } ∧ OnlyRegs [K.segs.ASSOC_MALFORMED g] s t ∧
      OnlyChanges [.dict, .mac] s t := by
  refine ⟨_, exec_associationRequest_of_enabled hup henabled, ?_⟩
  rw [State.associationRequest_of_short hfind hready hshort]
  exact ⟨counted_bump (s.requestTaken q) _, rfl, onlyRegs_bump (s.requestTaken q) _,
    ((onlyChanges_modMac s _).trans (onlyChanges_bump (s.requestTaken q) _)).keptAt (by simp)⟩

variable (hread : assocRead q.body = some r)

include hread

theorem associationRequest_refused {result : Nat} (hdecide : (s.requestTaken q).assocDecide g q.body = (.refused result, s.requestTaken q)) :
    ∃ t d, exec (.associationRequest g) s = .next t ∧ Counted (K.segs.ASSOC_REFUSED g) s t ∧
      t.mac.queue = s.mac.queue ++ [d] ∧ d.kind = .assocResponse ∧ d.type = 5 ∧ d.entry = none ∧ d.seg = g ∧
      d.body = refusalBody result r q ∧ t.mac.requests = s.mac.requests.erase q ∧
      (q.via = none → d.route = [] ∧ (t.seg g).responses = (s.seg g).responses ++ [(d.id, 0)]) ∧
      (∀ v : Nat, q.via = some v → d.route = (s.ep v).route.getD [(s.ep v).addr] ∧ (t.seg g).responses = (s.seg g).responses) ∧
      (∀ j, t.ep j = s.ep j) ∧ OnlyRegs [K.segs.ASSOC_REFUSED g] s t ∧ OnlyChanges [.dict, .mac] s t := by
  have heq : s.associationRequest g = (s.requestTaken q).refuseAssoc g result r q := by
    rw [State.associationRequest_of_read hfind hready hread, hdecide]
    rfl
  have hexec := exec_associationRequest_of_enabled hup henabled
  rw [heq] at hexec
  refine ⟨_, (s.requestTaken q).responseDown g none q.via (refusalBody result r q), hexec, (s.requestTaken q).refuseAssoc_counted g result r q,
    (s.requestTaken q).refuseAssoc_queue g result r q, rfl, rfl, rfl, rfl, rfl, (s.requestTaken q).refuseAssoc_requests g result r q,
    fun hvia => ⟨?_, (s.requestTaken q).refuseAssoc_responses_direct g result r hvia⟩,
    fun v hvia => ⟨?_, (s.requestTaken q).refuseAssoc_responses_relayed g result r hvia⟩, (s.requestTaken q).refuseAssoc_ep g result r q,
    (s.requestTaken q).refuseAssoc_onlyRegs g result r q,
    ((onlyChanges_modMac s _).trans ((s.requestTaken q).refuseAssoc_onlyChanges g result r q)).keptAt (by simp)⟩
  · rw [hvia]
    rfl
  · rw [hvia]
    rfl

/-- A granted request: its entry, its response in the queue, and what else may change. -/
theorem associationRequest_granted {i a : Nat}
    (hdecide : (s.requestTaken q).assocDecide g q.body = (.granted i a none, s.requestTaken q)) (hnew : s.epOfEui r.eui = none)
    (hqueue : ∀ d ∈ s.mac.queue, d.entry ≠ some i) (hfree : (s.ep i).state = 0)
    (hroam : s.flag K.dom.ROAM_ENABLE = false ∨ s.flag K.dom.DOMAIN_ENABLE = false) :
    ∃ t d, exec (.associationRequest g) s = .next t ∧ Counted (K.segs.ASSOC_GRANTED g) s t ∧
      (∃ x b, t.ep i = ((s.requestTaken q).linkOf g i a r q).routedBy x b) ∧
      d ∈ t.mac.queue ∧ d.kind = .assocResponse ∧ d.type = 5 ∧ d.entry = some i ∧ d.body = grantBody r a (s.leaseFor g r.lease) q ∧
      OnlyChanges [.dict, .mac, .flash, .line, .domain] s t := by
  have heq : s.associationRequest g = ((s.requestTaken q).linkAnswered g i a r q).dropHandOver r.eui := by
    rw [State.associationRequest_of_read hfind hready hread, hdecide]
    exact State.grantRoaming_eq hqueue hfree hnew hroam
  have hexec := exec_associationRequest_of_enabled hup henabled
  rw [heq] at hexec
  exact ⟨_, _, hexec, (s.requestTaken q).linkAnswered_counted g i a r q, (s.requestTaken q).linkAnswered_ep g i a r q,
    (s.requestTaken q).linkAnswered_queue g i a r q, rfl, rfl, rfl, rfl,
    (((onlyChanges_modMac s _).trans ((s.requestTaken q).linkAnswered_onlyChanges g i a r q)).trans (onlyChanges_modDomain _ _)).keptAt
      (by simp)⟩

end Answer

/-- Settles O47: a request is taken and decided in the order of the table; a refusal adds its response and nothing else, and a grant writes its
entry, which the new routes change in no field but its route. -/
theorem associationRequestsAreDecidedAndAnswered : Obligations.AssociationRequestsAreDecidedAndAnswered := by
  rintro g s - hup
  have hexec := exec_associationRequest_of_coreUp hup
  refine ⟨fun hoff => ?_, fun hfail hmode => ?_, fun hnone => ?_, fun q henabled hfind hready => ⟨fun hshort => ?_, fun r hread =>
    ⟨fun result hrefused => ?_, fun i a lease hmode hpermit hlow hhigh hrate heui hnew hindex hpick hqueue hfree hroam hlease => ?_⟩⟩⟩
  · exact exec_unchanged hexec (if_neg (by simp [hoff]))
  · exact exec_unchanged hexec (by rw [State.associationRequest_of_wait hfail hmode, ite_self])
  · exact exec_unchanged hexec (by rw [State.associationRequest_of_none hnone, ite_self])
  · exact associationRequest_malformed hup henabled hfind hready hshort
  · exact associationRequest_refused hup henabled hfind hready hread (State.assocDecide_of_refused (s := s.requestTaken q) hread hrefused)
  · have hdecide := State.assocDecide_of_new (s := s.requestTaken q) hread hmode hpermit hlow hhigh hrate hnew hindex hpick
    obtain ⟨t, d, ht, hcounted, ⟨x, b, hep⟩, hd, hkind, htype, hentry, hbody, hparts⟩ :=
      associationRequest_granted hup henabled hfind hready hread hdecide heui hqueue hfree hroam
    subst hlease
    refine ⟨t, d, ht, hcounted, ?_⟩
    rw [hep]
    exact ⟨rfl, rfl, rfl, rfl, rfl, State.leaseEnd_linkOf _ g i a r q, rfl, rfl, rfl, rfl, hd, hkind, htype, hentry, hbody, hparts⟩

end Sys2Proof.Machine

end

section
/-! PROOF. A Draivitar message on its way out: the use of its key, and the port that takes it (R254, R308, R406, R414). -/

namespace Sys2Proof.Machine

theorem onlyChanges_modBh (s : State) (f : Backhaul → Backhaul) : OnlyChanges [.bh] s (s.modBh f) := by
  intro p hp
  cases p <;> simp_all [Part.Same]

/-- Two changes within the same registers, one after the other. -/
theorem OnlyRegs.chain {rs : List Reg} {s t u : State} (h : OnlyRegs rs s t) (h' : OnlyRegs rs t u) : OnlyRegs rs s u :=
  (h.trans h').mono (by simp)

/-! A use of a key slot (R307, R308). -/

/-- The registers that a use of key slot `i` may write. -/
def useRegs (i : Nat) : List Reg := [K.key.USE_COUNT i, K.key.STATE i, K.key.NEAR_LIMIT_SEEN i]

section Use

variable (s : State) (i : Nat)

theorem State.slotSettle_cases : s.slotSettle i = s ∨
    ∃ v, s.slotSettle i = (s.wr (K.key.STATE i) v).setFlag (K.key.NEAR_LIMIT_SEEN i) true := by
  unfold State.slotSettle
  split
  · exact .inl rfl
  · split
    · exact .inr ⟨_, rfl⟩
    · split
      · exact .inr ⟨_, rfl⟩
      · exact .inl rfl

theorem State.slotSettle_onlyRegs : OnlyRegs (useRegs i) s (s.slotSettle i) := by
  obtain h | ⟨v, h⟩ := s.slotSettle_cases i <;> rw [h]
  · exact OnlyRegs.refl _ s
  · exact ((OnlyRegs.refl _ s).wr v (by simp [useRegs])).wr _ (by simp [useRegs])

theorem State.slotSettle_onlyChanges : OnlyChanges [.dict] s (s.slotSettle i) := by
  obtain h | ⟨v, h⟩ := s.slotSettle_cases i <;> rw [h]
  · exact (OnlyChanges.refl s).mono (by simp)
  · exact (onlyChanges_wr s _ v).chain (onlyChanges_wr _ _ _)

theorem State.slotUse_onlyRegs : OnlyRegs (useRegs i) s (s.slotUse i) :=
  OnlyRegs.chain ((OnlyRegs.refl (useRegs i) s).wr (r := K.key.USE_COUNT i) _ (by simp [useRegs])) (State.slotSettle_onlyRegs _ i)

theorem State.slotUse_onlyChanges : OnlyChanges [.dict] s (s.slotUse i) :=
  (onlyChanges_bump s _).chain (State.slotSettle_onlyChanges _ i)

theorem State.slotUse_counted : Counted (K.key.USE_COUNT i) s (s.slotUse i) := by
  have hkept : ((s.bump (K.key.USE_COUNT i)).slotSettle i).rd (K.key.USE_COUNT i) = (s.bump (K.key.USE_COUNT i)).rd (K.key.USE_COUNT i) := by
    obtain h | ⟨v, h⟩ := (s.bump (K.key.USE_COUNT i)).slotSettle_cases i
    · rw [h]
    · rw [h, State.setFlag, State.rd_wr_ne _ _ (by simp [K.key.USE_COUNT, K.key.NEAR_LIMIT_SEEN]),
        State.rd_wr_ne _ _ (by simp [K.key.USE_COUNT, K.key.STATE])]
  exact hkept.trans (State.rd_bump_self s _)

variable {s i}

/-- A slot that is not at its last use nor at its last frame counter may be used again (R307). -/
theorem State.slotUsable_slotSettle (h : s.slotUsable i = true) (hcount : s.rd (K.key.USE_COUNT i) < (s.slot i).limit)
    (hfc : s.rd (K.key.TX_FC i) ≠ fcEnd) : (s.slotSettle i).slotUsable i = true := by
  have hlast : ¬ ((s.slot i).limit ≤ s.rd (K.key.USE_COUNT i) || s.rd (K.key.TX_FC i) == fcEnd) = true := by
    simp [hfc, hcount]
  unfold State.slotSettle
  rw [if_neg (by simp [h]), if_neg (by simpa using hlast)]
  split
  · have hstate : ((s.wr (K.key.STATE i) slotNear).setFlag (K.key.NEAR_LIMIT_SEEN i) true).slotState i = slotNear := by
      rw [State.slotState, State.setFlag, State.rd_wr_ne _ _ (by simp [K.key.STATE, K.key.NEAR_LIMIT_SEEN]), State.rd_wr_self]
      rfl
    simp [State.slotUsable, hstate]
  · exact h

theorem State.slotUsable_slotUse (h : s.slotUsable i = true) (hcount : s.rd (K.key.USE_COUNT i) + 1 < (s.slot i).limit)
    (hfc : s.rd (K.key.TX_FC i) ≠ fcEnd) : (s.slotUse i).slotUsable i = true := by
  refine State.slotUsable_slotSettle ?_ ?_ ?_
  · rw [State.slotUsable, State.slotState, State.rd_bump_ne s (by simp [K.key.STATE, K.key.USE_COUNT])]
    exact h
  · rw [State.rd_bump_self]
    exact lt_of_le_of_lt (Nat.min_le_right _ _) hcount
  · rw [State.rd_bump_ne s (by simp [K.key.TX_FC, K.key.USE_COUNT])]
    exact hfc

end Use

/-! A frame for a port (R404, R406). -/

section Port

variable (s : State) (p : Nat)

theorem State.port_congr {s t : State} (h : t.bh = s.bh) (p : Nat) : t.port p = s.port p := by rw [State.port, h, State.port]

theorem State.port_modPort_self (f : Port → Port) : (s.modPort p f).port p = f (s.port p) := Tbl.atD_modD_self ..

theorem State.port_modPort_ne {p q : Nat} (f : Port → Port) (h : q ≠ p) : (s.modPort p f).port q = s.port q := Tbl.atD_modD_ne _ _ _ h

theorem onlyChanges_modPort (f : Port → Port) : OnlyChanges [.bh] s (s.modPort p f) := onlyChanges_modBh s _

/-- What the start of the next frame leaves as it was: the other ports, and every register but the two counters of sessions (R412). -/
theorem State.startTx_keeps (n : Nat) : OnlyChanges [.dict, .bh] s (s.startTx p n) ∧ (∀ q, q ≠ p → (s.startTx p n).port q = s.port q) ∧
    ∀ r : Reg, (∀ k, r.key ≠ (K.sesss.NO_KEY k).key) → (∀ k, r.key ≠ (K.sesss.TX_MSGS k).key) → (s.startTx p n).rd r = s.rd r := by
  induction n generalizing s with
  | zero => exact ⟨(OnlyChanges.refl s).mono (by simp), fun _ _ => rfl, fun _ _ _ => rfl⟩
  | succ n ih =>
    have hport (u : State) (f : Port → Port) : OnlyChanges [.dict, .bh] u (u.modPort p f) := (onlyChanges_modPort u p f).mono (by simp)
    have hbump (u : State) (r : Reg) : OnlyChanges [.dict, .bh] u (u.bump r) := (onlyChanges_bump u r).mono (by simp)
    unfold State.startTx
    split
    · exact ⟨hport _ _, fun q hq => s.port_modPort_ne _ hq, fun _ _ _ => rfl⟩
    next x xs _ =>
      dsimp only
      split
      next k _ =>
        obtain ⟨hparts, hports, hregs⟩ := ih ((s.modPort p fun q => { q with txq := xs }).bump (K.sesss.NO_KEY k))
        exact ⟨((hport _ _).chain (hbump _ _)).chain hparts, fun q hq => (hports q hq).trans (s.port_modPort_ne _ hq),
          fun r hno htx => (hregs r hno htx).trans (State.rd_bump_ne _ (hno k))⟩
      · have hne : ∀ q, q ≠ p → (((s.modPort p fun q => { q with txq := xs }).modPort p fun q => { q with sending := some x })).port q = s.port q :=
          fun q hq => (State.port_modPort_ne _ _ hq).trans (State.port_modPort_ne _ _ hq)
        split
        next k _ _ _ _ _ =>
          exact ⟨((hport _ _).chain (hport _ _)).chain (hbump _ _), hne, fun r _ htx => State.rd_bump_ne _ (htx k)⟩
        · exact ⟨(hport _ _).chain (hport _ _), hne, fun _ _ _ => rfl⟩

/-- A frame of no session that is alone in the queue goes on the wire. -/
theorem State.startTx_alone {x : TxItem} (htxq : (s.port p).txq = [x]) (hgone : s.sessionGone x.msg = none)
    (hmsg : ∀ k c q b w, x.msg ≠ .northbound k c q b w) :
    (s.startTx p 1).port p = { s.port p with txq := [], sending := some x } := by
  have hgone' : (s.modPort p fun q => { q with txq := [] }).sessionGone x.msg = none := hgone
  unfold State.startTx
  rw [htxq]
  dsimp only
  rw [hgone']
  dsimp only
  split
  next h => exact absurd h (hmsg _ _ _ _ _)
  · rw [State.port_modPort_self, State.port_modPort_self]

variable (x : TxItem)

theorem State.portSend_onlyChanges : OnlyChanges [.dict, .bh] s (s.portSend p x) := by
  unfold State.portSend
  split
  · exact (onlyChanges_bump s _).mono (by simp)
  · have hqueued := (onlyChanges_modPort s p fun q => { q with txq := insertTx x q.txq }).mono (qs := [.dict, .bh]) (by simp)
    dsimp only
    split
    · exact hqueued.chain (State.startTx_keeps _ p _).1
    · exact hqueued

theorem State.portSend_rd {r : Reg} (hdown : r.key ≠ (K.ports.TX_LINK_DOWN p).key) (hno : ∀ k, r.key ≠ (K.sesss.NO_KEY k).key)
    (htx : ∀ k, r.key ≠ (K.sesss.TX_MSGS k).key) : (s.portSend p x).rd r = s.rd r := by
  unfold State.portSend
  split
  · exact State.rd_bump_ne s hdown
  · dsimp only
    split
    · exact (State.startTx_keeps _ p _).2.2 r hno htx
    · rfl

/-- A frame that carries a message of no session is queued on its port (R404, R406). -/
theorem State.portSend_queued (hmsg : ∀ k c q b w, x.msg ≠ .northbound k c q b w) : Queued p x s (s.portSend p x) := by
  have hgone : ∀ u : State, u.sessionGone x.msg = none := fun u => by
    unfold State.sessionGone
    split
    next h => exact absurd h (hmsg _ _ _ _ _)
    · rfl
  have hsend (hup : s.linkUp p = true) : s.portSend p x =
      if (s.port p).sending.isNone then (s.modPort p fun q => { q with txq := insertTx x q.txq }).startTx p (insertTx x (s.port p).txq).length
      else s.modPort p fun q => { q with txq := insertTx x q.txq } := by
    rw [State.portSend, if_neg (by simp [hup])]
    dsimp only
    rw [State.port_modPort_self]
  refine ⟨fun hdown => ?down, fun hup hsending => ?_, fun hup hnone hempty => ?_, fun q hq => ?_⟩
  case down =>
    rw [State.portSend, if_pos (by simp [hdown])]
    exact ⟨counted_bump s _, rfl⟩
  · rw [hsend hup, if_neg (by simpa [Option.isSome_iff_ne_none] using hsending), State.port_modPort_self]
  · rw [hsend hup, if_pos (by simp [hnone]), hempty]
    rw [show (insertTx x []).length = 1 from rfl, State.startTx_alone (x := x) _ _ ?_ (hgone _) hmsg, State.port_modPort_self, ← hempty]
    rw [State.port_modPort_self, hempty]
    rfl
  · unfold State.portSend
    split
    · rfl
    · dsimp only
      split
      · exact ((State.startTx_keeps _ p _).2.1 q hq).trans (s.port_modPort_ne _ hq)
      · exact s.port_modPort_ne _ hq

end Port

end Sys2Proof.Machine

end

section
/-! PROOF. Draivitar messages: what one that goes out is made of, and how one that comes in is judged (R253 to R255, R414). -/

namespace Sys2Proof.Machine

/-! Messages that go out (R254, R414). -/

/-- State `u` is `s` in all that a Draivitar message is made of and goes out by: the clock, the keys, the ports with their addresses and
counters, and the domain's settings. -/
structure SendsAs (s u : State) : Prop where
  now : u.now = s.now
  time : u.time = s.time
  keys : u.keys = s.keys
  bh : u.bh = s.bh
  blobs : u.blobs = s.blobs
  number : u.domain.number = s.domain.number
  id : u.domain.id = s.domain.id
  seq : u.domain.seq = s.domain.seq
  addr : ∀ d, (u.peer d).addr = (s.peer d).addr
  rd : ∀ r : Reg, 0x714000 ≤ r.key → r.key < 0x718100 → u.rd r = s.rd r

/-- The parts beside which a change leaves messages as they are. -/
theorem SendsAs.of_parts {ps : List Part} {s u : State} (h : OnlyChanges ps s u)
    (hps : ∀ p ∈ [Part.now, .time, .keys, .bh, .blobs, .domain, .dict], p ∉ ps) : SendsAs s u := by
  have hdomain : u.domain = s.domain := h .domain (hps _ (by simp))
  exact {
    now := h .now (hps _ (by simp))
    time := h .time (hps _ (by simp))
    keys := h .keys (hps _ (by simp))
    bh := h .bh (hps _ (by simp))
    blobs := h .blobs (hps _ (by simp))
    number := by rw [hdomain]
    id := by rw [hdomain]
    seq := by rw [hdomain]
    addr := fun d => by rw [State.peer, hdomain, State.peer]
    rd := fun r _ _ => State.rd_congr (h .dict (hps _ (by simp))) r }

theorem SendsAs.trans {s u v : State} (h : SendsAs s u) (h' : SendsAs u v) : SendsAs s v where
  now := h'.now.trans h.now
  time := h'.time.trans h.time
  keys := h'.keys.trans h.keys
  bh := h'.bh.trans h.bh
  blobs := h'.blobs.trans h.blobs
  number := h'.number.trans h.number
  id := h'.id.trans h.id
  seq := h'.seq.trans h.seq
  addr := fun d => (h'.addr d).trans (h.addr d)
  rd := fun r hlo hhi => (h'.rd r hlo hhi).trans (h.rd r hlo hhi)

theorem SendsAs.wr (s : State) {r : Reg} (v : Nat) (hr : r.key < 0x714000 ∨ 0x718100 ≤ r.key) : SendsAs s (s.wr r v) where
  now := rfl
  time := rfl
  keys := rfl
  bh := rfl
  blobs := rfl
  number := rfl
  id := rfl
  seq := rfl
  addr := fun _ => rfl
  rd := fun q _ _ => State.rd_wr_ne s v (by omega)

/-- A change of the domain that keeps its settings, the next sequence number and the addresses. -/
theorem SendsAs.modDomain (s : State) {f : Domain → Domain} (hnumber : (f s.domain).number = s.domain.number)
    (hid : (f s.domain).id = s.domain.id) (hseq : (f s.domain).seq = s.domain.seq)
    (haddr : ∀ d, ((s.modDomain f).peer d).addr = (s.peer d).addr) : SendsAs s (s.modDomain f) where
  now := rfl
  time := rfl
  keys := rfl
  bh := rfl
  blobs := rfl
  number := hnumber
  id := hid
  seq := hseq
  addr := haddr
  rd := fun _ _ _ => rfl

theorem SendsAs.slotUse (s : State) {i : Nat} (hi : i < 1024) : SendsAs s (s.slotUse i) := by
  have hparts := s.slotUse_onlyChanges i
  have hdomain : (s.slotUse i).domain = s.domain := hparts .domain (by simp)
  refine ⟨hparts .now (by simp), hparts .time (by simp), hparts .keys (by simp), hparts .bh (by simp), hparts .blobs (by simp),
    by rw [hdomain], by rw [hdomain], by rw [hdomain], fun d => by rw [State.peer, hdomain, State.peer], fun r hlo hhi => ?_⟩
  refine (s.slotUse_onlyRegs i).rd fun hmem => ?_
  simp only [useRegs, K.key.USE_COUNT, K.key.STATE, K.key.NEAR_LIMIT_SEEN, List.map_cons, List.map_nil, List.mem_cons, List.not_mem_nil,
    or_false] at hmem
  omega

section Sends

variable {s u t : State} (h : SendsAs s u)

include h

theorem SendsAs.slot : u.rd K.dom.DOMAIN_KEY_SLOT = s.rd K.dom.DOMAIN_KEY_SLOT := h.rd _ (by decide) (by decide)

theorem SendsAs.enabled : u.flag K.dom.DOMAIN_ENABLE = s.flag K.dom.DOMAIN_ENABLE := by
  rw [State.flag, h.rd _ (by decide) (by decide), State.flag]

theorem SendsAs.dt : u.dt = s.dt := by rw [State.dt, State.dtOf, h.time, h.now, State.dt, State.dtOf]

theorem SendsAs.domainKey : u.domainKey = s.domainKey := by
  rw [State.domainKey, State.slot, h.keys, h.slot, State.domainKey, State.slot]

theorem SendsAs.header (type len : Nat) : u.drvHeader type len = s.drvHeader type len := by
  rw [State.drvHeader, h.number, h.id, h.seq, h.dt, State.drvHeader]

theorem SendsAs.group : (u.portCfg u.bh.domainPort).group = (s.portCfg s.bh.domainPort).group := by
  rw [State.portCfg, State.portCfg, h.bh, State.port_congr h.bh]
  cases (s.port s.bh.domainPort).cfg with
  | some c => rfl
  | none => exact congrArg (fun b => Tbl.atD b K.bh.DOMAIN_GROUP.key K.bh.DOMAIN_GROUP.dflt) h.blobs

theorem SendsAs.address (peer : Option Nat) : u.drvAddr peer = s.drvAddr peer := by
  cases peer with
  | none => exact h.group
  | some d => exact h.addr d

variable (hport : s.bh.domainPort < 4)

include hport

/-- A frame given to the domain's port is seen from any state that sends as this one. -/
theorem SendsAs.queued {x : TxItem} (hq : Queued s.bh.domainPort x u t) : Queued s.bh.domainPort x s t := by
  have hup : u.linkUp s.bh.domainPort = s.linkUp s.bh.domainPort := by
    rw [State.linkUp, State.flag, h.rd _ (by simp only [K.ports.LINK_UP]; omega) (by simp only [K.ports.LINK_UP]; omega), State.linkUp,
      State.flag]
  have hdown : u.rd (K.ports.TX_LINK_DOWN s.bh.domainPort) = s.rd (K.ports.TX_LINK_DOWN s.bh.domainPort) :=
    h.rd _ (by simp only [K.ports.TX_LINK_DOWN]; omega) (by simp only [K.ports.TX_LINK_DOWN]; omega)
  obtain ⟨hlost, hwaits, hgoes, hothers⟩ := hq
  rw [hup, State.port_congr h.bh] at *
  rw [h.bh] at hlost
  exact ⟨fun hl => ⟨(hlost hl).1.of_rd_eq hdown, (hlost hl).2⟩, hwaits, hgoes, fun q hq' => (hothers q hq').trans (State.port_congr h.bh q)⟩

/-- A message that goes out is seen from any state that sends as this one. -/
theorem SendsAs.drvSends {type : Nat} {peer : Option Nat} {body : List Byte} (hsends : DrvSends type peer body u t) :
    DrvSends type peer body s t := by
  unfold DrvSends at hsends ⊢
  rw [h.address, h.header, h.domainKey, h.bh, h.seq] at hsends
  exact ⟨fun ha => ⟨h.queued hport (hsends.1 ha).1, (hsends.1 ha).2⟩, hsends.2⟩

end Sends

/-- What follows a message, and leaves the ports and the next sequence number alone, does not change that it went out. -/
theorem DrvSends.later {type : Nat} {peer : Option Nat} {body : List Byte} {s t v : State} (h : DrvSends type peer body s t)
    (hbh : v.bh = t.bh) (hseq : v.domain.seq = t.domain.seq)
    (hrd : v.rd (K.ports.TX_LINK_DOWN s.bh.domainPort) = t.rd (K.ports.TX_LINK_DOWN s.bh.domainPort)) : DrvSends type peer body s v := by
  obtain ⟨hgoes, hstays⟩ := h
  refine ⟨fun ha => ?_, fun ha => ⟨hbh.trans (hstays ha).1, hseq.trans (hstays ha).2⟩⟩
  obtain ⟨⟨hlost, hwaits, hsent, hothers⟩, hnext⟩ := hgoes ha
  refine ⟨⟨fun hl => ⟨?_, hbh.trans (hlost hl).2⟩, fun hl hs => (State.port_congr hbh _).trans (hwaits hl hs),
    fun hl hn he => (State.port_congr hbh _).trans (hsent hl hn he), fun q hq => (State.port_congr hbh q).trans (hothers q hq)⟩, hseq.trans hnext⟩
  rw [Counted, hrd]
  exact (hlost hl).1

section Send

variable (s : State) (type : Nat) (peer : Option Nat) (body : List Byte)

theorem State.drvSend_cases : s.drvSend type peer body = s ∨ ∃ x, s.drvSend type peer body =
    ((s.slotUse (s.rd K.dom.DOMAIN_KEY_SLOT)).modDomain fun d => { d with seq := (d.seq + 1) % 2 ^ 32 }).portSend
      (s.slotUse (s.rd K.dom.DOMAIN_KEY_SLOT)).bh.domainPort x := by
  unfold State.drvSend
  dsimp only
  split
  · exact .inl rfl
  · exact .inr ⟨_, rfl⟩

theorem State.drvSend_onlyChanges : OnlyChanges [.dict, .bh, .domain] s (s.drvSend type peer body) := by
  obtain h | ⟨x, h⟩ := s.drvSend_cases type peer body <;> rw [h]
  · exact (OnlyChanges.refl s).mono (by simp)
  · exact (((s.slotUse_onlyChanges _).trans (onlyChanges_modDomain _ _)).trans (State.portSend_onlyChanges _ _ _)).mono (by simp)

/-- A message leaves of the domain all but the next sequence number. -/
theorem State.drvSend_domain : ∃ q, (s.drvSend type peer body).domain = { s.domain with seq := q } := by
  obtain h | ⟨x, h⟩ := s.drvSend_cases type peer body <;> rw [h]
  · exact ⟨s.domain.seq, rfl⟩
  · refine ⟨(s.domain.seq + 1) % 2 ^ 32, ?_⟩
    rw [State.portSend_onlyChanges _ _ _ .domain (by simp), State.modDomain_domain, s.slotUse_onlyChanges _ .domain (by simp)]

/-- A counter of the domain that no session's counter shares its subindex with is as before a message (R266, R425). -/
theorem State.drvSend_rd (hslot : s.rd K.dom.DOMAIN_KEY_SLOT < 1024) (hport : s.bh.domainPort < 4) {r : Reg} (hlo : 0x718100 ≤ r.key)
    (hsub : r.key % 256 ≠ 2 ∧ r.key % 256 ≠ 6) : (s.drvSend type peer body).rd r = s.rd r := by
  obtain h | ⟨x, h⟩ := s.drvSend_cases type peer body <;> rw [h]
  have hbh : (s.slotUse (s.rd K.dom.DOMAIN_KEY_SLOT)).bh = s.bh := s.slotUse_onlyChanges _ .bh (by simp)
  rw [hbh, State.portSend_rd]
  · refine (s.slotUse_onlyRegs _).rd fun hmem => ?_
    simp only [useRegs, K.key.USE_COUNT, K.key.STATE, K.key.NEAR_LIMIT_SEEN, List.map_cons, List.map_nil, List.mem_cons,
      List.not_mem_nil, or_false] at hmem
    omega
  · simp only [K.ports.TX_LINK_DOWN]
    omega
  · intro k
    simp only [K.sesss.NO_KEY]
    omega
  · intro k
    simp only [K.sesss.TX_MSGS]
    omega

variable {s}

/-- While the domain is enabled and its key usable, a message goes out under the key's next use (R254, R414). -/
theorem State.drvSend_sends (hon : s.flag K.dom.DOMAIN_ENABLE = true) (husable : s.slotUsable (s.rd K.dom.DOMAIN_KEY_SLOT) = true)
    (hslot : s.rd K.dom.DOMAIN_KEY_SLOT < 1024) (hport : s.bh.domainPort < 4) : DrvSends type peer body s (s.drvSend type peer body) := by
  have huse := SendsAs.slotUse s hslot
  constructor
  · intro haddr
    have hcan : ¬ (!s.flag K.dom.DOMAIN_ENABLE || !s.slotUsable (s.rd K.dom.DOMAIN_KEY_SLOT) || s.drvAddr peer == []) = true := by
      simp [hon, husable, haddr]
    have hbh : (s.slotUse (s.rd K.dom.DOMAIN_KEY_SLOT)).bh = s.bh := huse.bh
    have haddr' : (((s.slotUse (s.rd K.dom.DOMAIN_KEY_SLOT)).modDomain fun d => { d with seq := (d.seq + 1) % 2 ^ 32 }).drvAddr peer) =
        s.drvAddr peer := Eq.trans (by cases peer <;> rfl) (huse.address peer)
    unfold State.drvSend
    dsimp only
    rw [if_neg hcan, State.modDomain_bh, hbh, haddr']
    refine ⟨huse.queued hport ?_, ?_⟩
    · exact State.portSend_queued ((s.slotUse _).modDomain _) s.bh.domainPort _ (by simp)
    · rw [State.portSend_onlyChanges _ _ _ .domain (by simp), State.modDomain_domain, huse.seq]
  · intro haddr
    have hcannot : (!s.flag K.dom.DOMAIN_ENABLE || !s.slotUsable (s.rd K.dom.DOMAIN_KEY_SLOT) || s.drvAddr peer == []) = true := by
      simp [haddr]
    have heq : s.drvSend type peer body = s := by
      unfold State.drvSend
      dsimp only
      rw [if_pos hcannot]
    rw [heq]
    exact ⟨rfl, rfl⟩

end Send

end Sys2Proof.Machine

end

section
/-! PROOF. How a Draivitar message that comes in is judged (R253 to R255, R308). -/

namespace Sys2Proof.Machine

/-! Devices that can send (R254). -/

/-- The domain is enabled, its key is usable, and the slot and the port of the domain exist. -/
structure State.CanSend (s : State) : Prop where
  enabled : s.flag K.dom.DOMAIN_ENABLE = true
  usable : s.slotUsable (s.rd K.dom.DOMAIN_KEY_SLOT) = true
  slot : s.rd K.dom.DOMAIN_KEY_SLOT < 1024
  port : s.bh.domainPort < 4

theorem DrvReady.coreUp {s : State} (h : DrvReady s) : s.coreUp 6 = true := h.1

theorem DrvReady.canSend {s : State} (h : DrvReady s) : s.CanSend := by
  obtain ⟨-, henabled, husable, hslot, hport, -⟩ := h
  exact ⟨henabled, husable, hslot, hport⟩

/-- A state that sends as one that can, with its key slot in the same state, can send. -/
theorem State.CanSend.of_sendsAs {s u : State} (hs : s.CanSend) (h : SendsAs s u)
    (hstate : u.slotState (s.rd K.dom.DOMAIN_KEY_SLOT) = s.slotState (s.rd K.dom.DOMAIN_KEY_SLOT)) : u.CanSend where
  enabled := h.enabled.trans hs.enabled
  usable := by
    rw [h.slot, State.slotUsable, hstate]
    exact hs.usable
  slot := h.slot ▸ hs.slot
  port := h.bh ▸ hs.port

/-- What a state that can send sends, goes out as from any state that sends as it does. -/
theorem State.CanSend.sends {s u : State} (hu : u.CanSend) (h : SendsAs s u) (type : Nat) (peer : Option Nat) (body : List Byte) :
    DrvSends type peer body s (u.drvSend type peer body) :=
  h.drvSends (h.bh ▸ hu.port) (State.drvSend_sends type peer body hu.enabled hu.usable hu.slot hu.port)

/-! Peers. -/

section Peers

variable (s : State)

theorem State.peer_congr {s t : State} (h : t.domain = s.domain) (d : Nat) : t.peer d = s.peer d := by rw [State.peer, h, State.peer]

theorem State.peer_modPeer_self (d : Nat) (f : Peer → Peer) : (s.modPeer d f).peer d = f (s.peer d) := Tbl.atD_modD_self ..

theorem State.peer_modPeer_ne {d e : Nat} (f : Peer → Peer) (h : e ≠ d) : (s.modPeer d f).peer e = s.peer e := Tbl.atD_modD_ne _ _ _ h

theorem onlyChanges_modPeer (d : Nat) (f : Peer → Peer) : OnlyChanges [.domain] s (s.modPeer d f) := onlyChanges_modDomain s _

/-- A change of a peer that keeps its address leaves messages as they are. -/
theorem SendsAs.modPeer (d : Nat) {f : Peer → Peer} (hf : (f (s.peer d)).addr = (s.peer d).addr) : SendsAs s (s.modPeer d f) :=
  SendsAs.modDomain s rfl rfl rfl fun e => by
    by_cases hed : e = d
    · subst hed
      exact (congrArg Peer.addr (s.peer_modPeer_self e f)).trans hf
    · exact congrArg Peer.addr (s.peer_modPeer_ne f hed)

end Peers

/-! The judgement. -/

/-- A message of header `h` has been accepted: its CMAC has used the domain's key, and its peer's last message is this one. -/
def State.drvHeard (s : State) (h : DrvHead) : State :=
  (s.slotUse (s.rd K.dom.DOMAIN_KEY_SLOT)).modPeer h.src fun p => { p with last := some (h.seq, h.sent) }

section Accept

variable {s : State} {type : Nat} {header body cmac : List Byte} {h : DrvHead}

theorem State.drvAccept_of_unfit (hunfit : drvRead header = none ∨ s.flag K.dom.DOMAIN_ENABLE = false ∨
    drvRead header = some h ∧ (h.type ≠ type ∨ h.version ≠ 1 ∨ h.len ≠ body.length ∨ h.domain ≠ s.domain.id)) :
    s.drvAccept type header body cmac = (none, s) := by
  unfold State.drvAccept
  split
  · rfl
  next h' hread =>
    refine if_pos ?_
    obtain hnone | hoff | ⟨hsome, hwrong⟩ := hunfit
    · exact absurd (hread.symm.trans hnone) (by simp)
    · simp [hoff]
    · obtain rfl : h' = h := Option.some.inj (hread.symm.trans hsome)
      simp only [Bool.or_eq_true, decide_eq_true_eq, Bool.not_eq_true']
      tauto

section Own

variable (henabled : s.flag K.dom.DOMAIN_ENABLE = true) (hread : drvRead header = some h) (htype : h.type = type) (hversion : h.version = 1)
variable (hlen : h.len = body.length) (hdomain : h.domain = s.domain.id) (hsrc : h.src = s.domain.number)

include henabled hread htype hversion hlen hdomain hsrc

/-- A message with the device's own number is no peer's; a HELLO of good CMAC is compared with the device (R253). -/
theorem State.drvAccept_of_own : s.drvAccept type header body cmac = (none,
    if s.slotUsable (s.rd K.dom.DOMAIN_KEY_SLOT) && cmacOf s.domainKey (header ++ body) == cmac then
      (s.slotUse (s.rd K.dom.DOMAIN_KEY_SLOT)).drvClash h body
    else s) := by
  unfold State.drvAccept
  rw [hread]
  dsimp only
  rw [if_neg (by simp [henabled, htype, hversion, hlen, hdomain]), if_pos hsrc]
  rfl

end Own

section From

variable (henabled : s.flag K.dom.DOMAIN_ENABLE = true) (hfrom : DrvFrom type header body h s)

include henabled hfrom

/-- A message from another device in good form is judged by the domain's key, its CMAC and its age, in this order. -/
theorem State.drvAccept_of_from : s.drvAccept type header body cmac =
    if s.slotUsable (s.rd K.dom.DOMAIN_KEY_SLOT) = false then (none, s.bump K.doms.DRV_AUTH_FAIL)
    else if cmac ≠ cmacOf s.domainKey (header ++ body) then (none, (s.slotUse (s.rd K.dom.DOMAIN_KEY_SLOT)).bump K.doms.DRV_AUTH_FAIL)
    else if s.drvStale h = true then (none, (s.slotUse (s.rd K.dom.DOMAIN_KEY_SLOT)).bump K.doms.DRV_STALE)
    else (some h.src, s.drvHeard h) := by
  obtain ⟨hread, htype, hversion, hlen, hdomain, hsrc⟩ := hfrom
  have hparts := s.slotUse_onlyChanges (s.rd K.dom.DOMAIN_KEY_SLOT)
  have hstale : (s.slotUse (s.rd K.dom.DOMAIN_KEY_SLOT)).drvStale h = s.drvStale h := by
    rw [State.drvStale, State.dt, State.dtOf, hparts .time (by simp), hparts .now (by simp),
      State.peer_congr (hparts .domain (by simp)), State.drvStale, State.dt, State.dtOf]
  have hcmac : (!cmacOf (s.slot (s.rd K.dom.DOMAIN_KEY_SLOT)).key (header ++ body) == cmac) = true ↔
      cmac ≠ cmacOf s.domainKey (header ++ body) := by
    rw [Bool.not_eq_true', beq_eq_false_iff_ne]
    exact ne_comm
  unfold State.drvAccept
  rw [hread]
  dsimp only
  rw [if_neg (by simp [henabled, htype, hversion, hlen, hdomain]), if_neg hsrc, hstale]
  simp only [hcmac, Bool.not_eq_true']
  rfl

theorem State.drvAccept_of_good (husable : s.slotUsable (s.rd K.dom.DOMAIN_KEY_SLOT) = true)
    (hgood : cmac = cmacOf s.domainKey (header ++ body)) (hfresh : s.drvStale h = false) :
    s.drvAccept type header body cmac = (some h.src, s.drvHeard h) := by
  rw [State.drvAccept_of_from henabled hfrom, if_neg (by simp [husable]), if_neg (by simp [hgood]), if_neg (by simp [hfresh])]

end From

end Accept

/-! An accepted message. -/

section Heard

variable (s : State) (h : DrvHead)

theorem State.drvHeard_onlyChanges : OnlyChanges [.dict, .domain] s (s.drvHeard h) :=
  (s.slotUse_onlyChanges _).trans (onlyChanges_modPeer _ _ _)

theorem State.drvHeard_peers : (s.drvHeard h).domain =
    { s.domain with peers := Tbl.modD Peer.empty s.domain.peers h.src fun p => { p with last := some (h.seq, h.sent) } } := by
  rw [State.drvHeard, State.modPeer, State.modDomain_domain, s.slotUse_onlyChanges _ .domain (by simp)]

theorem State.drvHeard_peer : (s.drvHeard h).peer h.src = { s.peer h.src with last := some (h.seq, h.sent) } := by
  rw [State.drvHeard, State.peer_modPeer_self, State.peer_congr (s.slotUse_onlyChanges _ .domain (by simp))]

theorem State.drvHeard_peer_ne {d : Nat} (hd : d ≠ h.src) : (s.drvHeard h).peer d = s.peer d := by
  rw [State.drvHeard, State.peer_modPeer_ne _ _ hd, State.peer_congr (s.slotUse_onlyChanges _ .domain (by simp))]

variable {s}

theorem State.drvHeard_rd (hslot : s.rd K.dom.DOMAIN_KEY_SLOT < 1024) {r : Reg} (hr : r.key < 0x540000 ∨ 0x580000 ≤ r.key) :
    (s.drvHeard h).rd r = s.rd r := by
  refine (s.slotUse_onlyRegs _).rd (r := r) fun hmem => ?_
  simp only [useRegs, K.key.USE_COUNT, K.key.STATE, K.key.NEAR_LIMIT_SEEN, List.map_cons, List.map_nil, List.mem_cons, List.not_mem_nil,
    or_false] at hmem
  omega

theorem SendsAs.drvHeard (hslot : s.rd K.dom.DOMAIN_KEY_SLOT < 1024) : SendsAs s (s.drvHeard h) :=
  (SendsAs.slotUse s hslot).trans (SendsAs.modPeer _ _ rfl)

/-- A device that is ready can still send once it has checked a message. -/
theorem DrvReady.canSend_heard (hs : DrvReady s) : (s.drvHeard h).CanSend := by
  obtain ⟨-, henabled, husable, hslot, hport, -, hcount, hfc⟩ := hs
  have hsame := SendsAs.drvHeard h hslot
  refine ⟨hsame.enabled.trans henabled, ?_, hsame.slot ▸ hslot, hsame.bh ▸ hport⟩
  rw [hsame.slot]
  exact State.slotUsable_slotUse husable (by omega) hfc

/-- A device that is ready accepts a fresh message of good CMAC. -/
theorem DrvReady.accepts (hs : DrvReady s) {type : Nat} {header body cmac : List Byte} {h : DrvHead}
    (hgood : cmac = cmacOf s.domainKey (header ++ body)) (hfresh : s.drvStale h = false) (hfrom : DrvFrom type header body h s) :
    s.drvAccept type header body cmac = (some h.src, s.drvHeard h) :=
  State.drvAccept_of_good hs.canSend.enabled hfrom hs.canSend.usable hgood hfresh

end Heard

/-! The commands of Draivitar messages while C6 runs. -/

section Exec

variable {s : State} (hup : s.coreUp 6 = true)

include hup

/-- A message that is not accepted has no effect but that of its judgement. -/
theorem exec_drvCommand_of_refused {addr header body cmac : List Byte} {c : Instr} {type : Nat} {t : State}
    (hc : (c, type) ∈ drvCommands addr header body cmac) (h : s.drvAccept type header body cmac = (none, t)) :
    exec c s = .next (t.modPending fun _ => s.pending) := by
  simp only [drvCommands, List.mem_cons, Prod.mk.injEq, List.not_mem_nil, or_false] at hc
  obtain ⟨rfl, rfl⟩ | ⟨rfl, rfl⟩ | ⟨rfl, rfl⟩ | ⟨rfl, rfl⟩ | ⟨rfl, rfl⟩ | ⟨rfl, rfl⟩ | ⟨rfl, rfl⟩ := hc
  · have heq : s.helloRx addr header body cmac = t := by simp only [State.helloRx, drvHello, h]
    exact heq ▸ onCore_of_coreUp hup _
  · have heq : s.couplingRx header body cmac = t := by simp only [State.couplingRx, drvCoupling, h]
    exact heq ▸ onCore_of_coreUp hup _
  · have heq : s.slotMapRx header body cmac = t := by simp only [State.slotMapRx, drvSlotMap, h]
    exact heq ▸ onCore_of_coreUp hup _
  · have heq : s.roamQueryRx header body cmac = t := by simp only [State.roamQueryRx, drvRoamQuery, h]
    exact heq ▸ onCore_of_coreUp hup _
  · have heq : s.roamOfferRx header body cmac = t := by simp only [State.roamOfferRx, drvRoamOffer, h]
    exact heq ▸ onCore_of_coreUp hup _
  · have heq : s.roamAcceptRx header body cmac = t := by simp only [State.roamAcceptRx, drvRoamAccept, h]
    exact heq ▸ onCore_of_coreUp hup _
  · have heq : s.txnRelayRx header body cmac = t := by simp only [State.txnRelayRx, drvTxnRelay, h]
    exact heq ▸ onCore_of_coreUp hup _

theorem exec_hello_of_coreUp (addr header body cmac : List Byte) :
    exec (.hello addr header body cmac) s = .next ((s.helloRx addr header body cmac).modPending fun _ => s.pending) := onCore_of_coreUp hup _

theorem exec_coupling_of_coreUp (header body cmac : List Byte) :
    exec (.coupling header body cmac) s = .next ((s.couplingRx header body cmac).modPending fun _ => s.pending) := onCore_of_coreUp hup _

theorem exec_slotMap_of_coreUp (header body cmac : List Byte) :
    exec (.slotMap header body cmac) s = .next ((s.slotMapRx header body cmac).modPending fun _ => s.pending) := onCore_of_coreUp hup _

theorem exec_peerAbsent_of_coreUp (d : Nat) :
    exec (.peerAbsent d) s = .next ((s.peerAbsent d).modPending fun _ => s.pending) := onCore_of_coreUp hup _

theorem exec_helloSend_of_coreUp : exec .helloSend s = .next (s.helloSend.modPending fun _ => s.pending) := onCore_of_coreUp hup _

theorem exec_couplingSend_of_coreUp : exec .couplingSend s = .next (s.couplingSend.modPending fun _ => s.pending) := onCore_of_coreUp hup _

theorem exec_coupleAgeExpiry_of_coreUp (g nid : Nat) :
    exec (.coupleAgeExpiry g nid) s = .next ((s.coupleAge g nid).modPending fun _ => s.pending) := onCore_of_coreUp hup _

theorem exec_slotMapSend_of_coreUp (g : Nat) :
    exec (.slotMapSend g) s = .next ((s.slotMapSend g).modPending fun _ => s.pending) := onCore_of_coreUp hup _

theorem exec_claimResolve_of_coreUp (g : Nat) :
    exec (.claimResolve g) s = .next ((s.claimResolve g).modPending fun _ => s.pending) := onCore_of_coreUp hup _

end Exec

end Sys2Proof.Machine

end

section
/-! PROOF. O56: what Draivitar messages do, and what the device sends of its own accord (R253 to R258). -/

namespace Sys2Proof.Machine

theorem length_leBytes (n v : Nat) : (leBytes n v).length = n := by
  induction n generalizing v with
  | zero => rfl
  | succ n ih => rw [leBytes, List.length_cons, ih]

theorem length_beBytes (n v : Nat) : (beBytes n v).length = n := by rw [beBytes, List.length_reverse, length_leBytes]

/-- A list made of records of `n` bytes. -/
theorem length_flatMap_const {α : Type} {f : α → List Byte} {n : Nat} (h : ∀ x, (f x).length = n) (l : List α) :
    (l.flatMap f).length = n * l.length := by
  induction l with
  | nil => rfl
  | cons x l ih => rw [List.flatMap_cons, List.length_append, h, ih, List.length_cons, Nat.mul_succ, Nat.add_comm]

/-- What a meaning does is what its command does: the queue that is put back is no part of it. -/
theorem exec_next_of {i : Instr} {s t : State} {P : State → Prop} (hexec : exec i s = .next (t.modPending fun _ => s.pending))
    (hkeeps : ∀ u, P u → P (u.modPending fun _ => s.pending)) (h : P t) : ∃ u, exec i s = .next u ∧ P u := ⟨_, hexec, hkeeps t h⟩

/-! Messages that are refused, and HELLOs with the device's own number (R253, R255). -/

section Refused

variable {s : State} (hup : s.coreUp 6 = true) {addr header body cmac : List Byte} {c : Instr} {type : Nat} {h : DrvHead}
variable (hc : (c, type) ∈ drvCommands addr header body cmac)

include hup hc

theorem drvMessage_unfit (hunfit : drvRead header = none ∨ s.flag K.dom.DOMAIN_ENABLE = false ∨
    drvRead header = some h ∧ (h.type ≠ type ∨ h.version ≠ 1 ∨ h.len ≠ body.length ∨ h.domain ≠ s.domain.id)) : exec c s = .next s :=
  exec_unchanged (exec_drvCommand_of_refused hup hc (State.drvAccept_of_unfit hunfit)) rfl

/-- A message whose CMAC has been checked and that is refused then counts a use of the key and its cause `r`. -/
theorem drvMessage_counted {r : Reg} (hslot : s.rd K.dom.DOMAIN_KEY_SLOT < 1024) (hr : 0x718100 ≤ r.key)
    (hjudged : s.drvAccept type header body cmac = (none, (s.slotUse (s.rd K.dom.DOMAIN_KEY_SLOT)).bump r)) :
    ∃ t, exec c s = .next t ∧ Counted r s t ∧ Counted (K.key.USE_COUNT (s.rd K.dom.DOMAIN_KEY_SLOT)) s t ∧
      OnlyRegs (r :: useRegs (s.rd K.dom.DOMAIN_KEY_SLOT)) s t ∧ OnlyChanges [.dict] s t := by
  refine ⟨_, exec_drvCommand_of_refused hup hc hjudged, (counted_bump _ r).of_rd_eq ?_, Eq.trans ?_ (s.slotUse_counted _), ?_,
    ((s.slotUse_onlyChanges _).chain (onlyChanges_bump _ _)).keepQueue⟩
  · refine (s.slotUse_onlyRegs _).rd fun hmem => ?_
    simp only [useRegs, K.key.USE_COUNT, K.key.STATE, K.key.NEAR_LIMIT_SEEN, List.map_cons, List.map_nil, List.mem_cons,
      List.not_mem_nil, or_false] at hmem
    omega
  · exact State.rd_bump_ne _ (by simp only [K.key.USE_COUNT]; omega)
  · exact ((s.slotUse_onlyRegs _).mono (List.subset_cons_self _ _)).wr _ (List.mem_cons_self ..)

variable (henabled : s.flag K.dom.DOMAIN_ENABLE = true) (hfrom : DrvFrom type header body h s)

include henabled hfrom

theorem drvMessage_keyless (hkeyless : s.slotUsable (s.rd K.dom.DOMAIN_KEY_SLOT) = false) :
    ∃ t, exec c s = .next t ∧ Counted K.doms.DRV_AUTH_FAIL s t ∧ OnlyRegs [K.doms.DRV_AUTH_FAIL] s t ∧ OnlyChanges [.dict] s t := by
  have hjudged : s.drvAccept type header body cmac = (none, s.bump K.doms.DRV_AUTH_FAIL) := by
    rw [State.drvAccept_of_from henabled hfrom, if_pos hkeyless]
  exact ⟨_, exec_drvCommand_of_refused hup hc hjudged, counted_bump s _, onlyRegs_bump s _, (onlyChanges_bump s _).keepQueue⟩

end Refused

/-- A HELLO that passes its CMAC with the device's own number tells by its EUI-64 whether another device has that number (R253). -/
theorem hello_own {s : State} (hup : s.coreUp 6 = true) {addr header body cmac : List Byte} {h : DrvHead}
    (henabled : s.flag K.dom.DOMAIN_ENABLE = true) (hread : drvRead header = some h) (htype : h.type = 1) (hversion : h.version = 1)
    (hlen : h.len = 17) (hbody : body.length = 17) (hdomain : h.domain = s.domain.id) (hsrc : h.src = s.domain.number)
    (hslot : s.rd K.dom.DOMAIN_KEY_SLOT < 1024) :
    (s.slotUsable (s.rd K.dom.DOMAIN_KEY_SLOT) = true → cmac = cmacOf s.domainKey (header ++ body) →
      ∃ t, exec (.hello addr header body cmac) s = .next t ∧
        t.flag K.doms.DEVICE_CLASH = (s.flag K.doms.DEVICE_CLASH || decide (ofBe ((body.drop 8).take 8) ≠ s.flash.eui64)) ∧
        Counted (K.key.USE_COUNT (s.rd K.dom.DOMAIN_KEY_SLOT)) s t ∧ OnlyChanges [.dict] s t) ∧
    (cmac ≠ cmacOf s.domainKey (header ++ body) ∨ s.slotUsable (s.rd K.dom.DOMAIN_KEY_SLOT) = false →
      exec (.hello addr header body cmac) s = .next s) := by
  have hjudged := State.drvAccept_of_own (cmac := cmac) henabled hread htype hversion (hlen.trans hbody.symm) hdomain hsrc
  have hexec := exec_drvCommand_of_refused hup (addr := addr) (c := .hello addr header body cmac) (type := 1) (by simp [drvCommands]) hjudged
  refine ⟨fun husable hgood => ?_, fun hbad => exec_unchanged hexec (if_neg ?_)⟩
  · rw [if_pos (by simp [husable, hgood])] at hexec
    have hparts := s.slotUse_onlyChanges (s.rd K.dom.DOMAIN_KEY_SLOT)
    have hflash : (s.slotUse (s.rd K.dom.DOMAIN_KEY_SLOT)).flash = s.flash := hparts .flash (by simp)
    have hclash : (s.slotUse (s.rd K.dom.DOMAIN_KEY_SLOT)).flag K.doms.DEVICE_CLASH = s.flag K.doms.DEVICE_CLASH := by
      rw [State.flag, (s.slotUse_onlyRegs _).rd fun hmem => ?_, State.flag]
      simp only [useRegs, K.doms.DEVICE_CLASH, K.key.USE_COUNT, K.key.STATE, K.key.NEAR_LIMIT_SEEN, List.map_cons, List.map_nil,
        List.mem_cons, List.not_mem_nil, or_false] at hmem
      omega
    have hcount := s.slotUse_counted (s.rd K.dom.DOMAIN_KEY_SLOT)
    have heffect : ((s.slotUse (s.rd K.dom.DOMAIN_KEY_SLOT)).drvClash h body).flag K.doms.DEVICE_CLASH =
          (s.flag K.doms.DEVICE_CLASH || decide (ofBe ((body.drop 8).take 8) ≠ s.flash.eui64)) ∧
        Counted (K.key.USE_COUNT (s.rd K.dom.DOMAIN_KEY_SLOT)) s ((s.slotUse (s.rd K.dom.DOMAIN_KEY_SLOT)).drvClash h body) ∧
        OnlyChanges [.dict] s ((s.slotUse (s.rd K.dom.DOMAIN_KEY_SLOT)).drvClash h body) := by
      unfold State.drvClash
      by_cases heui : ofBe ((body.drop 8).take 8) = s.flash.eui64
      · rw [if_neg (by simp [hflash, heui])]
        exact ⟨hclash.trans (by simp [heui]), hcount, hparts⟩
      · rw [if_pos (by simp [hflash, heui, htype, drvHello, hbody])]
        refine ⟨?_, ?_, hparts.chain (onlyChanges_wr _ _ _)⟩
        · rw [State.flag_setFlag_self _ K.doms.DEVICE_CLASH true (by decide)]
          simp [heui]
        · rw [Counted, State.setFlag, State.rd_wr_ne _ _ (by simp only [K.key.USE_COUNT, K.doms.DEVICE_CLASH]; omega)]
          exact hcount
    exact exec_next_of hexec (fun _ ⟨hflag, hcounted, honly⟩ => ⟨hflag, hcounted, honly.keepQueue⟩) heffect
  · obtain hbad | hkeyless := hbad
    · simp [hbad.symm]
    · simp [hkeyless]

/-! HELLO, COUPLING and the absence of a peer (R256, R258). -/

theorem State.countPeers_rd (s : State) : s.countPeers.rd K.doms.PEERS_PRESENT =
    (Tbl.count s.countPeers.domain.peers fun _ p => p.hello.isSome) % 2 ^ 16 := State.rd_wr_self s _ _

theorem State.countPeers_peer (s : State) (d : Nat) : s.countPeers.peer d = s.peer d := rfl

theorem State.countPeers_onlyChanges (s : State) : OnlyChanges [.dict] s s.countPeers := onlyChanges_wr s _ _

section Heard

variable {s : State} (hready : DrvReady s) {addr header body cmac : List Byte} {h : DrvHead}
variable (hgood : cmac = cmacOf s.domainKey (header ++ body)) (hfresh : s.drvStale h = false)

include hready hgood hfresh

theorem hello_accepted (hfrom : DrvFrom 1 header body h s) (hlen : body.length = 17) :
    ∃ t, exec (.hello addr header body cmac) s = .next t ∧
      t.peer h.src = { s.peer h.src with
        last := some (h.seq, h.sent), hello := some s.now, addr := addr, segments := ofBe (body.take 8), eui := ofBe ((body.drop 8).take 8) } ∧
      (∀ d, d ≠ h.src → t.peer d = s.peer d) ∧ t.rd K.doms.PEERS_PRESENT = (Tbl.count t.domain.peers fun _ p => p.hello.isSome) % 2 ^ 16 ∧
      OnlyChanges [.dict, .domain] s t := by
  have hparts := s.drvHeard_onlyChanges h
  have heq : s.helloRx addr header body cmac = ((s.drvHeard h).modPeer h.src fun p =>
      { p with hello := some s.now, addr := addr, segments := ofBe (body.take 8), eui := ofBe ((body.drop 8).take 8) }).countPeers := by
    unfold State.helloRx
    rw [show s.drvAccept drvHello header body cmac = _ from hready.accepts hgood hfresh hfrom]
    dsimp only
    rw [if_neg (by simp [hlen]), hparts .now (by simp)]
  have hpeer : (s.helloRx addr header body cmac).peer h.src = { s.peer h.src with
      last := some (h.seq, h.sent), hello := some s.now, addr := addr, segments := ofBe (body.take 8), eui := ofBe ((body.drop 8).take 8) } := by
    rw [heq, State.countPeers_peer, State.peer_modPeer_self, s.drvHeard_peer h]
  have hothers : ∀ d, d ≠ h.src → (s.helloRx addr header body cmac).peer d = s.peer d := fun d hd => by
    rw [heq, State.countPeers_peer, State.peer_modPeer_ne _ _ hd, s.drvHeard_peer_ne h hd]
  have hcount := heq ▸ State.countPeers_rd _
  have honly : OnlyChanges [.dict, .domain] s (s.helloRx addr header body cmac) := by
    rw [heq]
    exact ((hparts.trans (onlyChanges_modPeer _ _ _)).trans (State.countPeers_onlyChanges _)).mono (by simp)
  have hexec := exec_hello_of_coreUp hready.coreUp addr header body cmac
  exact exec_next_of hexec (fun _ ⟨hpeer, hothers, hcount, honly⟩ => ⟨hpeer, hothers, hcount, honly.keepQueue⟩)
    ⟨hpeer, hothers, hcount, honly⟩

theorem coupling_of_present (hfrom : DrvFrom 2 header body h s) (hlen : body.length % 6 = 0) (hpresent : (s.peer h.src).hello.isSome = true) :
    ∃ t, exec (.coupling header body cmac) s = .next t ∧
      t.peer h.src = { s.peer h.src with last := some (h.seq, h.sent), couplings := couplingRead (body.length / 6) body } ∧
      (∀ d, d ≠ h.src → t.peer d = s.peer d) ∧ OnlyChanges [.dict, .domain] s t := by
  have hheard : ((s.drvHeard h).peer h.src).hello = (s.peer h.src).hello := by rw [s.drvHeard_peer h]
  have heq : s.couplingRx header body cmac = (s.drvHeard h).modPeer h.src fun p =>
      { p with couplings := couplingRead (body.length / 6) body } := by
    unfold State.couplingRx
    rw [show s.drvAccept drvCoupling header body cmac = _ from hready.accepts hgood hfresh hfrom]
    dsimp only
    rw [hheard, if_neg (by simp [hlen, Option.isSome_iff_ne_none.1 hpresent])]
  have hpeer : (s.couplingRx header body cmac).peer h.src =
      { s.peer h.src with last := some (h.seq, h.sent), couplings := couplingRead (body.length / 6) body } := by
    rw [heq, State.peer_modPeer_self, s.drvHeard_peer h]
  have hothers : ∀ d, d ≠ h.src → (s.couplingRx header body cmac).peer d = s.peer d := fun d hd => by
    rw [heq, State.peer_modPeer_ne _ _ hd, s.drvHeard_peer_ne h hd]
  have honly : OnlyChanges [.dict, .domain] s (s.couplingRx header body cmac) := by
    rw [heq]
    exact ((s.drvHeard_onlyChanges h).trans (onlyChanges_modPeer _ _ _)).mono (by simp)
  have hexec := exec_coupling_of_coreUp hready.coreUp header body cmac
  exact exec_next_of hexec (fun _ ⟨hpeer, hothers, honly⟩ => ⟨hpeer, hothers, honly.keepQueue⟩) ⟨hpeer, hothers, honly⟩

theorem coupling_of_absent (hfrom : DrvFrom 2 header body h s) (habsent : (s.peer h.src).hello = none) :
    ∃ t, exec (.coupling header body cmac) s = .next t ∧ t.peer h.src = { s.peer h.src with last := some (h.seq, h.sent) } ∧
      OnlyChanges [.dict, .domain] s t := by
  have hheard : ((s.drvHeard h).peer h.src).hello = none := by rw [s.drvHeard_peer h, habsent]
  have heq : s.couplingRx header body cmac = s.drvHeard h := by
    unfold State.couplingRx
    rw [show s.drvAccept drvCoupling header body cmac = _ from hready.accepts hgood hfresh hfrom]
    dsimp only
    rw [hheard, if_pos (by simp)]
  have hexec := exec_coupling_of_coreUp hready.coreUp header body cmac
  have hpeer := s.drvHeard_peer h
  have honly := s.drvHeard_onlyChanges h
  rw [← heq] at hpeer honly
  exact exec_next_of hexec (fun _ ⟨hpeer, honly⟩ => ⟨hpeer, honly.keepQueue⟩) ⟨hpeer, honly⟩

end Heard

/-- Peer `d` has been absent from tick `due` on. -/
def State.peerGone (s : State) (due d : Nat) : State :=
  ((s.atDeadline due).modPeer d fun p => { p with hello := none, couplings := [], claims := [] }).countPeers

section Gone

variable (s : State) (due d : Nat)

theorem State.peerGone_onlyChanges : OnlyChanges (timeParts ++ [.domain]) s (s.peerGone due d) :=
  (((onlyChanges_passTo s due).trans (onlyChanges_modPeer _ _ _)).trans (State.countPeers_onlyChanges _)).mono (by simp [timeParts])

theorem State.peerGone_now : (s.peerGone due d).now = max s.now due := s.atDeadline_now due

theorem State.peerGone_count : (s.peerGone due d).rd K.doms.PEERS_PRESENT =
    (Tbl.count (s.peerGone due d).domain.peers fun _ p => p.hello.isSome) % 2 ^ 16 := State.countPeers_rd _

theorem State.peerGone_peer : (s.peerGone due d).peer d = { s.peer d with hello := none, couplings := [], claims := [] } := by
  rw [State.peerGone, State.countPeers_peer, State.peer_modPeer_self, State.peer_congr (s.atDeadline_domain due)]

theorem State.peerGone_peer_ne {e : Nat} (he : e ≠ d) : (s.peerGone due d).peer e = s.peer e := by
  rw [State.peerGone, State.countPeers_peer, State.peer_modPeer_ne _ _ he, State.peer_congr (s.atDeadline_domain due)]

end Gone

theorem peerAbsent_of_present {s : State} (hup : s.coreUp 6 = true) {d at' : Nat} (hhello : (s.peer d).hello = some at') :
    ∃ t, exec (.peerAbsent d) s = .next t ∧ t.now = max s.now (at' + 2048000000) ∧
      t.peer d = { s.peer d with hello := none, couplings := [], claims := [] } ∧ (∀ e, e ≠ d → t.peer e = s.peer e) ∧
      t.rd K.doms.PEERS_PRESENT = (Tbl.count t.domain.peers fun _ p => p.hello.isSome) % 2 ^ 16 ∧
      OnlyChanges [.now, .free, .dict, .perf, .tracker, .tides, .domain] s t := by
  have heq : s.peerAbsent d = s.peerGone (at' + secTicks 5) d := by
    unfold State.peerAbsent
    rw [hhello]
    rfl
  have hsec : secTicks 5 = 2048000000 := rfl
  have hexec := exec_peerAbsent_of_coreUp hup d
  rw [heq, hsec] at hexec
  exact exec_next_of hexec (fun _ ⟨hnow, hpeer, hothers, hcount, honly⟩ => ⟨hnow, hpeer, hothers, hcount, honly.keepQueue⟩)
    ⟨s.peerGone_now _ d, s.peerGone_peer _ d, fun e => s.peerGone_peer_ne _ d, s.peerGone_count _ d,
      (s.peerGone_onlyChanges _ d).mono (by simp [timeParts])⟩

/-! What the device sends every second, and the age of a record (R256 to R258). -/

theorem State.segEnabled_atDeadline (s : State) (due g : Nat) : (s.atDeadline due).segEnabled g = s.segEnabled g := by
  rw [State.segEnabled, State.flag, s.atDeadline_rd due, State.segEnabled, State.flag] <;>
    simp only [K.seg.SEG_ENABLE, K.times.UNSYNC_SECONDS, K.trks.PHASE_STEP_COUNT] <;> omega

/-- Time that passes takes from no device that it can send. -/
theorem State.CanSend.atDeadline {s : State} (h : s.CanSend) (due : Nat) : (s.atDeadline due).CanSend := by
  have hrd (r : Reg) (hr : r.key ≠ 0x71310B ∧ r.key ≠ 0x210107) : (s.atDeadline due).rd r = s.rd r := s.atDeadline_rd due hr.1 hr.2
  have hslot : (s.atDeadline due).rd K.dom.DOMAIN_KEY_SLOT = s.rd K.dom.DOMAIN_KEY_SLOT := hrd _ (by decide)
  have hstate : (s.atDeadline due).slotState (s.rd K.dom.DOMAIN_KEY_SLOT) = s.slotState (s.rd K.dom.DOMAIN_KEY_SLOT) :=
    hrd _ (by simp only [K.key.STATE]; omega)
  refine ⟨?_, ?_, hslot ▸ h.slot, (s.atDeadline_bh due) ▸ h.port⟩
  · rw [State.flag, hrd _ (by decide)]
    exact h.enabled
  · rw [hslot, State.slotUsable, hstate]
    exact h.usable

/-- A message sent once the domain has noted its instant by `f`. -/
theorem State.CanSend.sends_noted {u : State} (hu : u.CanSend) {f : Domain → Domain}
    (hf : (f u.domain).number = u.domain.number ∧ (f u.domain).id = u.domain.id ∧ (f u.domain).seq = u.domain.seq ∧
      (f u.domain).peers = u.domain.peers) (type : Nat) (peer : Option Nat) (body : List Byte) :
    DrvSends type peer body u ((u.modDomain f).drvSend type peer body) ∧
      OnlyChanges [.dict, .bh, .domain] u ((u.modDomain f).drvSend type peer body) ∧
      ∃ q, ((u.modDomain f).drvSend type peer body).domain = { f u.domain with seq := q } := by
  obtain ⟨hnumber, hid, hseq, hpeers⟩ := hf
  have hsame : SendsAs u (u.modDomain f) := SendsAs.modDomain u hnumber hid hseq fun d => by
    rw [State.peer, State.modDomain_domain, hpeers, State.peer]
  refine ⟨(hu.of_sendsAs hsame rfl).sends hsame type peer body, ?_, State.drvSend_domain _ _ _ _⟩
  exact ((onlyChanges_modDomain u f).trans (State.drvSend_onlyChanges _ _ _ _)).mono (by simp)

theorem helloSend_sends {s u : State} (hready : DrvReady s) (hu : u = match s.domain.helloAt with
      | some at' => s.atDeadline (at' + 409600000)
      | none => s) :
    ∃ t, exec .helloSend s = .next t ∧ t.now = u.now ∧ t.domain.helloAt = some u.now ∧
      DrvSends 1 none (beBytes 8 (((List.range 64).filter s.segEnabled).map fun g => 2 ^ g).sum ++ beBytes 8 s.flash.eui64 ++
        beBytes 1 (boolNat u.claimTime)) u t ∧ OnlyChanges [.dict, .bh, .domain] u t := by
  have hat : u.CanSend ∧ u.pending = s.pending ∧ u.flash = s.flash ∧ ∀ g, u.segEnabled g = s.segEnabled g := by
    rw [hu]
    split
    · exact ⟨hready.canSend.atDeadline _, s.atDeadline_pending _, s.atDeadline_flash _, s.segEnabled_atDeadline _⟩
    · exact ⟨hready.canSend, rfl, rfl, fun _ => rfl⟩
  obtain ⟨hcan, hpending, hflash, hsegs⟩ := hat
  have heq : s.helloSend = (u.modDomain fun d => { d with helloAt := some u.now }).drvSend drvHello none
      (beBytes 8 (((List.range 64).filter s.segEnabled).map fun g => 2 ^ g).sum ++ beBytes 8 s.flash.eui64 ++
        beBytes 1 (boolNat u.claimTime)) := by
    unfold State.helloSend
    rw [if_neg (by simp [hready.canSend.enabled]), ← hflash, ← funext hsegs, hu]
    rfl
  obtain ⟨hsends, hparts, q, hdomain⟩ := hcan.sends_noted (f := fun d => { d with helloAt := some u.now }) ⟨rfl, rfl, rfl, rfl⟩ drvHello none
    (beBytes 8 (((List.range 64).filter s.segEnabled).map fun g => 2 ^ g).sum ++ beBytes 8 s.flash.eui64 ++ beBytes 1 (boolNat u.claimTime))
  rw [← heq] at hsends hparts hdomain
  have hexec := exec_helloSend_of_coreUp hready.coreUp
  have hat : s.helloSend.domain.helloAt = some u.now := by rw [hdomain]
  have hnow : s.helloSend.now = u.now := hparts .now (by simp)
  exact exec_next_of hexec (fun _ ⟨hnow, hat, hsends, honly⟩ => ⟨hnow, hat, hsends.later rfl rfl rfl, hpending ▸ honly.keepQueue⟩)
    ⟨hnow, hat, hsends, hparts⟩

theorem couplingSend_sends {s : State} (hready : DrvReady s) :
    ∃ t body, exec .couplingSend s = .next t ∧ t.domain.couplingAt = some s.now ∧ DrvSends 2 none body s t ∧
      body.length = 6 * min 1486 (s.domain.heard.filter fun h => reachesDb h.2.level (s.rd K.dom.COUPLE_LEVEL)).length ∧
      OnlyChanges [.dict, .bh, .domain] s t := by
  have heq : ∃ body : List Byte, s.couplingSend = (s.modDomain fun d => { d with couplingAt := some s.now }).drvSend drvCoupling none body ∧
      body.length = 6 * min 1486 (s.domain.heard.filter fun h => reachesDb h.2.level (s.rd K.dom.COUPLE_LEVEL)).length := by
    unfold State.couplingSend
    rw [if_neg (by simp [hready.canSend.enabled])]
    refine ⟨_, rfl, ?_⟩
    rw [length_flatMap_const (n := 6) fun h => ?_, List.length_take]
    simp only [List.length_append, length_beBytes]
  obtain ⟨body, heq, hlen⟩ := heq
  obtain ⟨hsends, hparts, q, hdomain⟩ := hready.canSend.sends_noted (f := fun d => { d with couplingAt := some s.now })
    ⟨rfl, rfl, rfl, rfl⟩ drvCoupling none body
  rw [← heq] at hsends hparts hdomain
  have hexec := exec_couplingSend_of_coreUp hready.coreUp
  have hat : s.couplingSend.domain.couplingAt = some s.now := by rw [hdomain]
  obtain ⟨t, ht, hat', hsends', honly⟩ := exec_next_of hexec (P := fun t => t.domain.couplingAt = some s.now ∧ DrvSends 2 none body s t ∧
    OnlyChanges [.dict, .bh, .domain] s t) (fun _ ⟨hat, hsends, honly⟩ => ⟨hat, hsends.later rfl rfl rfl, honly.keepQueue⟩)
    ⟨hat, hsends, hparts⟩
  exact ⟨t, body, ht, hat', hsends', hlen, honly⟩

theorem coupleAge_of_heard {s : State} (hup : s.coreUp 6 = true) {g nid : Nat} {x : Heard}
    (hheard : Tbl.at? s.domain.heard (g * 65536 + nid) = some x) :
    ∃ t, exec (.coupleAgeExpiry g nid) s = .next t ∧ t.now = max s.now (x.last + 409600000 * s.rd K.dom.COUPLE_AGE) ∧
      Tbl.at? t.domain.heard (g * 65536 + nid) = none ∧ OnlyKeys [g * 65536 + nid] s.domain.heard t.domain.heard ∧
      OnlyChanges [.now, .free, .dict, .perf, .tracker, .tides, .domain] s t := by
  have heq : s.coupleAge g nid = (s.atDeadline (x.last + 409600000 * s.rd K.dom.COUPLE_AGE)).modDomain fun d =>
      { d with heard := Tbl.del d.heard (g * 65536 + nid) } := by
    unfold State.coupleAge
    rw [hheard, Nat.mul_comm 409600000]
    rfl
  have hexec := exec_coupleAgeExpiry_of_coreUp hup g nid
  have hnow : (s.coupleAge g nid).now = max s.now (x.last + 409600000 * s.rd K.dom.COUPLE_AGE) := by
    rw [heq, State.modDomain_now, s.atDeadline_now]
  have hrecords : (s.coupleAge g nid).domain.heard = Tbl.del s.domain.heard (g * 65536 + nid) := by
    rw [heq, State.modDomain_domain, State.atDeadline_domain]
  have honly : OnlyChanges (timeParts ++ [.domain]) s (s.coupleAge g nid) := by
    rw [heq]
    exact (onlyChanges_passTo s _).trans (onlyChanges_modDomain _ _)
  refine exec_next_of hexec (fun _ ⟨hnow, hgone, hothers, honly⟩ => ⟨hnow, hgone, hothers, honly.keepQueue⟩)
    ⟨hnow, ?_, fun k hk => ?_, honly.mono (by simp [timeParts])⟩
  · rw [hrecords, Tbl.at?_del_self]
  · rw [hrecords, Tbl.at?_del_ne _ (by simpa using hk)]

end Sys2Proof.Machine

end

section
/-! PROOF. O56: the claims of coupled segments, their SLOT_MAPs and their resolution (R259 to R261). -/

namespace Sys2Proof.Machine

/-! Segments. -/

section Segments

variable (s : State) (g : Nat) (f : Seg → Seg)

theorem State.seg_modSeg_self : (s.modSeg g f).seg g = f (s.seg g) := Tbl.atD_modD_self ..

variable {g} in
theorem State.seg_modSeg_ne {k : Nat} (h : k ≠ g) : (s.modSeg g f).seg k = s.seg k := Tbl.atD_modD_ne _ _ _ h

theorem onlyChanges_modSeg : OnlyChanges [.mac] s (s.modSeg g f) := onlyChanges_modMac s _

end Segments

/-! A claim is made and sent (R259, R260). -/

/-- Segment `g` has claimed `cs` for second `n`; nobody has been told. -/
def State.claimMade (s : State) (g n : Nat) (cs : List Claim) : State :=
  s.modSeg g fun x => { x with claims := Tbl.ins (Tbl.keep x.claims fun k _ => 2 * n ≤ k + 8) (2 * n) cs }

section Send

variable {s : State} {g n : Nat}

theorem State.slotMapSend_of_idle (hn : n = s.dt / dtSecond + 2) (hidle : s.segEnabled g = false ∨ s.claimTime = false ∨ s.coupledTo g = [] ∨
    (Tbl.at? (s.seg g).claims (2 * n)).isSome = true ∨ (Tbl.at? (s.seg g).claims (2 * n + 1)).isSome = true) : s.slotMapSend g = s := by
  subst hn
  refine if_pos ?_
  simp only [Bool.or_eq_true, Bool.not_eq_true', List.isEmpty_iff]
  tauto

theorem State.slotMapSend_eq {cs : List Claim} (hn : n = s.dt / dtSecond + 2) (henabled : s.segEnabled g = true) (htime : s.claimTime = true)
    (hcoupled : s.coupledTo g ≠ []) (hsent : Tbl.at? (s.seg g).claims (2 * n) = none)
    (hresolved : Tbl.at? (s.seg g).claims (2 * n + 1) = none) (hcs : cs = (s.makeClaim g n).take 1024) : s.slotMapSend g =
      (s.coupledDevices g).foldl (fun t d => t.drvSend drvSlotMap (some d) (t.slotMapBody g n cs)) (s.claimMade g n cs) := by
  subst hn hcs
  unfold State.slotMapSend
  dsimp only
  rw [if_neg (by simp [henabled, htime, hcoupled, hsent, hresolved])]
  rfl

theorem State.slotMapSend_claims (cs : List Claim) (ds : List Nat) :
    OnlyChanges [.dict, .bh, .domain] (s.claimMade g n cs)
      (ds.foldl (fun t d => t.drvSend drvSlotMap (some d) (t.slotMapBody g n cs)) (s.claimMade g n cs)) :=
  OnlyChanges.foldl _ (fun t _ => t.drvSend_onlyChanges _ _ _) ds

theorem slotMap_sent (hup : s.coreUp 6 = true) {cs : List Claim} (hn : n = s.dt / dtSecond + 2) (henabled : s.segEnabled g = true)
    (htime : s.claimTime = true) (hcoupled : s.coupledTo g ≠ []) (hsent : Tbl.at? (s.seg g).claims (2 * n) = none)
    (hresolved : Tbl.at? (s.seg g).claims (2 * n + 1) = none) (hcs : cs = (s.makeClaim g n).take 1024) :
    ∃ t, exec (.slotMapSend g) s = .next t ∧ Tbl.at? (t.seg g).claims (2 * n) = some cs ∧ (∀ k, k ≠ g → t.seg k = s.seg k) ∧
      (s.coupledDevices g = [] → OnlyChanges [.mac] s t) ∧
      (∀ d, s.coupledDevices g = [d] → DrvReady s → DrvSends 3 (some d) (s.slotMapBody g n cs) s t ∧
        OnlyChanges [.dict, .mac, .bh, .domain] s t) := by
  have heq := State.slotMapSend_eq hn henabled htime hcoupled hsent hresolved hcs
  have hlater := State.slotMapSend_claims (s := s) (g := g) (n := n) cs (s.coupledDevices g)
  rw [← heq] at hlater
  have hseg : ∀ k, (s.slotMapSend g).seg k = (s.claimMade g n cs).seg k := State.seg_congr (hlater .mac (by simp))
  have hmade : OnlyChanges [.mac] s (s.claimMade g n cs) := onlyChanges_modSeg s g _
  refine exec_next_of (exec_slotMapSend_of_coreUp hup g) (fun _ ⟨hclaim, hothers, halone, hone⟩ => ⟨hclaim, hothers,
    fun hnone => (halone hnone).keepQueue, fun _ hd hready => ⟨(hone _ hd hready).1.later rfl rfl rfl, (hone _ hd hready).2.keepQueue⟩⟩)
    ⟨?_, fun k hk => ?_, fun hnone => ?_, fun d hd hready => ⟨?_, (hmade.trans hlater).mono (by simp)⟩⟩
  · rw [hseg, State.claimMade, State.seg_modSeg_self, Tbl.at?_ins_self]
  · rw [hseg, State.claimMade, State.seg_modSeg_ne _ _ hk]
  · rw [heq, hnone]
    exact hmade
  · have hsame : SendsAs s (s.claimMade g n cs) := SendsAs.of_parts hmade (by simp)
    rw [heq, hd]
    exact (hready.canSend.of_sendsAs hsame rfl).sends hsame 3 (some d) (s.slotMapBody g n cs)

end Send

/-! A peer's claim (R260, R261). -/

section Receive

variable {s : State} (hready : DrvReady s) {header body cmac : List Byte} {h : DrvHead}

include hready

theorem State.claimTime_drvHeard : (s.drvHeard h).claimTime = s.claimTime := by
  have hparts := s.drvHeard_onlyChanges h
  have hstate : (s.drvHeard h).dtState = s.dtState := State.drvHeard_rd h hready.canSend.slot (by decide)
  rw [State.claimTime, State.synchronised, State.recentStep, hparts .time (by simp), hparts .now (by simp), hstate, State.claimTime,
    State.synchronised, State.recentStep]

variable (hgood : cmac = cmacOf s.domainKey (header ++ body)) (hfresh : s.drvStale h = false) (hfrom : DrvFrom 3 header body h s)
variable {n sec g : Nat} (hg : g = ofBe (body.take 1)) (hn : n = ofBe ((body.drop 2).take 2)) (hsec : sec = ofBe ((body.drop 4).take 4))
variable (hcount : n ≤ 1024) (hlen : body.length = 12 + 6 * n) (htime : s.claimTime = true) (hpresent : (s.peer h.src).hello.isSome = true)

include hgood hfresh hfrom hn hsec hcount hlen htime hpresent

/-- A SLOT_MAP in good form of a present peer is late, or replaces the peer's claims of its segment and second. -/
theorem State.slotMapRx_eq : s.slotMapRx header body cmac =
    if s.secondTick sec < s.now + 204800000 then (s.drvHeard h).bump K.doms.CLAIMS_LATE
    else (s.drvHeard h).modPeer h.src fun p =>
      { p with claims := (p.claims.filter fun c => !(c.1 == ofBe (body.take 1) && c.2.1 == sec) && s.dt / dtSecond ≤ c.2.1) ++
        [(ofBe (body.take 1), sec, s.now, claimsRead (ofBe ((body.drop 8).take 4)) n (body.drop 12))] } := by
  have hparts := s.drvHeard_onlyChanges h
  have hhello : ((s.drvHeard h).peer h.src).hello = (s.peer h.src).hello := by rw [s.drvHeard_peer h]
  have hnow : (s.drvHeard h).now = s.now := hparts .now (by simp)
  have htick : (s.drvHeard h).secondTick sec = s.secondTick sec := by
    rw [State.secondTick, State.tickOf, hparts .time (by simp), State.secondTick, State.tickOf]
  have hdt : (s.drvHeard h).dt = s.dt := (SendsAs.drvHeard h hready.canSend.slot).dt
  have hmargin : msTicks 500 = 204800000 := rfl
  subst hn hsec
  unfold State.slotMapRx
  rw [show s.drvAccept drvSlotMap header body cmac = _ from hready.accepts hgood hfresh hfrom]
  dsimp only
  rw [if_neg, hnow, htick, hdt, hmargin]
  rw [State.claimTime_drvHeard hready, hhello, htime, hlen]
  have hsome := Option.isSome_iff_ne_none.1 hpresent
  simp only [Bool.or_eq_true, decide_eq_true_eq, Option.isNone_iff_eq_none, hsome]
  simp [hcount]

theorem slotMap_late (hlate : s.secondTick sec < s.now + 204800000) :
    ∃ t, exec (.slotMap header body cmac) s = .next t ∧ Counted K.doms.CLAIMS_LATE s t ∧
      t.peer h.src = { s.peer h.src with last := some (h.seq, h.sent) } ∧ OnlyChanges [.dict, .domain] s t := by
  have heq := State.slotMapRx_eq hready hgood hfresh hfrom hn hsec hcount hlen htime hpresent
  rw [if_pos hlate] at heq
  refine exec_next_of (exec_slotMap_of_coreUp hready.coreUp header body cmac)
    (fun _ ⟨hcounted, hpeer, honly⟩ => ⟨hcounted, hpeer, honly.keepQueue⟩) ?_
  rw [heq]
  exact ⟨(counted_bump _ _).of_rd_eq (State.drvHeard_rd h hready.canSend.slot (by decide)),
    (State.peer_congr (onlyChanges_bump _ _ .domain (by simp)) _).trans (s.drvHeard_peer h),
    ((s.drvHeard_onlyChanges h).trans (onlyChanges_bump _ _)).mono (by simp)⟩

include hg

theorem slotMap_inTime (hintime : s.now + 204800000 ≤ s.secondTick sec) :
    ∃ t, exec (.slotMap header body cmac) s = .next t ∧
      (g, sec, s.now, claimsRead (ofBe ((body.drop 8).take 4)) n (body.drop 12)) ∈ (t.peer h.src).claims ∧
      (∀ c ∈ (t.peer h.src).claims, c.1 = g → c.2.1 = sec → c.2.2.1 = s.now) ∧ t.rd K.doms.CLAIMS_LATE = s.rd K.doms.CLAIMS_LATE ∧
      OnlyChanges [.dict, .domain] s t := by
  have heq := State.slotMapRx_eq hready hgood hfresh hfrom hn hsec hcount hlen htime hpresent
  rw [if_neg (Nat.not_lt.2 hintime), ← hg] at heq
  refine exec_next_of (exec_slotMap_of_coreUp hready.coreUp header body cmac)
    (fun _ ⟨hmem, honce, hlate, honly⟩ => ⟨hmem, honce, hlate, honly.keepQueue⟩) ?_
  rw [heq, State.peer_modPeer_self]
  refine ⟨List.mem_append_right _ (List.mem_singleton_self _), fun c hc hseg hsecond => ?_, ?_,
    ((s.drvHeard_onlyChanges h).trans (onlyChanges_modPeer _ _ _)).mono (by simp)⟩
  · obtain hold | hnew := List.mem_append.1 hc
    · have hkept := (List.mem_filter.1 hold).2
      simp [hseg, hsecond] at hkept
    · rw [List.mem_singleton.1 hnew]
  · rw [State.rd_congr (onlyChanges_modPeer (s.drvHeard h) h.src _ .dict (by simp)),
      State.drvHeard_rd h hready.canSend.slot (r := K.doms.CLAIMS_LATE) (by decide)]

end Receive

/-! The resolution (R261). -/

/-- A resolution on segment `g` has counted `a` slots yielded and `b` and `c` clashes. -/
def State.claimCounted (s : State) (g a b c : Nat) : State :=
  ((s.bumpBy (K.segs.YIELDED_SLOTS g) a).bumpBy (K.segs.BEACON_CLASH g) b).bumpBy (K.segs.CR_CLASH g) c

/-- Segment `g` holds `cs` as its resolved claim for second `n`, counted by `a`, `b` and `c`. -/
def State.claimSettled (s : State) (g n a b c : Nat) (cs : List Claim) : State :=
  (s.claimCounted g a b c).modSeg g fun x => { x with claims := Tbl.ins x.claims (2 * n + 1) cs }

theorem State.claimSettled_eq (s : State) (g n a b c : Nat) (cs : List Claim) :
    (((s.bumpBy (K.segs.YIELDED_SLOTS g) a).bumpBy (K.segs.BEACON_CLASH g) b).bumpBy (K.segs.CR_CLASH g) c).modSeg g (fun x =>
      { x with claims := Tbl.ins x.claims (2 * n + 1) cs }) = s.claimSettled g n a b c cs := by
  rw [State.claimSettled, State.claimCounted]

/-- A claim is resolved 500 ms before its second, and keeps its beacon regions. -/
theorem State.claimResolve_eq {s : State} {g n : Nat} (hopen : s.openClaim g = some n) : ∃ a b c cs,
    s.claimResolve g = (s.atDeadline (s.secondTick n - msTicks 500)).claimSettled g n a b c cs ∧
      ∀ x ∈ Tbl.atD (s.seg g).claims (2 * n) [], x.beacon = true → x ∈ cs := by
  unfold State.claimResolve
  rw [hopen]
  dsimp only
  refine ⟨_, _, _, _, State.claimSettled_eq .., fun x hx hbeacon => ?_⟩
  rw [State.seg_congr (s.atDeadline_mac _), List.mem_flatMap]
  exact ⟨([x], 0), List.mem_map.2 ⟨x, hx, if_pos hbeacon⟩, List.mem_singleton_self x⟩

section Settled

variable (s : State) (g n a b c : Nat) (cs : List Claim)

theorem State.claimCounted_onlyChanges : OnlyChanges [.dict] s (s.claimCounted g a b c) := by
  have hyielded := onlyChanges_bumpBy s (K.segs.YIELDED_SLOTS g) a
  have hbeacon := onlyChanges_bumpBy (s.bumpBy (K.segs.YIELDED_SLOTS g) a) (K.segs.BEACON_CLASH g) b
  exact (hyielded.chain hbeacon).chain (onlyChanges_bumpBy _ (K.segs.CR_CLASH g) c)

theorem State.claimCounted_onlyRegs :
    OnlyRegs [K.segs.YIELDED_SLOTS g, K.segs.BEACON_CLASH g, K.segs.CR_CLASH g] s (s.claimCounted g a b c) := by
  have hyielded := onlyRegs_bumpBy s (K.segs.YIELDED_SLOTS g) a
  have hbeacon := onlyRegs_bumpBy (s.bumpBy (K.segs.YIELDED_SLOTS g) a) (K.segs.BEACON_CLASH g) b
  exact (hyielded.trans hbeacon).trans (onlyRegs_bumpBy _ (K.segs.CR_CLASH g) c)

theorem State.claimSettled_onlyChanges : OnlyChanges [.dict, .mac] s (s.claimSettled g n a b c cs) :=
  (s.claimCounted_onlyChanges g a b c).trans (onlyChanges_modSeg _ g _)

theorem State.claimSettled_onlyRegs :
    OnlyRegs [K.segs.YIELDED_SLOTS g, K.segs.BEACON_CLASH g, K.segs.CR_CLASH g] s (s.claimSettled g n a b c cs) := by
  have hdict : (s.claimSettled g n a b c cs).dict = (s.claimCounted g a b c).dict := onlyChanges_modSeg _ g _ .dict (by simp)
  exact ((s.claimCounted_onlyRegs g a b c).trans (OnlyRegs.of_dict (rs := []) hdict)).mono (by simp)

theorem State.claimCounted_seg (k : Nat) : (s.claimCounted g a b c).seg k = s.seg k :=
  State.seg_congr (s.claimCounted_onlyChanges g a b c .mac (by simp)) k

theorem State.claimSettled_seg : (s.claimSettled g n a b c cs).seg g =
    { s.seg g with claims := Tbl.ins (s.seg g).claims (2 * n + 1) cs } := by
  rw [State.claimSettled, State.seg_modSeg_self, State.claimCounted_seg]

theorem State.claimSettled_seg_ne {k : Nat} (hk : k ≠ g) : (s.claimSettled g n a b c cs).seg k = s.seg k := by
  rw [State.claimSettled, State.seg_modSeg_ne _ _ hk, State.claimCounted_seg]

end Settled

theorem claimResolve_resolves {s : State} (hup : s.coreUp 6 = true) {g n : Nat} (hopen : s.openClaim g = some n) :
    ∃ t cs, exec (.claimResolve g) s = .next t ∧ t.now = max s.now (s.secondTick n - 204800000) ∧
      Tbl.at? (t.seg g).claims (2 * n) = Tbl.at? (s.seg g).claims (2 * n) ∧ Tbl.at? (t.seg g).claims (2 * n + 1) = some cs ∧
      (∀ c ∈ Tbl.atD (s.seg g).claims (2 * n) [], c.beacon = true → c ∈ cs) ∧ (∀ k, k ≠ g → t.seg k = s.seg k) ∧
      OnlyRegs [K.segs.YIELDED_SLOTS g, K.segs.BEACON_CLASH g, K.segs.CR_CLASH g, K.times.UNSYNC_SECONDS, K.trks.PHASE_STEP_COUNT] s t ∧
      OnlyChanges [.now, .free, .dict, .perf, .tracker, .tides, .mac] s t := by
  have hmargin : msTicks 500 = 204800000 := rfl
  obtain ⟨a, b, c, cs, heq, hbeacons⟩ := State.claimResolve_eq hopen
  rw [hmargin] at heq
  have hexec := exec_claimResolve_of_coreUp hup g
  rw [heq] at hexec
  generalize s.secondTick n - 204800000 = due at hexec ⊢
  have hseg : ∀ k, (s.atDeadline due).seg k = s.seg k := State.seg_congr (s.atDeadline_mac due)
  have hparts := State.claimSettled_onlyChanges (s.atDeadline due) g n a b c cs
  have hregs := State.claimSettled_onlyRegs (s.atDeadline due) g n a b c cs
  have hnow : ((s.atDeadline due).claimSettled g n a b c cs).now = max s.now due := by rw [hparts .now (by simp), s.atDeadline_now]
  have hsent : Tbl.at? (((s.atDeadline due).claimSettled g n a b c cs).seg g).claims (2 * n) = Tbl.at? (s.seg g).claims (2 * n) := by
    rw [State.claimSettled_seg, Tbl.at?_ins_ne _ _ (by omega), hseg]
  have hdone : Tbl.at? (((s.atDeadline due).claimSettled g n a b c cs).seg g).claims (2 * n + 1) = some cs := by
    rw [State.claimSettled_seg, Tbl.at?_ins_self]
  have hothers : ∀ k, k ≠ g → ((s.atDeadline due).claimSettled g n a b c cs).seg k = s.seg k := fun k hk => by
    rw [State.claimSettled_seg_ne _ _ _ _ _ _ _ hk, hseg]
  have hregs' := ((onlyRegs_passTo s due).trans hregs).mono (rs := [K.segs.YIELDED_SLOTS g, K.segs.BEACON_CLASH g, K.segs.CR_CLASH g,
    K.times.UNSYNC_SECONDS, K.trks.PHASE_STEP_COUNT]) (by simp [timeRegs])
  have hkept := ((onlyChanges_passTo s due).trans hparts).mono (qs := [.now, .free, .dict, .perf, .tracker, .tides, .mac]) (by simp [timeParts])
  exact exists_comm.1 ⟨cs, exec_next_of hexec
    (fun _ ⟨hnow, hsent, hdone, hbeacons, hothers, honly, hkept⟩ => ⟨hnow, hsent, hdone, hbeacons, hothers, honly, hkept.keepQueue⟩)
    ⟨hnow, hsent, hdone, hbeacons, hothers, hregs', hkept⟩⟩

end Sys2Proof.Machine

end

section
/-! PROOF. O56, put together: Draivitar messages, peers, couplings and claims. -/

namespace Sys2Proof.Machine

section Idle

variable {s : State} (hup : s.coreUp 6 = true)

include hup

theorem peerAbsent_of_absent {d : Nat} (h : (s.peer d).hello = none) : exec (.peerAbsent d) s = .next s := by
  refine exec_unchanged (exec_peerAbsent_of_coreUp hup d) ?_
  rw [State.peerAbsent, h]

theorem helloSend_of_disabled (h : s.flag K.dom.DOMAIN_ENABLE = false) : exec .helloSend s = .next s := by
  refine exec_unchanged (exec_helloSend_of_coreUp hup) ?_
  rw [State.helloSend, if_pos (by simp [h])]

theorem couplingSend_of_disabled (h : s.flag K.dom.DOMAIN_ENABLE = false) : exec .couplingSend s = .next s := by
  refine exec_unchanged (exec_couplingSend_of_coreUp hup) ?_
  rw [State.couplingSend, if_pos (by simp [h])]

theorem coupleAge_of_unheard {g nid : Nat} (h : Tbl.at? s.domain.heard (g * 65536 + nid) = none) :
    exec (.coupleAgeExpiry g nid) s = .next s := by
  refine exec_unchanged (exec_coupleAgeExpiry_of_coreUp hup g nid) ?_
  rw [State.coupleAge, h]

theorem claimResolve_of_settled {g : Nat} (h : s.openClaim g = none) : exec (.claimResolve g) s = .next s := by
  refine exec_unchanged (exec_claimResolve_of_coreUp hup g) ?_
  rw [State.claimResolve, h]

end Idle

/-- A message that is judged by its CMAC and refused counts its cause (R254, R255). -/
theorem drvMessage_refused {s : State} (hup : s.coreUp 6 = true) {addr header body cmac : List Byte} {c : Instr} {type : Nat} {h : DrvHead}
    (hslot : s.rd K.dom.DOMAIN_KEY_SLOT < 1024) (hc : (c, type) ∈ drvCommands addr header body cmac)
    (henabled : s.flag K.dom.DOMAIN_ENABLE = true) (hfrom : DrvFrom type header body h s)
    (husable : s.slotUsable (s.rd K.dom.DOMAIN_KEY_SLOT) = true) {r : Reg}
    (hcause : cmac ≠ cmacOf s.domainKey (header ++ body) ∧ r = K.doms.DRV_AUTH_FAIL ∨
      cmac = cmacOf s.domainKey (header ++ body) ∧ s.drvStale h = true ∧ r = K.doms.DRV_STALE) :
    ∃ t, exec c s = .next t ∧ Counted r s t ∧ Counted (K.key.USE_COUNT (s.rd K.dom.DOMAIN_KEY_SLOT)) s t ∧
      OnlyRegs (r :: useRegs (s.rd K.dom.DOMAIN_KEY_SLOT)) s t ∧ OnlyChanges [.dict] s t := by
  have hjudged := State.drvAccept_of_from (cmac := cmac) henabled hfrom
  rw [if_neg (by simp [husable])] at hjudged
  obtain ⟨hbad, rfl⟩ | ⟨hgood, hstale, rfl⟩ := hcause
  · rw [if_pos hbad] at hjudged
    exact drvMessage_counted hup hc hslot (by decide) hjudged
  · rw [if_neg (not_not.2 hgood), if_pos hstale] at hjudged
    exact drvMessage_counted hup hc hslot (by decide) hjudged

/-- Settles O56: each message by the judgement that `drvAccept` makes of it, each deadline by its command's meaning. -/
theorem draivitarMessagesPeersCouplingsAndClaimsAct : Obligations.DraivitarMessagesPeersCouplingsAndClaimsAct := by
  unfold Obligations.DraivitarMessagesPeersCouplingsAndClaimsAct
  refine ⟨?_, ⟨?_, ?_, ?_, ?_⟩, ?_, ?_, ?_⟩
  · intro addr header body cmac good h c type slot s hup hkey hslot hgood
    subst hkey hgood
    refine ⟨fun hc hunfit => drvMessage_unfit hup hc hunfit, fun hc henabled hfrom => ⟨fun hkeyless => ?_, fun husable hbad => ?_,
      fun husable hgood hstale => ?_⟩, fun eui henabled hread htype hversion hlen hbody hdomain hsrc heui => ?_⟩
    · exact drvMessage_keyless hup hc henabled hfrom hkeyless
    · exact drvMessage_refused hup hslot hc henabled hfrom husable (.inl ⟨hbad, rfl⟩)
    · exact drvMessage_refused hup hslot hc henabled hfrom husable (.inr ⟨hgood, hstale, rfl⟩)
    · subst heui
      exact ⟨fun husable => (hello_own hup henabled hread htype hversion hlen hbody hdomain hsrc hslot).1 husable rfl,
        (hello_own hup henabled hread htype hversion hlen hbody hdomain hsrc hslot).2⟩
  · intro addr header body cmac h s hready hgood hfresh
    exact ⟨hello_accepted hready hgood hfresh, coupling_of_present hready hgood hfresh, coupling_of_absent hready hgood hfresh⟩
  · exact fun d s hup => ⟨peerAbsent_of_absent hup, fun _ hhello => peerAbsent_of_present hup hhello⟩
  · exact fun s hup => ⟨fun hoff => ⟨helloSend_of_disabled hup hoff, couplingSend_of_disabled hup hoff⟩,
      fun u hready hu => helloSend_sends hready hu, couplingSend_sends⟩
  · exact fun g nid s hup => ⟨coupleAge_of_unheard hup, fun x hheard => coupleAge_of_heard hup hheard⟩
  · intro g n s hup hn
    refine ⟨fun hidle => exec_unchanged (exec_slotMapSend_of_coreUp hup g) (State.slotMapSend_of_idle hn hidle),
      fun cs henabled htime hcoupled hsent hresolved hcs => slotMap_sent hup hn henabled htime hcoupled hsent hresolved hcs⟩
  · intro header body cmac h n sec g s hready hgood hfresh hfrom _ hg hn hsec hcount hlen htime hpresent
    exact ⟨slotMap_late hready hgood hfresh hfrom hn hsec hcount hlen htime hpresent,
      slotMap_inTime hready hgood hfresh hfrom hg hn hsec hcount hlen htime hpresent⟩
  · exact fun g s hup _ => ⟨claimResolve_of_settled hup, fun n hopen => claimResolve_resolves hup hopen⟩

end Sys2Proof.Machine

end

section
/-! PROOF. O57: roaming on the old device's side, and what the judgement and the sending of a message keep (R262 to R264, R414). -/

namespace Sys2Proof.Machine

/-- A change of the domain alone takes from no device that it can send. -/
theorem State.CanSend.of_domain {s u : State} (hs : s.CanSend) (h : SendsAs s u) (hparts : OnlyChanges [.domain] s u) : u.CanSend :=
  hs.of_sendsAs h (State.rd_congr (hparts .dict (by simp)) _)

/-! Hand-overs and queries. -/

section Tables

variable (s : State)

theorem State.drvHeard_handOver? (h : DrvHead) (eui : Nat) : (s.drvHeard h).handOver? eui = s.handOver? eui := by
  rw [State.handOver?, s.drvHeard_peers h, State.handOver?]

theorem State.drvHeard_query? (h : DrvHead) (eui : Nat) : (s.drvHeard h).query? eui = s.query? eui := by
  rw [State.query?, s.drvHeard_peers h, State.query?]

theorem State.drvSend_handOver? (type : Nat) (peer : Option Nat) (body : List Byte) (eui : Nat) :
    (s.drvSend type peer body).handOver? eui = s.handOver? eui := by
  obtain ⟨q, h⟩ := s.drvSend_domain type peer body
  rw [State.handOver?, h, State.handOver?]

theorem State.drvSend_query? (type : Nat) (peer : Option Nat) (body : List Byte) (eui : Nat) :
    (s.drvSend type peer body).query? eui = s.query? eui := by
  obtain ⟨q, h⟩ := s.drvSend_domain type peer body
  rw [State.query?, h, State.query?]

theorem State.handOver?_setHandOver (eui : Nat) (x : HandOver) : (s.setHandOver eui x).handOver? eui = some x := Tbl.at?_ins_self ..

theorem State.handOver?_dropHandOver (eui : Nat) : (s.dropHandOver eui).handOver? eui = none := Tbl.at?_del_self ..

theorem State.query?_setQuery (eui : Nat) (q : Query) : (s.setQuery eui q).query? eui = some q := Tbl.at?_ins_self ..

theorem State.query?_dropQuery (eui : Nat) : (s.dropQuery eui).query? eui = none := Tbl.at?_del_self ..

theorem onlyChanges_setHandOver (eui : Nat) (x : HandOver) : OnlyChanges [.domain] s (s.setHandOver eui x) := onlyChanges_modDomain s _

theorem onlyChanges_dropHandOver (eui : Nat) : OnlyChanges [.domain] s (s.dropHandOver eui) := onlyChanges_modDomain s _

theorem onlyChanges_setQuery (eui : Nat) (q : Query) : OnlyChanges [.domain] s (s.setQuery eui q) := onlyChanges_modDomain s _

theorem onlyChanges_dropQuery (eui : Nat) : OnlyChanges [.domain] s (s.dropQuery eui) := onlyChanges_modDomain s _

theorem SendsAs.setHandOver (eui : Nat) (x : HandOver) : SendsAs s (s.setHandOver eui x) :=
  SendsAs.modDomain s rfl rfl rfl fun _ => rfl

theorem SendsAs.setQuery (eui : Nat) (q : Query) : SendsAs s (s.setQuery eui q) := SendsAs.modDomain s rfl rfl rfl fun _ => rfl

end Tables

/-! What an accepted message leaves of the entries and the transactions. -/

section Heard

variable (s : State) (h : DrvHead)

theorem State.drvHeard_mac : (s.drvHeard h).mac = s.mac := s.drvHeard_onlyChanges h .mac (by simp)

theorem State.drvHeard_txn : (s.drvHeard h).txn = s.txn := s.drvHeard_onlyChanges h .txn (by simp)

theorem State.drvHeard_bh : (s.drvHeard h).bh = s.bh := s.drvHeard_onlyChanges h .bh (by simp)

theorem State.drvHeard_now : (s.drvHeard h).now = s.now := s.drvHeard_onlyChanges h .now (by simp)

theorem State.drvHeard_ep (i : Nat) : (s.drvHeard h).ep i = s.ep i := State.ep_congr (s.drvHeard_mac h) i

theorem State.drvHeard_legsOf (i : Nat) : (s.drvHeard h).legsOf i = s.legsOf i := State.legsOf_congr (s.drvHeard_txn h) i

theorem State.drvHeard_epOfEui (eui : Nat) : (s.drvHeard h).epOfEui eui = s.epOfEui eui := by
  rw [State.epOfEui, s.drvHeard_mac h, State.epOfEui]

theorem State.drvHeard_sleepNow (e : Ep) : (s.drvHeard h).sleepNow e = s.sleepNow e := by
  rw [State.sleepNow, s.drvHeard_now h, State.sleepNow]

end Heard

/-! The commands of roaming while C6 runs. -/

section Exec

variable {s : State} (hup : s.coreUp 6 = true)

include hup

theorem exec_roamQuery_of_coreUp (header body cmac : List Byte) :
    exec (.roamQuery header body cmac) s = .next ((s.roamQueryRx header body cmac).modPending fun _ => s.pending) := onCore_of_coreUp hup _

theorem exec_roamOffer_of_coreUp (header body cmac : List Byte) :
    exec (.roamOffer header body cmac) s = .next ((s.roamOfferRx header body cmac).modPending fun _ => s.pending) := onCore_of_coreUp hup _

theorem exec_roamAccept_of_coreUp (header body cmac : List Byte) :
    exec (.roamAccept header body cmac) s = .next ((s.roamAcceptRx header body cmac).modPending fun _ => s.pending) := onCore_of_coreUp hup _

theorem exec_roamAcceptTimeout_of_coreUp (eui : Nat) :
    exec (.roamAcceptTimeout eui) s = .next ((s.roamAcceptTimeout eui).modPending fun _ => s.pending) := onCore_of_coreUp hup _

theorem exec_roamOfferWaitExpiry_of_coreUp (eui : Nat) :
    exec (.roamOfferWaitExpiry eui) s = .next ((s.offerWaitExpiry eui).modPending fun _ => s.pending) := onCore_of_coreUp hup _

theorem exec_roamRequery_of_coreUp (eui : Nat) :
    exec (.roamRequery eui) s = .next ((s.roamRequery eui).modPending fun _ => s.pending) := onCore_of_coreUp hup _

theorem exec_txnRelay_of_coreUp (header body cmac : List Byte) :
    exec (.txnRelay header body cmac) s = .next ((s.txnRelayRx header body cmac).modPending fun _ => s.pending) := onCore_of_coreUp hup _

end Exec

/-! ROAM_QUERY (R263). -/

/-- An entry without open legs is offered in one message. -/
theorem State.offer_of_noLegs {s : State} {i : Nat} (hlegs : s.legsOf i = []) (dev : Nat) : s.offer i dev =
    (s.setHandOver (s.ep i).eui ⟨dev, some s.now, []⟩).drvSend drvRoamOffer (some dev)
      (offerHead (s.ep i).eui 0 0 (s.ep i).leaseEnd (s.ep i).driftBound (s.sleepNow (s.ep i)) 0) := by
  have hmovable : s.movable i = [] := by rw [State.movable, hlegs, List.filter_nil]
  unfold State.offer
  rw [hmovable]
  simp only [List.map_nil, offerGroups, List.isEmpty_nil, if_true, List.zipIdx_singleton, List.foldl_nil, List.foldl_cons, List.length_nil,
    List.length_cons, List.flatten_nil, List.append_nil, beq_self_eq_true]
  rfl

section Query

variable {s : State} (hready : DrvReady s) {header body cmac : List Byte} {h : DrvHead} {eui : Nat}
variable (hgood : cmac = cmacOf s.domainKey (header ++ body)) (hfresh : s.drvStale h = false) (hfrom : DrvFrom 4 header body h s)
variable (heui : eui = ofBe (body.take 8))

include hready hgood hfresh hfrom heui

theorem roamQuery_of_unheld (hheld : s.epOfEui eui = none) :
    ∃ t, exec (.roamQuery header body cmac) s = .next t ∧ t.bh = s.bh ∧ t.domain.handOvers = s.domain.handOvers ∧
      OnlyChanges [.dict, .domain] s t := by
  have heq : s.roamQueryRx header body cmac = s.drvHeard h := by
    unfold State.roamQueryRx
    rw [show s.drvAccept drvRoamQuery header body cmac = _ from hready.accepts hgood hfresh hfrom]
    dsimp only
    rw [← heui, s.drvHeard_epOfEui h, hheld, ite_self]
  refine exec_next_of (exec_roamQuery_of_coreUp hready.coreUp header body cmac) (fun _ ⟨hbh, hhands, honly⟩ => ⟨hbh, hhands, honly.keepQueue⟩) ?_
  rw [heq]
  exact ⟨s.drvHeard_bh h, by rw [s.drvHeard_peers h], s.drvHeard_onlyChanges h⟩

variable {i : Nat} (hlen : body.length = 16) (hheld : s.epOfEui eui = some i) (hstate : (s.ep i).state ≠ 1)

include hlen hheld hstate

/-- A query for an entry that is held is answered from the hand-over, or with an offer. -/
theorem State.roamQueryRx_of_held : s.roamQueryRx header body cmac = match s.handOver? eui with
    | some x => (s.drvHeard h).drvSend drvRoamOffer (some h.src)
        (offerHead eui (if x.offered.isSome then 3 else 1) x.querier 0 0 Sleep.none 0)
    | none => (s.drvHeard h).offer i h.src := by
  unfold State.roamQueryRx
  rw [show s.drvAccept drvRoamQuery header body cmac = _ from hready.accepts hgood hfresh hfrom]
  dsimp only
  rw [if_pos hlen, ← heui, s.drvHeard_epOfEui h, hheld]
  dsimp only
  rw [if_neg (by rw [s.drvHeard_ep h]; exact hstate), s.drvHeard_handOver? h]
  cases s.handOver? eui with
  | none => rfl
  | some x => cases hoffered : x.offered <;> simp [hoffered]

theorem roamQuery_offers (hentry : (s.ep i).eui = eui) (hnone : s.handOver? eui = none) (hlegs : s.legsOf i = []) :
    ∃ t, exec (.roamQuery header body cmac) s = .next t ∧ t.handOver? eui = some ⟨h.src, some s.now, []⟩ ∧
      DrvSends 5 (some h.src) (offerHead eui 0 0 (s.ep i).leaseEnd (s.ep i).driftBound (s.sleepNow (s.ep i)) 0) s t ∧
      OnlyChanges [.dict, .bh, .domain] s t := by
  have heq : s.roamQueryRx header body cmac = ((s.drvHeard h).setHandOver eui ⟨h.src, some s.now, []⟩).drvSend drvRoamOffer (some h.src)
      (offerHead eui 0 0 (s.ep i).leaseEnd (s.ep i).driftBound (s.sleepNow (s.ep i)) 0) := by
    rw [State.roamQueryRx_of_held hready hgood hfresh hfrom heui hlen hheld hstate, hnone]
    dsimp only
    rw [State.offer_of_noLegs ((s.drvHeard_legsOf h i).trans hlegs), s.drvHeard_ep h, hentry, s.drvHeard_now h, s.drvHeard_sleepNow h]
  have hsame : SendsAs s ((s.drvHeard h).setHandOver eui ⟨h.src, some s.now, []⟩) :=
    (SendsAs.drvHeard h hready.canSend.slot).trans (SendsAs.setHandOver _ _ _)
  have hcan := (hready.canSend_heard h).of_domain (SendsAs.setHandOver (s.drvHeard h) eui ⟨h.src, some s.now, []⟩)
    (onlyChanges_setHandOver _ _ _)
  refine exec_next_of (exec_roamQuery_of_coreUp hready.coreUp header body cmac)
    (fun _ ⟨hhand, hsends, honly⟩ => ⟨hhand, hsends.later rfl rfl rfl, honly.keepQueue⟩) ?_
  rw [heq]
  exact ⟨by rw [State.drvSend_handOver?, State.handOver?_setHandOver], hcan.sends hsame _ _ _,
    (((s.drvHeard_onlyChanges h).trans (onlyChanges_setHandOver _ _ _)).trans (State.drvSend_onlyChanges _ _ _ _)).mono (by simp)⟩

theorem roamQuery_answered {x : HandOver} (hhand : s.handOver? eui = some x) :
    ∃ t, exec (.roamQuery header body cmac) s = .next t ∧ t.handOver? eui = some x ∧
      DrvSends 5 (some h.src) (offerHead eui (if x.offered.isSome then 3 else 1) x.querier 0 0 Sleep.none 0) s t ∧
      OnlyChanges [.dict, .bh, .domain] s t := by
  have heq := State.roamQueryRx_of_held hready hgood hfresh hfrom heui hlen hheld hstate
  rw [hhand] at heq
  refine exec_next_of (exec_roamQuery_of_coreUp hready.coreUp header body cmac)
    (fun _ ⟨hhand, hsends, honly⟩ => ⟨hhand, hsends.later rfl rfl rfl, honly.keepQueue⟩) ?_
  rw [heq]
  exact ⟨by rw [State.drvSend_handOver?, s.drvHeard_handOver? h, hhand],
    (hready.canSend_heard h).sends (SendsAs.drvHeard h hready.canSend.slot) _ _ _,
    ((s.drvHeard_onlyChanges h).trans (State.drvSend_onlyChanges _ _ _ _)).mono (by simp)⟩

end Query

/-! ROAM_ACCEPT and the end of an offer (R263, R264). -/

theorem State.modEp_queue (s : State) (i : Nat) (f : Ep → Ep) : (s.modEp i f).mac.queue = s.mac.queue := rfl

/-- With no open leg the cause of an expiry does not matter: it answers legs alone. -/
theorem State.expireWith_of_noLegs {s : State} {i : Nat} (h : s.legsOf i = []) (cause : Nat) : s.expireWith i cause = s.expire i := by
  simp only [State.expire, State.expireWith, State.refuseLegs_of_noLegs h]

theorem State.movedAway_of_noLegs {s : State} {i : Nat} (hlegs : s.legsOf i = []) (hstate : (s.ep i).state = 2) (dev : Nat) :
    s.movedAway i dev = ((s.expire i).modEp i fun e => { e with movedTo := some dev }).bump K.doms.ROAMED_OUT := by
  have hlive : ¬ (s.ep i).state = epExpired := by rw [hstate]; decide
  unfold State.movedAway
  rw [hlegs]
  dsimp only [List.foldl_nil]
  rw [if_neg hlive, State.expireWith_of_noLegs hlegs]

/-- An expiry counts nothing of the domain. -/
theorem State.expire_rd_roamedOut {s : State} {i : Nat} (hlegs : s.legsOf i = []) :
    (s.expire i).rd K.doms.ROAMED_OUT = s.rd K.doms.ROAMED_OUT := by
  have hleft : (s.entryLeft i).rd K.doms.ROAMED_OUT = s.rd K.doms.ROAMED_OUT := by
    refine (s.entryLeft_onlyRegs i).rd ?_
    simp only [K.doms.ROAMED_OUT, K.segs.BRIDGE_DROP, K.pool.PAGES_FREE, K.pool.PAGES_FREE_MIN, List.map_cons, List.map_nil, List.mem_cons,
      List.not_mem_nil, or_false]
    omega
  have hdict : (s.expiredEntry i).dict =
      ((((s.entryLeft i).modEp i (Ep.expiredFrom s.now)).bump (K.segs.LEASE_EXPIRED (s.ep i).seg)).countAssociated (s.ep i).seg).dict := by
    rw [State.expiredEntry, State.modLine_dict, State.journalEp_dict]
  have hexpired : (s.expiredEntry i).rd K.doms.ROAMED_OUT = s.rd K.doms.ROAMED_OUT := by
    rw [State.rd_congr hdict, State.countAssociated_rd _ _ (by simp only [K.doms.ROAMED_OUT, K.segs.ASSOCIATED]; omega),
      State.rd_bump_ne _ (by simp only [K.doms.ROAMED_OUT, K.segs.LEASE_EXPIRED]; omega), State.rd_modEp, hleft]
  rw [State.expire_eq hlegs, State.recomputeRoutes_rd _ _ (by simp only [K.doms.ROAMED_OUT, K.segs.ROUTED_ENDPOINTS]; omega)
    (fun n => by simp only [K.doms.ROAMED_OUT, K.segs.ROUTE_SETS_SENT]; omega), hexpired]

/-- What an expired entry holds apart from its fields of the expiry does not matter to it. -/
theorem Expires.noted {i at' : Nat} {s t v : State} (h : Expires i at' s t) {dev : Nat}
    (hep : v.ep i = { t.ep i with movedTo := some dev }) (hqueue : v.mac.queue = t.mac.queue)
    (hrd : v.rd (K.segs.LEASE_EXPIRED (s.ep i).seg) = t.rd (K.segs.LEASE_EXPIRED (s.ep i).seg)) : Expires i at' s v := by
  unfold Expires at h ⊢
  rw [hep, hqueue, Counted, hrd]
  exact h

/-- An entry that has moved away is expired and knows where to (R213, R264). -/
theorem State.movedAway_expires {s : State} {i : Nat} (hlegs : s.legsOf i = []) (hstate : (s.ep i).state = 2) (dev : Nat) :
    Counted K.doms.ROAMED_OUT s (s.movedAway i dev) ∧ Expires i s.now s (s.movedAway i dev) ∧
      ((s.movedAway i dev).ep i).movedTo = some dev ∧ OnlyChanges [.dict, .mac, .flash, .line] s (s.movedAway i dev) := by
  rw [State.movedAway_of_noLegs hlegs hstate]
  have hep : ((((s.expire i).modEp i fun e => { e with movedTo := some dev }).bump K.doms.ROAMED_OUT).ep i) =
      { (s.expire i).ep i with movedTo := some dev } := by
    rw [State.ep_congr (State.bump_mac _ _), State.ep_modEp_self]
  refine ⟨(counted_bump _ _).of_rd_eq ?_, (State.expire_expires hlegs).noted hep ?_ ?_, by rw [hep],
    (((State.expire_onlyChanges hlegs).trans (onlyChanges_modEp _ _ _)).trans (onlyChanges_bump _ _)).mono (by simp)⟩
  · rw [State.rd_modEp, State.expire_rd_roamedOut hlegs]
  · rw [State.bump_mac, State.modEp_queue]
  · rw [State.rd_bump_ne _ (by simp only [K.doms.ROAMED_OUT, K.segs.LEASE_EXPIRED]; omega), State.rd_modEp]

section Accept

variable {s : State} (hready : DrvReady s) {header body cmac : List Byte} {h : DrvHead} {eui : Nat}
variable (hgood : cmac = cmacOf s.domainKey (header ++ body)) (hfresh : s.drvStale h = false) (hfrom : DrvFrom 6 header body h s)
variable (heui : eui = ofBe (body.take 8)) (hlen : body.length = 10) {x : HandOver} (hhand : s.handOver? eui = some x) {i at' : Nat}
variable (hheld : s.epOfEui eui = some i) (hoffered : x.offered = some at')

include hready hgood hfresh hfrom heui hlen hhand hheld hoffered

/-- An accept of an open offer counts from the device to which it was made, and from no other. -/
theorem State.roamAcceptRx_of_offered : s.roamAcceptRx header body cmac =
    if x.querier ≠ h.src then s.drvHeard h
    else ((s.drvHeard h).setHandOver eui { x with offered := none }).movedAway i h.src := by
  unfold State.roamAcceptRx
  rw [show s.drvAccept drvRoamAccept header body cmac = _ from hready.accepts hgood hfresh hfrom]
  dsimp only
  rw [if_pos hlen, ← heui, s.drvHeard_handOver? h, hhand, s.drvHeard_epOfEui h, hheld]
  simp [hoffered]

theorem roamAccept_moves (hquerier : x.querier = h.src) (hlegs : s.legsOf i = []) (hstate : (s.ep i).state = 2) (hseg : (s.ep i).seg < 64) :
    ∃ t, exec (.roamAccept header body cmac) s = .next t ∧ t.handOver? eui = some { x with offered := none } ∧
      Counted K.doms.ROAMED_OUT s t ∧ Expires i s.now s t ∧ (t.ep i).movedTo = some h.src ∧
      OnlyChanges [.dict, .mac, .flash, .line, .domain] s t := by
  have heq := State.roamAcceptRx_of_offered hready hgood hfresh hfrom heui hlen hhand hheld hoffered
  rw [if_neg (not_not.2 hquerier)] at heq
  have hparts := (s.drvHeard_onlyChanges h).trans (onlyChanges_setHandOver (s.drvHeard h) eui { x with offered := none })
  have hrd : ∀ r : Reg, r.key < 0x540000 ∨ 0x580000 ≤ r.key →
      ((s.drvHeard h).setHandOver eui { x with offered := none }).rd r = s.rd r := fun r hr =>
    (State.rd_congr (onlyChanges_setHandOver _ _ _ .dict (by simp)) r).trans (State.drvHeard_rd h hready.canSend.slot hr)
  have hep : ((s.drvHeard h).setHandOver eui { x with offered := none }).ep i = s.ep i := State.ep_congr (hparts .mac (by simp)) i
  have hnow : ((s.drvHeard h).setHandOver eui { x with offered := none }).now = s.now := hparts .now (by simp)
  have hlegs' : ((s.drvHeard h).setHandOver eui { x with offered := none }).legsOf i = [] :=
    (State.legsOf_congr (hparts .txn (by simp)) i).trans hlegs
  have hset : ((s.drvHeard h).setHandOver eui { x with offered := none }).handOver? eui = some { x with offered := none } :=
    State.handOver?_setHandOver _ _ _
  generalize (s.drvHeard h).setHandOver eui { x with offered := none } = u at *
  obtain ⟨hcounted, hexpires, hmoved, honly⟩ := State.movedAway_expires hlegs' (hep ▸ hstate) h.src
  have hhand' : (u.movedAway i h.src).handOver? eui = u.handOver? eui := by
    rw [State.handOver?, honly .domain (by simp), State.handOver?]
  refine exec_next_of (exec_roamAccept_of_coreUp hready.coreUp header body cmac) (fun _ ⟨hhand, hcounted, hexpires, hmoved, honly⟩ =>
    ⟨hhand, hcounted, hexpires, hmoved, honly.keepQueue⟩) ?_
  rw [heq]
  refine ⟨hhand'.trans hset, hcounted.of_rd_eq (hrd _ (by decide)), ?_, hmoved, (hparts.trans honly).mono (by simp)⟩
  exact (hnow ▸ hexpires).of_earlier hep (hrd _ (by simp only [K.segs.LEASE_EXPIRED]; omega))

theorem roamAccept_of_other (hquerier : x.querier ≠ h.src) :
    ∃ t, exec (.roamAccept header body cmac) s = .next t ∧ t.handOver? eui = some x ∧ t.mac = s.mac ∧ OnlyChanges [.dict, .domain] s t := by
  have heq := State.roamAcceptRx_of_offered hready hgood hfresh hfrom heui hlen hhand hheld hoffered
  rw [if_pos hquerier] at heq
  refine exec_next_of (exec_roamAccept_of_coreUp hready.coreUp header body cmac) (fun _ ⟨hhand, hmac, honly⟩ => ⟨hhand, hmac, honly.keepQueue⟩) ?_
  rw [heq]
  exact ⟨(s.drvHeard_handOver? h eui).trans hhand, s.drvHeard_mac h, s.drvHeard_onlyChanges h⟩

end Accept

theorem roamAcceptTimeout_ends {s : State} (hup : s.coreUp 6 = true) {eui at' : Nat} {x : HandOver} (hhand : s.handOver? eui = some x)
    (hoffered : x.offered = some at') (hlegs : x.legs = []) :
    ∃ t, exec (.roamAcceptTimeout eui) s = .next t ∧ t.now = max s.now (at' + 819200000) ∧ t.handOver? eui = none ∧
      OnlyChanges [.now, .free, .dict, .perf, .tracker, .tides, .domain] s t := by
  have hsec : secTicks 2 = 819200000 := rfl
  have heq : s.roamAcceptTimeout eui = (s.atDeadline (at' + 819200000)).dropHandOver eui := by
    unfold State.roamAcceptTimeout
    rw [hhand]
    dsimp only
    rw [hoffered]
    dsimp only
    rw [hlegs, List.foldl_nil, hsec]
  refine exec_next_of (exec_roamAcceptTimeout_of_coreUp hup eui) (fun _ ⟨hnow, hhand, honly⟩ => ⟨hnow, hhand, honly.keepQueue⟩) ?_
  rw [heq]
  exact ⟨by rw [onlyChanges_dropHandOver _ eui .now (by simp), s.atDeadline_now], State.handOver?_dropHandOver _ _,
    ((onlyChanges_passTo s _).trans (onlyChanges_dropHandOver _ _)).mono (by simp [timeParts])⟩

end Sys2Proof.Machine

end

section
/-! PROOF. O57: roaming on the new device's side, and the relay of transactions (R262 to R264, R414). -/

namespace Sys2Proof.Machine

/-! ROAM_OFFER (R263). -/

section Keep

variable (s : State) (eui : Nat)

theorem State.noOffer_onlyChanges : OnlyChanges [.dict, .domain] s (s.noOffer eui) :=
  ((onlyChanges_dropQuery s eui).trans (onlyChanges_bump _ _)).mono (by simp)

theorem State.noOffer_query? : (s.noOffer eui).query? eui = none := s.query?_dropQuery eui

theorem State.noOffer_counted : Counted K.doms.ROAM_NO_OFFER s (s.noOffer eui) :=
  (counted_bump (s.dropQuery eui) _).of_rd_eq (State.rd_congr (onlyChanges_dropQuery s eui .dict (by simp)) _)

end Keep

/-- The sleep schedule of an offer (R263). -/
def offeredSleep (body : List Byte) : Sleep :=
  ⟨ofBe ((body.drop 16).take 2), ofBe ((body.drop 18).take 2), ofBe ((body.drop 20).take 1), ofBe ((body.drop 21).take 1)⟩

/-- An entry with the lease and the drift bound of an offer. -/
def Ep.offered (body : List Byte) (e : Ep) : Ep :=
  { e with leaseEnd := laterLease e.leaseEnd (ofBe ((body.drop 11).take 4)), driftBound := ofBe ((body.drop 15).take 1) }

/-- Entry `i` has the records of an offer, and its sleep schedule is on its way to be echoed. -/
def State.adopted (s : State) (i : Nat) (body : List Byte) : State :=
  ((s.modEp i (Ep.offered body)).journalEp i).sendSleep i (offeredSleep body)

theorem State.adopt_of_noLegs (s : State) (i dev : Nat) (body : List Byte) : s.adopt i dev body [] =
    (((s.adopted i body).drvSend drvRoamAccept (some dev) (beBytes 8 (s.ep i).eui ++ beBytes 2 0)).bump K.doms.ROAMED_IN).dropQuery
      (s.ep i).eui := by
  unfold State.adopt State.adopted Ep.offered offeredSleep
  dsimp only [List.foldl_nil, List.length_nil]

section Adopted

variable (s : State) (i : Nat) (body : List Byte)

theorem State.sendSleep_onlyChanges (x : Sleep) : OnlyChanges [.mac, .line] s (s.sendSleep i x) :=
  (((onlyChanges_modMac s _).trans (onlyChanges_modEp _ _ _)).trans (State.sendCommand_onlyChanges _ _ _ _)).mono (by simp)

theorem State.sendSleep_ep (x : Sleep) : EpBecomes i { s.ep i with echo := some x } s (s.sendSleep i x) := by
  obtain ⟨hself, hothers⟩ := (s.withdraw fun d => d.kind == .sleepEcho && d.entry == some i).ep_modEp_becomes i fun e =>
    { e with echo := some x }
  exact ⟨(State.sendCommand_ep _ _ _ _ _).trans hself, fun j hj => (State.sendCommand_ep _ _ _ _ _).trans (hothers j hj)⟩

theorem State.adopted_onlyChanges : OnlyChanges [.mac, .flash, .line] s (s.adopted i body) :=
  (((onlyChanges_modEp s _ _).trans (State.journalEp_onlyChanges _ _)).trans (State.sendSleep_onlyChanges _ _ _)).mono (by simp)

theorem State.adopted_ep : EpBecomes i { (s.ep i).offered body with echo := some (offeredSleep body) } s (s.adopted i body) := by
  have hoffered := s.ep_modEp_becomes i (Ep.offered body)
  have hmac := State.journalEp_mac (s.modEp i (Ep.offered body)) i
  have hsleep := State.sendSleep_ep ((s.modEp i (Ep.offered body)).journalEp i) i (offeredSleep body)
  rw [State.ep_congr hmac, hoffered.1] at hsleep
  exact ⟨hsleep.1, fun j hj => (hsleep.2 j hj).trans ((State.ep_congr hmac j).trans (hoffered.2 j hj))⟩

end Adopted

section Offer

variable {s : State} (hready : DrvReady s) {header body cmac : List Byte} {h : DrvHead} {eui : Nat}
variable (hgood : cmac = cmacOf s.domainKey (header ++ body)) (hfresh : s.drvStale h = false) (hfrom : DrvFrom 5 header body h s)
variable (heui : eui = ofBe (body.take 8)) (hlen : 24 ≤ body.length) {q : Query} (hquery : s.query? eui = some q)

include hready hgood hfresh hfrom heui hlen hquery

/-- An offer for a query that is open acts by its STATUS. -/
theorem State.roamOfferRx_of_queried : s.roamOfferRx header body cmac =
    if ofBe ((body.drop 8).take 1) = 0 then
      (s.drvHeard h).adopt q.entry h.src body (q.legs ++ movedRead (ofBe ((body.drop 22).take 2)) (body.drop 24))
    else if ofBe ((body.drop 8).take 1) = 2 then
      (s.drvHeard h).setQuery eui { q with legs := q.legs ++ movedRead (ofBe ((body.drop 22).take 2)) (body.drop 24) }
    else if ofBe ((body.drop 8).take 1) = 3 ∧ q.repeated = false then
      (s.drvHeard h).setQuery eui { q with again := some (s.now + msTicks 2500) }
    else if ofBe ((body.drop 8).take 1) = 1 ∨ ofBe ((body.drop 8).take 1) = 3 then (s.drvHeard h).noOffer eui
    else s.drvHeard h := by
  unfold State.roamOfferRx
  rw [show s.drvAccept drvRoamOffer header body cmac = _ from hready.accepts hgood hfresh hfrom]
  dsimp only
  rw [if_pos hlen, ← heui, s.drvHeard_query? h, hquery, s.drvHeard_now h]
  simp only [Bool.and_eq_true, Bool.or_eq_true, decide_eq_true_eq, Bool.not_eq_true']

theorem roamOffer_keepsNew
    (hstatus : ofBe ((body.drop 8).take 1) = 1 ∨ ofBe ((body.drop 8).take 1) = 3 ∧ q.repeated = true) :
    ∃ t, exec (.roamOffer header body cmac) s = .next t ∧ t.query? eui = none ∧ Counted K.doms.ROAM_NO_OFFER s t ∧
      OnlyChanges [.dict, .domain] s t := by
  have heq : s.roamOfferRx header body cmac = (s.drvHeard h).noOffer eui := by
    rw [State.roamOfferRx_of_queried hready hgood hfresh hfrom heui hlen hquery]
    obtain hone | ⟨hthree, hrepeated⟩ := hstatus
    · simp [hone]
    · simp [hthree, hrepeated]
  refine exec_next_of (exec_roamOffer_of_coreUp hready.coreUp header body cmac) (fun _ ⟨hgone, hcounted, honly⟩ =>
    ⟨hgone, hcounted, honly.keepQueue⟩) ?_
  rw [heq]
  exact ⟨State.noOffer_query? _ _, (State.noOffer_counted _ _).of_rd_eq (State.drvHeard_rd h hready.canSend.slot (by decide)),
    ((s.drvHeard_onlyChanges h).trans (State.noOffer_onlyChanges _ _)).mono (by simp)⟩

theorem roamOffer_waits (hstatus : ofBe ((body.drop 8).take 1) = 3) (hfirst : q.repeated = false) :
    ∃ t, exec (.roamOffer header body cmac) s = .next t ∧ t.query? eui = some { q with again := some (s.now + 1024000000) } ∧
      OnlyChanges [.dict, .domain] s t := by
  have hwait : msTicks 2500 = 1024000000 := rfl
  have heq : s.roamOfferRx header body cmac = (s.drvHeard h).setQuery eui { q with again := some (s.now + 1024000000) } := by
    rw [State.roamOfferRx_of_queried hready hgood hfresh hfrom heui hlen hquery, hwait]
    simp [hstatus, hfirst]
  refine exec_next_of (exec_roamOffer_of_coreUp hready.coreUp header body cmac) (fun _ ⟨hagain, honly⟩ => ⟨hagain, honly.keepQueue⟩) ?_
  rw [heq]
  exact ⟨State.query?_setQuery _ _ _, ((s.drvHeard_onlyChanges h).trans (onlyChanges_setQuery _ _ _)).mono (by simp)⟩

theorem roamOffer_adopts (hstatus : ofBe ((body.drop 8).take 1) = 0) (hlegs : q.legs = []) (hmoved : ofBe ((body.drop 22).take 2) = 0)
    (hentry : (s.ep q.entry).eui = eui) :
    ∃ t, exec (.roamOffer header body cmac) s = .next t ∧ t.query? eui = none ∧ Counted K.doms.ROAMED_IN s t ∧
      EpBecomes q.entry { (s.ep q.entry).offered body with echo := some (offeredSleep body) } s t ∧
      DrvSends 6 (some h.src) (beBytes 8 eui ++ beBytes 2 0) s t ∧ OnlyChanges [.dict, .mac, .flash, .bh, .line, .domain] s t := by
  have heq : s.roamOfferRx header body cmac = ((((s.drvHeard h).adopted q.entry body).drvSend drvRoamAccept (some h.src)
      (beBytes 8 eui ++ beBytes 2 0)).bump K.doms.ROAMED_IN).dropQuery eui := by
    rw [State.roamOfferRx_of_queried hready hgood hfresh hfrom heui hlen hquery, if_pos hstatus, hlegs, hmoved, List.nil_append,
      movedRead, State.adopt_of_noLegs, s.drvHeard_ep h, hentry]
  have hadopted := State.adopted_onlyChanges (s.drvHeard h) q.entry body
  have hheard : SendsAs s (s.drvHeard h) := SendsAs.drvHeard h hready.canSend.slot
  have hsame : SendsAs (s.drvHeard h) ((s.drvHeard h).adopted q.entry body) := SendsAs.of_parts hadopted (by simp)
  have hcan : ((s.drvHeard h).adopted q.entry body).CanSend :=
    (hready.canSend_heard h).of_sendsAs hsame (State.rd_congr (hadopted .dict (by simp)) _)
  have hsends := hcan.sends (hheard.trans hsame) drvRoamAccept (some h.src) (beBytes 8 eui ++ beBytes 2 0)
  have hep : EpBecomes q.entry { (s.ep q.entry).offered body with echo := some (offeredSleep body) } s ((s.drvHeard h).adopted q.entry body) := by
    have hbecomes := State.adopted_ep (s.drvHeard h) q.entry body
    rw [s.drvHeard_ep h] at hbecomes
    exact hbecomes.of_mac (s.drvHeard_mac h) rfl
  have hrd : ((s.drvHeard h).adopted q.entry body).rd K.doms.ROAMED_IN = s.rd K.doms.ROAMED_IN :=
    (State.rd_congr (hadopted .dict (by simp)) _).trans (State.drvHeard_rd h hready.canSend.slot (by decide))
  have hparts := (s.drvHeard_onlyChanges h).trans hadopted
  generalize (s.drvHeard h).adopted q.entry body = u at *
  have hsent := u.drvSend_onlyChanges drvRoamAccept (some h.src) (beBytes 8 eui ++ beBytes 2 0)
  have hcounter := u.drvSend_rd drvRoamAccept (some h.src) (beBytes 8 eui ++ beBytes 2 0) hcan.slot hcan.port (r := K.doms.ROAMED_IN)
    (by decide) (by decide)
  generalize u.drvSend drvRoamAccept (some h.src) (beBytes 8 eui ++ beBytes 2 0) = v at *
  have hlast : OnlyChanges [.dict, .domain] v ((v.bump K.doms.ROAMED_IN).dropQuery eui) :=
    ((onlyChanges_bump v _).trans (onlyChanges_dropQuery _ _)).mono (by simp)
  have hdropped : ((v.bump K.doms.ROAMED_IN).dropQuery eui).dict = (v.bump K.doms.ROAMED_IN).dict :=
    onlyChanges_dropQuery _ _ .dict (by simp)
  refine exec_next_of (exec_roamOffer_of_coreUp hready.coreUp header body cmac) (fun _ ⟨hgone, hcounted, hep, hsends, honly⟩ =>
    ⟨hgone, hcounted, hep, hsends.later rfl rfl rfl, honly.keepQueue⟩) ?_
  rw [heq]
  refine ⟨State.query?_dropQuery _ _, ?_, ?_, hsends.later (hlast .bh (by simp)) rfl ?_, ((hparts.trans hsent).trans hlast).mono (by simp)⟩
  · rw [Counted, State.rd_congr hdropped, State.rd_bump_self, hcounter, hrd]
  · exact hep.of_mac rfl ((hsent.trans hlast) .mac (by simp))
  · have hport := hready.canSend.port
    rw [State.rd_congr hdropped, State.rd_bump_ne _ (by simp only [K.doms.ROAMED_IN, K.ports.TX_LINK_DOWN]; omega)]

end Offer

/-! The deadlines of a query (R262, R263). -/

section Query

variable {s : State} (hup : s.coreUp 6 = true) {eui : Nat} {q : Query}

include hup

theorem roamOfferWait_idle (h : s.query? eui = none ∨ ∃ q, s.query? eui = some q ∧ q.again.isSome = true) :
    exec (.roamOfferWaitExpiry eui) s = .next s := by
  refine exec_unchanged (exec_roamOfferWaitExpiry_of_coreUp hup eui) ?_
  unfold State.offerWaitExpiry
  obtain hnone | ⟨q, hquery, hagain⟩ := h
  · rw [hnone]
  · rw [hquery]
    exact if_pos hagain

theorem roamRequery_idle (h : s.query? eui = none ∨ ∃ q, s.query? eui = some q ∧ q.again = none) :
    exec (.roamRequery eui) s = .next s := by
  refine exec_unchanged (exec_roamRequery_of_coreUp hup eui) ?_
  unfold State.roamRequery
  obtain hnone | ⟨q, hquery, hagain⟩ := h
  · rw [hnone]
  · rw [hquery]
    dsimp only
    rw [hagain]

theorem roamAcceptTimeout_idle (h : s.handOver? eui = none) : exec (.roamAcceptTimeout eui) s = .next s := by
  refine exec_unchanged (exec_roamAcceptTimeout_of_coreUp hup eui) ?_
  rw [State.roamAcceptTimeout, h]

theorem roamOfferWait_ends (hquery : s.query? eui = some q) (hagain : q.again = none) :
    ∃ t, exec (.roamOfferWaitExpiry eui) s = .next t ∧ t.now = max s.now (q.sent + 819200000) ∧ t.query? eui = none ∧
      Counted K.doms.ROAM_NO_OFFER s t ∧ OnlyChanges [.now, .free, .dict, .perf, .tracker, .tides, .domain] s t := by
  have hsec : secTicks 2 = 819200000 := rfl
  have heq : s.offerWaitExpiry eui = (s.atDeadline (q.sent + 819200000)).noOffer eui := by
    unfold State.offerWaitExpiry
    rw [hquery]
    dsimp only
    rw [hagain, hsec]
    rfl
  refine exec_next_of (exec_roamOfferWaitExpiry_of_coreUp hup eui) (fun _ ⟨hnow, hgone, hcounted, honly⟩ =>
    ⟨hnow, hgone, hcounted, honly.keepQueue⟩) ?_
  rw [heq]
  exact ⟨by rw [State.noOffer_onlyChanges _ eui .now (by simp), s.atDeadline_now], State.noOffer_query? _ _,
    (State.noOffer_counted _ _).of_rd_eq (s.atDeadline_rd _ (by decide) (by decide)),
    ((onlyChanges_passTo s _).trans (State.noOffer_onlyChanges _ _)).mono (by simp [timeParts])⟩

end Query

theorem roamRequery_asks {s : State} (hready : DrvReady s) {eui at' : Nat} {q : Query} {u : State} (hquery : s.query? eui = some q)
    (hagain : q.again = some at') (hu : u = s.atDeadline at') (hentry : (s.ep q.entry).eui = eui) :
    ∃ t, exec (.roamRequery eui) s = .next t ∧ t.query? eui = some ⟨q.entry, u.now, none, true, []⟩ ∧
      DrvSends 4 none (beBytes 8 eui ++ beBytes 4 (s.globalAddr (s.ep q.entry).seg (s.ep q.entry).addr) ++
        beBytes 4 (s.ep q.entry).leaseEnd) u t ∧ OnlyChanges [.dict, .bh, .domain] u t := by
  have hcan : u.CanSend := hu ▸ hready.canSend.atDeadline at'
  have hep : u.ep q.entry = s.ep q.entry := hu ▸ s.ep_atDeadline at' q.entry
  have hpending : u.pending = s.pending := hu ▸ s.atDeadline_pending at'
  have hnid : u.nid (s.ep q.entry).seg = s.nid (s.ep q.entry).seg := by
    rw [hu, State.nid, s.atDeadline_domain, State.nid]
  have heq : s.roamRequery eui = (u.setQuery eui ⟨q.entry, u.now, none, true, []⟩).drvSend drvRoamQuery none
      (beBytes 8 eui ++ beBytes 4 (s.globalAddr (s.ep q.entry).seg (s.ep q.entry).addr) ++ beBytes 4 (s.ep q.entry).leaseEnd) := by
    unfold State.roamRequery
    rw [hquery]
    dsimp only
    rw [hagain]
    dsimp only
    rw [← hu]
    unfold State.sendQuery
    dsimp only
    rw [hep, hentry, State.globalAddr, hnid, State.globalAddr]
  have hset := SendsAs.setQuery u eui ⟨q.entry, u.now, none, true, []⟩
  refine exec_next_of (exec_roamRequery_of_coreUp hready.coreUp eui) (fun _ ⟨hasked, hsends, honly⟩ =>
    ⟨hasked, hsends.later rfl rfl rfl, hpending ▸ honly.keepQueue⟩) ?_
  rw [heq]
  exact ⟨by rw [State.drvSend_query?, State.query?_setQuery], (hcan.of_domain hset (onlyChanges_setQuery _ _ _)).sends hset _ _ _,
    ((onlyChanges_setQuery u _ _).trans (State.drvSend_onlyChanges _ _ _ _)).mono (by simp)⟩

/-! TXN_RELAY (R264). -/

/-- The identifier under which a transaction of device `dev` is served names that device. -/
theorem servedFor_of_dev {dev id : Nat} (hid : id < 2 ^ 32) : servedFor ((dev + 1) * 2 ^ 32 + id) = some dev := by
  unfold servedFor
  rw [if_neg (by omega)]
  congr 1
  omega

section Relay

variable {s : State} (hready : DrvReady s) {header body cmac msg : List Byte} {h : DrvHead}
variable (hgood : cmac = cmacOf s.domainKey (header ++ body)) (hfresh : s.drvStale h = false) (hfrom : DrvFrom 7 header body h s)

include hready hgood hfresh hfrom

theorem State.txnRelayRx_of_good : s.txnRelayRx header body cmac = (s.drvHeard h).relayed h.src body := by
  unfold State.txnRelayRx
  rw [show s.drvAccept drvTxnRelay header body cmac = _ from hready.accepts hgood hfresh hfrom]

theorem txnRelay_of_unread (hread : nbRead body = none) :
    ∃ t, exec (.txnRelay header body cmac) s = .next t ∧ t.txn = s.txn ∧ t.bh = s.bh ∧ OnlyChanges [.dict, .domain] s t := by
  have heq : s.txnRelayRx header body cmac = s.drvHeard h := by
    rw [State.txnRelayRx_of_good hready hgood hfresh hfrom, State.relayed, hread]
  refine exec_next_of (exec_txnRelay_of_coreUp hready.coreUp header body cmac) (fun _ ⟨htxn, hbh, honly⟩ => ⟨htxn, hbh, honly.keepQueue⟩) ?_
  rw [heq]
  exact ⟨s.drvHeard_txn h, s.drvHeard_bh h, s.drvHeard_onlyChanges h⟩

theorem txnRelay_resends {m : NbMsg} {x : Txn} (hread : nbRead body = some m) (htype : m.type = 1)
    (htxn : s.txn? ((h.src + 1) * 2 ^ 32 + m.id) = some x) (hsent : x.sent = [msg]) (hid : m.id < 2 ^ 32) :
    ∃ t, exec (.txnRelay header body cmac) s = .next t ∧ Counted K.doms.TXN_RELAYED s t ∧ DrvSends 7 (some h.src) msg s t ∧
      t.txn = s.txn ∧ OnlyChanges [.dict, .bh, .domain] s t := by
  have htxn' : (s.drvHeard h).txn? ((h.src + 1) * 2 ^ 32 + m.id) = some x := by
    rw [State.txn?, s.drvHeard_txn h]
    exact htxn
  have heq : s.txnRelayRx header body cmac = ((s.drvHeard h).bump K.doms.TXN_RELAYED).drvSend drvTxnRelay (some h.src) msg := by
    rw [State.txnRelayRx_of_good hready hgood hfresh hfrom, State.relayed, hread]
    dsimp only
    rw [if_neg (by rw [htype]; decide), htxn']
    dsimp only
    rw [if_neg (by rw [htype]; decide), if_pos (show m.type = msgRequest from htype), State.resend, htxn']
    dsimp only
    rw [hsent, List.foldl_cons, List.foldl_nil, State.txnEmit, servedFor_of_dev hid]
  have hbumped : SendsAs (s.drvHeard h) ((s.drvHeard h).bump K.doms.TXN_RELAYED) := SendsAs.wr _ _ (.inr (by decide))
  have hstate : ((s.drvHeard h).bump K.doms.TXN_RELAYED).slotState ((s.drvHeard h).rd K.dom.DOMAIN_KEY_SLOT) =
      (s.drvHeard h).slotState ((s.drvHeard h).rd K.dom.DOMAIN_KEY_SLOT) :=
    State.rd_bump_ne _ (by have hslot := (hready.canSend_heard h).slot; simp only [K.key.STATE, K.doms.TXN_RELAYED]; omega)
  have hcan := (hready.canSend_heard h).of_sendsAs hbumped hstate
  have hsends := hcan.sends ((SendsAs.drvHeard h hready.canSend.slot).trans hbumped) drvTxnRelay (some h.src) msg
  have hcounted : Counted K.doms.TXN_RELAYED s ((s.drvHeard h).bump K.doms.TXN_RELAYED) :=
    (counted_bump _ _).of_rd_eq (State.drvHeard_rd h hready.canSend.slot (by decide))
  have hparts : OnlyChanges [.dict, .domain] s ((s.drvHeard h).bump K.doms.TXN_RELAYED) :=
    ((s.drvHeard_onlyChanges h).trans (onlyChanges_bump _ _)).mono (by simp)
  generalize (s.drvHeard h).bump K.doms.TXN_RELAYED = u at *
  have hcounter := u.drvSend_rd drvTxnRelay (some h.src) msg hcan.slot hcan.port (r := K.doms.TXN_RELAYED) (by decide) (by decide)
  have honly := hparts.trans (u.drvSend_onlyChanges drvTxnRelay (some h.src) msg)
  refine exec_next_of (exec_txnRelay_of_coreUp hready.coreUp header body cmac) (fun _ ⟨hcounted, hsends, htxn, honly⟩ =>
    ⟨hcounted, hsends.later rfl rfl rfl, htxn, honly.keepQueue⟩) ?_
  rw [heq]
  exact ⟨hcounter.trans hcounted, hsends, honly .txn (by simp), honly.mono (by simp)⟩

end Relay

end Sys2Proof.Machine

end

section
/-! PROOF. O57, put together: an entry roams by query, offer and accept. -/

namespace Sys2Proof.Machine

/-- Settles O57: each message by what it does once it is accepted, each deadline by its command's meaning. -/
theorem roamingMovesTheEntryByQueryOfferAndAccept : Obligations.RoamingMovesTheEntryByQueryOfferAndAccept := by
  unfold Obligations.RoamingMovesTheEntryByQueryOfferAndAccept
  refine ⟨fun header body cmac h eui s hready hgood hfresh heui => ⟨?_, ?_, ?_, ?_⟩, fun eui s hup => ⟨?_, ?_, ?_, ?_⟩,
    fun header body cmac msg h m x s hready hgood hfresh hfrom => ⟨?_, ?_⟩⟩
  · exact fun i hfrom hlen hheld hstate hentry =>
      ⟨roamQuery_offers hready hgood hfresh hfrom heui hlen hheld hstate hentry,
        fun x hhand => roamQuery_answered hready hgood hfresh hfrom heui hlen hheld hstate hhand⟩
  · exact fun hfrom hheld => roamQuery_of_unheld hready hgood hfresh hfrom heui hheld
  · exact fun q hfrom hlen hquery => ⟨roamOffer_keepsNew hready hgood hfresh hfrom heui hlen hquery,
      roamOffer_waits hready hgood hfresh hfrom heui hlen hquery,
      fun hstatus hlegs hmoved hentry _ => roamOffer_adopts hready hgood hfresh hfrom heui hlen hquery hstatus hlegs hmoved hentry⟩
  · exact fun x i at' hfrom hlen hhand hheld hoffered hseg hlegs =>
      ⟨fun hquerier hstate => roamAccept_moves hready hgood hfresh hfrom heui hlen hhand hheld hoffered hquerier hlegs hstate hseg,
        roamAccept_of_other hready hgood hfresh hfrom heui hlen hhand hheld hoffered⟩
  · exact fun hnone => ⟨roamOfferWait_idle hup (.inl hnone), roamRequery_idle hup (.inl hnone)⟩
  · exact roamAcceptTimeout_idle hup
  · intro q hquery
    refine ⟨fun hagain => ⟨roamRequery_idle hup (.inr ⟨q, hquery, hagain⟩), roamOfferWait_ends hup hquery hagain⟩,
      fun at' u hagain hu hready hentry => ⟨roamOfferWait_idle hup (.inr ⟨q, hquery, ?_⟩), roamRequery_asks hready hquery hagain hu hentry⟩⟩
    rw [hagain]
    rfl
  · exact fun x at' hhand hoffered hlegs => roamAcceptTimeout_ends hup hhand hoffered hlegs
  · exact txnRelay_of_unread hready hgood hfresh hfrom
  · exact txnRelay_resends hready hgood hfresh hfrom

end Sys2Proof.Machine

end

section
/-! PROOF. O49: neighbour reports and the interval at which routes are recomputed (R237 to R241, R249). -/

namespace Sys2Proof.Machine

/-! What a hop is judged by. -/

section Hops

variable {s t : State} (heps : t.mac.eps = s.mac.eps)

include heps

theorem State.ep_of_eps (i : Nat) : t.ep i = s.ep i := by rw [State.ep, heps, State.ep]

theorem State.epsWith_of_eps (p : Ep → Bool) : t.epsWith p = s.epsWith p := by rw [State.epsWith, heps, State.epsWith]

theorem State.stations_of_eps (g : Nat) : t.stations g = s.stations g := State.epsWith_of_eps heps _

theorem State.reported_of_eps (i addr : Nat) : t.reported i addr = s.reported i addr := by
  rw [State.reported, State.ep_of_eps heps, State.reported]

theorem State.firstHop_of_eps (i : Nat) : t.firstHop i = s.firstHop i := by
  simp only [State.firstHop, State.reported_of_eps heps, State.ep_of_eps heps]

theorem State.hopsAt_of_eps (hdict : t.dict = s.dict) (i : Nat) : t.hopsAt i = s.hopsAt i := by
  have hmin : ∀ g, t.minSnr g = s.minSnr g := fun g => by rw [State.minSnr, State.rd_congr hdict, State.minSnr]
  have hcost : ∀ g x, t.hopCost g x = s.hopCost g x := fun g x => by
    cases x with
    | none => rfl
    | some x => simp only [State.hopCost, hmin, State.rd_congr hdict]
  have hvia : ∀ j k, t.viaOnly j k = s.viaOnly j k := fun j k => by rw [State.viaOnly, State.ep_of_eps heps, State.viaOnly]
  have hbetween : ∀ j, t.hopBetween i j = s.hopBetween i j := fun j => by
    rw [State.hopBetween, hvia, hvia, hmin, State.ep_of_eps heps, State.ep_of_eps heps, State.reported_of_eps heps,
      State.reported_of_eps heps, State.hopBetween]
  simp only [State.hopsAt, hcost, hbetween, State.ep_of_eps heps, State.stations_of_eps heps, State.firstHop_of_eps heps]

end Hops

/-! The hops that a report gives (R249). -/

/-- An entry apart from whether a report has given the hop over which it associated. -/
def Ep.unseen (e : Ep) : Ep := { e with viaSeen := false }

section Unseen

variable {e e' : Ep} (h : e.unseen = e'.unseen)

include h

theorem Ep.report_of_unseen : e.report = e'.report := (congrArg Ep.report h : e.unseen.report = e'.unseen.report)

theorem Ep.seg_of_unseen : e.seg = e'.seg := (congrArg Ep.seg h : e.unseen.seg = e'.unseen.seg)

end Unseen

section Given

variable (s : State) (i : Nat) (r : List (Nat × Nat))

theorem State.hopsGiven_keeps {β : Type} (p : State → β) (hp : ∀ t j, p (t.modEp j fun e => { e with viaSeen := true }) = p t) :
    p (s.hopsGiven i r) = p s := by
  unfold State.hopsGiven
  refine State.foldl_keeps p _ (fun t j => ?_) _ s
  dsimp only
  split
  · exact hp t j
  · rfl

theorem State.hopsGiven_ep (j : Nat) : ((s.hopsGiven i r).ep j).unseen = (s.ep j).unseen := by
  refine s.hopsGiven_keeps i r (fun t => (t.ep j).unseen) fun t k => t.ep_modEp_keeps Ep.unseen ?_ k j
  exact fun _ => rfl

theorem State.hopsGiven_queue : (s.hopsGiven i r).mac.queue = s.mac.queue := s.hopsGiven_keeps i r (·.mac.queue) fun _ _ => rfl

theorem State.hopsGiven_committed : (s.hopsGiven i r).mac.committed = s.mac.committed := s.hopsGiven_keeps i r (·.mac.committed) fun _ _ => rfl

theorem State.hopsGiven_onlyChanges : OnlyChanges [.mac] s (s.hopsGiven i r) := by
  unfold State.hopsGiven
  refine OnlyChanges.foldl s (fun t j => ?_) _
  dsimp only
  split
  · exact onlyChanges_modEp t j _
  · exact (OnlyChanges.refl t).mono (by simp)

/-- The hops that a report gives do not depend on the messages that wait. -/
theorem State.hopsGiven_takeCommitted (k : Nat) (b : List Byte) :
    (s.takeCommitted k b).hopsGiven i r = (s.hopsGiven i r).takeCommitted k b := by
  unfold State.hopsGiven
  refine List.foldl_hom (fun t : State => t.takeCommitted k b) fun t j => ?_
  rw [apply_ite (fun t : State => t.takeCommitted k b)]
  rfl

end Given

/-! Routes (R240, R241). -/

section Routes

variable (s : State)

theorem State.sendRouteSet_keeps {β : Type} (p : Mac → β) (hqueue : ∀ m q, p { m with queue := q } = p m)
    (hid : ∀ m q n, p { m with queue := q, nextId := n } = p m)
    (hep : ∀ (t : State) i b, p (t.modEp i fun e => { e with routeSent := some b }).mac = p t.mac) (i : Nat) (routes : List (List Nat)) :
    p (s.sendRouteSet i routes).mac = p s.mac := by
  obtain h | ⟨b, h⟩ := s.sendRouteSet_cases i routes
  · rw [h]
  · rw [h, State.bump_mac, State.sendCommand_mac, hid, hep]
    exact hqueue s.mac _

theorem State.recomputeRoutes_committed (g : Nat) : (s.recomputeRoutes g).mac.committed = s.mac.committed := by
  have hsent : ∀ (t : State) i, (t.sendRouteSet i ((s.routesOf g).map (·.2))).mac.committed = t.mac.committed := fun t i =>
    t.sendRouteSet_keeps (·.committed) (fun _ _ => rfl) (fun _ _ _ => rfl) (fun _ _ _ => rfl) i _
  rw [State.recomputeRoutes_eq, State.foldl_keeps (·.mac.committed) _ hsent]
  exact State.foldl_keeps (·.mac.committed) (fun u i => u.modEp i _) (fun _ _ => rfl) (s.stations g) s

theorem State.recomputeRoutes_routesAt (g : Nat) : ((s.recomputeRoutes g).seg g).routesAt = s.now := by
  have hsent : ∀ (t : State) i, (t.sendRouteSet i ((s.routesOf g).map (·.2))).mac.segs = t.mac.segs := fun t i =>
    t.sendRouteSet_keeps (·.segs) (fun _ _ => rfl) (fun _ _ _ => rfl) (fun _ _ _ => rfl) i _
  have hsegs : (s.recomputeRoutes g).mac.segs = (s.rerouted g).mac.segs := by
    rw [State.recomputeRoutes_eq, State.foldl_keeps (·.mac.segs) _ hsent]
  rw [State.seg, hsegs]
  exact congrArg Seg.routesAt (State.seg_modSeg_self _ g _)

theorem State.sendRouteSet_route (i : Nat) (routes : List (List Nat)) (j : Nat) : ((s.sendRouteSet i routes).ep j).route = (s.ep j).route := by
  refine s.sendRouteSet_keeps (fun m => (Tbl.atD m.eps j Ep.reset).route) (fun _ _ => rfl) (fun _ _ _ => rfl) (fun t i _ => ?_) i routes
  refine t.ep_modEp_keeps Ep.route ?_ i j
  exact fun _ => rfl

/-- The only station of a segment takes the route found for it. -/
theorem State.recomputeRoutes_route {g i : Nat} (h : s.stations g = [i]) :
    ((s.recomputeRoutes g).ep i).route = Tbl.at? (s.routesOf g) i := by
  have hset := s.ep_modEp_self i fun e => { e with route := Tbl.at? (s.routesOf g) i }
  rw [State.recomputeRoutes_eq, State.foldl_keeps (fun t => (t.ep i).route) _ (fun t j => t.sendRouteSet_route j _ i), State.rerouted, h]
  exact congrArg Ep.route hset

theorem State.recomputeRoutes_routed (g : Nat) : (s.recomputeRoutes g).rd (K.segs.ROUTED_ENDPOINTS g) =
    ((s.routesOf g).filter fun p => 1 < p.2.length).length % 2 ^ 32 := by
  have hne : ∀ n, (K.segs.ROUTED_ENDPOINTS g).key ≠ (K.segs.ROUTE_SETS_SENT n).key := fun n => by
    simp only [K.segs.ROUTED_ENDPOINTS, K.segs.ROUTE_SETS_SENT]
    omega
  rw [State.recomputeRoutes_eq, State.foldl_keeps (·.rd (K.segs.ROUTED_ENDPOINTS g)) _ (fun t i => t.sendRouteSet_rd i _ hne)]
  exact State.rd_wr_self _ _ _

theorem State.routesOf_of_noStations {g : Nat} (h : s.stations g = []) : s.routesOf g = [] := by
  have hone : s.onePaths g = [] := by rw [State.onePaths, h, List.filterMap_nil]
  have hlonger : ∀ x, s.longerPaths g x = [] := fun x => by rw [State.longerPaths, h, List.filterMap_nil]
  have hbest : ∀ n, s.bestPaths g n [] [] = [] := fun n => by
    induction n with
    | zero => rfl
    | succ n ih => rw [State.bestPaths, hlonger, List.foldl_nil, ih]
  unfold State.routesOf
  dsimp only
  rw [hone, hbest, ite_self, List.map_nil]

/-- Without repeating the only station of a segment is reached directly or not at all. -/
theorem State.routesOf_of_sole {g i : Nat} (h : s.stations g = [i]) (hplain : s.flag (K.seg.REPEAT_ENABLE g) = false) :
    s.routesOf g = ((s.hopCost g (s.firstHop i)).map fun _ => (i, [(s.ep i).addr])).toList := by
  unfold State.routesOf
  dsimp only
  rw [hplain, if_neg (by simp), State.onePaths, h]
  cases hcost : s.hopCost g (s.firstHop i) with
  | none => simp [hcost]
  | some c => simp [hcost, State.pathAddrs]

end Routes

/-! NEIGHBOUR_REPORT (R237, R241). -/

section Report

variable {s : State} {i : Nat} {body : List Byte}

theorem exec_neighbourReport_of_coreUp (hup : s.coreUp (s.entryCore i) = true) (body : List Byte) :
    exec (.neighbourReport i body) s = .next (((s.takeCommitted i body).neighbourReport i body).modPending fun _ => s.pending) :=
  onCore_of_coreUp hup _

theorem State.takeCommitted_mac (s : State) (i : Nat) (body : List Byte) :
    (s.takeCommitted i body).mac = { s.mac with committed := s.mac.committed.erase (i, body) } := rfl

theorem State.hopsAt_takeCommitted (s : State) (k : Nat) (b : List Byte) (i : Nat) : (s.takeCommitted k b).hopsAt i = s.hopsAt i :=
  State.hopsAt_of_eps rfl rfl i

theorem onlyChanges_takeCommitted : OnlyChanges [.mac] s (s.takeCommitted i body) := onlyChanges_modMac s _

variable (hup : s.coreUp (s.entryCore i) = true)

include hup

theorem neighbourReport_of_malformed (hread : reportRead body = none) :
    ∃ t, exec (.neighbourReport i body) s = .next t ∧ Counted (K.segs.MAC_CMD_BAD (s.ep i).seg) s t ∧ (∀ j, t.ep j = s.ep j) ∧
      OnlyRegs [K.segs.MAC_CMD_BAD (s.ep i).seg] s t ∧ OnlyChanges [.dict, .mac] s t := by
  have heq : (s.takeCommitted i body).neighbourReport i body = (s.takeCommitted i body).bump (K.segs.MAC_CMD_BAD (s.ep i).seg) := by
    rw [State.neighbourReport, hread, State.takeCommitted_ep]
  have htaken : OnlyChanges [.mac] s (s.takeCommitted i body) := onlyChanges_takeCommitted
  have hdict : (s.takeCommitted i body).dict = s.dict := htaken .dict (by simp)
  refine exec_next_of (exec_neighbourReport_of_coreUp hup body) (fun _ ⟨hcounted, heps, hregs, honly⟩ => ⟨hcounted, heps, hregs, honly.keepQueue⟩) ?_
  rw [heq]
  exact ⟨(counted_bump _ _).of_rd_eq (State.rd_congr hdict _), fun j => State.ep_congr (State.bump_mac _ _) j,
    ((OnlyRegs.of_dict (rs := []) hdict).trans (onlyRegs_bump _ _)).mono (by simp), (htaken.trans (onlyChanges_bump _ _)).mono (by simp)⟩

end Report

/-- Entry `i` has reported `r`, and the hops that the report gives are seen; the routes are still the old ones. -/
def State.reportTaken (s : State) (i : Nat) (body : List Byte) (r : List (Nat × Nat)) : State :=
  ((s.modEp i fun e => { e with report := r }).hopsGiven i r).takeCommitted i body

/-- An entry apart from its route, the last ROUTE_SET and whether the hop over which it associated has been given. -/
def Ep.unhopped (e : Ep) : Ep := e.unrouted.unseen

/-- Entries that are the same apart from what reports and routes change. -/
theorem Ep.eq_of_unhopped {e e' : Ep} (h : e.unhopped = e'.unhopped) :
    e = { e' with route := e.route, routeSent := e.routeSent, viaSeen := e.viaSeen } := calc
  e = { e.unhopped with route := e.route, routeSent := e.routeSent, viaSeen := e.viaSeen } := rfl
  _ = { e'.unhopped with route := e.route, routeSent := e.routeSent, viaSeen := e.viaSeen } := by rw [h]
  _ = { e' with route := e.route, routeSent := e.routeSent, viaSeen := e.viaSeen } := rfl

theorem Ep.eq_rerouted_of_unrouted {e e' : Ep} (h : e.unrouted = e'.unrouted) : e = { e' with route := e.route, routeSent := e.routeSent } := by
  obtain ⟨r, b, rfl⟩ := Ep.eq_of_unrouted h
  rfl

section Taken

variable (s : State) (i : Nat) (body : List Byte) (r : List (Nat × Nat))

theorem State.reportTaken_ep (j : Nat) :
    ((s.reportTaken i body r).ep j).unseen = ((s.modEp i fun e => { e with report := r }).ep j).unseen :=
  State.hopsGiven_ep _ i r j

theorem State.reportTaken_ep_ne {j : Nat} (hj : j ≠ i) : ((s.reportTaken i body r).ep j).unseen = (s.ep j).unseen := by
  rw [State.reportTaken_ep, s.ep_modEp_ne _ hj]

theorem State.reportTaken_ep_self : ((s.reportTaken i body r).ep i).unseen = Ep.unseen { s.ep i with report := r } := by
  rw [State.reportTaken_ep, s.ep_modEp_self]

theorem State.reportTaken_report : ((s.reportTaken i body r).ep i).report = r := Ep.report_of_unseen (s.reportTaken_ep_self i body r)

theorem State.reportTaken_seg : ((s.reportTaken i body r).ep i).seg = (s.ep i).seg := 
  Ep.seg_of_unseen (e' := { s.ep i with report := r }) (s.reportTaken_ep_self i body r)

theorem State.reportTaken_hopsAt :
    (s.reportTaken i body r).hopsAt i = ((s.modEp i fun e => { e with report := r }).hopsGiven i r).hopsAt i := by
  rw [State.reportTaken, State.hopsAt_takeCommitted]

theorem State.reportTaken_committed : (s.reportTaken i body r).mac.committed = s.mac.committed.erase (i, body) := by
  rw [State.reportTaken, State.takeCommitted_mac, State.hopsGiven_committed]
  rfl

theorem State.reportTaken_queue : (s.reportTaken i body r).mac.queue = s.mac.queue := by
  rw [State.reportTaken, State.takeCommitted_mac]
  exact State.hopsGiven_queue _ i r

theorem State.reportTaken_onlyChanges : OnlyChanges [.mac] s (s.reportTaken i body r) :=
  ((onlyChanges_modEp s i _).chain (State.hopsGiven_onlyChanges _ i r)).chain onlyChanges_takeCommitted

variable {r} in
theorem State.neighbourReport_of_read (hread : reportRead body = some r) :
    (s.takeCommitted i body).neighbourReport i body =
      if ((s.modEp i fun e => { e with report := r }).hopsGiven i r).hopsAt i = s.hopsAt i then s.reportTaken i body r
      else (s.reportTaken i body r).recomputeRoutes (s.ep i).seg := by
  have hafter : ((s.takeCommitted i body).modEp i fun e => { e with report := r }).hopsGiven i r = s.reportTaken i body r :=
    State.hopsGiven_takeCommitted (s.modEp i fun e => { e with report := r }) i r i body
  unfold State.neighbourReport
  rw [hread]
  dsimp only
  rw [State.hopsAt_takeCommitted, hafter, State.reportTaken_hopsAt, State.reportTaken_seg]

end Taken

theorem neighbourReport_taken {s : State} {i : Nat} {body : List Byte} (hup : s.coreUp (s.entryCore i) = true) {r : List (Nat × Nat)}
    (hread : reportRead body = some r) :
    ∃ t, exec (.neighbourReport i body) s = .next t ∧ (t.ep i).report = r ∧ t.mac.committed = s.mac.committed.erase (i, body) ∧
      (∀ j, j ≠ i → t.ep j = { s.ep j with
        route := (t.ep j).route, routeSent := (t.ep j).routeSent, viaSeen := (t.ep j).viaSeen }) ∧
      (((s.modEp i fun e => { e with report := r }).hopsGiven i r).hopsAt i = s.hopsAt i → t.mac.queue = s.mac.queue ∧ OnlyChanges [.mac] s t) ∧
      (((s.modEp i fun e => { e with report := r }).hopsGiven i r).hopsAt i ≠ s.hopsAt i → (t.seg (s.ep i).seg).routesAt = s.now) ∧
      OnlyChanges [.dict, .mac, .line] s t := by
  have heq := s.neighbourReport_of_read i body hread
  have hreport := s.reportTaken_report i body r
  have hcommitted := s.reportTaken_committed i body r
  have hqueue := s.reportTaken_queue i body r
  have honly := s.reportTaken_onlyChanges i body r
  have hothers : ∀ j, j ≠ i → ((s.reportTaken i body r).ep j).unseen = (s.ep j).unseen := fun j => s.reportTaken_ep_ne i body r
  refine exec_next_of (exec_neighbourReport_of_coreUp hup body) (fun _ ⟨hreport, hcommitted, hothers, hsame, hchanged, honly⟩ =>
    ⟨hreport, hcommitted, hothers, fun h => ⟨(hsame h).1, (hsame h).2.keepQueue⟩, hchanged, honly.keepQueue⟩) ?_
  rw [heq]
  generalize s.reportTaken i body r = u at *
  split
  next hsame =>
    refine ⟨hreport, hcommitted, fun j hj => Ep.eq_of_unhopped ?_, fun _ => ⟨hqueue, honly⟩, fun hne => absurd hsame hne,
      honly.mono (by simp)⟩
    exact congrArg Ep.unrouted (hothers j hj)
  next hchanged =>
    have hroutes := fun j => u.recomputeRoutes_ep (s.ep i).seg j
    refine ⟨?_, (u.recomputeRoutes_committed _).trans hcommitted, fun j hj => Ep.eq_of_unhopped ?_, fun heq => absurd heq hchanged,
      fun _ => ?_, (honly.trans (u.recomputeRoutes_onlyChanges _)).mono (by simp)⟩
    · exact (congrArg Ep.report (hroutes i)).trans hreport
    · exact (congrArg Ep.unseen (hroutes j)).trans (congrArg Ep.unrouted (hothers j hj))
    · rw [u.recomputeRoutes_routesAt, honly .now (by simp)]

/-! ROUTE_INTERVAL (R241). -/

section Passing

variable {s : State} {g : Nat}

/-- The routes are recomputed at the interval's end, a deadline that changes no hop. -/
theorem State.routeInterval_eq (henabled : s.segEnabled g = true) : s.routeInterval g =
    (s.atDeadline ((s.seg g).routesAt + 409600000 * (60 * s.rd (K.seg.ROUTE_INTERVAL g)))).recomputeRoutes g := by
  rw [State.routeInterval, if_pos henabled, secTicks, Nat.mul_comm]

theorem State.segRd_atDeadline (due : Nat) {r : Reg} (hr : 0x340000 ≤ r.key ∧ r.key < 0x348000) : (s.atDeadline due).rd r = s.rd r :=
  s.atDeadline_rd due (by simp only [K.times.UNSYNC_SECONDS]; omega) (by simp only [K.trks.PHASE_STEP_COUNT]; omega)

theorem State.hopCost_atDeadline (hg : g < 64) (due : Nat) (x : Option Nat) : (s.atDeadline due).hopCost g x = s.hopCost g x := by
  have hmin : (s.atDeadline due).minSnr g = s.minSnr g := by
    rw [State.minSnr, State.segRd_atDeadline due (by simp only [K.seg.NEIGHBOUR_MIN_SNR]; omega), State.minSnr]
  cases x with
  | none => rfl
  | some x =>
    simp only [State.hopCost, hmin]
    rw [State.segRd_atDeadline due (by simp only [K.seg.HOP_PENALTY]; omega)]

end Passing

section Interval

variable {s : State} (hup : s.coreUp 6 = true) {g : Nat}

include hup

theorem exec_routeInterval_of_coreUp : exec (.routeInterval g) s = .next ((s.routeInterval g).modPending fun _ => s.pending) :=
  onCore_of_coreUp hup _

theorem routeInterval_of_disabled (h : s.segEnabled g = false) : exec (.routeInterval g) s = .next s := by
  refine exec_unchanged (exec_routeInterval_of_coreUp hup) ?_
  rw [State.routeInterval, if_neg (by simp [h])]

variable (hg : g < 64)

include hg

theorem routeInterval_recomputes (henabled : s.segEnabled g = true) :
    ∃ t, exec (.routeInterval g) s = .next t ∧
      t.now = max s.now ((s.seg g).routesAt + 409600000 * (60 * s.rd (K.seg.ROUTE_INTERVAL g))) ∧ (t.seg g).routesAt = t.now ∧
      (∀ j, t.ep j = { s.ep j with route := (t.ep j).route, routeSent := (t.ep j).routeSent }) ∧
      (s.stations g = [] → t.rd (K.segs.ROUTED_ENDPOINTS g) = 0 ∧ t.mac.queue = s.mac.queue) ∧
      (∀ i c, s.stations g = [i] → s.flag (K.seg.REPEAT_ENABLE g) = false → s.hopCost g (s.firstHop i) = some c →
        (t.ep i).route = some [(s.ep i).addr] ∧ t.rd (K.segs.ROUTED_ENDPOINTS g) = 0) ∧
      (∀ i, s.stations g = [i] → s.flag (K.seg.REPEAT_ENABLE g) = false → s.hopCost g (s.firstHop i) = none →
        (t.ep i).route = none) ∧
      OnlyChanges [.now, .free, .dict, .perf, .tracker, .tides, .mac, .line] s t := by
  have hexec := exec_routeInterval_of_coreUp hup (g := g)
  rw [State.routeInterval_eq henabled] at hexec
  generalize (s.seg g).routesAt + 409600000 * (60 * s.rd (K.seg.ROUTE_INTERVAL g)) = due at *
  have hmac := s.atDeadline_mac due
  have hnow := s.atDeadline_now due
  have honly := onlyChanges_passTo s due
  have hcost : ∀ x, (s.atDeadline due).hopCost g x = s.hopCost g x := State.hopCost_atDeadline hg due
  have hflag : (s.atDeadline due).flag (K.seg.REPEAT_ENABLE g) = s.flag (K.seg.REPEAT_ENABLE g) := by
    rw [State.flag, State.segRd_atDeadline due (by simp only [K.seg.REPEAT_ENABLE]; omega), State.flag]
  change OnlyChanges _ s (s.atDeadline due) at honly
  refine exec_next_of hexec (fun _ ⟨hnow, hat, heps, hempty, hdirect, hunreached, honly⟩ =>
    ⟨hnow, hat, heps, hempty, hdirect, hunreached, honly.keepQueue⟩) ?_
  generalize s.atDeadline due = u at *
  have hstations : u.stations g = s.stations g := State.stations_of_eps (congrArg Mac.eps hmac) g
  have hfirst : ∀ i, u.firstHop i = s.firstHop i := State.firstHop_of_eps (congrArg Mac.eps hmac)
  have hep : ∀ i, u.ep i = s.ep i := State.ep_congr hmac
  have hkept : (u.recomputeRoutes g).now = u.now := u.recomputeRoutes_onlyChanges g .now (by simp)
  have hroutes : ∀ i, s.stations g = [i] → s.flag (K.seg.REPEAT_ENABLE g) = false →
      u.routesOf g = ((s.hopCost g (s.firstHop i)).map fun _ => (i, [(s.ep i).addr])).toList := fun i hsole hplain => by
    rw [u.routesOf_of_sole (hstations.trans hsole) (hflag.trans hplain), hcost, hfirst, hep]
  refine ⟨hkept.trans hnow, by rw [u.recomputeRoutes_routesAt, hkept], fun j => ?_, fun hnone => ?_, fun i c hsole hplain hhop => ?_,
    fun i hsole hplain hhop => ?_, (honly.trans (u.recomputeRoutes_onlyChanges g)).mono (by simp [timeParts])⟩
  · exact Ep.eq_rerouted_of_unrouted ((u.recomputeRoutes_ep g j).trans (congrArg Ep.unrouted (hep j)))
  · have hnothing : u.stations g = [] := hstations.trans hnone
    refine ⟨?_, ?_⟩
    · rw [u.recomputeRoutes_routed, u.routesOf_of_noStations hnothing]
      rfl
    · rw [State.recomputeRoutes_eq, hnothing, List.foldl_nil, u.rerouted_queue, hmac]
  · have hone := hroutes i hsole hplain
    rw [hhop] at hone
    refine ⟨?_, ?_⟩
    · rw [u.recomputeRoutes_route (hstations.trans hsole), hone]
      simp [Tbl.at?]
    · rw [u.recomputeRoutes_routed, hone]
      simp
  · have hone := hroutes i hsole hplain
    rw [hhop] at hone
    rw [u.recomputeRoutes_route (hstations.trans hsole), hone]
    rfl

end Interval

end Sys2Proof.Machine

end

section
/-! PROOF. O49: how a beacon period begins (R160, R187, R192, R221, R229). -/

namespace Sys2Proof.Machine

/-! The configuration of channels and segments. -/

/-- State `u` has the channels' and the segments' configuration of `s`. -/
def ConfiguredAs (s u : State) : Prop := ∀ r : Reg, 0x300000 ≤ r.key → r.key < 0x344000 → u.rd r = s.rd r

/-- The region that a segment's configuration gives a period (R187, R191). -/
def State.configuredRegion (s : State) (g : Nat) : List Nat :=
  [s.rd (K.seg.BP_CYCLES g), s.rd (K.seg.BEACON_SLOT g), s.rd (K.seg.BEACON_SLOTS g), s.rd (K.seg.CR_FIRST g), s.rd (K.seg.CR_COUNT g)]

/-- The limits that a segment's configuration gives a period (R229). -/
def State.configuredLimits (s : State) (g : Nat) : List Nat :=
  [s.rd (K.seg.MAX_FRAME g), s.rd (K.seg.MAX_DELAY g), s.rd (K.seg.ROBUST_GI g), s.rd (K.seg.LEASE_TIME g), s.rd (K.seg.ADDRESS_HOLD g),
    s.rd (K.seg.ASSOC_PERMIT g), s.rd (K.seg.ADRIFT_HOLD g), s.rd (K.seg.DEFAULT_DRIFT g), s.rd (K.seg.BCAST_REPEAT g),
    s.rd (K.seg.REACH_BEACON g)]

theorem ConfiguredAs.of_dict {s u : State} (h : u.dict = s.dict) : ConfiguredAs s u := fun r _ _ => State.rd_congr h r

theorem ConfiguredAs.trans {s u v : State} (h : ConfiguredAs s u) (h' : ConfiguredAs u v) : ConfiguredAs s v :=
  fun r hlo hhi => (h' r hlo hhi).trans (h r hlo hhi)

theorem ConfiguredAs.wr (s : State) {r : Reg} (v : Nat) (hr : 0x344000 ≤ r.key) : ConfiguredAs s (s.wr r v) :=
  fun _ _ hhi => State.rd_wr_ne s v (by omega)

theorem ConfiguredAs.atDeadline (s : State) (due : Nat) : ConfiguredAs s (s.atDeadline due) := fun _ hlo hhi =>
  s.atDeadline_rd due (by simp only [K.times.UNSYNC_SECONDS]; omega) (by simp only [K.trks.PHASE_STEP_COUNT]; omega)

section Configured

variable {s u : State} (h : ConfiguredAs s u) {g : Nat} (hg : g < 64)

include h

theorem ConfiguredAs.enabled {n : Nat} (hn : n < 256) : u.enabled n = s.enabled n := by
  rw [State.enabled, State.flag, h _ (by simp only [K.ch.ENABLE]; omega) (by simp only [K.ch.ENABLE]; omega), State.enabled, State.flag]

include hg

theorem ConfiguredAs.seg {j : Nat} (d w : Nat) (hj : j < 256) :
    u.rd ⟨(0x3400 + g) * 256 + j, d, w⟩ = s.rd ⟨(0x3400 + g) * 256 + j, d, w⟩ :=
  h _ (by dsimp only; omega) (by dsimp only; omega)

theorem ConfiguredAs.segEnabled : u.segEnabled g = s.segEnabled g := by
  rw [State.segEnabled, State.flag, K.seg.SEG_ENABLE, h.seg hg _ _ (by decide), State.segEnabled, State.flag, K.seg.SEG_ENABLE]

theorem ConfiguredAs.region : u.configuredRegion g = s.configuredRegion g := by
  simp only [State.configuredRegion, K.seg.BP_CYCLES, K.seg.BEACON_SLOT, K.seg.BEACON_SLOTS, K.seg.CR_FIRST, K.seg.CR_COUNT]
  rw [h.seg hg _ _ (by decide), h.seg hg _ _ (by decide), h.seg hg _ _ (by decide), h.seg hg _ _ (by decide), h.seg hg _ _ (by decide)]

theorem ConfiguredAs.limits : u.configuredLimits g = s.configuredLimits g := by
  simp only [State.configuredLimits, K.seg.MAX_FRAME, K.seg.MAX_DELAY, K.seg.ROBUST_GI, K.seg.LEASE_TIME, K.seg.ADDRESS_HOLD,
    K.seg.ASSOC_PERMIT, K.seg.ADRIFT_HOLD, K.seg.DEFAULT_DRIFT, K.seg.BCAST_REPEAT, K.seg.REACH_BEACON]
  rw [h.seg hg _ _ (by decide), h.seg hg _ _ (by decide), h.seg hg _ _ (by decide), h.seg hg _ _ (by decide), h.seg hg _ _ (by decide),
    h.seg hg _ _ (by decide), h.seg hg _ _ (by decide), h.seg hg _ _ (by decide), h.seg hg _ _ (by decide), h.seg hg _ _ (by decide)]

variable (hcount : s.rd (K.seg.MEMBER_COUNT g) ≤ 8)

include hcount

theorem ConfiguredAs.members : u.members g = s.members g := by
  have hn : u.rd (K.seg.MEMBER_COUNT g) = s.rd (K.seg.MEMBER_COUNT g) := h.seg hg _ _ (by decide)
  rw [State.members, hn, State.members]
  refine List.map_congr_left fun p hp => ?_
  have hp' := List.mem_range.1 hp
  exact h.seg hg _ _ (by omega)

theorem ConfiguredAs.everyone (hmembers : ∀ n ∈ s.members g, n < 256) : u.everyone g = (s.members g).filter s.enabled := by
  rw [State.everyone, h.members hg hcount]
  exact List.filter_congr fun n hn => h.enabled (hmembers n hn)

end Configured

/-! The steps by which a period begins. -/

section Steps

variable (s : State) (g : Nat)

/-- The tide tables of segment `g` are empty where its phase offset changes with the period (R160). -/
def State.tidesMoved (s : State) (g : Nat) : State :=
  if (s.seg g).offsetDue then (s.members g).foldl (fun t n => t.clearTide n) s else s

theorem State.tidesMoved_onlyChanges : OnlyChanges [.tides] s (s.tidesMoved g) := by
  unfold State.tidesMoved
  split
  · exact OnlyChanges.foldl s (fun t n => onlyChanges_modTides t _) _
  · exact (OnlyChanges.refl s).mono (by simp)

theorem State.applyPeriodConfig_onlyChanges : OnlyChanges [.tides, .mac] s (s.applyPeriodConfig g) :=
  (s.tidesMoved_onlyChanges g).trans (onlyChanges_modSeg (s.tidesMoved g) g _)

theorem State.applyPeriodConfig_seg : ((s.applyPeriodConfig g).seg g).region = s.configuredRegion g ∧
    ((s.applyPeriodConfig g).seg g).limits = s.configuredLimits g ∧ ((s.applyPeriodConfig g).seg g).beacon = (s.seg g).beacon ∧
    ((s.applyPeriodConfig g).seg g).gaps = (s.seg g).gaps ∧ ((s.applyPeriodConfig g).seg g).responses = (s.seg g).responses := by
  have hrd : ∀ r, (s.tidesMoved g).rd r = s.rd r := State.rd_congr (s.tidesMoved_onlyChanges g .dict (by simp))
  have hseg : (s.tidesMoved g).seg g = s.seg g := State.seg_congr (s.tidesMoved_onlyChanges g .mac (by simp)) g
  have hself := State.seg_modSeg_self (s.tidesMoved g) g fun x =>
    { x with
      offset := (s.tidesMoved g).rdInt (K.seg.SEG_PHASE_OFFSET g)
      offsetDue := false
      region := (s.tidesMoved g).configuredRegion g
      limits := (s.tidesMoved g).configuredLimits g }
  have hregion : (s.tidesMoved g).configuredRegion g = s.configuredRegion g := by simp only [State.configuredRegion, hrd]
  have hlimits : (s.tidesMoved g).configuredLimits g = s.configuredLimits g := by simp only [State.configuredLimits, hrd]
  have heq : (s.applyPeriodConfig g).seg g = _ := hself
  rw [heq, hregion, hlimits, hseg]
  exact ⟨rfl, rfl, rfl, rfl, rfl⟩

/-- The period is counted, unless it is the segment's first (R192). -/
def State.periodCounted (s : State) (g : Nat) : State :=
  if (s.seg g).beacon.isEmpty then s else s.wr (K.segs.BP_COUNT g) ((s.rd (K.segs.BP_COUNT g) + 1) % 65536)

theorem State.periodCounted_onlyChanges : OnlyChanges [.dict] s (s.periodCounted g) := by
  unfold State.periodCounted
  split
  · exact (OnlyChanges.refl s).mono (by simp)
  · exact onlyChanges_wr s _ _

theorem State.periodCounted_configuredAs : ConfiguredAs s (s.periodCounted g) := by
  unfold State.periodCounted
  split
  · exact .of_dict rfl
  · exact .wr s _ (by simp only [K.segs.BP_COUNT]; omega)

theorem State.periodCounted_rd : (s.periodCounted g).rd (K.segs.BP_COUNT g) =
    if (s.seg g).beacon = [] then s.rd (K.segs.BP_COUNT g) else (s.rd (K.segs.BP_COUNT g) + 1) % 65536 := by
  unfold State.periodCounted
  by_cases hfirst : (s.seg g).beacon = []
  · rw [if_pos hfirst, if_pos (by simp [hfirst])]
  · rw [if_neg hfirst, if_neg (by simp [hfirst]), State.rd_wr_self]
    simp only [K.segs.BP_COUNT]
    omega

theorem State.countDeadlines_onlyChanges : OnlyChanges [.mac] s (s.countDeadlines g) :=
  ((OnlyChanges.foldl s (fun t i => onlyChanges_modEp t i _) _).chain (onlyChanges_modMac _ _)).chain (onlyChanges_modMac _ _)

theorem State.countDeadlines_segs : (s.countDeadlines g).mac.segs = s.mac.segs :=
  State.foldl_keeps (·.mac.segs) (fun (t : State) i => t.modEp i _) (fun _ _ => rfl) _ s

theorem State.settleSleep_onlyChanges (i : Nat) : OnlyChanges [.mac, .flash] s (s.settleSleep i) := by
  unfold State.settleSleep
  split
  · split
    · exact (onlyChanges_modEp s i _).trans (State.journalEp_onlyChanges _ i)
    · exact (OnlyChanges.refl s).mono (by simp)
  · exact (OnlyChanges.refl s).mono (by simp)

theorem State.settleSleep_segs (i : Nat) : (s.settleSleep i).mac.segs = s.mac.segs := by
  unfold State.settleSleep
  split
  · split
    · rw [State.journalEp_mac]
      rfl
    · rfl
  · rfl

theorem State.openWindows_onlyChanges (a b : Nat) : OnlyChanges [.mac, .flash] s (s.openWindows g a b) := by
  refine OnlyChanges.foldl s (fun t i => ?_) _
  dsimp only
  split
  · exact ((t.settleSleep_onlyChanges i).trans (onlyChanges_modEp _ i _)).mono (by simp)
  · exact t.settleSleep_onlyChanges i

theorem State.openWindows_segs (a b : Nat) : (s.openWindows g a b).mac.segs = s.mac.segs := by
  refine State.foldl_keeps (·.mac.segs) _ (fun t i => ?_) _ s
  dsimp only
  split
  · exact t.settleSleep_segs i
  · exact t.settleSleep_segs i

variable {s g}

theorem State.armGaps_of_none (h : (s.seg g).gaps = []) : s.armGaps g = s.modSeg g fun x => { x with gaps := [] } := by
  unfold State.armGaps
  rw [h]
  rfl

/-- A segment becomes what a change makes of it as it stands. -/
theorem State.modSeg_congr {f f' : Seg → Seg} (h : f (s.seg g) = f' (s.seg g)) : s.modSeg g f = s.modSeg g f' := by
  have hsegs : Tbl.modD Seg.reset s.mac.segs g f = Tbl.modD Seg.reset s.mac.segs g f' := congrArg (Tbl.ins s.mac.segs g) h
  simp only [State.modSeg, State.modMac, hsegs]

theorem State.ageResponses_of_none (h : (s.seg g).responses = []) (placed : List Nat) :
    s.ageResponses g placed = s.modSeg g fun x => { x with responses := [] } := by
  unfold State.ageResponses
  rw [h]
  simp only [List.filter_nil, List.foldl_nil]
  refine State.modSeg_congr ?_
  rw [h]
  rfl

end Steps

/-! The period up to its allocations. -/

/-- The period of segment `g` has begun at tick `start`, after one that began at `a`; nothing is allocated yet. -/
def State.periodBegun (s : State) (g a start : Nat) : State :=
  (((((s.atDeadline start).applyPeriodConfig g).periodCounted g).countDeadlines g).openWindows g a start).armGaps g

/-- In state `u` the period of segment `g` that starts at tick `start` has begun from state `s`: its configuration is in force and it is
counted. -/
structure PeriodBegins (g start : Nat) (s u : State) : Prop where
  now : u.now = max s.now start
  region : (u.seg g).region = s.configuredRegion g
  limits : (u.seg g).limits = s.configuredLimits g
  responses : (u.seg g).responses = (s.seg g).responses
  count : u.rd (K.segs.BP_COUNT g) =
    if (s.seg g).beacon = [] then s.rd (K.segs.BP_COUNT g) else (s.rd (K.segs.BP_COUNT g) + 1) % 65536
  configured : ConfiguredAs s u
  parts : OnlyChanges [.now, .free, .dict, .perf, .tracker, .tides, .mac, .flash] s u

theorem State.periodCounted_begins (s : State) {g : Nat} (hg : g < 64) (start : Nat) :
    PeriodBegins g start s (((s.atDeadline start).applyPeriodConfig g).periodCounted g) := by
  have hmac := s.atDeadline_mac start
  have hseg := State.seg_congr hmac g
  have hnow := s.atDeadline_now start
  have hconfigured := ConfiguredAs.atDeadline s start
  have hcount : (s.atDeadline start).rd (K.segs.BP_COUNT g) = s.rd (K.segs.BP_COUNT g) :=
    State.segRd_atDeadline start (by simp only [K.segs.BP_COUNT]; omega)
  have honly : OnlyChanges timeParts s (s.atDeadline start) := onlyChanges_passTo s start
  generalize s.atDeadline start = u at *
  obtain ⟨hregion, hlimits, hbeacon, -, hresponses⟩ := u.applyPeriodConfig_seg g
  have hset := u.applyPeriodConfig_onlyChanges g
  have hdict : (u.applyPeriodConfig g).dict = u.dict := hset .dict (by simp)
  have hkept : (u.applyPeriodConfig g).now = u.now := hset .now (by simp)
  generalize u.applyPeriodConfig g = v at *
  have hcounted := v.periodCounted_onlyChanges g
  have hsegs := State.seg_congr (hcounted .mac (by simp)) g
  exact {
    now := by rw [hcounted .now (by simp), hkept, hnow]
    region := by rw [hsegs, hregion, hconfigured.region hg]
    limits := by rw [hsegs, hlimits, hconfigured.limits hg]
    responses := by rw [hsegs, hresponses, hseg]
    count := by rw [v.periodCounted_rd, hbeacon, hseg, State.rd_congr hdict, hcount]
    configured := (hconfigured.trans (.of_dict hdict)).trans (v.periodCounted_configuredAs g)
    parts := ((honly.trans hset).trans hcounted).mono (by simp [timeParts]) }

/-- Changes that leave the period alone. -/
theorem PeriodBegins.later {g start : Nat} {s u v : State} (h : PeriodBegins g start s u) (hparts : OnlyChanges [.mac, .flash] u v)
    (hregion : (v.seg g).region = (u.seg g).region) (hlimits : (v.seg g).limits = (u.seg g).limits)
    (hresponses : (v.seg g).responses = (u.seg g).responses) : PeriodBegins g start s v := by
  have hdict : v.dict = u.dict := hparts .dict (by simp)
  exact {
    now := by rw [hparts .now (by simp), h.now]
    region := hregion.trans h.region
    limits := hlimits.trans h.limits
    responses := hresponses.trans h.responses
    count := (State.rd_congr hdict _).trans h.count
    configured := h.configured.trans (.of_dict hdict)
    parts := (h.parts.trans hparts).mono (by simp) }

theorem State.periodBegun_begins {s : State} {g : Nat} (hg : g < 64) (a start : Nat) (hgaps : (s.seg g).gaps = []) :
    PeriodBegins g start s (s.periodBegun g a start) := by
  have hbegins := s.periodCounted_begins hg start
  have hnogaps : ((((s.atDeadline start).applyPeriodConfig g).periodCounted g).seg g).gaps = [] := by
    obtain ⟨-, -, -, hkept, -⟩ := (s.atDeadline start).applyPeriodConfig_seg g
    rw [State.seg_congr (State.periodCounted_onlyChanges _ g .mac (by simp)), hkept, State.seg_congr (s.atDeadline_mac start), hgaps]
  unfold State.periodBegun
  generalize ((s.atDeadline start).applyPeriodConfig g).periodCounted g = u at *
  have hsegs : ((u.countDeadlines g).openWindows g a start).seg g = u.seg g := by
    rw [State.seg, State.openWindows_segs, State.countDeadlines_segs, State.seg]
  have hserved := (u.countDeadlines_onlyChanges g).trans (State.openWindows_onlyChanges (u.countDeadlines g) g a start)
  generalize (u.countDeadlines g).openWindows g a start = v at *
  rw [State.armGaps_of_none (hsegs ▸ hnogaps)]
  have hself := State.seg_modSeg_self v g fun x => { x with gaps := [] }
  refine hbegins.later ((hserved.trans (onlyChanges_modSeg v g _)).mono (by simp)) ?_ ?_ ?_ <;> rw [hself, hsegs]

end Sys2Proof.Machine

end

section
/-! PROOF. O49: the beacon and the frame that carries it (R191 to R193). -/

namespace Sys2Proof.Machine

/-! The body of a beacon (R192, R193). -/

/-- The body of a beacon of segment `g` whose frame starts at tick `t`, with the entries given. -/
def State.beaconBody (s : State) (g t : Nat) (allocs : List Alloc) : List Byte :=
  s.beaconHead g t allocs.length ++ s.beaconVectors g ++ allocs.flatMap Alloc.bytes

section Body

variable (s : State) (g t : Nat) (allocs : List Alloc)

theorem State.length_beaconHead (n : Nat) : (s.beaconHead g t n).length = 36 := length_leBytes _ _

theorem State.length_beaconBody : (s.beaconBody g t allocs).length = 36 + 6 * (s.members g).length + 8 * allocs.length := by
  rw [State.beaconBody, List.length_append, List.length_append, State.length_beaconHead, State.beaconVectors,
    length_flatMap_const (n := 6) (fun _ => length_leBytes _ _), length_flatMap_const (f := Alloc.bytes) (n := 8) (fun _ => length_leBytes _ _)]

/-- Bytes above the second do not tell what the first two are. -/
theorem leBytes_two_mod (v : Nat) : leBytes 2 v = leBytes 2 (v % 2 ^ 16) := by
  have hlow : BitVec.ofNat 8 v = BitVec.ofNat 8 (v % 2 ^ 16) := BitVec.eq_of_toNat_eq (by simp only [BitVec.toNat_ofNat]; omega)
  have hhigh : BitVec.ofNat 8 (v / 256) = BitVec.ofNat 8 (v % 2 ^ 16 / 256) :=
    BitVec.eq_of_toNat_eq (by simp only [BitVec.toNat_ofNat]; omega)
  simp only [leBytes, hlow, hhigh]

/-- A field of 16 bits that is packed first is the first two bytes. -/
theorem take_leBytes_packBits (n v : Nat) (rest : List (Nat × Nat)) :
    (leBytes (n + 2) (packBits ((16, v) :: rest))).take 2 = leBytes 2 v := by
  have hfield : packBits ((16, v) :: rest) % 2 ^ 16 = v % 2 ^ 16 := by
    rw [packBits]
    omega
  calc (leBytes (n + 2) (packBits ((16, v) :: rest))).take 2 = leBytes 2 (packBits ((16, v) :: rest)) := rfl
    _ = leBytes 2 v := by rw [leBytes_two_mod, hfield, ← leBytes_two_mod]

theorem State.take_beaconBody : (s.beaconBody g t allocs).take 2 = leBytes 2 (s.rd (K.segs.BP_COUNT g)) := by
  have hhead : (s.beaconHead g t allocs.length).take 2 = leBytes 2 (s.rd (K.segs.BP_COUNT g)) := by
    unfold State.beaconHead
    exact take_leBytes_packBits 34 _ _
  rw [State.beaconBody, List.append_assoc, List.take_append_of_le_length (by rw [State.length_beaconHead]; decide), hhead]

end Body

/-! The beacon is placed and sent (R191). -/

/-- The entries `missed` of a period of segment `g` are counted, and its association responses have aged, those of `placed` excepted. -/
def State.demandsSettled (s : State) (g missed : Nat) (placed : List Nat) : State :=
  (s.bumpBy (K.segs.ALLOC_OVERFLOW g) missed).ageResponses g placed

/-- Segment `g` has its allocations for the period from tick `start`, and its beacon. -/
def State.beaconPlaced (s : State) (g start : Nat) (allocs : List Alloc) : State :=
  (s.modSeg g fun x => { x with period := some start, firstBeacon := none, allocs := allocs, beacon := s.beaconBody g start allocs }).wr
    (K.segs.SEG_STATE g) 2

/-- A beacon goes out on every enabled member. -/
def State.beaconSent (s : State) (g start : Nat) (body : List Byte) : State :=
  if (s.everyone g).isEmpty then s
  else (s.addFrame (s.robustFrame g 0 0xFFFF 0 start body (s.beaconMpdu g body))).2

section Settled

variable {s : State} {g : Nat} (hresponses : (s.seg g).responses = []) (missed : Nat) (placed : List Nat)

include hresponses

theorem State.demandsSettled_eq : s.demandsSettled g missed placed =
    (s.bumpBy (K.segs.ALLOC_OVERFLOW g) missed).modSeg g fun x => { x with responses := [] } :=
  State.ageResponses_of_none (s := s.bumpBy (K.segs.ALLOC_OVERFLOW g) missed) hresponses placed

theorem State.demandsSettled_onlyChanges : OnlyChanges [.dict, .mac] s (s.demandsSettled g missed placed) := by
  rw [State.demandsSettled_eq hresponses]
  exact (onlyChanges_bumpBy s _ _).trans (onlyChanges_modSeg _ g _)

theorem State.demandsSettled_seg : (s.demandsSettled g missed placed).seg g = { s.seg g with responses := [] } := by
  rw [State.demandsSettled_eq hresponses, State.seg_modSeg_self, State.seg_congr (onlyChanges_bumpBy s _ _ .mac (by simp))]

theorem State.demandsSettled_rd {r : Reg} (hr : r.key ≠ (K.segs.ALLOC_OVERFLOW g).key) :
    (s.demandsSettled g missed placed).rd r = s.rd r := by
  rw [State.demandsSettled_eq hresponses, State.rd_congr (onlyChanges_modSeg _ g _ .dict (by simp)), State.rd_bumpBy_ne _ _ hr]

end Settled

section Placed

variable (s : State) (g start : Nat) (allocs : List Alloc)

theorem State.beaconPlaced_onlyChanges : OnlyChanges [.dict, .mac] s (s.beaconPlaced g start allocs) :=
  ((onlyChanges_modSeg s g _).trans (onlyChanges_wr _ _ _)).mono (by simp)

theorem State.beaconPlaced_seg : (s.beaconPlaced g start allocs).seg g =
    { s.seg g with period := some start, firstBeacon := none, allocs := allocs, beacon := s.beaconBody g start allocs } := by
  rw [State.beaconPlaced, State.seg_congr (onlyChanges_wr _ _ _ .mac (by simp)), State.seg_modSeg_self]

theorem State.beaconPlaced_state : (s.beaconPlaced g start allocs).rd (K.segs.SEG_STATE g) = 2 := by
  rw [State.beaconPlaced, State.rd_wr_self]
  rfl

theorem State.beaconPlaced_rd {r : Reg} (hr : r.key ≠ (K.segs.SEG_STATE g).key) : (s.beaconPlaced g start allocs).rd r = s.rd r := by
  rw [State.beaconPlaced, State.rd_wr_ne _ _ hr, State.rd_congr (onlyChanges_modSeg s g _ .dict (by simp))]

end Placed

/-! The frame of a beacon (R191). -/

/-- Frame `x` carries the beacon `body` of segment `g` from tick `start` on the channels `ns`, as period `count`. -/
def BeaconFrame (g start count : Nat) (body : List Byte) (ns : List Nat) (x : TxFrame) : Prop :=
  x.seg = g ∧ x.wave = .ofdm ∧ x.type = 0 ∧ x.dst = 0xFFFF ∧ x.tmi = 0 ∧ x.ackReq = false ∧ x.start = start ∧ x.body = body ∧
    x.wire = [plainMpdu (count % 4096) body] ∧ x.chans = ns

section Sent

variable {s : State} {g : Nat} (start : Nat) (body : List Byte)

theorem State.addFrame_frame? (x : TxFrame) : (s.addFrame x).2.frame? s.line.nextFrame = some x := Tbl.at?_ins_self ..

theorem onlyChanges_addFrame (x : TxFrame) : OnlyChanges [.line] s (s.addFrame x).2 := onlyChanges_modLine s _

theorem State.beaconSent_of_empty (h : s.everyone g = []) : s.beaconSent g start body = s := by
  rw [State.beaconSent, h]
  rfl

theorem State.beaconSent_frame (h : s.everyone g ≠ []) : ∃ x, (s.beaconSent g start body).frame? s.line.nextFrame = some x ∧
    BeaconFrame g start (s.rd (K.segs.BP_COUNT g)) body (s.everyone g) x := by
  rw [State.beaconSent, if_neg (by simpa using h), State.addFrame_frame?]
  exact ⟨_, rfl, rfl, rfl, rfl, rfl, rfl, rfl, rfl, rfl, rfl, rfl⟩

theorem State.beaconSent_onlyChanges : OnlyChanges [.line] s (s.beaconSent g start body) := by
  unfold State.beaconSent
  split
  · exact (OnlyChanges.refl s).mono (by simp)
  · exact onlyChanges_addFrame _

end Sent

/-! BEACON (R187, R191). -/

theorem State.periodBegun_def (s : State) (g a start : Nat) :
    ((((if (((s.atDeadline start).applyPeriodConfig g).seg g).beacon.isEmpty then (s.atDeadline start).applyPeriodConfig g
      else ((s.atDeadline start).applyPeriodConfig g).wr (K.segs.BP_COUNT g)
        ((((s.atDeadline start).applyPeriodConfig g).rd (K.segs.BP_COUNT g) + 1) % 65536)).countDeadlines g).openWindows g a start).armGaps g) =
      s.periodBegun g a start := by
  rw [State.periodBegun, State.periodCounted]

theorem State.robustFrame_chans (s : State) (g type dst pri start : Nat) (body wire : List Byte) :
    (s.robustFrame g type dst pri start body wire).chans = s.everyone g := rfl

theorem State.beacon_eq {s : State} {g : Nat} (henabled : s.segEnabled g = true) (hlive : (s.seg g).winding = false) :
    ∃ a allocs missed placed, s.beacon g =
      (((s.periodBegun g a (s.nextBeacon g)).demandsSettled g missed placed).beaconPlaced g (s.nextBeacon g) allocs).beaconSent g
        (s.nextBeacon g) (((s.periodBegun g a (s.nextBeacon g)).demandsSettled g missed placed).beaconBody g (s.nextBeacon g) allocs) := by
  unfold State.beacon
  rw [if_neg (by simp [henabled, hlive])]
  dsimp only
  rw [State.periodBegun_def]
  generalize (s.seg g).period.getD (s.nextBeacon g - 1) = a
  generalize s.nextBeacon g = start
  refine ⟨a, ((s.periodBegun g a start).allocate g a start).1, ((s.periodBegun g a start).allocate g a start).2,
    ((s.periodBegun g a start).allocate g a start).1.filterMap (·.response), ?_⟩
  unfold State.beaconSent State.beaconPlaced State.demandsSettled State.beaconBody
  rw [State.robustFrame_chans]

section Beacon

variable {s : State} {g : Nat} (hup : s.coreUp (segCore g) = true)

include hup

theorem exec_beacon_of_coreUp : exec (.beacon g) s = .next ((s.beacon g).modPending fun _ => s.pending) := onCore_of_coreUp hup _

theorem beacon_of_idle (h : s.segEnabled g = false ∨ (s.seg g).winding = true) : exec (.beacon g) s = .next s := by
  refine exec_unchanged (exec_beacon_of_coreUp hup) ?_
  rw [State.beacon, if_pos (by simpa using h)]

end Beacon

/-- In state `t` the beacon of segment `g` at tick `start` has opened its period: configuration, count, beacon and frame stand. -/
structure BeaconOpens (g start : Nat) (s t : State) : Prop where
  now : t.now = max s.now start
  period : (t.seg g).period = some start
  firstBeacon : (t.seg g).firstBeacon = none
  state : t.rd (K.segs.SEG_STATE g) = 2
  region : (t.seg g).region = s.configuredRegion g
  limits : (t.seg g).limits = s.configuredLimits g
  count : t.rd (K.segs.BP_COUNT g) =
    if (s.seg g).beacon = [] then s.rd (K.segs.BP_COUNT g) else (s.rd (K.segs.BP_COUNT g) + 1) % 65536
  length : (t.seg g).beacon.length = 36 + 6 * (s.members g).length + 8 * (t.seg g).allocs.length
  head : (t.seg g).beacon.take 2 = leBytes 2 (t.rd (K.segs.BP_COUNT g))
  sent : (∃ n ∈ s.members g, s.enabled n = true) → ∃ x, t.frame? s.line.nextFrame = some x ∧
    BeaconFrame g start (t.rd (K.segs.BP_COUNT g)) (t.seg g).beacon ((s.members g).filter s.enabled) x
  unsent : (∀ n ∈ s.members g, s.enabled n = false) → t.line.nextFrame = s.line.nextFrame
  parts : OnlyChanges [.now, .free, .dict, .perf, .tracker, .tides, .mac, .flash, .line] s t

theorem beacon_opens {s : State} {g : Nat} (hg : g < 64) (hcount : s.rd (K.seg.MEMBER_COUNT g) ≤ 8)
    (hmembers : ∀ n ∈ s.members g, n < 256) (henabled : s.segEnabled g = true) (hlive : (s.seg g).winding = false)
    (hgaps : (s.seg g).gaps = []) (hresponses : (s.seg g).responses = []) : BeaconOpens g (s.nextBeacon g) s (s.beacon g) := by
  obtain ⟨a, allocs, missed, placed, heq⟩ := State.beacon_eq henabled hlive
  rw [heq]
  generalize s.nextBeacon g = start
  have hbegins := State.periodBegun_begins hg a start hgaps
  generalize s.periodBegun g a start = u at *
  have hnone := hbegins.responses.trans hresponses
  have hsettled := State.demandsSettled_onlyChanges hnone missed placed
  have hseg := State.demandsSettled_seg hnone missed placed
  have hrd := fun r : Reg => State.demandsSettled_rd (r := r) hnone missed placed
  generalize u.demandsSettled g missed placed = v at *
  have hconfigured : ConfiguredAs s v := hbegins.configured.trans fun r _ hhi => hrd r (by simp only [K.segs.ALLOC_OVERFLOW]; omega)
  have hperiod : v.rd (K.segs.BP_COUNT g) = u.rd (K.segs.BP_COUNT g) := hrd _ (by simp only [K.segs.BP_COUNT, K.segs.ALLOC_OVERFLOW]; omega)
  have hplaced := v.beaconPlaced_onlyChanges g start allocs
  have hseg' := v.beaconPlaced_seg g start allocs
  have hstate := v.beaconPlaced_state g start allocs
  have hrd' := fun r : Reg => v.beaconPlaced_rd g start allocs (r := r)
  generalize v.beaconPlaced g start allocs = w at *
  have hconfigured' : ConfiguredAs s w := hconfigured.trans fun r _ hhi => hrd' r (by simp only [K.segs.SEG_STATE]; omega)
  have hperiod' : w.rd (K.segs.BP_COUNT g) = v.rd (K.segs.BP_COUNT g) := hrd' _ (by simp only [K.segs.BP_COUNT, K.segs.SEG_STATE]; omega)
  have hparts := (hbegins.parts.trans hsettled).trans hplaced
  have hline : w.line = s.line := hparts .line (by simp)
  have heveryone := hconfigured'.everyone hg hcount hmembers
  have hsent := State.beaconSent_onlyChanges (s := w) (g := g) start (v.beaconBody g start allocs)
  have hframe := State.beaconSent_frame (s := w) (g := g) start (v.beaconBody g start allocs)
  have hnoframe := State.beaconSent_of_empty (s := w) (g := g) start (v.beaconBody g start allocs)
  generalize w.beaconSent g start (v.beaconBody g start allocs) = t at *
  have hrdt : ∀ r, t.rd r = w.rd r := State.rd_congr (hsent .dict (by simp))
  have hsegt : t.seg g = w.seg g := State.seg_congr (hsent .mac (by simp)) g
  rw [hseg] at hseg'
  rw [heveryone] at hframe hnoframe
  rw [hline] at hframe
  exact {
    now := by rw [hsent .now (by simp), hplaced .now (by simp), hsettled .now (by simp), hbegins.now]
    period := by rw [hsegt, hseg']
    firstBeacon := by rw [hsegt, hseg']
    state := by rw [hrdt, hstate]
    region := by rw [hsegt, hseg', ← hbegins.region]
    limits := by rw [hsegt, hseg', ← hbegins.limits]
    count := by rw [hrdt, hperiod', hperiod, hbegins.count]
    length := by rw [hsegt, hseg', State.length_beaconBody, hconfigured.members hg hcount]
    head := by rw [hsegt, hseg', State.take_beaconBody, hrdt, hperiod']
    sent := fun ⟨n, hn, hon⟩ => by
      rw [hsegt, hseg', hrdt]
      exact hframe (List.ne_nil_of_mem (List.mem_filter.2 ⟨hn, hon⟩))
    unsent := fun hoff => by
      rw [hnoframe (List.filter_eq_nil_iff.2 fun n hn => by simp [hoff n hn]), hline]
    parts := (hparts.trans hsent).mono (by simp) }

end Sys2Proof.Machine

end

section
/-! PROOF. O49: the reach beacon (R195), and O49 put together. -/

namespace Sys2Proof.Machine

/-- The entries of the running period that a reach beacon of segment `g` carries (R195). -/
def State.reachAllocs (s : State) (g : Nat) : List Alloc := (s.seg g).allocs.filter fun a => a.kind == 2

/-- The frame of a reach beacon of segment `g` from tick `start` in its band at its SF (R195). -/
def State.reachFrame (s : State) (g start band sf : Nat) : TxFrame :=
  s.asSwell (s.robustFrame g 0 0xFFFF 0 start (s.beaconBody g start (s.reachAllocs g)) (s.beaconMpdu g (s.beaconBody g start (s.reachAllocs g))))
    band sf (mpduLen (s.beaconBody g start (s.reachAllocs g)).length 0)

theorem State.reachFrame_fields (s : State) (g start band sf : Nat) :
    (s.reachFrame g start band sf).seg = g ∧ (s.reachFrame g start band sf).wave = (if band = 2 then .s2 else .s1) ∧
      (s.reachFrame g start band sf).sf = sf ∧ (s.reachFrame g start band sf).type = 0 ∧ (s.reachFrame g start band sf).dst = 0xFFFF ∧
      (s.reachFrame g start band sf).start = start ∧ (s.reachFrame g start band sf).body = s.beaconBody g start (s.reachAllocs g) ∧
      (s.reachFrame g start band sf).wire =
        [plainMpdu (s.rd (K.segs.BP_COUNT g) % 4096) (s.reachFrame g start band sf).body] ∧
      (s.reachFrame g start band sf).len = mpduLen (s.reachFrame g start band sf).body.length 0 ∧
      (s.reachFrame g start band sf).chans = s.everyone g :=
  ⟨rfl, rfl, rfl, rfl, rfl, rfl, rfl, rfl, rfl, rfl⟩

/-- A reach beacon goes out and stands as the segment's last one. -/
def State.reachSent (s : State) (g start band sf : Nat) : State :=
  ((s.modSeg g fun y => { y with reach := s.beaconBody g start (s.reachAllocs g) }).addFrame (s.reachFrame g start band sf)).2

section Reach

variable {s : State} {g : Nat}

theorem State.reachBeacon_of_idle (h : (s.seg g).period = none ∨ field (s.limit g 9) 4 2 = 0 ∨ s.segEnabled g = false) :
    s.reachBeacon g = s := by
  unfold State.reachBeacon State.reachOf
  dsimp only
  cases hperiod : (s.seg g).period with
  | none => rfl
  | some p =>
    refine if_pos ?_
    have hidle := h.resolve_left (by simp [hperiod])
    simp only [Bool.or_eq_true, decide_eq_true_eq, Bool.not_eq_true']
    exact .inl hidle

theorem State.reachBeacon_eq {p : Nat} (hperiod : (s.seg g).period = some p) (hband : field (s.limit g 9) 4 2 ≠ 0)
    (henabled : s.segEnabled g = true) (heveryone : s.everyone g ≠ []) {start : Nat}
    (hstart : start = s.slotStart g p ((s.seg g).region.getD 2 1)) : s.reachBeacon g =
      if (s.atDeadline start).claimAllows g start
          ((s.atDeadline start).reachFrame g start (field (s.limit g 9) 4 2) (field (s.limit g 9) 0 4)).stop then
        (s.atDeadline start).reachSent g start (field (s.limit g 9) 4 2) (field (s.limit g 9) 0 4)
      else s.atDeadline start := by
  unfold State.reachBeacon State.reachOf
  dsimp only
  rw [hperiod]
  dsimp only
  rw [if_neg (by simp [hband, henabled, heveryone]), ← hstart]
  rfl

theorem State.claimAllows_of_uncoupled (h : s.coupledTo g = []) (a b : Nat) : s.claimAllows g a b = true := by
  simp [State.claimAllows, h]

/-- A coupled segment that has claimed nothing in a second may use no tick of it. -/
theorem State.claimAllows_of_unclaimed (hcoupled : s.coupledTo g ≠ []) (htime : s.claimTime = true) {a : Nat}
    (hnone : ∀ c, s.ownClaim g (s.dtOf a / dtSecond) = some c → c = []) (b : Nat) : s.claimAllows g a b = false := by
  have hempty : (s.ownClaim g (s.dtOf a / dtSecond)).getD [] = [] := by
    cases hown : s.ownClaim g (s.dtOf a / dtSecond) with
    | none => rfl
    | some c => exact hnone c hown
  simp [State.claimAllows, hcoupled, htime, hempty]

end Reach

section Sent

variable (s : State) (g start band sf : Nat)

theorem State.reachSent_onlyChanges : OnlyChanges [.mac, .line] s (s.reachSent g start band sf) :=
  (onlyChanges_modSeg s g _).trans (onlyChanges_addFrame _)

theorem State.reachSent_seg : (s.reachSent g start band sf).seg g =
    { s.seg g with reach := s.beaconBody g start (s.reachAllocs g) } := by
  rw [State.reachSent, State.seg_congr (onlyChanges_addFrame _ .mac (by simp)), State.seg_modSeg_self]

theorem State.reachSent_frame :
    (s.reachSent g start band sf).frame? s.line.nextFrame = some (s.reachFrame g start band sf) := by
  rw [State.reachSent]
  exact State.addFrame_frame? (s := s.modSeg g _) _

end Sent

section Exec

variable {s : State} {g : Nat} (hup : s.coreUp (segCore g) = true)

include hup

theorem exec_reachBeacon_of_coreUp : exec (.reachBeacon g) s = .next ((s.reachBeacon g).modPending fun _ => s.pending) :=
  onCore_of_coreUp hup _

variable {p start : Nat} (hperiod : (s.seg g).period = some p) (hband : field (s.limit g 9) 4 2 ≠ 0) (henabled : s.segEnabled g = true)
variable (heveryone : s.everyone g ≠ []) (hstart : start = s.slotStart g p ((s.seg g).region.getD 2 1))

include hperiod hband henabled heveryone hstart

theorem reachBeacon_unclaimed (hcoupled : (s.atDeadline start).coupledTo g ≠ []) (htime : (s.atDeadline start).claimTime = true)
    (hnone : ∀ c, (s.atDeadline start).ownClaim g ((s.atDeadline start).dtOf start / dtSecond) = some c → c = []) :
    ∃ t, exec (.reachBeacon g) s = .next t ∧ t.now = max s.now start ∧ t.line.frames = s.line.frames ∧ t.mac = s.mac := by
  have heq : s.reachBeacon g = s.atDeadline start := by
    rw [State.reachBeacon_eq hperiod hband henabled heveryone hstart, State.claimAllows_of_unclaimed hcoupled htime hnone, if_neg (by simp)]
  refine exec_next_of (exec_reachBeacon_of_coreUp hup) (fun _ h => h) ?_
  rw [heq]
  exact ⟨s.atDeadline_now start, by rw [s.atDeadline_line], s.atDeadline_mac start⟩

theorem reachBeacon_sent (hg : g < 64) (hcount : s.rd (K.seg.MEMBER_COUNT g) ≤ 8) (hmembers : ∀ n ∈ s.members g, n < 256)
    (huncoupled : (s.atDeadline start).coupledTo g = []) :
    ∃ t x, exec (.reachBeacon g) s = .next t ∧ t.now = max s.now start ∧ t.frame? s.line.nextFrame = some x ∧ x.seg = g ∧
      x.wave = (if field (s.limit g 9) 4 2 = 2 then .s2 else .s1) ∧ x.sf = field (s.limit g 9) 0 4 ∧
      x.type = 0 ∧ x.dst = 0xFFFF ∧ x.start = start ∧ x.body = (t.seg g).reach ∧
      x.body.length = 36 + 6 * (s.members g).length + 8 * ((s.seg g).allocs.filter fun a => a.kind == 2).length ∧
      x.wire = [plainMpdu (s.rd (K.segs.BP_COUNT g) % 4096) x.body] ∧ x.len = mpduLen x.body.length 0 ∧
      x.chans = (s.members g).filter s.enabled ∧ (t.seg g).period = some p ∧
      OnlyRegs [K.times.UNSYNC_SECONDS, K.trks.PHASE_STEP_COUNT] s t ∧
      OnlyChanges [.now, .free, .dict, .perf, .tracker, .tides, .mac, .line] s t := by
  have heq := State.reachBeacon_eq hperiod hband henabled heveryone hstart
  rw [State.claimAllows_of_uncoupled huncoupled, if_pos rfl] at heq
  have hexec := exec_reachBeacon_of_coreUp hup
  rw [heq] at hexec
  have hnow := s.atDeadline_now start
  have hline := s.atDeadline_line start
  have hseg := State.seg_congr (s.atDeadline_mac start) g
  have hconfigured := ConfiguredAs.atDeadline s start
  have hbp : (s.atDeadline start).rd (K.segs.BP_COUNT g) = s.rd (K.segs.BP_COUNT g) :=
    State.segRd_atDeadline start (by simp only [K.segs.BP_COUNT]; omega)
  have hparts : OnlyChanges timeParts s (s.atDeadline start) := onlyChanges_passTo s start
  have hregs : OnlyRegs timeRegs s (s.atDeadline start) := onlyRegs_passTo s start
  have hallocs : (s.atDeadline start).reachAllocs g = (s.seg g).allocs.filter fun a => a.kind == 2 := by rw [State.reachAllocs, hseg]
  generalize s.atDeadline start = u at *
  generalize field (s.limit g 9) 4 2 = band at *
  generalize field (s.limit g 9) 0 4 = sf at *
  obtain ⟨hxseg, hwave, hsf, htype, hdst, hxstart, hbody, hwire, hlen, hchans⟩ := u.reachFrame_fields g start band sf
  have hframe := u.reachSent_frame g start band sf
  have hsent := u.reachSent_onlyChanges g start band sf
  have hsegt := u.reachSent_seg g start band sf
  generalize u.reachFrame g start band sf = x at *
  generalize u.reachSent g start band sf = t at *
  refine exists_comm.1 ⟨x, exec_next_of hexec (fun _ ⟨hnow, hframe, hxseg, hwave, hsf, htype, hdst, hxstart, hbody, hlength, hwire, hlen,
    hchans, hperiod, hregs, hparts⟩ => ⟨hnow, hframe, hxseg, hwave, hsf, htype, hdst, hxstart, hbody, hlength, hwire, hlen, hchans, hperiod,
      hregs, hparts.keepQueue⟩)
    ⟨(hsent .now (by simp) : t.now = u.now) ▸ hnow, hline ▸ hframe, hxseg, hwave, hsf, htype, hdst, hxstart, by rw [hbody, hsegt], ?_,
      hbp ▸ hwire, hlen, hchans.trans (hconfigured.everyone hg hcount hmembers), ?_, ?_, (hparts.trans hsent).mono (by simp [timeParts])⟩⟩
  · rw [hbody, State.length_beaconBody, hconfigured.members hg hcount, hallocs]
  · rw [hsegt, hseg, hperiod]
  · exact (hregs.trans (OnlyRegs.of_dict (rs := []) (hsent .dict (by simp)))).mono (by simp [timeRegs])

end Exec

/-! O49. -/

/-- Enabled members are found among the members. -/
theorem State.everyone_ne_nil {s : State} {g : Nat} (h : ∃ n ∈ s.members g, s.enabled n = true) : s.everyone g ≠ [] := by
  obtain ⟨n, hn, hon⟩ := h
  exact List.ne_nil_of_mem (List.mem_filter.2 ⟨hn, hon⟩)

theorem beacon_begins {s : State} {g : Nat} (hup : s.coreUp (segCore g) = true) (hg : g < 64) (hcount : s.rd (K.seg.MEMBER_COUNT g) ≤ 8)
    (hmembers : ∀ n ∈ s.members g, n < 256) (henabled : s.segEnabled g = true) (hlive : (s.seg g).winding = false)
    (hgaps : (s.seg g).gaps = []) (hresponses : (s.seg g).responses = []) :
    ∃ t, exec (.beacon g) s = .next t ∧ BeaconOpens g (s.nextBeacon g) s t := by
  refine exec_next_of (exec_beacon_of_coreUp hup) (fun u h => ?_) (beacon_opens hg hcount hmembers henabled hlive hgaps hresponses)
  obtain ⟨hnow, hperiod, hfirst, hstate, hregion, hlimits, hcount, hlength, hhead, hsent, hunsent, hparts⟩ := h
  exact ⟨hnow, hperiod, hfirst, hstate, hregion, hlimits, hcount, hlength, hhead, hsent, hunsent, hparts.keepQueue⟩

/-- Settles O49: reports and intervals through the routes that `recomputeRoutes` finds, beacons through the steps by which a period
begins. -/
theorem routesAndBeaconsFollowTheirIntervals : Obligations.RoutesAndBeaconsFollowTheirIntervals := by
  unfold Obligations.RoutesAndBeaconsFollowTheirIntervals
  refine ⟨⟨fun i body s hup _ => ⟨neighbourReport_of_malformed hup, fun r hread => neighbourReport_taken hup hread⟩,
    fun g s hup hg => ⟨routeInterval_of_disabled hup, routeInterval_recomputes hup hg⟩⟩, fun g s hup hg hcount hmembers => ?_⟩
  refine ⟨beacon_of_idle hup, fun henabled hlive hgaps hresponses => ?_,
    fun hidle => exec_unchanged (exec_reachBeacon_of_coreUp hup) (State.reachBeacon_of_idle hidle), ?_⟩
  · obtain ⟨t, ht, h⟩ := beacon_begins hup hg hcount hmembers henabled hlive hgaps hresponses
    refine ⟨t, ht, h.now, h.period, h.firstBeacon, h.state, h.region, h.limits, h.count, h.length, h.head, fun hon => ?_, h.unsent, h.parts⟩
    obtain ⟨x, hx, hseg, hwave, htype, hdst, htmi, hack, hstart, hbody, hwire, hchans⟩ := h.sent hon
    exact ⟨x, hx, hseg, hwave, htype, hdst, htmi, hack, hstart, hbody, hbody ▸ hwire, hchans⟩
  · intro p start hperiod hband henabled hon hstart
    have heveryone := State.everyone_ne_nil hon
    exact ⟨reachBeacon_sent hup hperiod hband henabled heveryone hstart hg hcount hmembers,
      reachBeacon_unclaimed hup hperiod hband henabled heveryone hstart⟩

end Sys2Proof.Machine

end

section
/-! PROOF. O58 fails: an endpoint that stands twice in the table of entries can be served as one of a segment number past 63, whose member is
a register that the admission of the request itself writes. -/

namespace Sys2Proof.Machine

/-- A P0 REQUEST of identifier 7 for the endpoint of address 5 on segment 0, without a payload (R271, R273). -/
def emptyRequest : List Byte :=
  nbHeader msgRequest 0 false 7 0 16 ++
    (beBytes 1 0 ++ beBytes 1 0 ++ beBytes 2 0 ++ beBytes 4 0 ++ beBytes 2 1 ++ beBytes 2 0 ++ beBytes 4 5)

/-- A device that lists entry 0 twice: the address names it by its second listing, while it reads as the first, of segment number 0x3C01. That
number's one member stands in RECORDS_FREE_MIN, and is channel 0, without a lane, as long as the register is not listed. -/
def entryTwice : State :=
  { State.reset with
    dict := [((K.key.STATE 128).key, slotLoaded), ((K.key.BOUND_EUI 128).key, 1), ((K.seg.SEG_ENABLE 0x3C01).key, 1),
      ((K.seg.MEMBER_COUNT 0x3C01).key, 1)]
    mac := { Mac.reset with
      eps := [(0, { Ep.reset with eui := 1, seg := 0x3C01, state := epAssociated, route := some [5] }),
        (0, { Ep.reset with addr := 5, state := epAssociated })] }
    line := { Line.reset with chans := [(0, { Channel.reset with swell := { SwellCfg.reset with on := false } })] } }

theorem sessionsSet_entryTwice : SessionsSet entryTwice := by
  unfold SessionsSet
  decide +kernel

theorem hasLane_entryTwice : entryTwice.hasLane 0 = false := by decide +kernel

theorem nbRead_emptyRequest : nbRead emptyRequest = some ⟨1, 1, 0, 7, 16, emptyRequest.drop 12⟩ := by decide +kernel

theorem requestRead_emptyRequest : requestRead ⟨1, 1, 0, 7, 16, emptyRequest.drop 12⟩ = some ⟨0, 0, 0, 0, [5], []⟩ := by decide +kernel

/-- Claiming the record brings RECORDS_FREE_MIN to 131,071, a channel with a lane. -/
theorem request_entryTwice_lane :
    ((entryTwice.takeInbox 0 emptyRequest).request 0 emptyRequest).mac.queue.map Down.lane = [true] := by decide +kernel

theorem exec_request_of_coreUp {s : State} (hup : s.coreUp 5 = true) (k : Nat) (msg : List Byte) :
    exec (.request k msg) s = .next (((s.takeInbox k msg).request k msg).modPending fun _ => s.pending) := onCore_of_coreUp hup _

/-- Refutes O58: whether a fragment goes on the lane is judged once the request has its record, and the count of free records can by then
have made another channel the member of the segment. -/
theorem not_requestsAreJudgedAnsweredAndNeverRunTwice : ¬ Obligations.RequestsAreJudgedAnsweredAndNeverRunTwice := by
  intro h
  obtain ⟨-, hrequest⟩ := h 0 emptyRequest entryTwice rfl sessionsSet_entryTwice (by decide)
  obtain ⟨-, -, hsingle⟩ := hrequest _ nbRead_emptyRequest rfl
  obtain ⟨-, -, hserved⟩ := hsingle _ 5 requestRead_emptyRequest rfl rfl rfl
  obtain ⟨t, d, y, ht, -, -, hqueue, -, -, -, hlane, -⟩ := hserved 0 rfl (by decide) (by decide +kernel) (by decide +kernel) (by decide +kernel)
    (by decide +kernel) (by decide +kernel)
  rw [exec_request_of_coreUp rfl] at ht
  obtain rfl := Host.Outcome.next.inj ht
  have hqueued := request_entryTwice_lane
  rw [State.modPending_mac, show entryTwice.mac.queue = [] from rfl, List.nil_append] at hqueue
  rw [hqueue, List.map_singleton, hlane, hasLane_entryTwice] at hqueued
  exact absurd hqueued (by decide)

end Sys2Proof.Machine

end

section
/-! PROOF. A northbound message on its way out: the frame counter and the use of its session's key, and what it leaves of the registers of
the transaction engine (R308, R311, R409, R410, R412). -/

namespace Sys2Proof.Machine

theorem onlyChanges_modTxn (s : State) (f : TxnEngine → TxnEngine) : OnlyChanges [.txn] s (s.modTxn f) := by
  intro p hp
  cases p <;> simp_all [Part.Same]

/-! Which registers a message is made of, and which it leaves alone. -/

/-- A register that a northbound message is made of and goes out by: of the key slots, the sessions and the ports. -/
def Reg.carries (r : Reg) : Prop :=
  0x540000 ≤ r.key ∧ r.key < 0x580000 ∨ 0x711000 ≤ r.key ∧ r.key < 0x712000 ∨ 0x714000 ≤ r.key ∧ r.key < 0x716000

/-- A register of the transaction engine, or of the sessions' configuration. -/
def Reg.ofHost (r : Reg) : Prop := 0x700000 ≤ r.key ∧ r.key < 0x712000

/-- State `u` is `s` in all that a northbound message is made of and goes out by. -/
structure NbAs (s u : State) : Prop where
  keys : u.keys = s.keys
  ports : u.bh.ports = s.bh.ports
  rd : ∀ r : Reg, r.carries → u.rd r = s.rd r

theorem NbAs.trans {s u v : State} (h : NbAs s u) (h' : NbAs u v) : NbAs s v :=
  ⟨h'.keys.trans h.keys, h'.ports.trans h.ports, fun r hr => (h'.rd r hr).trans (h.rd r hr)⟩

theorem NbAs.of_parts {ps : List Part} {s u : State} (h : OnlyChanges ps s u) (hps : Part.keys ∉ ps ∧ Part.bh ∉ ps ∧ Part.dict ∉ ps) :
    NbAs s u where
  keys := h .keys hps.1
  ports := congrArg Backhaul.ports (h .bh hps.2.1)
  rd := fun r _ => State.rd_congr (h .dict hps.2.2) r

theorem NbAs.wr (s : State) {r : Reg} (v : Nat) (hr : ¬ r.carries) : NbAs s (s.wr r v) where
  keys := rfl
  ports := rfl
  rd := fun _ hq => State.rd_wr_ne s v fun h => hr (by unfold Reg.carries at hq ⊢; rwa [← h])

theorem NbAs.bump (s : State) {r : Reg} (hr : ¬ r.carries) : NbAs s (s.bump r) := NbAs.wr s _ hr

/-- Time passes without a change to what messages are made of. -/
theorem NbAs.atDeadline (s : State) (due : Nat) : NbAs s (s.atDeadline due) where
  keys := s.atDeadline_keys due
  ports := by rw [s.atDeadline_bh]
  rd := fun r hr => by
    unfold Reg.carries at hr
    exact s.atDeadline_rd due (by simp only [K.times.UNSYNC_SECONDS]; omega) (by simp only [K.trks.PHASE_STEP_COUNT]; omega)

theorem Reg.carries_of_session {k : Nat} (hk : k < 16) : (K.sess.SESS_ENABLE k).carries ∧ (K.sess.SESS_PORT k).carries ∧
    (K.sess.KEY_SLOT k).carries ∧ (K.sess.SESSION_ID k).carries ∧ (K.sesss.NO_KEY k).carries := by
  simp only [Reg.carries, K.sess.SESS_ENABLE, K.sess.SESS_PORT, K.sess.KEY_SLOT, K.sess.SESSION_ID, K.sesss.NO_KEY]
  omega

theorem Reg.carries_of_slot {i : Nat} (hi : i < 1024) : (K.key.STATE i).carries ∧ (K.key.TX_FC i).carries := by
  simp only [Reg.carries, K.key.STATE, K.key.TX_FC]
  omega

theorem Reg.carries_of_port {p : Nat} (hp : p < 4) : (K.ports.LINK_UP p).carries := by
  simp only [Reg.carries, K.ports.LINK_UP]
  omega

section Carried

variable {s u t v : State} {k pri : Nat} {msg : List Byte} (h : NbAs s u) (hset : SessionsSet s) (hk : k < 16)

include h

theorem NbAs.sessionsSet (hset : SessionsSet s) : SessionsSet u := fun k hk => by
  obtain ⟨-, hport, hslot, -, -⟩ := Reg.carries_of_session hk
  rw [h.rd _ hslot, h.rd _ hport]
  exact hset k hk

include hset hk

theorem NbAs.nbItem : u.nbItem k pri msg = s.nbItem k pri msg := by
  obtain ⟨-, -, hslot, hid, -⟩ := Reg.carries_of_session hk
  obtain ⟨-, hfc⟩ := Reg.carries_of_slot (hset k hk).1
  rw [State.nbItem, State.nbItem, h.rd _ hslot, h.rd _ hfc, State.slot, h.keys, State.sessionHeader, h.rd _ hid]
  rfl

theorem NbAs.slotUsable : u.slotUsable (s.rd (K.sess.KEY_SLOT k)) = s.slotUsable (s.rd (K.sess.KEY_SLOT k)) := by
  rw [State.slotUsable, State.slotState, h.rd _ (Reg.carries_of_slot (hset k hk).1).1]
  rfl

theorem NbAs.fcReady : u.fcReady (s.rd (K.sess.KEY_SLOT k)) = s.fcReady (s.rd (K.sess.KEY_SLOT k)) := by
  rw [State.fcReady, h.slotUsable hset hk, h.rd _ (Reg.carries_of_slot (hset k hk).1).2, h.keys, State.slot, h.keys]
  rfl

/-- A message that goes out is seen from any state that sends as this one. -/
theorem NbAs.nbSends (hsends : NbSends k pri msg u t) : NbSends k pri msg s t := by
  obtain ⟨hon, hport, hslot, -, hnoKey⟩ := Reg.carries_of_session hk
  obtain ⟨hoff, hup⟩ := hsends
  have hflag : u.flag (K.sess.SESS_ENABLE k) = s.flag (K.sess.SESS_ENABLE k) := by rw [State.flag, h.rd _ hon, State.flag]
  have hlink : u.linkUp (s.rd (K.sess.SESS_PORT k)) = s.linkUp (s.rd (K.sess.SESS_PORT k)) := by
    rw [State.linkUp, State.flag, h.rd _ (Reg.carries_of_port (hset k hk).2), State.linkUp, State.flag]
  have hat : ∀ p, u.port p = s.port p := fun p => by rw [State.port, h.ports, State.port]
  rw [hflag, h.ports] at hoff
  rw [hflag, h.rd _ hport, hlink, h.rd _ hslot, h.slotUsable hset hk, h.fcReady hset hk, h.ports, hat, h.nbItem hset hk] at hup
  exact ⟨fun hf => ⟨(hoff hf).1.of_rd_eq (h.rd _ hnoKey), (hoff hf).2⟩,
    fun hf hl => ⟨fun hu => ⟨((hup hf hl).1 hu).1.of_rd_eq (h.rd _ hnoKey), ((hup hf hl).1 hu).2⟩, (hup hf hl).2⟩⟩

end Carried

/-- What follows a message, and leaves the ports and NO_KEY alone, does not change that it went out. -/
theorem NbSends.later {k pri : Nat} {msg : List Byte} {s t v : State} (h : NbSends k pri msg s t) (hports : v.bh.ports = t.bh.ports)
    (hrd : v.rd (K.sesss.NO_KEY k) = t.rd (K.sesss.NO_KEY k)) : NbSends k pri msg s v := by
  obtain ⟨hoff, hup⟩ := h
  have hcounted {c : Reg} (hc : v.rd c = t.rd c) (h : Counted c s t) : Counted c s v := hc.trans h
  have hat : ∀ p, v.port p = t.port p := fun p => by rw [State.port, hports, State.port]
  exact ⟨fun hf => ⟨hcounted hrd (hoff hf).1, hports.trans (hoff hf).2⟩, fun hf hl => ⟨fun hu =>
    ⟨hcounted hrd ((hup hf hl).1 hu).1, hports.trans ((hup hf hl).1 hu).2⟩, fun hr hs => (hat _).trans ((hup hf hl).2 hr hs)⟩⟩

/-! The message is given to its port (R308, R311, R410). -/

section Send

variable (s : State)

/-- One frame counter and one use of slot `i` are taken. -/
def State.keyTaken (s : State) (i : Nat) : State := (s.takeFc i).2.slotUse i

theorem State.keyTaken_onlyChanges (i : Nat) : OnlyChanges [.dict] s (s.keyTaken i) :=
  ((onlyChanges_wr s _ _).chain (State.slotSettle_onlyChanges _ i)).chain (State.slotUse_onlyChanges _ i)

/-- The registers that a frame counter and a use of key slot `i` may write. -/
def slotRegs (i : Nat) : List Reg := K.key.TX_FC i :: useRegs i

/-- They are registers of the slots alone. -/
theorem OnlyRegs.rd_of_slotRegs {s t : State} {i : Nat} (h : OnlyRegs (slotRegs i) s t) (hi : i < 1024) {r : Reg}
    (hr : r.key < 0x540000 ∨ 0x580000 ≤ r.key) : t.rd r = s.rd r :=
  h.rd fun hmem => by
    simp only [slotRegs, useRegs, K.key.TX_FC, K.key.USE_COUNT, K.key.STATE, K.key.NEAR_LIMIT_SEEN, List.map_cons, List.map_nil,
      List.mem_cons, List.not_mem_nil, or_false] at hmem
    omega

theorem State.takeFc_onlyRegs (i : Nat) : OnlyRegs (slotRegs i) s (s.takeFc i).2 :=
  OnlyRegs.chain ((OnlyRegs.refl (slotRegs i) s).wr (r := K.key.TX_FC i) (s.rd (K.key.TX_FC i) + 1) (by simp [slotRegs]))
    ((State.slotSettle_onlyRegs _ i).mono (by simp [slotRegs]))

theorem State.keyTaken_rd {i : Nat} (hi : i < 1024) {r : Reg} (hr : r.key < 0x540000 ∨ 0x580000 ≤ r.key) :
    (s.keyTaken i).rd r = s.rd r :=
  ((s.takeFc_onlyRegs i).chain ((State.slotUse_onlyRegs _ i).mono (by simp [slotRegs]))).rd_of_slotRegs hi hr

variable (k pri : Nat) (msg : List Byte)

/-- A message is lost and counted, waits for a frame counter, or is given to its port. -/
theorem State.nbSend_cases :
    (∃ r, (r = K.sesss.NO_KEY k ∨ r = K.ports.TX_LINK_DOWN (s.rd (K.sess.SESS_PORT k))) ∧ s.nbSend k pri msg = s.bump r) ∨
    (∃ b, s.nbSend k pri msg = s.modBh fun x => { x with unreserved := b }) ∨
    ∃ x, s.nbSend k pri msg = (s.keyTaken (s.rd (K.sess.KEY_SLOT k))).portSend (s.rd (K.sess.SESS_PORT k)) x := by
  unfold State.nbSend
  dsimp only
  split
  · exact .inl ⟨_, .inl rfl, rfl⟩
  · split
    · exact .inl ⟨_, .inr rfl, rfl⟩
    · split
      · exact .inl ⟨_, .inl rfl, rfl⟩
      · split
        · exact .inr (.inl ⟨_, rfl⟩)
        · exact .inr (.inr ⟨_, rfl⟩)

theorem State.nbSend_onlyChanges : OnlyChanges [.dict, .bh] s (s.nbSend k pri msg) := by
  obtain ⟨r, -, h⟩ | ⟨b, h⟩ | ⟨x, h⟩ := s.nbSend_cases k pri msg <;> rw [h]
  · exact (onlyChanges_bump s r).mono (by simp)
  · exact (onlyChanges_modBh s _).mono (by simp)
  · exact ((s.keyTaken_onlyChanges _).trans (State.portSend_onlyChanges _ _ x)).mono (by simp)

variable {s k}

/-- A message writes no register of the transaction engine and no configuration of a session. -/
theorem State.nbSend_rd (hset : SessionsSet s) (hk : k < 16) {r : Reg} (hr : r.ofHost) : (s.nbSend k pri msg).rd r = s.rd r := by
  obtain ⟨hslot, hport⟩ := hset k hk
  unfold Reg.ofHost at hr
  have hdown : r.key ≠ (K.ports.TX_LINK_DOWN (s.rd (K.sess.SESS_PORT k))).key := by simp only [K.ports.TX_LINK_DOWN]; omega
  have hnoKey : ∀ j, r.key ≠ (K.sesss.NO_KEY j).key := fun j => by simp only [K.sesss.NO_KEY]; omega
  obtain ⟨q, hq, h⟩ | ⟨b, h⟩ | ⟨x, h⟩ := s.nbSend_cases k pri msg <;> rw [h]
  · obtain rfl | rfl := hq
    · exact State.rd_bump_ne s (hnoKey k)
    · exact State.rd_bump_ne s hdown
  · rfl
  · rw [State.portSend_rd _ _ _ hdown hnoKey fun j => by simp only [K.sesss.TX_MSGS]; omega]
    exact s.keyTaken_rd hslot (by omega)

/-- An enabled session whose link is up and whose key has a frame counter gives its message to its port. -/
theorem State.nbSend_of_ready (hset : SessionsSet s) (hk : k < 16) (hon : s.flag (K.sess.SESS_ENABLE k) = true)
    (hup : s.linkUp (s.rd (K.sess.SESS_PORT k)) = true) (hready : s.fcReady (s.rd (K.sess.KEY_SLOT k)) = true) :
    s.nbSend k pri msg =
      (s.keyTaken (s.rd (K.sess.KEY_SLOT k))).portSend (s.rd (K.sess.SESS_PORT k)) (s.nbItem k pri msg) := by
  have husable : s.slotUsable (s.rd (K.sess.KEY_SLOT k)) = true := by
    simp only [State.fcReady, Bool.and_eq_true] at hready
    exact hready.1.1
  have hparts : OnlyChanges [.dict] s (s.takeFc (s.rd (K.sess.KEY_SLOT k))).2 :=
    (onlyChanges_wr s _ _).chain (State.slotSettle_onlyChanges _ _)
  have hid : (s.takeFc (s.rd (K.sess.KEY_SLOT k))).2.rd (K.sess.SESSION_ID k) = s.rd (K.sess.SESSION_ID k) :=
    (s.takeFc_onlyRegs _).rd_of_slotRegs (hset k hk).1 (by simp only [K.sess.SESSION_ID]; omega)
  unfold State.nbSend
  dsimp only
  rw [if_neg (by simp [hon]), if_neg (by simp [hup]), if_neg (by simp [husable]), if_neg (by simp [hready]), State.nbItem, State.sessionHeader,
    hid, State.slot, hparts .keys (by simp)]
  rfl

/-- A message goes out on its session, or is lost with its session or its key (R410, R412). -/
theorem State.nbSend_sends (hset : SessionsSet s) (hk : k < 16) : NbSends k pri msg s (s.nbSend k pri msg) := by
  refine ⟨fun hoff => ?_, fun hon hup => ⟨fun hunusable => ?_, fun hready hsending => ?_⟩⟩
  · rw [State.nbSend, if_pos (by simp [hoff])]
    exact ⟨counted_bump s _, rfl⟩
  · rw [State.nbSend, if_neg (by simp [hon]), if_neg (by simp [hup]), if_pos (by simp [hunusable])]
    exact ⟨counted_bump s _, rfl⟩
  · obtain ⟨hslot, hport⟩ := hset k hk
    have hat : (s.keyTaken (s.rd (K.sess.KEY_SLOT k))).port (s.rd (K.sess.SESS_PORT k)) = s.port (s.rd (K.sess.SESS_PORT k)) :=
      State.port_congr (s.keyTaken_onlyChanges _ .bh (by simp)) _
    have hup' : (s.keyTaken (s.rd (K.sess.KEY_SLOT k))).linkUp (s.rd (K.sess.SESS_PORT k)) = true := by
      rw [State.linkUp, State.flag, s.keyTaken_rd hslot (by simp only [K.ports.LINK_UP]; omega)]
      exact hup
    rw [State.nbSend_of_ready pri msg hset hk hon hup hready, State.portSend, if_neg (by simp [hup'])]
    dsimp only
    rw [if_neg (by rw [State.port_modPort_self, hat]; simpa [Option.isSome_iff_ne_none] using hsending), State.port_modPort_self, hat]

/-- A message to a host goes out, as an event of the transaction engine (R466). -/
def State.nbOut (s : State) (k pri : Nat) (msg : List Byte) : State := (s.eventC 10 0x09 pri).nbSend k pri msg

variable (s k)

theorem State.nbOut_onlyChanges : OnlyChanges [.dict, .bh, .perf] s (s.nbOut k pri msg) :=
  ((onlyChanges_events s _ _ _ _).trans (State.nbSend_onlyChanges _ k pri msg)).mono (by simp)

theorem NbAs.eventC (b code c : Nat) : NbAs s (s.eventC b code c) := NbAs.of_parts (onlyChanges_events s b code (some c) 1) (by simp)

variable {s k}

theorem State.nbOut_rd (hset : SessionsSet s) (hk : k < 16) {r : Reg} (hr : r.ofHost) : (s.nbOut k pri msg).rd r = s.rd r :=
  (State.nbSend_rd pri msg ((NbAs.eventC s 10 0x09 pri).sessionsSet hset) hk hr).trans
    (State.rd_congr (onlyChanges_events s _ _ _ _ .dict (by simp)) r)

theorem State.nbOut_sends (hset : SessionsSet s) (hk : k < 16) : NbSends k pri msg s (s.nbOut k pri msg) :=
  (NbAs.eventC s 10 0x09 pri).nbSends hset hk (State.nbSend_sends pri msg ((NbAs.eventC s 10 0x09 pri).sessionsSet hset) hk)

end Send

end Sys2Proof.Machine

end

section
/-! PROOF. The transaction engine's records, and the messages by which a transaction of the own host is answered (R268, R271, R290, R291,
R293). -/

namespace Sys2Proof.Machine

/-! Records. -/

section Record

variable {s : State} {k : Nat} {x : Txn}

theorem State.txn?_congr {s t : State} (h : t.txn = s.txn) (k : Nat) : t.txn? k = s.txn? k := by rw [State.txn?, h, State.txn?]

theorem State.leg?_congr {s t : State} (h : t.txn = s.txn) (k j : Nat) : t.leg? k j = s.leg? k j := by
  rw [State.leg?, State.txn?_congr h, State.leg?]

theorem State.leg?_of_txn (h : s.txn? k = some x) (j : Nat) : s.leg? k j = x.legs[j]? := by
  rw [State.leg?, h]
  rfl

theorem State.txn?_modTxnRec_self (h : s.txn? k = some x) (f : Txn → Txn) : (s.modTxnRec k f).txn? k = some (f x) := Tbl.at?_upd_self h f

theorem State.txn?_modTxnRec_ne (s : State) {i k : Nat} (f : Txn → Txn) (h : i ≠ k) : (s.modTxnRec k f).txn? i = s.txn? i :=
  Tbl.at?_upd_ne _ f h

theorem State.txn?_modLeg (h : s.txn? k = some x) (j : Nat) (f : Leg → Leg) :
    (s.modLeg k j f).txn? k = some { x with legs := x.legs.modify j f } := State.txn?_modTxnRec_self h _

theorem onlyKeys_modTxnRec (s : State) (k : Nat) (f : Txn → Txn) : OnlyKeys [k] s.txn.txns (s.modTxnRec k f).txn.txns := fun _ hi =>
  Tbl.at?_upd_ne _ f (by simpa using hi)

theorem onlyChanges_modTxnRec (s : State) (k : Nat) (f : Txn → Txn) : OnlyChanges [.txn] s (s.modTxnRec k f) := onlyChanges_modTxn s _

/-- A record changes, or there is none. -/
theorem State.txn?_modTxnRec (s : State) (k : Nat) (f : Txn → Txn) : (s.modTxnRec k f).txn? k = (s.txn? k).map f := by
  cases h : s.txn? k with
  | some x => rw [State.txn?_modTxnRec_self h, Option.map_some]
  | none =>
    unfold State.txn? at h
    rw [State.txn?, State.modTxnRec, State.modTxn_txn, Tbl.upd, h]
    exact h

end Record

/-! What messages leave of a transaction (R290, R291, R293). -/

/-- A transaction apart from its messages. -/
def Txn.unsent (x : Txn) : Txn := { x with sent := [], nSent := 0, open_ := [], openSince := none, evicted := false }

/-- From `s` to `t` messages of the own host's transactions have been packed, sent or evicted, transaction `k` is as before but for its
messages, and no register of the engine has changed but the count of evictions. -/
structure Talks (k : Nat) (s t : State) : Prop where
  txn : (t.txn? k).map Txn.unsent = (s.txn? k).map Txn.unsent
  parts : OnlyChanges [.dict, .bh, .perf, .txn] s t
  rd : ∀ r : Reg, r.ofHost → r.key ≠ K.txns.CACHE_EVICTED.key → t.rd r = s.rd r

/-- Transaction `k` is one of the own host, and goes out on a session of the device. -/
structure OwnTxn (k : Nat) (s : State) : Prop where
  sessions : SessionsSet s
  own : k < 2 ^ 32
  session : ∀ x, s.txn? k = some x → x.session < 16

theorem SessionsSet.of_rd {s t : State} (h : SessionsSet s)
    (hrd : ∀ r : Reg, r.ofHost → r.key ≠ K.txns.CACHE_EVICTED.key → t.rd r = s.rd r) : SessionsSet t := fun k hk => by
  have hslot : t.rd (K.sess.KEY_SLOT k) = s.rd (K.sess.KEY_SLOT k) := hrd _ (by simp only [Reg.ofHost, K.sess.KEY_SLOT]; omega)
    (by simp only [K.sess.KEY_SLOT, K.txns.CACHE_EVICTED]; omega)
  have hport : t.rd (K.sess.SESS_PORT k) = s.rd (K.sess.SESS_PORT k) := hrd _ (by simp only [Reg.ofHost, K.sess.SESS_PORT]; omega)
    (by simp only [K.sess.SESS_PORT, K.txns.CACHE_EVICTED]; omega)
  rw [hslot, hport]
  exact h k hk

theorem servedFor_of_own {k : Nat} (hk : k < 2 ^ 32) : servedFor k = none := if_pos hk

section Talk

variable {s t u : State} {k : Nat}

theorem Talks.refl (k : Nat) (s : State) : Talks k s s := ⟨rfl, (OnlyChanges.refl s).mono (by simp), fun _ _ _ => rfl⟩

theorem Talks.trans (h : Talks k s t) (h' : Talks k t u) : Talks k s u :=
  ⟨h'.txn.trans h.txn, h.parts.chain h'.parts, fun r hr hne => (h'.rd r hr hne).trans (h.rd r hr hne)⟩

/-- What changes neither the engine nor its registers. -/
theorem Talks.of_parts {ps : List Part} (h : OnlyChanges ps s t) (hps : ps ⊆ [.dict, .bh, .perf])
    (hrd : ∀ r : Reg, r.ofHost → t.rd r = s.rd r) : Talks k s t :=
  ⟨by rw [State.txn?_congr (h .txn fun hm => absurd (hps hm) (by simp))], h.mono fun _ hp => List.mem_append_left [Part.txn] (hps hp),
    fun r hr _ => hrd r hr⟩

theorem Talks.nbOut {i pri : Nat} {msg : List Byte} (k : Nat) (hset : SessionsSet s) (hi : i < 16) : Talks k s (s.nbOut i pri msg) :=
  .of_parts (s.nbOut_onlyChanges i pri msg) (by simp) fun _ hr => State.nbOut_rd pri msg hset hi hr

/-- A change of a record's messages, of whatever transaction. -/
theorem Talks.modTxnRec (k : Nat) (s : State) (i : Nat) {f : Txn → Txn} (hf : ∀ x, (f x).unsent = x.unsent) : Talks k s (s.modTxnRec i f) where
  txn := by
    by_cases hi : k = i
    · subst hi
      rw [State.txn?_modTxnRec, Option.map_map]
      exact congrArg (Option.map · _) (funext hf)
    · rw [State.txn?_modTxnRec_ne s f hi]
  parts := (onlyChanges_modTxnRec s i f).mono (by simp)
  rd := fun _ _ _ => rfl

theorem Talks.own (h : Talks k s t) (hown : OwnTxn k s) : OwnTxn k t where
  sessions := hown.sessions.of_rd h.rd
  own := hown.own
  session := fun y hy => by
    have hrec := h.txn
    rw [hy, Option.map_some] at hrec
    obtain ⟨x, hx, hxy⟩ := Option.map_eq_some_iff.1 hrec.symm
    have hsession : x.session = y.session := (congrArg Txn.session hxy :)
    exact hsession ▸ hown.session x hx

/-- A record stands after messages as it stood before them, but for its messages. -/
theorem Talks.some {x : Txn} (h : Talks k s t) (hx : s.txn? k = some x) : ∃ y, t.txn? k = some y ∧ y.unsent = x.unsent := by
  have hrec := h.txn
  rw [hx, Option.map_some] at hrec
  exact Option.map_eq_some_iff.1 hrec

variable (hown : OwnTxn k s)

include hown

theorem State.txnEmit_of_own (x : Txn) (msg : List Byte) : s.txnEmit k x msg = s.nbOut x.session x.pri msg := by
  rw [State.txnEmit, servedFor_of_own hown.own]
  rfl

theorem Talks.txnEmit {x : Txn} (hx : x.session < 16) (msg : List Byte) : Talks k s (s.txnEmit k x msg) := by
  rw [State.txnEmit_of_own hown]
  exact Talks.nbOut k hown.sessions hx

theorem Talks.txnSend (type : Nat) (final : Bool) (body : List Byte) : Talks k s (s.txnSend k type final body) := by
  unfold State.txnSend
  split
  · exact Talks.refl k s
  next x hx =>
    have hkept : Talks k s (s.modTxnRec k fun y => { y with
        sent := y.sent ++ [nbHeader type x.pri final (k % 2 ^ 32) x.nSent body.length ++ body], nSent := y.nSent + 1 }) :=
      Talks.modTxnRec k s k fun _ => rfl
    exact hkept.trans (Talks.txnEmit (hkept.own hown) (hown.session x hx) _)

theorem Talks.flushOpen (final : Bool) : Talks k s (s.flushOpen k final) := by
  unfold State.flushOpen
  split
  · exact Talks.refl k s
  next x _ =>
    split
    · exact Talks.refl k s
    · have hclosed : Talks k s (s.modTxnRec k fun y => { y with open_ := [], openSince := none }) := Talks.modTxnRec k s k fun _ => rfl
      exact hclosed.trans (Talks.txnSend (hclosed.own hown) _ _ _)

theorem Talks.packRecord (r : List Byte) : Talks k s (s.packRecord k r) := by
  unfold State.packRecord
  split
  · exact Talks.refl k s
  next x _ =>
    dsimp only
    refine Talks.trans ?_ (Talks.modTxnRec k _ k fun _ => rfl)
    split
    · exact Talks.flushOpen hown false
    · exact Talks.refl k s

omit hown

theorem Talks.evict (k : Nat) (s : State) (n : Nat) : Talks k s (s.evict n) := by
  induction n generalizing s with
  | zero => exact Talks.refl k s
  | succ n ih =>
    unfold State.evict
    split
    · exact Talks.refl k s
    · split
      · exact Talks.refl k s
      next i _ =>
        have hfreed : Talks k s (s.modTxnRec i fun x => { x with sent := [], evicted := true }) := Talks.modTxnRec k s i fun _ => rfl
        have hcounted (u : State) : Talks k u (u.bump K.txns.CACHE_EVICTED) :=
          ⟨rfl, (onlyChanges_bump u _).mono (by simp), fun _ _ hne => State.rd_bump_ne u hne⟩
        exact (hfreed.trans (hcounted _)).trans (ih _)

end Talk

/-! The end of a transaction (R290, R291, R296). -/

/-- The transaction's messages are out, and its record passes to the cache (R291). -/
def State.answeredTxn (s : State) (k : Nat) (x : Txn) : State :=
  if x.aborting then (s.flushOpen k (!x.aborting)).txnSend k msgAbortResult true (x.abortBody x.nAborted) else s.flushOpen k (!x.aborting)

theorem Talks.answered {s : State} {k : Nat} (hown : OwnTxn k s) (x : Txn) : Talks k s (s.answeredTxn k x) := by
  unfold State.answeredTxn
  split
  · exact (Talks.flushOpen hown _).trans (Talks.txnSend ((Talks.flushOpen hown _).own hown) _ _ _)
  · exact Talks.flushOpen hown _

/-- A transaction that has ended, in the cache until tick `until'` (R291). -/
def Txn.cached (order until' : Nat) (x : Txn) : Txn := { x with aborting := false, endedAt := order, cachedTo := some until' }

theorem State.finishTxn_of_own {s : State} {k : Nat} {x : Txn} (hk : k < 2 ^ 32) (hx : s.txn? k = some x) : ∃ order n, s.finishTxn k =
    ((s.answeredTxn k x).modTxnRec k
      (Txn.cached order ((s.answeredTxn k x).now + secTicks ((s.answeredTxn k x).rd K.txn.CACHE_TIME)))).evict n := by
  unfold State.finishTxn
  rw [hx]
  dsimp only
  rw [if_neg (by simp [servedFor_of_own hk])]
  exact ⟨_, _, rfl⟩

/-- What the end of a transaction leaves: its legs as they were, and the time to which it is cached (R291). -/
structure TxnEnds (k : Nat) (x : Txn) (s t : State) : Prop where
  record : ∃ y, t.txn? k = some y ∧ y.legs = x.legs ∧ y.aborting = false ∧ y.cachedTo = some (s.now + secTicks (s.rd K.txn.CACHE_TIME))
  parts : OnlyChanges [.dict, .bh, .perf, .txn] s t
  rd : ∀ r : Reg, r.ofHost → r.key ≠ K.txns.CACHE_EVICTED.key → t.rd r = s.rd r

theorem State.finishTxn_ends {s : State} {k : Nat} {x : Txn} (hown : OwnTxn k s) (hx : s.txn? k = some x) : TxnEnds k x s (s.finishTxn k) := by
  obtain ⟨order, n, heq⟩ := State.finishTxn_of_own hown.own hx
  have hanswered := Talks.answered hown x
  obtain ⟨y, hy, hyx⟩ := hanswered.some hx
  have hnow := hanswered.parts .now (by simp)
  have htime := hanswered.rd K.txn.CACHE_TIME (by simp [Reg.ofHost, K.txn.CACHE_TIME]) (by decide)
  rw [heq, hnow, htime]
  have hcached := State.txn?_modTxnRec_self hy (Txn.cached order (s.now + secTicks (s.rd K.txn.CACHE_TIME)))
  have hevicted := Talks.evict k ((s.answeredTxn k x).modTxnRec k (Txn.cached order (s.now + secTicks (s.rd K.txn.CACHE_TIME)))) n
  obtain ⟨z, hz, hzy⟩ := hevicted.some hcached
  have hlegs : y.legs = x.legs := (congrArg Txn.legs hyx :)
  refine ⟨⟨z, hz, Eq.trans (congrArg Txn.legs hzy :) hlegs, (congrArg Txn.aborting hzy :), (congrArg Txn.cachedTo hzy :)⟩, ?_,
    fun r hr hne => (hevicted.rd r hr hne).trans (hanswered.rd r hr hne)⟩
  exact (hanswered.parts.chain ((onlyChanges_modTxnRec _ k _).mono (by simp))).chain hevicted.parts

end Sys2Proof.Machine

end

section
/-! PROOF. The end of the one open leg of a transaction of the own host: it is counted, its record goes out or is the abort's to give, and the
transaction passes to the cache (R276, R288, R290, R291, R303). -/

namespace Sys2Proof.Machine

/-! MPDUs of a leg. -/

section Withdraw

variable {s : State} {k j : Nat}

theorem State.withdraw_of_none {p : Down → Bool} (h : ∀ d ∈ s.mac.queue, p d = false) : s.withdraw p = s := by
  have hall : (s.mac.queue.filter fun d => d.frame.isSome || !p d) = s.mac.queue :=
    List.filter_eq_self.2 fun d hd => by simp [h d hd]
  rw [State.withdraw, State.modMac, hall]

variable (h : ∀ d ∈ s.mac.queue, d.kind.ofLeg k j = false)

include h

/-- A leg without MPDUs has none withdrawn. -/
theorem State.withdrawLeg_of_none : s.withdrawLeg k j = s := by
  have hframes : (s.mac.queue.filterMap fun d => if d.kind.ofLeg k j then d.frame else none) = [] :=
    List.filterMap_eq_nil_iff.2 fun d hd => by simp [h d hd]
  rw [State.withdrawLeg, hframes]
  exact State.withdraw_of_none h

theorem State.legBeyond_of_none : s.legBeyond k j = false := List.any_eq_false.2 fun d hd => by simp [h d hd]

end Withdraw

/-! The steps of a leg's end. -/

/-- A leg that has ended. -/
def Leg.closed (outcome cause : Nat) (l : Leg) : Leg := { l with phase := .ended outcome cause, respDue := none, waits := false }

/-- The leg has ended and waits for nothing. -/
def State.legClosed (s : State) (k j outcome cause : Nat) : State :=
  ((s.withdraw fun d => d.kind.ofLeg k j).modTxn fun e => { e with waiting := e.waiting.filter fun w => !(w.1 == k && w.2 == j) }).modLeg k j
    (Leg.closed outcome cause)

/-- Its outcome and its cause are counted (R303, R466). -/
def State.endCounted (s : State) (pri outcome cause : Nat) : State :=
  let s := s.countLeg pri outcome cause
  let s := if outcome = outCompleted || outcome = outTooLate then s.eventC 10 0x07 pri else s
  if outcome = outRefused then s.eventC 10 0x04 pri else s

/-- Its record is packed, unless it is for an ABORT_RESULT to give (R290, R296). -/
def State.legRecorded (s : State) (k j : Nat) (x : Txn) : State :=
  if x.aborting && !x.many then s else s.packRecord k (((s.leg? k j).map Leg.finalRecord).getD [])

theorem State.endLeg_of_last {s : State} {k j outcome cause : Nat} {x y : Txn} {l : Leg} (hk : k < 2 ^ 32) (hx : s.txn? k = some x)
    (hl : s.leg? k j = some l) (hopen : l.open' = true)
    (hy : (((s.legClosed k j outcome cause).endCounted x.pri outcome cause).legRecorded k j x).txn? k = some y) (hlast : y.openLegs = []) :
    s.endLeg k j outcome cause = (((s.legClosed k j outcome cause).endCounted x.pri outcome cause).legRecorded k j x).finishTxn k := by
  unfold State.endLeg
  rw [hx, hl]
  dsimp only
  rw [if_neg (by simp [hopen]), servedFor_of_own hk]
  simp only [Option.isNone_none, if_true, Bool.and_true]
  unfold State.legRecorded State.endCounted State.legClosed at hy ⊢
  unfold Leg.closed at hy ⊢
  dsimp only at hy ⊢
  rw [hy]
  dsimp only
  rw [hlast, List.isEmpty_nil, if_pos rfl]

section Counting

variable (s : State) (pri outcome cause : Nat)

theorem onlyChanges_countLeg : OnlyChanges [.dict] s (s.countLeg pri outcome cause) := by
  unfold State.countLeg
  dsimp only
  split
  · exact onlyChanges_bump s _
  · exact (onlyChanges_bump s _).chain (onlyChanges_bump _ _)

theorem State.endCounted_eq_events : ∃ t, OnlyChanges [.perf] (s.countLeg pri outcome cause) t ∧ s.endCounted pri outcome cause = t := by
  refine ⟨_, ?_, rfl⟩
  unfold State.endCounted
  dsimp only
  have hevent (u : State) (c : Prop) [Decidable c] (code : Nat) : OnlyChanges [.perf] u (if c then u.eventC 10 code pri else u) := by
    split
    · exact onlyChanges_events u _ _ _ _
    · exact (OnlyChanges.refl u).mono (by simp)
  exact (hevent _ _ _).chain (hevent _ _ _)

theorem State.endCounted_onlyChanges : OnlyChanges [.dict, .perf] s (s.endCounted pri outcome cause) := by
  obtain ⟨t, ht, heq⟩ := s.endCounted_eq_events pri outcome cause
  rw [heq]
  exact (onlyChanges_countLeg s pri outcome cause).trans ht

theorem State.endCounted_rd (r : Reg) : (s.endCounted pri outcome cause).rd r = (s.countLeg pri outcome cause).rd r := by
  obtain ⟨t, ht, heq⟩ := s.endCounted_eq_events pri outcome cause
  rw [heq]
  exact State.rd_congr (ht .dict (by simp)) r

variable {pri outcome cause}

/-- The counts of outcomes and causes stand apart (R303). -/
theorem K.outc_ne_caus (hpri : pri < 4) (houtcome : outcome < 16) (i j : Nat) : (K.outc.OUTCOME pri outcome).key ≠ (K.caus.CAUSE i j).key := by
  simp only [K.outc.OUTCOME, K.caus.CAUSE]
  omega

theorem State.endCounted_counted (hpri : pri < 4) (houtcome : outcome < 16) (hcause : cause ≠ 0) :
    Counted (K.outc.OUTCOME pri outcome) s (s.endCounted pri outcome cause) ∧
      Counted (K.caus.CAUSE pri (cause - 1)) s (s.endCounted pri outcome cause) := by
  have hapart := K.outc_ne_caus hpri houtcome pri (cause - 1)
  simp only [Counted, State.endCounted_rd, State.countLeg, if_neg hcause]
  rw [State.rd_bump_ne _ hapart, State.rd_bump_self, State.rd_bump_self, State.rd_bump_ne _ hapart.symm]
  exact ⟨rfl, rfl⟩

theorem State.endCounted_rd_of_ne {r : Reg} (houtcome : r.key ≠ (K.outc.OUTCOME pri outcome).key)
    (hcause : r.key ≠ (K.caus.CAUSE pri (cause - 1)).key) : (s.endCounted pri outcome cause).rd r = s.rd r := by
  rw [State.endCounted_rd, State.countLeg]
  split
  · exact State.rd_bump_ne s houtcome
  · rw [State.rd_bump_ne _ hcause, State.rd_bump_ne _ houtcome]

end Counting

/-! The end of a sole leg. -/

/-- From `s` to `t` the one leg of transaction `k` has ended with outcome `o` and cause `c`. -/
structure LegEnds (k : Nat) (x : Txn) (l : Leg) (o c : Nat) (s t : State) : Prop where
  outcome : Counted (K.outc.OUTCOME x.pri o) s t
  cause : Counted (K.caus.CAUSE x.pri (c - 1)) s t
  ends : EndsWith k l o c t
  parts : OnlyChanges [.dict, .bh, .perf, .txn] s t
  aborts : t.rd K.txns.ABORTS = s.rd K.txns.ABORTS

/-- From `s` to `u` the one leg has ended and is counted; nothing has been sent. -/
structure LegOver (k : Nat) (x : Txn) (l : Leg) (o c : Nat) (s u : State) : Prop where
  outcome : Counted (K.outc.OUTCOME x.pri o) s u
  cause : Counted (K.caus.CAUSE x.pri (c - 1)) s u
  record : u.txn? k = some { x with legs := [l.closed o c] }
  parts : OnlyChanges [.dict, .perf, .txn] s u
  rd : ∀ r : Reg, ¬ (0x702000 ≤ r.key ∧ r.key < 0x704000) → u.rd r = s.rd r

section Sole

variable {s : State} {k j : Nat} {x : Txn} {l : Leg} (hsole : SoleLeg k j x l s)

include hsole

theorem SoleLeg.leg? : s.leg? k j = some l := by
  obtain ⟨hx, rfl, hlegs, -⟩ := hsole
  rw [State.leg?_of_txn hx, hlegs]
  rfl

theorem SoleLeg.legClosed (o c : Nat) :
    (s.legClosed k j o c).txn? k = some { x with legs := [l.closed o c] } ∧ OnlyChanges [.txn] s (s.legClosed k j o c) := by
  obtain ⟨hx, rfl, hlegs, -, -, -, -, -, -, -, hqueue⟩ := hsole
  rw [State.legClosed, State.withdraw_of_none hqueue]
  refine ⟨?_, (onlyChanges_modTxn s _).chain (onlyChanges_modTxnRec _ _ _)⟩
  have hx' : (s.modTxn fun e => { e with waiting := e.waiting.filter fun w => !(w.1 == k && w.2 == 0) }).txn? k = some x := hx
  rw [State.txn?_modLeg hx', hlegs]
  rfl

theorem SoleLeg.over {o c : Nat} (ho : o < 16) (hc : c ≠ 0) (hc' : c < 16) :
    LegOver k x l o c s ((s.legClosed k j o c).endCounted x.pri o c) := by
  obtain ⟨hclosed, hclosedParts⟩ := hsole.legClosed o c
  obtain ⟨-, -, -, -, -, -, -, -, hpri, -, -⟩ := hsole
  obtain ⟨houtcome, hcause⟩ := (s.legClosed k j o c).endCounted_counted hpri ho hc
  have hcounted := (s.legClosed k j o c).endCounted_onlyChanges x.pri o c
  have hrd : ∀ r, (s.legClosed k j o c).rd r = s.rd r := State.rd_congr (hclosedParts .dict (by simp))
  exact {
    outcome := houtcome.of_rd_eq (hrd _)
    cause := hcause.of_rd_eq (hrd _)
    record := (State.txn?_congr (hcounted .txn (by simp)) k).trans hclosed
    parts := (hclosedParts.trans hcounted).mono (by simp)
    rd := fun r hr => (State.endCounted_rd_of_ne _ (by simp only [K.outc.OUTCOME]; omega) (by simp only [K.caus.CAUSE]; omega)).trans
      (hrd r) }

end Sole

/-- A transaction whose one leg is over is one of the own host as before. -/
theorem LegOver.own {k o c : Nat} {x : Txn} {l : Leg} {s u : State} (h : LegOver k x l o c s u) (hset : SessionsSet s) (hk : k < 2 ^ 32)
    (hsession : x.session < 16) : OwnTxn k u where
  sessions := fun i hi => by
    rw [h.rd _ (by simp only [K.sess.KEY_SLOT]; omega), h.rd _ (by simp only [K.sess.SESS_PORT]; omega)]
    exact hset i hi
  own := hk
  session := fun y hy => by
    rw [h.record] at hy
    obtain rfl := Option.some.inj hy
    exact hsession

theorem Talks.legRecorded {k : Nat} {u : State} (hown : OwnTxn k u) (j : Nat) (x : Txn) : Talks k u (u.legRecorded k j x) := by
  unfold State.legRecorded
  split
  · exact Talks.refl k u
  · exact Talks.packRecord hown _

/-- The one leg of a transaction of the own host ends, and the transaction with it (R276, R290, R291). -/
theorem SoleLeg.ends {s : State} {k j o c : Nat} {x : Txn} {l : Leg} (hsole : SoleLeg k j x l s) (hset : SessionsSet s) (ho : o < 16)
    (hc : c ≠ 0) (hc' : c < 16) : LegEnds k x l o c s (s.endLeg k j o c) := by
  have hover := hsole.over ho hc hc'
  have hleg := hsole.leg?
  obtain ⟨hx, -, -, -, -, hopen, -, hk, hpri, hsession, -⟩ := hsole
  have hown := hover.own hset hk hsession
  have hrecorded := Talks.legRecorded hown j x
  obtain ⟨y, hy, hyx⟩ := hrecorded.some hover.record
  have hlegs : y.legs = [l.closed o c] := (congrArg Txn.legs hyx :)
  have hfinish := State.finishTxn_ends (hrecorded.own hown) hy
  rw [State.endLeg_of_last hk hx hleg hopen hy (by rw [Txn.openLegs, hlegs]; rfl)]
  generalize (s.legClosed k j o c).endCounted x.pri o c = u at *
  have hrd : ∀ r : Reg, r.ofHost → r.key ≠ K.txns.CACHE_EVICTED.key → ((u.legRecorded k j x).finishTxn k).rd r = u.rd r :=
    fun r hr hne => (hfinish.rd r hr hne).trans (hrecorded.rd r hr hne)
  obtain ⟨z, hz, hzlegs, hzaborting, hzcached⟩ := hfinish.record
  have hnow : ((u.legRecorded k j x).finishTxn k).now = (u.legRecorded k j x).now := hfinish.parts .now (by simp)
  have htime := hfinish.rd K.txn.CACHE_TIME (by simp [Reg.ofHost, K.txn.CACHE_TIME]) (by decide)
  refine ⟨?_, ?_, ⟨z, hz, hzlegs.trans hlegs, hzaborting, ?_⟩, (hover.parts.trans (hrecorded.parts.chain hfinish.parts)).mono (by simp), ?_⟩
  · exact (hrd _ (by simp only [Reg.ofHost, K.outc.OUTCOME]; omega) (by simp only [K.outc.OUTCOME, K.txns.CACHE_EVICTED]; omega)).trans
      hover.outcome
  · exact (hrd _ (by simp only [Reg.ofHost, K.caus.CAUSE]; omega) (by simp only [K.caus.CAUSE, K.txns.CACHE_EVICTED]; omega)).trans
      hover.cause
  · rw [hzcached, hnow, htime]
  · exact (hrd _ (by simp [Reg.ofHost, K.txns.ABORTS]) (by decide)).trans (hover.rd _ (by decide))

end Sys2Proof.Machine

end

section
/-! PROOF. O59: aborts (R274, R294 to R298). -/

namespace Sys2Proof.Machine

theorem exec_abort_of_coreUp {s : State} (hup : s.coreUp 5 = true) (k : Nat) (msg : List Byte) :
    exec (.abort k msg) s = .next (((s.takeInbox k msg).abort k msg).modPending fun _ => s.pending) := onCore_of_coreUp hup _

theorem exec_abortTakeRecord_of_coreUp {s : State} (hup : s.coreUp 5 = true) (k j : Nat) :
    exec (.abortTakeRecord k j) s = .next ((s.abortLeg k j).modPending fun _ => s.pending) := onCore_of_coreUp hup _

/-! The message is taken (R411). -/

section Inbox

variable (s : State) (k : Nat) (msg : List Byte)

theorem State.onlyChanges_takeInbox : OnlyChanges [.bh] s (s.takeInbox k msg) := onlyChanges_modBh s _

theorem NbAs.takeInbox : NbAs s (s.takeInbox k msg) := ⟨rfl, rfl, fun _ _ => rfl⟩

/-- The message is an ABORT, and is counted. -/
def State.abortTaken : State := (s.takeInbox k msg).bump K.txns.ABORTS

theorem NbAs.abortTaken : NbAs s (s.abortTaken k msg) :=
  (NbAs.takeInbox s k msg).trans (NbAs.bump _ (by unfold Reg.carries; decide))

theorem State.onlyChanges_abortTaken : OnlyChanges [.dict, .bh] s (s.abortTaken k msg) :=
  ((s.onlyChanges_takeInbox k msg).trans (onlyChanges_bump _ _)).mono (by simp)

theorem State.counted_abortTaken : Counted K.txns.ABORTS s (s.abortTaken k msg) := counted_bump (s.takeInbox k msg) _

theorem State.abortTaken_rd {r : Reg} (hr : r.key ≠ K.txns.ABORTS.key) : (s.abortTaken k msg).rd r = s.rd r :=
  State.rd_bump_ne (s.takeInbox k msg) hr

variable {s k}

/-- An ABORT_RESULT that is given at once goes out, and the ABORT is counted (R296, R298). -/
theorem NbAs.abort_answered {u : State} (has : NbAs s u) (hset : SessionsSet s) (hk : k < 16) (hcounted : Counted K.txns.ABORTS s u) (pri : Nat)
    (answer : List Byte) : Counted K.txns.ABORTS s (u.nbOut k pri answer) ∧ NbSends k pri answer s (u.nbOut k pri answer) :=
  ⟨(State.nbOut_rd pri answer (has.sessionsSet hset) hk (by simp [Reg.ofHost, K.txns.ABORTS])).trans hcounted,
    has.nbSends hset hk (State.nbOut_sends pri answer (has.sessionsSet hset) hk)⟩

end Inbox

/-! A leg whose record an abort takes (R294, R295). -/

/-- The end is seen from any state before it that differs in the engine alone. -/
theorem LegEnds.of_before {k o c : Nat} {x y : Txn} {l : Leg} {s u t : State} (h : LegEnds k y l o c u t) (hpri : y.pri = x.pri)
    (hparts : OnlyChanges [.txn] s u) : LegEnds k x l o c s t := by
  have hrd : ∀ r, u.rd r = s.rd r := State.rd_congr (hparts .dict (by simp))
  obtain ⟨houtcome, hcause, hends, hall, haborts⟩ := h
  rw [hpri] at houtcome hcause
  exact ⟨houtcome.of_rd_eq (hrd _), hcause.of_rd_eq (hrd _), hends, (hparts.trans hall).mono (by simp), haborts.trans (hrd _)⟩

section Taken

variable {s : State} {k j : Nat} {x : Txn} {l : Leg}

theorem State.abortLeg_of_none (h : s.txn? k = none) : s.abortLeg k j = s := by
  rw [State.abortLeg, h]

theorem State.abortLeg_of_kept (hx : s.txn? k = some x) (h : x.aborting = false ∨ s.legBeyond k j = true) : s.abortLeg k j = s := by
  rw [State.abortLeg, hx]
  cases s.leg? k j with
  | none => rfl
  | some l => exact if_pos (by rcases h with h | h <;> simp [h])

/-- The cause of an abort or of a deadline tells whether the leg was delivered (R294). -/
def Leg.unanswered (l : Leg) : Nat := if l.delivered then causeNoResponse else causeNotDelivered

theorem Leg.unanswered_bounds (l : Leg) : l.unanswered ≠ 0 ∧ l.unanswered < 16 ∧ l.unanswered - 1 = if l.delivered then 12 else 11 := by
  unfold Leg.unanswered
  split <;> decide

theorem State.abortLeg_ends (hset : SessionsSet s) (hsole : SoleLeg k j x l s) (haborting : x.aborting = true) :
    LegEnds k x l 6 l.unanswered s (s.abortLeg k j) := by
  have hleg := hsole.leg?
  obtain ⟨hnone, hlt, -⟩ := l.unanswered_bounds
  have hcounted : SoleLeg k j { x with nAborted := x.nAborted + 1 } l (s.modTxnRec k fun y => { y with nAborted := y.nAborted + 1 }) := by
    obtain ⟨hx, hrest⟩ := hsole
    exact ⟨State.txn?_modTxnRec_self hx _, hrest⟩
  have hends := hcounted.ends (o := outAborted) hset (by decide) hnone hlt
  obtain ⟨hx, -, -, -, -, hopen, hmoved, -, -, -, hqueue⟩ := hsole
  have hheld : (!x.aborting || !l.open' || l.movedTo.isSome || s.legBeyond k j) = false := by
    simp [haborting, hopen, hmoved, State.legBeyond_of_none hqueue]
  rw [State.abortLeg, hx, hleg]
  dsimp only
  rw [if_neg (by simp [hheld]), State.withdrawLeg_of_none hqueue]
  exact hends.of_before rfl (onlyChanges_modTxnRec s k _)

end Taken

/-! What an ABORT comes to (R274, R294, R296, R298). -/

/-- The ABORT_RESULT of an unknown transaction: one record, NOT_FOUND (R298). -/
def NbMsg.notFound (m : NbMsg) : List Byte := nbHeader 5 m.pri true m.id 0 12 ++ (beBytes 1 9 ++ beBytes 11 0)

/-- The ABORT_RESULT of a cached transaction, of which nothing was aborted (R296). -/
def Txn.cachedResult (x : Txn) (id : Nat) : List Byte := nbHeader 5 x.pri true id x.nSent (x.abortBody 0).length ++ x.abortBody 0

section Abort

variable {s : State} {k : Nat} {msg : List Byte} {m : NbMsg}

theorem State.abort_of_other (h : nbRead msg = none ∨ ∃ m, nbRead msg = some m ∧ m.type ≠ 2) : s.abort k msg = s := by
  unfold State.abort
  obtain h | ⟨m, h, htype⟩ := h <;> rw [h]
  exact if_pos htype

variable (hread : nbRead msg = some m) (htype : m.type = 2)

include hread htype

theorem State.abort_of_malformed (h : m.version ≠ 1 ∨ m.len ≠ 0 ∨ m.body ≠ []) : s.abort k msg = s.bump K.txns.BAD_REQUESTS := by
  rw [State.abort, hread]
  dsimp only
  rw [if_neg (by simp [htype, msgAbort]), if_pos (by simpa [or_assoc] using h)]

variable (hversion : m.version = 1) (hlen : m.len = 0) (hbody : m.body = [])

include hversion hlen hbody

theorem State.abort_of_unknown (h : 2 ^ 31 ≤ m.id ∨ s.txn? m.id = none) : s.abort k msg =
    (s.bump K.txns.ABORTS).nbOut k m.pri m.notFound := by
  have hnone : (if m.id < 2 ^ 31 then (s.bump K.txns.ABORTS).txn? m.id else none) = none := by
    split
    next hlt => exact h.resolve_left (by omega)
    · rfl
  rw [State.abort, hread]
  dsimp only
  rw [if_neg (by simp [htype, msgAbort]), if_neg (by simp [hversion, hlen, hbody]), hnone]
  rfl

variable {x : Txn} (hid : m.id < 2 ^ 31) (hx : s.txn? m.id = some x)

include hid hx

theorem State.abort_of_cached (hcached : x.cachedTo.isSome = true) (hmany : x.many = false) : s.abort k msg =
    ((s.bump K.txns.ABORTS).modTxnRec m.id fun y => { y with session := k }).nbOut k x.pri
      (x.cachedResult m.id) := by
  have hx' : (s.bump K.txns.ABORTS).txn? m.id = some x := hx
  rw [State.abort, hread]
  dsimp only
  rw [if_neg (by simp [htype, msgAbort]), if_neg (by simp [hversion, hlen, hbody]), if_pos hid, hx']
  dsimp only
  rw [if_neg (by simpa [Option.isSome_iff_ne_none] using hcached), if_neg (by simp [hmany])]
  rfl

theorem State.abort_of_open (hcached : x.cachedTo = none) : s.abort k msg =
    ((s.bump K.txns.ABORTS).modTxnRec m.id fun y => { y with session := k }).abortOpen m.id msg x := by
  have hx' : (s.bump K.txns.ABORTS).txn? m.id = some x := hx
  rw [State.abort, hread]
  dsimp only
  rw [if_neg (by simp [htype, msgAbort]), if_neg (by simp [hversion, hlen, hbody]), if_pos hid, hx']
  dsimp only
  rw [if_pos (by simp [hcached])]

end Abort

theorem State.relayToMoved_of_none {s : State} {k : Nat} {x : Txn} (hx : s.txn? k = some x) (msg : List Byte)
    (h : x.openLegs.filterMap (·.movedTo) = []) : s.relayToMoved k msg = s := by
  rw [State.relayToMoved, hx]
  dsimp only
  rw [h]
  rfl

/-- An ABORT ends the one leg of its transaction (R294). -/
theorem State.abortOpen_ends {s : State} {k j : Nat} {x : Txn} {l : Leg} (hset : SessionsSet s) (hsole : SoleLeg k j x l s) (msg : List Byte) :
    LegEnds k x l 6 l.unanswered s (s.abortOpen k msg x) := by
  have haborting : SoleLeg k j { x with aborting := true } l (s.modTxnRec k fun y => { y with aborting := true }) := by
    obtain ⟨hx, hrest⟩ := hsole
    exact ⟨State.txn?_modTxnRec_self hx _, hrest⟩
  have hset' : SessionsSet (s.modTxnRec k fun y => { y with aborting := true }) := hset
  have hends := State.abortLeg_ends hset' haborting rfl
  obtain ⟨hx, rfl, hlegs, -, -, -, hmoved, -⟩ := hsole
  have hunmoved : ({ x with aborting := true } : Txn).openLegs.filterMap (·.movedTo) = [] :=
    List.filterMap_eq_nil_iff.2 fun y hy => by
      have hmem : y ∈ x.legs := List.mem_of_mem_filter hy
      rw [hlegs, List.mem_singleton] at hmem
      rw [hmem, hmoved]
  rw [State.abortOpen, State.relayToMoved_of_none (State.txn?_modTxnRec_self hx _) msg hunmoved, hlegs]
  exact hends.of_before rfl (onlyChanges_modTxnRec s k _)

/-! The two commands (R274, R294 to R298). -/

section Commands

variable {s : State} (hup : s.coreUp 5 = true)

include hup

section Inbox

variable {k : Nat} {msg : List Byte}

theorem exec_abort_other (h : nbRead msg = none ∨ ∃ m, nbRead msg = some m ∧ m.type ≠ 2) :
    ∃ t, exec (.abort k msg) s = .next t ∧ t.bh = { s.bh with inbox := s.bh.inbox.erase (k, msg) } ∧ OnlyChanges [.bh] s t := by
  refine exec_next_of (P := fun t => t.bh = { s.bh with inbox := s.bh.inbox.erase (k, msg) } ∧ OnlyChanges [.bh] s t)
    (exec_abort_of_coreUp hup k msg) (fun u hu => ⟨hu.1, hu.2.keepQueue⟩) ?_
  rw [State.abort_of_other h]
  exact ⟨rfl, s.onlyChanges_takeInbox k msg⟩

variable {m : NbMsg} (hread : nbRead msg = some m) (htype : m.type = 2)

include hread htype

theorem exec_abort_malformed (h : m.version ≠ 1 ∨ m.len ≠ 0 ∨ m.body ≠ []) :
    ∃ t, exec (.abort k msg) s = .next t ∧ Counted K.txns.BAD_REQUESTS s t ∧ OnlyRegs [K.txns.BAD_REQUESTS] s t ∧
      t.bh = { s.bh with inbox := s.bh.inbox.erase (k, msg) } ∧ OnlyChanges [.dict, .bh] s t := by
  refine ⟨_, exec_abort_of_coreUp hup k msg, ?_⟩
  rw [State.abort_of_malformed hread htype h]
  exact ⟨counted_bump (s.takeInbox k msg) _, onlyRegs_bump (s.takeInbox k msg) _, rfl,
    (((s.onlyChanges_takeInbox k msg).trans (onlyChanges_bump _ _)).mono (by simp)).keepQueue⟩

variable (hversion : m.version = 1) (hlen : m.len = 0) (hbody : m.body = []) (hset : SessionsSet s)

include hversion hlen hbody hset

theorem exec_abort_unknown (hk : k < 16) (h : 2 ^ 31 ≤ m.id ∨ s.txn? m.id = none) :
    ∃ t, exec (.abort k msg) s = .next t ∧ Counted K.txns.ABORTS s t ∧
      NbSends k m.pri m.notFound s t ∧ t.txn = s.txn ∧
      OnlyChanges [.dict, .bh, .perf] s t := by
  refine ⟨_, exec_abort_of_coreUp hup k msg, ?_⟩
  have hunknown : 2 ^ 31 ≤ m.id ∨ (s.takeInbox k msg).txn? m.id = none := h
  rw [State.abort_of_unknown hread htype hversion hlen hbody hunknown]
  obtain ⟨hcounted, hsends⟩ := (NbAs.abortTaken s k msg).abort_answered hset hk (s.counted_abortTaken k msg) m.pri
    m.notFound
  have hall := ((s.onlyChanges_abortTaken k msg).trans (State.nbOut_onlyChanges _ k m.pri m.notFound)).mono (qs := [.dict, .bh, .perf]) (by simp)
  exact ⟨hcounted, hsends.later rfl rfl, hall .txn (by simp), hall.keepQueue⟩

theorem exec_abort_cached (hk : k < 16) {x : Txn} (hid : m.id < 2 ^ 31) (hx : s.txn? m.id = some x) (hcached : x.cachedTo.isSome = true)
    (hmany : x.many = false) : ∃ t, exec (.abort k msg) s = .next t ∧ Counted K.txns.ABORTS s t ∧
      NbSends k x.pri (x.cachedResult m.id) s t ∧
      t.txn? m.id = some { x with session := k } ∧ t.mac = s.mac ∧ OnlyChanges [.dict, .bh, .perf, .txn] s t := by
  refine ⟨_, exec_abort_of_coreUp hup k msg, ?_⟩
  have hx' : (s.takeInbox k msg).txn? m.id = some x := hx
  rw [State.abort_of_cached hread htype hversion hlen hbody hid hx' hcached hmany]
  have hmoved := onlyChanges_modTxnRec (s.abortTaken k msg) m.id fun y => { y with session := k }
  obtain ⟨hcounted, hsends⟩ := ((NbAs.abortTaken s k msg).trans (NbAs.of_parts hmoved (by simp))).abort_answered hset hk
    (s.counted_abortTaken k msg) x.pri (x.cachedResult m.id)
  have hout := State.nbOut_onlyChanges ((s.abortTaken k msg).modTxnRec m.id fun y => { y with session := k }) k x.pri
    (x.cachedResult m.id)
  have hall := (((s.onlyChanges_abortTaken k msg).trans hmoved).trans hout).mono (qs := [.dict, .bh, .perf, .txn]) (by simp)
  exact ⟨hcounted, hsends.later rfl rfl, (State.txn?_congr (hout .txn (by simp)) _).trans (State.txn?_modTxnRec_self hx' _),
    hall .mac (by simp), hall.keepQueue⟩

theorem exec_abort_open {x : Txn} {l : Leg} (hid : m.id < 2 ^ 31) (hcached : x.cachedTo = none) (hsession : x.session = k)
    (hsole : SoleLeg m.id 0 x l s) : ∃ t, exec (.abort k msg) s = .next t ∧ Counted K.txns.ABORTS s t ∧ Counted (K.outc.OUTCOME x.pri 6) s t ∧
      Counted (K.caus.CAUSE x.pri (if l.delivered then 12 else 11)) s t ∧ EndsWith m.id l 6 (if l.delivered then 13 else 12) t ∧
      t.mac.queue = s.mac.queue ∧ OnlyChanges [.dict, .bh, .perf, .txn, .mac, .line] s t := by
  refine ⟨_, exec_abort_of_coreUp hup k msg, ?_⟩
  have hx' : (s.takeInbox k msg).txn? m.id = some x := hsole.1
  rw [State.abort_of_open hread htype hversion hlen hbody hid hx' hcached]
  subst hsession
  have hmoved := onlyChanges_modTxnRec (s.abortTaken x.session msg) m.id fun y => { y with session := x.session }
  have hset' := ((NbAs.abortTaken s x.session msg).trans (NbAs.of_parts hmoved (by simp))).sessionsSet hset
  have hsole' : SoleLeg m.id 0 x l ((s.abortTaken x.session msg).modTxnRec m.id fun y => { y with session := x.session }) := by
    obtain ⟨hx, hrest⟩ := hsole
    exact ⟨State.txn?_modTxnRec_self hx' _, hrest⟩
  obtain ⟨houtcome, hcause, hends, hparts, haborts⟩ := State.abortOpen_ends hset' hsole' msg
  have hall := (((s.onlyChanges_abortTaken x.session msg).trans hmoved).trans hparts).mono (qs := [.dict, .bh, .perf, .txn]) (by simp)
  have hrd {r : Reg} (hr : r.key ≠ K.txns.ABORTS.key) := s.abortTaken_rd x.session msg hr
  obtain ⟨-, -, hcauseNo⟩ := l.unanswered_bounds
  rw [hcauseNo] at hcause
  exact ⟨haborts.trans (s.counted_abortTaken x.session msg), houtcome.of_rd_eq (hrd (by simp only [K.outc.OUTCOME, K.txns.ABORTS]; omega)),
    hcause.of_rd_eq (hrd (by simp only [K.caus.CAUSE, K.txns.ABORTS]; omega)), hends, congrArg Mac.queue (hall .mac (by simp)),
    (hall.mono (by simp)).keepQueue⟩

end Inbox

theorem exec_abortTakeRecord_held {k j : Nat} (h : s.abortLeg k j = s) : exec (.abortTakeRecord k j) s = .next s :=
  exec_unchanged (exec_abortTakeRecord_of_coreUp hup k j) h

theorem exec_abortTakeRecord_sole {k j : Nat} {x : Txn} {l : Leg} (hset : SessionsSet s) (haborting : x.aborting = true)
    (hsole : SoleLeg k j x l s) : ∃ t, exec (.abortTakeRecord k j) s = .next t ∧ Counted (K.outc.OUTCOME x.pri 6) s t ∧
      Counted (K.caus.CAUSE x.pri (if l.delivered then 12 else 11)) s t ∧ EndsWith k l 6 (if l.delivered then 13 else 12) t ∧
      t.mac.queue = s.mac.queue ∧ OnlyChanges [.dict, .bh, .perf, .txn, .mac, .line] s t := by
  obtain ⟨houtcome, hcause, hends, hparts, -⟩ := State.abortLeg_ends hset hsole haborting
  obtain ⟨-, -, hcauseNo⟩ := l.unanswered_bounds
  rw [hcauseNo] at hcause
  exact ⟨_, exec_abortTakeRecord_of_coreUp hup k j, houtcome, hcause, hends, congrArg Mac.queue (hparts .mac (by simp)),
    (hparts.mono (by simp)).keepQueue⟩

end Commands

theorem State.abortLeg_of_beyond {s : State} {k j : Nat} (h : s.legBeyond k j = true) : s.abortLeg k j = s := by
  cases hx : s.txn? k with
  | none => exact State.abortLeg_of_none hx
  | some x => exact State.abortLeg_of_kept hx (.inr h)

/-- Settles O59: an open leg without MPDUs ends at once, and its one end is counted and cached; what is answered executes nothing. -/
theorem abortsEndOpenLegsOnceAndExecuteNothingElse : Obligations.AbortsEndOpenLegsOnceAndExecuteNothingElse :=
  ⟨fun _ _ _ hup hset hk =>
    ⟨exec_abort_other hup, fun _ hread htype hbad => exec_abort_malformed hup hread htype hbad,
      fun _ hread htype hversion hlen hbody =>
        ⟨exec_abort_unknown hup hread htype hversion hlen hbody hset hk,
          fun _ hid hx hcached hmany _ => exec_abort_cached hup hread htype hversion hlen hbody hset hk hid hx hcached hmany,
          fun _ _ hid hcached hsession hsole =>
            exec_abort_open hup hread htype hversion hlen hbody hset hid hcached hsession hsole⟩⟩,
    fun _ _ _ _ hup hset =>
      ⟨fun hx => exec_abortTakeRecord_held hup (State.abortLeg_of_none hx),
        fun hx haborting => exec_abortTakeRecord_held hup (State.abortLeg_of_kept hx (.inl haborting)),
        fun hbeyond => exec_abortTakeRecord_held hup (State.abortLeg_of_beyond hbeyond),
        fun _ haborting hsole => exec_abortTakeRecord_sole hup hset haborting hsole⟩⟩

end Sys2Proof.Machine

end

section
/-! PROOF. O60, the deadlines of legs: a leg's time to live, its wait for a response, and its next try (R279, R284, R288). -/

namespace Sys2Proof.Machine

section Commands

variable {s : State} (hup : s.coreUp 5 = true)

include hup

theorem exec_legDeadline_of_coreUp (k j : Nat) : exec (.legDeadline k j) s = .next ((s.legDeadline k j).modPending fun _ => s.pending) :=
  onCore_of_coreUp hup _

theorem exec_respWaitExpiry_of_coreUp (k j : Nat) :
    exec (.respWaitExpiry k j) s = .next ((s.respWaitExpiry k j).modPending fun _ => s.pending) := onCore_of_coreUp hup _

end Commands

/-! Time passes (R158, R420). -/

section Time

variable (s : State) (due : Nat)

/-- Time changes no register of the transaction engine or of the sessions' configuration. -/
theorem State.atDeadline_rd_of_host {r : Reg} (hr : r.ofHost) : (s.atDeadline due).rd r = s.rd r := by
  unfold Reg.ofHost at hr
  exact s.atDeadline_rd due (by simp only [K.times.UNSYNC_SECONDS]; omega) (by simp only [K.trks.PHASE_STEP_COUNT]; omega)

theorem State.onlyChanges_atDeadline : OnlyChanges timeParts s (s.atDeadline due) := onlyChanges_passTo s due

theorem State.txn?_atDeadline (k : Nat) : (s.atDeadline due).txn? k = s.txn? k := State.txn?_congr (s.atDeadline_txn due) k

theorem State.leg?_atDeadline (k j : Nat) : (s.atDeadline due).leg? k j = s.leg? k j := State.leg?_congr (s.atDeadline_txn due) k j

variable {s} {k j : Nat} {x : Txn} {l : Leg}

theorem SoleLeg.atDeadline (h : SoleLeg k j x l s) : SoleLeg k j x l (s.atDeadline due) := by
  obtain ⟨hx, hj, hlegs, hmany, hopen', hopen, hmoved, hk, hpri, hsession, hqueue⟩ := h
  exact ⟨(s.txn?_atDeadline due k).trans hx, hj, hlegs, hmany, hopen', hopen, hmoved, hk, hpri, hsession,
    by rwa [s.atDeadline_mac due]⟩

end Time

/-! The end of a sole leg at a deadline (R288). -/

/-- From `s` to `t` time has passed to tick `due` and the one leg of transaction `k` has ended with outcome `o` and cause `c`. -/
structure LegEndsAt (due k : Nat) (x : Txn) (l : Leg) (o c : Nat) (s t : State) : Prop where
  now : t.now = max s.now due
  outcome : Counted (K.outc.OUTCOME x.pri o) s t
  cause : Counted (K.caus.CAUSE x.pri (c - 1)) s t
  ends : EndsWith k l o c t
  parts : OnlyChanges (timeParts ++ [.bh, .txn]) s t

theorem SoleLeg.ends_at {s : State} {k j o c : Nat} {x : Txn} {l : Leg} (hsole : SoleLeg k j x l s) (hset : SessionsSet s) (ho : o < 16)
    (hc : c ≠ 0) (hc' : c < 16) (due : Nat) :
    LegEndsAt due k x l o c s (((s.atDeadline due).withdrawLeg k j).endLeg k j o c) := by
  have hsole' := hsole.atDeadline due
  obtain ⟨houtcome, hcause, hends, hparts, -⟩ := hsole'.ends ((NbAs.atDeadline s due).sessionsSet hset) ho hc hc'
  obtain ⟨-, -, -, -, -, -, -, -, hpri, -, hqueue⟩ := hsole'
  rw [State.withdrawLeg_of_none hqueue]
  exact {
    now := Eq.trans (hparts .now (by simp)) (s.atDeadline_now due)
    outcome := houtcome.of_rd_eq (s.atDeadline_rd_of_host due (by simp only [Reg.ofHost, K.outc.OUTCOME]; omega))
    cause := hcause.of_rd_eq (s.atDeadline_rd_of_host due (by simp only [Reg.ofHost, K.caus.CAUSE]; omega))
    ends := hends
    parts := ((s.onlyChanges_atDeadline due).trans hparts).mono (by simp [timeParts]) }

section Idle

variable {s : State} {k j : Nat} {l : Leg}

theorem State.legDeadline_of_none (h : s.leg? k j = none) : s.legDeadline k j = s := by
  rw [State.legDeadline, h]
  cases s.txn? k <;> rfl

theorem State.respWaitExpiry_of_none (h : s.leg? k j = none) : s.respWaitExpiry k j = s := by
  rw [State.respWaitExpiry, h]

theorem State.legDeadline_of_over (hl : s.leg? k j = some l) (h : l.open' = false ∨ l.movedTo.isSome = true) : s.legDeadline k j = s := by
  rw [State.legDeadline, hl]
  cases s.txn? k with
  | none => rfl
  | some x => exact if_pos (by rcases h with h | h <;> simp [h])

theorem State.respWaitExpiry_of_unarmed (hl : s.leg? k j = some l) (h : l.respDue = none ∨ l.open' = false) : s.respWaitExpiry k j = s := by
  rw [State.respWaitExpiry, hl]
  dsimp only
  split
  next at' hdue => exact if_neg (by rcases h with h | h <;> simp_all)
  · rfl

end Idle

/-! Judging an entry again (R279): nothing of it stands in the transaction engine. -/

section Judged

variable (s : State) (f : TxnEngine → TxnEngine)

theorem State.aimWake_modTxn (e : Ep) (start first : Nat) (free : Nat → Nat → Bool) (n d : Nat) :
    (s.modTxn f).aimWake e start first free n d = s.aimWake e start first free n d := by
  induction n generalizing d with
  | zero => rfl
  | succ n ih =>
    simp only [State.aimWake, ih]
    rfl

theorem State.entryVerdict_modTxn (i pri : Nat) : (s.modTxn f).entryVerdict i pri = s.entryVerdict i pri := by
  have hwake : (s.modTxn f).wakeWithin i = s.wakeWithin i := by
    simp only [State.wakeWithin, State.wakeForm, State.aimWake_modTxn]
    rfl
  unfold State.entryVerdict State.epVerdict
  rw [hwake]
  rfl

end Judged

/-! The request fragments of a leg are queued (R284, R288). -/

section Fragments

theorem State.leg?_modLeg {s : State} {k j : Nat} {l : Leg} (hl : s.leg? k j = some l) (f : Leg → Leg) :
    (s.modLeg k j f).leg? k j = some (f l) := by
  obtain ⟨x, hx, hxl⟩ := Option.bind_eq_some_iff.1 hl
  have hxl' : x.legs[j]? = some l := hxl
  rw [State.leg?_of_txn (State.txn?_modLeg hx j f), List.getElem?_modify_eq, hxl']
  rfl

/-- From `s` to `t` the device has queued `n` MPDUs. -/
structure Queues (n : Nat) (s t : State) : Prop where
  length : t.mac.queue.length = s.mac.queue.length + n
  parts : OnlyChanges [.mac, .line] s t

theorem Queues.toEntry (s : State) (i type pri : Nat) (kind : DownKind) (body : List Byte) (lane : Bool) :
    Queues 1 s (s.toEntry i type pri kind body lane) where
  length := by
    rw [State.toEntry, State.callWake_onlyChanges _ i pri .mac (by simp)]
    exact List.length_append
  parts := (onlyChanges_modMac s _).trans (State.callWake_onlyChanges _ i pri)

theorem Queues.foldl {α : Type} {g : State → α → State} (h : ∀ u q, Queues 1 u (g u q)) (qs : List α) (s : State) :
    Queues qs.length s (qs.foldl g s) := by
  induction qs generalizing s with
  | nil => exact ⟨rfl, (OnlyChanges.refl s).mono (by simp)⟩
  | cons q qs ih =>
    obtain ⟨hlength, hparts⟩ := h s q
    obtain ⟨hrest, hparts'⟩ := ih (g s q)
    exact ⟨by rw [List.foldl_cons, hrest, hlength, List.length_cons]; omega, hparts.chain hparts'⟩

/-- The leg is on the line. -/
def Leg.sending (l : Leg) : Leg := { l with phase := .active, respDue := none }

/-- The request fragments of the leg that wait for their acknowledgement. -/
def Leg.unacked (l : Leg) : List Nat := (List.range l.frags).filter fun q => !l.acked.contains q

theorem Leg.unacked_of_none {l : Leg} (h : l.acked = []) : l.unacked.length = l.frags := by
  simp [Leg.unacked, h]

variable {s : State} {k j i : Nat} {l : Leg} (hl : s.leg? k j = some l) (hi : l.entry = some i)

include hl hi

/-- A leg on the line has its unacknowledged fragments queued. -/
theorem State.sendFragments_queues : Queues l.unacked.length (s.modLeg k j Leg.sending) (s.sendFragments k j) := by
  obtain ⟨x, hx, -⟩ := Option.bind_eq_some_iff.1 hl
  have hfold : ∃ g : State → Nat → State, (∀ u q, Queues 1 u (g u q)) ∧
      s.sendFragments k j = l.unacked.foldl g (s.modLeg k j Leg.sending) := by
    rw [State.sendFragments, hx, hl]
    dsimp only
    rw [hi]
    refine ⟨_, ?_, rfl⟩
    exact fun u q => Queues.toEntry u i 1 x.pri _ _ _
  obtain ⟨g, hg, heq⟩ := hfold
  rw [heq]
  exact Queues.foldl hg _ _

end Fragments

/-! The end of the wait for a response (R288). -/

/-- A leg at the start of its next try: every fragment is to be sent again. -/
def Leg.nextTry (l : Leg) : Leg := { l with attempts := l.attempts + 1, respDue := none, acked := [] }

section Expiry

variable {s : State} {k j due : Nat} {x : Txn} {l : Leg} (haborting : x.aborting = false) (hsole : SoleLeg k j x l s)
  (hdue : l.respDue = some due)

include hsole

theorem State.legDeadline_of_sole :
    s.legDeadline k j = ((s.atDeadline x.deadline).withdrawLeg k j).endLeg k j outTimedOut l.unanswered := by
  have hl := hsole.leg?
  obtain ⟨hx, -, -, -, -, hopen, hmoved, -⟩ := hsole
  rw [State.legDeadline, hx, hl]
  exact if_neg (by simp [hopen, hmoved])

include haborting hdue

theorem State.respWaitExpiry_of_last (hlast : l.attempts = l.retries) :
    s.respWaitExpiry k j = ((s.atDeadline due).withdrawLeg k j).endLeg k j outAbandoned causeNoResponse := by
  have hl := hsole.leg?
  obtain ⟨hx, -, -, -, -, hopen, -⟩ := hsole
  rw [State.respWaitExpiry, hl]
  dsimp only
  rw [hdue]
  dsimp only
  rw [if_pos hopen, State.endTry, State.txn?_atDeadline, hx, State.leg?_atDeadline, hl]
  dsimp only
  rw [if_neg (by simp [hopen, haborting]), if_pos hlast]

theorem State.respWaitExpiry_of_retry (hmore : l.attempts ≠ l.retries) {i : Nat} (hi : l.entry = some i)
    (hverdict : (s.atDeadline due).entryVerdict i x.pri = none) :
    s.respWaitExpiry k j = ((s.atDeadline due).modLeg k j Leg.nextTry).sendFragments k j := by
  have hl := hsole.leg?
  obtain ⟨-, -, -, -, -, -, -, -, -, -, hqueue⟩ := hsole.atDeadline due
  obtain ⟨hx, -, -, -, -, hopen, -⟩ := hsole
  rw [State.respWaitExpiry, hl]
  dsimp only
  rw [hdue]
  dsimp only
  rw [if_pos hopen, State.endTry, State.txn?_atDeadline, hx, State.leg?_atDeadline, hl]
  dsimp only
  rw [if_neg (by simp [hopen, haborting]), if_neg hmore, hi, State.withdrawLeg_of_none hqueue]
  dsimp only
  rw [State.modLeg, State.modTxnRec, State.entryVerdict_modTxn, hverdict]
  rfl

/-- A leg that is tried again has all its fragments queued. -/
theorem State.respWaitExpiry_retries (hmore : l.attempts ≠ l.retries) {i : Nat} (hi : l.entry = some i)
    (hverdict : (s.atDeadline due).entryVerdict i x.pri = none) :
    (s.respWaitExpiry k j).leg? k j = some l.nextTry.sending ∧
      (s.respWaitExpiry k j).mac.queue.length = s.mac.queue.length + l.frags ∧
      OnlyChanges (timeParts ++ [.txn, .mac, .line]) s (s.respWaitExpiry k j) := by
  have hl : (s.atDeadline due).leg? k j = some l := (s.leg?_atDeadline due k j).trans hsole.leg?
  have hnext := State.leg?_modLeg hl Leg.nextTry
  obtain ⟨hlength, hparts⟩ := State.sendFragments_queues hnext hi
  rw [State.respWaitExpiry_of_retry haborting hsole hdue hmore hi hverdict]
  refine ⟨(State.leg?_congr (hparts .txn (by simp)) k j).trans (State.leg?_modLeg hnext Leg.sending), ?_, ?_⟩
  · rw [Leg.unacked_of_none (l := l.nextTry) rfl] at hlength
    exact hlength.trans (by rw [← s.atDeadline_mac due]; rfl)
  · exact ((((s.onlyChanges_atDeadline due).trans (onlyChanges_modTxnRec _ k _)).trans (onlyChanges_modTxnRec _ k _)).trans hparts).mono
      (by simp [timeParts])

end Expiry

section Commands

variable {s : State} {k j : Nat} {x : Txn} {l : Leg} (hup : s.coreUp 5 = true) (hset : SessionsSet s) (hsole : SoleLeg k j x l s)

include hup hset hsole

theorem exec_legDeadline_sole :
    ∃ t, exec (.legDeadline k j) s = .next t ∧ t.now = max s.now x.deadline ∧ Counted (K.outc.OUTCOME x.pri 4) s t ∧
      Counted (K.caus.CAUSE x.pri (if l.delivered then 12 else 11)) s t ∧ EndsWith k l 4 (if l.delivered then 13 else 12) t ∧
      t.mac.queue = s.mac.queue ∧ OnlyChanges [.now, .free, .dict, .bh, .perf, .tracker, .tides, .txn, .mac, .line] s t := by
  obtain ⟨hnone, hlt, hcauseNo⟩ := l.unanswered_bounds
  obtain ⟨hnow, houtcome, hcause, hends, hparts⟩ := hsole.ends_at hset (o := outTimedOut) (by decide) hnone hlt x.deadline
  rw [hcauseNo] at hcause
  refine ⟨_, exec_legDeadline_of_coreUp hup k j, ?_⟩
  rw [State.legDeadline_of_sole hsole]
  exact ⟨hnow, houtcome, hcause, hends, congrArg Mac.queue (hparts .mac (by simp [timeParts])), (hparts.mono (by simp [timeParts])).keepQueue⟩

theorem exec_respWaitExpiry_last (haborting : x.aborting = false) {due : Nat} (hdue : l.respDue = some due) (hlast : l.attempts = l.retries) :
    ∃ t, exec (.respWaitExpiry k j) s = .next t ∧ t.now = max s.now due ∧ Counted (K.outc.OUTCOME x.pri 5) s t ∧
      Counted (K.caus.CAUSE x.pri 12) s t ∧ EndsWith k l 5 13 t ∧
      OnlyChanges [.now, .free, .dict, .bh, .perf, .tracker, .tides, .txn, .mac, .line] s t := by
  obtain ⟨hnow, houtcome, hcause, hends, hparts⟩ :=
    hsole.ends_at hset (o := outAbandoned) (c := causeNoResponse) (by decide) (by decide) (by decide) due
  refine ⟨_, exec_respWaitExpiry_of_coreUp hup k j, ?_⟩
  rw [State.respWaitExpiry_of_last haborting hsole hdue hlast]
  exact ⟨hnow, houtcome, hcause, hends, (hparts.mono (by simp [timeParts])).keepQueue⟩

omit hset

theorem exec_respWaitExpiry_retry (haborting : x.aborting = false) {due i : Nat} (hdue : l.respDue = some due)
    (hmore : l.attempts ≠ l.retries) (hi : l.entry = some i) (hverdict : (s.atDeadline due).entryVerdict i x.pri = none) :
    ∃ t, exec (.respWaitExpiry k j) s = .next t ∧
      t.leg? k j = some { l with phase := .active, attempts := l.attempts + 1, respDue := none, acked := [] } ∧
      t.mac.queue.length = s.mac.queue.length + l.frags ∧
      OnlyChanges [.now, .free, .dict, .perf, .tracker, .tides, .txn, .mac, .line] s t := by
  obtain ⟨hleg, hlength, hparts⟩ := State.respWaitExpiry_retries haborting hsole hdue hmore hi hverdict
  exact ⟨_, exec_respWaitExpiry_of_coreUp hup k j, hleg, hlength, (hparts.mono (by simp [timeParts])).keepQueue⟩

end Commands

end Sys2Proof.Machine

end

section
/-! PROOF. O60, the release of legs and bridged downlinks that wait for tokens (R252, R281). -/

namespace Sys2Proof.Machine

theorem exec_legQuotaRelease_of_coreUp {s : State} (hup : s.coreUp 5 = true) (c : Nat) : exec (.legQuotaRelease c) s =
    .next ((if 1 ≤ c && c ≤ 3 then s.quotaRelease c else s).modPending fun _ => s.pending) := onCore_of_coreUp hup _

/-! Tokens (R281). -/

section Tokens

variable (s : State) {c : Nat} (hlo : 1 ≤ c) (hhi : c ≤ 3) (n : Nat)

include hlo hhi

/-- The bucket of class `c` is brought up to now and pays for `n` fragments; what waits and what is recorded stays. -/
theorem State.takeTokens_pays : Tbl.atD (s.takeTokens c n).txn.tokens c 0 = s.tokensNow c - n * 409600000 ∧
    (s.takeTokens c n).txn = { s.txn with tokens := (s.takeTokens c n).txn.tokens, tokensAt := s.now } := by
  rw [State.takeTokens, if_neg (by omega)]
  have hfull : Tbl.at? s.refill.txn.tokens c = some (s.tokensNow c) := by
    obtain rfl | rfl | rfl : c = 1 ∨ c = 2 ∨ c = 3 := by omega
    · rfl
    · rfl
    · rfl
  exact ⟨by rw [State.modTxn_txn, Tbl.atD, Tbl.at?_upd_self hfull, Option.getD_some], rfl⟩

omit hlo hhi

theorem State.takeTokens_onlyChanges (c : Nat) : OnlyChanges [.txn] s (s.takeTokens c n) := by
  unfold State.takeTokens
  split
  · exact (OnlyChanges.refl s).mono (by simp)
  · exact (onlyChanges_modTxn s _).chain (onlyChanges_modTxn _ _)

end Tokens

/-! A class in which no leg waits (R252). -/

section Bridged

variable {s : State} {c : Nat} (hfree : ∀ w ∈ s.txn.waiting, (s.txn? w.1).map Txn.pri ≠ some c)

include hfree

theorem State.quotaRelease_of_noLeg : s.quotaRelease c = s.bridgeRelease c := by
  have hnone : (s.txn.waiting.find? fun w => ((s.txn? w.1).map (·.pri)) == some c) = none :=
    List.find?_eq_none.2 fun w hw => by simpa using hfree w hw
  rw [State.quotaRelease, hnone]

theorem State.quotaRelease_of_none (hbridged : s.bridgedWaiting c = []) : s.quotaRelease c = s := by
  rw [State.quotaRelease_of_noLeg hfree, State.bridgeRelease, hbridged]

theorem State.quotaRelease_of_bridged {d : Down} {rest : List Down} {i : Nat} (hbridged : s.bridgedWaiting c = d :: rest)
    (hi : d.entry = some i) (hverdict : (s.atDeadline (s.tokensDue c 1)).entryVerdict i c = none) :
    s.quotaRelease c = (s.atDeadline (s.tokensDue c 1)).startBridge d i := by
  rw [State.quotaRelease_of_noLeg hfree, State.bridgeRelease, hbridged]
  dsimp only
  rw [hi, Option.bind_some, hverdict]

end Bridged

theorem State.bridgedWaiting_pri {s : State} {c : Nat} {d : Down} {rest : List Down} (h : s.bridgedWaiting c = d :: rest) : d.pri = c := by
  have hmem : d ∈ s.bridgedWaiting c := h ▸ List.mem_cons_self
  have hd := (List.mem_filter.1 hmem).2
  simp only [Bool.and_eq_true, beq_iff_eq] at hd
  exact hd.1

/-- From `s` to `t` a bridged downlink of class `c` has gone on the line (R252, R281). -/
structure BridgeStarts (c : Nat) (d : Down) (s t : State) : Prop where
  queue : t.mac.queue = s.mac.queue.map fun x => if x.id = d.id then { x with held := none } else x
  tokens : Tbl.atD t.txn.tokens c 0 = s.tokensNow c - 409600000
  parts : OnlyChanges [.txn, .mac, .line] s t

theorem State.startBridge_starts (s : State) {c : Nat} (hlo : 1 ≤ c) (hhi : c ≤ 3) {d : Down} (hd : d.pri = c) (i : Nat) :
    BridgeStarts c d s (s.startBridge d i) := by
  subst hd
  have hpaid := s.takeTokens_onlyChanges 1 d.pri
  have hcall := State.callWake_onlyChanges ((s.takeTokens d.pri 1).modDown d.id fun x => { x with held := none }) i d.pri
  obtain ⟨htokens, -⟩ := s.takeTokens_pays hlo hhi 1
  exact {
    queue := (congrArg Mac.queue (hcall .mac (by simp))).trans (by rw [← hpaid .mac (by simp)]; rfl)
    tokens := (congrArg (fun e : TxnEngine => Tbl.atD e.tokens d.pri 0) (hcall .txn (by simp))).trans htokens
    parts := ((hpaid.trans (onlyChanges_modMac _ _)).trans hcall).mono (by simp) }

/-! A leg that waits first in its class (R281). -/

section Waiting

variable {s : State} {k j c : Nat} {x : Txn} {l : Leg} {rest : List (Nat × Nat)}

/-- Leg `j` of transaction `k` waits for tokens no more. -/
def State.unwaited (s : State) (k j : Nat) : State :=
  (s.modTxn fun e => { e with waiting := e.waiting.filter fun w => w ≠ (k, j) }).modLeg k j fun l => { l with waits := false }

theorem State.quotaRelease_of_leg {i : Nat} (hwaiting : s.txn.waiting = (k, j) :: rest) (hx : s.txn? k = some x) (hc : x.pri = c)
    (hl : s.leg? k j = some l) (hi : l.entry = some i) (hquota : l.left ≤ s.rd (K.cls.QUOTA c))
    (hverdict : (s.atDeadline (s.tokensDue c l.left)).entryVerdict i c = none) : s.quotaRelease c =
      (((s.atDeadline (s.tokensDue c l.left)).unwaited k j).takeTokens c l.left).sendFragments k j := by
  have hfind : (s.txn.waiting.find? fun w => ((s.txn? w.1).map (·.pri)) == some c) = some (k, j) := by
    rw [hwaiting]
    exact List.find?_cons_of_pos (by simp [hx, hc])
  rw [State.quotaRelease, hfind]
  dsimp only
  rw [hl]
  dsimp only
  rw [if_neg (by omega), hi, Option.bind_some, State.modLeg, State.modTxnRec, State.entryVerdict_modTxn, State.entryVerdict_modTxn, hverdict]
  rfl

theorem State.unwaited_waiting (hwaiting : s.txn.waiting = (k, j) :: rest) (hrest : (k, j) ∉ rest) : (s.unwaited k j).txn.waiting = rest := by
  have hfilter : (s.txn.waiting.filter fun w => w ≠ (k, j)) = rest := by
    rw [hwaiting, List.filter_cons_of_neg (by simp)]
    exact List.filter_eq_self.2 fun w hw => by simpa using fun h : w = (k, j) => hrest (h ▸ hw)
  exact hfilter

theorem State.leg?_unwaited (hl : s.leg? k j = some l) : (s.unwaited k j).leg? k j = some { l with waits := false } :=
  State.leg?_modLeg (s := s.modTxn fun e => { e with waiting := e.waiting.filter fun w => w ≠ (k, j) }) hl _

theorem State.tokensNow_atDeadline (hc : c ≤ 3) (due : Nat) : (s.atDeadline due).tokensNow c = min (s.rd (K.cls.QUOTA c) * 409600000)
    (Tbl.atD s.txn.tokens c 0 + s.rd (K.cls.QUOTA c) * ((s.atDeadline due).now - s.txn.tokensAt)) := by
  rw [State.tokensNow, s.atDeadline_rd_of_host due (by simp only [Reg.ofHost, K.cls.QUOTA]; omega), s.atDeadline_txn due]

/-- From `s` to `t` leg `j` of transaction `k`, which waited first in class `c`, has taken its tokens and gone on the line. -/
structure LegStarts (k j c : Nat) (l : Leg) (rest : List (Nat × Nat)) (s t : State) : Prop where
  waiting : t.txn.waiting = rest
  phase : (t.leg? k j).map (·.phase) = some .active
  time : t.txn.tokensAt = s.now
  tokens : Tbl.atD t.txn.tokens c 0 = s.tokensNow c - l.left * 409600000
  parts : OnlyChanges [.txn, .mac, .line] s t

theorem State.startWaiting_starts (hlo : 1 ≤ c) (hhi : c ≤ 3) {i : Nat} (hwaiting : s.txn.waiting = (k, j) :: rest) (hrest : (k, j) ∉ rest)
    (hl : s.leg? k j = some l) (hi : l.entry = some i) :
    LegStarts k j c l rest s (((s.unwaited k j).takeTokens c l.left).sendFragments k j) := by
  obtain ⟨htokens, htxn⟩ := (s.unwaited k j).takeTokens_pays hlo hhi l.left
  have hleg : ((s.unwaited k j).takeTokens c l.left).leg? k j = some { l with waits := false } := by
    rw [State.leg?, State.txn?, htxn]
    exact State.leg?_unwaited hl
  have hpaid := (s.unwaited k j).takeTokens_onlyChanges l.left c
  generalize (s.unwaited k j).takeTokens c l.left = u at *
  obtain ⟨-, hparts⟩ := State.sendFragments_queues hleg hi
  have hsent : (u.sendFragments k j).txn = (u.modLeg k j Leg.sending).txn := hparts .txn (by simp)
  have hunwaited : OnlyChanges [.txn] s (s.unwaited k j) := (onlyChanges_modTxn s _).chain (onlyChanges_modTxnRec _ k _)
  exact {
    waiting := by
      rw [hsent]
      exact (congrArg TxnEngine.waiting htxn).trans (State.unwaited_waiting hwaiting hrest)
    phase := by
      rw [State.leg?_congr hsent, State.leg?_modLeg hleg]
      rfl
    time := by
      rw [hsent]
      exact congrArg TxnEngine.tokensAt htxn
    tokens := by
      rw [hsent]
      exact htokens
    parts := (((hunwaited.trans hpaid).trans (onlyChanges_modTxnRec u k _)).trans hparts).mono (by simp) }

end Waiting

section Commands

variable {s : State} {c : Nat} (hup : s.coreUp 5 = true)

include hup

theorem exec_legQuotaRelease_idle
    (h : c = 0 ∨ 4 ≤ c ∨ s.bridgedWaiting c = [] ∧ ∀ w ∈ s.txn.waiting, (s.txn? w.1).map Txn.pri ≠ some c) :
    exec (.legQuotaRelease c) s = .next s := by
  refine exec_unchanged (exec_legQuotaRelease_of_coreUp hup c) ?_
  split
  next hc =>
    simp only [Bool.and_eq_true, decide_eq_true_eq] at hc
    obtain h | h | ⟨hbridged, hfree⟩ := h
    · omega
    · omega
    · exact State.quotaRelease_of_none hfree hbridged
  · rfl

variable (hlo : 1 ≤ c) (hhi : c ≤ 3)

include hlo hhi

theorem exec_legQuotaRelease_class :
    exec (.legQuotaRelease c) s = .next ((s.quotaRelease c).modPending fun _ => s.pending) := by
  rw [exec_legQuotaRelease_of_coreUp hup, if_pos (by simp [hlo, hhi])]

theorem exec_legQuotaRelease_bridged {d : Down} {rest : List Down} {i : Nat}
    (hfree : ∀ w ∈ s.txn.waiting, (s.txn? w.1).map Txn.pri ≠ some c) (hbridged : s.bridgedWaiting c = d :: rest) (hi : d.entry = some i)
    (hverdict : (s.atDeadline (s.tokensDue c 1)).entryVerdict i c = none) :
    ∃ t, exec (.legQuotaRelease c) s = .next t ∧ t.now = (s.atDeadline (s.tokensDue c 1)).now ∧
      t.mac.queue.length = s.mac.queue.length ∧ (∀ x ∈ t.mac.queue, x.id = d.id → x.held = none) ∧
      (∀ x ∈ s.mac.queue, x.id ≠ d.id → x ∈ t.mac.queue) ∧
      Tbl.atD t.txn.tokens c 0 = (s.atDeadline (s.tokensDue c 1)).tokensNow c - 409600000 ∧
      OnlyChanges [.now, .free, .dict, .perf, .tracker, .tides, .txn, .mac, .line] s t := by
  refine ⟨_, exec_legQuotaRelease_class hup hlo hhi, ?_⟩
  rw [State.quotaRelease_of_bridged hfree hbridged hi hverdict]
  obtain ⟨hqueue, htokens, hparts⟩ :=
    (s.atDeadline (s.tokensDue c 1)).startBridge_starts hlo hhi (State.bridgedWaiting_pri hbridged) i
  have hall := (s.onlyChanges_atDeadline (s.tokensDue c 1)).trans hparts
  rw [s.atDeadline_mac] at hqueue
  generalize (s.atDeadline (s.tokensDue c 1)).startBridge d i = t at *
  refine ⟨hparts .now (by simp), (congrArg List.length hqueue).trans (List.length_map _), fun x hx hid => ?_, fun x hx hne => ?_, htokens,
    (hall.mono (by simp [timeParts])).keepQueue⟩
  · rw [State.modPending_mac, hqueue] at hx
    obtain ⟨y, -, rfl⟩ := List.mem_map.1 hx
    by_cases hy : y.id = d.id
    · rw [if_pos hy]
    · exact absurd (by rwa [if_neg hy] at hid) hy
  · rw [State.modPending_mac, hqueue]
    exact List.mem_map.2 ⟨x, hx, if_neg hne⟩

theorem exec_legQuotaRelease_leg {k j i due : Nat} {x : Txn} {l : Leg} {rest : List (Nat × Nat)} (hwaiting : s.txn.waiting = (k, j) :: rest)
    (hx : s.txn? k = some x) (hc : x.pri = c) (hl : s.leg? k j = some l) (hi : l.entry = some i) (hquota : l.left ≤ s.rd (K.cls.QUOTA c))
    (hrest : (k, j) ∉ rest) (hdue : due = s.tokensDue c l.left) (hverdict : (s.atDeadline due).entryVerdict i c = none) :
    ∃ t, exec (.legQuotaRelease c) s = .next t ∧ t.now = max s.now due ∧ t.txn.waiting = rest ∧
      (t.leg? k j).map (·.phase) = some .active ∧ t.txn.tokensAt = t.now ∧
      Tbl.atD t.txn.tokens c 0 = min (s.rd (K.cls.QUOTA c) * 409600000)
        (Tbl.atD s.txn.tokens c 0 + s.rd (K.cls.QUOTA c) * (t.now - s.txn.tokensAt)) - l.left * 409600000 ∧
      OnlyChanges [.now, .free, .dict, .perf, .tracker, .tides, .txn, .mac, .line] s t := by
  subst hdue
  refine ⟨_, exec_legQuotaRelease_class hup hlo hhi, ?_⟩
  rw [State.quotaRelease_of_leg hwaiting hx hc hl hi hquota hverdict]
  have hwaiting' : (s.atDeadline (s.tokensDue c l.left)).txn.waiting = (k, j) :: rest := by rwa [s.atDeadline_txn]
  have hl' := (s.leg?_atDeadline (s.tokensDue c l.left) k j).trans hl
  obtain ⟨hrested, hphase, htime, htokens, hparts⟩ := State.startWaiting_starts hlo hhi hwaiting' hrest hl' hi
  have hnow := hparts .now (by simp)
  have hall := (s.onlyChanges_atDeadline (s.tokensDue c l.left)).trans hparts
  rw [State.tokensNow_atDeadline hhi] at htokens
  refine ⟨Eq.trans hnow (s.atDeadline_now _), hrested, hphase, htime.trans hnow.symm, ?_, (hall.mono (by simp [timeParts])).keepQueue⟩
  rw [State.modPending_now, hnow]
  exact htokens

end Commands

end Sys2Proof.Machine

end

section
/-! PROOF. O60, the open RESPONSE and the cached record of a transaction (R290, R291). -/

namespace Sys2Proof.Machine

section Commands

variable {s : State} (hup : s.coreUp 5 = true)

include hup

theorem exec_aggTimeExpiry_of_coreUp (k : Nat) : exec (.aggTimeExpiry k) s = .next ((s.aggExpiry k).modPending fun _ => s.pending) :=
  onCore_of_coreUp hup _

theorem exec_cacheTimeExpiry_of_coreUp (k : Nat) : exec (.cacheTimeExpiry k) s = .next ((s.cacheExpiry k).modPending fun _ => s.pending) :=
  onCore_of_coreUp hup _

end Commands

/-! The open RESPONSE (R290). -/

section Flush

/-- The RESPONSE that carries the open records of transaction `k` before its last (R271, R290). -/
def Txn.openMessage (x : Txn) (k : Nat) : List Byte := nbHeader 4 x.pri false k x.nSent x.open_.flatten.length ++ x.open_.flatten

/-- The transaction once its open records are sent. -/
def Txn.flushed (x : Txn) (k : Nat) : Txn :=
  { x with open_ := [], openSince := none, sent := x.sent ++ [x.openMessage k], nSent := x.nSent + 1 }

/-- The record of transaction `k` once its open records are sent. -/
def State.recordFlushed (s : State) (k : Nat) (x : Txn) : State :=
  (s.modTxnRec k fun y => { y with open_ := [], openSince := none }).modTxnRec k fun y =>
    { y with sent := y.sent ++ [x.openMessage k], nSent := y.nSent + 1 }

/-- From `s` to `t` transaction `k` has sent its open records. -/
structure Flushes (k : Nat) (x : Txn) (s t : State) : Prop where
  record : t.txn? k = some (x.flushed k)
  others : OnlyKeys [k] s.txn.txns t.txn.txns
  sends : NbSends x.session x.pri (x.openMessage k) s t
  parts : OnlyChanges [.dict, .bh, .perf, .txn] s t

theorem Flushes.keepsQueue {s t : State} {k : Nat} {x : Txn} (h : Flushes k x s t) (f : List Instr → List Instr) :
    (t.modPending f).txn? k = some (x.flushed k) ∧ OnlyKeys [k] s.txn.txns (t.modPending f).txn.txns ∧
      NbSends x.session x.pri (x.openMessage k) s (t.modPending f) := ⟨h.record, h.others, h.sends.later rfl rfl⟩

variable {s : State} {k : Nat} {x : Txn} (hx : s.txn? k = some x)

theorem State.recordFlushed_onlyChanges (s : State) (k : Nat) (x : Txn) : OnlyChanges [.txn] s (s.recordFlushed k x) :=
  (onlyChanges_modTxnRec s k _).chain (onlyChanges_modTxnRec _ k _)

theorem State.recordFlushed_onlyKeys (s : State) (k : Nat) (x : Txn) : OnlyKeys [k] s.txn.txns (s.recordFlushed k x).txn.txns := fun i hi =>
  (onlyKeys_modTxnRec _ k _ i hi).trans (onlyKeys_modTxnRec s k _ i hi)

include hx

theorem State.txn?_recordFlushed : (s.recordFlushed k x).txn? k = some (x.flushed k) :=
  State.txn?_modTxnRec_self (State.txn?_modTxnRec_self hx _) _

theorem State.flushOpen_of_own (hk : k < 2 ^ 32) (hopen : x.open_ ≠ []) : s.flushOpen k false =
    (s.recordFlushed k x).nbOut x.session x.pri (x.openMessage k) := by
  rw [State.flushOpen, hx]
  dsimp only
  rw [if_neg (by simp [hopen]), State.txnSend, State.txn?_modTxnRec_self hx]
  dsimp only
  rw [State.txnEmit, servedFor_of_own hk, Nat.mod_eq_of_lt hk]
  rfl

theorem State.flushOpen_flushes (hk : k < 2 ^ 32) (hset : SessionsSet s) (hsession : x.session < 16) (hopen : x.open_ ≠ []) :
    Flushes k x s (s.flushOpen k false) := by
  have hkept := State.txn?_recordFlushed hx
  have hrecord := s.recordFlushed_onlyChanges k x
  have hothers := s.recordFlushed_onlyKeys k x
  rw [State.flushOpen_of_own hx hk hopen]
  generalize s.recordFlushed k x = u at *
  have hout := State.nbOut_onlyChanges u x.session x.pri (x.openMessage k)
  have has : NbAs s u := NbAs.of_parts hrecord (by simp)
  have hsame : (u.nbOut x.session x.pri (x.openMessage k)).txn = u.txn := hout .txn (by simp)
  exact {
    record := (State.txn?_congr hsame k).trans hkept
    others := hsame ▸ hothers
    sends := has.nbSends hset hsession (State.nbOut_sends x.pri (x.openMessage k) (has.sessionsSet hset) hsession)
    parts := (hrecord.trans hout).mono (by simp) }

end Flush

section Deadlines

variable {s : State} {k due : Nat}

theorem State.aggExpiry_of_unarmed (h : (s.txn? k).bind Txn.openSince = none) : s.aggExpiry k = s := by
  rw [State.aggExpiry]
  cases hx : s.txn? k with
  | none => rfl
  | some x =>
    have hsince : x.openSince = none := by rwa [hx] at h
    dsimp only
    rw [hsince]

theorem State.aggExpiry_of_armed {x : Txn} (hx : s.txn? k = some x) (hsince : x.openSince = some due) :
    s.aggExpiry k = (s.atDeadline (due + msTicks x.aggTime)).flushOpen k false := by
  rw [State.aggExpiry, hx]
  dsimp only
  rw [hsince]

theorem State.cacheExpiry_of_unarmed (h : (s.txn? k).bind Txn.cachedTo = none) : s.cacheExpiry k = s := by
  rw [State.cacheExpiry, h]

theorem State.cacheExpiry_of_armed (h : (s.txn? k).bind Txn.cachedTo = some due) :
    s.cacheExpiry k = (s.atDeadline due).modTxn fun e => { e with txns := Tbl.del e.txns k } := by
  rw [State.cacheExpiry, h]

end Deadlines

section Expiry

variable {s : State} {k : Nat} (hup : s.coreUp 5 = true)

include hup

theorem exec_aggTimeExpiry_armed (hset : SessionsSet s) {x : Txn} {due : Nat} (hk : k < 2 ^ 32) (hsession : x.session < 16)
    (hx : s.txn? k = some x) (hsince : x.openSince = some due) (hopen : x.open_ ≠ []) :
    ∃ t msg, exec (.aggTimeExpiry k) s = .next t ∧ t.now = (s.atDeadline (due + msTicks x.aggTime)).now ∧
      msg = nbHeader 4 x.pri false k x.nSent x.open_.flatten.length ++ x.open_.flatten ∧
      t.txn? k = some { x with open_ := [], openSince := none, sent := x.sent ++ [msg], nSent := x.nSent + 1 } ∧
      OnlyKeys [k] s.txn.txns t.txn.txns ∧ NbSends x.session x.pri msg (s.atDeadline (due + msTicks x.aggTime)) t ∧
      OnlyChanges [.now, .free, .dict, .bh, .perf, .tracker, .tides, .txn] s t := by
  refine ⟨_, x.openMessage k, exec_aggTimeExpiry_of_coreUp hup k, ?_⟩
  rw [State.aggExpiry_of_armed hx hsince]
  have hset' := (NbAs.atDeadline s (due + msTicks x.aggTime)).sessionsSet hset
  have hflushes := State.flushOpen_flushes ((s.txn?_atDeadline (due + msTicks x.aggTime) k).trans hx) hk hset' hsession hopen
  obtain ⟨hrecord, hothers, hsends⟩ := hflushes.keepsQueue fun _ => s.pending
  have hparts := hflushes.parts
  rw [s.atDeadline_txn] at hothers
  exact ⟨(State.modPending_now _ _).trans (hparts .now (by simp)), rfl, hrecord, hothers, hsends,
    (((s.onlyChanges_atDeadline _).trans hparts).mono (by simp [timeParts])).keepQueue⟩

theorem exec_cacheTimeExpiry_armed {due : Nat} (h : (s.txn? k).bind Txn.cachedTo = some due) :
    ∃ t, exec (.cacheTimeExpiry k) s = .next t ∧ t.now = max s.now due ∧ t.txn? k = none ∧ OnlyKeys [k] s.txn.txns t.txn.txns ∧
      t.txn = { s.txn with txns := t.txn.txns } ∧ OnlyChanges [.now, .free, .dict, .perf, .tracker, .tides, .txn] s t := by
  refine ⟨_, exec_cacheTimeExpiry_of_coreUp hup k, ?_⟩
  rw [State.cacheExpiry_of_armed h]
  have htxn : ((s.atDeadline due).modTxn fun e => { e with txns := Tbl.del e.txns k }).txn =
      { s.txn with txns := Tbl.del s.txn.txns k } := by rw [State.modTxn_txn, s.atDeadline_txn]
  have hparts := (s.onlyChanges_atDeadline due).trans (onlyChanges_modTxn _ fun e => { e with txns := Tbl.del e.txns k })
  generalize hu : (s.atDeadline due).modTxn (fun e => { e with txns := Tbl.del e.txns k }) = u at *
  have hnow : u.now = max s.now due := by
    rw [← hu]
    exact s.atDeadline_now due
  refine ⟨hnow, ?_, fun i hi => ?_, ?_, (hparts.mono (by simp [timeParts])).keepQueue⟩
  · rw [State.txn?, State.modPending_txn, htxn]
    exact Tbl.at?_del_self _ k
  · rw [State.modPending_txn, htxn]
    exact Tbl.at?_del_ne _ (by simpa using hi)
  · rw [State.modPending_txn, htxn]

end Expiry

end Sys2Proof.Machine

end

section
/-! PROOF. O60, reports: the word of an alarm leaves its queue, and a REPORT goes to every session that takes reports, or is counted unsent
(R269, R277, R365, R366, R398, R412). -/

namespace Sys2Proof.Machine

theorem onlyChanges_modSvc (s : State) (f : Svc → Svc) : OnlyChanges [.svc] s (s.modSvc f) := by
  intro p hp
  cases p <;> simp_all [Part.Same]

/-! A hardware queue by itself (R364 to R368). -/

/-- From `s` to `t` words of queue `q` have come and gone: only the queues change, the counters of `q` and the cores' events. -/
structure QueueMoves (q : Nat) (s t : State) : Prop where
  parts : OnlyChanges [.dict, .svc, .perf] s t
  rd : ∀ r : Reg, r.key < (0x6100 + q) * 256 ∨ (0x6100 + q) * 256 + 256 ≤ r.key → t.rd r = s.rd r

section Queue

variable {s t u : State} (q : Nat)

theorem QueueMoves.refl (s : State) : QueueMoves q s s := ⟨(OnlyChanges.refl s).mono (by simp), fun _ _ => rfl⟩

variable {q}

theorem QueueMoves.trans (h : QueueMoves q s t) (h' : QueueMoves q t u) : QueueMoves q s u :=
  ⟨h.parts.chain h'.parts, fun r hr => (h'.rd r hr).trans (h.rd r hr)⟩

variable (s q)

theorem QueueMoves.modQueue (i : Nat) (f : HwQueue → HwQueue) : QueueMoves q s (s.modQueue i f) :=
  ⟨(onlyChanges_modSvc s _).mono (by simp), fun _ _ => rfl⟩

theorem QueueMoves.event (b code : Nat) (c : Option Nat) (n : Nat) : QueueMoves q s (s.events b code c n) :=
  ⟨(onlyChanges_events s b code c n).mono (by simp), fun r _ => State.rd_congr (onlyChanges_events s b code c n .dict (by simp)) r⟩

variable {q}

theorem QueueMoves.wr {r : Reg} (v : Nat) (hr : (0x6100 + q) * 256 ≤ r.key ∧ r.key < (0x6100 + q) * 256 + 256) : QueueMoves q s (s.wr r v) :=
  ⟨(onlyChanges_wr s r v).mono (by simp), fun _ hk => State.rd_wr_ne s v (by omega)⟩

theorem QueueMoves.bump {r : Reg} (hr : (0x6100 + q) * 256 ≤ r.key ∧ r.key < (0x6100 + q) * 256 + 256) : QueueMoves q s (s.bump r) :=
  QueueMoves.wr s _ hr

theorem QueueMoves.wordRead (user : Nat) (endMark : Bool) : QueueMoves q s (s.wordRead q user endMark) := by
  unfold State.wordRead
  split
  · exact QueueMoves.refl q s
  · split
    · exact (QueueMoves.event s q _ _ _ _).trans (QueueMoves.event _ q _ _ _ _)
    · exact QueueMoves.event s q _ _ _ _

theorem QueueMoves.queuePut (word : Nat) (endMark : Bool) : QueueMoves q s (s.queuePut q word endMark) := by
  unfold State.queuePut
  dsimp only
  split
  · exact (QueueMoves.bump s (by simp only [K.q.OVERRUN_COUNT]; omega)).trans (QueueMoves.modQueue _ q _ _)
  · split
    · exact (QueueMoves.modQueue s q _ _).trans (QueueMoves.wordRead _ _ _)
    · split
      · have hset : QueueMoves q s (s.setFlag (K.q.OVERRUN q) true) := QueueMoves.wr s _ (by simp only [K.q.OVERRUN]; omega)
        exact ((hset.trans (QueueMoves.bump _ (by simp only [K.q.OVERRUN_COUNT]; omega))).trans
          (QueueMoves.bump _ (by simp only [K.q.PACKETS_DROPPED]; omega))).trans (QueueMoves.modQueue _ q _ _)
      · exact QueueMoves.modQueue s q _ _

theorem QueueMoves.queuePuts (ws : List (Nat × Bool)) : QueueMoves q s (ws.foldl (fun t w => t.queuePut q w.1 w.2) s) := by
  induction ws generalizing s with
  | nil => exact QueueMoves.refl q s
  | cons w ws ih => exact (QueueMoves.queuePut s w.1 w.2).trans (ih _)

theorem QueueMoves.queueDrain (n : Nat) : QueueMoves q s (s.queueDrain q n) := by
  induction n generalizing s with
  | zero => exact QueueMoves.refl q s
  | succ n ih =>
    unfold State.queueDrain
    split
    · exact QueueMoves.refl q s
    · split
      · exact ((QueueMoves.modQueue s q _ _).trans (QueueMoves.queuePuts _ _)).trans (ih _)
      · exact QueueMoves.refl q s

theorem QueueMoves.queueTake (user : Nat) : QueueMoves q s (s.queueTake q user) := by
  unfold State.queueTake
  split
  · split
    · have hstalled := (QueueMoves.bump s (by simp only [K.q.STALLS]; omega)).trans
        (QueueMoves.modQueue (s.bump (K.q.STALLS q)) q q fun h => { h with stalled := true })
      unfold State.userEvent
      split
      · exact hstalled.trans (QueueMoves.event _ q _ _ _ _)
      · exact hstalled
    · exact QueueMoves.refl q s
  · split
    · exact ((QueueMoves.modQueue s q _ _).trans (QueueMoves.wordRead _ _ _)).trans (QueueMoves.queueDrain _ _)
    · exact QueueMoves.refl q s

end Queue

/-- A queue is no part of a message. -/
theorem QueueMoves.nbAs {q : Nat} {s t : State} (h : QueueMoves q s t) (hq : q < 256) : NbAs s t where
  keys := h.parts .keys (by simp)
  ports := congrArg Backhaul.ports (h.parts .bh (by simp))
  rd := fun r hr => h.rd r (by unfold Reg.carries at hr; omega)

/-! A REPORT is sent (R269, R277, R412). -/

/-- Session `k` is enabled and takes reports. -/
def State.takesReports (s : State) (k : Nat) : Bool := s.flag (K.sess.SESS_ENABLE k) && s.flag (K.sess.REPORTS k)

/-- The sessions that take reports. -/
def State.reportTo (s : State) : List Nat := (List.range 16).filter s.takesReports

/-- From `s` to `t` the P0 REPORT `msg` has been sent: it is counted, and has gone to the sessions that take reports. -/
structure Reported (msg : List Byte) (s t : State) : Prop where
  sent : Counted K.txns.REPORTS_SENT s t
  unsent : (∀ k : Nat, k < 16 → s.flag (K.sess.SESS_ENABLE k) = false) → Counted K.times.REPORTS_UNSENT s t ∧ t.bh = s.bh
  single : ∀ k : Nat, k < 16 → (∀ j : Nat, j < 16 → (s.flag (K.sess.SESS_ENABLE j) = true ∧ s.flag (K.sess.REPORTS j) = true ↔ j = k)) →
    NbSends k 0 msg s t

section Sessions

variable {s u : State}

/-- Two states with the same sessions send reports to the same ones. -/
theorem State.flag_of_ofHost (h : ∀ r : Reg, r.ofHost → u.rd r = s.rd r) {k : Nat} (hk : k < 16) :
    u.flag (K.sess.SESS_ENABLE k) = s.flag (K.sess.SESS_ENABLE k) ∧ u.flag (K.sess.REPORTS k) = s.flag (K.sess.REPORTS k) := by
  simp only [State.flag]
  rw [h _ (by simp only [Reg.ofHost, K.sess.SESS_ENABLE]; omega), h _ (by simp only [Reg.ofHost, K.sess.REPORTS]; omega)]
  exact ⟨rfl, rfl⟩

/-- A report is seen from any state before it with the same sessions and ports. -/
theorem Reported.since {msg : List Byte} {t : State} (h : Reported msg u t) (has : NbAs s u) (hset : SessionsSet s)
    (hrd : ∀ r : Reg, r.ofHost ∨ r = K.times.REPORTS_UNSENT → u.rd r = s.rd r) (hbh : u.bh = s.bh) : Reported msg s t := by
  have hflag {k : Nat} (hk : k < 16) := State.flag_of_ofHost (fun r hr => hrd r (.inl hr)) hk
  exact {
    sent := h.sent.of_rd_eq (hrd _ (.inl (by simp [Reg.ofHost, K.txns.REPORTS_SENT])))
    unsent := fun hoff => by
      obtain ⟨hcounted, hports⟩ := h.unsent fun k hk => (hflag hk).1.trans (hoff k hk)
      exact ⟨hcounted.of_rd_eq (hrd _ (.inr rfl)), hports.trans hbh⟩
    single := fun k hk honly => has.nbSends hset hk (h.single k hk fun j hj => by
      rw [(hflag hj).1, (hflag hj).2]
      exact honly j hj) }

theorem State.reportTo_of_none (h : ∀ k : Nat, k < 16 → s.flag (K.sess.SESS_ENABLE k) = false) : s.reportTo = [] :=
  List.filter_eq_nil_iff.2 fun k hk => by simp [State.takesReports, h k (List.mem_range.1 hk)]

theorem State.reportTo_of_single {k : Nat} (hk : k < 16)
    (h : ∀ j : Nat, j < 16 → (s.flag (K.sess.SESS_ENABLE j) = true ∧ s.flag (K.sess.REPORTS j) = true ↔ j = k)) : s.reportTo = [k] := by
  have hsame : s.reportTo = (List.range 16).filter (· == k) := List.filter_congr fun j hj => by
    rw [Bool.eq_iff_iff, State.takesReports, Bool.and_eq_true, h j (List.mem_range.1 hj), beq_iff_eq]
  rw [hsame, List.filter_beq, List.count_eq_one_of_mem List.nodup_range (List.mem_range.2 hk)]
  rfl

theorem State.reportTo_lt {k : Nat} (h : k ∈ s.reportTo) : k < 16 := List.mem_range.1 (List.mem_filter.1 h).1

end Sessions

section Report

variable (s : State) (msg : List Byte)

theorem State.emitReport_of_none (h : (s.bump K.txns.REPORTS_SENT).reportTo = []) :
    s.emitReport 0 msg = (s.bump K.txns.REPORTS_SENT).bump K.times.REPORTS_UNSENT := if_pos (List.isEmpty_iff.2 h)

theorem State.emitReport_of_some (h : (s.bump K.txns.REPORTS_SENT).reportTo ≠ []) : s.emitReport 0 msg =
    (s.bump K.txns.REPORTS_SENT).reportTo.foldl (fun t k => t.nbOut k 0 msg) (s.bump K.txns.REPORTS_SENT) :=
  if_neg fun hempty => h (List.isEmpty_iff.1 hempty)

theorem State.nbOuts_rd (hset : SessionsSet s) (ks : List Nat) (hks : ∀ k ∈ ks, k < 16) {r : Reg} (hr : r.ofHost) :
    (ks.foldl (fun t k => t.nbOut k 0 msg) s).rd r = s.rd r := by
  induction ks generalizing s with
  | nil => rfl
  | cons k ks ih =>
    have hk := hks k List.mem_cons_self
    have hset' : SessionsSet (s.nbOut k 0 msg) := hset.of_rd fun q hq _ => State.nbOut_rd 0 msg hset hk hq
    exact (ih _ hset' fun i hi => hks i (List.mem_cons_of_mem k hi)).trans (State.nbOut_rd 0 msg hset hk hr)

theorem State.emitReport_onlyChanges : OnlyChanges [.dict, .bh, .perf] s (s.emitReport 0 msg) := by
  have hcounted : OnlyChanges [.dict, .bh, .perf] s (s.bump K.txns.REPORTS_SENT) := (onlyChanges_bump s _).mono (by simp)
  by_cases h : (s.bump K.txns.REPORTS_SENT).reportTo = []
  · rw [s.emitReport_of_none msg h]
    exact hcounted.chain ((onlyChanges_bump _ _).mono (by simp))
  · rw [s.emitReport_of_some msg h]
    exact hcounted.chain (OnlyChanges.foldl _ (fun t k => State.nbOut_onlyChanges t k 0 msg) _)

theorem State.emitReport_sent (hset : SessionsSet s) : Counted K.txns.REPORTS_SENT s (s.emitReport 0 msg) := by
  have hset' : SessionsSet (s.bump K.txns.REPORTS_SENT) := (NbAs.bump s (by unfold Reg.carries; decide)).sessionsSet hset
  by_cases h : (s.bump K.txns.REPORTS_SENT).reportTo = []
  · rw [s.emitReport_of_none msg h]
    exact (State.rd_bump_ne _ (by decide)).trans (counted_bump s _)
  · rw [s.emitReport_of_some msg h]
    exact (State.nbOuts_rd _ msg hset' _ (fun k hk => State.reportTo_lt hk) (by simp [Reg.ofHost, K.txns.REPORTS_SENT])).trans
      (counted_bump s _)

theorem State.emitReport_reported (hset : SessionsSet s) : Reported msg s (s.emitReport 0 msg) := by
  have has : NbAs s (s.bump K.txns.REPORTS_SENT) := NbAs.bump s (by unfold Reg.carries; decide)
  have hflag {k : Nat} : (s.bump K.txns.REPORTS_SENT).flag (K.sess.SESS_ENABLE k) = s.flag (K.sess.SESS_ENABLE k) ∧
      (s.bump K.txns.REPORTS_SENT).flag (K.sess.REPORTS k) = s.flag (K.sess.REPORTS k) := by
    simp only [State.flag]
    rw [State.rd_bump_ne s (by simp only [K.sess.SESS_ENABLE, K.txns.REPORTS_SENT]; omega),
      State.rd_bump_ne s (by simp only [K.sess.REPORTS, K.txns.REPORTS_SENT]; omega)]
    exact ⟨rfl, rfl⟩
  refine ⟨s.emitReport_sent msg hset, fun hoff => ?_, fun k hk honly => ?_⟩
  · rw [s.emitReport_of_none msg (State.reportTo_of_none fun k hk => hflag.1.trans (hoff k hk))]
    exact ⟨(counted_bump (s.bump K.txns.REPORTS_SENT) _).of_rd_eq (State.rd_bump_ne s (by decide)), rfl⟩
  · have hone : (s.bump K.txns.REPORTS_SENT).reportTo = [k] := State.reportTo_of_single hk fun j hj => by
      rw [hflag.1, hflag.2]
      exact honly j hj
    rw [s.emitReport_of_some msg (by simp [hone]), hone]
    exact has.nbSends hset hk (State.nbOut_sends 0 msg (has.sessionsSet hset) hk)

end Report

theorem Reported.modPending {msg : List Byte} {s t : State} (h : Reported msg s t) (f : List Instr → List Instr) :
    Reported msg s (t.modPending f) :=
  ⟨h.sent, h.unsent, fun k hk honly => (h.single k hk honly).later rfl rfl⟩

theorem NbAs.symm {s u : State} (h : NbAs s u) : NbAs u s := ⟨h.keys.symm, h.ports.symm, fun r hr => (h.rd r hr).symm⟩

/-- From `s` to `t` the transaction engine has become `e` and the P0 REPORT `msg` has been sent. -/
structure ReportGoes (msg : List Byte) (e : TxnEngine) (s t : State) : Prop where
  txn : t.txn = e
  reported : Reported msg s t
  parts : OnlyChanges [.dict, .bh, .perf, .txn] s t

theorem State.emitReport_goes (s : State) (hset : SessionsSet s) (f : TxnEngine → TxnEngine) (msg : List Byte) :
    ReportGoes msg (f s.txn) s ((s.modTxn f).emitReport 0 msg) := by
  have hengine : OnlyChanges [.txn] s (s.modTxn f) := onlyChanges_modTxn s f
  have has : NbAs s (s.modTxn f) := NbAs.of_parts hengine (by simp)
  have hparts := (s.modTxn f).emitReport_onlyChanges msg
  exact {
    txn := hparts .txn (by simp)
    reported := (State.emitReport_reported _ msg (has.sessionsSet hset)).since has hset
      (fun r _ => State.rd_congr (hengine .dict (by simp)) r) (hengine .bh (by simp))
    parts := (hengine.trans hparts).mono (by simp) }

/-! REPORT_REPEAT (R277). -/

section Repeat

variable {s : State} {id : Nat} {r : ReportSend}

theorem exec_reportRepeat_of_coreUp (hup : s.coreUp 5 = true) (id : Nat) :
    exec (.reportRepeat id) s = .next ((s.reportRepeat id).modPending fun _ => s.pending) := onCore_of_coreUp hup _

theorem State.reportRepeat_of_none (h : Tbl.at? s.txn.reports id = none) : s.reportRepeat id = s := by
  rw [State.reportRepeat, h]

/-- The engine after one more sending of report `id` at tick `now`: after the last of `n` the report is freed (R277). -/
def TxnEngine.repeated (n now id : Nat) (r : ReportSend) (e : TxnEngine) : TxnEngine :=
  { e with reports := if n ≤ r.made + 1 then Tbl.del e.reports id else Tbl.ins e.reports id ⟨r.made + 1, now, r.msg⟩ }

theorem State.reportRepeat_of_some {u : State} (h : Tbl.at? s.txn.reports id = some r) (hu : u = s.atDeadline (r.last + msTicks 10)) :
    s.reportRepeat id = (u.modTxn (TxnEngine.repeated (u.rd K.txn.REPORT_REPEAT) u.now id r)).emitReport 0 r.msg := by
  rw [State.reportRepeat, h, hu]
  rfl

theorem TxnEngine.repeated_last {n now : Nat} (e : TxnEngine) (h : n ≤ r.made + 1) :
    Tbl.at? (e.repeated n now id r).reports id = none := by
  rw [TxnEngine.repeated, if_pos h]
  exact Tbl.at?_del_self _ id

theorem TxnEngine.repeated_more {n now : Nat} (e : TxnEngine) (h : r.made + 1 < n) :
    Tbl.at? (e.repeated n now id r).reports id = some ⟨r.made + 1, now, r.msg⟩ := by
  rw [TxnEngine.repeated, if_neg (Nat.not_le.2 h)]
  exact Tbl.at?_ins_self _ id _

theorem exec_reportRepeat_armed (hup : s.coreUp 5 = true) (hset : SessionsSet s) {u : State} (h : Tbl.at? s.txn.reports id = some r)
    (hu : u = s.atDeadline (r.last + msTicks 10)) :
    ∃ t, exec (.reportRepeat id) s = .next t ∧ t.now = u.now ∧ Counted K.txns.REPORTS_SENT s t ∧
      (s.rd K.txn.REPORT_REPEAT ≤ r.made + 1 → Tbl.at? t.txn.reports id = none) ∧
      (r.made + 1 < s.rd K.txn.REPORT_REPEAT → Tbl.at? t.txn.reports id = some ⟨r.made + 1, u.now, r.msg⟩) ∧
      ((∀ k : Nat, k < 16 → s.flag (K.sess.SESS_ENABLE k) = false) → Counted K.times.REPORTS_UNSENT s t ∧ t.bh = s.bh) ∧
      (∀ k : Nat, k < 16 → (∀ j : Nat, j < 16 → (s.flag (K.sess.SESS_ENABLE j) = true ∧ s.flag (K.sess.REPORTS j) = true ↔ j = k)) →
        NbSends k 0 r.msg u t) ∧
      OnlyChanges [.now, .free, .dict, .bh, .perf, .tracker, .tides, .txn] s t := by
  have hpassed : OnlyChanges timeParts s u := hu ▸ s.onlyChanges_atDeadline _
  have has : NbAs s u := hu ▸ NbAs.atDeadline s _
  have hrd : ∀ q : Reg, q.ofHost ∨ q = K.times.REPORTS_UNSENT → u.rd q = s.rd q := fun q hq => hu ▸ by
    rcases hq with hq | rfl
    · exact s.atDeadline_rd_of_host _ hq
    · exact s.atDeadline_rd _ (by decide) (by decide)
  have hrepeat := hrd K.txn.REPORT_REPEAT (.inl (by simp [Reg.ofHost, K.txn.REPORT_REPEAT]))
  have hset' := has.sessionsSet hset
  have hexec := exec_reportRepeat_of_coreUp hup id
  have hgoes := u.emitReport_goes hset' (TxnEngine.repeated (s.rd K.txn.REPORT_REPEAT) u.now id r) r.msg
  rw [State.reportRepeat_of_some h hu, hrepeat] at hexec
  obtain ⟨htxn, hreported, hparts⟩ := hgoes
  obtain ⟨hsent, hunsent, hsingle⟩ := (hreported.since has hset hrd (hpassed .bh (by simp [timeParts]))).modPending fun _ => s.pending
  refine ⟨_, hexec, ?_, hsent, fun hlast => ?_, fun hmore => ?_, hunsent,
    fun k hk honly => has.symm.nbSends hset' hk (hsingle k hk honly), ((hpassed.trans hparts).mono (by simp [timeParts])).keepQueue⟩
  · exact (State.modPending_now _ _).trans (hparts .now (by simp))
  · rw [State.modPending_txn, htxn]
    exact u.txn.repeated_last hlast
  · rw [State.modPending_txn, htxn]
    exact u.txn.repeated_more hmore

end Repeat

/-! ALARM_REPORT (R269, R398). -/

section Alarm

variable {s : State}

theorem exec_alarmReport_of_coreUp (hup : s.coreUp 5 = true) :
    exec .alarmReport s = .next (s.alarmReport.modPending fun _ => s.pending) := onCore_of_coreUp hup _

theorem State.alarmReport_of_none (h : s.mains.alarms = []) : s.alarmReport = s := by
  rw [State.alarmReport, h]

theorem onlyChanges_modMains (s : State) (f : Mains → Mains) : OnlyChanges [.mains] s (s.modMains f) := by
  intro p hp
  cases p <;> simp_all [Part.Same]

/-- The word of the first alarm has left Q254 (R398). -/
def State.alarmTaken (s : State) (rest : List Alarm) : State := (s.queueTake 254 16).modMains fun m => { m with alarms := rest }

theorem State.alarmTaken_onlyChanges (s : State) (rest : List Alarm) : OnlyChanges [.dict, .svc, .perf, .mains] s (s.alarmTaken rest) :=
  ((QueueMoves.queueTake (q := 254) s 16).parts.trans (onlyChanges_modMains _ _)).mono (by simp)

theorem State.alarmTaken_rd (s : State) (rest : List Alarm) {r : Reg} (hr : r.ofHost ∨ r = K.times.REPORTS_UNSENT) :
    (s.alarmTaken rest).rd r = s.rd r :=
  (QueueMoves.queueTake (q := 254) s 16).rd r (.inr (by
    rcases hr with hr | rfl
    · unfold Reg.ofHost at hr
      omega
    · decide))

theorem NbAs.alarmTaken (s : State) (rest : List Alarm) : NbAs s (s.alarmTaken rest) :=
  ((QueueMoves.queueTake (q := 254) s 16).nbAs (by decide)).trans (NbAs.of_parts (onlyChanges_modMains _ _) (by simp))

/-- The REPORT of an alarm under identifier `id` (R269, R277). -/
def Alarm.message (a : Alarm) (id : Nat) : List Byte :=
  nbHeader 6 0 true id 0 (8 + a.payload.length) ++ (beBytes 1 1 ++ beBytes 1 0 ++ beBytes 2 a.payload.length ++ beBytes 4 a.unit ++ a.payload)

/-- The engine once the next identifier is taken and its report kept for `n` sendings (R269, R277). -/
def TxnEngine.reportOpened (n now : Nat) (msg : List Byte) (e : TxnEngine) : TxnEngine :=
  { e with
    nextReport := if e.nextReport + 1 = 2 ^ 32 then 2 ^ 31 else e.nextReport + 1
    reports := if 1 < n then Tbl.ins e.reports e.nextReport ⟨1, now, msg⟩ else e.reports }

theorem State.sendReport_alarm (s : State) (a : Alarm) : s.sendReport 0 1 a.unit a.payload =
    (s.modTxn (TxnEngine.reportOpened (s.rd K.txn.REPORT_REPEAT) s.now (a.message s.txn.nextReport))).emitReport 0
      (a.message s.txn.nextReport) := by
  have hlength : (beBytes 1 1 ++ beBytes 1 0 ++ beBytes 2 a.payload.length ++ beBytes 4 a.unit ++ a.payload).length =
      8 + a.payload.length := by
    simp only [List.length_append, length_beBytes]
  unfold State.sendReport
  dsimp only
  rw [hlength]
  simp only [decide_true, Bool.true_and, decide_eq_true_eq]
  rfl

theorem State.alarmReport_of_cons {a : Alarm} {rest : List Alarm} (h : s.mains.alarms = a :: rest) :
    s.alarmReport = (s.alarmTaken rest).sendReport 0 1 a.unit a.payload := by
  rw [State.alarmReport, h]
  rfl

theorem exec_alarmReport_waiting (hup : s.coreUp 5 = true) (hset : SessionsSet s) {a : Alarm} {rest : List Alarm}
    (h : s.mains.alarms = a :: rest) :
    ∃ t msg, exec .alarmReport s = .next t ∧ t.mains = { s.mains with alarms := rest } ∧ Counted K.txns.REPORTS_SENT s t ∧
      t.txn.nextReport = (if s.txn.nextReport + 1 = 2 ^ 32 then 2 ^ 31 else s.txn.nextReport + 1) ∧
      msg = nbHeader 6 0 true s.txn.nextReport 0 (8 + a.payload.length) ++
        (beBytes 1 1 ++ beBytes 1 0 ++ beBytes 2 a.payload.length ++ beBytes 4 a.unit ++ a.payload) ∧
      (1 < s.rd K.txn.REPORT_REPEAT → Tbl.at? t.txn.reports s.txn.nextReport = some ⟨1, s.now, msg⟩) ∧
      ((∀ k : Nat, k < 16 → s.flag (K.sess.SESS_ENABLE k) = false) → Counted K.times.REPORTS_UNSENT s t ∧ t.bh = s.bh) ∧
      (∀ k : Nat, k < 16 → (∀ j : Nat, j < 16 → (s.flag (K.sess.SESS_ENABLE j) = true ∧ s.flag (K.sess.REPORTS j) = true ↔ j = k)) →
        NbSends k 0 msg s t) ∧
      OnlyChanges [.dict, .svc, .bh, .perf, .txn, .mains] s t := by
  have htaken := s.alarmTaken_onlyChanges rest
  have has := NbAs.alarmTaken s rest
  have hmains : (s.alarmTaken rest).mains = { s.mains with alarms := rest } := by
    rw [State.alarmTaken, State.modMains_mains, (QueueMoves.queueTake (q := 254) s 16).parts .mains (by simp)]
  have hrd {r : Reg} (hr : r.ofHost ∨ r = K.times.REPORTS_UNSENT) := s.alarmTaken_rd rest hr
  have hrepeat := hrd (r := K.txn.REPORT_REPEAT) (.inl (by simp [Reg.ofHost, K.txn.REPORT_REPEAT]))
  have htxn : (s.alarmTaken rest).txn = s.txn := htaken .txn (by simp)
  have hnow : (s.alarmTaken rest).now = s.now := htaken .now (by simp)
  have hexec := exec_alarmReport_of_coreUp hup
  have hgoes := (s.alarmTaken rest).emitReport_goes (has.sessionsSet hset)
    (TxnEngine.reportOpened (s.rd K.txn.REPORT_REPEAT) s.now (a.message s.txn.nextReport)) (a.message s.txn.nextReport)
  rw [State.alarmReport_of_cons h, State.sendReport_alarm, htxn, hrepeat, hnow] at hexec
  obtain ⟨hengine, hreported, hparts⟩ := hgoes
  rw [htxn] at hengine
  obtain ⟨hsent, hunsent, hsingle⟩ :=
    (hreported.since has hset (fun r hr => hrd hr) (htaken .bh (by simp))).modPending fun _ => s.pending
  refine ⟨_, a.message s.txn.nextReport, hexec, ?_, hsent, ?_, rfl, fun hmore => ?_, hunsent, hsingle,
    ((htaken.trans hparts).mono (by simp)).keepQueue⟩
  · rw [State.modPending_mains, ← hmains]
    exact hparts .mains (by simp)
  · rw [State.modPending_txn, hengine]
    rfl
  · rw [State.modPending_txn, hengine, TxnEngine.reportOpened, if_pos hmore]
    exact Tbl.at?_ins_self _ _ _

end Alarm

end Sys2Proof.Machine

end

section
/-! PROOF. O60, put together. -/

namespace Sys2Proof.Machine

/-- Settles O60: every deadline of the transaction engine acts on what it is armed for, and a deadline that is not armed does nothing. -/
theorem legsMessagesRecordsAndReportsKeepTheirTimes : Obligations.LegsMessagesRecordsAndReportsKeepTheirTimes := by
  refine ⟨⟨fun k j s hup hset => ?_, fun c s hup => ?_⟩,
    fun s hup hset => ⟨fun k => ?_, fun id => ⟨fun hnone => ?_, fun r u hr hu => exec_reportRepeat_armed hup hset hr hu⟩, fun hnone => ?_,
      fun a rest halarms _ => exec_alarmReport_waiting hup hset halarms⟩⟩
  · have hdeadline := exec_legDeadline_of_coreUp hup k j
    have hwait := exec_respWaitExpiry_of_coreUp hup k j
    exact ⟨fun hnone => ⟨exec_unchanged hdeadline (State.legDeadline_of_none hnone), exec_unchanged hwait (State.respWaitExpiry_of_none hnone)⟩,
      fun l hl hover => exec_unchanged hdeadline (State.legDeadline_of_over hl hover),
      fun l hl hunarmed => exec_unchanged hwait (State.respWaitExpiry_of_unarmed hl hunarmed),
      fun x l haborting hsole => ⟨exec_legDeadline_sole hup hset hsole,
        fun due hdue hlast => exec_respWaitExpiry_last hup hset hsole haborting hdue hlast,
        fun due i u hdue hmore hi hu hverdict => exec_respWaitExpiry_retry hup hsole haborting hdue hmore hi (hu ▸ hverdict)⟩⟩
  · refine ⟨exec_legQuotaRelease_idle hup, fun d rest i u hlo hhi hfree hbridged hi hu hverdict => ?_,
      fun k j i due x l rest hlo hhi hwaiting hx hc hl hi hquota hrest _ hdue hverdict =>
        exec_legQuotaRelease_leg hup hlo hhi hwaiting hx hc hl hi hquota hrest hdue hverdict⟩
    subst hu
    exact exec_legQuotaRelease_bridged hup hlo hhi hfree hbridged hi hverdict
  · refine ⟨fun hunarmed => exec_unchanged (exec_aggTimeExpiry_of_coreUp hup k) (State.aggExpiry_of_unarmed hunarmed),
      fun x due u hk hsession _ hx hsince hopen hu => ?_,
      fun hunarmed => exec_unchanged (exec_cacheTimeExpiry_of_coreUp hup k) (State.cacheExpiry_of_unarmed hunarmed),
      fun due hdue => exec_cacheTimeExpiry_armed hup hdue⟩
    subst hu
    exact exec_aggTimeExpiry_armed hup hset hk hsession hx hsince hopen
  · exact exec_unchanged (exec_reportRepeat_of_coreUp hup id) (State.reportRepeat_of_none hnone)
  · exact exec_unchanged (exec_alarmReport_of_coreUp hup) (State.alarmReport_of_none hnone)

end Sys2Proof.Machine

end
